-- ==== Sys2Proof/Word.lean ====
section
/-! DEFINITION. The words of the TWM-7210: bytes, 32-bit words, byte strings, and complement pairs. -/

namespace Sys2Proof

/-- One byte. -/
abbrev Byte := BitVec 8

/-- One 32-bit word, the unit of the host port (R33, R35) and of WCP payload items (R441). -/
abbrev Word := BitVec 32

/-- A byte string of `len` bytes, held as its little-endian number `val` (R5): byte k is bits [8k+7:8k]. -/
structure Bytes where
  len : Nat
  val : Nat
deriving DecidableEq, Repr

/-- A value held under the complement convention as (V, ~V) (R350). -/
structure Pair (n : Nat) where
  v : BitVec n
  nv : BitVec n
deriving DecidableEq, Repr

/-- A block pair with its shadow copy (R351): the pointer, itself a pair of one word, names the copy that is live. -/
structure Stored (n : Nat) where
  a : Pair n
  b : Pair n
  ptr : Pair 32
deriving DecidableEq, Repr

/-- A list of blocks held under the complement convention. -/
structure PairList where
  v : List (BitVec 128)
  nv : List (BitVec 128)
deriving DecidableEq, Repr

/-- A list pair with its shadow copy and the pointer pair (R351). -/
structure StoredList where
  a : PairList
  b : PairList
  ptr : Pair 32
deriving DecidableEq, Repr

/-- A sparse store: keys strictly rising, no entry equal to the default an unlisted key reads as. -/
abbrev Sparse (α : Type) := List (Nat × α)

end Sys2Proof
end

