-- ==== Sys2Proof/Syntax.lean ====
section
/-! DEFINITION. The commands of the block: one constructor per row of spec/opcode_table.json.
Every command carries first `dt`, the D-CORE cycles that passed since the previous command (log entry 2); the other
operands are what the row's sender or the outside world supplies. -/

namespace Sys2Proof

/-- What HOST_CS_N release cuts: nothing, a written word, or a read word (R36, R438). -/
inductive CutWord | none | write | read
deriving DecidableEq, Repr

/-- Read and write opcodes of Table 2-1: single and quad. -/
inductive ReadOp | read | qread
deriving DecidableEq, Repr
inductive WriteOp | write | qwrite
deriving DecidableEq, Repr

/-- The latched causes of Table 14-11. -/
inductive Cause | por | pfVbat | ovVbat | rail | thermHw | standby | rstN | commanded | lockstep | memory | switchFail
deriving DecidableEq, Repr

/-- What hardware decides at a boot: the fuse read's redundancy check (R375) and whether the verified images of slots A and B start
(R382). -/
structure BootEnv where
  fusesOk : Bool
  generalStarts : Bool × Bool
  sealedStarts : Bool × Bool
deriving DecidableEq, Repr

/-- The two ring ports (R213). -/
inductive Port | e | w
deriving DecidableEq, Repr

/-- The restartable functions of R21: firing controller, export, ring ports, queues, cameras, converters, sequences,
EXC_POL and outputs. -/
inductive FnId
  | fire | hexport | port (p : Port) | queue (n : Fin 16384) | cam (n : Fin 4) | adc (n : Fin 4) | seq (n : Fin 4)
  | exc | output (n : Fin 16)
deriving DecidableEq, Repr

/-- Where a WCP envelope stands: a mailbox window (R39) or the oldest unit of Q0 (R44). -/
inductive Origin | mailbox (n : Fin 8) | q0
deriving DecidableEq, Repr

/-- Why a link was declared failed, in the order of R227. -/
inductive LinkCause | signal | markers | codewords | breakSeen
deriving DecidableEq, Repr

/-- The ECC outcome of a CSI-2 header (R273). -/
inductive EccState | ok | corrected | uncorrectable
deriving DecidableEq, Repr

/-- A received CSI-2 packet (R271, R274): header, ECC outcome, payload and CRC of a long packet, and whether crossing
X10 lost it (Table 1-4). -/
structure CsiPacket where
  hdr : BitVec 32
  ecc : EccState
  payload : Bytes
  crc : BitVec 16
  crcOk : Bool
  x10Lost : Bool
deriving DecidableEq, Repr

/-- The two ends of the isolation bridge (R280). -/
inductive Side | core | field
deriving DecidableEq, Repr

/-- What one field tick senses: the readback comparators (R323) and the ADC2 background codes (R328), unclamped. -/
structure FieldSense where
  outs : List Nat
  loop0 : Int
  loop1 : Int
  v0 : Int
  v1 : Int
  v2 : Int
  v3 : Int
deriving DecidableEq, Repr

/-- One supervision sample (R304): the currents of the output and its members in uA, leader first, the output and
group voltages in mV, as they are at the pins. -/
structure LampSample where
  ua : List Nat
  mv : Nat
  groupMv : Nat
deriving DecidableEq, Repr

/-- What one diagnostic slot senses (R308, R309): the pulse current, and the readbacks 10 us before and 40 us into it. -/
structure DiagSense where
  ua : Nat
  before : BitVec 16
  during : BitVec 16
  groupMv : Nat
deriving DecidableEq, Repr

/-- What a self-test slice found (R364): whether the pattern count is complete, the signature match, a compare error,
an uncorrectable MRAM error (R367), and the failing unit. -/
structure SliceResult where
  complete : Bool
  sigMatch : Bool
  compareErr : Bool
  uncorrectable : Bool
  unit : Nat
deriving DecidableEq, Repr

/-- One verdict of a directed self-test (R369): class, index, verdict code of Table 12-4. -/
structure DirectedVerdict where
  cls : Nat
  idx : Nat
  verdict : Nat
deriving DecidableEq, Repr

/-- The two updatable components (R389). -/
inductive Component | general | sealed
deriving DecidableEq, Repr

/-- The monitored supplies in the SOURCE order of E_SUPPLY (Table 14-13). -/
inductive Rail | vbat | vint | vcore | vser | vmem | vio | vaon
deriving DecidableEq, Repr

/-- The F-die NVM commits that may wait for VFIELD (R405). -/
inductive NvmKind | fieldBlock | inputs | coeffs | remap
deriving DecidableEq, Repr

/-- The commands, one constructor per row of the opcode table, in its order. -/
inductive Instr
  /-- HIF_DB_WRITE (R40). -/
  | hifDbWrite (dt : Nat) (v : Word)
  /-- HIF_MB_REL_WRITE (R40). -/
  | hifMbRelWrite (dt : Nat) (v : Word)
  /-- HIF_EVT_RD_WRITE (R60). -/
  | hifEvtRdWrite (dt : Nat) (v : Word)
  /-- HIF_TIME_LO_READ (R438). -/
  | hifTimeLoRead (dt : Nat) (op : ReadOp) (addr : BitVec 16) (n : Nat)
  /-- HIF_EVT_LOST_READ (R438). -/
  | hifEvtLostRead (dt : Nat) (op : ReadOp) (addr : BitVec 16) (n : Nat)
  /-- MB_WINDOW_WRITE (R41). -/
  | mbWindowWrite (dt : Nat) (op : WriteOp) (addr : BitVec 16) (ws : List Word)
  /-- REGISTER_WRITE (R8). -/
  | registerWrite (dt : Nat) (op : WriteOp) (addr : BitVec 16) (ws : List Word)
  /-- HOST_CS_N_RELEASE (R36). -/
  | hostCsNRelease (dt : Nat) (cut : CutWord)
  /-- BAD_OP (R36). -/
  | badOp (dt : Nat) (opcode : Byte)
  /-- RESPONSE_RETRY (R46). -/
  | responseRetry (dt : Nat) (accepted : Bool)
  /-- SESSION_IDLE_TIMEOUT (R52). -/
  | sessionIdleTimeout (dt : Nat) (n : Fin 16)
  /-- SESSION_OPEN_TIMEOUT (R52). -/
  | sessionOpenTimeout (dt : Nat) (n : Fin 16)
  /-- SYS_IDENT_GET (R67). -/
  | sysIdentGet (dt : Nat) (o : Origin)
  /-- SYS_STATUS_GET (R65). -/
  | sysStatusGet (dt : Nat) (o : Origin)
  /-- SYS_SESSION_STATUS (R65). -/
  | sysSessionStatus (dt : Nat) (o : Origin)
  /-- SYS_RESULT_GET (R58). -/
  | sysResultGet (dt : Nat) (o : Origin)
  /-- SYS_SESSION_OPEN (R51). -/
  | sysSessionOpen (dt : Nat) (o : Origin)
  /-- SYS_SESSION_CLOSE (R52). -/
  | sysSessionClose (dt : Nat) (o : Origin)
  /-- SYS_POLICY_SET (R65). -/
  | sysPolicySet (dt : Nat) (o : Origin)
  /-- SYS_EVENT_MASK_SET (R61). -/
  | sysEventMaskSet (dt : Nat) (o : Origin)
  /-- SYS_RESET (R65). -/
  | sysReset (dt : Nat) (o : Origin)
  /-- COMMANDED_RESET_TIMER (R65). -/
  | commandedResetTimer (dt : Nat)
  /-- DEVICE_RESET (R439). -/
  | deviceReset (dt : Nat) (cause : Cause)
  /-- RST_N_ASSERT (R439). -/
  | rstNAssert (dt : Nat) (width : Nat)
  /-- RST_N_RELEASE (R398). -/
  | rstNRelease (dt : Nat)
  /-- BOOT (R381). -/
  | boot (dt : Nat) (env : BootEnv)
  /-- SCAN_PLAN_GET (R105). -/
  | scanPlanGet (dt : Nat) (o : Origin)
  /-- FIRE_STATUS_GET (R105). -/
  | fireStatusGet (dt : Nat) (o : Origin)
  /-- FIRE_DOSE_GET (R105). -/
  | fireDoseGet (dt : Nat) (o : Origin)
  /-- SCAN_CALENDAR_GET (R105). -/
  | scanCalendarGet (dt : Nat) (o : Origin)
  /-- SCAN_PLAN_WRITE (R74). -/
  | scanPlanWrite (dt : Nat) (o : Origin)
  /-- SCAN_PLAN_COMMIT (R74). -/
  | scanPlanCommit (dt : Nat) (o : Origin)
  /-- SCAN_PLAN_SELECT (R77). -/
  | scanPlanSelect (dt : Nat) (o : Origin)
  /-- FIRE_ENABLE (R98). -/
  | fireEnable (dt : Nat) (o : Origin)
  /-- FIRE_DISABLE (R98). -/
  | fireDisable (dt : Nat) (o : Origin)
  /-- SCAN_TRIGGER_SET (R81). -/
  | scanTriggerSet (dt : Nat) (o : Origin)
  /-- SCAN_FRAME_TRIGGER (R80). -/
  | scanFrameTrigger (dt : Nat) (o : Origin)
  /-- FIRE_DITHER_SET (R86). -/
  | fireDitherSet (dt : Nat) (o : Origin)
  /-- FIRE_EMITTER_SET (R92). -/
  | fireEmitterSet (dt : Nat) (o : Origin)
  /-- FIRE_BUDGET_SET (R87). -/
  | fireBudgetSet (dt : Nat) (o : Origin)
  /-- FIRE_KILL_CLEAR (R97). -/
  | fireKillClear (dt : Nat) (o : Origin)
  /-- FIRE_STRIPE_CLEAR (R94). -/
  | fireStripeClear (dt : Nat) (o : Origin)
  /-- SCAN_FOLLOW_SET (R99). -/
  | scanFollowSet (dt : Nat) (o : Origin)
  /-- SCAN_CALENDAR_SET (R102). -/
  | scanCalendarSet (dt : Nat) (o : Origin)
  /-- INTERNAL_TRIGGER (R82). -/
  | internalTrigger (dt : Nat)
  /-- FRAME_SYNC_ASSERT (R78). -/
  | frameSyncAssert (dt : Nat) (width : Nat)
  /-- CALENDAR_INSTANT (R102). -/
  | calendarInstant (dt : Nat)
  /-- FRAME_START (R79). -/
  | frameStart (dt : Nat)
  /-- SHOT_QUEUE_ENQUEUE (R76). -/
  | shotQueueEnqueue (dt : Nat)
  /-- GROUP_START (R89). -/
  | groupStart (dt : Nat) (off : Int)
  /-- SHOT (R88). -/
  | shot (dt : Nat) (w0 w1 w2 w3 : List (Nat × Nat))
  /-- WITNESS_STRAY_EVENT (R95). -/
  | witnessStrayEvent (dt : Nat) (w : Fin 4)
  /-- EMIT_FAULT_N_ASSERT (R96). -/
  | emitFaultNAssert (dt : Nat) (width : Nat)
  /-- ARM_LEAD_EXPIRY (R98). -/
  | armLeadExpiry (dt : Nat)
  /-- DOSE_SUBWINDOW_BOUNDARY (R91). -/
  | doseSubwindowBoundary (dt : Nat)
  /-- FIRE_STOP_DONE (R98). -/
  | fireStopDone (dt : Nat)
  /-- FUNCTION_RESTART (R21). -/
  | functionRestart (dt : Nat) (f : FnId)
  /-- GROUP_ACCUMULATION_END (R143). -/
  | groupAccumulationEnd (dt : Nat)
  /-- RX_STATUS_GET (R136). -/
  | rxStatusGet (dt : Nat) (o : Origin)
  /-- RX_LAYOUT_GET (R442). -/
  | rxLayoutGet (dt : Nat) (o : Origin)
  /-- RX_MASK_GET (R136). -/
  | rxMaskGet (dt : Nat) (o : Origin)
  /-- RX_SURVEY_GET (R136). -/
  | rxSurveyGet (dt : Nat) (o : Origin)
  /-- RX_COINC_GET (R442). -/
  | rxCoincGet (dt : Nat) (o : Origin)
  /-- RX_LENS_GET (R136). -/
  | rxLensGet (dt : Nat) (o : Origin)
  /-- RX_CONFIG_SET (R135). -/
  | rxConfigSet (dt : Nat) (o : Origin)
  /-- RX_LAYOUT_SET (R113). -/
  | rxLayoutSet (dt : Nat) (o : Origin)
  /-- RX_COINC_SET (R121). -/
  | rxCoincSet (dt : Nat) (o : Origin)
  /-- RX_MASK_WRITE (R122). -/
  | rxMaskWrite (dt : Nat) (o : Origin)
  /-- RX_MASK_COMMIT (R122). -/
  | rxMaskCommit (dt : Nat) (o : Origin)
  /-- RX_WITNESS_SET (R127). -/
  | rxWitnessSet (dt : Nat) (o : Origin)
  /-- RX_CHANNEL_RETIRE (R118). -/
  | rxChannelRetire (dt : Nat) (o : Origin)
  /-- RX_CHANNEL_RESTORE (R118). -/
  | rxChannelRestore (dt : Nat) (o : Origin)
  /-- RX_VBD_SET (R109). -/
  | rxVbdSet (dt : Nat) (o : Origin)
  /-- RX_VBD_MEASURE (R109). -/
  | rxVbdMeasure (dt : Nat) (o : Origin)
  /-- RX_VBD_MEASURE_DONE (R109). -/
  | rxVbdMeasureDone (dt : Nat) (counts : List Nat)
  /-- RX_LENS_SET (R107). -/
  | rxLensSet (dt : Nat) (o : Origin)
  /-- PHOTON_EVENT (R132). -/
  | photonEvent (dt : Nat) (ch : Fin 1032) (t : Nat) (ages : List Nat)
  /-- BIAS_FAULT (R111). -/
  | biasFault (dt : Nat) (off : Int) (held : Nat)
  /-- BIAS_FAULT_CLEAR (R111). -/
  | biasFaultClear (dt : Nat) (off : Int) (held : Nat)
  /-- HOLDOFF_AUTO_TIMER (R110). -/
  | holdoffAutoTimer (dt : Nat)
  /-- SURVEY_PASS_START (R123). -/
  | surveyPassStart (dt : Nat)
  /-- SURVEY_PASS_DONE (R125). -/
  | surveyPassDone (dt : Nat) (counts : List Nat)
  /-- LINEARISATION_UPDATE (R131). -/
  | linearisationUpdate (dt : Nat) (tdc : Fin 1032) (codes : List Nat)
  /-- WITNESS_INTERVAL_END (R128). -/
  | witnessIntervalEnd (dt : Nat) (w4 w5 w6 w7 : List (Nat × Nat))
  /-- EVENT_WORD_ACCUMULATE (R140). -/
  | eventWordAccumulate (dt : Nat) (ch : Fin 1024)
  /-- PAIR_HANDOVER (R143). -/
  | pairHandover (dt : Nat)
  /-- RET_PROCESSING_START (R11). -/
  | retProcessingStart (dt : Nat)
  /-- RET_PROCESSING_END (R144). -/
  | retProcessingEnd (dt : Nat)
  /-- EXPORT_CHUNK_ENQUEUE (R155). -/
  | exportChunkEnqueue (dt : Nat)
  /-- EXPORT_STOP_TIMEOUT (R154). -/
  | exportStopTimeout (dt : Nat)
  /-- PLANE_HOLD_TIMEOUT (R157). -/
  | planeHoldTimeout (dt : Nat)
  /-- IMPORT_CHUNK_DEQUEUE (R159). -/
  | importChunkDequeue (dt : Nat)
  /-- IMPORT_SLICE_START (R159). -/
  | importSliceStart (dt : Nat)
  /-- IMPORT_UNIT_DONE (R184). -/
  | importUnitDone (dt : Nat)
  /-- HIST_STATUS_GET (R161). -/
  | histStatusGet (dt : Nat) (o : Origin)
  /-- HIST_PLANECFG_GET (R442). -/
  | histPlanecfgGet (dt : Nat) (o : Origin)
  /-- HIST_GATE_GET (R442). -/
  | histGateGet (dt : Nat) (o : Origin)
  /-- HIST_PLANE_READ (R158). -/
  | histPlaneRead (dt : Nat) (o : Origin)
  /-- HIST_TRACK_GET (R161). -/
  | histTrackGet (dt : Nat) (o : Origin)
  /-- HIST_PLANECFG_SET (R139). -/
  | histPlanecfgSet (dt : Nat) (o : Origin)
  /-- HIST_GATE_SET (R145). -/
  | histGateSet (dt : Nat) (o : Origin)
  /-- HIST_EXPORT_SET (R156). -/
  | histExportSet (dt : Nat) (o : Origin)
  /-- HIST_EXPORT_ENABLE (R154). -/
  | histExportEnable (dt : Nat) (o : Origin)
  /-- HIST_EXPORT_DISABLE (R154). -/
  | histExportDisable (dt : Nat) (o : Origin)
  /-- HIST_PLANE_HOLD (R157). -/
  | histPlaneHold (dt : Nat) (o : Origin)
  /-- HIST_PLANE_RELEASE (R158). -/
  | histPlaneRelease (dt : Nat) (o : Origin)
  /-- HIST_PLANE_SEND (R158). -/
  | histPlaneSend (dt : Nat) (o : Origin)
  /-- HIST_IMPORT_SET (R159). -/
  | histImportSet (dt : Nat) (o : Origin)
  /-- HIST_TRACK_CLEAR (R147). -/
  | histTrackClear (dt : Nat) (o : Origin)
  /-- ZONE_BLIND_TIMEOUT (R192). -/
  | zoneBlindTimeout (dt : Nat) (z : Fin 64)
  /-- WINDOW_LEARN_DONE (R188). -/
  | windowLearnDone (dt : Nat)
  /-- RET_STATUS_GET (R194). -/
  | retStatusGet (dt : Nat) (o : Origin)
  /-- RET_TEMPLATE_GET (R442). -/
  | retTemplateGet (dt : Nat) (o : Origin)
  /-- ZONE_MAP_GET (R194). -/
  | zoneMapGet (dt : Nat) (o : Origin)
  /-- ZONE_STATE_GET (R194). -/
  | zoneStateGet (dt : Nat) (o : Origin)
  /-- RET_CONFIG_GET (R194). -/
  | retConfigGet (dt : Nat) (o : Origin)
  /-- RET_CONFIG_SET (R187). -/
  | retConfigSet (dt : Nat) (o : Origin)
  /-- RET_TEMPLATE_SET (R164). -/
  | retTemplateSet (dt : Nat) (o : Origin)
  /-- RET_POINTS_SET (R181). -/
  | retPointsSet (dt : Nat) (o : Origin)
  /-- RET_RAW_SET (R185). -/
  | retRawSet (dt : Nat) (o : Origin)
  /-- RET_WINDOW_LEARN (R188). -/
  | retWindowLearn (dt : Nat) (o : Origin)
  /-- ZONE_MAP_SET (R190). -/
  | zoneMapSet (dt : Nat) (o : Origin)
  /-- REFERENCE_PASS_START (R197). -/
  | referencePassStart (dt : Nat)
  /-- REFERENCE_PASS_DONE (R198). -/
  | referencePassDone (dt : Nat) (m : List Int)
  /-- REF_STALE_TIMEOUT (R198). -/
  | refStaleTimeout (dt : Nat)
  /-- CAL_FULL_DONE (R208). -/
  | calFullDone (dt : Nat)
  /-- CAL_STATUS_GET (R212). -/
  | calStatusGet (dt : Nat) (o : Origin)
  /-- CAL_COEFF_GET (R212). -/
  | calCoeffGet (dt : Nat) (o : Origin)
  /-- CAL_RESULT_GET (R208). -/
  | calResultGet (dt : Nat) (o : Origin)
  /-- CAL_COEFF_WRITE (R204). -/
  | calCoeffWrite (dt : Nat) (o : Origin)
  /-- CAL_COEFF_COMMIT (R204). -/
  | calCoeffCommit (dt : Nat) (o : Origin)
  /-- CAL_FULL_START (R205). -/
  | calFullStart (dt : Nat) (o : Origin)
  /-- CAL_FULL_ABORT (R209). -/
  | calFullAbort (dt : Nat) (o : Origin)
  /-- SIGNAL_DETECT (R226). -/
  | signalDetect (dt : Nat) (p : Port)
  /-- TRAINING_COMPLETE (R226). -/
  | trainingComplete (dt : Nat) (p : Port)
  /-- MARKER_LOCK (R226). -/
  | markerLock (dt : Nat) (p : Port) (flit : BitVec 512)
  /-- LINK_DELAY_AVERAGED (R226). -/
  | linkDelayAveraged (dt : Nat) (p : Port)
  /-- TIME_SERVO_UPDATE (R242). -/
  | timeServoUpdate (dt : Nat)
  /-- SUPERFRAME (R224). -/
  | superframe (dt : Nat) (p : Port)
  /-- MARKER (R218). -/
  | marker (dt : Nat) (p : Port) (flit : BitVec 512)
  /-- TIME_FLIT (R241). -/
  | timeFlit (dt : Nat) (p : Port) (flit : BitVec 512)
  /-- CREDIT_FLIT (R264). -/
  | creditFlit (dt : Nat) (p : Port) (flit : BitVec 512)
  /-- JOIN_REQ (R231). -/
  | joinReq (dt : Nat) (p : Port) (flit : BitVec 512)
  /-- JOIN_ACK (R226). -/
  | joinAck (dt : Nat) (p : Port) (flit : BitVec 512)
  /-- LEAVE (R232). -/
  | leave (dt : Nat) (p : Port) (flit : BitVec 512)
  /-- BREAK (R235). -/
  | breakMsg (dt : Nat) (p : Port) (flit : BitVec 512)
  /-- HEAL (R236). -/
  | heal (dt : Nat) (p : Port) (flit : BitVec 512)
  /-- MEMBERS (R229). -/
  | members (dt : Nat) (p : Port) (flit : BitVec 512)
  /-- CALENDAR (R245). -/
  | calendar (dt : Nat) (p : Port) (flit : BitVec 512)
  /-- RESV_REQ (R237). -/
  | resvReq (dt : Nat) (p : Port) (flit : BitVec 512)
  /-- RESV_ANS (R237). -/
  | resvAns (dt : Nat) (p : Port) (flit : BitVec 512)
  /-- ALLOWANCE (R238). -/
  | allowance (dt : Nat) (p : Port) (flit : BitVec 512)
  /-- ELECT (R230). -/
  | elect (dt : Nat) (p : Port) (flit : BitVec 512)
  /-- RING_FRAME_RECEIVE (R222). -/
  | ringFrameReceive (dt : Nat) (p : Port) (hdr : BitVec 128) (payload : Bytes) (uncorrectable : Bool)
  /-- LINK_FAILURE (R227). -/
  | linkFailure (dt : Nat) (p : Port) (cause : LinkCause)
  /-- STARTING_RETRY_TIMER (R227). -/
  | startingRetryTimer (dt : Nat) (p : Port)
  /-- DEGRADE_WINDOW (R228): corrected symbols, symbols and uncorrectable codewords of the 1 s window that ends. -/
  | degradeWindow (dt : Nat) (p : Port) (errors symbols bad : Nat)
  /-- HEAD_LOSS_TIMEOUT (R230). -/
  | headLossTimeout (dt : Nat)
  /-- ELECT_TIMEOUT (R230). -/
  | electTimeout (dt : Nat)
  /-- NO_HEAD_REPORT (R230). -/
  | noHeadReport (dt : Nat)
  /-- JOIN_RETRY_TIMER (R231). -/
  | joinRetryTimer (dt : Nat)
  /-- NODE_HOLD_EXPIRY (R232). -/
  | nodeHoldExpiry (dt : Nat) (node : Fin 32)
  /-- MEMBERS_REPEAT (R229). -/
  | membersRepeat (dt : Nat)
  /-- CALENDAR_REPEAT (R245). -/
  | calendarRepeat (dt : Nat)
  /-- TIME_HOLDOVER_TIMEOUT (R243). -/
  | timeHoldoverTimeout (dt : Nat)
  /-- RING_PORT_STOP_DONE (R246). -/
  | ringPortStopDone (dt : Nat) (p : Port)
  /-- RING_STATUS_GET (R247). -/
  | ringStatusGet (dt : Nat) (o : Origin)
  /-- RING_PORT_GET (R247). -/
  | ringPortGet (dt : Nat) (o : Origin)
  /-- RING_MEMBERS_GET (R247). -/
  | ringMembersGet (dt : Nat) (o : Origin)
  /-- RING_RESV_GET (R247). -/
  | ringResvGet (dt : Nat) (o : Origin)
  /-- RING_PORT_SET (R216). -/
  | ringPortSet (dt : Nat) (o : Origin)
  /-- RING_PORT_ENABLE (R226). -/
  | ringPortEnable (dt : Nat) (o : Origin)
  /-- RING_PORT_DISABLE (R246). -/
  | ringPortDisable (dt : Nat) (o : Origin)
  /-- RING_CONFIG_SET (R247). -/
  | ringConfigSet (dt : Nat) (o : Origin)
  /-- RING_RESV_SET (R237). -/
  | ringResvSet (dt : Nat) (o : Origin)
  /-- RING_RESV_CLEAR (R238). -/
  | ringResvClear (dt : Nat) (o : Origin)
  /-- RING_ROUTE_REBALANCE (R236). -/
  | ringRouteRebalance (dt : Nat) (o : Origin)
  /-- CELL_REQUEST (R255): a unit of the bound producer, with the fields of its stream header where its type has no own (Table 9-7). -/
  | cellRequest (dt : Nat) (q : Fin 16384) (flags recsize records info : Nat) (unit : Bytes)
  /-- INBOUND_FRAME_APPEND (R263). -/
  | inboundFrameAppend (dt : Nat) (p : Port)
  /-- PARTIAL_UNIT_TIMEOUT (R263). -/
  | partialUnitTimeout (dt : Nat) (q : Fin 16384) (src : Fin 32)
  /-- UNIT_DELIVERED (R260). -/
  | unitDelivered (dt : Nat) (q : Fin 16384) (sub : Fin 33)
  /-- LEASE_EXPIRY (R261). -/
  | leaseExpiry (dt : Nat) (q : Fin 16384) (sub : Fin 33)
  /-- Q_STOP_TIMEOUT (R258). -/
  | qStopTimeout (dt : Nat) (q : Fin 16384)
  /-- CREDIT_TMO_EXPIRY (R265). -/
  | creditTmoExpiry (dt : Nat) (q : Fin 16384) (node : Fin 32)
  /-- Q1_RESET (R265). -/
  | q1Reset (dt : Nat)
  /-- Q1_RESYNC (R265). -/
  | q1Resync (dt : Nat)
  /-- CREDIT_RESET_SENDER_TIMER (R265). -/
  | creditResetSenderTimer (dt : Nat) (q : Fin 16384) (node : Fin 32)
  /-- CREDIT_RESET_RECEIVER_TIMER (R265). -/
  | creditResetReceiverTimer (dt : Nat) (q : Fin 16384) (node : Fin 32)
  /-- EVENT_UNIT_CLOSE (R269). -/
  | eventUnitClose (dt : Nat)
  /-- Q_STATUS_GET (R279). -/
  | qStatusGet (dt : Nat) (o : Origin)
  /-- Q_SUBS_GET (R279). -/
  | qSubsGet (dt : Nat) (o : Origin)
  /-- Q_POOL_GET (R279). -/
  | qPoolGet (dt : Nat) (o : Origin)
  /-- CAM_STATUS_GET (R279). -/
  | camStatusGet (dt : Nat) (o : Origin)
  /-- Q_CONFIG_SET (R250). -/
  | qConfigSet (dt : Nat) (o : Origin)
  /-- Q_ENABLE (R254). -/
  | qEnable (dt : Nat) (o : Origin)
  /-- Q_DISABLE (R258). -/
  | qDisable (dt : Nat) (o : Origin)
  /-- Q_SUBSCRIBE (R259). -/
  | qSubscribe (dt : Nat) (o : Origin)
  /-- Q_UNSUBSCRIBE (R261). -/
  | qUnsubscribe (dt : Nat) (o : Origin)
  /-- Q_READ (R262). -/
  | qRead (dt : Nat) (o : Origin)
  /-- STREAM_EVENTS_SET (R269). -/
  | streamEventsSet (dt : Nat) (o : Origin)
  /-- STREAM_MIRROR_SET (R270). -/
  | streamMirrorSet (dt : Nat) (o : Origin)
  /-- CAM_PORT_SET (R272). -/
  | camPortSet (dt : Nat) (o : Origin)
  /-- CAM_ENABLE (R276). -/
  | camEnable (dt : Nat) (o : Origin)
  /-- CAM_DISABLE (R276). -/
  | camDisable (dt : Nat) (o : Origin)
  /-- CAM_FSYNC_SET (R277). -/
  | camFsyncSet (dt : Nat) (o : Origin)
  /-- CSI2_PACKET (R274). -/
  | csi2Packet (dt : Nat) (port : Fin 4) (pkt : CsiPacket)
  /-- CAM_START_TIMEOUT (R276). -/
  | camStartTimeout (dt : Nat) (port : Fin 4)
  /-- CAM_STOP_TIMEOUT (R276), with the header of the packet in progress, if any. -/
  | camStopTimeout (dt : Nat) (port : Fin 4) (running : Option (BitVec 32))
  /-- CAM_FSYNC_PULSE (R278). -/
  | camFsyncPulse (dt : Nat) (out : Fin 4)
  /-- BRIDGE_CYCLE (R280). -/
  | bridgeCycle (dt : Nat) (side : Side)
  /-- CORE_TO_FIELD_CONTROL_FRAME (R290). -/
  | coreToFieldControlFrame (dt : Nat) (frame : BitVec 512)
  /-- FIELD_TO_CORE_CONTROL_FRAME (R283). -/
  | fieldToCoreControlFrame (dt : Nat) (frame : BitVec 512)
  /-- BULK_FRAME (R285). -/
  | bulkFrame (dt : Nat) (at_ : Side) (frame : BitVec 512)
  /-- CHAN0_REPEAT_TIMEOUT (R286). -/
  | chan0RepeatTimeout (dt : Nat) (side : Side)
  /-- FIELD_WATCHDOG_EXPIRY (R287). -/
  | fieldWatchdogExpiry (dt : Nat)
  /-- SAFE_STATE_APPLY (R287). -/
  | safeStateApply (dt : Nat)
  /-- CORE_SILENCE_TIMEOUT (R288). -/
  | coreSilenceTimeout (dt : Nat)
  /-- FIELD_TICK (R323). -/
  | fieldTick (dt : Nat) (tick : FieldSense)
  /-- ASPECT_APPLY (R300). -/
  | aspectApply (dt : Nat)
  /-- ASPECT_EVALUATION (R303). -/
  | aspectEvaluation (dt : Nat)
  /-- SUPERVISION_SAMPLE (R305). -/
  | supervisionSample (dt : Nat) (k : Fin 16) (smp : LampSample)
  /-- DIAG_SLOT (R308). -/
  | diagSlot (dt : Nat) (k : Fin 16) (diag : DiagSense)
  /-- LIT_WHEN_DARK (R307). -/
  | litWhenDark (dt : Nat) (k : Fin 16)
  /-- CURRENT_LIMIT_TIMEOUT (R296). -/
  | currentLimitTimeout (dt : Nat) (k : Fin 16)
  /-- SWITCH_OVERTEMP (R296). -/
  | switchOvertemp (dt : Nat) (k : Fin 16)
  /-- SWITCH_COOLED (R296). -/
  | switchCooled (dt : Nat) (k : Fin 16)
  /-- CLEAN_MS_EXPIRY (R312). -/
  | cleanMsExpiry (dt : Nat) (k : Fin 16)
  /-- SAG_BEGIN (R306). -/
  | sagBegin (dt : Nat) (g : Fin 4) (mv : Nat)
  /-- SAG_END (R306). -/
  | sagEnd (dt : Nat) (g : Fin 4) (mv : Nat)
  /-- UV_OFF (R306). -/
  | uvOff (dt : Nat) (g : Fin 4) (mv : Nat)
  /-- UV_RECOVERY (R306). -/
  | uvRecovery (dt : Nat) (g : Fin 4) (mv : Nat)
  /-- SOFT_START_STEP (R306). -/
  | softStartStep (dt : Nat) (g : Fin 4)
  /-- OUTPUT_STOP_DONE (R295). -/
  | outputStopDone (dt : Nat) (k : Fin 16)
  /-- PATTERN_PHASE (R299). -/
  | patternPhase (dt : Nat) (k : Fin 16)
  /-- PWM_PERIOD (R298). -/
  | pwmPeriod (dt : Nat) (k : Fin 16)
  /-- FIELD_BLOCK_COMMIT_DONE (R292). -/
  | fieldBlockCommitDone (dt : Nat)
  /-- LAMP_STATUS_GET (R314). -/
  | lampStatusGet (dt : Nat) (o : Origin)
  /-- LAMP_BLOCK_GET (R314). -/
  | lampBlockGet (dt : Nat) (o : Origin)
  /-- LAMP_RULES_GET (R314). -/
  | lampRulesGet (dt : Nat) (o : Origin)
  /-- BRIDGE_STATUS_GET (R314). -/
  | bridgeStatusGet (dt : Nat) (o : Origin)
  /-- LAMP_BLOCK_WRITE (R293). -/
  | lampBlockWrite (dt : Nat) (o : Origin)
  /-- LAMP_BLOCK_COMMIT (R293). -/
  | lampBlockCommit (dt : Nat) (o : Origin)
  /-- LAMP_RULES_SET (R302). -/
  | lampRulesSet (dt : Nat) (o : Origin)
  /-- LAMP_REQUEST_SET (R303). -/
  | lampRequestSet (dt : Nat) (o : Origin)
  /-- LAMP_FAULT_CLEAR (R296). -/
  | lampFaultClear (dt : Nat) (o : Origin)
  /-- LAMP_REMAP_SET (R313). -/
  | lampRemapSet (dt : Nat) (o : Origin)
  /-- LAMP_REMAP_CLEAR (R313). -/
  | lampRemapClear (dt : Nat) (o : Origin)
  /-- INPUT_SAMPLE (R320). -/
  | inputSample (dt : Nat) (k : Fin 16) (mv : Nat)
  /-- PERIOD_TIMEOUT (R322). -/
  | periodTimeout (dt : Nat) (k : Fin 16)
  /-- PERIOD_UNIT_CLOSE (R337). -/
  | periodUnitClose (dt : Nat)
  /-- ADC_TIMER_TICK (R333). -/
  | adcTimerTick (dt : Nat) (t : Fin 4)
  /-- ADC_TRIG_ASSERT (R333). -/
  | adcTrigAssert (dt : Nat) (width : Nat)
  /-- SEQ_RUN_START (R332). -/
  | seqRunStart (dt : Nat) (q : Fin 4)
  /-- SEQ_ENTRY_START (R332). -/
  | seqEntryStart (dt : Nat) (q : Fin 4)
  /-- SEQ_ENTRY_DONE (R336). -/
  | seqEntryDone (dt : Nat) (q : Fin 4) (codes : List Int)
  /-- SEQ_RUN_END (R337). -/
  | seqRunEnd (dt : Nat) (q : Fin 4)
  /-- BACKGROUND_CALIBRATION (R325). -/
  | backgroundCalibration (dt : Nat) (c : Fin 4) (b : Bool) (offset gain skew : Int)
  /-- ADC_START_DONE (R327). -/
  | adcStartDone (dt : Nat) (c : Fin 4)
  /-- ADC_STOP_DONE (R327). -/
  | adcStopDone (dt : Nat) (c : Fin 4)
  /-- EXC_HALF (R342). -/
  | excHalf (dt : Nat)
  /-- BLANK_N_ASSERT (R344). -/
  | blankNAssert (dt : Nat) (width : Nat)
  /-- BLANK_N_RELEASE (R344). -/
  | blankNRelease (dt : Nat)
  /-- BLANK_HOLD_EXPIRY (R344). -/
  | blankHoldExpiry (dt : Nat)
  /-- BLANK_MAX_EXPIRY (R344). -/
  | blankMaxExpiry (dt : Nat) (q : Fin 4)
  /-- ADC_CAL_RUN_DONE (R346). -/
  | adcCalRunDone (dt : Nat) (codes : List Int)
  /-- CAPTURE_START (R348). -/
  | captureStart (dt : Nat)
  /-- CAPTURE_END (R348). -/
  | captureEnd (dt : Nat) (codes : List Nat)
  /-- CAPTURE_TIMEOUT (R348). -/
  | captureTimeout (dt : Nat)
  /-- IN_STATUS_GET (R349). -/
  | inStatusGet (dt : Nat) (o : Origin)
  /-- IN_CONFIG_GET (R349). -/
  | inConfigGet (dt : Nat) (o : Origin)
  /-- IN_CONFIG_SET (R318). -/
  | inConfigSet (dt : Nat) (o : Origin)
  /-- ADC_STATUS_GET (R349). -/
  | adcStatusGet (dt : Nat) (o : Origin)
  /-- ADC_RESULT_GET (R336). -/
  | adcResultGet (dt : Nat) (o : Origin)
  /-- ADC_SEQ_GET (R349). -/
  | adcSeqGet (dt : Nat) (o : Origin)
  /-- ADC_CAL_GET (R349). -/
  | adcCalGet (dt : Nat) (o : Origin)
  /-- ADC_CAPTURE_GET (R348). -/
  | adcCaptureGet (dt : Nat) (o : Origin)
  /-- ADC_CONFIG_SET (R324). -/
  | adcConfigSet (dt : Nat) (o : Origin)
  /-- ADC_ENABLE (R327). -/
  | adcEnable (dt : Nat) (o : Origin)
  /-- ADC_DISABLE (R327). -/
  | adcDisable (dt : Nat) (o : Origin)
  /-- ADC_SEQ_SET (R331). -/
  | adcSeqSet (dt : Nat) (o : Origin)
  /-- ADC_SEQ_ENABLE (R335). -/
  | adcSeqEnable (dt : Nat) (o : Origin)
  /-- ADC_SEQ_DISABLE (R335). -/
  | adcSeqDisable (dt : Nat) (o : Origin)
  /-- ADC_SEQ_TRIGGER (R333). -/
  | adcSeqTrigger (dt : Nat) (o : Origin)
  /-- ADC_TIMER_SET (R333). -/
  | adcTimerSet (dt : Nat) (o : Origin)
  /-- ADC_EXC_SET (R342). -/
  | adcExcSet (dt : Nat) (o : Origin)
  /-- ADC_EXC_ENABLE (R342). -/
  | adcExcEnable (dt : Nat) (o : Origin)
  /-- ADC_EXC_DISABLE (R342). -/
  | adcExcDisable (dt : Nat) (o : Origin)
  /-- ADC_CAL_RUN (R346). -/
  | adcCalRun (dt : Nat) (o : Origin)
  /-- ADC_CAL_COMMIT (R347). -/
  | adcCalCommit (dt : Nat) (o : Origin)
  /-- ADC_CAPTURE_ARM (R348). -/
  | adcCaptureArm (dt : Nat) (o : Origin)
  /-- SLICE_START (R355); `clocks`: the clocks of Table 12-3 are steady at the slice's turn. -/
  | sliceStart (dt : Nat) (clocks : Bool)
  /-- SLICE_END (R364). -/
  | sliceEnd (dt : Nat) (r : SliceResult)
  /-- SLICE_SERVICE_ABORT (R361). -/
  | sliceServiceAbort (dt : Nat) (bus : Bool) (seen : Option Nat)
  /-- SLICE_PRECONDITION_LOSS (R363). -/
  | slicePreconditionLoss (dt : Nat) (cause : Fin 8) (seen : Option Nat)
  /-- COVER_MAX_EXPIRY (R358). -/
  | coverMaxExpiry (dt : Nat)
  /-- IDLE_GAP (R356). -/
  | idleGap (dt : Nat)
  /-- LOCKSTEP_MISMATCH (R354). -/
  | lockstepMismatch (dt : Nat)
  /-- DUPLICATE_MISMATCH (R354). -/
  | duplicateMismatch (dt : Nat) (which : Fin 3)
  /-- FIELD_RAM_TEST (R368). -/
  | fieldRamTest (dt : Nat) (fails : Bool)
  /-- FIELD_NVM_CHECK (R368). -/
  | fieldNvmCheck (dt : Nat)
  /-- DIRECTED_RUN_DONE (R369). -/
  | directedRunDone (dt : Nat) (verdicts : List DirectedVerdict)
  /-- BIST_STATUS_GET (R372). -/
  | bistStatusGet (dt : Nat) (o : Origin)
  /-- BIST_UNUSABLE_GET (R372). -/
  | bistUnusableGet (dt : Nat) (o : Origin)
  /-- BIST_RESULT_GET (R372). -/
  | bistResultGet (dt : Nat) (o : Origin)
  /-- BIST_CONFIG_SET (R371). -/
  | bistConfigSet (dt : Nat) (o : Origin)
  /-- BIST_DIRECTED_RUN (R369). -/
  | bistDirectedRun (dt : Nat) (o : Origin)
  /-- BIST_UNUSABLE_CLEAR (R370). -/
  | bistUnusableClear (dt : Nat) (o : Origin)
  /-- SWITCHOVER_START (R391). -/
  | switchoverStart (dt : Nat)
  /-- SWITCHOVER_DONE (R391). -/
  | switchoverDone (dt : Nat)
  /-- SWITCHOVER_TIMEOUT (R391). -/
  | switchoverTimeout (dt : Nat)
  /-- SEALED_SWITCHOVER (R393). -/
  | sealedSwitchover (dt : Nat)
  /-- SEALED_START_TIMEOUT (R393). -/
  | sealedStartTimeout (dt : Nat)
  /-- DEBUG_UNLOCK (R377). -/
  | debugUnlock (dt : Nat) (response : BitVec 128)
  /-- FW_ERASE_DONE (R389). -/
  | fwEraseDone (dt : Nat) (c : Component)
  /-- FW_VERIFY_DONE (R389). -/
  | fwVerifyDone (dt : Nat) (c : Component)
  /-- SEC_STATUS_GET (R395). -/
  | secStatusGet (dt : Nat) (o : Origin)
  /-- FW_STATUS_GET (R395). -/
  | fwStatusGet (dt : Nat) (o : Origin)
  /-- SEAL_IDENT_GET (R386). -/
  | sealIdentGet (dt : Nat) (o : Origin)
  /-- SEC_KEY_WRITE (R374). -/
  | secKeyWrite (dt : Nat) (o : Origin)
  /-- LC_ADVANCE (R376). -/
  | lcAdvance (dt : Nat) (o : Origin)
  /-- FW_STAGE_BEGIN (R389). -/
  | fwStageBegin (dt : Nat) (o : Origin)
  /-- FW_STAGE_WRITE (R389). -/
  | fwStageWrite (dt : Nat) (o : Origin)
  /-- FW_STAGE_VERIFY (R389). -/
  | fwStageVerify (dt : Nat) (o : Origin)
  /-- FW_SWITCH (R390). -/
  | fwSwitch (dt : Nat) (o : Origin)
  /-- FW_CONFIRM (R394). -/
  | fwConfirm (dt : Nat) (o : Origin)
  /-- SEAL_RESV_SET (R384). -/
  | sealResvSet (dt : Nat) (o : Origin)
  /-- SEAL_RESV_CLEAR (R384). -/
  | sealResvClear (dt : Nat) (o : Origin)
  /-- VBAT_START (R398). -/
  | vbatStart (dt : Nat) (mv : Nat) (calm : Nat)
  /-- VBAT_LOW_WARNING (R396). -/
  | vbatLowWarning (dt : Nat) (mv : Nat)
  /-- VBAT_POWER_FAIL (R396). -/
  | vbatPowerFail (dt : Nat) (mv : Nat)
  /-- VBAT_OVERVOLTAGE (R396). -/
  | vbatOvervoltage (dt : Nat) (mv : Nat)
  /-- AON_MINIMUM (R396). -/
  | aonMinimum (dt : Nat)
  /-- RAIL_WARNING (R397). -/
  | railWarning (dt : Nat) (rail : Rail) (mv : Nat)
  /-- RAIL_FAULT (R397). -/
  | railFault (dt : Nat) (rail : Rail) (mv : Nat)
  /-- SHUTDOWN_IMMINENT (R400). -/
  | shutdownImminent (dt : Nat) (cause : Cause)
  /-- POWER_REMOVAL (R400). -/
  | powerRemoval (dt : Nat)
  /-- MIN_OFF_TIME_EXPIRY (R399). -/
  | minOffTimeExpiry (dt : Nat)
  /-- WAKE_ASSERT (R402). -/
  | wakeAssert (dt : Nat) (width : Nat)
  /-- THERMAL_SAMPLE (R408). -/
  | thermalSample (dt : Nat) (temps : List Int)
  /-- THERM_STEP_DOWN (R408). -/
  | thermStepDown (dt : Nat)
  /-- HW_THERMAL_TRIP (R410). -/
  | hwThermalTrip (dt : Nat) (sdC sdP : Int)
  /-- HW_THERMAL_RESTART (R410). -/
  | hwThermalRestart (dt : Nat) (sdC sdP : Int)
  /-- FIELD_THERMAL_STOP (R409). -/
  | fieldThermalStop (dt : Nat) (temps : List Int)
  /-- FIELD_THERMAL_RESTART (R409). -/
  | fieldThermalRestart (dt : Nat) (temps : List Int)
  /-- FIELD_POWER_ON (R404). -/
  | fieldPowerOn (dt : Nat) (v0 v1 v2 v3 : Nat)
  /-- FIELD_POWER_LOSS (R404). -/
  | fieldPowerLoss (dt : Nat) (v0 v1 v2 v3 : Nat)
  /-- NVM_COMMIT_WAIT_TIMEOUT (R405). -/
  | nvmCommitWaitTimeout (dt : Nat) (k : NvmKind)
  /-- BB_RECORD_WRITE (R412). -/
  | bbRecordWrite (dt : Nat)
  /-- BB_RECORD_COMMIT (R411). -/
  | bbRecordCommit (dt : Nat)
  /-- ON_TIME_TICK (R416). -/
  | onTimeTick (dt : Nat)
  /-- PWR_STATUS_GET (R419). -/
  | pwrStatusGet (dt : Nat) (o : Origin)
  /-- THERM_STATUS_GET (R419). -/
  | thermStatusGet (dt : Nat) (o : Origin)
  /-- THERM_CONFIG_SET (R419). -/
  | thermConfigSet (dt : Nat) (o : Origin)
  /-- THERM_SENSOR_RESTORE (R407). -/
  | thermSensorRestore (dt : Nat) (o : Origin)
  /-- PWR_STANDBY (R402). -/
  | pwrStandby (dt : Nat) (o : Origin)
  /-- LOG_STATUS_GET (R419). -/
  | logStatusGet (dt : Nat) (o : Origin)
  /-- LOG_READ (R417). -/
  | logRead (dt : Nat) (o : Origin)
  /-- LOG_FF_READ (R417). -/
  | logFfRead (dt : Nat) (o : Origin)
  /-- LOG_COUNTERS_GET (R419). -/
  | logCountersGet (dt : Nat) (o : Origin)
  /-- LOG_MARK (R418). -/
  | logMark (dt : Nat) (o : Origin)
  /-- UNDEFINED_COMMAND_ID (R57). -/
  | undefinedCommandId (dt : Nat) (o : Origin)
  /-- SEALED_COMPONENT_RUNNING (R393). -/
  | sealedComponentRunning (dt : Nat)
  /-- STANDBY_SHUTDOWN (R402). -/
  | standbyShutdown (dt : Nat)
  /-- VBAT_LOW_CLEAR (R396). -/
  | vbatLowClear (dt : Nat) (mv : Nat)
  /-- RAIL_WARNING_END (R397). -/
  | railWarningEnd (dt : Nat) (rail : Rail) (mv : Nat)
  /-- CALENDAR_EPOCH (R86). -/
  | calendarEpoch (dt : Nat)
  /-- EVENT_REPORT_WINDOW_END (R257). -/
  | eventReportWindowEnd (dt : Nat) (ev : BitVec 16) (source : BitVec 16) (sub : Nat)
deriving DecidableEq, Repr

end Sys2Proof
end

