-- ==== Sys2Proof/Config.lean ====
section
/-! DEFINITION. What the part fixes, the default blocks of the spec's tables, and the values it leaves free. -/

namespace Sys2Proof.Config

/-- Device unique identifier (R37). DESIGN CHOICE: an OTP not yet written reads 0 (log entry 3). -/
def uid : BitVec 64 := 0

/-- HIF_ID (Table 2-4). -/
def hifId : BitVec 32 := 0x7210A101

/-- Dither seed after reset: the low 32 bits of the UID, or 1 where they are 0 (R86). -/
def resetSeed : BitVec 32 := if uid.extractLsb' 0 32 = 0 then 1 else uid.extractLsb' 0 32

/-- Device nonces Nd (R51): free values, one per draw (log entry 9). -/
opaque nonce : Nat → BitVec 128

/-- The device's 65-entry SURV table (R165): P(N <= 7) for N Poisson with mean k / 4, to the nearest 2^-32 (log entry 10). -/
def survTable : List Nat :=
  [4294967296, 4294967295, 4294967029, 4294961805, 4294923276, 4294756565, 4294239017, 4292956705, 4290256924, 4285230228, 4276727878] ++
  [4263412976, 4243837841, 4216537016, 4180124500, 4133384861, 4075350088, 4005356809, 3923081232, 3828551659, 3722140318, 3604537633] ++
  [3476712815, 3339864963, 3195368740, 3044718311, 2889472664, 2731204765, 2571456343, 2411699439, 2253305313, 2097520804, 1945451863] ++
  [1798053724, 1656126942, 1520318471, 1391126869, 1268910739, 1153899579, 1046206264, 945840475, 852722525, 766697082, 687546427] ++
  [615002958, 548760744, 488485981, 433826299, 384418887, 339897454, 299898081, 264064023, 232049560, 203522979, 178168785] ++
  [155689253, 135805387, 118257412, 102804852, 89226284, 77318831, 66897464, 57794150, 49856895, 42948732]

def surv (k : Nat) : Nat := (survTable[k]?).getD 0

/-- SURV of a capped channel that counted guard events over no shot, by its guard count (R165 divides by zero): a free value, in
units of 2^-32 (log entry 46). -/
opaque survNoShots : Nat → Nat

/-- Whether a frame is the first taken from a source since a subscription there became active, by queue, source, SEQ and device time:
no message tells the receiver (R263, log entry 155). -/
opaque firstAnew : Nat → Nat → Nat → Nat → Bool

/-- The port that faces east at a device, which no message tells the head (R229, log entry 151): false E, true W. -/
opaque portEast : BitVec 64 → Bool

/-- Trim of the increment by the time servo (R242), in 2^-32 ns per cycle, from the offset and the sum of offsets in 1/65,536 ns:
a free value, since the spec gives the loop no gains (log entry 57). -/
opaque servoTrim : Int → Int → Int

/-- Background code of a channel that counted guard events over no shot, by its guard count (R172 divides by zero): a free
value (log entry 46). -/
opaque bkgNoShots : Nat → BitVec 16

/-- Intensity over no shot, by the net signal in 1/16 count (R172 divides by zero): a free value (log entry 46). -/
opaque intensityNoShots : Nat → BitVec 12

/-- Layout entry and window offset an imported unit was taken with, which its chunk 0 header does not carry (R155, R184): free
values by header (log entry 47). -/
opaque importLayout : BitVec 256 → BitVec 64
opaque importWoff : BitVec 256 → BitVec 2

/-- Kyodane's test values of a converter slice (R368), which the spec does not give: free values by converter * 2 + slice (log
entry 64). -/
opaque adcTestOffset : Nat → Int
opaque adcTestGain : Nat → Int

/-- Sum of fields given as (low bit, value). -/
def fields (l : List (Nat × Nat)) : Nat := l.foldl (fun a p => a + p.2 * 2 ^ p.1) 0

/-- A list of values packed `w` bits each, first lowest. -/
def pack (w : Nat) : List Nat → Nat
  | [] => 0
  | x :: xs => x % 2 ^ w + 2 ^ w * pack w xs

/-- A signed value as `w` bits. -/
def signed (w : Nat) (x : Int) : Nat := (x % (2 ^ w : Nat)).toNat

/-- Safe default of the dose budget (R87). -/
def budgetDefault : BitVec 256 := .ofNat _ (fields [(32, 10000), (16, 10000)])

/-- Default emitter parameters (Table 3-6). -/
def emitterDefault : BitVec 128 := .ofNat _ (fields [(112, 100), (88, 16), (80, 8), (72, 60), (64, 2), (0, 1)])

/-- Default receiver configuration (Table 4-11). -/
def rxDefault : BitVec 128 := .ofNat _
  (fields [(112, 200), (96, 50), (80, 24), (72, 25), (48, 3000), (40, 8), (32, 1), (16, 2000)])

/-- Reference mapping of column azimuths, units of 0.002 degrees (R106). -/
def refAz (c : Nat) : Int := (1250 * (c : Int) + 625 - 480000 + 8) / 16

/-- Reference mapping of row elevations (R106). -/
def refEl (r : Nat) : Int := (48000 - 250 * (r : Int) - 125 + 2) / 4

/-- Reference lens table (R106): 768 azimuths, then 384 elevations. -/
def lensReference : BitVec 18432 := .ofNat _
  (pack 16 ((List.range 768).map (fun c => signed 16 (refAz c)) ++ (List.range 384).map (fun r => signed 16 (refEl r))))

/-- Default breakdown coefficients (R109): VBD25 mV, TC uV/K. -/
def vbdDefault : BitVec 64 := .ofNat _ (fields [(0, 22000), (32, 20000)])

/-- Default witness parameters (Table 4-6). -/
def witnessDefault : BitVec 320 := .ofNat _ (fields [(5, 2), (0, 4)])

/-- Default return configuration (Table 6-8). -/
def retDefault : BitVec 256 := .ofNat _
  (fields [(208, 300), (200, 64), (192, 25), (176, 300), (160, 64), (144, 3000), (132, 64), (128, 2), (112, 300),
    (96, 1500), (1, 1), (0, 1)])

/-- A zone map at BLANK (R189): the defaults of Table 6-9, MAP_REV 0 and no enabled zone. -/
def zmapDefault : BitVec 8320 := .ofNat _ (fields [(112, 0x0446), (96, 500), (88, 50)])

/-- Occupancy block after reset (R192): nothing occupied, every zone blind. -/
def occReset : BitVec 768 := .ofNat _ ((2 ^ 64 - 1) * 2 ^ 64)

/-- Safe default of the calibration set (R203). -/
def calDefault : BitVec 37888 := .ofNat _
  (fields ([(48, 512), (32, 100)] ++ (List.range 4).map (fun s => (256 + 64 * s + 32, 15500)) ++
    (List.range 4).map (fun c => (768 + 1056 * c, 2 * 2 ^ 24 + 4095 * 2 ^ 12)) ++
    (List.range 4).map (fun c => (768 + 1056 * c + 64, 4095))))

/-- Default port configuration (Table 8-2). -/
def portDefault : BitVec 64 := .ofNat _ (fields [(8, 4)])

/-- Safe default of the field block (R292): every output OFF and unsupervised, WDT 1 ms; the other header fields at the
defaults of Table 10-7 but DIAG_EN (log entry 12). -/
def blockDefault : BitVec 11392 := .ofNat _ (fields [(96, 100), (80, 160), (64, 1000)])

/-- Safe default of the input configuration (R318): PQUEUE none, then 16 blocks. -/
def inputDefault : BitVec 1088 := .ofNat _
  (0xFFFF + 2 ^ 64 * pack 64 (List.replicate 16 (fields [(32, 8), (16, 100), (6, 1), (0, 1)])))

/-- Safe default of a path's system coefficients (R345): OFFSET [31:0], GAIN [63:32]. -/
def coeffDefault : BitVec 64 := .ofNat _ (fields [(32, 32768)])

/-- Default self-test configuration (Table 12-6). -/
def bistDefault : BitVec 64 := .ofNat _ (fields [(32, 10), (16, 1000)])

/-- MRAM blocks of 64 KiB that hold the live calibration set and the unusable map, whose places the spec does not give (Table 12-5,
class 6): free values (log entry 193). -/
opaque calBlock : BitVec 6
opaque mapBlock : BitVec 6

/-- State of the unit a self-test slice saves before it changes it (R360), by slice number and local clock: free values (log entry
177). -/
opaque unitState : Nat → Nat → BitVec 32768

end Sys2Proof.Config
end

