-- ==== Sys2Proof/Machine/State.lean ====
section
/-! DEFINITION. The state of the TWM-7210: everything the spec gives the device, as plain data, and its reset value.
Instants are in D-CORE cycles (`clk`) unless a field says device time. -/

namespace Sys2Proof.Machine

/-- Byte memories: address and byte, in canonical form (Machine/Ops.lean). -/
abbrev Mem := List Host.Cell

/-- A finite map: keys strictly rising. -/
abbrev Map (α : Type) := List (Nat × α)

/-- Function state of R21 and Table 1-7. -/
inductive FnState | off | starting | on | stopping
deriving DecidableEq, Repr

/-- A restartable function (R21-R23). -/
structure Fn where
  /-- STATE (Table 1-7): OFF at reset. -/
  st : FnState := .off
  /-- RESTART_PENDING (Table 1-7). -/
  restart : Bool := false
  /-- FAULT_STOP (Table 1-7). -/
  faultStop : Bool := false
  /-- A disable accepted during STARTING (Table 1-6). -/
  stopPending : Bool := false
  /-- Earliest instant of the next start: instant of OFF plus the minimum off time. -/
  offUntil : Nat := 0
  /-- Latest end of the STOPPING in progress. -/
  stopBy : Nat := 0
deriving DecidableEq, Repr

/-- What a command answered S_PENDING waits for (R58); an index says which unit. -/
inductive WaitKind
  | fnOn (f : FnId) | fnOff (f : FnId) | planSelect | maskCommit | vbdMeasure | exportOn | hold | send | learn | calFull
  | resv (q : Nat) | sealResv (q : Nat) | fieldBlock | inConfig | adcCalRun | adcCalCommit | capture | directed
  | erase (c : Component) | verify (c : Component) | switch (c : Component) | lcAdvance | deferred | mark | remap (k : Nat)
deriving DecidableEq, Repr

/-- A path on which a command's counter arrived (R56): the host port, or a reply queue of a ring node. -/
inductive Path | spi | ring (node queue : Nat)
deriving DecidableEq, Repr

/-- A command answered S_PENDING and not yet complete (R58). -/
structure Wait where
  kind : WaitKind
  session : Fin 16
  counter : Word
  cmdId : Nat
  paths : List Path
deriving DecidableEq, Repr

/-- One of the 16 cached counters of a session (R55, R56). -/
structure CacheEntry where
  counter : Word
  tag : BitVec 64
  cmdId : Nat
  status : Nat
  execTime : BitVec 64
  result : Bytes
deriving DecidableEq, Repr

/-- A session (R51-R56). -/
structure Session where
  isOpen : Bool := false
  /-- Key slot it was opened from. -/
  slot : Nat := 0
  /-- Session key, as the number of its bytes in output order (R5, R51). -/
  key : BitVec 256 := 0
  allowUnauth : Bool := false
  /-- Idle timeout in s; 0 disables it. -/
  idle : Nat := 0
  /-- H, the highest accepted counter. -/
  high : Word := 0
  /-- Newest first, at most 16. -/
  cache : List CacheEntry := []
  pending : Nat := 0
  openedAt : Nat := 0
  /-- A command has been accepted since the opening. -/
  accepted : Bool := false
  /-- The later of the last accepted command and the completion of the last pending one. -/
  lastActive : Nat := 0
deriving DecidableEq, Repr

/-- A ring response or completion waiting for its REPLY_Q (R44-R46). -/
structure Reply where
  node : Nat
  queue : Nat
  msg : Bytes
  /-- When its first attempt was refused. -/
  since : Nat
  nextTry : Nat
  /-- It is the first response of a command in flight (R45). -/
  first : Bool
  /-- The device resets, or goes to standby, 1 ms after its delivery, with this cause (R65, R376, R402). -/
  resets : Option Cause := none
  /-- The sessions that close once it has been delivered: those opened with a key that has been replaced (R374). -/
  closes : List Nat := []
deriving DecidableEq, Repr

/-- Mailbox states of Table 2-8. -/
inductive MbState | free | busy | done
deriving DecidableEq, Repr

/-- The SPI host port (chapter 02). -/
structure HostPort where
  /-- HIF_IRQ_STAT (Table 2-6). -/
  irqStat : Word := 0
  /-- HIF_IRQ_EN (R38): 0x0000_05FF. -/
  irqEn : Word := 0x5FF
  /-- HIF_ERR (Table 2-7). -/
  err : Word := 0
  /-- HIF_TIME_HI, the latch of a HIF_TIME_LO read (R438); DESIGN CHOICE 0. -/
  timeHi : Word := 0
  /-- HIF_MB_STATE (Table 2-8). -/
  mb : Vector MbState 8 := Vector.replicate 8 .free
  /-- HIF_DB_REFUSED. -/
  dbRefused : BitVec 8 := 0
  /-- HIF_EVT_WR (R60). -/
  evtWr : Byte := 0
  /-- HIF_EVT_RD (R60). -/
  evtRd : Byte := 0
  /-- HIF_EVT_LOST (R60). -/
  evtLost : Word := 0
  /-- Mailbox windows 0x1000-0x8FFF and event window 0x9000-0x9FFF, by host-port byte address (Table 2-3). -/
  mem : Mem := []
  /-- An unknown opcode was met; the transaction is ignored until HOST_CS_N is released (R36). -/
  ignoring : Bool := false
  /-- MODEL's own: the words the last completed read burst returned to the host. -/
  lastRead : List Word := []
deriving DecidableEq, Repr

/-- An event whose reports are rate-limited (R257, R193, R273, R321, R334, R338, R352, R364, R419). -/
structure Limit where
  ev : Nat
  source : Nat
  sub : Nat
  /-- Length and end of the running window. -/
  len : Nat
  until_ : Nat
  /-- Happenings gathered since the last report. -/
  n : Nat
  /-- Payload bits of the latest (or first) of them, and the sum of their counts in place. -/
  payload : Nat
  add : Nat
deriving DecidableEq, Repr

/-- Sessions, completions and events (chapter 02). -/
structure Wcp where
  sessions : Vector Session 16 := Vector.replicate 16 {}
  waits : List Wait := []
  replies : List Reply := []
  /-- Ring commands in flight (R45). -/
  inFlight : Nat := 0
  /-- Discarded ring responses (R46). -/
  discarded : Nat := 0
  /-- Event window masks by owner byte (R61). -/
  masks : Vector (BitVec 256) 16 := Vector.replicate 16 0
  /-- SEQ of the next event (Table 2-14). -/
  evSeq : Word := 0
  limits : List Limit := []
  /-- Device reset due, with its cause (R65, R376, R369). -/
  resetAt : Option (Nat × Cause) := none
  /-- MODEL's own: how many nonces have been drawn (log entry 9). -/
  draws : Nat := 0
  /-- Events raised in this step, oldest first, on their way to the event window. -/
  out : List (BitVec 256) := []
  /-- HIF_IRQ_STAT bits raised in this step. -/
  irq : Word := 0
deriving DecidableEq, Repr

/-- The time base (R24-R26). -/
structure TimeBase where
  /-- MODEL's own: D-CORE cycles, the monotonic local clock all intervals are measured with (log entry 2). -/
  clk : Nat := 0
  /-- Device time, ns (R7). -/
  ns : BitVec 64 := 0
  /-- Device time, fraction of 2^-32 ns (R24). -/
  frac : BitVec 32 := 0
  /-- Increment per cycle in 2^-32 ns: nominal 1.000 ns (R24, R25). -/
  inc : Nat := 4294967296
  /-- Time epoch (R26); DESIGN CHOICE 0. -/
  epoch : BitVec 16 := 0
  /-- The last release of RST_N: origin of governor time (R88, R90). -/
  releasedAt : Nat := 0
deriving DecidableEq, Repr

/-- A frame trigger: its instant, and whether it is a calendar instant (R79). -/
structure Trig where
  at_ : Nat
  cal : Bool
deriving DecidableEq, Repr

/-- Whether a frame runs, is pending, or neither (R79). -/
inductive FramePhase | idle | pending | running
deriving DecidableEq, Repr

/-- A group descriptor in the shot queue (R76, R18). -/
structure QueuedGroup where
  plan : Fin 8
  idx : Nat
  desc : BitVec 256
  refDefault : Bool
deriving DecidableEq, Repr

/-- A slot of the group in progress (R88-R94). -/
structure SlotRun where
  /-- Stripe fired, 0x3F idle (R68). -/
  stripe : Nat := 0x3F
  fired : Nat := 0
  /-- Of them, shots of parity A (R142). -/
  firedA : Nat := 0
  /-- Witness results of the last 64 fired shots, newest first; true is a miss (R94). -/
  recent : List Bool := []
  misses : Nat := 0
  /-- Stopped dark for the group (R94). -/
  dark : Bool := false
  /-- E_DOSE_LIMIT already raised in this group (R89). -/
  dosed : Bool := false
  /-- Sum of witnessed delays FIRE to E, in 31.25 ps, and their number (R199). -/
  delaySum : Nat := 0
  delayN : Nat := 0
  /-- FIRE edge in the present shot, its emission time E from slot start in 31.25 ps, and whether E is the fallback (R93). -/
  firing : Bool := false
  e : Nat := 0
  witMiss : Bool := false
deriving DecidableEq, Repr

/-- A group from its start to its last point record (R10, R104). -/
structure Group where
  plan : Fin 8
  idx : Nat
  desc : BitVec 256
  pair : Bool
  slots : Vector SlotRun 4
  /-- FLAGS of Table 3-8, bit b standing for bit 80 + b. -/
  flags : BitVec 13
  startNs : BitVec 64
  startClk : Nat
  frame : Nat
  frameNs : BitVec 64
  gen : Nat
  offset : Int
  woff : Nat
  /-- Shots commanded so far. -/
  shots : Nat
  /-- Table entries latched at the group start (R10, R76). -/
  layout : BitVec 64
  layoutIdx : Nat
  coinc : BitVec 32
  planecfg : BitVec 64
  template : BitVec 512
  trackAge : Nat
  edgeMargin : Nat
  zoneMap : Nat
  zmap : BitVec 8320
  zmapOk : Bool
  /-- T_S at the group start, 0.01 degC (R195). -/
  ts : Int
  /-- The calibration set used (R196) and REF in force. -/
  cal : BitVec 37888
  ref : List Int
  /-- It belongs to a calibration frame, its place among them, and whether that frame is discarded (R206, R209). -/
  calFrame : Bool
  calStep : Nat
  calBad : Bool
  /-- Lens table, return configuration, tracked emitter delays and spares at the group start (R107, R187, R196, R119). -/
  lens : BitVec 18432
  retCfg : BitVec 256
  emitDelay : Vector Int 4
  spares : Map Nat
  /-- Point queue, and raw export: queue, channels, RAW_MAX (R181, R185). -/
  points : Nat
  raw : Option (Nat × List Nat × Nat)
  /-- Instant of hand-over and usable lanes from then (R180, R183). -/
  handClk : Nat
  lanes : Nat
deriving DecidableEq, Repr

/-- Articulation following (R99). -/
structure Follow where
  source : Nat := 0
  a4 : Int := 0
  a20 : Int := 0
  max : Nat := 0
deriving DecidableEq, Repr

/-- Scan planner, firing controller, dose governor and emitter supervision (chapter 03). -/
structure Fire where
  fn : Fn := {}
  /-- The plan store (R70-R74): headers, descriptors at 256 * plan + index, and what was written and committed (R82). -/
  hdr : Vector (BitVec 256) 8 := Vector.replicate 8 0
  hdrWritten : Vector Bool 8 := Vector.replicate 8 false
  committed : Vector Bool 8 := Vector.replicate 8 false
  desc : Map (BitVec 256) := []
  /-- Plan 0 is selected after reset (R82). -/
  selected : Fin 8 := 0
  running : Fin 8 := 0
  /-- n of R71. -/
  framesSince : Nat := 0
  /-- INTERNAL 0, FRAME_SYNC 1, CALENDAR 2, HOST 3; and SKIP 0, QUEUE1 1, RESTART 2 (R81, R82). -/
  trigSrc : Nat := 0
  trigPol : Nat := 1
  trigNext : Option (Nat × Nat) := none
  phase : FramePhase := .idle
  trig : Trig := ⟨0, false⟩
  held : Option Trig := none
  /-- The running frame is cut under RESTART (R80). -/
  cut : Bool := false
  /-- Triggers counted and not yet reported (R80); and all of them (fire.status.get). -/
  counted : Nat := 0
  countedAll : Nat := 0
  /-- The trigger INTERNAL counts FRAME_PERIOD from, and the last accepted one since entering ON (R81, R82). -/
  lastTrig : Option Nat := none
  lastAcc : Option Nat := none
  onAt : Nat := 0
  /-- First slot start of the latest frame, and the last 8 intervals, newest first (R356). -/
  firstSlot : Option Nat := none
  intervals : List Nat := []
  frameNo : Nat := 0
  frameNs : BitVec 64 := 0
  woff : Nat := 0
  /-- Index of the next descriptor to enqueue, and of the next group to start, in the running frame. -/
  enqIdx : Nat := 0
  grpIdx : Nat := 0
  shotQ : List QueuedGroup := []
  grp : Option Group := none
  /-- The last group's accumulation has ended: no start before this instant (GAP_AFTER). -/
  gapUntil : Nat := 0
  frameEnd : Nat := 0
  /-- Pair of the next group (R138). -/
  nextPair : Bool := false
  /-- Present shot: slot start instant, dither in ns and parity (R85). -/
  slotClk : Nat := 0
  dither : Nat := 0
  parity : Bool := false
  /-- Held group starts (R11). -/
  holds : Nat := 0
  /-- Dither LFSR and node seed (R86): low 32 bits of the UID, or 1. -/
  lfsr : BitVec 32 := Config.resetSeed
  seed : BitVec 32 := Config.resetSeed
  seedPending : Bool := false
  /-- Dose budget (R87), safe default in force (R91), and the latest change (R90). -/
  budget : Stored 256 := ⟨⟨Config.budgetDefault, ~~~Config.budgetDefault⟩, ⟨Config.budgetDefault, ~~~Config.budgetDefault⟩, ⟨0, ~~~(0 : BitVec 32)⟩⟩
  safeBudget : Bool := false
  budgetAt : Nat := 0
  /-- Energies of the current sub-window and the 16 before it, newest first: per stripe short and long, and global (R88). -/
  shortSum : Vector (List Nat) 48 := Vector.replicate 48 []
  longSum : Vector (List Nat) 48 := Vector.replicate 48 []
  globSum : List Nat := []
  shortIdx : Nat := 0
  longIdx : Nat := 0
  /-- Emitter parameter block (Table 3-6). -/
  emitter : BitVec 128 := Config.emitterDefault
  /-- Kill latch [48] and failed-stripe marks [47:0], in MRAM (R94, R97, Table 12-1 class 20). -/
  latch : Stored 64 := ⟨⟨0, ~~~(0 : BitVec 64)⟩, ⟨0, ~~~(0 : BitVec 64)⟩, ⟨0, ~~~(0 : BitVec 32)⟩⟩
  /-- Consecutive dark groups per stripe (R94). -/
  darkRun : Vector Nat 48 := Vector.replicate 48 0
  /-- Pins: EMIT_ARM with its instant, the stripes EMIT_SEL0-3 were last given for a group, 100 ns after the trailing edge of each
  slot's last FIRE pulse so far, the instants from and until which EMIT_FAULT_N is asserted, FRAME_SYNC output (R78, R84, R96). EMIT_SEL,
  EMIT_FIRE and EMIT_KILL_N as the pins show them follow from these (Firing.lean, Groups.lean). -/
  armAt : Option Nat := none
  sel : Vector Nat 4 := Vector.replicate 4 0x3F
  selUntil : Vector Nat 4 := Vector.replicate 4 0
  faultAt : Nat := 0
  faultUntil : Nat := 0
  syncUntil : Option Nat := none
  /-- Instants of recent stray events per witness channel, newest first (R95). -/
  stray : Vector (List Nat) 4 := Vector.replicate 4 []
  follow : Follow := {}
  offset : Int := 0
  artHold : Bool := false
  artFault : Bool := false
  artSince : Option Nat := none
  /-- Calendar in force: 272 bytes (R102), and holdover (R103). -/
  cal : Option (BitVec 2176) := none
  calHold : Bool := false
  /-- The last calendar frame m whose trigger was given, and whether the EPOCH seed was loaded. -/
  calM : Nat := 0
  calSeeded : Bool := false
  /-- Parameter generation (R10). -/
  gen : Nat := 0
  /-- A parameter changed since the last frame start (a new generation is due). -/
  genDirty : Bool := false
  /-- A parameter taken at group starts changed since the last group start (a new generation is due). -/
  genGroup : Bool := false
  /-- Instant from which the trigger source in force counts (R81, R82). -/
  srcAt : Nat := 0
  /-- A group start within the running frame has been held under R11 (R209). -/
  frameHeld : Bool := false
  /-- The next group start has been held under R11; and the end of the frame cap of ladder step 3 (R409). -/
  heldNow : Bool := false
  capUntil : Nat := 0
deriving DecidableEq, Repr

/-- A survey pass in progress: round-robin pass or channels of a targeted pass (R123, R124). -/
structure SurveyRun where
  /-- Keys of the queued channels it covers; none on a round-robin pass. -/
  targets : List Nat
  spads : List Nat
  startedAt : Nat
deriving DecidableEq, Repr

/-- What a channel has seen in the present shot (R130, R132). -/
structure ChShot where
  guard : Nat := 0
  range : Nat := 0
  /-- The detector is silent, and the TDC dead, until these times from the slot start, in 31.25 ps (R120, R130). -/
  silent : Nat := 0
  dead : Nat := 0
deriving DecidableEq, Repr

/-- A channel's place in the present group: its enabled SPADs, K_EFF, flags and TDC (R115-R120, R134). -/
structure ChState where
  enabled : Nat
  kEff : Nat
  masked : Bool
  edge : Bool
  replaced : Bool
  hotcap : Bool
  calDefault : Bool
  tdc : Option Nat
  capped : Nat
deriving DecidableEq, Repr

/-- A witness channel's last pulses within its coincidence window, and the instants until which its detector is silent and its TDC dead,
in 31.25 ps of the local clock (R120, R130). -/
structure WitTail where
  seen : List Nat := []
  silent : Nat := 0
  dead : Nat := 0
deriving DecidableEq, Repr

/-- A retired ranging channel (R118). -/
structure Retired where
  ch : Nat
  bySelfTest : Bool
deriving DecidableEq, Repr

/-- Photon receiver and timing array (chapter 04). -/
structure Rx where
  /-- Receiver configuration (Table 4-11) in force and waiting for the next frame start (R135). -/
  cfg : BitVec 128 := Config.rxDefault
  cfgNext : Option (BitVec 128) := none
  /-- Lens table: 768 AZ then 384 EL, 16 bits each (R106, R107). -/
  lens : Stored 18432 := ⟨⟨Config.lensReference, ~~~Config.lensReference⟩, ⟨Config.lensReference, ~~~Config.lensReference⟩, ⟨0, ~~~(0 : BitVec 32)⟩⟩
  lensInForce : BitVec 18432 := Config.lensReference
  lensNext : Bool := false
  /-- Breakdown coefficients: VBD25 [31:0] mV, TC [63:32] uV/K (R109). -/
  vbd : Stored 64 := ⟨⟨Config.vbdDefault, ~~~Config.vbdDefault⟩, ⟨Config.vbdDefault, ~~~Config.vbdDefault⟩, ⟨0, ~~~(0 : BitVec 32)⟩⟩
  /-- rx.vbd.measure in progress since, with the estimate it starts from in mV (R109). -/
  vbdRun : Option (Nat × Int) := none
  /-- Bias target and applied value at the last group start, mV (R108); DESIGN CHOICE 0 before the first. -/
  biasTarget : Nat := 0
  biasApplied : Nat := 0
  /-- The generator's slewing output at the last group start, mV, and that instant (R108, log entry 139). -/
  biasOut : Nat := 0
  biasAt : Nat := 0
  /-- The generator ramps to its first target since this instant, at 10 V per ms (R398, step 4). -/
  ramp : Option Nat := some 0
  biasLim : Bool := false
  biasFault : Bool := false
  /-- HOLDOFF in use, ns; T_S counts as below -20 degC, which it does not after a reset until 1 s of samples says so (DESIGN CHOICE, log
  entry 186); since when it is on the other side (R110). -/
  holdoff : Nat := 8
  cold : Bool := false
  crossSince : Option Nat := none
  switchDue : Bool := false
  /-- Entries 1-15 written of the layout and coincidence tables, and writes waiting for the frame start (R113, R121, R442). -/
  layouts : Map (BitVec 64) := []
  layoutsNext : Map (BitVec 64) := []
  coincs : Map (BitVec 32) := []
  coincsNext : Map (BitVec 32) := []
  /-- Static mask live and shadow, bit i disabling SPAD i, and a commit waiting (R122). -/
  mask : BitVec 294912 := 0
  maskShadow : BitVec 294912 := 0
  maskNext : Option (BitVec 294912) := none
  /-- Dynamic mask in force and as the survey has it for the next frame (R125). -/
  dyn : BitVec 294912 := 0
  dynNext : BitVec 294912 := 0
  /-- SPADs counted above HOT_SET since the last frame start: their disabling waits for the next one (R125). -/
  dynFresh : BitVec 294912 := 0
  /-- Next round-robin pass, passes run in this gap, running pass, queued channels, last counts (R123-R126). -/
  surveyPos : Nat := 0
  gapPasses : Nat := 0
  survey : Option SurveyRun := none
  /-- Queued channels, oldest first: a key, and the SPADs of its window in the group that queued it (R124). -/
  targets : List (Nat × List Nat) := []
  counts : Sparse Nat := []
  /-- Counts of the last run of each round-robin pass (Table 4-12). -/
  passCounts : Sparse Nat := []
  /-- Channels at the dynamic-disable limit (R125) and the frame of the last E_RX_HOTCAP of a channel. -/
  hotcap : List Nat := []
  hotcapAt : Map Nat := []
  /-- Witness parameters (Table 4-6), lamp witness counts, WIT_VALID, the start of the interval they cover (Table 10-2), and the
  device time the running interval began at (R127, R128). -/
  wit : BitVec 320 := Config.witnessDefault
  witCount : Vector Nat 4 := Vector.replicate 4 0
  witValid : BitVec 4 := 0
  witTime : Word := 0
  witStart : Nat := 0
  /-- What W0-W7 keep of their last pulses beyond a slot or an interval (R120, R130). -/
  witTail : Vector WitTail 8 := Vector.replicate 8 {}
  /-- Witnesses whose interval was disturbed (R128). -/
  witDisturbed : BitVec 4 := 0
  /-- Retired channels in force, changes due at the next frame start, and spares (channel, TDC) (R118, R119). -/
  retired : List Retired := []
  retireNext : List Retired := []
  restoreNext : List Nat := []
  spares : Map Nat := []
  /-- FIRE leading edges of the last 300 us, in 31.25 ps of the local clock (R127). -/
  fireEdges : List Nat := []
  /-- TDC tap tables learned: 64 taps of 16 bits in 1/16 ps (R131); an absent one is the uniform table. -/
  lin : Map (Stored 1024) := []
  linNext : Map (BitVec 1024) := []
  /-- ON time gathered before the controller last entered ON, since when it is ON, and the ON time at which each TDC's last table
  was computed. -/
  linOn : Nat := 0
  linFrom : Option Nat := none
  linAt : Map Nat := []
  /-- The present shot's channels and the present group's channel states. -/
  shot : Map ChShot := []
  chans : Map ChState := []
deriving DecidableEq, Repr

/-- Side store record of a channel (Table 5-4). -/
structure SideRec where
  guardA : Nat := 0
  guardB : Nat := 0
  shotsA : Nat := 0
  shotsB : Nat := 0
  satLo : Nat := 0
  satHi : Nat := 0
  satZ : Bool := false
  satF : Bool := false
  gateSrc : Nat := 0
  gateStart : Nat := 0
  events : Nat := 0
  status : BitVec 32 := 0
deriving DecidableEq, Repr

/-- States of a pair (R143, R144). -/
inductive PairState | free | accumulating | handed | processing
deriving DecidableEq, Repr

/-- Track memory entry (R147). -/
structure Track where
  cm : Nat
  layout : Nat
  age : Nat
deriving DecidableEq, Repr

/-- States of planes 6 and 7 (R152, R157, R159). -/
inductive PlaneState | free | filling | full | draining | held | import_
deriving DecidableEq, Repr

/-- An export unit in plane 6 or 7: its group's identity and channel records (R152, R155). -/
structure ExportUnit where
  startNs : BitVec 64
  frame : Nat
  gen : Nat
  seq : Nat
  fbin : Nat
  group : Nat
  plan : Nat
  tag : Nat
  recs : Map SideRec
  /-- SHOTS_A and SHOTS_B of each slot, for the channels without a record (R142). -/
  shots : Vector (Nat × Nat) 4 := Vector.replicate 4 (0, 0)
deriving DecidableEq, Repr

/-- Plane 6 or 7. -/
structure XPlane where
  st : PlaneState := .free
  unit : Option ExportUnit := none
  /-- Next chunk to enqueue. -/
  chunk : Nat := 0
  /-- A held plane is draining once under hist.plane.send (R158). -/
  sending : Bool := false
deriving DecidableEq, Repr

/-- Export settings (R156). -/
structure ExportSet where
  queue : Nat := 0xFFFF
  chFirst : Nat := 0
  chLast : Nat := 1023
  binFirst : Nat := 0
  binCount : Nat := 4096
  chunkCh : Nat := 8
deriving DecidableEq, Repr

/-- Histogram import (R159): settings, the unit being assembled, and the job's slices done. -/
structure ImportSet where
  enabled : Bool := false
  queue : Nat := 0xFFFF
  source : Nat := 0xFF
  points : Nat := 0xFFFF
  /-- Plane 7 is taken. -/
  owns : Bool := false
  hdr : BitVec 256 := 0
  got : List Nat := []
  active : Bool := false
  recs : Map SideRec := []
  complete : Bool := false
  doneAt : Nat := 0
  slices : Nat := 0
  /-- The slice last started ends then. -/
  sliceUntil : Nat := 0
deriving DecidableEq, Repr

/-- The histogram store (chapter 05). -/
structure Hist where
  /-- Bins at (plane * 1024 + channel) * 4096 + bin (R137); DESIGN CHOICE 0 before the clear of R144. -/
  bins : Sparse Nat := []
  /-- Side store at pair * 1024 + channel (R141). -/
  side : Map SideRec := []
  /-- The pairs, the group each holds, and the end-of-pair markers placed (R143). -/
  pairs : Vector PairState 2 := Vector.replicate 2 .free
  groups : Vector (Option Group) 2 := Vector.replicate 2 none
  marked : Vector Bool 2 := Vector.replicate 2 false
  /-- X2 event queues by channel, oldest first (R16, R133). -/
  x2 : Map (List Word) := []
  late : Nat := 0
  cfgs : Map (BitVec 64) := []
  cfgsNext : Map (BitVec 64) := []
  /-- Gate sets: header then 1,024 starts (R145). -/
  gates : Map (BitVec 16448) := []
  gatesNext : Map (BitVec 16448) := []
  /-- Track memory at stripe * 256 + window (R147). -/
  track : Map Track := []
  clearNext : Bool := false
  p6 : XPlane := {}
  p7 : XPlane := {}
  exp : Fn := {}
  expSet : ExportSet := {}
  unitSeq : Nat := 0
  exported : Nat := 0
  abandoned : Nat := 0
  /-- Hold: descriptor index or 0xFF, since, and plane 7 taken (R157). -/
  hold : Option (Nat × Nat) := none
  holdTaken : Bool := false
  imp : ImportSet := {}
  imported : Nat := 0
  impDiscarded : Nat := 0
deriving DecidableEq, Repr

/-- Lane usability and return processing (chapter 06). -/
structure Ret where
  /-- Template sets 1-15 written (R163, R442) and waiting for the frame start. -/
  templates : Map (BitVec 512) := []
  templatesNext : Map (BitVec 512) := []
  /-- Echo memory (R175) at stripe * 256 + window: ranges in mm (at most 4), layout, frame. -/
  echo : Map (List Nat × Nat × Nat) := []
  /-- Return configuration (Table 6-8) in force and waiting. -/
  cfg : BitVec 256 := Config.retDefault
  cfgNext : Option (BitVec 256) := none
  /-- Point queue (R181), 0xFFFF none. -/
  points : Nat := 0xFFFF
  /-- Raw export (R185): queue, 32 channels, descriptor index, RAW_MAX, enabled. -/
  rawQueue : Nat := 0xFFFF
  rawChans : List Nat := []
  rawIdx : Nat := 0
  rawMax : Nat := 16384
  rawOn : Bool := false
  /-- Event words gathered for the raw unit, oldest first (R186). -/
  rawBuf : List (BitVec 64) := []
  /-- NOT_EXPORTED (R186). -/
  notExported : Nat := 0
  /-- Window monitor (R188): baselines per slot of MRAM, figures, over and under counts, alarm. -/
  baseline : Vector (Stored 64) 4 := Vector.replicate 4 ⟨⟨0, ~~~(0 : BitVec 64)⟩, ⟨0, ~~~(0 : BitVec 64)⟩, ⟨0, ~~~(0 : BitVec 32)⟩⟩
  figure : Vector Int 4 := Vector.replicate 4 0
  overN : Vector Nat 4 := Vector.replicate 4 0
  underN : Vector Nat 4 := Vector.replicate 4 0
  alarm : BitVec 4 := 0
  /-- Sums of the window figure over the running frame, and their number. -/
  figSum : Vector Int 4 := Vector.replicate 4 0
  figN : Vector Nat 4 := Vector.replicate 4 0
  /-- Learning: frames done and sums (R188). -/
  learn : Option (Nat × List Int) := none
  /-- Zone maps (R189), and, for those rewritten since the last frame start, the map still in force. -/
  zmaps : Vector (Stored 8320) 16 := Vector.replicate 16 ⟨⟨Config.zmapDefault, ~~~Config.zmapDefault⟩, ⟨Config.zmapDefault, ~~~Config.zmapDefault⟩, ⟨0, ~~~(0 : BitVec 32)⟩⟩
  zmapsHeld : Map (Pair 8320) := []
  /-- Maps found to fail their check, until a written one is in force (R190). -/
  zmapsFailed : BitVec 16 := 0
  /-- Zones (R192): history newest first (true occupied look), last valid look (instant, map). -/
  looks : Vector (List Bool) 64 := Vector.replicate 64 []
  lastLook : Vector (Option (Nat × Nat)) 64 := Vector.replicate 64 none
  /-- Occupancy block (R193): OCCUPIED, BLIND and more, under the complement convention. -/
  occ : Stored 768 := ⟨⟨Config.occReset, ~~~Config.occReset⟩, ⟨Config.occReset, ~~~Config.occReset⟩, ⟨0, ~~~(0 : BitVec 32)⟩⟩
  /-- Lanes usable for the present batch (R183), in force. -/
  lanes : Nat := 16
  /-- D-RET frequency in force, 0.1 MHz (R182, Table 14-6). -/
  f10 : Nat := 12500
  /-- PROC_TIME of the last batch in ns and groups processed (R182, R194). -/
  procTime : Nat := 0
  processed : Nat := 0
  /-- Frame of the sums above, and whether zone watch has seen the group whose unit still waits (R181). -/
  figFrame : Nat := 0
  zoned : Bool := false
deriving DecidableEq, Repr

/-- Link states of Table 8-7. -/
inductive LinkState | down | training | aligning | linked | member | draining
deriving DecidableEq, Repr

/-- A ring frame (R221): header and payload. -/
structure Frame where
  hdr : BitVec 128
  data : Bytes
deriving DecidableEq, Repr

/-- A local frame waiting in X9 (R224): source queue (16,384 for WCP messages), the subscribers it serves, whether it
ends a unit, whether it is sent within a reservation, and its debit in cells (R264). -/
structure TxFrame where
  frame : Frame
  queue : Nat
  subs : List Nat
  last : Bool
  rsv : Bool
  cells : Nat
  /-- Framed, but still with the queue manager: X9 has had no room for it (R16, log entry 152). -/
  held : Bool := true
deriving DecidableEq, Repr

/-- A credit entry waiting for a CREDIT flit (Table 8-3, R264). -/
structure Grant where
  queue : Nat
  node : Nat
  cells : Nat
deriving DecidableEq, Repr

/-- A ring port (R213-R228). -/
structure RPort where
  fn : Fn := {}
  /-- Port configuration (Table 8-2, MRAM). -/
  cfg : BitVec 64 := Config.portDefault
  link : LinkState := .down
  /-- NEIGHBOUR: node number of the neighbour, 0xFF unknown (Table 8-7); its UID. -/
  neighbour : Nat := 0xFF
  neighUid : BitVec 64 := 0
  refused : Bool := false
  degraded : Bool := false
  breakSeen : Bool := false
  /-- Corrected symbols, uncorrectable codewords, frames discarded (R247). -/
  corrected : Nat := 0
  uncorrectable : Nat := 0
  discarded : Nat := 0
  /-- Exponent of the pre-FEC symbol error ratio over the last 1 s window; 0xFFFF without errors (R228, Table 8-12). -/
  serExp : Nat := 0xFFFF
  /-- This link was declared failed: BREAK_SEEN is set in this port's own markers (R227). -/
  failed : Bool := false
  /-- Superframe number of the next superframe sent (R218). -/
  txSf : Word := 0
  /-- T_TX of the superframes sent, newest first, in 1/65,536 ns (R241). -/
  txTimes : List (Nat × Nat) := []
  /-- Last marker received: superframe number, arrival in 1/65,536 ns, hop count, generation, flags, HEAD_CAP (Table 8-3). -/
  rxSf : Option Word := none
  rxAt : Nat := 0
  rxHops : Nat := 0xFF
  rxGen : Nat := 0
  rxFlags : Nat := 0
  rxCap : Nat := 0
  /-- Consecutive missing or out-of-sequence markers, and consecutive markers with BREAK_SEEN (R227). -/
  missed : Nat := 0
  breaks : Nat := 0
  /-- T_TX of the neighbour in its last TIME flit, 1/65,536 ns. -/
  peerTx : Nat := 0
  /-- Link delay in 1/65,536 ns: last values (at most 256, newest first) and estimate (R241). -/
  delays : List Int := []
  delay : Int := 0
  /-- TOPO flits and credit grants waiting to be sent (R218, R264). -/
  topoOut : List (BitVec 512) := []
  grants : List Grant := []
  /-- X6/X7 received frames, X8 pass-through frames, X9 local frames and behind them those held for room in it (R16). -/
  x6 : List Frame := []
  x8 : List Frame := []
  x9 : List TxFrame := []
  /-- Frame being sent: flits left; MODEL's own: control window and frames of the last superframe sent. -/
  left : Nat := 0
  window : List (BitVec 512) := []
  sent : List Frame := []
  /-- Step 2 of Table 8-8 is done: signal detected. -/
  signal : Bool := false
  /-- MODEL's own: what a reservation (by queue) and the allowance (16,384) have gathered, in RU (R224, log entry 56). -/
  tokens : Map Nat := []
  /-- Next start from step 1 in STARTING (R227). -/
  retryAt : Option Nat := none
deriving DecidableEq, Repr

/-- A member of the ring (R229): UID, node number, and the port facing east. -/
structure Member where
  uid : BitVec 64
  node : Nat
  east : Nat
deriving DecidableEq, Repr

/-- A number held for a leaver (R232). -/
structure Held where
  uid : BitVec 64
  node : Nat
  until_ : Nat
deriving DecidableEq, Repr

/-- A reservation: at its source node, and at the head for all nodes (R237, R238). -/
structure Resv where
  node : Nat
  queue : Nat
  mask : BitVec 32
  ru : Nat
  protect : Bool
  sealed : Bool
  /-- Path: true west, false east (R223). -/
  west : Bool
  admitted : Bool
  /-- At the head, while the node is away: the link directions held for it, each west (true) or east of a node (R232). -/
  links : List (Bool × Nat) := []
  /-- When it was last asked of the head (R237). -/
  asked : Nat := 0
deriving DecidableEq, Repr

/-- The Waitik Ring (chapter 08). -/
structure Ring where
  ports : Vector RPort 2 := Vector.replicate 2 {}
  /-- HIF_NODE (R37, R229). -/
  node : Nat := 0
  head : Bool := false
  onring : Bool := false
  /-- The topology is a closed RING; else a CHAIN, broken between two nodes, west and east end (R235). -/
  closed : Bool := false
  brk : Option (Nat × Nat) := none
  gen : BitVec 16 := 0
  hops : Nat := 0xFF
  headUid : BitVec 64 := 0
  /-- Time parent port (R242): 0 E, 1 W. -/
  parent : Nat := 0
  offset : Int := 0
  locked : Bool := false
  inLock : Nat := 0
  outLock : Nat := 0
  /-- Proportional-integral state (R242). -/
  integ : Int := 0
  stepped : Bool := false
  /-- Superframes counted toward the 256 of R242. -/
  servoSf : Nat := 0
  noPathSince : Option Nat := none
  /-- A number has been granted (step 5 of Table 8-8), with the step flag of its JOIN_ACK; next JOIN_REQ (R231). -/
  granted : Bool := false
  stepFlag : Bool := false
  joinAt : Option Nat := none
  /-- E_RING_JOIN for this node is due once time is locked (Table 8-8). -/
  joinDue : Bool := false
  /-- The head's own reservation requests, not yet decided (R237). -/
  reqs : List Resv := []
  /-- HEAD_CAP, NODE_REQ, NODE_HOLD (R247); DESIGN CHOICE 0, 0xFF, and 10 s (R231). -/
  headCap : Nat := 0
  nodeReq : Nat := 0xFF
  nodeHold : Nat := 10
  /-- A configuration accepted while a member, in force at the next join (R247). -/
  cfgNext : Option (Nat × Nat × Nat) := none
  /-- Membership table in eastward order: at the head from itself, elsewhere as sent (log entry 30). -/
  members : List Member := []
  /-- Chunks of a MEMBERS table being received. -/
  memberChunks : List (Nat × List Member) := []
  held : List Held := []
  resv : List Resv := []
  /-- Best-effort allowances east and west in RU (R238). -/
  allowE : Nat := 0
  allowW : Nat := 0
  /-- TOPO messages seen: originator and sequence; own next sequence (R218). -/
  seen : List (Nat × Nat) := []
  topoSeq : Nat := 0
  /-- Election: best candidate known, and superframes since own ELECT and since a HEAD marker (R230). -/
  best : Option (Nat × BitVec 64) := none
  sfSinceHead : Nat := 0
  sfSinceElect : Nat := 0
  electing : Bool := false
  noHeadAt : Nat := 0
  /-- Calendar chunks received, and the calendar's EPOCH last announced (R245). -/
  calChunks : List (Nat × BitVec 384) := []
  membersAt : Nat := 0
  calendarAt : Nat := 0
  /-- Frames discarded at the last break (E_RING_WRAP). -/
  lostFrames : Nat := 0
  /-- Frame sequences of the WCP messages this node sends, by 16,384 x destination node + queue (R263, log entry 153). -/
  wcpSeq : Map Nat := []
deriving DecidableEq, Repr

/-- A unit held by a queue (R252): data, granule position, who started and took it, host read position. -/
structure QUnit where
  useq : Nat
  data : Bytes
  /-- Its cells in order, the first shared with the unit before it where it starts within that unit's last cell; OFFSET of its first
  byte there in units of 32 B; and the descriptors of its segments (R252, R253). -/
  cells : List Nat
  off : Nat
  descs : List Nat
  /-- ENQ_TIME of each segment. -/
  times : List Nat
  src : Nat
  /-- Subscribers active at its first byte that have not taken it whole. -/
  active : List Nat
  /-- Subscribers partway through it (R255). -/
  begun : List Nat
  /-- Subscribers toward which its last frame has left (R260). -/
  gone : List Nat := []
  /-- Bytes read by the host. -/
  read : Nat := 0
  /-- SEQ of its first frame, once one copy has been made, or as received (R263). -/
  seqBase : Option Nat := none
  /-- A command that arrived at Q0 with 64 in flight (R45). -/
  tooMany : Bool := false
deriving DecidableEq, Repr

/-- States of a subscription (R259, R261). -/
inductive SubState | active | suspended | ending
deriving DecidableEq, Repr

/-- A subscription (R259-R265). -/
structure Sub where
  queue : Nat
  who : Nat
  st : SubState
  /-- End of the lease; none for a lease of 0. -/
  lease : Option Nat
  endCause : Nat := 0
  taken : Nat := 0
  missed : Nat := 0
  missedRead : Nat := 0
  /-- Credit in cells (R264), since when it stalls, and the running credit reset (R265). -/
  credit : Nat := 0
  stallSince : Option Nat := none
  reset : Option Nat := none
  resetZero : Bool := false
  /-- Path of a node subscriber (R223): true west, false east; none until its first unit. -/
  west : Option Bool := none
deriving DecidableEq, Repr

/-- A partial inbound unit of one source (R263). -/
structure Partial where
  src : Nat
  data : Bytes
  /-- Cells, OFFSET and descriptors taken so far (R252, R253). -/
  cells : List Nat
  off : Nat
  descs : List Nat
  times : List Nat := []
  open_ : Bool
  lastSeq : Option Nat
  at_ : Nat
  resetAt : Option Nat
deriving DecidableEq, Repr

/-- Producers and consumers that bind to queues (R251). -/
inductive Binder | points | hexport | raw | impIn | impPoints | events | mirror | cam (p : Nat) | seq (q : Nat) | inputs
deriving DecidableEq, Repr

/-- A queue (R248-R258). -/
structure Queue where
  fn : Fn := {}
  cfg : BitVec 128 := 0
  configured : Bool := false
  units : List QUnit := []
  /-- Last cell of the last unit written and the first free 32-byte boundary in it; none where it is full (R252). -/
  tail : Option (Nat × Nat) := none
  useq : Nat := 0
  drops : Vector Nat 7 := Vector.replicate 7 0
  unsent : Nat := 0
  discarded : Nat := 0
  /-- Units the host missed on an inbound queue since its last read (R262). -/
  hostMissed : Nat := 0
  bound : Option Binder := none
  seq : Nat := 0
  partials : List Partial := []
deriving DecidableEq, Repr

/-- Queue manager and streams (chapter 09). -/
structure Queues where
  /-- Configured queues, by number; an absent one is OFF and unconfigured. -/
  qs : Map Queue := []
  subs : List Sub := []
  /-- Groups of 16 cells and of 256 descriptors withdrawn by self-test (R367, log entry 82). -/
  lostCells : List Nat := []
  lostDescs : List Nat := []
  /-- Event queue, the events of the unit being filled (oldest first) with its first instant, and events lost (R269). -/
  eventQ : Nat := 0xFFFF
  evBuf : List (BitVec 256) := []
  evSince : Nat := 0
  evLost : Nat := 0
  /-- Mirror queue and the SEQ of the next record to mirror (R270). -/
  mirrorQ : Nat := 0xFFFF
  mirrorSeq : Nat := 0
deriving DecidableEq, Repr

/-- A camera port (R271-R276). -/
structure CamPort where
  fn : Fn := {}
  cfg : BitVec 256 := 0
  configured : Bool := false
  startedAt : Nat := 0
  /-- A packet has arrived since STARTING began (R276). -/
  traffic : Bool := false
  packets : Nat := 0
  eccCorr : Nat := 0
  badHdr : Nat := 0
  crcErr : Nat := 0
  oversize : Nat := 0
  unrouted : Nat := 0
  lost : Nat := 0
  /-- Virtual channels discarding the rest of their frame, and those with lost long packets (R272, R274). -/
  dropRest : BitVec 16 := 0
  incomplete : BitVec 16 := 0
deriving DecidableEq, Repr

/-- A CAM_FSYNC output (R277, R278). -/
structure Fsync where
  cfg : BitVec 128 := 0
  next : Option (BitVec 128) := none
  /-- Pulses of the running frame already given, skipped pulses, the last pulse, and the end of the running pulse. -/
  k : Nat := 0
  skip : Nat := 0
  lastAt : Option Nat := none
  high : Option Nat := none
  /-- Free pulses due before it are not given: when the configuration or device time last changed. Device time of the last one given
  on the grid. -/
  since : Nat := 0
  lastFree : Option Nat := none
deriving DecidableEq, Repr

/-- Camera ingest (chapter 09). -/
structure Cams where
  ports : Vector CamPort 4 := Vector.replicate 4 {}
  sync : Vector Fsync 4 := Vector.replicate 4 {}
deriving DecidableEq, Repr

/-- One OTP copy of a key slot (R373). -/
structure KeyCopy where
  written : Bool := false
  revoked : Bool := false
  value : BitVec 256 := 0
deriving DecidableEq, Repr

/-- An image as a bank or a slot's record knows it (Table 13-5). -/
structure Image where
  slot : Nat
  version : Word
  secVer : Nat
  paramFmt : Nat
  digest : BitVec 256
deriving DecidableEq, Repr

/-- A boot record (R381) for the two components: active and previous slot, TRIAL, VERSION of each slot. -/
structure BootRec where
  active : Vector Nat 2 := Vector.replicate 2 0
  prev : Vector Nat 2 := Vector.replicate 2 0
  trial : Vector Bool 2 := Vector.replicate 2 false
  versions : Vector Word 4 := Vector.replicate 4 0
deriving DecidableEq, Repr

/-- One MRAM copy of the boot record, with its write count and CRC-32. -/
structure BootCopy where
  count : Word := 0
  rec_ : BootRec := {}
  crc : Word := 0
deriving DecidableEq, Repr

/-- Staging states (R389). -/
inductive Staging | idle | erasing | writing | verifying | verified
deriving DecidableEq, Repr

/-- A sealed command waiting for a sealed switchover to end (R388). -/
structure Deferred where
  session : Nat
  counter : Word
  cmdId : Nat
  payload : Bytes
deriving DecidableEq, Repr

/-- Keys, life cycle, images and the sealed domain (chapter 13). -/
structure Sec where
  /-- OTP key store (R373); DESIGN CHOICE all copies unwritten before Kyodane test. -/
  keys : Vector (Vector KeyCopy 4) 16 := Vector.replicate 16 (Vector.replicate 4 {})
  /-- Fuses F1, F2 of the transitions to PROVISIONED, FIELD, RETURN, SCRAPPED (R375). -/
  fuses : Vector (Bool × Bool) 4 := Vector.replicate 4 (false, false)
  /-- HIF_LC and HIF_LC_N (R37, R375): BLANK. -/
  lc : Pair 32 := ⟨1, ~~~(1 : BitVec 32)⟩
  /-- The fuse read failed its redundancy check (R375). -/
  fuseFail : Bool := false
  /-- Transition in progress: target code (R376). -/
  lcTo : Option Nat := none
  /-- The safe-default field block waits for contact with the field die (R376). -/
  blockDefaultDue : Bool := false
  /-- Vendor debug open, and the nonce presented (R377). -/
  debug : Bool := false
  /-- External flash (Table 13-4): unlisted bytes read 0xFF, erased. -/
  flash : Mem := []
  /-- MIN_SEC_VER thermometer fuses per component (R380). -/
  minSec : Vector Nat 2 := Vector.replicate 2 0
  boot : Vector BootCopy 2 := Vector.replicate 2 {}
  /-- Images loaded in the general and the sealed banks A, B (R379). -/
  genBank : Vector (Option Image) 2 := Vector.replicate 2 none
  sealBank : Vector (Option Image) 2 := Vector.replicate 2 none
  /-- Running general image (none: boot ROM in recovery, R382) and sealed image. -/
  general : Option Image := none
  sealed : Option Image := none
  /-- Sealed component that last ran, for R67 during a sealed switchover. -/
  sealedLast : Option Image := none
  staging : Vector Staging 2 := Vector.replicate 2 .idle
  staged : Vector (Option Image) 2 := Vector.replicate 2 none
  /-- Accepted switches (R390), SWITCH with its start (R391), and the sealed switchover's start (R393). -/
  switchDue : Vector Bool 2 := Vector.replicate 2 false
  switchAt : Option Nat := none
  sealSwitchAt : Option Nat := none
  deferred : List Deferred := []
  /-- Digest of the value named in the last sealed-change record of each parameter, orders 1-7; 0 while there is none (R386). -/
  digests : Vector (BitVec 256) 7 := Vector.replicate 7 0
  /-- Sealed values committed whose effect waits for a boundary (R386, PENDING_EFFECT). -/
  pendingEffect : BitVec 7 := 0
  /-- Sealed reservations: Q, mask, RU, PROTECT (R384), as pairs. -/
  resv : Vector (Stored 128) 32 := Vector.replicate 32 ⟨⟨0, ~~~(0 : BitVec 128)⟩, ⟨0, ~~~(0 : BitVec 128)⟩, ⟨0, ~~~(0 : BitVec 32)⟩⟩
deriving DecidableEq, Repr

/-- Whether the core side is powered, in reset, booting or running (R398-R402). -/
inductive CoreState | off | sequence | reset | boot | run | standby
deriving DecidableEq, Repr

/-- A thermal sensor (R406, R407): reading and bookkeeping in 0.01 degC and 0.01 K. -/
structure Sensor where
  reading : Int := 2500
  valid : Bool := true
  rule : Nat := 0
  /-- OFFSET_i in 1/65,536 of 0.01 K (MRAM). -/
  offset : Int := 0
  dis : Nat := 0
  /-- Reading since which it has not changed, with its neighbours' readings then, and the instant. -/
  still : Int := 2500
  stillNb : List Int := []
  stillAt : Nat := 0
  /-- Last instant at which it met an exclusion condition, and its last sample since its die started (0 none). -/
  metAt : Nat := 0
  at_ : Nat := 0
deriving DecidableEq, Repr

/-- Supplies and thermal guard (chapter 14). -/
structure Power where
  core : CoreState := .boot
  /-- VBAT and rails VINT, VCORE, VSER, VMEM, VIO, VAON in mV; lowest VBAT; LOW and WARN flags. -/
  vbat : Nat := 24000
  rails : Vector Nat 6 := ⟨#[5000, 750, 900, 1200, 1800, 1200], rfl⟩
  lowestVbat : Nat := 24000
  low : Bool := false
  warn : BitVec 6 := 0
  fault : BitVec 6 := 0
  /-- Episodes of LOW and WARN in progress by rail (0 VBAT): since when, and the value farthest out (R396, R397). -/
  since : Vector (Option (Nat × Nat)) 7 := Vector.replicate 7 none
  /-- Shutdown-imminent: its instant and cause (R400). -/
  shut : Option (Nat × Cause) := none
  /-- AON domain: latched cause, its tick, LOST_AT_SHUTDOWN, origin of the tick count. -/
  cause : Cause := .por
  causeTick : Nat := 0
  lostAtShutdown : Nat := 0
  /-- The shutdown of this cause has been counted (R416). -/
  counted : Bool := true
  aonBase : Nat := 0
  /-- End of the minimum off time of R399; a start condition waits; RST_N driven low from outside. -/
  offUntil : Nat := 0
  startDue : Bool := false
  rstPin : Bool := false
  ovBarred : Bool := false
  /-- Standby shutdown due (R402). -/
  standbyAt : Option Nat := none
  /-- SD_C and SD_P readings (0.01 degC) and at the trip; instants of thermal shutdowns; THERM_LOCK (R410). -/
  sdC : Int := 2500
  sdP : Int := 2500
  tripC : Int := 2500
  tripP : Int := 2500
  thermAt : List Nat := []
  thermCount : Nat := 0
  thermLock : Bool := false
  thermHold : Bool := false
  sensors : Vector Sensor 16 := Vector.replicate 16 {}
  /-- T_G at the samples of the last second, newest first. -/
  tgHist : List (Nat × Int) := []
  step : Nat := 0
  /-- Step the last sample reached; since when T_G is 5 K below; last exclusion. -/
  upStep : Nat := 0
  belowSince : Option Nat := none
  exclAt : Option Nat := none
  /-- LOWER in K and RISE_RATE in 0.1 K/s (R419). -/
  lower : Nat := 0
  riseRate : Nat := 20
  /-- NVM commits waiting for VFIELD: kind and instant (R405). -/
  nvmWait : List (NvmKind × Nat) := []
deriving DecidableEq, Repr

/-- A sealed change on its way into the black box (R386): parameter's order, 8 sealed component, 9 key slot, 10 RETURN reset; command,
slot and copy of the session; first 128 bits of the old value's digest, the new value's digest, RECOVERED. -/
structure SealPart where
  source : Nat
  cmdId : Nat
  slot : Nat
  copy : Nat
  old : BitVec 128
  new : BitVec 256
  recovered : Bool
deriving DecidableEq, Repr

/-- A black-box record waiting to be written (R412). -/
structure PendRec where
  kind : Nat
  source : Nat
  severity : Nat
  payload : Bytes
  time : BitVec 64
  tick : Nat
  late : Bool
  /-- A sealed change, whose payload is made with the record (R386). -/
  change : Option SealPart := none
deriving DecidableEq, Repr

/-- The black-box store (R411-R419): MRAM record log (oldest first), first-fault area, counters, pending queue. -/
structure Log where
  recs : List (BitVec 4096) := []
  ff : List (BitVec 4096) := []
  /-- Counters of Table 14-10 in its order: two slots each. -/
  counters : Vector (Pair 32 × Pair 32) 10 := Vector.replicate 10 (⟨0, ~~~(0 : BitVec 32)⟩, ⟨0, ~~~(0 : BitVec 32)⟩)
  nextSeq : Nat := 0
  pend : List PendRec := []
  /-- Record being written (phase 1 begun), and its instant. -/
  writing : Option (BitVec 4096) := none
  sealing : Option SealPart := none
  writeAt : Nat := 0
  /-- LOST_RECORDS, TORN, FF_FULL at the last E_LOG, and its instant. -/
  logAt : Nat := 0
  logSeen : Nat × Nat × Nat := (0, 0, 0)
  onTimeAt : Nat := 0
  /-- Episodes of E_INTEGRITY: class and index, open (R352). -/
  episodes : List (Nat × Nat) := []
deriving DecidableEq, Repr

/-- A unit marked unusable (R366). -/
structure Mark where
  cls : Nat
  idx : Nat
  time : BitVec 64
deriving DecidableEq, Repr

/-- The slice running (R354, R360-R362). -/
structure SliceRun where
  num : Nat
  startedAt : Nat
  reserved : Bool
  retest : Bool
deriving DecidableEq, Repr

/-- The save buffer of a slice (R360): two copies of 4 KiB, each with its CRC-32. -/
structure SaveBuffer where
  a : BitVec 32768
  crcA : Word
  b : BitVec 32768
  crcB : Word
deriving DecidableEq, Repr

/-- Self-test and integrity (chapter 12). -/
structure Bist where
  /-- Self-test configuration (Table 12-6, MRAM). -/
  cfg : Stored 64 := ⟨⟨Config.bistDefault, ~~~Config.bistDefault⟩, ⟨Config.bistDefault, ~~~Config.bistDefault⟩, ⟨0, ~~~(0 : BitVec 32)⟩⟩
  /-- Configuration in force for this pass. -/
  inForce : BitVec 64 := Config.bistDefault
  pass : Nat := 0
  /-- Next slice of the pass (0-410), slices passed over or first in line, and slices done in this pass. -/
  pos : Nat := 0
  waiting : List Nat := []
  passAt : Nat := 0
  lastPass : Nat := 0
  coverAt : Nat := 0
  run : Option SliceRun := none
  /-- The save buffer, and the state its unit was last restored to: none while a slice has changed it (R360). -/
  save : Option SaveBuffer := none
  restored : Option (BitVec 32768) := none
  /-- Last slice result word of each row (Table 12-4). -/
  words : Vector Word 8 := Vector.replicate 8 0xC0000000
  /-- Slices to be taken first in the next gap (R357, R361, R365). -/
  later : List Nat := []
  /-- Consecutive service aborts of a slice, slices with a reserved gap, and those to be retested with the unit that failed (R361,
  R362, R365). -/
  aborts : Sparse Nat := []
  reserved : List Nat := []
  retest : Map Nat := []
  /-- TRANSIENT instants of device time by class * 4,096 + index (R365). -/
  transients : Map (List Nat) := []
  deferred : Nat := 0
  incomplete : Nat := 0
  transient : Nat := 0
  /-- Gap open since, with its slice time spent in us; next idle gap (R355, R356). -/
  gap : Option Nat := none
  spent : Nat := 0
  gapStopped : Bool := false
  idleAt : Nat := 0
  /-- Unusable map and its backup (MRAM pairs, R366), each mark a block of class [31:0], index [63:32] and time [127:64], and the marks
  in force. -/
  map : StoredList := ⟨⟨[], []⟩, ⟨[], []⟩, ⟨0, ~~~(0 : BitVec 32)⟩⟩
  mapBackup : StoredList := ⟨⟨[], []⟩, ⟨[], []⟩, ⟨0, ~~~(0 : BitVec 32)⟩⟩
  marks : List Mark := []
  clearAtBoot : List (Nat × Nat) := []
  /-- Spare SRAM pages of firmware and of the sealed partition, spare F-die RAM regions (R367, R368). -/
  spareFw : Nat := 16
  spareSealed : Nat := 8
  spareField : Nat := 4
  /-- Directed self-test: scope running since, verdicts (MRAM) (R369). -/
  directed : Option (Nat × Nat) := none
  verdicts : List DirectedVerdict := []
  /-- Units marked since their last directed verdict, by class and index (R118; MRAM). -/
  markedSince : List (Nat × Nat) := []
  /-- F-die RAM region tested next (R368). -/
  ramPos : Nat := 0
deriving DecidableEq, Repr

/-- Result of a channel in the last full calibration (R208): covered, mean error in mm, standard deviation in mm. -/
structure CalRes where
  covered : Bool
  err : Int
  sd : Nat
deriving DecidableEq, Repr

/-- A full calibration in progress (R205-R209). -/
structure FullCal where
  /-- Payload of Table 7-6. -/
  par : BitVec 128
  /-- Frames counted since acceptance, calibration frames run to their end, and those whose measurements are in. -/
  n : Nat := 0
  done : Nat := 0
  merged : Nat := 0
  /-- Frames before this number no longer count (R209). -/
  since : Nat := 0
  /-- T_S of the first calibration frame and the last one, and the sum over the zero round (0.01 degC). -/
  tsFirst : Option Int := none
  tsLast : Int := 0
  tsSum : Int := 0
  /-- Walk round: per code * 6 + size the number of returns, the sums of intensity and of offset (1/16 ps). -/
  walk : Map (Nat × Nat × Int) := []
  /-- Zero round: per channel the measurements: peak time less expectation and REF terms, intensity, bin width code, and the
  error with the set in force (1/16 ps). -/
  zero : Map (List (Int × Nat × Nat × Int)) := []
  /-- Crosstalk: per pair 4 s + d the number and sum of intensities, and per slot the strongest intensity. -/
  xt : Map (Nat × Nat) := []
  xtI : Map Nat := []
deriving DecidableEq, Repr

/-- Range calibration (chapter 07). -/
structure Cal where
  /-- Live set and backup (MRAM pairs), and the shadow (R203, R204). -/
  live : Stored 37888 := ⟨⟨Config.calDefault, ~~~Config.calDefault⟩, ⟨Config.calDefault, ~~~Config.calDefault⟩, ⟨0, ~~~(0 : BitVec 32)⟩⟩
  backup : Stored 37888 := ⟨⟨Config.calDefault, ~~~Config.calDefault⟩, ⟨Config.calDefault, ~~~Config.calDefault⟩, ⟨0, ~~~(0 : BitVec 32)⟩⟩
  /-- The source and set still in force until the next group start, where a newer one has been committed (R204). -/
  until_ : Option (Nat × BitVec 37888) := none
  shadow : BitVec 37888 := Config.calDefault
  /-- CAL_SRC: 0 PRIMARY, 1 BACKUP, 2 DEFAULT; and the set in force. -/
  src : Nat := 0
  inForce : BitVec 37888 := Config.calDefault
  /-- REF of the 1,032 TDCs in 1/16 ps (R198); the list is empty before the first pass, every REF then 0. -/
  ref : List Int := []
  lastPass : Option Nat := none
  stale : Bool := false
  passRun : Option Nat := none
  passDone : Bool := false
  /-- EMIT_DELAY per slot in 1/16 ps (R199). -/
  emitDelay : Vector Int 4 := Vector.replicate 4 496000
  /-- GHOSTS (R201). -/
  ghosts : Nat := 0
  full : Option FullCal := none
  /-- Measurements of the calibration frame being processed, with its number. -/
  work : Option (Nat × FullCal) := none
  /-- The calibration as it was before the running frame's measurements joined it, with that frame's number (R209). -/
  undo : Option (Nat × FullCal) := none
  /-- Last results by channel (R208). -/
  results : Map CalRes := []
  reason : Nat := 0
  /-- The running frame is a calibration frame (R206). -/
  frame : Bool := false
deriving DecidableEq, Repr

/-- One end of the isolation bridge (R280-R286). -/
structure BridgeEnd where
  /-- Control FSEQ of the next frame, and FSEQ of the next bulk frame per channel. -/
  fseq : Byte := 0
  bseq0 : Byte := 0
  bseq1 : Byte := 0
  /-- CHAN 0 messages sent and not acknowledged (sequence, payload, sent at), and those waiting (R286). -/
  win : List (Byte × Bytes × Nat) := []
  out : List Bytes := []
  /-- The last so many messages of `win` are to be sent again, in order (go-back-N, R286). -/
  again : Nat := 0
  /-- MSG_ACK to send: the last in-order CHAN 0 frame received; and the next CHAN 1 FSEQ expected. -/
  ack : Byte := 255
  next1 : Byte := 0
  /-- CHAN 0 payloads received in order, and CHAN 1 bytes being assembled. -/
  inbox : List Bytes := []
  part : Bytes := ⟨0, 0⟩
  /-- Frames of the present unit still to come, the present part has lost a frame, its close time in ns, and the start of the next
  unit is not known. -/
  partLeft : Nat := 0
  partBad : Bool := false
  partTime : Nat := 0
  adrift : Bool := true
  /-- Units received whole and waiting for their queue, each with its close time; per queue the number the next unit is to carry
  (R337). -/
  ready : List (Nat × Bytes) := []
  nums : Map Nat := []
  /-- Counters: control and bulk frames sent and received, CRC and complement failures, repeats (R314). -/
  sentC : Nat := 0
  sentB : Nat := 0
  recvC : Nat := 0
  recvB : Nat := 0
  crcFail : Nat := 0
  compFail : Nat := 0
  repeats : Nat := 0
  /-- MODEL's own: frames of the last cycle, as put on the line. -/
  line : List (BitVec 512) := []
deriving DecidableEq, Repr

/-- Core half of the bridge and the sealed core's aspect logic (R280-R303). -/
structure CoreBridge where
  end_ : BridgeEnd := {}
  /-- Last valid field frame: instant and contents; the silence runs since then or since the reset (R288). -/
  since : Nat := 0
  frame : BitVec 512 := 0
  fieldOk : Bool := false
  silentAt : Option Nat := none
  episodes : Nat := 0
  longest : Nat := 0
  /-- The record of the present silence episode is written (R288). -/
  recorded : Bool := false
  /-- CSEQ echoed in the first valid field frame after the reset or the last silence (R301). -/
  echo : Byte := 0
  /-- Aspect command (CMD, CMD_N): CSEQ, RESUME, ASPECT in Table 10-2's places (R282). -/
  cmd : Pair 16 := ⟨0, ~~~(0 : BitVec 16)⟩
  /-- The next command takes the echoed CSEQ plus one (R301). -/
  resync : Bool := true
  /-- CSEQ already reported by E_ASPECT. -/
  reported : Option Nat := none
  safeSeen : Bool := false
  /-- Sealed parameters: rule table, header in the low 64 bits then 64 rules (R302); MRAM. -/
  rules : Stored 4160 := ⟨⟨0, ~~~(0 : BitVec 4160)⟩, ⟨0, ~~~(0 : BitVec 4160)⟩, ⟨0, ~~~(0 : BitVec 32)⟩⟩
  req : BitVec 16 := 0
  /-- Selection: aspect, rule index (64 for the default), since when and for how long at least (R303). -/
  sel : Nat := 0
  selRule : Nat := 64
  selAt : Nat := 0
  selHold : Nat := 0
  /-- Occupancy as the sealed core holds it, and consecutive discards (Table 12-1, class 8). -/
  occ : BitVec 64 := 0
  blind : BitVec 64 := ~~~(0 : BitVec 64)
  discards : Nat := 0
  /-- Field block shadow (core side), whether it has been loaded, and a commit in progress (R293). -/
  shadow : BitVec 11392 := Config.blockDefault
  loaded : Bool := false
  commitAt : Option Nat := none
  /-- Session and command of the commit, for its sealed record. -/
  commitBy : Nat × Nat := (0, 0)
deriving DecidableEq, Repr

/-- A diagnostic pulse or gap of an output in progress (R308): which, its start, the dark outputs that watch it, and what is sensed. -/
structure DiagRun where
  gap : Bool
  at_ : Nat
  watch : List Nat
  sense : DiagSense
deriving DecidableEq, Repr

/-- An output of the field die (R295-R313). -/
structure Output where
  fn : Fn := {}
  /-- Entry commanded (Table 10-10). -/
  entry : BitVec 16 := 0
  /-- SOURCE of Table 10-12. -/
  source : Nat := 2
  patStart : Nat := 0
  pwmStart : Nat := 0
  switch : Bool := false
  darkFault : Bool := false
  darkCause : Nat := 0
  litFault : Bool := false
  litEvid : Nat := 0
  shortVf : Bool := false
  shortOn : Bool := false
  high : Bool := false
  latched : Bool := false
  witUnavail : Bool := false
  openOff : Bool := false
  disagree : Bool := false
  /-- Consecutive samples of one class (0 clean, 1 near zero, 2 low, 3 high), and of SHARE (R297). -/
  cls : Nat := 0
  clsN : Nat := 0
  share : Bool := false
  /-- Lit-when-dark integrators in 10 us ticks and in 100 us intervals, and optical dark count (R307, R310). -/
  litInt : Nat := 0
  witInt : Nat := 0
  optDark : Nat := 0
  elecDark : Bool := false
  optIsDark : Bool := false
  elecLit : Bool := false
  optIsLit : Bool := false
  /-- Dark-to-lit transition, switch-on, switch-off, start of the last diagnostic pulse or gap, end of the last gap (field clk). -/
  onAt : Nat := 0
  edgeAt : Nat := 0
  offAt : Nat := 0
  diagAt : Nat := 0
  gapAt : Nat := 0
  /-- Last supervision sample taken: twice its 500 us window, or twice its lit edge and one (R304); and the instant before which none
  is taken again (R328). -/
  smpKey : Option Nat := none
  smpAfter : Nat := 0
  /-- Stopped until its switch has cooled; stop instants within 10 s (R296). -/
  overTemp : Bool := false
  stops : List Nat := []
  /-- Last sample: current uA, voltages mV, witness count. -/
  ua : Nat := 0
  mv : Nat := 0
  groupMv : Nat := 0
  wit : Nat := 0
  /-- Readback at the last tick, at the tick before the last switch-on, and 10 us before the running slot. -/
  rb : Bool := false
  rbBefore : Bool := false
  /-- Cross evidence by a higher output: the diagnostic cycle it was last found in; the outputs CROSS holds with, and when evidence was
  last found (R309). -/
  evid : Map Nat := []
  partners : Map Nat := []
  /-- Last cycle with a slot of its own, and the pulse or gap in progress (R308). -/
  diagCyc : Option Nat := none
  diagRun : Option DiagRun := none
  /-- Attribution of E_LAMP_LIT (R307): instant of the verdict and whether the voltage persisted since. -/
  attrAt : Option Nat := none
  persisted : Bool := true
  /-- Clean interval (R312): since when clean and how many items. -/
  cleanAt : Nat := 0
  cleanN : Nat := 0
  /-- Low current range in force, and the next conversion is the first after a switch (R330). -/
  lowRange : Bool := false
  rangeChg : Bool := false
deriving DecidableEq, Repr

/-- A VFIELD group (R306). -/
structure VGroup where
  mv : Nat := 0
  /-- Sample of the field tick before (R283). -/
  prevMv : Nat := 0
  /-- Lowest voltage since the field die's power-on (`pwr.status.get`). -/
  minMv : Nat := 0
  /-- SAG_HOLD with its start, and the voltage is still below SAG_LEVEL since then. -/
  sagHold : Bool := false
  sagAt : Nat := 0
  low : Bool := false
  uvOff : Bool := false
  /-- The episode in progress: its start, the lowest voltage in mV, and whether UV_OFF occurred. -/
  epAt : Option Nat := none
  lowest : Nat := 0
  uvSeen : Bool := false
  /-- Last instant at or below SAG_LEVEL + 0.5 V, and at or below 8.0 V. -/
  sagBelow : Nat := 0
  uvBelow : Nat := 0
  /-- First output (0-3) still to return in soft-start, and when the next one may. -/
  soft : Option Nat := none
  softAt : Nat := 0
deriving DecidableEq, Repr

/-- A digital input (R315-R322). -/
structure Input where
  /-- Configuration in force (Table 11-2). -/
  cfg : BitVec 64 := .ofNat 64 (Config.fields [(48, 1000), (40, 1), (32, 8), (16, 100), (6, 1), (0, 1)])
  c : Nat := 0
  w : Nat := 0
  /-- STATE after INVERT, and WIREBREAK. -/
  state : Bool := false
  wire : Bool := false
  /-- Last class: 0 none, 1 OPEN, 2 HIGH, 3 LOW, 4 UNDEF. -/
  cls : Nat := 0
  /-- Last 0-to-1 transition of STATE (field time, us), sum of periods and their number. -/
  rise : Option Nat := none
  sum : Nat := 0
  n : Nat := 0
  /-- Latest period record; it was a timeout; the instant PERIOD_TMO counts from, none after a timeout record. -/
  last : BitVec 64 := 0
  ptmo : Bool := false
  tmoAt : Option Nat := none
  /-- Field time at which the sample period last sampled began (R319). -/
  sampledAt : Option Nat := none
deriving DecidableEq, Repr

/-- A converter (R324-R327). -/
structure Conv where
  fn : Fn := {}
  cfg : BitVec 32 := 0
  usableA : Bool := true
  usableB : Bool := true
  /-- Background offset and gain of slices A, B, their timing skew in ps; last check of each; consecutive drifts; start (R325, R368). -/
  skew : Int := 0
  bgA : Nat := 0
  bgB : Nat := 0
  offA : Int := 0
  offB : Int := 0
  gainA : Int := 32768
  gainB : Int := 32768
  driftA : Nat := 0
  driftB : Nat := 0
  startAt : Nat := 0
  /-- End of the last sequence conversion (R324). -/
  usedAt : Nat := 0
  /-- The last overranged conversion: its end, its input and the conversions since; and no conversion has followed on another input
  (R338). -/
  ovAt : Nat := 0
  ovMux : Nat := 0
  since : Nat := 0
  overrange : Bool := false
deriving DecidableEq, Repr

/-- A sequence run in progress (R332, R343, R344). -/
structure SeqRun where
  trigAt : Nat
  /-- Field time its trigger is stamped with (R333). -/
  stamp : Nat := 0
  /-- The run has started; the instant from which the DELAY of the next entry counts. -/
  begun : Bool := false
  readyAt : Nat := 0
  /-- Second (negative) half of an EXC run, and place of the next entry among the entries of this half. -/
  neg : Bool := false
  pos : Nat := 0
  /-- The entry or chain in progress: its length, the sample 0 of each member and its end. -/
  chain : Nat := 0
  starts : List Nat := []
  doneAt : Nat := 0
  /-- It is deferred since, with so many samples left (R344); BLANK_MAX was reached; its sample 0 came too late for its half (R343). -/
  deferAt : Option Nat := none
  left : Nat := 0
  blk : Bool := false
  late : Bool := false
  /-- Results of the first half by entry: code, flags, field time of sample 0; words for the unit by entry. -/
  first : Map (Nat × Nat × Nat) := []
  words : Map Word := []
  /-- System coefficients taken at the run's start, and whether each is a safe default (R345, R346). -/
  coeffs : List (BitVec 64 × Bool) := []
  cut : Bool := false
deriving DecidableEq, Repr

/-- A sequence (R331-R336). -/
structure Seq where
  fn : Fn := {}
  loaded : Bool := false
  hdr : BitVec 128 := 0
  entries : List (BitVec 64) := []
  run : Option SeqRun := none
  /-- The trigger held: its instant and its stamp (R333, R334). -/
  held : Option (Nat × Nat) := none
  /-- Triggers counted; runs. -/
  countedAll : Nat := 0
  runs : Nat := 0
  lastTrig : Option Nat := none
  /-- Result registers by entry: word and field time of sample 0 (R336). -/
  regs : Map (Word × BitVec 64) := []
  /-- Entries whose open-wire test found the input open (R340). -/
  openSet : List Nat := []
deriving DecidableEq, Repr

/-- A loop input (R341). -/
structure Loop where
  ua : Nat := 0
  cls : Nat := 1
  /-- Class of the fault in progress, 0 none. -/
  fault : Nat := 0
  okN : Nat := 0
deriving DecidableEq, Repr

/-- An armed or running inrush capture (R348). -/
structure Capture where
  out : Nat
  count : Nat
  dec : Nat
  armedAt : Nat
  /-- The transition it runs from, and ADC0 and ADC1 are paired on it. -/
  startAt : Option Nat
  running : Bool
deriving DecidableEq, Repr

/-- A message of the field die to the core side: an event with the record it is to leave (kind, severity, rest of the payload), a
rate-limited event, a failed check, a discarded unit of a queue, or a unit marked unusable. -/
inductive FieldMsg
  | event (id source payload : Nat) (time : BitVec 64) (rec_ : Option (Nat × Nat × Bytes))
  | limited (id source sub len payload add : Nat)
  | integrity (cls idx act n : Nat)
  | lost (queue : Nat)
  | mark (cls idx : Nat)
  | intact (mask : Nat)
deriving DecidableEq, Repr

/-- A remap or its withdrawal for the next field tick (R313): the failed output, on its own or by command. -/
structure RemapReq where
  out : Nat
  set : Bool
  auto : Bool
  at_ : Nat
deriving DecidableEq, Repr

/-- The field die (chapters 10, 11, 14). -/
structure Field where
  /-- The logic runs; it was stopped by its own thermal protection (R404, R409). -/
  running : Bool := false
  hot : Bool := false
  /-- F-die NVM: field block in two copies with its pointer, input configuration, coefficients, remaps (R292, R318, R345, R313). -/
  blocks : Vector (Pair 11392) 2 := Vector.replicate 2 ⟨Config.blockDefault, ~~~Config.blockDefault⟩
  blockPtr : Pair 32 := ⟨0, ~~~(0 : BitVec 32)⟩
  inCfgs : Vector (Pair 1088) 2 := Vector.replicate 2 ⟨Config.inputDefault, ~~~Config.inputDefault⟩
  inPtr : Pair 32 := ⟨0, ~~~(0 : BitVec 32)⟩
  coeffs : Vector (Vector (Pair 64) 17) 2 := Vector.replicate 2 (Vector.replicate 17 ⟨Config.coeffDefault, ~~~Config.coeffDefault⟩)
  coeffPtr : Pair 32 := ⟨0, ~~~(0 : BitVec 32)⟩
  remapNvm : BitVec 16 := 0
  /-- In force: block, BLOCK_BAD, configuration; the shadow coefficients. -/
  block : BitVec 11392 := Config.blockDefault
  blockBad : Bool := false
  /-- Values whose last check failed, by class and index (R352). -/
  bad : List (Nat × Nat) := []
  inCfg : BitVec 1088 := Config.inputDefault
  /-- A configuration waiting for its NVM commit (R405). -/
  inCfgNext : List (BitVec 1088) := []
  coeffShadow : Vector (BitVec 64) 17 := Vector.replicate 17 Config.coeffDefault
  poweron : Bool := true
  /-- Remaps in force, and requests for the next tick (R313). -/
  remaps : BitVec 16 := 0
  remapDue : List RemapReq := []
  /-- Messages whose CHAN 0 frames the core side has not received yet, oldest first (R290, R314). -/
  msgs : List FieldMsg := []
  /-- Next field tick. -/
  tickAt : Nat := 0
  /-- Field time minus the local clock, ns (R284). -/
  offset : Int := 0
  end_ : BridgeEnd := {}
  /-- Consecutive valid control frames, watchdog start, SAFE (R287, R290). -/
  valid : Nat := 0
  wdAt : Nat := 0
  /-- When the last RAM region was tested and the NVM was last checked (R368). -/
  ramAt : Nat := 0
  nvmAt : Nat := 0
  safe : Bool := true
  safeDue : Option Nat := none
  /-- CSEQ and ASPECT of the last command applied with APPLY_TIME, and one waiting for the next tick, with that tick's instant (R290, R300). -/
  cseq : Byte := 0
  aspect : Nat := 0
  applyTime : Word := 0
  applyDue : Option (Nat × Nat × Nat) := none
  /-- WIT, WIT_TIME, WIT_VALID of the last valid core frame. -/
  witTime : Word := 0
  silentAt : Option Nat := none
  outs : Vector Output 16 := Vector.replicate 16 {}
  groups : Vector VGroup 4 := Vector.replicate 4 {}
  inputs : Vector Input 16 := Vector.replicate 16 {}
  readback : BitVec 16 := 0
  /-- Period records of the unit being filled (R337), with its start. -/
  recs : List (BitVec 64) := []
  recsAt : Nat := 0
  convs : Vector Conv 4 := Vector.replicate 4 {}
  seqs : Vector Seq 4 := Vector.replicate 4 {}
  /-- Timers: PERIOD and PHASE in us, and one more than the instant of the last tick (R333). -/
  timers : Vector (Nat × Nat × Nat) 4 := Vector.replicate 4 (0, 0, 0)
  /-- EXC_POL: function, P in us, positive half, pin, field time of the next edge (R342). -/
  exc : Fn := {}
  excP : Nat := 0
  excPos : Bool := false
  excPin : Bool := false
  excNext : Nat := 0
  /-- Inputs whose next entry waits after an open-wire test, by MUX code (R340). -/
  owUntil : Map Nat := []
  /-- Pull currents of open-wire tests, by 256 times the sequence plus the MUX code: OW_I and the instant they are on from (R340). -/
  pulls : Map (Nat × Nat) := []
  /-- BLANK_N asserted since, and released at (R344). -/
  blankAt : Option Nat := none
  blankRel : Option Nat := none
  /-- Units in the field FIFO, bytes of the oldest already sent, discards (R337). -/
  fifo : List Bytes := []
  fifoSent : Nat := 0
  /-- Number, modulo 4, of the next unit of each queue that enters the FIFO (log entry 69). -/
  unitNo : Map Nat := []
  fifoLost : Nat := 0
  loops : Vector Loop 2 := Vector.replicate 2 {}
  /-- Calibration run: path, SPAN, expected, since (R346); the capture and its samples (R348). -/
  calRun : Option (Nat × Bool × Nat × Nat) := none
  capture : Option Capture := none
  samples : List Nat := []
deriving DecidableEq, Repr

/-- Everything behind the host port. -/
structure Device where
  wcp : Wcp := {}
  time : TimeBase := {}
  fire : Fire := {}
  rx : Rx := {}
  hist : Hist := {}
  ret : Ret := {}
  cal : Cal := {}
  ring : Ring := {}
  qs : Queues := {}
  cams : Cams := {}
  core : CoreBridge := {}
  field : Field := {}
  bist : Bist := {}
  sec : Sec := {}
  power : Power := {}
  log : Log := {}
  /-- HIF_STATUS READY (R41). -/
  ready : Bool := false
deriving DecidableEq, Repr

/-- The state of the TWM-7210 and the commands waiting for it, first in first out. -/
structure State where
  host : HostPort := {}
  dev : Device := {}
  pending : List Instr := []
deriving DecidableEq, Repr

/-- No command of this device ends in a fault: the type has no value. -/
inductive Fault
deriving DecidableEq, Repr

/-- Refusals. -/
inductive Refusal
  /-- Raised by Dispatch for a command without a meaning; safe. -/
  | notModelled (mnemonic : String)
deriving DecidableEq, Repr

/-- The machine right after reset: power-up has ended, the C-die has just left reset and the boot ROM is about to run
(R398 step 6, log entry 1). -/
def State.reset : State := {}

end Sys2Proof.Machine
end

