-- ==== Sys2Proof/Machine/Ops.lean ====
section
/-! DEFINITION. Bit fields, byte strings, maps, byte memories, pairs and the clock: the operations every meaning uses. -/

namespace Sys2Proof.Machine

open Sys2Proof

/-- Bits [hi:lo] of a block. -/
def fld {n : Nat} (b : BitVec n) (hi lo : Nat) : Nat := b.toNat / 2 ^ lo % 2 ^ (hi - lo + 1)

/-- Bit i of a block. -/
def bit {n : Nat} (b : BitVec n) (i : Nat) : Bool := b.toNat / 2 ^ i % 2 == 1

/-- Bits [hi:lo] of a number. -/
def nfld (b hi lo : Nat) : Nat := b / 2 ^ lo % 2 ^ (hi - lo + 1)

/-- Bit i of a number. -/
def nbit (b i : Nat) : Bool := b / 2 ^ i % 2 == 1

/-- The block with bits [hi:lo] replaced. -/
def setFld {n : Nat} (b : BitVec n) (hi lo v : Nat) : BitVec n :=
  .ofNat n (b.toNat - fld b hi lo * 2 ^ lo + v % 2 ^ (hi - lo + 1) * 2 ^ lo)

/-- The block with bit i replaced. -/
def setBit {n : Nat} (b : BitVec n) (i : Nat) (v : Bool) : BitVec n := setFld b i i v.toNat

/-- A `w`-bit number read as two's complement. -/
def sgn (w x : Nat) : Int := if x < 2 ^ (w - 1) then (x : Int) else (x : Int) - 2 ^ w

/-- A number given by fields: low bit and value (the value taken modulo nothing: it is in range). -/
def fields (l : List (Nat × Nat)) : Nat := l.foldl (fun a p => a + p.2 * 2 ^ p.1) 0

/-- The least of a value and a bound. -/
def sat (bound x : Nat) : Nat := if x ≤ bound then x else bound

/-- Whether some bits of a number in the list of ranges (hi, lo) are not zero: reserved fields (R441). -/
def reservedSet (b : Nat) (l : List (Nat × Nat)) : Bool := l.any (fun r => nfld b r.1 r.2 != 0)

/-- A field lies outside its range (R441). -/
def outside (x lo hi : Nat) : Bool := x < lo || hi < x

/-- Number of set bits among the low `n`. -/
def popcount (n x : Nat) : Nat := ((List.range n).filter (nbit x)).length

/-- Round a non-negative rational a / b to the nearest integer, halves up (DEDUCED, log entry 13). -/
def roundDiv (a b : Nat) : Nat := if b = 0 then 0 else (2 * a + b) / (2 * b)

/-- The same for an integer over a natural: floor(x + 1/2). -/
def roundInt (a : Int) (b : Nat) : Int := if b = 0 then 0 else (2 * a + b) / (2 * b)

/-- Quotient rounded up. -/
def ceilDiv (a b : Nat) : Nat := if b = 0 then 0 else (a + b - 1) / b

end Sys2Proof.Machine

namespace Sys2Proof

open Sys2Proof.Machine

/-! Byte strings. -/

/-- `len` bytes of a number. -/
def Bytes.mk' (len v : Nat) : Bytes := ⟨len, v % 2 ^ (8 * len)⟩

/-- No bytes. -/
def Bytes.nil : Bytes := ⟨0, 0⟩

/-- Bytes a, then bytes b. -/
def Bytes.app (a b : Bytes) : Bytes := ⟨a.len + b.len, a.val + b.val * 2 ^ (8 * a.len)⟩

/-- `n` bytes from byte `off`, zero beyond the end. -/
def Bytes.slice (b : Bytes) (off n : Nat) : Bytes := ⟨n, b.val / 2 ^ (8 * off) % 2 ^ (8 * n)⟩

/-- What stands from byte `off`. -/
def Bytes.drop (b : Bytes) (off : Nat) : Bytes := b.slice off (b.len - off)

/-- Byte k. -/
def Bytes.byte (b : Bytes) (k : Nat) : Nat := b.val / 2 ^ (8 * k) % 256

/-- 32-bit word k (R441). -/
def Bytes.word (b : Bytes) (k : Nat) : Nat := b.val / 2 ^ (32 * k) % 2 ^ 32

/-- Bits [hi:lo] of the string as one little-endian number. -/
def Bytes.bits (b : Bytes) (hi lo : Nat) : Nat := nfld b.val hi lo

/-- A result as a response carries it: at most 4,064 bytes (R39, R48); what the manual would have beyond is cut (DESIGN CHOICE, log entry
98). -/
def Bytes.limit (b : Bytes) : Bytes := b.slice 0 (min 4064 b.len)

/-- Padded with zero to a multiple of k bytes. -/
def Bytes.pad (b : Bytes) (k : Nat) : Bytes := ⟨ceilDiv b.len k * k, b.val⟩

/-- Concatenation. -/
def Bytes.cat (l : List Bytes) : Bytes := l.foldr Bytes.app Bytes.nil

/-- One 32-bit word. -/
def w32 (x : Nat) : Bytes := .mk' 4 x

/-- One 64-bit word (a device time, R441). -/
def w64 (x : Nat) : Bytes := .mk' 8 x

/-- A flag as a word. -/
def wFlag (b : Bool) : Bytes := w32 b.toNat

/-- A signed number as a word. -/
def wInt (x : Int) : Bytes := w32 (x % 2 ^ 32).toNat

/-- A block of n bits as bytes, padded to words. -/
def wBlock {n : Nat} (b : BitVec n) : Bytes := ⟨ceilDiv n 32 * 4, b.toNat⟩

/-- The words of a list, one after another. -/
def words (l : List Nat) : Bytes := .cat (l.map w32)

/-- A list of variable length, preceded by its count (R441). -/
def counted (l : List Bytes) : Bytes := (w32 l.length).app (.cat l)

/-- A byte string turned end for end: byte 0 becomes the most significant (numbers of cryptography, R5). -/
def revBytes (len v : Nat) : Nat :=
  (List.range len).foldl (fun a k => a * 256 + v / 2 ^ (8 * k) % 256) 0

/-! Complement pairs (R350). -/

/-- The pair of a value. -/
def Pair.of {n : Nat} (v : BitVec n) : Pair n := ⟨v, ~~~v⟩

/-- A pair is consistent when V XOR ~V is all ones (R350). -/
def Pair.ok {n : Nat} (p : Pair n) : Bool := p.nv == ~~~p.v

/-- The value of a consistent pair, else its safe default (R352). -/
def Pair.use {n : Nat} (p : Pair n) (dflt : BitVec n) : BitVec n := if p.ok then p.v else dflt

/-! Block pairs (R351). -/

/-- Both copies hold a value, the first is live. -/
def Stored.of {n : Nat} (v : BitVec n) : Stored n := ⟨.of v, .of v, .of 0⟩

/-- The live copy; where the pointer fails its check there is none, and the value fails its own. -/
def Stored.live {n : Nat} (x : Stored n) : Pair n := if x.ptr.ok then (if x.ptr.v = 0 then x.a else x.b) else ⟨x.a.v, x.a.v⟩

/-- A value written to the copy that is not live, which the pointer then makes live. -/
def Stored.put {n : Nat} (x : Stored n) (v : BitVec n) : Stored n :=
  if x.ptr.ok && x.ptr.v == 0 then { x with b := .of v, ptr := .of 1 } else { x with a := .of v, ptr := .of 0 }

/-- The live copy's check, its value, and the value in use. -/
def Stored.ok {n : Nat} (x : Stored n) : Bool := x.live.ok
def Stored.v {n : Nat} (x : Stored n) : BitVec n := x.live.v
def Stored.use {n : Nat} (x : Stored n) (dflt : BitVec n) : BitVec n := x.live.use dflt

/-- The same of a list of blocks: a consistent pair, its check, the live copy and a write. -/
def PairList.of (v : List (BitVec 128)) : PairList := ⟨v, v.map (fun w => ~~~w)⟩
def PairList.ok (p : PairList) : Bool := p.nv == p.v.map (fun w => ~~~w)
def StoredList.live (x : StoredList) : Option PairList := if x.ptr.ok then some (if x.ptr.v = 0 then x.a else x.b) else none
def StoredList.ok (x : StoredList) : Bool := x.live.any (fun p => p.ok)
def StoredList.v (x : StoredList) : List (BitVec 128) := (x.live.map (fun p => p.v)).getD []
def StoredList.put (x : StoredList) (v : List (BitVec 128)) : StoredList :=
  if x.ptr.ok && x.ptr.v == 0 then { x with b := .of v, ptr := .of 1 } else { x with a := .of v, ptr := .of 0 }

end Sys2Proof

namespace Sys2Proof.Machine

/-! Vectors by number. -/

/-- Element i of a vector, `d` beyond its end. -/
def vget {α : Type} {n : Nat} (v : Vector α n) (i : Nat) (d : α) : α := if h : i < n then v[i] else d

/-- The vector with element i replaced; unchanged beyond its end. -/
def vset {α : Type} {n : Nat} (v : Vector α n) (i : Nat) (x : α) : Vector α n := if h : i < n then v.set i x else v

/-- The vector with element i changed by f. -/
def vmod {α : Type} {n : Nat} (v : Vector α n) (i : Nat) (f : α → α) : Vector α n :=
  if h : i < n then v.set i (f v[i]) else v

/-! Maps and sparse stores. -/

/-- The entry of a key. -/
def mget {α : Type} (k : Nat) : Map α → Option α
  | [] => none
  | (a, x) :: t => if a = k then some x else mget k t

/-- The map with a key's entry written, keys rising. -/
def mset {α : Type} (k : Nat) (v : α) : Map α → Map α
  | [] => [(k, v)]
  | (a, x) :: t => if k < a then (k, v) :: (a, x) :: t else if k = a then (k, v) :: t else (a, x) :: mset k v t

/-- The map without a key. -/
def mdel {α : Type} (k : Nat) : Map α → Map α
  | [] => []
  | (a, x) :: t => if a = k then t else (a, x) :: mdel k t

/-- A sparse number, 0 where unlisted. -/
def sget (m : Sparse Nat) (k : Nat) : Nat := (mget k m).getD 0

/-- The sparse store with a number written; 0 removes the entry. -/
def sset (m : Sparse Nat) (k v : Nat) : Sparse Nat := if v = 0 then mdel k m else mset k v m

/-! Byte memories. -/

/-- What an address reads as; `dflt` where unlisted. -/
def Mem.read (dflt : Byte) (m : Mem) (a : Nat) : Byte := (mget a m).getD dflt

/-- The memory with one byte written: writing the default removes the entry. -/
def Mem.write (dflt : Byte) (m : Mem) (a : Nat) (b : Byte) : Mem := if b = dflt then mdel a m else mset a b m

/-- Addresses strictly rising. -/
def Mem.rising : Mem → Bool
  | [] => true
  | [_] => true
  | a :: b :: t => a.1 < b.1 && Mem.rising (b :: t)

/-- The canonical form: addresses strictly rising, no entry equal to the default. -/
def Mem.wf (dflt : Byte) (m : Mem) : Bool := m.rising && m.all (fun c => c.2 != dflt)

/-- `n` bytes written from address a, byte 0 of v first. -/
def Mem.writeN (dflt : Byte) (m : Mem) (a : Nat) : Nat → Nat → Mem
  | 0, _ => m
  | n + 1, v => Mem.writeN dflt (Mem.write dflt m a (.ofNat 8 v)) (a + 1) n (v / 256)

/-- `n` bytes read from address a, as a little-endian number. -/
def Mem.readN (dflt : Byte) (m : Mem) (a : Nat) : Nat → Nat
  | 0 => 0
  | n + 1 => (Mem.read dflt m a).toNat + 256 * Mem.readN dflt m (a + 1) n

/-- All addresses from a, n of them, back at the default. -/
def Mem.clear (m : Mem) (a n : Nat) : Mem := m.filter (fun c => c.1 < a || a + n ≤ c.1)

/-! Device time (R24). -/

/-- One microsecond and one millisecond of D-CORE cycles (Table 1-3: 1.000 GHz). -/
def us : Nat := 1000
def ms : Nat := 1000000
def second : Nat := 1000000000

/-- `dt` D-CORE cycles pass: each adds the increment to device time (R24). -/
def TimeBase.elapse (t : TimeBase) (dt : Nat) : TimeBase :=
  let x := (t.ns.toNat * 2 ^ 32 + t.frac.toNat + dt * t.inc) % 2 ^ 96
  { t with clk := t.clk + dt, ns := .ofNat 64 (x / 2 ^ 32), frac := .ofNat 32 x }

/-- The local clock. -/
def Device.now (d : Device) : Nat := d.time.clk

/-- The core supply goes 100 us after shutdown-imminent, never later (R400). -/
def Device.supplied (d : Device) : Bool := d.power.shut.all (fun x => decide (d.now ≤ x.1 + 100000))

/-- The C-die is out of reset and powered. -/
def Device.alive (d : Device) : Bool := (d.power.core == .boot || d.power.core == .run) && d.supplied

/-- Life-cycle codes (Table 13-2). -/
def lcBlank : Nat := 1
def lcProvisioned : Nat := 2
def lcField : Nat := 3
def lcReturn : Nat := 4
def lcScrapped : Nat := 5

/-- State derived from the fuses (R375): the last transition whose F2 is programmed. -/
def Sec.fuseState (s : Sec) : Nat :=
  if (vget s.fuses 3 (false, false)).2 then lcScrapped
  else if (vget s.fuses 2 (false, false)).2 then lcReturn
  else if (vget s.fuses 1 (false, false)).2 then lcField
  else if (vget s.fuses 0 (false, false)).2 then lcProvisioned
  else lcBlank

/-- The life-cycle state at a use (R375): the working pair, else the fuses; with the rights of FIELD where the fuse read
failed its check. -/
def Device.lc (d : Device) : Nat :=
  if d.sec.fuseFail then lcField else if d.sec.lc.ok then d.sec.lc.v.toNat else d.sec.fuseState

/-- SAFE_N asserted (R403): the core side is in reset, shutdown or standby, or SEALED_OK is clear, or the bridge is silent. -/
def Device.safeN (d : Device) : Bool :=
  !d.alive || d.power.shut.isSome || d.sec.sealed.isNone || !d.core.fieldOk

end Sys2Proof.Machine
end

