-- ==== Sys2Proof/Machine/Crypto.lean ====
section
/-! DEFINITION. The algorithms the spec names: AES-256, AES-CMAC, the key derivation of SP 800-108, AES Key Wrap, SHA-256,
ECDSA P-256, CRC-32 and CRC-16. Byte sequences are lists of numbers below 256, byte 0 first (R5). -/

namespace Sys2Proof.Machine

open Sys2Proof

/-- The bytes of a byte string in order. -/
def Crypto.bytesOf (b : Bytes) : List Nat := (List.range b.len).map b.byte

/-- The bytes of a number, byte 0 least significant. -/
def Crypto.bytesOfNat (len v : Nat) : List Nat := (List.range len).map (fun k => v / 2 ^ (8 * k) % 256)

/-- A byte sequence as a number, byte 0 least significant. -/
def Crypto.toNat (l : List Nat) : Nat := l.foldr (fun b a => b + 256 * a) 0

/-- A byte sequence as a number, byte 0 most significant. -/
def Crypto.toBig (l : List Nat) : Nat := l.foldl (fun a b => a * 256 + b) 0

/-- A number as `len` bytes, most significant first. -/
def Crypto.ofBig (len v : Nat) : List Nat := (List.range len).map (fun k => v / 2 ^ (8 * (len - 1 - k)) % 256)

/-- Bytewise exclusive or. -/
def Crypto.xor (a b : List Nat) : List Nat := List.zipWith (fun x y => x ^^^ y) a b

/-- Pieces of n elements, `fuel` at most. -/
def Crypto.chunks {α : Type} (n : Nat) : Nat → List α → List (List α)
  | 0, _ => []
  | f + 1, l => if l.isEmpty then [] else l.take n :: Crypto.chunks n f (l.drop n)

/-- The AES S-box: byte x at bits [8x+7:8x]. -/
def Crypto.sboxTable : Nat :=
  0x75b227ebe28012079a059618c323c7041531d871f1e5a534ccf73f362693fdb7c072a49cafa2d4adf04759fa7dc982ca76abd7fe2b670130c56f6bf27b777c63 +
  0xd2f3ff1021dab6bcf5389d928f40a351a89f3c507f02f94585334d43fbaaefd0cf584c4a39becb6a5bb1fc20ed00d153842fe329b3d63b52a05a6e1b1a2c8309 * 2 ^ 512 +
  0x8ae7a65eaf4566ca94ed58d6d37c8e779e4959162acd3c25c2406490a3a32e0db0b5ede14b8ee4688902a22dc4f816073195d643d7ea7c41744975fec130ccd * 2 ^ 1024 +
  0x16bb54b00f2d99416842e6bf0d89a18cdf2855cee9871e9b948ed9691198f8e19e1dc186b95735610ef6034866b53e708a8bbd4b1f74dde8c6b4a61c2e2578ba * 2 ^ 1536

/-- The inverse S-box. -/
def Crypto.invTable : Nat :=
  0x25d18b6d49a25b76b224d92866a12e084ec3fa420b954cee3d23c2a632947b54cbe9dec444438e3487ff2f9b8239e37cfbd7f3819ea340bf38a53630d56a0952 +
  0x6b8a130103bdafc1020f3fca8f1e2cd00645b3b80558e4f70ad3bc8c00abd890849d8da75746155edab9edfd5048706c92b6655dcc5ca4d41698688664f6f872 * 2 ^ 512 +
  0xf45acd78fec0db9a2079d2c64b3e56fc1bbe18aa0e62b76f89c5291d711af1476edf751ce837f9e28535ade72274ac9673e6b4f0cecff297eadc674f4111913a * 2 ^ 1024 +
  0x7d0c2155631469e126d677ba7e042b17619953833cbbebc8b0f52aae4d3be0a0ef9cc9939f7ae52d0d4ab519a97f51605fec8027591012b131c7078833a8dd1f * 2 ^ 1536

/-- S-box of a byte. -/
def Crypto.sbox (x : Nat) : Nat := Crypto.sboxTable / 2 ^ (8 * x) % 256

/-- Inverse S-box of a byte. -/
def Crypto.invSbox (x : Nat) : Nat := Crypto.invTable / 2 ^ (8 * x) % 256

/-- Multiplication by x in GF(2^8). -/
def Crypto.xtime (x : Nat) : Nat := if x < 128 then 2 * x else (2 * x) ^^^ 0x11B

/-- Product in GF(2^8) with a 4-bit factor. -/
def Crypto.gmul (k x : Nat) : Nat :=
  let x2 := Crypto.xtime x
  let x4 := Crypto.xtime x2
  let x8 := Crypto.xtime x4
  (if nbit k 0 then x else 0) ^^^ (if nbit k 1 then x2 else 0) ^^^ (if nbit k 2 then x4 else 0) ^^^
    (if nbit k 3 then x8 else 0)

/-- One column times the circulant matrix with first row r. -/
def Crypto.mixColumn (r0 r1 r2 r3 : Nat) (c : List Nat) : List Nat :=
  let a := c.getD 0 0
  let b := c.getD 1 0
  let e := c.getD 2 0
  let f := c.getD 3 0
  [Crypto.gmul r0 a ^^^ Crypto.gmul r1 b ^^^ Crypto.gmul r2 e ^^^ Crypto.gmul r3 f,
   Crypto.gmul r3 a ^^^ Crypto.gmul r0 b ^^^ Crypto.gmul r1 e ^^^ Crypto.gmul r2 f,
   Crypto.gmul r2 a ^^^ Crypto.gmul r3 b ^^^ Crypto.gmul r0 e ^^^ Crypto.gmul r1 f,
   Crypto.gmul r1 a ^^^ Crypto.gmul r2 b ^^^ Crypto.gmul r3 e ^^^ Crypto.gmul r0 f]

/-- The four columns of a state. -/
def Crypto.columns (s : List Nat) : List (List Nat) := Crypto.chunks 4 4 s

/-- Row r rotated left by r. -/
def Crypto.shiftRows (s : List Nat) : List Nat :=
  (List.range 16).map (fun i => s.getD ((i + 4 * (i % 4)) % 16) 0)

/-- Row r rotated right by r. -/
def Crypto.invShiftRows (s : List Nat) : List Nat :=
  (List.range 16).map (fun i => s.getD ((i + 12 * (i % 4)) % 16) 0)

/-- AES-256 key expansion: words 8 to 59 appended, `n` to go, `i` the next index. -/
def Crypto.expand : Nat → Nat → Nat → List (List Nat) → List (List Nat)
  | 0, _, _, w => w
  | n + 1, i, rcon, w =>
    let prev := w.getLastD []
    let back := w.getD (i - 8) []
    if i % 8 = 0 then
      let rot := (prev.drop 1 ++ prev.take 1).map Crypto.sbox
      let t := Crypto.xor rot [rcon, 0, 0, 0]
      Crypto.expand n (i + 1) (Crypto.xtime rcon) (w ++ [Crypto.xor back t])
    else
      let t := if i % 8 = 4 then prev.map Crypto.sbox else prev
      Crypto.expand n (i + 1) rcon (w ++ [Crypto.xor back t])

/-- The 15 round keys of 16 bytes. -/
def Crypto.roundKeys (key : List Nat) : List (List Nat) :=
  Crypto.chunks 16 15 (Crypto.expand 52 8 1 (Crypto.chunks 4 8 key)).flatten

/-- The rounds of encryption under the remaining round keys. -/
def Crypto.encRounds : List (List Nat) → List Nat → List Nat
  | [], s => s
  | [k], s => Crypto.xor (Crypto.shiftRows (s.map Crypto.sbox)) k
  | k :: ks, s =>
    let m := ((Crypto.columns (Crypto.shiftRows (s.map Crypto.sbox))).map (Crypto.mixColumn 2 3 1 1)).flatten
    Crypto.encRounds ks (Crypto.xor m k)

/-- AES-256 of one 16-byte block under expanded round keys. -/
def Crypto.aesWith (rk : List (List Nat)) (block : List Nat) : List Nat :=
  match rk with
  | [] => block
  | k :: ks => Crypto.encRounds ks (Crypto.xor block k)

/-- AES-256 of one 16-byte block. -/
def Crypto.aes (key block : List Nat) : List Nat := Crypto.aesWith (Crypto.roundKeys key) block

/-- The rounds of decryption: the remaining round keys, last first. -/
def Crypto.decRounds : List (List Nat) → List Nat → List Nat
  | [], s => s
  | [k], s => Crypto.xor ((Crypto.invShiftRows s).map Crypto.invSbox) k
  | k :: ks, s =>
    let a := Crypto.xor ((Crypto.invShiftRows s).map Crypto.invSbox) k
    Crypto.decRounds ks ((Crypto.columns a).map (Crypto.mixColumn 14 11 13 9)).flatten

/-- AES-256 decryption of one block. -/
def Crypto.aesDec (key block : List Nat) : List Nat :=
  match (Crypto.roundKeys key).reverse with
  | [] => block
  | k :: ks => Crypto.decRounds ks (Crypto.xor block k)

/-- Doubling in GF(2^128) for the CMAC subkeys. -/
def Crypto.dbl (l : List Nat) : List Nat :=
  let v := Crypto.toBig l
  Crypto.ofBig 16 (if v < 2 ^ 127 then 2 * v else (2 * v) % 2 ^ 128 ^^^ 0x87)

/-- CBC-MAC over whole blocks but the last. -/
def Crypto.cbc (rk : List (List Nat)) : List (List Nat) → List Nat → List Nat
  | [], x => x
  | b :: bs, x => Crypto.cbc rk bs (Crypto.aesWith rk (Crypto.xor x b))

/-- AES-256-CMAC (SP 800-38B): 16 bytes. -/
def Crypto.cmac (key msg : List Nat) : List Nat :=
  let rk := Crypto.roundKeys key
  let zero := List.replicate 16 0
  let k1 := Crypto.dbl (Crypto.aesWith rk zero)
  let k2 := Crypto.dbl k1
  let n := msg.length
  let full := n % 16 = 0 ∧ n ≠ 0
  let head := if n = 0 then 0 else (n - 1) / 16
  let last := msg.drop (16 * head)
  let lastBlock :=
    if full then Crypto.xor last k1
    else Crypto.xor (last ++ 0x80 :: List.replicate (15 - last.length) 0) k2
  Crypto.aesWith rk (Crypto.xor (Crypto.cbc rk (Crypto.chunks 16 head (msg.take (16 * head))) zero) lastBlock)

/-- The 256-bit session key (R51): SP 800-108 counter mode, two iterations. -/
def Crypto.sessionKey (slotKey nh nd uid : List Nat) (session : Nat) : List Nat :=
  let label := [0x57, 0x43, 0x50, 0x2D, 0x53, 0x45, 0x53, 0x53, 0x49, 0x4F, 0x4E]
  let input := fun (i : Nat) => i :: label ++ [0] ++ nh ++ nd ++ uid ++ [session] ++ [0x01, 0x00]
  Crypto.cmac slotKey (input 1) ++ Crypto.cmac slotKey (input 2)

/-- One unwrapping step of AES Key Wrap for counter t (SP 800-38F): A and the semiblocks. -/
def Crypto.unwrapStep (key : List Nat) (n t : Nat) (a : List Nat) (r : List (List Nat)) : List Nat × List (List Nat) :=
  let i := (t - 1) % n
  let at_ := Crypto.xor a (Crypto.ofBig 8 t)
  let b := Crypto.aesDec key (at_ ++ r.getD i [])
  (b.take 8, r.set i (b.drop 8))

/-- The steps t, t-1, ... 1. -/
def Crypto.unwrapLoop (key : List Nat) (n : Nat) : Nat → List Nat × List (List Nat) → List Nat × List (List Nat)
  | 0, x => x
  | t + 1, x => Crypto.unwrapLoop key n t (Crypto.unwrapStep key n (t + 1) x.1 x.2)

/-- AES Key Wrap unwrapping of 40 bytes to a 32-byte key; none where the integrity check fails. -/
def Crypto.unwrap (key wrapped : List Nat) : Option (List Nat) :=
  let n := 4
  let x := Crypto.unwrapLoop key n (6 * n) (wrapped.take 8, Crypto.chunks 8 n (wrapped.drop 8))
  if x.1 = List.replicate 8 0xA6 then some x.2.flatten else none

/-- The round constants of SHA-256, one number: word i, the first 32 bits of the fraction of the cube root of the i-th prime, at bits
[32i+31:32i]. -/
def Crypto.shaTable : Nat :=
  0xc19bf1749bdc06a780deb1fe72be5d74550c7dc3243185be12835b01d807aa98ab1c5ed5923f82a459f111f13956c25be9b5dba5b5c0fbcf71374491428a2f98 +
  0x1429296706ca6351d5a79147c6e00bf3bf597fc7b00327c8a831c66d983e515276f988da5cb0a9dc4a7484aa2de92c6f240ca1cc0fc19dc6efbe4786e49b69c1 * 2 ^ 512 +
  0x106aa070f40e3585d6990624d192e819c76c51a3c24b8b70a81a664ba2bfe8a192722c8581c2c92e766a0abb650a735453380d134d2c6dfc2e1b213827b70a85 * 2 ^ 1024 +
  0xc67178f2bef9a3f7a4506ceb90befffa8cc7020884c8781478a5636f748f82ee682e6ff35b9cca4f4ed8aa4a391c0cb334b0bcb52748774c1e376c0819a4c116 * 2 ^ 1536

/-- Word i of a packed table. -/
def Crypto.packed (n t : Nat) : List Nat := (List.range n).map (fun i => t / 2 ^ (32 * i) % 2 ^ 32)

/-- SHA-256 round constants. -/
def Crypto.shaK : List Nat := Crypto.packed 64 Crypto.shaTable

/-- SHA-256 initial value: the fractions of the square roots of the first eight primes. -/
def Crypto.shaH : List Nat := Crypto.packed 8 0x5be0cd191f83d9ab9b05688c510e527fa54ff53a3c6ef372bb67ae856a09e667

/-- Rotation right of a 32-bit word. -/
def Crypto.rotr (n x : Nat) : Nat := (x / 2 ^ n) ||| (x * 2 ^ (32 - n) % 2 ^ 32)

/-- The message schedule extended by n words. -/
def Crypto.shaSched : Nat → List Nat → List Nat
  | 0, w => w
  | n + 1, w =>
    let i := w.length
    let x := w.getD (i - 15) 0
    let y := w.getD (i - 2) 0
    let s0 := Crypto.rotr 7 x ^^^ Crypto.rotr 18 x ^^^ x / 8
    let s1 := Crypto.rotr 17 y ^^^ Crypto.rotr 19 y ^^^ y / 1024
    Crypto.shaSched n (w ++ [(w.getD (i - 16) 0 + s0 + w.getD (i - 7) 0 + s1) % 2 ^ 32])

/-- One SHA-256 round on the eight working words. -/
def Crypto.shaRound (s : List Nat) (kw : Nat) : List Nat :=
  let a := s.getD 0 0
  let b := s.getD 1 0
  let c := s.getD 2 0
  let d := s.getD 3 0
  let e := s.getD 4 0
  let f := s.getD 5 0
  let g := s.getD 6 0
  let h := s.getD 7 0
  let s1 := Crypto.rotr 6 e ^^^ Crypto.rotr 11 e ^^^ Crypto.rotr 25 e
  let ch := (e &&& f) ^^^ ((2 ^ 32 - 1 - e) &&& g)
  let t1 := (h + s1 + ch + kw) % 2 ^ 32
  let s0 := Crypto.rotr 2 a ^^^ Crypto.rotr 13 a ^^^ Crypto.rotr 22 a
  let maj := (a &&& b) ^^^ (a &&& c) ^^^ (b &&& c)
  [(t1 + s0 + maj) % 2 ^ 32, a, b, c, (d + t1) % 2 ^ 32, e, f, g]

/-- SHA-256 of one 64-byte block. -/
def Crypto.shaBlock (h block : List Nat) : List Nat :=
  let w := Crypto.shaSched 48 ((Crypto.chunks 4 16 block).map Crypto.toBig)
  let r := (List.zipWith (fun a b => a + b) Crypto.shaK w).foldl Crypto.shaRound h
  List.zipWith (fun a b => (a + b) % 2 ^ 32) h r

/-- SHA-256: 32 bytes. -/
def Crypto.sha (msg : List Nat) : List Nat :=
  let n := msg.length
  let padded := msg ++ 0x80 :: List.replicate ((119 - n % 64) % 64) 0 ++ Crypto.ofBig 8 (8 * n)
  ((Crypto.chunks 64 (n / 64 + 2) padded).foldl Crypto.shaBlock Crypto.shaH).map (Crypto.ofBig 4) |>.flatten

/-- SHA-256 of a byte string as the number of its output bytes in order (R5). -/
def Crypto.shaBits (b : Bytes) : BitVec 256 := .ofNat 256 (Crypto.toNat (Crypto.sha (Crypto.bytesOf b)))

/-- The field prime, the group order and the curve constant of P-256, and its base point. -/
def Crypto.p256 : Nat := 0xffffffff00000001000000000000000000000000ffffffffffffffffffffffff
def Crypto.n256 : Nat := 0xffffffff00000000ffffffffffffffffbce6faada7179e84f3b9cac2fc632551
def Crypto.b256 : Nat := 0x5ac635d8aa3a93e7b3ebbd55769886bc651d06b0cc53b0f63bce3c3e27d2604b
def Crypto.g256 : Nat × Nat :=
  (0x6b17d1f2e12c4247f8bce6e563a440f277037d812deb33a0f4a13945d898c296,
   0x4fe342e2fe1a7f9b8ee7eb4a7c0f9e162bce33576b315ececbb6406837bf51f5)

/-- x^e mod m by squaring, `k` bits of e. -/
def Crypto.powMod (m x : Nat) : Nat → Nat → Nat
  | 0, _ => 1 % m
  | k + 1, e =>
    let h := Crypto.powMod m x k (e / 2)
    let s := h * h % m
    if e % 2 = 1 then s * x % m else s

/-- Inverse modulo a prime. -/
def Crypto.invMod (m x : Nat) : Nat := Crypto.powMod m x 256 (m - 2)

/-- A point of P-256; none is the point at infinity. -/
def Crypto.add (a b : Option (Nat × Nat)) : Option (Nat × Nat) :=
  let p := Crypto.p256
  match a, b with
  | none, _ => b
  | _, none => a
  | some (x1, y1), some (x2, y2) =>
    if x1 = x2 ∧ (y1 + y2) % p = 0 then none
    else
      let l := if x1 = x2 then (3 * x1 * x1 + (p - 3)) * Crypto.invMod p (2 * y1 % p) % p
        else (y2 + p - y1) * Crypto.invMod p ((x2 + p - x1) % p) % p
      let x3 := (l * l + 2 * p - x1 - x2) % p
      some (x3, (l * (x1 + p - x3) + p - y1) % p)

/-- k times a point, `f` bits of k. -/
def Crypto.mulPt (q : Option (Nat × Nat)) : Nat → Nat → Option (Nat × Nat)
  | 0, _ => none
  | f + 1, k =>
    let h := Crypto.mulPt q f (k / 2)
    let d := Crypto.add h h
    if k % 2 = 1 then Crypto.add d q else d

/-- (x, y) is a point on P-256 (R374). -/
def Crypto.onCurve (x y : Nat) : Bool :=
  let p := Crypto.p256
  x < p && y < p && y * y % p == (x * x * x + (p - 3) * x + Crypto.b256) % p

/-- ECDSA P-256 verification of r, s over a 32-byte hash. -/
def Crypto.ecdsa (x y r s e : Nat) : Bool :=
  let n := Crypto.n256
  if r = 0 || n ≤ r || s = 0 || n ≤ s || !Crypto.onCurve x y then false
  else
    let w := Crypto.invMod n s
    let u1 := e * w % n
    let u2 := r * w % n
    match Crypto.add (Crypto.mulPt (some Crypto.g256) 256 u1) (Crypto.mulPt (some (x, y)) 256 u2) with
    | none => false
    | some (px, _) => px % n == r

/-- One bit of the reflected CRC-32. -/
def Crypto.crcBit (c : Nat) : Nat := if c % 2 = 1 then (c / 2) ^^^ 0xEDB88320 else c / 2

/-- One byte of CRC-32. -/
def Crypto.crcByte (c b : Nat) : Nat :=
  Crypto.crcBit (Crypto.crcBit (Crypto.crcBit (Crypto.crcBit (Crypto.crcBit (Crypto.crcBit (Crypto.crcBit (Crypto.crcBit
    (c ^^^ b))))))))

/-- CRC-32 of IEEE 802.3 over `len` bytes of a number, byte 0 first. -/
def Crypto.crc32 (len v : Nat) : Nat := (Crypto.bytesOfNat len v).foldl Crypto.crcByte 0xFFFFFFFF ^^^ 0xFFFFFFFF

/-- One bit of CRC-16 with polynomial 0x1021. -/
def Crypto.crc16Bit (c : Nat) : Nat := if c < 2 ^ 15 then 2 * c else (2 * c) % 2 ^ 16 ^^^ 0x1021

/-- CRC-16 (0x1021, initial 0xFFFF) over a byte sequence (Table 8-6). -/
def Crypto.crc16 (l : List Nat) : Nat :=
  l.foldl (fun c b => Crypto.crc16Bit (Crypto.crc16Bit (Crypto.crc16Bit (Crypto.crc16Bit (Crypto.crc16Bit
    (Crypto.crc16Bit (Crypto.crc16Bit (Crypto.crc16Bit (c ^^^ (b * 256)))))))))) 0xFFFF

end Sys2Proof.Machine
end

