-- ==== Sys2Proof/Machine/Events.lean ====
section
/-! DEFINITION. Events, rate limits, monotonic counters, black-box records and integrity failures: what every part of the
device reports with (R59-R61, R257, R352, R411-R416). -/

namespace Sys2Proof.Machine

open Sys2Proof

/-! Event identifiers. -/

def eCmdDone : Nat := 0x0101
def eSessionClosed : Nat := 0x0102
def eIntegrity : Nat := 0x0C03

/-- An event entry (Table 2-14): `payload` holds bits [255:144] in place; what a layout places below gives way to SOURCE (log
entry 42). -/
def eventEntry (payload source time seq id status session : Nat) : BitVec 256 :=
  .ofNat 256 (payload / 2 ^ 144 * 2 ^ 144 + source % 2 ^ 16 * 2 ^ 128 + time * 2 ^ 64 + seq * 2 ^ 32 + id * 2 ^ 16 + status * 2 ^ 8 + session * 2 ^ 4)

/-- The owner's mask bit of an event (R61); E_CMD_DONE cannot be masked. -/
def Device.masked (d : Device) (id : Nat) : Bool :=
  id != eCmdDone && bit (vget d.wcp.masks (id / 256) 0) (id % 256)

/-- The entry of an event raised now with a given time. -/
def Device.entryAt (d : Device) (time : BitVec 64) (id source payload : Nat) : BitVec 256 :=
  eventEntry payload source time.toNat d.wcp.evSeq.toNat id 0 0

/-- The entry of an event raised now. -/
def Device.entry (d : Device) (id source payload : Nat) : BitVec 256 := d.entryAt d.time.ns id source payload

/-- An event goes to the event stream's buffer (R269): up to 1,024 are held, later ones are lost and counted. -/
def Queues.hold (q : Queues) (now : Nat) (e : BitVec 256) : Queues :=
  if q.eventQ = 0xFFFF then q
  else if q.evBuf.length < 1024 then
    { q with evBuf := q.evBuf ++ [e], evSince := if q.evBuf.isEmpty then now else q.evSince }
  else { q with evLost := sat 0xFFFFFFFF (q.evLost + 1) }

/-- Raise an event dated by a given time (R59): it takes the next SEQ, enters the event window unless masked (R61), and the
event stream (R269). -/
def Device.raiseAt (d : Device) (time : BitVec 64) (id source payload : Nat) : Device :=
  let e := d.entryAt time id source payload
  { d with
    wcp := { d.wcp with evSeq := d.wcp.evSeq + 1, out := if d.masked id then d.wcp.out else d.wcp.out ++ [e] }
    qs := d.qs.hold d.now e }

/-- Raise an event dated now. -/
def Device.raise (d : Device) (id source payload : Nat) : Device := d.raiseAt d.time.ns id source payload

/-- A HIF_IRQ_STAT bit is requested (Table 2-6). -/
def Device.irq (d : Device) (b : Nat) : Device :=
  { d with wcp := { d.wcp with irq := d.wcp.irq ||| BitVec.ofNat 32 (2 ^ b) } }

/-! Rate-limited events (R257 and the like): the first is raised at once and opens a window; what follows within it is
gathered and raised at its end. -/

/-- Whether a limit is that of an event, source and sub-source. -/
def Limit.is (l : Limit) (ev source sub : Nat) : Bool := l.ev == ev && l.source == source && l.sub == sub

/-- Raise a limited event: `payload` without its counts, `add` the counts in place; `first` keeps the payload of the first
happening gathered, else the latest stands. What a window gathered and its end has not reported yet goes out with the happening that
follows it. -/
def Device.limited (d : Device) (ev source sub len payload add : Nat) (first : Bool) : Device :=
  match d.wcp.limits.find? (fun l => l.is ev source sub && d.now < l.until_) with
  | some l =>
    let l' := { l with
      n := l.n + 1, payload := if first && l.n != 0 then l.payload else payload, add := if l.n = 0 then add else l.add + add }
    { d with wcp := { d.wcp with limits := d.wcp.limits.map (fun x => if x.is ev source sub then l' else x) } }
  | none =>
    let due := d.wcp.limits.find? (fun l => l.is ev source sub && l.n != 0)
    let d := d.raise ev source (match due with
      | some l => (if first then l.payload else payload) + l.add + add
      | none => payload + add)
    { d with wcp := { d.wcp with
      limits := d.wcp.limits.filter (fun x => !x.is ev source sub) ++
        [{ ev, source, sub, len, until_ := d.now + len, n := 0, payload := 0, add := 0 }] } }

/-- The end of a window (EVENT_REPORT_WINDOW_END): what was gathered is raised and opens the next window. -/
def Device.windowEnd (d : Device) (ev source sub : Nat) : Device :=
  match d.wcp.limits.find? (fun l => l.is ev source sub) with
  | none => d
  | some l =>
    if d.now < l.until_ then d
    else if l.n = 0 then { d with wcp := { d.wcp with limits := d.wcp.limits.filter (fun x => !x.is ev source sub) } }
    else
      let d := d.raise ev source (l.payload + l.add)
      let l' := { l with until_ := d.now + l.len, n := 0, payload := 0, add := 0 }
      { d with wcp := { d.wcp with limits := d.wcp.limits.map (fun x => if x.is ev source sub then l' else x) } }

/-! Monotonic counters (R416, Table 14-10). -/

def cBoot : Nat := 0
def cSeal : Nat := 1
def cRecSeq : Nat := 2
def cOnTime : Nat := 3
def cThermShut : Nat := 4
def cPowerFail : Nat := 5
def cOverwritten : Nat := 6
def cLost : Nat := 7
def cTorn : Nat := 8
def cFfFull : Nat := 9

/-- The value of a counter: the greater V of its consistent slots; 0xFFFF_FFFF with both inconsistent. -/
def counterValue (c : Pair 32 × Pair 32) : Nat :=
  if c.1.ok then (if c.2.ok then max c.1.v.toNat c.2.v.toNat else c.1.v.toNat)
  else if c.2.ok then c.2.v.toNat else 0xFFFFFFFF

/-- Whether both slots of a counter are inconsistent. -/
def counterBad (c : Pair 32 × Pair 32) : Bool := !c.1.ok && !c.2.ok

/-- A counter raised by n, staying at 0xFFFF_FFFF: the new value goes into the slot with the lesser, or the inconsistent, V. -/
def counterAdd (c : Pair 32 × Pair 32) (n : Nat) : Pair 32 × Pair 32 :=
  if counterBad c then c
  else
    let new := Pair.of (BitVec.ofNat 32 (sat 0xFFFFFFFF (counterValue c + n)))
    if !c.1.ok || (c.2.ok && c.1.v.toNat < c.2.v.toNat) then (new, c.2) else (c.1, new)

/-- The value of a device counter. -/
def Device.counter (d : Device) (i : Nat) : Nat :=
  counterValue (vget d.log.counters i (Pair.of 0, Pair.of 0))

/-- A device counter raised; after shutdown-imminent the MRAM controller refuses it (R400). -/
def Device.count (d : Device) (i n : Nat) : Device :=
  if n = 0 || d.power.shut.isSome then d else { d with log := { d.log with counters := vmod d.log.counters i (fun c => counterAdd c n) } }

/-- The counter of a shutdown's cause (Table 14-10). -/
def Device.countShutdown (d : Device) (c : Cause) : Device :=
  (d.count cThermShut (c == .thermHw).toNat).count cPowerFail (c == .pfVbat || c == .ovVbat || c == .rail).toNat

/-- Always-on tick count: 62.5 ns per tick (R411). -/
def Device.tick (d : Device) : Nat := (d.now - d.power.aonBase) * 2 / 125

/-! Black-box records (R411-R413): severities and kinds of Table 14-9. -/

def sevInfo : Nat := 0
def sevWarn : Nat := 1
def sevFault : Nat := 2
def sevSafety : Nat := 3

/-- The newest pending INFO or WARN record removed (R412). -/
def dropNewest (l : List PendRec) : Option (List PendRec) :=
  match l.reverse.findIdx? (fun r => r.severity < 2) with
  | none => none
  | some i => some (l.reverse.eraseIdx i).reverse

/-- A record enters the pending queue of 64 (R412); after shutdown-imminent new writes are refused (R18, R400). -/
def Device.queueRec (d : Device) (r : PendRec) : Device :=
  if d.power.shut.isSome then d
  else if d.log.pend.length < 64 then { d with log := { d.log with pend := d.log.pend ++ [r] } }
  else match dropNewest d.log.pend with
    | some l => { d.count cLost 1 with log := { (d.count cLost 1).log with pend := l ++ [r] } }
    | none => d.count cLost 1

/-- A record of a kind, dated now. -/
def Device.record (d : Device) (kind source severity : Nat) (payload : Bytes) : Device :=
  d.queueRec { kind, source, severity, payload, time := d.time.ns, tick := d.tick, late := false }

/-- Raise an event dated by a given time and write the record that carries its entry (R413). -/
def Device.raiseRecAt (d : Device) (time : BitVec 64) (id source payload kind severity : Nat) (extra : Bytes) : Device :=
  let e := d.entryAt time id source payload
  (d.raiseAt time id source payload).record kind source severity ((Bytes.mk' 32 e.toNat).app extra)

/-- The same, dated now. -/
def Device.raiseRec (d : Device) (id source payload kind severity : Nat) (extra : Bytes) : Device :=
  d.raiseRecAt d.time.ns id source payload kind severity extra

/-! Integrity (R352). -/

/-- A failed check of a class and index: E_INTEGRITY at most once per second with a count, and one record per episode.
`act` is Table 12-8's code (0 safe default, 1 backup, 2 frame discarded, 3 write refused). -/
def Device.integrityN (d : Device) (cls idx act n : Nat) : Device :=
  let payload := idx % 4096 * 2 ^ 244 + act * 2 ^ 242
  let e := d.entry eIntegrity cls (payload + n * 2 ^ 210)
  let fresh := !(d.log.episodes.contains (cls, idx))
  let d1 := d.limited eIntegrity cls idx second payload (n * 2 ^ 210) false
  let d2 := if fresh then { d1 with log := { d1.log with episodes := (cls, idx) :: d1.log.episodes } } else d1
  if fresh then d2.record 0x0007 cls sevSafety ((Bytes.mk' 32 e.toNat).app (words [cls, idx])) else d2

/-- One failure. -/
def Device.integrity (d : Device) (cls idx act : Nat) : Device := d.integrityN cls idx act 1

/-- A consistent value used ends the episode of its class and index. -/
def Device.intact (d : Device) (cls idx : Nat) : Device :=
  if d.log.episodes.contains (cls, idx) then
    { d with log := { d.log with episodes := d.log.episodes.filter (fun e => e != (cls, idx)) } }
  else d

/-- A use of a pair whose check matters: the failure is reported, the success ends the episode. -/
def Device.checkPair (d : Device) (ok : Bool) (cls idx act : Nat) : Device :=
  if ok then d.intact cls idx else d.integrity cls idx act

/-- A device counter with a consistent slot. -/
def Device.counterOk (d : Device) (i : Nat) : Bool := !counterBad (vget d.log.counters i (Pair.of 0, Pair.of 0))

/-- A read of a counter (class 19). -/
def Device.counterRead (d : Device) (i : Nat) : Device := d.checkPair (d.counterOk i) 19 i 0

/-- A use of the life-cycle pair (R375, class 14): where it fails, the state is derived again from the fuses. -/
def Device.lcUsed (d : Device) : Device := d.checkPair d.sec.lc.ok 14 0 1

end Sys2Proof.Machine
end

