-- ==== Sys2Proof/Machine/Slices.lean ====
section
/-! DEFINITION. Self-test slices: numbers, rows and result words, and a running slice cut short by a service request or a lost
precondition (R354, R361-R364). -/

namespace Sys2Proof.Machine

open Sys2Proof

def Device.modBist (d : Device) (f : Bist → Bist) : Device := { d with bist := f d.bist }

/-! Slices (Table 12-2): numbers 0-410 in row order. -/

/-- First slice of each row, and the number after the last. -/
def rowStarts : List Nat := [0, 8, 24, 25, 26, 27, 91, 155, 411]

/-- Row of a slice, 1-8. -/
def sliceRow (n : Nat) : Nat := ((rowStarts.drop 1).filter (fun b => b ≤ n)).length + 1

/-- Unit of a slice within its row. -/
def sliceUnit (n : Nat) : Nat := n - (rowStarts.drop (sliceRow n - 1)).headD 0

/-- Class of a slice's units (Table 12-5). -/
def sliceClass (n : Nat) : Nat := sliceRow n - 1

/-- Index within its class of unit `u` of a slice: of 129 TDCs, 64 channel slices, 16 regions, or the one unit. -/
def sliceIndex (n u : Nat) : Nat :=
  let k := sliceUnit n
  match sliceRow n with
  | 1 => 129 * k + u % 129
  | 6 => 64 * (k % 16) + u % 64
  | 8 => 16 * k + u % 16
  | 2 => k
  | 7 => k
  | _ => 0

/-- Slice result word (Table 12-4). -/
def sliceWord (verdict cls idx cause aborts : Nat) (reserved retest compare sig : Bool) : Word :=
  .ofNat 32 (fields [(30, verdict), (26, cls % 16), (14, idx % 4096), (11, cause), (4, aborts), (3, reserved.toNat),
    (2, retest.toNat), (1, compare.toNat), (0, sig.toNat)])

/-- A row's last word. -/
def Bist.setWord (b : Bist) (n : Nat) (w : Word) : Bist := { b with words := vset b.words (sliceRow n - 1) w }

/-- Consecutive service aborts of a slice. -/
def Bist.abortsOf (b : Bist) (n : Nat) : Nat := sget b.aborts n

/-! The save buffer (R360). -/

def SaveBuffer.sum (v : BitVec 32768) : Word := .ofNat 32 (Crypto.crc32 4096 v.toNat)
def SaveBuffer.of (v : BitVec 32768) : SaveBuffer := ⟨v, sum v, v, sum v⟩

/-- The copy whose CRC matches. -/
def SaveBuffer.pick (x : SaveBuffer) : Option (BitVec 32768) :=
  if sum x.a == x.crcA then some x.a else if sum x.b == x.crcB then some x.b else none

/-- The unit's state saved: a bank or plane that is FREE is clear, and MRAM is only read. -/
def Bist.saveUnit (b : Bist) (n clk : Nat) : Bist :=
  if sliceRow n = 6 || sliceRow n = 7 then b else { b with save := some (.of (Config.unitState n clk)), restored := none }

/-- The unit restored from the buffer. -/
def Bist.restore (b : Bist) (n : Nat) : Bist :=
  if sliceRow n = 6 || sliceRow n = 7 then b else { b with restored := b.save.bind (fun x => x.pick), save := none }

/-! A running slice cut short (R361-R363). -/

/-- E_BIST_INCOMPLETE, at most once per unit and 1 s (R364). -/
def Device.bistIncomplete (d : Device) (source cause : Nat) : Device :=
  d.limited 0x0C02 source 0 second (cause * 2 ^ 253) (2 ^ 221) false

/-- The slice running stops without a verdict of its own: INCOMPLETE with a cause; `put` says where it is taken again. -/
def Device.sliceCut (d : Device) (x : SliceRun) (cause aborts : Nat) (r : Option SliceResult) (put : Bist → Bist) : Device :=
  let n := x.num
  let w := sliceWord 2 (sliceClass n) (sliceIndex n 0) cause aborts x.reserved x.retest false (r.any (fun y => y.sigMatch))
  (d.modBist (fun b => put { (b.setWord n w).restore n with run := none, incomplete := b.incomplete + 1 })).bistIncomplete
    (sliceClass n * 4096 + sliceIndex n 0) cause

/-- A service request for the unit under test (R361, R362). -/
def Device.sliceAbort (d : Device) (bus : Bool) : Device :=
  match d.bist.run with
  | none => d
  | some x =>
    if x.reserved && bus then d
    else
      let n := x.num
      let k := sat 8 (d.bist.abortsOf n + 1)
      d.sliceCut x 1 k none (fun b => { b with
        aborts := sset b.aborts n k, later := b.later ++ [n]
        reserved := if 8 ≤ k && !b.reserved.contains n then b.reserved ++ [n] else b.reserved })

/-- A precondition lost during a slice: it stays first in line (R363). -/
def Device.sliceLoss (d : Device) (cause : Nat) : Device :=
  match d.bist.run with
  | none => d
  | some x =>
    if outside cause 2 6 then d
    else d.sliceCut x cause (d.bist.abortsOf x.num) none (fun b => { b with waiting := x.num :: b.waiting })

/-- A request of the normal user of the units in some rows, made by a command of the table (R361): the slice running there stops
(DEDUCED, log entry 170). -/
def Device.serve (d : Device) (rows : List Nat) : Device :=
  if d.bist.run.any (fun x => rows.contains (sliceRow x.num)) then d.sliceAbort false else d

/-- The same of a request that waits for a reserved slice (R362). -/
def Device.serveOrWait (d : Device) (rows : List Nat) : Device :=
  if d.bist.run.any (fun x => rows.contains (sliceRow x.num)) then d.sliceAbort true else d

/-- The bank or plane a slice of row 6 tests is FREE. -/
def Device.bankFree (d : Device) (n : Nat) : Bool :=
  let b := sliceUnit n / 16
  if b < 2 then vget d.hist.pairs b .free == .free else if b = 2 then d.hist.p6.st == .free else d.hist.p7.st == .free

/-- A write of MRAM beside the black-box store: refused once shutdown-imminent is asserted (R400); it stops a slice of row 7 (R361), and
one of the general firmware waits for a slice in its reserved gap (R362). -/
def Device.mram (d : Device) (general : Bool) (write : Device → Device) : Device :=
  if d.power.shut.isSome then d else write (if general then d.serveOrWait [7] else d.serve [7])

/-- The slice of row 6 running tests bank or plane `b`. -/
def Bist.testsBank (x : Bist) (b : Nat) : Bool := x.run.any (fun r => sliceRow r.num == 6 && sliceUnit r.num / 16 == b)

/-- A bank (0, 1) or plane (2, 3 for p6, p7) is taken (R361); an import chunk and a hold wait for a slice in its reserved gap. -/
def Device.serveBank (d : Device) (b : Nat) (waits : Bool) : Device := if d.bist.testsBank b then d.sliceAbort waits else d

/-- The precondition of Table 12-3 that fails, by its cause code. -/
def Device.sliceBarred (d : Device) : Option Nat :=
  let p := d.power
  if p.shut.isSome then some 6
  else if p.warn != 0 || p.fault != 0 then some 3
  else if 4 ≤ p.step then some 4
  else if d.sec.switchAt.isSome then some 5
  else none

/-- A slice that its gap is reserved for runs in some rows: a request that may wait does (R362). -/
def Bist.reservedIn (b : Bist) (rows : List Nat) : Bool := b.run.any (fun x => x.reserved && rows.contains (sliceRow x.num))

end Sys2Proof.Machine
end

