-- ==== Sys2Proof/Machine/Paths.lean ====
section
/-! DEFINITION. Paths on the ring (R223, R235) and the frames and grants a node puts on them (R221, R263, R264). -/

namespace Sys2Proof.Machine

open Sys2Proof

/-- Place of a node in the eastward order of the membership table. -/
def Ring.place (r : Ring) (node : Nat) : Option Nat := r.members.findIdx? (fun m => m.node == node)

/-- Hops from this node going east to a node (ignoring breaks). -/
def Ring.eastDist (r : Ring) (src dst : Nat) : Option Nat :=
  match r.place src, r.place dst with
  | some a, some b => some ((b + r.members.length - a) % r.members.length)
  | _, _ => none

/-- The west end of the broken link of a chain: the last member where no break has been reported. -/
def Ring.brkWest (r : Ring) : Nat :=
  match r.brk with
  | some (w, _) => w
  | none => (r.members.getLast?.map (fun m => m.node)).getD 0

/-- Hops east to a node, where the way is open. -/
def Ring.eastHops (r : Ring) (dst : Nat) : Option Nat :=
  match r.eastDist r.node dst with
  | none => none
  | some n =>
    if r.closed then some n
    else match r.eastDist r.node r.brkWest with
      | some k => if k < n then none else some n
      | none => some n

/-- Hops west to a node, where the way is open. -/
def Ring.westHops (r : Ring) (dst : Nat) : Option Nat :=
  match r.eastDist dst r.node with
  | none => none
  | some n =>
    if r.closed then some n
    else match r.eastDist dst r.brkWest with
      | some k => if k < n then none else some n
      | none => some n

/-- The port that faces east at this node, by its entry in the table (R229): 0 E, 1 W. -/
def Ring.eastPort (r : Ring) : Nat := ((r.members.find? (fun m => m.node == r.node)).map (fun m => m.east % 2)).getD 0

/-- The port of a direction. -/
def Ring.portOf (r : Ring) (west : Bool) : Nat := if west then 1 - r.eastPort else r.eastPort

/-- The direction of a port: true west, false east. -/
def Ring.west (r : Ring) (p : Nat) : Bool := p != r.eastPort

/-- The shorter path to a node: true west, false east; the one that leaves by port E on a tie (R223). -/
def Ring.shortWest (r : Ring) (dst : Nat) : Option Bool :=
  match r.eastHops dst, r.westHops dst with
  | some e, some w => some (if w = e then r.west 0 else decide (w < e))
  | some _, none => some false
  | none, some _ => some true
  | none, none => none

/-- A port's number: 0 E, 1 W. -/
def portNo (p : Port) : Nat := if p = .w then 1 else 0

/-- The reservation of a local queue, where admitted. -/
def Ring.ownResv (r : Ring) (q : Nat) : Option Resv :=
  r.resv.find? (fun v => v.node == r.node && v.queue == q && v.admitted)

/-- Whether a subscriber shares the reserved copy of a queue. -/
def Ring.reservedFor (r : Ring) (q who : Nat) : Bool := (r.ownResv q).any (fun v => bit v.mask who)

/-- The direction a queue's units take to a node: the one fixed by the reservation, else the one in use, else the shorter; a
closed way gives way to the open one. -/
def Ring.dirTo (r : Ring) (q who : Nat) (used : Option Bool) : Option Bool :=
  let pref := match r.ownResv q with
    | some v => if bit v.mask who then some v.west else used
    | none => used
  match pref with
  | none => r.shortWest who
  | some w => if (if w then r.westHops who else r.eastHops who).isSome then some w else r.shortWest who

/-- CRC-16 of a frame header over its bytes 15 to 2 (Table 8-6). -/
def hcrc (hdr : Nat) : Nat := Crypto.crc16 ((List.range 14).map (fun k => hdr / 2 ^ (8 * (15 - k)) % 256))

/-- A frame header (Table 8-6). -/
def frameHeader (mask queue src hops len : Nat) (first last : Bool) (cls : Nat) (rsv : Bool) (seq : Nat) : BitVec 128 :=
  let h := fields [(96, mask % 2 ^ 32), (82, queue % 2 ^ 14), (77, src % 32), (72, hops % 32), (59, len % 2 ^ 13),
    (58, first.toNat), (57, last.toNat), (55, cls % 4), (54, rsv.toNat), (38, seq % 2 ^ 16)]
  .ofNat 128 (h + hcrc h)

/-- Flits of a frame of `len` payload bytes (R221). -/
def flits (len : Nat) : Nat := ceilDiv (16 + len) 64

/-- Segments of a unit: 4,096 bytes each but the last (R252). -/
def segments (b : Bytes) : List Bytes :=
  (List.range (ceilDiv b.len 4096)).map (fun k => b.slice (4096 * k) (min 4096 (b.len - 4096 * k)))

/-- Frames carrying a unit's segments toward the nodes of a mask by one port (R263). -/
def unitFrames (mask queue src hops cls : Nat) (rsv : Bool) (seq : Nat) (b : Bytes) (q : Nat) (subs : List Nat) : List TxFrame :=
  let segs := segments b
  segs.zipIdx.map (fun p =>
    { frame := ⟨frameHeader mask queue src hops p.1.len (p.2 == 0) (p.2 + 1 == segs.length) cls rsv (seq + p.2), p.1⟩
      queue := q, subs := subs, last := p.2 + 1 == segs.length, rsv := rsv, cells := ceilDiv p.1.len 256 })

/-- Port p. -/
def Device.port (d : Device) (p : Nat) : RPort := vget d.ring.ports p {}

/-- A port changed. -/
def Device.modPort (d : Device) (p : Nat) (f : RPort → RPort) : Device :=
  { d with ring := { d.ring with ports := vmod d.ring.ports p f } }

/-- Ring state changed. -/
def Device.modRing (d : Device) (f : Ring → Ring) : Device := { d with ring := f d.ring }

/-- A grant added to those waiting, together with an earlier one of the same queue and node (R264). -/
def addGrant (g : Grant) : List Grant → List Grant
  | [] => [g]
  | h :: t => if h.queue = g.queue ∧ h.node = g.node then { h with cells := h.cells + g.cells } :: t else h :: addGrant g t

/-- Cells granted to a sender node for a queue: an entry on the port of the shortest path (R264). -/
def Device.grant (d : Device) (queue node cells : Nat) : Device :=
  if cells = 0 then d
  else match d.ring.shortWest node with
    | none => d
    | some west => d.modPort (d.ring.portOf west) (fun p => { p with grants := addGrant ⟨queue, node, cells⟩ p.grants })

end Sys2Proof.Machine
end

