-- ==== Sys2Proof/Machine/QueueOps.lean ====
section
/-! DEFINITION. The queue manager's shared operations: cells, drops, writing a unit, stream headers, releases (R248-R270). -/

namespace Sys2Proof.Machine

open Sys2Proof

/-! Configuration block (Table 9-2). -/

def Queue.cls (q : Queue) : Nat := fld q.cfg 1 0
def Queue.consumer (q : Queue) : Bool := bit q.cfg 2
def Queue.type (q : Queue) : Nat := fld q.cfg 15 8
def Queue.inbound (q : Queue) : Bool := bit q.cfg 16
def Queue.srcNode (q : Queue) : Nat := fld q.cfg 21 17
def Queue.cap (q : Queue) : Nat := fld q.cfg 47 32
def Queue.reserve (q : Queue) : Nat := fld q.cfg 63 48
def Queue.creditTmo (q : Queue) : Nat := fld q.cfg 79 64
def Queue.maxUnit (q : Queue) : Nat := fld q.cfg 95 80
def Queue.deliverQ (q : Queue) : Nat := fld q.cfg 127 114

/-- Q0 and Q1, fixed and ON (R248). -/
def fixedQueue (cells : Nat) : Queue :=
  { fn := { st := .on }, configured := true
    cfg := .ofNat 128 (fields [(80, cells), (48, cells), (32, cells), (16, 1), (2, 1), (0, 2)]) }

/-- A queue by number. -/
def Queues.get (qs : Queues) (n : Nat) : Queue :=
  (mget n qs.qs).getD (if n = 0 then fixedQueue 1024 else if n = 1 then fixedQueue 64 else {})

/-- A queue written. -/
def Queues.put (qs : Queues) (n : Nat) (q : Queue) : Queues := { qs with qs := mset n q qs.qs }

/-- A queue changed. -/
def Device.modQ (d : Device) (n : Nat) (f : Queue → Queue) : Device :=
  { d with qs := d.qs.put n (f (d.qs.get n)) }

/-- The queue of a number. -/
def Device.queue (d : Device) (n : Nat) : Queue := d.qs.get n

/-! Cells (R252, R254). -/

/-- A number into a sorted list, once. -/
def insertNat (n : Nat) : List Nat → List Nat
  | [] => [n]
  | h :: t => if n < h then n :: h :: t else if n = h then h :: t else h :: insertNat n t

/-- Numbers sorted, each once. -/
def sortNats (l : List Nat) : List Nat := l.foldl (fun a n => insertNat n a) []

/-- The lowest `n` numbers from `k` on that are not in a sorted list (DESIGN CHOICE, log entry 154). -/
def freeNumbers : List Nat → Nat → Nat → List Nat
  | [], k, n => (List.range n).map (k + ·)
  | u :: t, k, n =>
    if u < k then freeNumbers t k n
    else (List.range (min n (u - k))).map (k + ·) ++ freeNumbers t (u + 1) (n - (u - k))

/-- The cells a queue holds, with those of the units it is receiving. -/
def Queue.cellList (q : Queue) : List Nat := sortNats (q.units.flatMap (fun u => u.cells) ++ q.partials.flatMap (fun p => p.cells))

/-- Cells a queue holds: one shared by two units counts once. -/
def Queue.held (q : Queue) : Nat := q.cellList.length

/-- The descriptors a queue holds. -/
def Queue.descList (q : Queue) : List Nat := q.units.flatMap (fun u => u.descs) ++ q.partials.flatMap (fun p => p.descs)

/-- A queue whose cells and descriptors have been moved to other numbers. -/
def Queue.renumber (q : Queue) (cell desc : Nat → Nat) : Queue :=
  { q with
    units := q.units.map (fun u => { u with cells := u.cells.map cell, descs := u.descs.map desc })
    partials := q.partials.map (fun p => { p with cells := p.cells.map cell, descs := p.descs.map desc })
    tail := q.tail.map (fun t => (cell t.1, t.2)) }

/-- Numbers of groups of `k`. -/
def groupNumbers (k : Nat) (l : List Nat) : List Nat := l.flatMap (fun g => (List.range k).map (k * g + ·))

/-- Cells that no unit may take: held by a queue, or withdrawn. -/
def Queues.usedCells (qs : Queues) : List Nat :=
  sortNats (groupNumbers 16 qs.lostCells ++ qs.qs.flatMap (fun p => p.2.cellList))

/-- Descriptors in use or withdrawn. -/
def Queues.usedDescs (qs : Queues) : List Nat :=
  sortNats (groupNumbers 256 qs.lostDescs ++ qs.qs.flatMap (fun p => p.2.descList))

/-- Where the next unit may start within the queue's last cell: while a unit still holds that cell and room remains (R252). -/
def Queue.tailNow (q : Queue) : Option (Nat × Nat) := q.tail.filter (fun t => q.cellList.contains t.1)

/-- First 32-byte unit of a unit within its first cell. -/
def Queue.startOff (q : Queue) : Nat := (q.tailNow.map (fun t => t.2)).getD 0

/-- Cells that bytes up to `len` of a unit starting at `off` take beyond those it has. -/
def moreCells (off len have_ : Nat) : Nat := ceilDiv (off + ceilDiv len 32) 8 - have_

/-- Cells a unit of `len` bytes adds to those the queue holds. -/
def Queue.newCells (q : Queue) (len : Nat) : Nat := moreCells q.startOff len (q.tailNow.isSome.toNat)

/-- Numbers of all queues that exist as ON or STOPPING: the fixed ones and the configured ones. -/
def Queues.onQueues (qs : Queues) : List Queue :=
  (if (mget 0 qs.qs).isNone then [qs.get 0] else []) ++ (if (mget 1 qs.qs).isNone then [qs.get 1] else []) ++
    (qs.qs.map (fun p => p.2)).filter (fun q => q.fn.st != .off)

/-- RESERVE that counts: that of a queue that is ON (R254). -/
def Queue.reserveNow (q : Queue) : Nat := if q.fn.st == .on then q.reserve else 0

/-- Sum of RESERVE over the queues that are ON. -/
def Queues.reserved (qs : Queues) : Nat := (qs.onQueues.map Queue.reserveNow).sum

/-- Cells drawn from the shared pool by a queue holding `h` cells. -/
def Queue.shared (q : Queue) (h : Nat) : Nat := h - q.reserveNow

/-- Cells of the shared pool held (R254). -/
def Queues.sharedHeld (qs : Queues) : Nat := (qs.onQueues.map (fun q => q.shared q.held)).sum

/-- Free cells of the shared pool. -/
def Queues.sharedFree (qs : Queues) : Nat := 32768 - 16 * qs.lostCells.length - qs.reserved - qs.sharedHeld

/-- Free descriptors: one per segment held, those of units being received too (R253). -/
def Queues.freeDescs (qs : Queues) : Nat :=
  262144 - 256 * qs.lostDescs.length - (qs.onQueues.map (fun q => q.descList.length)).sum

/-- Why a request for cells fails: CAP (0) or the empty pool (1) (R255, Table 9-4); the pool is empty too where withdrawn regions leave fewer
cells than the RESERVEs (log entry 173). -/
def Queues.refuses (qs : Queues) (q : Queue) (add : Nat) : Option Nat :=
  let h := q.held
  if q.cap < h + add then some 0
  else if qs.sharedFree < q.shared (h + add) - q.shared h || 32768 - qs.usedCells.length < add then some 1
  else none

/-- The descriptor of segment k of a unit, whole or being received, but for NEXT (Table 9-3). -/
def QUnit.segWord (u : QUnit) (whole : Bool) (k : Nat) : Nat :=
  let start := u.off * 32 + 4096 * k
  fields [(95, (u.cells[start / 256]?).getD 0), (92, start / 32 % 8), (79, min 4096 (u.data.len - 4096 * k)), (78, (k == 0).toNat),
    (77, (whole && k + 1 == u.descs.length).toNat), (72, u.src % 32), (56, (u.seqBase.getD 0 + k) % 2 ^ 16),
    (0, (u.times[k]?).getD 0 % 2 ^ 48)]

/-- Segments chained by NEXT: number and word. -/
def chainWords (segs : List (Nat × Nat)) : List (Nat × BitVec 128) :=
  segs.zipIdx.map (fun x => (x.1.1, BitVec.ofNat 128 (match segs[x.2 + 1]? with
    | some next => x.1.2 + fields [(110, next.1), (55, 1)]
    | none => x.1.2)))

/-- A partial unit as the unit it will be: its first frame's SEQ from the last one's. -/
def Partial.unit (p : Partial) : QUnit :=
  { useq := 0, data := p.data, cells := p.cells, off := p.off, descs := p.descs, times := p.times, src := p.src, active := [], begun := []
    seqBase := p.lastSeq.map (fun s => (s + 65536 + 1 - p.descs.length) % 65536) }

/-- Descriptors of a queue in order (Table 9-3): those of its units in one chain, and of each unit being received in one of its own. -/
def Queue.descWords (q : Queue) : List (Nat × BitVec 128) :=
  let segs := fun (whole : Bool) (u : QUnit) => u.descs.zipIdx.map (fun p => (p.1, u.segWord whole p.2))
  chainWords (q.units.flatMap (segs true)) ++ q.partials.flatMap (fun p => chainWords (segs false p.unit))

/-- The cell link table: the cell after a cell of a unit, whole or being received (R253). -/
def Queue.links (q : Queue) : List (Nat × Nat) :=
  (q.units.map (fun u => u.cells) ++ q.partials.map (fun p => p.cells)).flatMap (fun l => l.zip (l.drop 1))

/-! Subscriptions. -/

/-- Subscribers active on a queue at a unit's first byte: for an inbound queue its consumer, the host (32) or a device
function (33). -/
def Queues.activeSubs (qs : Queues) (n : Nat) : List Nat :=
  let q := qs.get n
  if q.inbound then [if q.consumer then 33 else 32]
  else (qs.subs.filter (fun s => s.queue == n && s.st == .active)).map (fun s => s.who)

/-- A subscription changed. -/
def Queues.modSub (qs : Queues) (n who : Nat) (f : Sub → Sub) : Queues :=
  { qs with subs := qs.subs.map (fun s => if s.queue == n && s.who == who then f s else s) }

/-- A subscription of a queue. -/
def Queues.sub? (qs : Queues) (n who : Nat) : Option Sub := qs.subs.find? (fun s => s.queue == n && s.who == who)

/-- SEQ of the last frame taken from a source forgotten: the next frame sets it without comparison (R263, log entry 155). -/
def Queues.forgetSeq (qs : Queues) (src : Nat → Bool) : Queues :=
  { qs with qs := qs.qs.map (fun p => (p.1, { p.2 with
      partials := p.2.partials.map (fun x => if src x.src then { x with lastSeq := none } else x) })) }

/-! Release (R260, R262, R264). -/

/-- The queue without the units every subscriber has taken. -/
def Queue.release (q : Queue) : Queue := { q with units := q.units.filter (fun u => !u.active.isEmpty) }

/-- A unit taken whole by a subscriber: released with its cells when nobody else waits for it; a RELIABLE inbound queue
grants the freed cells back to its sender (R264). -/
def Device.take (d : Device) (n who useq : Nat) : Device :=
  let q := d.queue n
  let mark := fun (u : QUnit) => if u.useq = useq then
    { u with active := u.active.filter (· != who), begun := u.begun.filter (· != who) } else u
  let q' := { q with units := q.units.map mark }.release
  let freed := q.held - q'.held
  let d := { d with qs := (d.qs.put n q').modSub n who (fun s => { s with taken := s.taken + 1 }) }
  if q.inbound && q.cls = 1 && !(q.partials.any (fun p => p.src == q.srcNode && p.resetAt.isSome)) then d.grant n q.srcNode freed
  else d

/-- The oldest unit a subscriber has not taken. -/
def Queue.nextFor (q : Queue) (who : Nat) : Option QUnit := q.units.find? (fun u => u.active.contains who)

/-! Local frames: X9 filled from the queues (R223, R260, R263). -/

/-- SEQ numbers fixed for a unit and those before it (R263). -/
def Queue.number (q : Queue) (useq : Nat) : Queue :=
  let step := fun (a : Nat × List QUnit × Bool) (u : QUnit) =>
    if a.2.2 || u.seqBase.isSome then (a.1, a.2.1 ++ [u], a.2.2 || u.useq == useq)
    else (a.1 + ceilDiv u.data.len 4096, a.2.1 ++ [{ u with seqBase := some a.1 }], u.useq == useq)
  let r := q.units.foldl step (q.seq, [], false)
  { q with seq := r.1, units := r.2.1 }

/-- The unit a subscriber would be sent next: the first it has not begun. -/
def Queue.unsent? (q : Queue) (who : Nat) : Option QUnit := q.units.find? (fun u => u.active.contains who && !u.begun.contains who)

/-- Flits a queue holds framed that X9 has had no room for, reserved or not. -/
def RPort.waiting (x : RPort) (n : Nat) (rsv : Bool) : Nat :=
  ((x.x9.filter (fun f => f.held && f.queue == n && f.rsv == rsv)).map (fun f => flits f.frame.data.len)).sum

/-- Bytes of a frame in X9. -/
def TxFrame.size (f : TxFrame) : Nat := 16 + f.frame.data.len

/-- Bytes in X9 (R16). -/
def RPort.inX9 (x : RPort) : Nat := ((x.x9.filter (fun f => !f.held)).map TxFrame.size).sum

/-- A subscriber of a queue may be sent its next unit through port p: its path leads there, its last units have left the other
port (R235, R236), no credit reset runs, and less than a superframe of its queue's frames wait (log entry 152). -/
def Device.subReady (d : Device) (p n : Nat) (s : Sub) : Bool :=
  let q := d.queue n
  s.who < 32 && s.st != .suspended && s.reset.isNone && (q.unsent? s.who).isSome &&
    (d.ring.dirTo n s.who s.west).any (fun w => d.ring.portOf w == p) &&
    !((d.port (1 - p)).x9.any (fun f => f.queue == n && f.subs.contains s.who)) &&
    decide ((d.port p).waiting n (d.ring.reservedFor n s.who) < 315)

/-- One copy of a unit framed for the subscribers of port p that share it (R260). -/
def Device.fillOne (d : Device) (p n : Nat) : Device × Bool :=
  let subs := d.qs.subs.filter (fun s => s.queue == n && d.subReady p n s)
  match subs.head? with
  | none => (d, false)
  | some s0 =>
    match (d.queue n).unsent? s0.who with
    | none => (d, false)
    | some u =>
      let rsv := d.ring.reservedFor n s0.who
      let share := (subs.filter (fun s => d.ring.reservedFor n s.who == rsv &&
        (((d.queue n).unsent? s.who).map (fun x => x.useq)) == some u.useq)).map (fun s => s.who)
      let hops := (share.map (fun w => (if d.ring.west p then d.ring.westHops w else d.ring.eastHops w).getD 0)).foldl max 0
      let d := d.modQ n (fun q => q.number u.useq)
      let q := d.queue n
      let base := ((q.units.find? (fun x => x.useq == u.useq)).bind (fun x => x.seqBase)).getD 0
      let fs := unitFrames ((share.map (fun w => 2 ^ w)).sum) q.deliverQ d.ring.node (hops + 1) q.cls rsv base u.data n share
      let d := d.modPort p (fun x => { x with x9 := x.x9 ++ fs })
      let d := d.modQ n (fun q => { q with units := q.units.map (fun x =>
        if x.useq = u.useq then { x with begun := x.begun ++ share.filter (fun w => !x.begun.contains w) } else x) })
      let west := d.ring.west p
      (share.foldl (fun (d : Device) w => { d with qs := d.qs.modSub n w (fun s => { s with west := some west }) }) d, true)

/-- Copies framed for one queue while it may send more. -/
def Device.fillQueue (d : Device) (p n : Nat) : Nat → Device
  | 0 => d
  | k + 1 =>
    let r := d.fillOne p n
    if r.2 then r.1.fillQueue p n k else r.1

/-- X9 of a member port that is ON is filled from the outbound queues that run; no stream traffic before the node's join is complete
(Table 8-8, step 7). -/
def Device.fillX9 (d : Device) (p : Nat) : Device :=
  let x := d.port p
  if x.link != .member || x.fn.st != .on || d.ring.joinDue then d
  else (d.qs.qs.filter (fun q => !q.2.inbound && (q.2.fn.st == .on || q.2.fn.st == .stopping))).foldl
    (fun d q => d.fillQueue p q.1 64) d

/-! Drops (R255, R257). -/

/-- E_Q_DROP for one unit of a reason, at most once per queue and reason in 10 ms. -/
def Device.countDrop (d : Device) (n reason useq : Nat) : Device :=
  let d := d.modQ n (fun q => { q with drops := vmod q.drops reason (· + 1) })
  d.limited 0x0801 n reason (10 * ms) (fields [(252, reason), (188, useq % 2 ^ 32)]) (2 ^ 220) true

/-- A unit no subscriber is partway through (R255). -/
def QUnit.droppable (u : QUnit) : Bool := u.begun.isEmpty && u.read == 0

/-- A missed unit is counted to each subscriber that had not taken it. -/
def Queues.missed (qs : Queues) (n : Nat) (u : QUnit) : Queues :=
  { qs with
    subs := qs.subs.map (fun s => if s.queue == n && u.active.contains s.who then
      { s with missed := s.missed + 1, missedRead := s.missedRead + 1 } else s) }

/-- A unit of a queue dropped under a reason. -/
def Device.dropUnit (d : Device) (n : Nat) (u : QUnit) (reason : Nat) : Device :=
  let d := { d with qs := d.qs.missed n u }
  let d := d.modQ n (fun q => { q with
    units := q.units.filter (fun x => x.useq != u.useq)
    hostMissed := if u.active.contains 32 && q.inbound then q.hostMissed + 1 else q.hostMissed })
  d.countDrop n reason u.useq

/-- The oldest droppable unit of a queue dropped under a reason; unchanged (false) where there is none. -/
def Device.dropOldest (d : Device) (n reason : Nat) : Device × Bool :=
  match (d.queue n).units.find? QUnit.droppable with
  | none => (d, false)
  | some u => (d.dropUnit n u reason, true)

/-- Units whose last frame has left toward their subscribers are released: in the same cycle a release precedes a request (R256). -/
def Device.releases (d : Device) (n : Nat) : Device :=
  (d.queue n).units.foldl (fun d u =>
    (u.gone.filter (fun w => u.active.contains w)).foldl (fun (d : Device) w => d.take n w u.useq) d) d

/-- Before a drop from a queue, subscribers that may start their next unit start it (R256). -/
def Device.startsFirst (d : Device) (n len : Nat) : Device :=
  if (d.queue n).cls == 0 && (d.qs.refuses (d.queue n) ((d.queue n).newCells len)).isSome then (d.fillX9 0).fillX9 1 else d

/-- What becomes of a unit written to a queue. -/
inductive Put | stored | unsent | waits | dropped | refused
deriving DecidableEq, Repr

/-- Cells found for what a queue needs, asked anew after each drop, dropping where the class allows it (R255); `fuel` bounds the
drops by the units held. -/
def Device.findCells (d : Device) (n : Nat) (need : Queue → Nat) : Nat → Device × Bool
  | 0 => (d, (d.qs.refuses (d.queue n) (need (d.queue n))).isNone)
  | fuel + 1 =>
    match d.qs.refuses (d.queue n) (need (d.queue n)) with
    | none => (d, true)
    | some reason =>
      if (d.queue n).cls = 0 then
        let r := d.dropOldest n reason
        if r.2 then r.1.findCells n need fuel else (r.1, false)
      else (d, false)

/-- What is left of a unit's last cell. -/
def tailAfter (off len : Nat) (cells : List Nat) : Option (Nat × Nat) :=
  let fill := (off + ceilDiv len 32) % 8
  if fill = 0 then none else cells.getLast?.map (fun c => (c, fill))

/-- The cells and descriptors bytes up to `len` of a unit take, from the ones it has. -/
def Queues.allocate (qs : Queues) (off len : Nat) (cells descs : List Nat) : List Nat × List Nat :=
  (cells ++ freeNumbers qs.usedCells 0 (moreCells off len cells.length),
    descs ++ freeNumbers qs.usedDescs 0 (ceilDiv len 4096 - descs.length))

/-- The unit appended to the queue. -/
def Device.store (d : Device) (n src : Nat) (data : Bytes) : Device :=
  let q := d.queue n
  let off := q.startOff
  let a := d.qs.allocate off data.len (q.tailNow.map (fun t => t.1)).toList []
  let u : QUnit :=
    { useq := q.useq, data, cells := a.1, off, descs := a.2
      times := List.replicate a.2.length d.time.ns.toNat, src, active := d.qs.activeSubs n, begun := [] }
  d.modQ n (fun q => { q with units := q.units ++ [u], tail := tailAfter off data.len a.1, useq := q.useq + 1 })

/-- A unit of a producer: `mk` makes its bytes from its USEQ; `mayWait` says whether the producer may wait (Table 9-6). What its
subscribers release or start in the same cycle comes first (R256). -/
def Device.putUnit (d : Device) (n src : Nat) (mayWait : Bool) (mk : Nat → Bytes) : Device × Put :=
  let q := d.queue n
  let skip := d.modQ n (fun q => { q with useq := q.useq + 1 })
  if q.fn.st != .on || (d.qs.activeSubs n).isEmpty then
    (skip.modQ n (fun q => { q with unsent := q.unsent + 1 }), .unsent)
  else
    let data := mk q.useq
    if q.maxUnit < ceilDiv data.len 256 then (skip.countDrop n 2 q.useq, .dropped)
    else
      let r := ((d.releases n).startsFirst n data.len).findCells n (fun q => q.newCells data.len) q.units.length
      if r.2 then (r.1.store n src data, .stored)
      else if q.cls = 2 then ((r.1.modQ n (fun q => { q with useq := q.useq + 1 })).countDrop n 5 q.useq, .refused)
      else if mayWait then (r.1, .waits)
      else ((r.1.modQ n (fun q => { q with useq := q.useq + 1 })).countDrop n 2 q.useq, .dropped)

/-- A stream header (Table 9-7), 32 bytes, of a unit that closed at a device time. -/
def Device.streamHeader (d : Device) (time n useq flags len type recsize records info : Nat) : Bytes :=
  .mk' 32 (fields [(192, time % 2 ^ 64), (160, useq % 2 ^ 32), (144, d.time.epoch.toNat), (128, flags % 2 ^ 16),
    (96, len % 2 ^ 32), (82, n % 2 ^ 14), (77, d.ring.node % 32), (64, type % 256), (48, recsize % 2 ^ 16),
    (32, records % 2 ^ 16), (0, info % 2 ^ 32)])

/-- A unit of a type without its own header that closed at a device time: stream header, then the body (R267). -/
def Device.putStreamAt (d : Device) (time n : Nat) (mayWait : Bool) (flags type recsize records info : Nat) (body : Bytes) :
    Device × Put :=
  d.putUnit n d.ring.node mayWait
    (fun useq => (d.streamHeader time n useq flags (32 + body.len) type recsize records info).app body)

/-- Such a unit that closes now. -/
def Device.putStream (d : Device) (n : Nat) (mayWait : Bool) (flags type recsize records info : Nat) (body : Bytes) :
    Device × Put :=
  d.putStreamAt d.time.ns.toNat n mayWait flags type recsize records info body

/-- The event unit closed (R269): up to 64 entries; where the queue makes the producer wait they stay held. -/
def Device.closeEvents (d : Device) : Device :=
  if d.qs.eventQ = 0xFFFF || d.qs.evBuf.isEmpty then d
  else
    let es := d.qs.evBuf.take 64
    let r := d.putStream d.qs.eventQ true 0 0x04 32 es.length d.qs.evLost (.cat (es.map (fun e => Bytes.mk' 32 e.toNat)))
    if r.2 = .waits then r.1
    else { r.1 with qs := { r.1.qs with
      evBuf := r.1.qs.evBuf.drop es.length, evSince := d.now, evLost := r.1.qs.evLost - d.qs.evLost } }

/-- Full event units closed, at most `fuel` of them. -/
def Device.closeFull (d : Device) : Nat → Device
  | 0 => d
  | f + 1 => if d.qs.evBuf.length < 64 then d else d.closeEvents.closeFull f

/-! Binding (R251). -/

/-- Classes permitted for a stream type (Table 9-6). -/
def typeClass (type cls : Nat) : Bool :=
  cls = 0 || (cls = 1 && (type = 0x04 || type = 0x06 || type = 0x07))

/-- The binding rules of R251 fail for a producer of a type. -/
def Device.bindFails (d : Device) (n type : Nat) (b : Binder) : Bool :=
  let q := d.queue n
  n < 16 || 16384 ≤ n || !q.configured || q.inbound || (q.type != 0 && q.type != type) || !typeClass type q.cls ||
    (match q.bound with | some x => x != b | none => false)

/-- The binding rules fail for a device function that consumes an inbound queue. -/
def Device.consumeFails (d : Device) (n type : Nat) (b : Binder) : Bool :=
  let q := d.queue n
  n < 16 || 16384 ≤ n || !q.configured || !q.inbound || !q.consumer || (q.type != 0 && q.type != type) || !typeClass type q.cls ||
    (match q.bound with | some x => x != b | none => false)

/-- A binder's queue changed from one number to another (0xFFFF none). -/
def Device.bind (d : Device) (b : Binder) (old new : Nat) : Device :=
  let d := if old < 16384 then d.modQ old (fun q => if q.bound = some b then { q with bound := none } else q) else d
  if new < 16384 then d.modQ new (fun q => { q with bound := some b }) else d

/-! WCP messages on the ring (R44-R46). -/

/-- SEQ of the next frame of a message to a queue of a node. -/
def Ring.wcpNext (r : Ring) (node queue : Nat) : Nat := (mget (16384 * node + queue) r.wcpSeq).getD 0

/-- Frames of such a message sent. -/
def Ring.wcpSent (r : Ring) (node queue n : Nat) : Ring :=
  { r with wcpSeq := mset (16384 * node + queue) ((r.wcpNext node queue + n) % 65536) r.wcpSeq }

/-- A WCP message to a queue of a node: into the local MAILBOX queue, or as frames on the shorter path. The answer says
whether it went. -/
def Device.sendMsg (d : Device) (node queue : Nat) (msg : Bytes) : Device × Bool :=
  if node = d.ring.node then
    let r := d.putUnit queue node false (fun _ => msg)
    (r.1, r.2 = .stored)
  else match d.ring.shortWest node with
    | none => (d, false)
    | some west =>
      let hops := (if west then d.ring.westHops node else d.ring.eastHops node).getD 0
      let fs := unitFrames (2 ^ node) queue d.ring.node (hops + 1) 2 false (d.ring.wcpNext node queue) msg 16384 []
      let d := d.modPort (d.ring.portOf west) (fun p => { p with x9 := p.x9 ++ fs })
      (d.modRing (fun r => r.wcpSent node queue fs.length), true)

/-- The ring mailbox prefix (Table 2-10) before a message body. -/
def withPrefix (replyQ src : Nat) (body : Bytes) : Bytes :=
  (Bytes.mk' 8 (fields [(32, replyQ % 2 ^ 14), (24, src % 32), (0, body.len % 2 ^ 16)])).app body

end Sys2Proof.Machine
end

