-- ==== Sys2Proof/Machine/Wcp.lean ====
section
/-! DEFINITION. The Waitik Command Protocol: envelopes, sessions, counters and duplicates, the order of checks, responses
and completions (R39-R67, R440, R441). -/

namespace Sys2Proof.Machine

open Sys2Proof

/-! Status codes (Table 2-13). -/

def sOk : Nat := 0x00
def sPending : Nat := 0x01
def sReplayed : Nat := 0x02
def sBadAuth : Nat := 0x10
def sStale : Nat := 0x11
def sNoSession : Nat := 0x12
def sBadParam : Nat := 0x20
def sBadState : Nat := 0x21
def sBusy : Nat := 0x22
def sNoResource : Nat := 0x23
def sRestartPending : Nat := 0x24
def sSealed : Nat := 0x30
def sLifecycle : Nat := 0x31
def sHwFault : Nat := 0x40
def sIntegrity : Nat := 0x41

/-- Command IDs the manual defines. -/
def definedIds : List Nat :=
  [
    0x0100, 0x0101, 0x0102, 0x0103, 0x0140, 0x0141, 0x0142, 0x0143, 0x0144, 0x0200,
    0x0201, 0x0202, 0x0203, 0x0240, 0x0241, 0x0242, 0x0243, 0x0244, 0x0245, 0x0246,
    0x0247, 0x0248, 0x0249, 0x024A, 0x024B, 0x024C, 0x024D, 0x0300, 0x0301, 0x0302,
    0x0303, 0x0304, 0x0305, 0x0340, 0x0341, 0x0342, 0x0343, 0x0344, 0x0345, 0x0346,
    0x0347, 0x0348, 0x0349, 0x034A, 0x0400, 0x0401, 0x0402, 0x0403, 0x0404, 0x0440,
    0x0441, 0x0442, 0x0443, 0x0444, 0x0445, 0x0446, 0x0447, 0x0448, 0x0449, 0x0500,
    0x0501, 0x0502, 0x0503, 0x0504, 0x0540, 0x0541, 0x0542, 0x0543, 0x0544, 0x0545,
    0x0600, 0x0601, 0x0602, 0x0640, 0x0641, 0x0642, 0x0643, 0x0700, 0x0701, 0x0702] ++
  [
    0x0703, 0x0740, 0x0741, 0x0742, 0x0743, 0x0744, 0x0745, 0x0746, 0x0800, 0x0801,
    0x0802, 0x0803, 0x0840, 0x0841, 0x0842, 0x0843, 0x0844, 0x0845, 0x0846, 0x0847,
    0x0848, 0x0849, 0x084A, 0x084B, 0x0900, 0x0901, 0x0902, 0x0903, 0x0940, 0x0941,
    0x0942, 0x0943, 0x0944, 0x0945, 0x0946, 0x0A00, 0x0A01, 0x0A40, 0x0B00, 0x0B01,
    0x0B02, 0x0B03, 0x0B04, 0x0B40, 0x0B41, 0x0B42, 0x0B43, 0x0B44, 0x0B45, 0x0B46,
    0x0B47, 0x0B48, 0x0B49, 0x0B4A, 0x0B4B, 0x0B4C, 0x0B4D, 0x0C00, 0x0C01, 0x0C02,
    0x0C40, 0x0C41, 0x0C42, 0x0D00, 0x0D01, 0x0D02, 0x0D40, 0x0D41, 0x0D42, 0x0D43,
    0x0D44, 0x0D45, 0x0D46, 0x0D47, 0x0D48, 0x0E00, 0x0E01, 0x0E40, 0x0E41, 0x0E42,
    0x0F00, 0x0F01, 0x0F02, 0x0F03, 0x0F40]

/-- A query (R64, R66). -/
def isQuery (id : Nat) : Bool := id % 256 < 0x40

/-! Envelopes (R47). -/

/-- An envelope as delivered: the 32 header bytes, the payload bytes delivered, and the path (R55). -/
structure Env where
  hdr : Nat
  body : Bytes
  path : Path
  /-- It arrived at Q0 with 64 commands in flight (R45). -/
  tooMany : Bool := false
deriving DecidableEq, Repr

def Env.id (e : Env) : Nat := nfld e.hdr 15 0
def Env.auth (e : Env) : Bool := nbit e.hdr 16
def Env.session (e : Env) : Nat := nfld e.hdr 31 24
def Env.counter (e : Env) : Nat := nfld e.hdr 63 32
def Env.plen (e : Env) : Nat := nfld e.hdr 79 64
def Env.tag (e : Env) : Nat := nfld e.hdr 255 192
/-- The PLEN payload bytes. -/
def Env.payload (e : Env) : Bytes := e.body.slice 0 e.plen

/-- R50. -/
def Env.malformed (e : Env) : Bool :=
  4064 < e.plen || e.body.len < e.plen || nbit e.hdr 23 || nfld e.hdr 22 17 != 0 || nfld e.hdr 191 80 != 0 ||
    (15 < e.session && e.session != 0xFF) || (!e.auth && e.tag != 0) || (e.id == 0x0140 && e.session != 0xFF)

/-- The unique identifier's bytes (R49). -/
def uidBytes : List Nat := Crypto.bytesOfNat 8 Config.uid.toNat

/-- The truncated CMAC of R49 over a header's bytes 0-23 and what follows it, as header bytes 24-31. -/
def tagOf (key : List Nat) (hdr : Nat) (body : Bytes) : Nat :=
  Crypto.toNat ((Crypto.cmac key (uidBytes ++ Crypto.bytesOfNat 24 hdr ++ Crypto.bytesOf body)).take 8)

/-- The bytes of a 256-bit key. -/
def keyBytes (k : BitVec 256) : List Nat := Crypto.bytesOfNat 32 k.toNat

/-- A response (R48): header and result; `key` tags it. -/
def response (key : Option (List Nat)) (id session counter status orig execTime : Nat) (result : Bytes) : Bytes :=
  let result := result.limit
  let h := fields [(128, execTime), (88, orig), (80, status), (64, result.len), (32, counter), (24, session),
    (23, 1), (16, key.isSome.toNat), (0, id)]
  let t := match key with
    | some k => tagOf k h result
    | none => 0
  (Bytes.mk' 32 (h + t * 2 ^ 192)).app result

/-! Key slots and rights (Tables 13-1, 13-2). -/

/-- The copy of a key slot in force (R373): the highest-numbered written and not revoked; the test copy 0 of slots 4-14 counts
only in BLANK and RETURN. -/
def Device.keyCopy (d : Device) (slot : Nat) : Option (Nat × KeyCopy) :=
  let copies := vget d.sec.keys slot (Vector.replicate 4 {})
  let live := fun (i : Nat) => (vget copies i {}).written && !(vget copies i {}).revoked
  let test := !(4 ≤ slot && slot ≤ 14) || d.lc = lcBlank || d.lc = lcReturn
  let idx := if live 3 then some 3 else if live 2 then some 2 else if live 1 then some 1
    else if live 0 && test then some 0 else none
  idx.map (fun i => (i, vget copies i {}))

/-- Whether a slot's use in the present life-cycle state includes host sessions (Tables 13-1, 13-2). -/
def Device.slotOpens (d : Device) (slot : Nat) : Bool :=
  let lc := d.lc
  let test := lc = lcBlank || lc = lcReturn
  (if slot = 1 then decide (lc = lcBlank) else if slot = 15 then test
   else decide (4 ≤ slot && slot ≤ 14) &&
     (if test then (match d.keyCopy slot with | some (0, _) => true | _ => false)
      else (lc = lcProvisioned || lc = lcField) && (match d.keyCopy slot with | some (0, _) => false | some _ => true | none => false))) &&
  (d.keyCopy slot).isSome

/-- The refusal of a command by its session's slot (Table 13-1, R53); none where it is permitted. -/
def Device.rights (d : Device) (slot id : Nat) (sealed : Bool) : Option Nat :=
  if isQuery id || id == 0x0141 || id == 0x0142 then none
  else
    let lc := d.lc
    let ok :=
      if slot = 1 then decide (lc = lcBlank)
      else if slot = 15 then (lc = lcBlank || lc = lcReturn) && id != 0x0D40
      else if slot = 4 then !sealed
      else if slot = 5 then sealed
      else if 6 ≤ slot && slot ≤ 13 then !sealed && !(0x0D40 ≤ id && id ≤ 0x0DFF)
      else if slot = 14 then (0x0F40 ≤ id && id ≤ 0x0FFF) || id == 0x0944 || id == 0x0945 || id == 0x0946
      else false
    if ok then none else some (if sealed then sSealed else sBadState)

/-! Sessions. -/

def Device.session (d : Device) (n : Nat) : Session := vget d.wcp.sessions n {}

def Device.modSession (d : Device) (n : Nat) (f : Session → Session) : Device :=
  { d with wcp := { d.wcp with sessions := vmod d.wcp.sessions n f } }

/-- A session closed (R52): key, counter state and cache erased; E_SESSION_CLOSED with its reason. -/
def Device.closeSession (d : Device) (n reason : Nat) : Device :=
  if (d.session n).isOpen then
    let d := d.modSession n (fun _ => {})
    let d := { d with wcp := { d.wcp with waits := d.wcp.waits.filter (fun w => w.session.val != n) } }
    d.raise eSessionClosed n (reason * 2 ^ 144)
  else d

/-- Number of open sessions. -/
def Device.openSessions (d : Device) : Nat := (d.wcp.sessions.toList.filter (fun s => s.isOpen)).length

/-- A cached counter's entry. -/
def Session.find (s : Session) (counter : Nat) : Option CacheEntry := s.cache.find? (fun e => e.counter.toNat == counter)

/-- A cached entry changed. -/
def Session.update (s : Session) (counter : Nat) (f : CacheEntry → CacheEntry) : Session :=
  { s with cache := s.cache.map (fun e => if e.counter.toNat = counter then f e else e) }

/-! Ring replies (R44-R46). -/

/-- A reply sent to a queue of a node; one that is refused, or whose delivery is not known yet, waits for RESPONSE_RETRY
(log entry 20). `first` marks the first response of a command in flight (R45). -/
def Device.reply (d : Device) (node queue : Nat) (body : Bytes) (first : Bool) : Device :=
  let msg := withPrefix 0 d.ring.node body
  let r := d.sendMsg node queue msg
  if r.2 && node = d.ring.node then
    { r.1 with wcp := { r.1.wcp with inFlight := r.1.wcp.inFlight - first.toNat } }
  else
    { r.1 with wcp := { r.1.wcp with
      replies := r.1.wcp.replies ++ [{ node, queue, msg, since := d.now, nextTry := d.now + ms, first }] } }

/-- A response joined those that wait for their REPLY_Q. -/
def Device.replyWaits (old new : Device) : Bool := old.wcp.replies.length < new.wcp.replies.length

/-- The last response waiting changed. -/
def Device.modLastReply (d : Device) (f : Reply → Reply) : Device :=
  match d.wcp.replies.reverse with
  | [] => d
  | r :: rest => { d with wcp := { d.wcp with replies := (f r :: rest).reverse } }

/-- A device reset is due `len` after now (R65): an earlier one stands. -/
def Device.scheduleReset (d : Device) (len : Nat) (cause : Cause) : Device :=
  { d with wcp := { d.wcp with resetAt := match d.wcp.resetAt with
    | some r => some r
    | none => some (d.now + len, cause) } }

/-! Completion (R58, R59). -/

/-- The E_CMD_DONE entry of a command (Table 2-14), tagged with the session key. -/
def Device.doneEntry (d : Device) (key : List Nat) (w : Wait) (status rlen : Nat) : BitVec 256 :=
  let e := (eventEntry (fields [(160, w.counter.toNat), (144, rlen)]) w.cmdId d.time.ns.toNat d.wcp.evSeq.toNat eCmdDone
    status w.session.val).toNat
  .ofNat 256 (e + tagOf key e Bytes.nil * 2 ^ 192)

/-- One pending command completes: its cache entry takes the final status and result, and E_CMD_DONE goes to every path on
which its counter arrived (R56, R59). -/
def Device.finish (d : Device) (w : Wait) (status : Nat) (result : Bytes) : Device :=
  let result := result.limit
  let key := keyBytes (d.session w.session.val).key
  let e := d.doneEntry key w status result.len
  let d := d.modSession w.session.val (fun s =>
    { s.update w.counter.toNat (fun c => { c with status, result }) with pending := s.pending - 1, lastActive := d.now })
  let d := { d with wcp := { d.wcp with
    evSeq := d.wcp.evSeq + 1
    out := if w.paths.contains .spi then d.wcp.out ++ [e] else d.wcp.out } }
  w.paths.foldl (fun d p => match p with
    | .spi => d
    | .ring node queue => d.reply node queue (.mk' 32 e.toNat) false) d

/-- Every command waiting for something completes with a status and a result. -/
def Device.complete (d : Device) (k : WaitKind) (status : Nat) (result : Bytes) : Device :=
  let ws := d.wcp.waits.filter (fun w => w.kind == k)
  let d := { d with wcp := { d.wcp with waits := d.wcp.waits.filter (fun w => w.kind != k) } }
  ws.foldl (fun d w => d.finish w status result) d

/-- One waiting command of a kind, the first accepted, completes. -/
def Device.completeFirst (d : Device) (k : WaitKind) (status : Nat) (result : Bytes) : Device :=
  match d.wcp.waits.find? (fun w => w.kind == k) with
  | some w => ({ d with wcp := { d.wcp with waits := d.wcp.waits.erase w } } : Device).finish w status result
  | none => d

/-! Commands (R440). -/

/-- Who sends a command: its session, the session's slot and the counter, and the path. -/
structure Ctx where
  session : Nat
  slot : Nat
  counter : Nat
  path : Path
  auth : Bool

/-- What an executed command answers. -/
inductive Answer
  | done (status : Nat) (result : Bytes)
  | pend (k : WaitKind)

/-- S_OK with a result, and a refusal. -/
def Answer.ok (r : Bytes) : Answer := .done sOk r
def Answer.no (st : Nat) : Answer := .done st Bytes.nil

/-- A refusal by a check: status and result. -/
abbrev Refuse := Option (Nat × Bytes)

/-- A refusal without a result, where a condition holds. -/
def refuse (c : Bool) (st : Nat) : Refuse := if c then some (st, Bytes.nil) else none

/-- A command: its identifier and the checks of R440 in their order, then its effect. -/
structure Cmd where
  id : Nat
  /-- Step 1: the payload's form fits. -/
  form : Bytes → Bool := fun _ => true
  /-- Whether it is a sealed-change command (R383). -/
  sealed : Bytes → Bool := fun _ => false
  /-- Step 2, beyond Table 13-1: further rights of the slot and the life-cycle state. -/
  life : Device → Ctx → Bytes → Refuse := fun _ _ _ => none
  /-- Step 4: a block it needs is unusable. -/
  hw : Device → Bytes → Bool := fun _ _ => false
  /-- Step 5: an in-flight bound, then the function's state. -/
  busy : Device → Bytes → Bool := fun _ _ => false
  state : Device → Bytes → Refuse := fun _ _ => none
  /-- Steps 6 and 7. -/
  content : Device → Bytes → Refuse := fun _ _ => none
  resource : Device → Bytes → Refuse := fun _ _ => none
  run : Ctx → Bytes → Device → Device × Answer

/-- A query over a value under the complement convention: S_INTEGRITY where its pair fails (R352). -/
def answerPair (ok : Bool) (r : Bytes) : Answer := .done (if ok then sOk else sIntegrity) r

/-- A mark as a block of the map, and a block as its mark. -/
def Mark.block (m : Mark) : BitVec 128 := .ofNat 128 (fields [(64, m.time.toNat), (32, m.idx), (0, m.cls)])
def markOf (w : BitVec 128) : Mark :=
  { cls := fld w 31 0, idx := fld w 63 32, time := .ofNat 64 (fld w 127 64) }

/-- Marks put into the unusable map and its backup (R366). -/
def Bist.putMarks (b : Bist) (ms : List Mark) : Bist :=
  { b with marks := ms, map := b.map.put (ms.map (fun m => m.block)), mapBackup := b.mapBackup.put (ms.map (fun m => m.block)) }

/-- A unit named by the marks in force (R366). -/
def Device.unusable (d : Device) (cls idx : Nat) : Bool := d.bist.marks.any (fun m => m.cls == cls && m.idx == idx)

/-- Served by the boot ROM in recovery (R382). -/
def servedInRecovery (id : Nat) (p : Bytes) : Bool :=
  id == 0x0100 || id == 0x0101 || id == 0x0140 || id == 0x0144 ||
    ((id == 0x0D42 || id == 0x0D43 || id == 0x0D44) && p.word 0 == 1)

/-- The first check of R440 that fails; steps 1 to 4 and the bound of step 5. -/
def Cmd.early (c : Cmd) (ctx : Ctx) (p : Bytes) (d : Device) : Refuse :=
  if !c.form p then some (sBadParam, Bytes.nil)
  else match (if ctx.auth then d.rights ctx.slot c.id (c.sealed p) else none) with
  | some st => some (st, Bytes.nil)
  | none => match c.life d ctx p with
    | some r => some r
    | none =>
      if c.sealed p && d.counter cSeal == 0xFFFFFFFF then some (sNoResource, Bytes.nil)
      else if (ctx.auth && d.unusable 4 0) || c.hw d p then some (sHwFault, Bytes.nil)
      else if d.sec.general.isNone && !servedInRecovery c.id p then some (sBadState, Bytes.nil)
      else if c.busy d p then some (sBusy, Bytes.nil)
      else none

/-- The remaining checks of R440: state, content, stored resources. -/
def Cmd.late (c : Cmd) (p : Bytes) (d : Device) : Refuse :=
  match c.state d p with
  | some r => some r
  | none => match c.content d p with
    | some r => some r
    | none => c.resource d p

/-- A sealed switchover is due or in progress (R388). -/
def Device.sealedSwitching (d : Device) : Bool := vget d.sec.switchDue 1 false || d.sec.sealSwitchAt.isSome

/-- A sealed-change command answered S_PENDING still runs: a field block commit, a sealed reservation, an erasure or a verification of
the sealed component (R388). -/
def Device.sealedRunning (d : Device) : Bool :=
  d.core.commitAt.isSome || d.wcp.waits.any (fun w => match w.kind with | .sealResv _ => true | _ => false) ||
    vget d.sec.staging 1 .idle == .erasing || vget d.sec.staging 1 .idle == .verifying

/-- The sealed domain is occupied, or commands wait for it: it executes them one at a time, in their order (R388). -/
def Device.sealedBusy (d : Device) : Bool := d.sealedSwitching || d.sealedRunning || !d.sec.deferred.isEmpty

/-- Execution: the checks in order, then the effect; a sealed change waits while the sealed domain is occupied (R388). -/
def Cmd.execute (c : Cmd) (ctx : Ctx) (p : Bytes) (d : Device) : Device × Answer :=
  match c.early ctx p d with
  | some r => (d, .done r.1 r.2)
  | none =>
    if c.sealed p && d.sealedBusy then
      ({ d with sec := { d.sec with deferred := d.sec.deferred ++
          [{ session := ctx.session, counter := .ofNat 32 ctx.counter, cmdId := c.id, payload := p }] } },
        .pend .deferred)
    else match c.late p d with
      | some r => (d, .done r.1 r.2)
      | none => c.run ctx p d

/-- The rights of a command depend on the life-cycle state: a use of its pair (R375); queries, the session's closing and its policy are
permitted to every session (R53). A sealed change reads the seal counter too (R385). -/
def Device.rightsRead (d : Device) (id : Nat) (sealed : Bool) : Device :=
  let d := if isQuery id || id == 0x0141 || id == 0x0142 then d else d.lcUsed
  if sealed then d.counterRead cSeal else d

/-- The counter consumed and its cache entry made, evicting the oldest of 16 (R55); the rights are looked up. -/
def Device.accept (d : Device) (e : Env) (sealed : Bool := false) : Device :=
  (d.rightsRead e.id sealed).modSession e.session (fun s => { s with
    high := .ofNat 32 e.counter
    cache := ({ counter := .ofNat 32 e.counter, tag := .ofNat 64 e.tag, cmdId := e.id, status := sPending,
                execTime := d.time.ns, result := Bytes.nil } :: s.cache).take 16
    accepted := true, lastActive := d.now })

/-- A command accepted and executed: its final response replaces the cache entry, or it waits (R55, R58). -/
def Cmd.tracked (c : Cmd) (e : Env) (d : Device) : Device × Nat × Bytes :=
  let ctx : Ctx := { session := e.session, slot := (d.session e.session).slot, counter := e.counter, path := e.path, auth := true }
  let r := c.execute ctx e.payload (d.accept e (c.sealed e.payload))
  match r.2 with
  | .done st res =>
    if st = sBusy then (d.rightsRead e.id (c.sealed e.payload), st, res)
    else (r.1.modSession e.session (fun s => s.update e.counter (fun x => { x with status := st, result := res.limit })), st, res)
  | .pend k =>
    let w : Wait := { kind := k, session := .ofNat 16 e.session, counter := .ofNat 32 e.counter, cmdId := e.id, paths := [e.path] }
    let d := r.1.modSession e.session (fun s => { s with pending := s.pending + 1 })
    ({ d with wcp := { d.wcp with waits := d.wcp.waits ++ [w] } }, sPending, Bytes.nil)

/-- A query executed without its counter (R54). It counts as no accepted command: neither the idle timeout nor the 10 s after the opening
start anew (R52; the model's choice, log entry 136). -/
def Cmd.untracked (c : Cmd) (e : Env) (d : Device) : Device × Nat × Bytes :=
  let ctx : Ctx := { session := e.session, slot := (d.session e.session).slot, counter := e.counter, path := e.path, auth := false }
  let r := c.execute ctx e.payload d
  match r.2 with
  | .done st res => (r.1, st, res)
  | .pend _ => (d, sBadState, Bytes.nil)

/-- A duplicate of a cached counter answered (R56): where it is still pending, completion also goes to this path. -/
def Device.replayPath (d : Device) (e : Env) : Device :=
  { d with wcp := { d.wcp with
    waits := d.wcp.waits.map (fun w =>
      if w.session.val = e.session && w.counter.toNat = e.counter && !w.paths.contains e.path
      then { w with paths := w.paths ++ [e.path] } else w) } }

/-- The tag of an envelope verifies under a key. -/
def Env.tagOk (e : Env) (key : List Nat) : Bool := e.auth && e.tag == tagOf key e.hdr e.payload

/-- Session-less commands (R51, R54); `opens` handles `sys.session.open`. -/
def Cmd.sessionless (c : Cmd) (opens : Env → Device → Device × Bytes) (e : Env) (d : Device) : Device × Bytes :=
  if e.id = 0x0140 then opens e d
  else if !e.auth && (e.id = 0x0100 || e.id = 0x0101) then
    let r := c.untracked e d
    (r.1, response none e.id e.session e.counter r.2.1 0 d.time.ns.toNat r.2.2)
  else (d, response none e.id e.session e.counter sNoSession 0 d.time.ns.toNat Bytes.nil)

/-- The order of checks of R55, and the response; a tag asks for the security engine (R361). -/
def Cmd.handle (c : Cmd) (opens : Env → Device → Device × Bytes) (e : Env) (d : Device) : Device × Bytes :=
  let now := d.time.ns.toNat
  let plain := fun (st : Nat) => response none e.id e.session e.counter st 0 now Bytes.nil
  if e.malformed then (d, plain sBadParam)
  else if e.session = 0xFF then c.sessionless opens e d
  else
    let s := d.session e.session
    let key := keyBytes s.key
    let tagged := fun (st : Nat) => response (some key) e.id e.session e.counter st 0 now Bytes.nil
    if !s.isOpen then (d, plain sNoSession)
    else if !e.auth && isQuery e.id && s.allowUnauth then
      let r := c.untracked e d
      (r.1, response none e.id e.session e.counter r.2.1 0 now r.2.2)
    else
    let d := d.serveOrWait [5]
    if !e.tagOk key then (d, tagged sBadAuth)
    else
      match s.find e.counter with
      | some x =>
        if x.tag.toNat = e.tag then
          (d.replayPath e, response (some key) e.id e.session e.counter sReplayed x.status x.execTime.toNat x.result)
        else (d, tagged sStale)
      | none =>
        if e.counter ≤ s.high.toNat then (d, tagged sStale)
        else if s.pending = 16 || e.tooMany then (d, tagged sBusy)
        else
          let r := c.tracked e d
          (r.1, response (some key) e.id e.session e.counter r.2.1 0 now r.2.2)

/-- A command without extra refusals whose effect is a function of its payload: convenience for queries. -/
def Cmd.query (id : Nat) (form : Bytes → Bool) (content : Device → Bytes → Refuse) (get : Device → Bytes → Bytes) : Cmd :=
  { id, form, content, run := fun _ p d => (d, .ok (get d p)) }

/-- The payload has exactly n bytes. -/
def exactly (n : Nat) (p : Bytes) : Bool := p.len == n

/-- `sys.session.open` is no command of an open session: its own order stands in R51. -/
def noOpen (_ : Env) (d : Device) : Device × Bytes := (d, Bytes.nil)

end Sys2Proof.Machine
end

