-- ==== Sys2Proof/Machine/Flags.lean ====
section
/-! DEFINITION. Status and interrupt flags: the host-port registers (Tables 2-3 to 2-8), the event window (R60), and what
follows every step: events to the window and interrupt causes to HIF_IRQ_STAT. -/

namespace Sys2Proof.Machine

open Sys2Proof

/-- HIF_IRQ_STAT bits (Table 2-6). -/
def irqEvt : Nat := 8
def irqEvtLost : Nat := 9
def irqReady : Nat := 10
def irqSafe : Nat := 11
def irqErr : Nat := 12
def irqRing : Nat := 13

/-- HIF_ERR bits (Table 2-7). -/
def errAbort : Nat := 0
def errBadOp : Nat := 1
def errWrBusy : Nat := 2
def errAlign : Nat := 3
def errBadRd : Nat := 4

/-- What a byte of the windows reads as before anything is written (R43). -/
def winDefault : Byte := 0

/-- A bit of HIF_IRQ_STAT set. -/
def HostPort.irq (h : HostPort) (b : Nat) : HostPort := { h with irqStat := h.irqStat ||| BitVec.ofNat 32 (2 ^ b) }

/-- A bit of HIF_ERR set, with the ERR interrupt. -/
def HostPort.error (h : HostPort) (b : Nat) : HostPort :=
  HostPort.irq { h with err := h.err ||| BitVec.ofNat 32 (2 ^ b) } irqErr

/-- Unread entries of the event window (R60). -/
def HostPort.unread (h : HostPort) : Nat := (h.evtWr.toNat + 256 - h.evtRd.toNat) % 256

/-- One event enters the window (R60): with 128 unread it overwrites entry RD. -/
def HostPort.event (h : HostPort) (e : BitVec 256) : HostPort :=
  let h := if h.unread = 128 then
      HostPort.irq { h with evtRd := h.evtRd + 1, evtLost := if h.evtLost = 0xFFFFFFFF then h.evtLost else h.evtLost + 1 } irqEvtLost
    else h
  HostPort.irq { h with
    mem := Mem.writeN winDefault h.mem (0x9000 + 32 * (h.evtWr.toNat % 128)) 32 e.toNat
    evtWr := h.evtWr + 1 } irqEvt

/-- HIF_NODE (R37). -/
def Device.hifNode (d : Device) : Nat := fields [(7, d.ring.onring.toNat), (6, d.ring.head.toNat), (0, d.ring.node % 32)]

/-- What the host must hear of a step: READY became set, SAFE_N changed, node number, head role or membership changed. -/
def HostPort.changes (h : HostPort) (old new : Device) : HostPort :=
  let h := if new.ready && !old.ready then h.irq irqReady else h
  let h := if new.safeN != old.safeN then h.irq irqSafe else h
  if new.hifNode != old.hifNode then h.irq irqRing else h

/-- SEQ in a black-box record (Table 14-8). -/
def recSeq (r : BitVec 4096) : Nat := fld r 127 96

/-- Committed records go to the mirror queue in commit order, `fuel` at most; while the queue makes the mirror wait they stay in the
log, and INFO counts those it overwrote first (R270). -/
def Device.mirrorOut (d : Device) : Nat → Device
  | 0 => d
  | fuel + 1 =>
    if d.qs.mirrorQ = 0xFFFF || d.log.nextSeq ≤ d.qs.mirrorSeq then d
    else match d.log.recs.find? (fun r => d.qs.mirrorSeq ≤ recSeq r) with
      | none => d
      | some r =>
        let x := d.putStream d.qs.mirrorQ true 0 0x07 512 1 (recSeq r - d.qs.mirrorSeq) (.mk' 512 r.toNat)
        if x.2 = .waits then x.1
        else ({ x.1 with qs := { x.1.qs with mirrorSeq := recSeq r + 1 } } : Device).mirrorOut fuel

/-- The end of a step: full event units close, records are mirrored, raised events enter the window, interrupt causes are set. -/
def State.settle (s : State) (old : Device) : State :=
  let d := (s.dev.closeFull 17).mirrorOut 8
  let h := (d.wcp.out.foldl HostPort.event s.host).changes old d
  { s with
    host := { h with irqStat := h.irqStat ||| d.wcp.irq }
    dev := { d with wcp := { d.wcp with out := [], irq := 0 } } }

/-! Register values (Table 2-3). -/

/-- HIF_FWVER (R37): version and slot of the running general image; 0 in recovery (R382). -/
def Device.fwver (d : Device) : Nat :=
  match d.sec.general with
  | some i => i.version.toNat / 2 * 2 + i.slot
  | none => 0

/-- SAFE of HIF_STATUS: at its reset value 0 until the boot ROM has ended, then whether SAFE_N is asserted (Table 2-5, log entry 137). -/
def Device.safeShown (d : Device) : Bool := d.power.core == .run && d.safeN

/-- HIF_STATUS (Table 2-5) with a life-cycle code. -/
def Device.statusWord (d : Device) (lc : Nat) : Nat :=
  fields [(16, d.openSessions), (8, lc % 16), (6, d.sec.sealed.isSome.toNat), (5, d.ring.onring.toNat),
    (4, d.core.fieldOk.toNat), (3, d.safeShown.toNat), (2, d.sec.switchAt.isSome.toNat), (0, d.ready.toNat)]

/-- The register HIF_STATUS: its LC is a copy of HIF_LC[3:0] (Table 2-5). -/
def Device.hifStatus (d : Device) : Nat := d.statusWord d.sec.lc.v.toNat

/-- A mailbox's code (Table 2-8). -/
def MbState.code : MbState → Nat
  | .free => 0
  | .busy => 1
  | .done => 2

/-- HIF_MB_STATE (Table 2-8). -/
def HostPort.mbState (h : HostPort) : Nat :=
  fields (h.mb.toList.zipIdx.map (fun p => (2 * p.2, p.1.code)))

/-- The word a read of an aligned address returns (Table 2-3); addresses not listed read as zero (R35). -/
def State.hif (s : State) (a : Nat) : Nat :=
  let d := s.dev
  let h := s.host
  if a = 0x0000 then Config.hifId.toNat
  else if a = 0x0004 then Config.uid.toNat % 2 ^ 32
  else if a = 0x0008 then Config.uid.toNat / 2 ^ 32
  else if a = 0x000C then d.fwver
  else if a = 0x0010 then d.sec.lc.v.toNat
  else if a = 0x0014 then d.sec.lc.nv.toNat
  else if a = 0x0018 then d.hifNode
  else if a = 0x0100 then d.hifStatus
  else if a = 0x0104 then h.irqStat.toNat
  else if a = 0x0108 then h.irqEn.toNat
  else if a = 0x010C then h.err.toNat
  else if a = 0x0110 then d.time.ns.toNat % 2 ^ 32
  else if a = 0x0114 then h.timeHi.toNat
  else if a = 0x0208 then h.mbState
  else if a = 0x020C then h.dbRefused.toNat
  else if a = 0x0210 then h.evtWr.toNat
  else if a = 0x0214 then h.evtRd.toNat
  else if a = 0x0218 then h.evtLost.toNat
  else if 0x1000 ≤ a ∧ a < 0xA000 then Mem.readN winDefault h.mem a 4
  else 0

/-- HOST_IRQ_N asserted (R38). -/
def HostPort.irqN (h : HostPort) : Bool := (h.irqStat &&& h.irqEn) != 0

/-! Host writes. -/

/-- Mailbox n changed. -/
def HostPort.setMb (h : HostPort) (n : Nat) (m : MbState) : HostPort := { h with mb := vset h.mb n m }

/-- One doorbell bit (R40, R41). -/
def State.doorbell (s : State) (n : Nat) : State :=
  if s.dev.ready && vget s.host.mb n .busy = .free then { s with host := s.host.setMb n .busy }
  else { s with host := { s.host with dbRefused := s.host.dbRefused ||| BitVec.ofNat 8 (2 ^ n) } }

/-- One release bit (R40, R41): only a DONE mailbox is released. -/
def HostPort.releaseMb (h : HostPort) (n : Nat) : HostPort :=
  if vget h.mb n .free = .done then
    { h.setMb n .free with irqStat := h.irqStat &&& ~~~(BitVec.ofNat 32 (2 ^ n)) }
  else h

/-- A write of HIF_EVT_RD (R60): an index outside the filled part of the window (Table 2-7), an entry already read among them, is ignored
(DEDUCED, log entry 180). -/
def HostPort.writeEvtRd (h : HostPort) (v : Nat) : HostPort :=
  let left := (h.evtWr.toNat + 256 - v % 256) % 256
  if left ≤ h.unread then { h with evtRd := .ofNat 8 v } else h.error errBadRd

/-- A write into a mailbox window (R41): ignored with WR_BUSY while the mailbox is BUSY. -/
def HostPort.writeWindow (h : HostPort) (a : Nat) (v : Word) : HostPort :=
  if vget h.mb (a / 0x1000 - 1) .free = .busy then h.error errWrBusy
  else { h with mem := Mem.writeN winDefault h.mem a 4 v.toNat }

/-- The effect of a written word at an aligned address (Table 2-3); writes to addresses not listed and to RO registers are
ignored (R35, R8). -/
def State.writeAt (s : State) (a : Nat) (v : Word) : State :=
  if a = 0x0104 then { s with host := { s.host with irqStat := s.host.irqStat &&& ~~~v } }
  else if a = 0x0108 then { s with host := { s.host with irqEn := v &&& 0x3FFF } }
  else if a = 0x010C then { s with host := { s.host with err := s.host.err &&& ~~~v } }
  else if a = 0x0200 then (List.range 8).foldl (fun s n => if bit v n then s.doorbell n else s) s
  else if a = 0x0204 then
    { s with host := (List.range 8).foldl (fun h n => if bit v n then h.releaseMb n else h) s.host }
  else if a = 0x020C then { s with host := { s.host with dbRefused := s.host.dbRefused &&& ~~~(v.extractLsb' 0 8) } }
  else if a = 0x0214 then { s with host := s.host.writeEvtRd v.toNat }
  else if 0x1000 ≤ a ∧ a < 0x9000 then { s with host := s.host.writeWindow a v }
  else s

/-- The address after one word of a burst: by 4, wrapping in the 4 KiB-aligned block (R35). -/
def burstNext (a : Nat) : Nat := a / 4096 * 4096 + (a + 4) % 4096

/-- Address bits [1:0] that are not zero set ALIGN (R35). -/
def State.aligned (s : State) (addr : BitVec 16) : State :=
  if addr.toNat % 4 = 0 then s else { s with host := s.host.error errAlign }

/-- The words of a write burst, in the order they are sampled (R36). -/
def State.writeBurst (s : State) (a : Nat) : List Word → State
  | [] => s
  | v :: t => (s.writeAt a v).writeBurst (burstNext a) t

/-- A host write (R33, R35): address bits [1:0] are taken as zero. -/
def State.hostWrite (s : State) (addr : BitVec 16) (ws : List Word) : State :=
  (s.aligned addr).writeBurst (addr.toNat / 4 * 4) ws

/-- A word read whole (R438): a read of HIF_TIME_LO writes the captured high half into HIF_TIME_HI, and an RC field is reduced by the
value returned. -/
def State.readAt (s : State) (a : Nat) : State × Word :=
  (if a = 0x0110 then { s with host := { s.host with timeHi := .ofNat 32 (s.dev.time.ns.toNat / 2 ^ 32) } }
   else if a = 0x0218 then { s with host := { s.host with evtLost := 0 } }
   else s, .ofNat 32 (s.hif a))

/-- The words of a read burst. -/
def State.readBurst (s : State) (a : Nat) : Nat → State × List Word
  | 0 => (s, [])
  | n + 1 =>
    let r := s.readAt a
    let t := r.1.readBurst (burstNext a) n
    (t.1, r.2 :: t.2)

/-- A host read of n words (R33, R35, R438). -/
def State.hostRead (s : State) (addr : BitVec 16) (n : Nat) : State :=
  let r := (s.aligned addr).readBurst (addr.toNat / 4 * 4) n
  { r.1 with host := { r.1.host with lastRead := r.2 } }

/-! The shapes of a step. -/

/-- `dt` cycles pass. -/
def State.elapse (s : State) (dt : Nat) : State := { s with dev := { s.dev with time := s.dev.time.elapse dt } }

/-- A device event: time passes, the effect takes place, the step settles. -/
def devRow (dt : Nat) (f : Device → Device) (s : State) : Host.Outcome State Fault Refusal :=
  let t := s.elapse dt
  .next (State.settle { t with dev := f t.dev } s.dev)

/-- An event of the core side: without effect while the C-die is unpowered or in reset. -/
def coreRow (dt : Nat) (f : Device → Device) (s : State) : Host.Outcome State Fault Refusal :=
  devRow dt (fun d => if d.alive then f d else d) s

/-- An event of the running general firmware (or the boot ROM in recovery). -/
def fwRow (dt : Nat) (f : Device → Device) (s : State) : Host.Outcome State Fault Refusal :=
  devRow dt (fun d => if d.alive && d.ready then f d else d) s

/-- An event of the field die: without effect while its logic does not run. -/
def fieldRow (dt : Nat) (f : Device → Device) (s : State) : Host.Outcome State Fault Refusal :=
  devRow dt (fun d => if d.field.running then f d else d) s

/-- A host-port transaction: without effect while the C-die is in reset or the transaction is ignored (R36). -/
def hostRow (dt : Nat) (f : State → State) (s : State) : Host.Outcome State Fault Refusal :=
  let t := s.elapse dt
  .next (State.settle (if t.dev.alive && !t.host.ignoring then f t else t) s.dev)

/-- The envelope at an origin: in a BUSY mailbox's window, or the oldest unit of Q0 (R39, R44). -/
def State.envelope (s : State) (o : Origin) : Option Env :=
  match o with
  | .mailbox n =>
    if vget s.host.mb n.val .free = .busy then
      let a := 0x1000 + 0x1000 * n.val
      let h := Mem.readN winDefault s.host.mem a 32
      let len := min 4064 (nfld h 79 64)
      some ⟨h, ⟨len, Mem.readN winDefault s.host.mem (a + 32) len⟩, .spi, false⟩
    else none
  | .q0 =>
    match (s.dev.queue 0).units.head? with
    | none => none
    | some u =>
      let msg := u.data
      let len := min (msg.bits 15 0) (msg.len - 8)
      some ⟨(msg.slice 8 32).val, msg.slice 40 (len - 32), .ring (msg.bits 28 24) (msg.bits 45 32), u.tooMany⟩

/-- A mailbox's response written: header, result, zeros beyond (R39); the mailbox is DONE and MB_DONE is set (R40). -/
def HostPort.respond (h : HostPort) (n : Nat) (r : Bytes) : HostPort :=
  let a := 0x1000 + 0x1000 * n
  HostPort.irq ({ h with mem := Mem.writeN winDefault (Mem.clear h.mem a 0x1000) a r.len r.val }.setMb n .done) n

/-- The response delivered to its origin; a Q0 command's unit is released and its response goes to REPLY_Q (R44). -/
def State.deliver (s : State) (o : Origin) (path : Path) (r : Bytes) : State :=
  match o, path with
  | .mailbox n, _ => { s with host := s.host.respond n.val r }
  | .q0, .ring node queue =>
    match (s.dev.queue 0).units.head? with
    | some u => { s with dev := (s.dev.take 0 33 u.useq).reply node queue r (!u.tooMany) }
    | none => { s with dev := s.dev.reply node queue r true }
  | .q0, .spi => s

/-- Whether commands are served: READY, no general switchover in progress (R41, R42), and shutdown-imminent not asserted (log entry
87). -/
def Device.serves (d : Device) : Bool := d.alive && d.ready && d.sec.switchAt.isNone && d.power.shut.isNone

/-- A WCP command row: the envelope at the origin, where it carries this command, is checked, executed and answered; `then_` is what
follows the response, from the device before the command and after it. Without such an envelope, or while commands wait, only time
passes (log entry 6). -/
def wcpRowThen (dt : Nat) (o : Origin) (c : Cmd) (opens : Env → Device → Device × Bytes) (then_ : Device → Device → Device)
    (s : State) : Host.Outcome State Fault Refusal :=
  let t := s.elapse dt
  .next (State.settle
    (match (if t.dev.serves then t.envelope o else none) with
     | none => t
     | some e =>
       if e.id = c.id then
         let r := c.handle opens e t.dev
         let u := State.deliver { t with dev := r.1 } o e.path r.2
         { u with dev := then_ t.dev u.dev }
       else t) s.dev)

/-- A WCP command row of a command with which the response ends. -/
def wcpRow (dt : Nat) (o : Origin) (c : Cmd) (opens : Env → Device → Device × Bytes) (s : State) : Host.Outcome State Fault Refusal :=
  wcpRowThen dt o c opens (fun _ d => d) s

end Sys2Proof.Machine
end

