-- ==== Sys2Proof/Machine/FnOps.lean ====
section
/-! DEFINITION. Restartable functions: requests by state (Table 1-6), fault stops (R22) and the state word (Table 1-7). -/

namespace Sys2Proof.Machine

open Sys2Proof

/-- The code of a state (Table 1-7). -/
def FnState.code : FnState → Nat
  | .off => 0
  | .starting => 1
  | .on => 2
  | .stopping => 3

/-- REMAIN: what is left of STOPPING and of the minimum off time, in 100 us, rounded up (R23). -/
def Fn.remain (f : Fn) (now minOff : Nat) : Nat :=
  let left := match f.st with
    | .stopping => (f.stopBy - now) + minOff
    | .off => f.offUntil - now
    | _ => 0
  sat 0xFFFF (ceilDiv left (100 * us))

/-- The function state word (Table 1-7). -/
def Fn.word (f : Fn) (now minOff : Nat) : Nat :=
  fields [(4, f.remain now minOff), (3, f.faultStop.toNat), (2, f.restart.toNat), (0, f.st.code)]

/-- The answer of an enable or disable by state. -/
inductive FnAct
  /-- Nothing more happens: the status. -/
  | answer (st : Nat)
  /-- The start begins now. -/
  | start
  /-- The stop begins now. -/
  | stop
  /-- A start waits for the minimum off time: S_PENDING until ON. -/
  | waitOn
  /-- A stop waits for the start: S_PENDING until OFF. -/
  | waitOff
  /-- A waiting start is withdrawn: its enables complete S_BAD_STATE. -/
  | withdrawn
deriving DecidableEq, Repr

/-- An enable request (Table 1-6). -/
def Fn.enable (f : Fn) (now : Nat) : Fn × FnAct :=
  match f.st with
  | .off => if now < f.offUntil then ({ f with restart := true }, .waitOn) else ({ f with st := .starting, restart := false }, .start)
  | .starting => if f.stopPending then ({ f with restart := true }, .answer sRestartPending) else (f, .answer sOk)
  | .on => (f, .answer sOk)
  | .stopping => ({ f with restart := true }, .answer sRestartPending)

/-- A disable request (Table 1-6). -/
def Fn.disable (f : Fn) : Fn × FnAct :=
  match f.st with
  | .off => if f.restart then ({ f with restart := false }, .withdrawn) else (f, .answer sOk)
  | .starting => if f.stopPending then ({ f with restart := false }, .answer sOk) else ({ f with stopPending := true }, .waitOff)
  | .on => ({ f with st := .stopping }, .stop)
  | .stopping => ({ f with restart := false }, .answer sOk)

/-- The function an identifier names. -/
def Device.getFn (d : Device) : FnId → Fn
  | .fire => d.fire.fn
  | .hexport => d.hist.exp
  | .port p => (vget d.ring.ports (portNo p) {}).fn
  | .queue n => (d.queue n.val).fn
  | .cam n => (vget d.cams.ports n.val {}).fn
  | .adc n => (vget d.field.convs n.val {}).fn
  | .seq n => (vget d.field.seqs n.val {}).fn
  | .exc => d.field.exc
  | .output n => (vget d.field.outs n.val {}).fn

/-- The field die changed. -/
def Device.modField (d : Device) (f : Field → Field) : Device := { d with field := f d.field }

/-- A function written. -/
def Device.putFn (d : Device) (i : FnId) (f : Fn) : Device :=
  match i with
  | .fire => { d with fire := { d.fire with fn := f } }
  | .hexport => { d with hist := { d.hist with exp := f } }
  | .port p => d.modPort (portNo p) (fun x => { x with fn := f })
  | .queue n => d.modQ n.val (fun q => { q with fn := f })
  | .cam n => { d with cams := { d.cams with ports := vmod d.cams.ports n.val (fun x => { x with fn := f }) } }
  | .adc n => d.modField (fun x => { x with convs := vmod x.convs n.val (fun c => { c with fn := f }) })
  | .seq n => d.modField (fun x => { x with seqs := vmod x.seqs n.val (fun c => { c with fn := f }) })
  | .exc => d.modField (fun x => { x with exc := f })
  | .output n => d.modField (fun x => { x with outs := vmod x.outs n.val (fun c => { c with fn := f }) })

/-- A function changed. -/
def Device.modFn (d : Device) (i : FnId) (f : Fn → Fn) : Device := d.putFn i (f (d.getFn i))

/-- The function reaches ON: FAULT_STOP is cleared and its waiting enables complete; a start that waits behind a pending disable keeps
waiting (Table 1-6). -/
def Device.reachOn (d : Device) (i : FnId) : Device :=
  (d.modFn i (fun f => { f with st := .on, faultStop := false, restart := f.restart && f.stopPending })).complete (.fnOn i) sOk Bytes.nil

/-- The function reaches OFF: the minimum off time runs, its waiting disables complete S_OK, and enables that waited for ON
complete S_HW_FAULT after a fault stop (R22). -/
def Device.reachOff (d : Device) (i : FnId) (minOff : Nat) : Device :=
  let fault := (d.getFn i).faultStop
  let d := d.modFn i (fun f => { f with st := .off, stopPending := false, offUntil := d.now + minOff })
  let d := d.complete (.fnOff i) sOk Bytes.nil
  if fault then d.complete (.fnOn i) sHwFault Bytes.nil else d

/-- STOPPING begins, ending within `len`. -/
def Device.beginStop (d : Device) (i : FnId) (len : Nat) : Device :=
  d.modFn i (fun f => { f with st := .stopping, stopPending := false, stopBy := d.now + len })

/-- A fault stop (R22): STOPPING begins, RESTART_PENDING is cleared and FAULT_STOP set; without effect in OFF and STOPPING but
for the start it withdraws. -/
def Device.faultStop (d : Device) (i : FnId) (len : Nat) : Device :=
  match (d.getFn i).st with
  | .off =>
    if (d.getFn i).restart then
      (d.modFn i (fun f => { f with restart := false })).complete (.fnOn i) sHwFault Bytes.nil
    else d
  | .stopping => d.modFn i (fun f => { f with restart := false, faultStop := true })
  | _ => (d.beginStop i len).modFn i (fun f => { f with restart := false, faultStop := true })

/-- An enable executed: `start` begins the start; `slow` says that it is answered S_PENDING until ON. -/
def Device.enableFn (d : Device) (i : FnId) (slow : Bool) (start : Device → Device) : Device × Answer :=
  let r := (d.getFn i).enable d.now
  let d := d.putFn i r.1
  match r.2 with
  | .answer st => (d, .no st)
  | .start => (start d, if slow then .pend (.fnOn i) else .no sOk)
  | .waitOn => (d, .pend (.fnOn i))
  | _ => (d, .no sOk)

/-- A disable executed: `stop` begins the stop; `slow` says that it is answered S_PENDING until OFF. -/
def Device.disableFn (d : Device) (i : FnId) (slow : Bool) (stop : Device → Device) : Device × Answer :=
  let r := (d.getFn i).disable
  let d := d.putFn i r.1
  match r.2 with
  | .answer st => (d, .no st)
  | .stop => (stop d, if slow then .pend (.fnOff i) else .no sOk)
  | .waitOff => (d, .pend (.fnOff i))
  | .withdrawn => (d.complete (.fnOn i) sBadState Bytes.nil, .no sOk)
  | _ => (d, .no sOk)

/-- A waiting start may begin: RESTART_PENDING in OFF with the minimum off time past. -/
def Fn.restartDue (f : Fn) (now : Nat) : Bool := f.st == .off && f.restart && f.offUntil ≤ now

end Sys2Proof.Machine
end

