-- ==== Sys2Proof/Machine/HostPort.lean ====
section
/-! DEFINITION. The commands of the SPI host port (R32-R43, R60, R438). -/

namespace Sys2Proof.Machine

open Sys2Proof

/-- HIF_DB written: each set bit rings a doorbell (R40, R41). -/
def execHifDbWrite (dt : Nat) (v : Word) (s : State) : Host.Outcome State Fault Refusal :=
  hostRow dt (fun t => t.hostWrite 0x0200 [v]) s

/-- HIF_MB_REL written: each set bit releases a DONE mailbox (R40, R41). -/
def execHifMbRelWrite (dt : Nat) (v : Word) (s : State) : Host.Outcome State Fault Refusal :=
  hostRow dt (fun t => t.hostWrite 0x0204 [v]) s

/-- HIF_EVT_RD written (R60). -/
def execHifEvtRdWrite (dt : Nat) (v : Word) (s : State) : Host.Outcome State Fault Refusal :=
  hostRow dt (fun t => t.hostWrite 0x0214 [v]) s

/-- Opcodes of Table 2-1. -/
def readCode : ReadOp → Byte
  | .read => 0x03
  | .qread => 0x6B
def writeCode : WriteOp → Byte
  | .write => 0x02
  | .qwrite => 0x32

/-- A transaction of Table 2-1 (R33): its opcode byte, then its address and words; an unknown opcode sets BAD_OP and the transaction is
ignored until HOST_CS_N is released (R36). -/
def State.transaction (s : State) (opcode : Byte) (addr : BitVec 16) (ws : List Word) : State :=
  if opcode = 0x03 ∨ opcode = 0x6B then s.hostRead addr ws.length
  else if opcode = 0x02 ∨ opcode = 0x32 then s.hostWrite addr ws
  else { s with host := { s.host.error errBadOp with ignoring := true } }

/-- A read transaction that clocks out n whole words, HIF_TIME_LO among them (R438, log entry 134). -/
def execHifTimeLoRead (dt : Nat) (op : ReadOp) (addr : BitVec 16) (n : Nat) (s : State) : Host.Outcome State Fault Refusal :=
  hostRow dt (fun t => t.transaction (readCode op) addr (List.replicate n 0)) s

/-- A read transaction that clocks out n whole words, HIF_EVT_LOST among them (R438, log entry 134). -/
def execHifEvtLostRead (dt : Nat) (op : ReadOp) (addr : BitVec 16) (n : Nat) (s : State) : Host.Outcome State Fault Refusal :=
  hostRow dt (fun t => t.transaction (readCode op) addr (List.replicate n 0)) s

/-- Words written into a mailbox window (R41). -/
def execMbWindowWrite (dt : Nat) (op : WriteOp) (addr : BitVec 16) (ws : List Word) (s : State) : Host.Outcome State Fault Refusal :=
  hostRow dt (fun t => t.transaction (writeCode op) addr ws) s

/-- Words written from any register address on (R8, R35). -/
def execRegisterWrite (dt : Nat) (op : WriteOp) (addr : BitVec 16) (ws : List Word) (s : State) : Host.Outcome State Fault Refusal :=
  hostRow dt (fun t => t.transaction (writeCode op) addr ws) s

/-- HOST_CS_N released (R36, R438): a cut written word sets ABORT, a cut read word nothing; an ignored transaction ends. -/
def HostPort.csRelease (h : HostPort) (cut : CutWord) : HostPort :=
  let h' : HostPort := if cut = .write && !h.ignoring then h.error errAbort else h
  { h' with ignoring := false }

/-- HOST_CS_N release (R36). -/
def execHostCsNRelease (dt : Nat) (cut : CutWord) (s : State) : Host.Outcome State Fault Refusal :=
  let t := s.elapse dt
  .next (State.settle (if t.dev.alive then { t with host := t.host.csRelease cut } else t) s.dev)

/-- Opcodes of Table 2-1. -/
def knownOpcode (o : Byte) : Bool := o == 0x02 || o == 0x03 || o == 0x32 || o == 0x6B

/-- An opcode byte: an unknown one sets BAD_OP and the transaction is ignored until HOST_CS_N is released (R36). -/
def execBadOp (dt : Nat) (opcode : Byte) (s : State) : Host.Outcome State Fault Refusal :=
  hostRow dt (fun t => if knownOpcode opcode then t else t.transaction opcode 0 []) s

/-! Ring responses (R45, R46). -/

/-- A reply has been delivered, or discarded and counted: it is no longer in flight (R45), and what follows its delivery follows. -/
def Device.replyGone (d : Device) (r : Reply) (rest : List Reply) (lost : Nat) : Device :=
  let d : Device := { d with wcp := { d.wcp with
    replies := rest, discarded := d.wcp.discarded + lost, inFlight := d.wcp.inFlight - r.first.toNat } }
  let d := r.closes.foldl (fun d n => if (d.session n).openedAt ≤ r.since then d.closeSession n 0 else d) d
  match r.resets with
  | some .standby => { d with power := { d.power with standbyAt := some (d.now + ms) } }
  | some c => d.scheduleReset ms c
  | none => d

/-- A reply that was refused is tried again every 1 ms, for up to 100 ms from its first refusal (R46). -/
def Device.replyAgain (d : Device) (r : Reply) (rest : List Reply) : Device :=
  if r.since + 100 * ms ≤ d.now then d.replyGone r rest 1
  else { d with wcp := { d.wcp with replies := rest ++ [{ r with nextTry := d.now + ms }] } }

/-- The fate of the first reply waiting: delivered by its queue in another node, at whatever instant, or tried again every 1 ms for up to
100 ms (R46). -/
def Device.retryReply (d : Device) (accepted : Bool) : Device :=
  match d.wcp.replies with
  | [] => d
  | r :: rest =>
    if r.node ≠ d.ring.node && accepted then d.replyGone r rest 0
    else if d.now < r.nextTry then d
    else if r.node ≠ d.ring.node && r.since + 100 * ms ≤ d.now then d.replyGone r rest 1
    else
      let t := d.sendMsg r.node r.queue r.msg
      if r.node = d.ring.node && t.2 then t.1.replyGone r rest 0 else t.1.replyAgain r rest

/-- RESPONSE_RETRY (R46). -/
def execResponseRetry (dt : Nat) (accepted : Bool) (s : State) : Host.Outcome State Fault Refusal :=
  fwRow dt (fun d => d.retryReply accepted) s

end Sys2Proof.Machine
end

