-- ==== Sys2Proof/Machine/System.lean ====
section
/-! DEFINITION. Sessions and the system commands (R51, R52, R65-R67). -/

namespace Sys2Proof.Machine

open Sys2Proof

/-- The idle timeout of a session has passed with no command pending (R52). -/
def Device.idleTimeout (d : Device) (n : Nat) : Device :=
  let s := d.session n
  if s.isOpen && s.idle != 0 && s.pending == 0 && decide (s.lastActive + s.idle * second ≤ d.now) then d.closeSession n 1 else d

/-- SESSION_IDLE_TIMEOUT (R52). -/
def execSessionIdleTimeout (dt : Nat) (n : Fin 16) (s : State) : Host.Outcome State Fault Refusal :=
  fwRow dt (fun d => d.idleTimeout n.val) s

/-- No command within 10 s of the opening (R52). -/
def Device.openTimeout (d : Device) (n : Nat) : Device :=
  let s := d.session n
  if s.isOpen && !s.accepted && decide (s.openedAt + 10 * second ≤ d.now) then d.closeSession n 2 else d

/-- SESSION_OPEN_TIMEOUT (R52). -/
def execSessionOpenTimeout (dt : Nat) (n : Fin 16) (s : State) : Host.Outcome State Fault Refusal :=
  fwRow dt (fun d => d.openTimeout n.val) s

/-- The boot record copy in use (R381): the higher write count among the copies whose CRC matches. -/
def BootRec.image (b : BootRec) : Nat :=
  fields ((b.active.toList.zipIdx.map (fun p => (p.2, p.1))) ++ (b.prev.toList.zipIdx.map (fun p => (2 + p.2, p.1))) ++
    (b.trial.toList.zipIdx.map (fun p => (4 + p.2, p.1.toNat))) ++ (b.versions.toList.zipIdx.map (fun p => (32 + 32 * p.2, p.1.toNat))))

/-- CRC-32 of a boot record copy: over its write count and contents, in the model's own layout (log entry 41). -/
def BootCopy.sum (c : BootCopy) : Nat := Crypto.crc32 24 (c.count.toNat + c.rec_.image * 2 ^ 32)

def BootCopy.good (c : BootCopy) : Bool := c.crc.toNat == c.sum

/-- The boot record in use; none where neither copy matches (R381). -/
def Sec.bootRec (s : Sec) : Option BootRec :=
  let a := vget s.boot 0 {}
  let b := vget s.boot 1 {}
  if a.good then (if b.good && a.count.toNat < b.count.toNat then some b.rec_ else some a.rec_)
  else if b.good then some b.rec_ else none

/-- A slot of a component: VERSION entries of the boot record, two slots per component. -/
def BootRec.version (b : BootRec) (comp slot : Nat) : Nat := (vget b.versions (2 * comp + slot) 0).toNat

/-- Version and slot in HIF_FWVER format. -/
def fwverOf (version slot : Nat) : Nat := version / 2 * 2 + slot

/-- FW_INACTIVE (R67): 0 while the inactive general slot holds no verified image. -/
def Device.fwInactive (d : Device) : Nat :=
  match d.sec.bootRec with
  | none => 0
  | some b =>
    let slot := 1 - (match d.sec.general with
      | some i => i.slot
      | none => vget b.active 0 0)
    if b.version 0 slot = 0 then 0 else fwverOf (b.version 0 slot) slot

/-- `sys.status.get`: HIF_STATUS, boot count, device time. -/
def cmdStatus : Cmd :=
  { id := 0x0101, form := exactly 0
    run := fun _ _ d => ((d.counterRead cBoot).lcUsed,
      answerPair (d.counterOk cBoot && d.sec.lc.ok) ((words [d.statusWord d.lc, d.counter cBoot]).app (w64 d.time.ns.toNat))) }

/-- SYS_STATUS_GET (R65). -/
def execSysStatusGet (dt : Nat) (o : Origin) (s : State) : Host.Outcome State Fault Refusal := wcpRow dt o cmdStatus noOpen s

/-- H, pending count, 16 cached counters with their statuses in rising order (zero where unused), discarded responses. -/
def Session.report (s : Session) (discarded : Nat) : Bytes :=
  let es := s.cache.reverse.map (fun e => words [e.counter.toNat, e.status])
  Bytes.cat ([words [s.high.toNat, s.pending]] ++ es ++ List.replicate (16 - es.length) (words [0, 0]) ++ [w32 discarded])

/-- `sys.session.status`. -/
def cmdSessionStatus : Cmd :=
  { id := 0x0102, form := exactly 0, run := fun c _ d => (d, .ok ((d.session c.session).report d.wcp.discarded)) }

/-- SYS_SESSION_STATUS (R65). -/
def execSysSessionStatus (dt : Nat) (o : Origin) (s : State) : Host.Outcome State Fault Refusal :=
  wcpRow dt o cmdSessionStatus noOpen s

/-- `sys.result.get`: the cached response header and the result from the offset. -/
def Device.resultGet (d : Device) (session counter offset : Nat) : Answer :=
  let s := d.session session
  match s.find counter with
  | none => .no sBadParam
  | some x =>
    if x.result.len < offset then .no sBadParam
    else
      let r := response (some (keyBytes s.key)) x.cmdId session counter x.status 0 x.execTime.toNat x.result
      .ok ((r.slice 0 32).app (x.result.slice offset (min 4032 (x.result.len - offset))))

/-- The command of Table 2-16. -/
def cmdResultGet : Cmd :=
  { id := 0x0103, form := exactly 8, run := fun c p d => (d, d.resultGet c.session (p.word 0) (p.word 1)) }

/-- SYS_RESULT_GET (R58). -/
def execSysResultGet (dt : Nat) (o : Origin) (s : State) : Host.Outcome State Fault Refusal := wcpRow dt o cmdResultGet noOpen s

/-- The lowest free session number. -/
def Device.freeSession (d : Device) : Option Nat := (List.range 16).find? (fun n => !(d.session n).isOpen)

/-- The form of the payload of `sys.session.open` (R51, step 1). -/
def openForm (e : Env) : Bool :=
  e.plen == 32 && e.counter == 0 && nfld e.payload.val 15 9 == 0 && nfld e.payload.val 127 32 == 0

/-- The session opened (R51, step 5). -/
def Device.openSession (d : Device) (e : Env) (n slot : Nat) (k : KeyCopy) : Device × Bytes :=
  let d := d.counterRead cBoot
  let p := e.payload
  let nd := (Config.nonce d.wcp.draws).toNat
  let key := Crypto.sessionKey (keyBytes k.value) (Crypto.bytesOf (p.slice 16 16)) (Crypto.bytesOfNat 16 nd) uidBytes n
  let s : Session :=
    { isOpen := true, slot, key := .ofNat 256 (Crypto.toNat key), allowUnauth := nbit p.val 8, idle := nfld p.val 31 16,
      openedAt := d.now, lastActive := d.now }
  let res := (words [n, d.counter cBoot]).app (.mk' 16 nd)
  ({ (d.modSession n (fun _ => s)) with wcp := { (d.modSession n (fun _ => s)).wcp with draws := d.wcp.draws + 1 } },
   response (some key) e.id e.session e.counter sOk 0 d.time.ns.toNat res)

/-- `sys.session.open` in the order of R51; the slot's use depends on the life-cycle state (R375), and the tag asks for the security engine
(R361). -/
def Device.sessionOpen (e : Env) (d : Device) : Device × Bytes :=
  let d := if openForm e then d.lcUsed.serveOrWait [5] else d
  let no := fun (st : Nat) => (d, response none e.id e.session e.counter st 0 d.time.ns.toNat Bytes.nil)
  let slot := e.payload.byte 0
  if !openForm e then no sBadParam
  else if 15 < slot || !d.slotOpens slot then no sBadParam
  else match d.keyCopy slot with
  | none => no sBadParam
  | some k =>
    if !e.tagOk (keyBytes k.2.value) then no sBadAuth
    else match d.freeSession with
    | none => no sNoResource
    | some n => d.openSession e n slot k.2

/-- `sys.session.open` within the order of R55, which it never reaches. -/
def cmdSessionOpen : Cmd := { id := 0x0140, run := fun _ _ d => (d, .no sBadParam) }

/-- SYS_SESSION_OPEN (R51). -/
def execSysSessionOpen (dt : Nat) (o : Origin) (s : State) : Host.Outcome State Fault Refusal :=
  wcpRow dt o cmdSessionOpen Device.sessionOpen s

/-- `sys.session.close`; with pending commands S_BAD_STATE (R52). -/
def cmdSessionClose : Cmd :=
  { id := 0x0141, form := exactly 0
    run := fun c _ d => if (d.session c.session).pending != 0 then (d, .no sBadState) else (d.closeSession c.session 0, .no sOk) }

/-- SYS_SESSION_CLOSE (R52). -/
def execSysSessionClose (dt : Nat) (o : Origin) (s : State) : Host.Outcome State Fault Refusal :=
  wcpRow dt o cmdSessionClose noOpen s

/-- `sys.policy.set`: ALLOW_UNAUTH_QUERY and the idle timeout of the calling session. -/
def cmdPolicySet : Cmd :=
  { id := 0x0142, form := exactly 8
    content := fun _ p => refuse (1 < p.word 0 || 65535 < p.word 1) sBadParam
    run := fun c p d => (d.modSession c.session (fun s => { s with allowUnauth := p.word 0 == 1, idle := p.word 1 }), .no sOk) }

/-- SYS_POLICY_SET (R65). -/
def execSysPolicySet (dt : Nat) (o : Origin) (s : State) : Host.Outcome State Fault Refusal := wcpRow dt o cmdPolicySet noOpen s

/-- `sys.event.mask.set`: the mask of one owner range of Table 2-15. -/
def cmdEventMaskSet : Cmd :=
  { id := 0x0143, form := exactly 33
    content := fun _ p => refuse (outside (p.byte 0) 1 15) sBadParam
    run := fun _ p d =>
      ({ d with wcp := { d.wcp with masks := vset d.wcp.masks (p.byte 0) (.ofNat 256 (p.val / 256)) } }, .no sOk) }

/-- SYS_EVENT_MASK_SET (R61). -/
def execSysEventMaskSet (dt : Nat) (o : Origin) (s : State) : Host.Outcome State Fault Refusal :=
  wcpRow dt o cmdEventMaskSet noOpen s

/-- The last response waiting carries what follows its delivery. -/
def Device.afterReply (d : Device) (cause : Cause) : Device := d.modLastReply (fun r => { r with resets := some cause })

/-- Where the response of a command that resets the device waits for its REPLY_Q, the 1 ms count from its delivery (R65, R376; from its
discard where it is never delivered, log entry 135). -/
def Device.resetAfterReply (old new : Device) : Device :=
  match old.wcp.resetAt, new.wcp.resetAt with
  | none, some (_, cause) => 
    if old.replyWaits new then { new.afterReply cause with wcp := { (new.afterReply cause).wcp with resetAt := none } } else new
  | _, _ => new

/-- `sys.reset`. -/
def cmdReset : Cmd := { id := 0x0144, form := exactly 0, run := fun _ _ d => (d.scheduleReset ms .commanded, .no sOk) }

/-- SYS_RESET (R65). -/
def execSysReset (dt : Nat) (o : Origin) (s : State) : Host.Outcome State Fault Refusal :=
  wcpRowThen dt o cmdReset noOpen Device.resetAfterReply s

/-- EVENT_REPORT_WINDOW_END: the gathered happenings of a rate-limited event are reported (R257). -/
def execEventReportWindowEnd (dt : Nat) (ev source : BitVec 16) (sub : Nat) (s : State) : Host.Outcome State Fault Refusal :=
  coreRow dt (fun d => d.windowEnd ev.toNat source.toNat sub) s

/-- A command whose identifier the manual does not define: S_BAD_PARAM, consumed and cached (R57). -/
def cmdUndefined (id : Nat) : Cmd := { id, form := fun _ => false, run := fun _ _ d => (d, .no sBadParam) }

/-- UNDEFINED_COMMAND_ID (R57). -/
def execUndefinedCommandId (dt : Nat) (o : Origin) (s : State) : Host.Outcome State Fault Refusal :=
  let id := ((s.elapse dt).envelope o).map Env.id
  match id with
  | some i => if definedIds.contains i then devRow dt (fun d => d) s else wcpRow dt o (cmdUndefined i) noOpen s
  | none => devRow dt (fun d => d) s

end Sys2Proof.Machine
end

