-- ==== Sys2Proof/Machine/Seal.lean ====
section
/-! DEFINITION. Sealed parameters: their committed values, the sealed identification digest and the record of a sealed
change (R383-R387). -/

namespace Sys2Proof.Machine

open Sys2Proof

/-- The copy of the field block its pointer selects (R292). -/
def Field.liveBlock (f : Field) : Pair 11392 := vget f.blocks (f.blockPtr.v.toNat % 2) ⟨0, 0⟩

/-- Number of rules of an aspect rule table (R302). -/
def nrules (t : BitVec 4160) : Nat := min 64 (fld t 42 36)

/-- The committed value V of a sealed parameter by its order of Table 13-7. -/
def Device.sealedValue (d : Device) (order : Nat) : Bytes :=
  if order = 1 then .mk' 32 d.fire.budget.v.toNat
  else if order = 2 then .mk' 2304 d.rx.lens.v.toNat
  else if order = 3 then .cat (d.ret.zmaps.toList.map (fun z => Bytes.mk' 1040 z.v.toNat))
  else if order = 4 then .mk' 1424 d.field.liveBlock.v.toNat
  else if order = 5 then .mk' (8 + 8 * nrules d.core.rules.v) d.core.rules.v.toNat
  else if order = 6 then .mk' 8 d.bist.cfg.v.toNat
  else .cat (d.sec.resv.toList.map (fun r => Bytes.mk' 16 r.v.toNat))

/-- The digest of a parameter as its last sealed-change record names it; before the first record that of its default (R386). -/
def paramDigest (ds : Vector (BitVec 256) 7) (i : Nat) : BitVec 256 :=
  if vget ds i 0 = 0 then Crypto.shaBits (Device.sealedValue {} (i + 1)) else vget ds i 0

/-- The sealed identification digest over an image's DIGEST (R387), with the committed values that have been recorded (R386, step 3). -/
def sealedDigest (ds : Vector (BitVec 256) 7) (image : BitVec 256) : BitVec 256 :=
  Crypto.shaBits (.cat (Bytes.mk' 32 image.toNat :: (List.range 7).map (fun i => Bytes.mk' 32 (paramDigest ds i).toNat)))

/-- The sealed component SEALED_VER and the digest describe (R67): the running one, or during a sealed switchover the last. -/
def Device.sealedShown (d : Device) : Option Image :=
  match d.sec.sealed with
  | some i => some i
  | none => if d.sealedSwitching then d.sec.sealedLast else none

/-- The digest over given parameter digests: zero while no sealed component runs. -/
def Device.digestWith (d : Device) (ds : Vector (BitVec 256) 7) : Nat :=
  (d.sealedShown.map (fun i => (sealedDigest ds i.digest).toNat)).getD 0

/-- The digest shown. -/
def Device.digestShown (d : Device) : Nat := d.digestWith d.sec.digests

/-- First 128 bits of the digest of a value. -/
def digest128 (b : Bytes) : Nat := (Crypto.shaBits b).toNat % 2 ^ 128

/-- E_SEAL_CHANGE (Table 13-10): an entry's PAYLOAD is its bits [255:144] (Table 2-14); what Table 13-10 places below them gives way and
stands in the record (log entry 42). -/
def sealPayload (count digest : Nat) : Nat := (count * 2 ^ 224 + digest % 2 ^ 128 * 2 ^ 96) / 2 ^ 144 * 2 ^ 144

/-- The parameter digests of the safe defaults. -/
def defaultDigests : Vector (BitVec 256) 7 := Vector.ofFn (fun i => Crypto.shaBits (Device.sealedValue {} (i.val + 1)))

/-- The parameter digests a sealed change names. -/
def SealPart.digests (x : SealPart) (ds : Vector (BitVec 256) 7) : Vector (BitVec 256) 7 :=
  if x.source = 10 then defaultDigests else if x.source ≤ 7 then vset ds (x.source - 1) x.new else ds

/-- The payload of a sealed change's record (R386): the event's entry, the seal counter, which has been incremented, command, slot and
copy, parameter's order, old and new value's digest, the new SEALED_DIGEST, RECOVERED. -/
def Device.sealBytes (d : Device) (x : SealPart) : Bytes :=
  let digest := d.digestWith (x.digests d.sec.digests)
  Bytes.cat [.mk' 32 (d.entry 0x0D01 x.source (sealPayload (d.counter cSeal) digest)).toNat,
    words [d.counter cSeal, x.cmdId, x.slot, x.copy, x.source], .mk' 16 x.old.toNat, .mk' 16 x.new.toNat, .mk' 16 digest,
    w32 x.recovered.toNat]

/-- A sealed change goes on (R385, R386): once its record is written it is counted, and once that is committed the event is raised and the
identifiers change. `source` is the parameter's order, 8 for the sealed component, 9 for a key slot, 10 for the RETURN reset. -/
def Device.sealRecord (d : Device) (x : SealPart) : Device :=
  d.queueRec { kind := 0x000D, source := x.source, severity := sevSafety, payload := Bytes.nil, time := d.time.ns, tick := d.tick, late := false
               change := some x }

/-- A sealed parameter has been written by a command: `old` is its former value's digest (R386). -/
def Device.sealChange (d : Device) (c : Ctx) (cmdId order old : Nat) : Device :=
  d.sealRecord { source := order, cmdId, slot := c.slot, copy := ((d.keyCopy c.slot).map (fun p => p.1)).getD 0, old := .ofNat 128 old
                 new := Crypto.shaBits (d.sealedValue order), recovered := false }

/-- PENDING_EFFECT of a parameter (R386). -/
def Device.pendingEffect (d : Device) (order : Nat) (v : Bool) : Device :=
  { d with sec := { d.sec with pendingEffect := setBit d.sec.pendingEffect (order - 1) v } }

/-- A sealed parameter's pairs are consistent. -/
def Device.paramOk (d : Device) (order : Nat) : Bool :=
  if order = 1 then d.fire.budget.ok
  else if order = 2 then d.rx.lens.ok
  else if order = 3 then d.ret.zmaps.toList.all (fun z => z.ok)
  else if order = 4 then d.field.liveBlock.ok
  else if order = 5 then d.core.rules.ok
  else if order = 6 then d.bist.cfg.ok
  else d.sec.resv.toList.all (fun r => r.ok)

/-- A sealed change of a parameter is on its way into the black box. -/
def Log.sealing? (l : Log) (order : Nat) : Bool :=
  (l.pend.filterMap (fun p => p.change) ++ l.sealing.toList).any (fun x => x.source == order || x.source == 10)

/-- The comparison of every boot (R386): a consistent value other than its last sealed-change record names, or with no record yet other
than its default, is recorded and counted, marked RECOVERED. -/
def Device.recoverParam (d : Device) (order : Nat) : Device :=
  let last := (paramDigest d.sec.digests (order - 1)).toNat % 2 ^ 128
  let new := Crypto.shaBits (d.sealedValue order)
  if !d.paramOk order || new.toNat % 2 ^ 128 == last || d.log.sealing? order then d
  else d.sealRecord { source := order, cmdId := 0, slot := 0, copy := 0, old := .ofNat 128 last, new, recovered := true }

/-- The identification of Table 2-17: of values held as pairs, those in force (R352). -/
def Device.ident (d : Device) : Bytes :=
  .mk' 64 (fields [
    (320, d.digestShown % 2 ^ 128), (288, d.counter cSeal),
    (256, (d.sealedShown.map (fun i => i.version.toNat)).getD 0), (224, d.fwInactive), (192, d.fwver),
    (160, 2 ^ 32 - 1 - d.lc), (128, d.lc), (64, Config.uid.toNat), (32, d.counter cBoot), (0, Config.hifId.toNat)])

/-- `sys.ident.get`. -/
def cmdIdent : Cmd :=
  { id := 0x0100, form := exactly 0
    run := fun _ _ d => (((d.counterRead cBoot).counterRead cSeal).lcUsed,
      answerPair (d.counterOk cBoot && d.counterOk cSeal && d.sec.lc.ok) d.ident) }

/-- SYS_IDENT_GET (R67). -/
def execSysIdentGet (dt : Nat) (o : Origin) (s : State) : Host.Outcome State Fault Refusal := wcpRow dt o cmdIdent noOpen s

end Sys2Proof.Machine
end

