-- ==== Sys2Proof/Machine/Tables.lean ====
section
/-! DEFINITION. The index tables of a group descriptor (R72, R442): entry 0 fixed, entries 1-15 present once written. -/

namespace Sys2Proof.Machine

open Sys2Proof

/-- Default macropixel layout: windows of 4 columns by 6 rows, 4 by 64 of them (Tables 4-2, 4-3). -/
def layout0 : BitVec 64 := .ofNat 64 (fields [(46, 6), (37, 64), (23, 4), (18, 4), (8, 6), (0, 4)])

/-- Coincidence profile 0: K 2, window 1.00 ns (R121). -/
def coinc0 : BitVec 32 := .ofNat 32 (fields [(8, 2), (0, 4)])

/-- Plane configuration 0: FBIN 250 ps, ZBIN 62.5 ps, PILEUP 32 (R139). -/
def planecfg0 : BitVec 64 := .ofNat 64 (fields [(8, 32), (2, 0), (0, 2)])

/-- An entry in force: the fixed entry 0, or what was written; none where absent. -/
def tableEntry {n : Nat} (zero : BitVec n) (t : Map (BitVec n)) (i : Nat) : Option (BitVec n) :=
  if i = 0 then some zero else mget i t

/-- Presence mask of a table (R442). -/
def presence {n : Nat} (t : Map (BitVec n)) : Nat :=
  fields ((List.range 16).map (fun i => (i, (i == 0 || (mget i t).isSome).toNat)))

/-- The entries waiting for the frame start merged into those in force. -/
def mergeTable {α : Type} (t next : Map α) : Map α := next.foldl (fun m p => mset p.1 p.2 m) t

/-- Shift of a bin width code from the TDC's 31.25 ps (Table 5-3). -/
def binShift (code : Nat) : Nat := code + 1

/-- A full-range window of 4,096 bins in ns. -/
def windowNs (fbin : Nat) : Nat := 256 * 2 ^ fbin

/-- The plane configuration a descriptor's index will select at the next frame start (R74). -/
def Hist.nextCfg (h : Hist) (i : Nat) : BitVec 64 :=
  if i = 0 then planecfg0
  else match mget i h.cfgsNext with
  | some c => c
  | none => (mget i h.cfgs).getD planecfg0

end Sys2Proof.Machine
end

