-- ==== Sys2Proof/Machine/Plan.lean ====
section
/-! DEFINITION. The scan plan store, frame triggers' settings, the dose governor's sums and the commands of the scan and
firing range that only read or set them (R70-R77, R81, R86-R90, R99, R105). -/

namespace Sys2Proof.Machine

open Sys2Proof

/-! Fields of a header and a descriptor (Tables 3-1, 3-2). -/

/-- PLAN_TAG: Table 3-1 has it copied into frame records, but no record of the manual has a field for it, so the model copies it into none
(DESIGN CHOICE, log entry 182). -/
def hdrTag (h : BitVec 256) : Nat := fld h 191 160
def hdrPeriod (h : BitVec 256) : Nat := fld h 159 128
def hdrCount (h : BitVec 256) : Nat := fld h 8 0
/-- Window-offset sequence entry for frame n (R71). -/
def hdrWoff (h : BitVec 256) (n : Nat) : Nat :=
  let i := n % (fld h 15 14 + 1)
  fld h (17 + 2 * i) (16 + 2 * i)

/-- Idle stripe code (R68). -/
def idleStripe : Nat := 0x3F

def descStripe (d : BitVec 256) (s : Nat) : Nat := fld d (6 * s + 5) (6 * s)
def descEnergy (d : BitVec 256) (s : Nat) : Nat := fld d (143 + 16 * s) (128 + 16 * s)
def descGap (d : BitVec 256) : Nat := fld d 239 224
def descTag (d : BitVec 256) : Nat := fld d 207 192
def descPeriod (d : BitVec 256) : Nat := fld d 63 48
def descShots (d : BitVec 256) : Nat := fld d 47 32
def descMask (d : BitVec 256) : Nat := fld d 71 64
def descWidth (d : BitVec 256) : Nat := fld d 87 80
def descLayout (d : BitVec 256) : Nat := fld d 91 88
def descTemplate (d : BitVec 256) : Nat := fld d 95 92
def descCoinc (d : BitVec 256) : Nat := fld d 99 96
def descPlanecfg (d : BitVec 256) : Nat := fld d 103 100
def descGateset (d : BitVec 256) : Nat := fld d 107 104
def descZonemap (d : BitVec 256) : Nat := fld d 111 108
def descExport (d : BitVec 256) : Bool := bit d 28
def descZoom (d : BitVec 256) : Bool := bit d 27
def descFollow (d : BitVec 256) : Bool := bit d 26

/-- A header obeys Table 3-1. -/
def headerOk (h : BitVec 256) : Bool :=
  !reservedSet h.toNat [(255, 192), (127, 24), (13, 9)] && !outside (hdrPeriod h) 10000000 1000000000 && !outside (hdrCount h) 1 256

/-- Least slot period of a descriptor in ns (R73). -/
def minPeriod (d : BitVec 256) (cfg : BitVec 64) : Nat := 128 + descMask d + windowNs (fld cfg 1 0) + 64

/-- A descriptor obeys Table 3-2, R68 and R73. -/
def descOk (d : BitVec 256) (cfg : BitVec 64) : Bool :=
  !reservedSet d.toNat [(255, 240), (223, 208), (127, 112), (79, 72), (31, 29), (25, 24)] &&
    !outside (descWidth d) 2 32 && !outside (descPeriod d) 1000 16000 && !outside (descShots d) 64 65535 &&
    decide (minPeriod d cfg ≤ descPeriod d) &&
    (List.range 4).all (fun s => descStripe d s == idleStripe || !outside (descStripe d s) (12 * s) (12 * s + 11))

/-- The stored descriptor of a plan. -/
def Fire.desc? (f : Fire) (plan i : Nat) : Option (BitVec 256) := mget (256 * plan + i) f.desc

/-- A stored header. -/
def Fire.header (f : Fire) (plan : Nat) : BitVec 256 := vget f.hdr plan 0

/-- The descriptors of a plan in order; one not written reads as zero. -/
def Fire.descs (f : Fire) (plan : Nat) : List (BitVec 256) :=
  (List.range (hdrCount (f.header plan))).map (fun i => (f.desc? plan i).getD 0)

/-! Articulation (R99, R100). -/

/-- Stripes by slot after an offset: `(stripe, slot it came from)` for each slot (R100). A result outside 0-47 and the later of
two in one quarter are dropped. -/
def shiftStripes (stripes : List Nat) (n : Int) : List (Option (Nat × Nat)) :=
  let moved := (stripes.zipIdx.filter (fun p => p.1 != idleStripe)).map (fun p => ((p.1 : Int) + n, p.2))
  let inside := moved.filter (fun p => 0 ≤ p.1 ∧ p.1 ≤ 47)
  (List.range 4).map (fun q =>
    ((inside.filter (fun p => p.1.toNat / 12 = q)).head?).map (fun p => (p.1.toNat, p.2)))

/-- The stripes of a descriptor by slot. -/
def descStripes (d : BitVec 256) : List Nat := (List.range 4).map (descStripe d)

/-- Stripes fired by slot under an offset. -/
def firedStripes (d : BitVec 256) (n : Int) : List (Option (Nat × Nat)) :=
  if descFollow d then shiftStripes (descStripes d) n
  else (descStripes d).zipIdx.map (fun p => if p.1 = idleStripe then none else some (p.1, p.2))

/-- A non-idle slot is left idle by the offset: EDGE_IDLE. -/
def edgeIdle (d : BitVec 256) (n : Int) : Bool :=
  decide (((firedStripes d n).filterMap id).length < ((descStripes d).filter (· != idleStripe)).length)

/-! The dose budget and its windows (R87-R91). -/

/-- The budget in force: the safe default after a fall, or while the pair is inconsistent (R91). -/
def Fire.budgetNow (f : Fire) : BitVec 256 :=
  if f.safeBudget then Config.budgetDefault else f.budget.use Config.budgetDefault

def budAllow (b : BitVec 256) (k : Nat) : Bool := bit b (160 + k)
def budGlobal (b : BitVec 256) : Nat := fld b 159 128
def budLong (b : BitVec 256) : Nat := fld b 127 96
def budShort (b : BitVec 256) : Nat := fld b 95 64
/-- Windows in ns. -/
def budLongWin (b : BitVec 256) : Nat := fld b 47 32 * ms
def budShortWin (b : BitVec 256) : Nat := fld b 31 16 * us

/-- Governor time: ns since the device reset (R88). -/
def Device.govTime (d : Device) : Nat := d.now - d.time.releasedAt

/-- Index of the sub-window a governor time lies in: 16 to a window (R88). -/
def subWindow (gov win : Nat) : Nat := if win = 0 then 0 else gov * 16 / win

/-- A list of sub-window energies, newest first, moved on by `n` sub-windows: 17 are kept. -/
def rollSums (n : Nat) (l : List Nat) : List Nat :=
  if n = 0 then l else if 17 ≤ n then [] else (List.replicate n 0 ++ l).take 17

/-- All sums moved on to a governor time. -/
def Fire.roll (f : Fire) (gov : Nat) : Fire :=
  let b := f.budgetNow
  let si := subWindow gov (budShortWin b)
  let li := subWindow gov (budLongWin b)
  { f with
    shortSum := f.shortSum.map (rollSums (si - f.shortIdx))
    longSum := f.longSum.map (rollSums (li - f.longIdx))
    globSum := rollSums (li - f.longIdx) f.globSum
    shortIdx := si, longIdx := li }

/-- All sums restarted from zero on the sub-windows of the budget in force (R90). -/
def Fire.restartSums (f : Fire) (gov : Nat) : Fire :=
  let b := f.budgetNow
  { f with
    shortSum := Vector.replicate 48 [], longSum := Vector.replicate 48 [], globSum := []
    shortIdx := subWindow gov (budShortWin b), longIdx := subWindow gov (budLongWin b) }

/-- Window sums of a stripe, and of all stripes. -/
def Fire.shortOf (f : Fire) (k : Nat) : Nat := (vget f.shortSum k []).sum
def Fire.longOf (f : Fire) (k : Nat) : Nat := (vget f.longSum k []).sum
def Fire.globOf (f : Fire) : Nat := f.globSum.sum

/-- Energy added to the newest sub-window. -/
def addHead (e : Nat) : List Nat → List Nat
  | [] => [e]
  | x :: t => (x + e) :: t

/-- A FIRE edge charged to a stripe (R88). -/
def Fire.charge (f : Fire) (k e : Nat) : Fire :=
  { f with
    shortSum := vmod f.shortSum k (addHead e), longSum := vmod f.longSum k (addHead e), globSum := addHead e f.globSum }

/-- Energy taken out of the newest sub-window that holds it. -/
def dropHead (e : Nat) : List Nat → List Nat
  | [] => []
  | x :: t => if e ≤ x then (x - e) :: t else x :: dropHead e t

/-- The charge of a FIRE edge that did not lead after all. -/
def Fire.uncharge (f : Fire) (k e : Nat) : Fire :=
  { f with
    shortSum := vmod f.shortSum k (dropHead e), longSum := vmod f.longSum k (dropHead e), globSum := dropHead e f.globSum }

/-! Commit figures (R75). -/

/-- A burst of a stripe within a frame: start and length in ns, shots, period, energy per shot; and its offset of R99. -/
structure Burst where
  off : Int
  at_ : Nat
  len : Nat
  shots : Nat
  period : Nat
  energy : Nat

/-- The bursts of a stripe over a plan, for each offset a FOLLOW descriptor may take. -/
def planBursts (stripe : Nat) (offs : List Int) : Nat → List (BitVec 256) → List Burst
  | _, [] => []
  | t, d :: rest =>
    let mk := fun (n : Int) => ((firedStripes d n).zipIdx.filter (fun p => p.1.any (fun q => q.1 == stripe))).map
      (fun p => ({ off := n, at_ := t, len := descShots d * descPeriod d, shots := descShots d, period := descPeriod d,
                   energy := descEnergy d p.2 } : Burst))
    offs.flatMap mk ++ planBursts stripe offs (t + descShots d * descPeriod d + descGap d * us) rest

/-- Energy a burst can bring into a span: no more than floor(span / PERIOD) + 1 of its shots. `span16` is in ns / 16. -/
def Burst.weight (b : Burst) (span16 : Nat) : Nat := min b.shots (span16 / (16 * b.period) + 1) * b.energy

/-- The burst of frame m of the repeat overlaps the span ending at `x` (ns / 16). -/
def Burst.overlaps (b : Burst) (period : Nat) (m : Int) (x : Int) (span16 : Nat) : Bool :=
  let start : Int := 16 * (b.at_ + m * period)
  decide (start ≤ x) && decide (x - span16 < start + 16 * b.len)

/-- The most energy one frame brings over the offsets. -/
def frameWeight (bs : List Burst) (offs : List Int) (period : Nat) (m x : Int) (span16 : Nat) : Nat :=
  (offs.map (fun o => ((bs.filter (fun b => b.off == o && b.overlaps period m x span16)).map (fun b => b.weight span16)).sum)).foldl max 0

/-- Worst-case sum of a stripe over a window of `win` ns: the spans that end at a burst's start in frame 0. -/
def worstSum (bs : List Burst) (offs : List Int) (period win : Nat) : Nat :=
  let span16 := 17 * win
  let top := (bs.map (fun b => b.at_ + b.len)).foldl max 0 / period + 1
  let frames := span16 / (16 * period) + 2 * top + 2
  (bs.map (fun b =>
    let x : Int := 16 * b.at_
    ((List.range frames).map (fun k => frameWeight bs offs period ((top : Int) - k) x span16)).sum)).foldl max 0

/-- A figure in units of 0.1 % of its limit, to the nearest (DESIGN CHOICE, log entry 183), saturating at 0xFFFF; with a limit of zero
0xFFFF where any shot is charged. -/
def figure (charged : Bool) (v limit : Nat) : Nat :=
  if limit = 0 then (if charged then 0xFFFF else 0) else sat 0xFFFF (roundDiv (v * 1000) limit)

/-- The commit result (R75). The global figure adds the stripes' worst long-window sums under one articulation offset, the worst one, so
that each burst counts once (log entry 43). -/
def Device.commitResult (d : Device) (h : BitVec 256) (ds : List (BitVec 256)) : Bytes :=
  let ns := (ds.map (fun x => descShots x * descPeriod x + descGap x * us)).sum
  let short := ds.any (fun x => decide (descShots x * descPeriod x < 530000))
  let b := d.fire.budgetNow
  let m := d.fire.follow.max
  let offs := (List.range (2 * m + 1)).map (fun (i : Nat) => (i : Int) - m)
  let bursts := (List.range 48).map (fun k => planBursts k offs 0 ds)
  let charged := bursts.any (fun bs => bs.any (fun x => x.shots != 0))
  let worst := fun (win : Nat) => (bursts.map (fun bs => worstSum bs offs (hdrPeriod h) win)).foldl max 0
  let glob := (offs.map (fun n =>
    (bursts.map (fun bs => worstSum (bs.filter (fun x => x.off == n)) [n] (hdrPeriod h) (budLongWin b))).sum)).foldl max 0
  .mk' 16 (fields [(80, figure charged glob (budGlobal b * 10000)), (64, figure charged (worst (budLongWin b)) (budLong b)),
    (48, figure charged (worst (budShortWin b)) (budShort b)),
    (33, short.toNat), (32, (decide (hdrPeriod h < ns)).toNat), (0, ceilDiv ns 1000)])

/-! State the commands check. -/

/-- Not OFF, and the plan runs or is selected for the next frame (R74). -/
def Fire.planBusy (f : Fire) (plan : Nat) : Bool :=
  f.fn.st != .off && (plan == f.selected.val || (f.firstSlot.isSome && plan == f.running.val))

/-- EMIT_FAULT_N is asserted. -/
def Fire.faultLevel (f : Fire) (now : Nat) : Bool := decide (now < f.faultUntil)

/-- The firing controller is OFF. -/
def Fire.isOff (f : Fire) : Bool := f.fn.st == .off

/-- Failed-stripe marks and the kill latch in use (class 20 of Table 12-1). -/
def Fire.latchNow (f : Fire) : BitVec 64 := f.latch.use (BitVec.ofNat 64 (2 ^ 48))
def Fire.killed (f : Fire) : Bool := bit f.latchNow 48
def Fire.failedStripe (f : Fire) (k : Nat) : Bool := bit f.latchNow k

/-- Latch and marks written. -/
def Fire.setLatch (f : Fire) (v : BitVec 64) : Fire := { f with latch := f.latch.put v }

/-! Commands. -/

/-- `scan.plan.get`. -/
def cmdPlanGet : Cmd := .query 0x0200 (exactly 12)
  (fun _ p => refuse (7 < p.word 0 || outside (p.word 2) 1 126 || 256 < p.word 1 + p.word 2) sBadParam)
  (fun d p => .cat (Bytes.mk' 32 (d.fire.header (p.word 0)).toNat ::
    (List.range (p.word 2)).map (fun i => Bytes.mk' 32 ((d.fire.desc? (p.word 0) (p.word 1 + i)).getD 0).toNat)))

/-- SCAN_PLAN_GET (R105). -/
def execScanPlanGet (dt : Nat) (o : Origin) (s : State) : Host.Outcome State Fault Refusal := wcpRow dt o cmdPlanGet noOpen s

/-- The result of `fire.status.get`. -/
def Device.fireStatus (d : Device) : Bytes :=
  let f := d.fire
  let committed := fields ((List.range 8).map (fun i => (i, (vget f.committed i false).toNat)))
  words [f.fn.word d.now ms, f.killed.toNat, f.trigSrc, f.trigPol, f.running.val, f.selected.val, committed, f.frameNo,
    sat 0xFFFFFFFF f.countedAll, f.latchNow.toNat % 2 ^ 32, f.latchNow.toNat / 2 ^ 32 % 2 ^ 16, (f.faultLevel d.now).toNat]

/-- `fire.status.get`. -/
def cmdFireStatus : Cmd := { id := 0x0201, form := exactly 0, run := fun _ _ d => (d, answerPair d.fire.latch.ok d.fireStatus) }

/-- FIRE_STATUS_GET (R105). -/
def execFireStatusGet (dt : Nat) (o : Origin) (s : State) : Host.Outcome State Fault Refusal := wcpRow dt o cmdFireStatus noOpen s

/-- The result of `fire.dose.get`: sums as of now. -/
def Device.doseReport (d : Device) : Bytes :=
  let f := d.fire.roll d.govTime
  Bytes.cat ([w32 (fld f.budgetNow 15 0)] ++
    (List.range 48).map (fun k => words [sat 0xFFFFFFFF (f.shortOf k), sat 0xFFFFFFFF (f.longOf k)]) ++ [w64 f.globOf])

/-- `fire.dose.get`. -/
def cmdDoseGet : Cmd := { id := 0x0202, form := exactly 0, run := fun _ _ d => (d, answerPair d.fire.budget.ok d.doseReport) }

/-- FIRE_DOSE_GET (R105). -/
def execFireDoseGet (dt : Nat) (o : Origin) (s : State) : Host.Outcome State Fault Refusal := wcpRow dt o cmdDoseGet noOpen s

/-- This node's entry of a calendar: PHASE and SEED (R102). -/
def calEntry (c : BitVec 2176) (node : Nat) : Nat × Nat :=
  (fld c (128 + 64 * node + 31) (128 + 64 * node), fld c (128 + 64 * node + 63) (128 + 64 * node + 32))

/-- `scan.calendar.get`: the calendar in force (zero where there is none) and this node's entry. -/
def cmdCalendarGet : Cmd := .query 0x0203 (exactly 0) (fun _ _ => none)
  (fun d _ =>
    let c := d.fire.cal.getD 0
    let e := calEntry c (d.ring.node % 32)
    (Bytes.mk' 272 c.toNat).app (words [e.1, e.2]))

/-- SCAN_CALENDAR_GET (R105). -/
def execScanCalendarGet (dt : Nat) (o : Origin) (s : State) : Host.Outcome State Fault Refusal :=
  wcpRow dt o cmdCalendarGet noOpen s

/-- A segment written into a plan (R74). -/
def Fire.writePlan (f : Fire) (plan first count : Nat) (p : Bytes) : Fire :=
  let f := if first = 0 then
      { f with hdr := vset f.hdr plan (.ofNat 256 (p.slice 12 32).val), hdrWritten := vset f.hdrWritten plan true }
    else f
  { f with
    desc := (List.range count).foldl
      (fun m i => mset (256 * plan + first + i) (BitVec.ofNat 256 (p.slice (44 + 32 * i) 32).val) m) f.desc
    committed := vset f.committed plan false }

/-- `scan.plan.write` (R74). -/
def cmdPlanWrite : Cmd :=
  { id := 0x0240
    form := fun p => 44 ≤ p.len && 44 + 32 * p.word 2 ≤ p.len
    state := fun d p => refuse (p.word 0 < 8 && d.fire.planBusy (p.word 0)) sBadState
    content := fun _ p => refuse (7 < p.word 0 || 125 < p.word 2 || p.len != 44 + 32 * p.word 2) sBadParam
    resource := fun _ p => refuse (p.word 2 != 0 && 256 < p.word 1 + p.word 2) sNoResource
    run := fun _ p d => ({ d with fire := d.fire.writePlan (p.word 0) (p.word 1) (p.word 2) p }, .no sOk) }

/-- SCAN_PLAN_WRITE (R74). -/
def execScanPlanWrite (dt : Nat) (o : Origin) (s : State) : Host.Outcome State Fault Refusal := wcpRow dt o cmdPlanWrite noOpen s

/-- What commit finds wrong first: the header (0xFFFF_FFFF) or a descriptor's index (R74). -/
def Device.commitFails (d : Device) (plan : Nat) : Option Nat :=
  let h := d.fire.header plan
  if !vget d.fire.hdrWritten plan false || !headerOk h then some 0xFFFFFFFF
  else (List.range (hdrCount h)).find? (fun i => match d.fire.desc? plan i with
    | none => true
    | some x => !descOk x (d.hist.nextCfg (descPlanecfg x)))

/-- Commit executed. -/
def Device.commitPlan (d : Device) (plan : Nat) : Device × Answer :=
  match d.commitFails plan with
  | some i => (d, .done sBadParam (w32 i))
  | none =>
    ({ d with fire := { d.fire with committed := vset d.fire.committed plan true } },
     .ok (d.commitResult (d.fire.header plan) (d.fire.descs plan)))

/-- `scan.plan.commit` (R74, R75). -/
def cmdPlanCommit : Cmd :=
  { id := 0x0241, form := exactly 4
    state := fun d p => refuse (p.word 0 < 8 && d.fire.planBusy (p.word 0)) sBadState
    content := fun _ p => refuse (7 < p.word 0) sBadParam
    run := fun _ p d => d.commitPlan (p.word 0) }

/-- SCAN_PLAN_COMMIT (R74). -/
def execScanPlanCommit (dt : Nat) (o : Origin) (s : State) : Host.Outcome State Fault Refusal := wcpRow dt o cmdPlanCommit noOpen s

/-- The plan named for the next frame (R77). -/
def Device.selectPlan (d : Device) (plan : Nat) : Device × Answer :=
  let on := d.fire.fn.st == .on
  ({ d with fire := { d.fire with selected := .ofNat 8 plan, framesSince := if on then d.fire.framesSince else 0 } },
   if on then .pend .planSelect else .no sOk)

/-- `scan.plan.select` (R77): an uncommitted store slot is refused S_BAD_STATE (log entry 44). -/
def cmdPlanSelect : Cmd :=
  { id := 0x0242, form := exactly 4
    state := fun d p => refuse (p.word 0 < 8 && !vget d.fire.committed (p.word 0) false) sBadState
    content := fun _ p => refuse (7 < p.word 0) sBadParam
    run := fun _ p d => d.selectPlan (p.word 0) }

/-- SCAN_PLAN_SELECT (R77). -/
def execScanPlanSelect (dt : Nat) (o : Origin) (s : State) : Host.Outcome State Fault Refusal := wcpRow dt o cmdPlanSelect noOpen s

/-- `fire.dither.set` (R86): the seed is loaded at the next frame start. -/
def cmdDitherSet : Cmd :=
  { id := 0x0247, form := exactly 4
    content := fun _ p => refuse (p.word 0 == 0) sBadParam
    run := fun _ p d => ({ d with fire := { d.fire with seed := .ofNat 32 (p.word 0), seedPending := true } }, .no sOk) }

/-- FIRE_DITHER_SET (R86). -/
def execFireDitherSet (dt : Nat) (o : Origin) (s : State) : Host.Outcome State Fault Refusal := wcpRow dt o cmdDitherSet noOpen s

/-- A block of Table 3-6 obeys its ranges. -/
def emitterBad (b : Nat) : Bool :=
  reservedSet b [(111, 96), (63, 48), (31, 1)] || outside (nfld b 127 112) 20 10000 || outside (nfld b 95 88) 4 64 ||
    outside (nfld b 87 80) 1 64 || outside (nfld b 79 72) 8 120 || decide (nfld b 79 72 < nfld b 71 64 + 4)

/-- `fire.emitter.set` (R92). -/
def cmdEmitterSet : Cmd :=
  { id := 0x0248, form := exactly 16
    state := fun d _ => refuse (!d.fire.isOff) sBadState
    content := fun _ p => refuse (emitterBad p.val) sBadParam
    run := fun _ p d => ({ d with fire := { d.fire with emitter := .ofNat 128 p.val } }, .no sOk) }

/-- FIRE_EMITTER_SET (R92). -/
def execFireEmitterSet (dt : Nat) (o : Origin) (s : State) : Host.Outcome State Fault Refusal := wcpRow dt o cmdEmitterSet noOpen s

/-- A valid budget written (R87, R90): the sums restart and the LONG_WIN wait begins anew. -/
def Device.writeBudget (d : Device) (v : BitVec 256) : Device :=
  { d with fire := Fire.restartSums { d.fire with budget := d.fire.budget.put v, safeBudget := false, budgetAt := d.now } d.govTime }

/-- A budget outside Table 3-5. -/
def budgetBad (b : Nat) : Bool :=
  reservedSet b [(255, 208), (63, 48)] || outside (nfld b 47 32) 10 10000 || outside (nfld b 31 16) 10 10000

/-- `fire.budget.set` (R87). -/
def cmdBudgetSet : Cmd :=
  { id := 0x0249, form := exactly 32, sealed := fun _ => true
    state := fun d _ => refuse (!d.fire.isOff) sBadState
    content := fun _ p => refuse (budgetBad p.val) sBadParam
    run := fun c p d => ((d.mram false (fun d => d.writeBudget (.ofNat 256 p.val))).sealChange c 0x0249 1 (digest128 (d.sealedValue 1)), .no sOk) }

/-- FIRE_BUDGET_SET (R87). -/
def execFireBudgetSet (dt : Nat) (o : Origin) (s : State) : Host.Outcome State Fault Refusal := wcpRow dt o cmdBudgetSet noOpen s

/-- `fire.kill.clear` (R97). -/
def cmdKillClear : Cmd :=
  { id := 0x024A, form := exactly 0
    state := fun d _ => refuse (!d.fire.isOff) sBadState
    run := fun _ _ d => (d.mram true (fun d => { d with fire := d.fire.setLatch (setBit d.fire.latchNow 48 false) }), .no sOk) }

/-- FIRE_KILL_CLEAR (R97). -/
def execFireKillClear (dt : Nat) (o : Origin) (s : State) : Host.Outcome State Fault Refusal := wcpRow dt o cmdKillClear noOpen s

/-- A mask names a stripe of a slot whose witness TDC is marked unusable (Table 12-5). -/
def Device.witnessLost (d : Device) (mask : Nat) : Bool :=
  (List.range 4).any (fun w => d.unusable 0 (1024 + w) && nfld mask (12 * w + 11) (12 * w) != 0)

/-- `fire.stripe.clear` (R94). -/
def cmdStripeClear : Cmd :=
  { id := 0x024B, form := exactly 8
    hw := fun d p => d.witnessLost p.val
    content := fun _ p => refuse (2 ^ 48 ≤ p.val) sBadParam
    run := fun _ p d =>
      (d.mram true (fun d => { d with fire := { d.fire.setLatch (d.fire.latchNow &&& ~~~(BitVec.ofNat 64 p.val)) with
          darkRun := (List.range 48).foldl (fun v k => if nbit p.val k then vset v k 0 else v) d.fire.darkRun } }), .no sOk) }

/-- FIRE_STRIPE_CLEAR (R94). -/
def execFireStripeClear (dt : Nat) (o : Origin) (s : State) : Host.Outcome State Fault Refusal := wcpRow dt o cmdStripeClear noOpen s

/-- `scan.follow.set` (R99): source, A_4, A_20, OFFSET_MAX. -/
def cmdFollowSet : Cmd :=
  { id := 0x024C, form := exactly 16
    content := fun _ p => refuse (2 < p.word 0 || 16 < p.word 3) sBadParam
    run := fun _ p d =>
      ({ d with fire := { d.fire with follow := ⟨p.word 0, sgn 32 (p.word 1), sgn 32 (p.word 2), p.word 3⟩ } }, .no sOk) }

/-- SCAN_FOLLOW_SET (R99). -/
def execScanFollowSet (dt : Nat) (o : Origin) (s : State) : Host.Outcome State Fault Refusal := wcpRow dt o cmdFollowSet noOpen s

end Sys2Proof.Machine
end

