-- ==== Sys2Proof/Machine/Geometry.lean ====
section
/-! DEFINITION. Sensor values (R407), macropixel windows (R113-R117) and SPAD masks (R122-R125). -/

namespace Sys2Proof.Machine

open Sys2Proof

/-! Thermal sensors (Table 14-5, R407), in 0.01 degC. -/

/-- Neighbours of a sensor. -/
def neighbours (i : Nat) : List Nat :=
  (([[1, 2, 8], [0, 3, 9], [0, 3, 4], [1, 2, 4], [2, 3, 7], [6, 7], [5, 7], [4, 5, 6], [9, 0], [8, 1], [11], [10],
    [13, 14, 15], [12, 14, 15], [12, 13, 15], [12, 13, 14]] : List (List Nat))[i]?).getD []

/-- The sensors of the die a sensor lies on. -/
def dieOf (i : Nat) : List Nat :=
  if i < 8 then List.range 8 else if i < 10 then [8, 9] else if i < 12 then [10, 11] else [12, 13, 14, 15]

def Power.sensor (p : Power) (i : Nat) : Sensor := vget p.sensors i {}

/-- The highest reading of the valid sensors of a list. -/
def Power.maxValid (p : Power) (l : List Nat) : Option Int :=
  ((l.filter (fun j => (p.sensor j).valid)).map (fun j => (p.sensor j).reading)).max?

/-- The substitute of an excluded sensor (R407). -/
def Power.substitute (p : Power) (i : Nat) : Int :=
  match p.maxValid (neighbours i) with
  | some m => m + roundInt (p.sensor i).offset 65536 + 500
  | none => match p.maxValid (dieOf i) with
    | some m => m + 500
    | none => 16500 - 1500

/-- The value of a sensor, valid or substituted. -/
def Power.value (p : Power) (i : Nat) : Int := if (p.sensor i).valid then (p.sensor i).reading else p.substitute i

/-- T_S: the higher of TS8 and TS9 (R407). -/
def Device.ts (d : Device) : Int := max (d.power.value 8) (d.power.value 9)

/-! Layouts (Table 4-2). -/

def lyY0 (l : BitVec 64) : Nat := fld l 63 55
def lyYstep (l : BitVec 64) : Nat := fld l 54 46
def lyNr (l : BitVec 64) : Nat := fld l 45 37
def lyX0 (l : BitVec 64) : Nat := fld l 31 28
def lyXstep (l : BitVec 64) : Nat := fld l 27 23
def lyNc (l : BitVec 64) : Nat := fld l 22 18
def lyH (l : BitVec 64) : Nat := fld l 12 8
def lyW (l : BitVec 64) : Nat := fld l 3 0

/-- An entry outside Table 4-2 or R114. -/
def layoutBad (l : BitVec 64) : Bool :=
  reservedSet l.toNat [(36, 32), (17, 13), (7, 4)] || 383 < lyY0 l || outside (lyYstep l) 1 384 || outside (lyNr l) 1 256 ||
    outside (lyXstep l) 1 16 || outside (lyNc l) 1 16 || outside (lyH l) 1 16 || outside (lyW l) 1 8 ||
    32 < lyW l * lyH l || lyXstep l < lyW l || lyYstep l < lyH l || 256 < lyNc l * lyNr l ||
    16 < lyX0 l + (lyNc l - 1) * lyXstep l + lyW l || 384 < lyY0 l + (lyNr l - 1) * lyYstep l + lyH l

/-- The columns and rows of window `w` (0-255) of a stripe (R115), columns beyond the array included; none where unused. -/
def windowOf (l : BitVec 64) (stripe woff w : Nat) : Option (List Nat × List Nat) :=
  if lyNc l * lyNr l ≤ w then none
  else
    let c := w / lyNr l
    let r := w % lyNr l
    let x := 16 * stripe + woff + lyX0 l + c * lyXstep l
    let y := lyY0 l + r * lyYstep l
    some ((List.range (lyW l)).map (x + ·), (List.range (lyH l)).map (y + ·))

/-- An edge window: a column outside the stripe's own 16 (R116). -/
def edgeWindow (stripe : Nat) (cols : List Nat) : Bool := cols.any (fun c => outside c (16 * stripe) (16 * stripe + 15))

/-- The SPADs of a window that exist (R116). -/
def windowSpads (w : List Nat × List Nat) : List Nat :=
  w.2.flatMap (fun y => (w.1.filter (· < 768)).map (fun x => y * 768 + x))

/-- The direction of a window from the lens table (R117), as sums and counts: azimuth sum, columns, elevation sum, rows. -/
def windowDir (lens : BitVec 18432) (w : List Nat × List Nat) : Int × Nat × Int × Nat :=
  let cols := w.1.filter (· < 768)
  ((cols.map (fun c => sgn 16 (fld lens (16 * c + 15) (16 * c)))).sum, cols.length,
   (w.2.map (fun r => sgn 16 (fld lens (16 * (768 + r) + 15) (16 * (768 + r))))).sum, w.2.length)

/-! Large masks. -/

/-- Set bits of a number below 2^(2^k), counted by halves. -/
def ones : Nat → Nat → Nat
  | 0, x => x % 2
  | k + 1, x => if x = 0 then 0 else ones k (x % 2 ^ (2 ^ k)) + ones k (x / 2 ^ (2 ^ k))

/-- The same bits as a rising list of positions, from `base`. -/
def onesList : Nat → Nat → Nat → List Nat
  | 0, base, x => if x % 2 = 1 then [base] else []
  | k + 1, base, x =>
    if x = 0 then [] else onesList k base (x % 2 ^ (2 ^ k)) ++ onesList k (base + 2 ^ k) (x / 2 ^ (2 ^ k))

/-- Bits of a 294,912-bit mask. -/
def maskCount (m : BitVec 294912) : Nat := ones 19 m.toNat
def maskList (m : BitVec 294912) : List Nat := onesList 19 0 m.toNat

/-- A mask with the bits of a list cleared. -/
def clearBits (m : BitVec 294912) (l : List Nat) : BitVec 294912 := m &&& ~~~(BitVec.ofNat _ (l.map (2 ^ ·)).sum)

/-- A mask with the bits of a list set; none of them set before. -/
def setBits (m : BitVec 294912) (l : List Nat) : BitVec 294912 := m ||| BitVec.ofNat _ (l.map (2 ^ ·)).sum

/-! The receiver configuration (Table 4-11). -/

def rxHotSet (c : BitVec 128) : Nat := fld c 127 112
def rxHotClear (c : BitVec 128) : Nat := fld c 111 96
def rxPasses (c : BitVec 128) : Nat := fld c 95 80
def rxMaxPct (c : BitVec 128) : Nat := fld c 79 72
def rxVex (c : BitVec 128) : Nat := fld c 63 48
def rxHoldoff (c : BitVec 128) : Nat := fld c 47 40
def rxAuto (c : BitVec 128) : Bool := bit c 32
def rxGuardHot (c : BitVec 128) : Nat := fld c 31 16

/-- A block outside Table 4-11. -/
def rxCfgBad (c : BitVec 128) : Bool :=
  reservedSet c.toNat [(71, 64), (39, 33), (15, 0)] || outside (rxHotSet c) 1 1000 || rxHotSet c ≤ rxHotClear c ||
    288 < rxPasses c || 50 < rxMaxPct c || outside (rxVex c) 1500 5000 || rxVex c % 25 != 0 ||
    outside (rxHoldoff c) 4 16 || 8000 < rxGuardHot c

/-- The layout in force at an index, absent ones replaced by entry 0. -/
def Rx.layout (r : Rx) (i : Nat) : BitVec 64 := (tableEntry layout0 r.layouts i).getD layout0
def Rx.coinc (r : Rx) (i : Nat) : BitVec 32 := (tableEntry coinc0 r.coincs i).getD coinc0
def coK (c : BitVec 32) : Nat := fld c 11 8
def coWin (c : BitVec 32) : Nat := fld c 4 0

/-- The statically enabled SPADs of a window. -/
def Rx.staticOn (r : Rx) (w : List Nat × List Nat) : List Nat := (windowSpads w).filter (fun i => !bit r.mask i)

/-- At most this many SPADs of a window are dynamically disabled (R125). -/
def Rx.hotLimit (r : Rx) (statics : Nat) : Nat := rxMaxPct r.cfg * statics / 100

/-- The slots a descriptor fires under the frame's offset: slot and stripe. -/
def firedSlots (desc : BitVec 256) (offset : Int) : List (Nat × Nat) :=
  (firedStripes desc offset).zipIdx.filterMap (fun p => p.1.map (fun q => (p.2, q.1)))

/-- The window of a frame that a SPAD lies in: slot, window. -/
def spadWindow (l : BitVec 64) (slots : List (Nat × Nat)) (woff i : Nat) : Option (Nat × Nat) :=
  let x := i % 768
  let y := i / 768
  if y < lyY0 l || lyYstep l = 0 || lyXstep l = 0 then none
  else
    let r := (y - lyY0 l) / lyYstep l
    if lyNr l ≤ r || lyH l ≤ (y - lyY0 l) % lyYstep l then none
    else (slots.filterMap (fun p =>
      let x0 := 16 * p.2 + woff + lyX0 l
      if x < x0 then none
      else
        let c := (x - x0) / lyXstep l
        if lyNc l ≤ c || lyW l ≤ (x - x0) % lyXstep l then none else some (p.1, lyNr l * c + r))).head?

/-- SPADs beyond a window's limit: of the hot ones in it, all but those with the highest counts, the lower SPAD index first among equal
counts (DESIGN CHOICE, log entry 148). -/
def Rx.beyondLimit (r : Rx) (hot : List Nat) (w : List Nat × List Nat) : List Nat :=
  let n := r.hotLimit (r.staticOn w).length
  (hot.mergeSort (fun a b => sget r.counts b < sget r.counts a || (sget r.counts a == sget r.counts b && a ≤ b))).drop n

/-- The SPADs that the limit of a window of the frame keeps enabled (R125): `layoutOf` is the layout a descriptor runs with. -/
def Rx.releasedIn (r : Rx) (layoutOf : BitVec 256 → BitVec 64) (descs : List (BitVec 256)) (offset : Int) (woff : Nat) : List Nat :=
  let hot := maskList (r.dynNext &&& ~~~r.mask)
  if hot.isEmpty then []
  else
    (descs.flatMap (fun desc =>
      let l := layoutOf desc
      let slots := firedSlots desc offset
      let placed := hot.filterMap (fun i => (spadWindow l slots woff i).map (fun w => (w, i)))
      let wins := (placed.map (fun p => p.1)).eraseDups
      wins.flatMap (fun w =>
        match slots.find? (fun p => p.1 == w.1) with
        | none => []
        | some p => match windowOf l p.2 woff w.2 with
          | none => []
          | some win => r.beyondLimit ((placed.filter (fun q => q.1 == w)).map (fun q => q.2)) win))).eraseDups

/-- The dynamic mask of a frame (R125): the survey's, without the SPADs beyond the limit of a window of the frame. Of those, the ones
whose last count is not above HOT_SET are no longer candidates. -/
def Rx.frameDyn (r : Rx) (layoutOf : BitVec 256 → BitVec 64) (descs : List (BitVec 256)) (offset : Int) (woff : Nat) : Rx :=
  let out := r.releasedIn layoutOf descs offset woff
  { r with
    dyn := clearBits r.dynNext out, dynFresh := 0
    dynNext := clearBits r.dynNext (out.filter (fun i => sget r.counts i ≤ rxHotSet r.cfg)) }

end Sys2Proof.Machine
end

