-- ==== Sys2Proof/Machine/Receiver.lean ====
section
/-! DEFINITION. Commands of the photon receiver and the events of its survey, bias and linearisation (R107-R136). -/

namespace Sys2Proof.Machine

open Sys2Proof

/-- The receiver changed. -/
def Device.modRx (d : Device) (f : Rx → Rx) : Device := { d with rx := f d.rx }

/-- ON time of the firing controller so far (R131). -/
def Rx.onTime (r : Rx) (now : Nat) : Nat := r.linOn + (r.linFrom.map (fun t => now - t)).getD 0

/-- ON is entered, and left. -/
def Rx.onStarts (r : Rx) (now : Nat) : Rx := { r with linFrom := some now }
def Rx.onEnds (r : Rx) (now : Nat) : Rx := { r with linOn := r.onTime now, linFrom := none }

/-- A parameter that shapes results changed: the next frame carries a new generation (R10). -/
def Device.dirty (d : Device) : Device := { d with fire := { d.fire with genDirty := true } }

/-- A parameter taken at group starts changed: the next group carries a new generation (R10). -/
def Device.dirtyGroup (d : Device) : Device := { d with fire := { d.fire with genGroup := true } }

/-- The result of `rx.status.get`; bias target and applied in mV, temperatures in 0.01 degC, as the receiver's blocks have them (DESIGN
CHOICE, log entry 144). -/
def Device.rxStatus (d : Device) : Bytes :=
  let r := d.rx
  (Bytes.cat [words [r.biasTarget, r.biasApplied, r.biasLim.toNat], wInt d.ts,
    words [r.holdoff, maskCount r.mask, maskCount r.dyn, r.surveyPos]]).app
  (counted ((r.retired.mergeSort (fun a b => a.ch ≤ b.ch)).map (fun x => words [x.ch, (mget x.ch r.spares).getD 0x7FF])))

/-- `rx.status.get`. -/
def cmdRxStatus : Cmd := .query 0x0300 (exactly 0) (fun _ _ => none) (fun d _ => d.rxStatus)

/-- RX_STATUS_GET (R136). -/
def execRxStatusGet (dt : Nat) (o : Origin) (s : State) : Host.Outcome State Fault Refusal := wcpRow dt o cmdRxStatus noOpen s

/-- `rx.layout.get`. -/
def cmdLayoutGet : Cmd := .query 0x0301 (exactly 4)
  (fun d p => refuse (15 < p.word 0 || (tableEntry layout0 d.rx.layouts (p.word 0)).isNone) sBadParam)
  (fun d p => wBlock (d.rx.layout (p.word 0)))

/-- RX_LAYOUT_GET (R442). -/
def execRxLayoutGet (dt : Nat) (o : Origin) (s : State) : Host.Outcome State Fault Refusal := wcpRow dt o cmdLayoutGet noOpen s

/-- `rx.mask.get`: bit 31 of the offset names the dynamic mask. -/
def cmdMaskGet : Cmd := .query 0x0302 (exactly 8)
  (fun _ p => refuse (4032 < p.word 1 || 36864 < p.word 0 % 2 ^ 31 + p.word 1) sBadParam)
  (fun d p =>
    let m := if nbit (p.word 0) 31 then d.rx.dyn else d.rx.mask
    (Bytes.mk' 36864 m.toNat).slice (p.word 0 % 2 ^ 31) (p.word 1))

/-- RX_MASK_GET (R136). -/
def execRxMaskGet (dt : Nat) (o : Origin) (s : State) : Host.Outcome State Fault Refusal := wcpRow dt o cmdMaskGet noOpen s

/-- `rx.survey.get`: 0xFFFF for statically disabled SPADs. -/
def cmdSurveyGet : Cmd := .query 0x0303 (exactly 4)
  (fun _ p => refuse (287 < p.word 0) sBadParam)
  (fun d p => .cat ((List.range 1024).map (fun k =>
    let i := 1024 * p.word 0 + k
    Bytes.mk' 2 (if bit d.rx.mask i then 0xFFFF else sget d.rx.passCounts i))))

/-- RX_SURVEY_GET (R136). -/
def execRxSurveyGet (dt : Nat) (o : Origin) (s : State) : Host.Outcome State Fault Refusal := wcpRow dt o cmdSurveyGet noOpen s

/-- A whole table: presence mask, then 16 entries, absent ones zero (R442). -/
def wholeTable {n : Nat} (zero : BitVec n) (t : Map (BitVec n)) : Bytes :=
  (w32 (presence t)).app (.cat ((List.range 16).map (fun i => wBlock ((tableEntry zero t i).getD 0))))

/-- `rx.coinc.get`. -/
def cmdCoincGet : Cmd := .query 0x0304 (exactly 0) (fun _ _ => none) (fun d _ => wholeTable coinc0 d.rx.coincs)

/-- RX_COINC_GET (R442). -/
def execRxCoincGet (dt : Nat) (o : Origin) (s : State) : Host.Outcome State Fault Refusal := wcpRow dt o cmdCoincGet noOpen s

/-- `rx.lens.get`: the table in force, the reference mapping where the pair fails. -/
def cmdLensGet : Cmd :=
  { id := 0x0305, form := exactly 0
    run := fun _ _ d =>
      (d, answerPair d.rx.lens.ok (wBlock (if d.rx.lens.ok then d.rx.lensInForce else Config.lensReference))) }

/-- RX_LENS_GET (R136). -/
def execRxLensGet (dt : Nat) (o : Origin) (s : State) : Host.Outcome State Fault Refusal := wcpRow dt o cmdLensGet noOpen s

/-- `rx.config.set` (R135). -/
def cmdRxConfigSet : Cmd :=
  { id := 0x0340, form := exactly 16
    content := fun _ p => refuse (rxCfgBad (.ofNat 128 p.val)) sBadParam
    run := fun _ p d => ((d.modRx (fun r => { r with cfgNext := some (.ofNat 128 p.val) })).dirty, .no sOk) }

/-- RX_CONFIG_SET (R135). -/
def execRxConfigSet (dt : Nat) (o : Origin) (s : State) : Host.Outcome State Fault Refusal := wcpRow dt o cmdRxConfigSet noOpen s

/-- `rx.layout.set` (R113, R114). -/
def cmdLayoutSet : Cmd :=
  { id := 0x0341, form := exactly 12
    content := fun _ p => refuse (outside (p.word 0) 1 15 || layoutBad (.ofNat 64 (p.slice 4 8).val)) sBadParam
    run := fun _ p d =>
      ((d.modRx (fun r => { r with layoutsNext := mset (p.word 0) (.ofNat 64 (p.slice 4 8).val) r.layoutsNext })).dirty, .no sOk) }

/-- RX_LAYOUT_SET (R113). -/
def execRxLayoutSet (dt : Nat) (o : Origin) (s : State) : Host.Outcome State Fault Refusal := wcpRow dt o cmdLayoutSet noOpen s

/-- A profile outside Table 4-4. -/
def coincBad (c : Nat) : Bool := reservedSet c [(31, 12), (7, 5)] || outside (nfld c 11 8) 1 8 || outside (nfld c 4 0) 1 16

/-- `rx.coinc.set` (R121). -/
def cmdCoincSet : Cmd :=
  { id := 0x0342, form := exactly 8
    content := fun _ p => refuse (outside (p.word 0) 1 15 || coincBad (p.word 1)) sBadParam
    run := fun _ p d =>
      ((d.modRx (fun r => { r with coincsNext := mset (p.word 0) (.ofNat 32 (p.word 1)) r.coincsNext })).dirty, .no sOk) }

/-- RX_COINC_SET (R121). -/
def execRxCoincSet (dt : Nat) (o : Origin) (s : State) : Host.Outcome State Fault Refusal := wcpRow dt o cmdCoincSet noOpen s

/-- `rx.mask.write`: byte offset (4 bytes), length (2 bytes), data (R122). -/
def cmdMaskWrite : Cmd :=
  { id := 0x0343
    form := fun p => 6 ≤ p.len && 6 + p.bits 47 32 ≤ p.len
    content := fun _ p => refuse (p.len != 6 + p.bits 47 32 || 4032 < p.bits 47 32 || 36864 < p.word 0 + p.bits 47 32) sBadParam
    run := fun _ p d =>
      (d.modRx (fun r =>
        let lo := 8 * p.word 0
        let n := 8 * p.bits 47 32
        { r with maskShadow := .ofNat _ (r.maskShadow.toNat - r.maskShadow.toNat / 2 ^ lo % 2 ^ n * 2 ^ lo + (p.drop 6).val * 2 ^ lo) }),
       .no sOk) }

/-- RX_MASK_WRITE (R122). -/
def execRxMaskWrite (dt : Nat) (o : Origin) (s : State) : Host.Outcome State Fault Refusal := wcpRow dt o cmdMaskWrite noOpen s

/-- `rx.mask.commit`: live at once while OFF, else at the next frame start (R122). -/
def cmdMaskCommit : Cmd :=
  { id := 0x0344, form := exactly 0
    run := fun _ _ d =>
      if d.fire.isOff then ((d.modRx (fun r => { r with mask := r.maskShadow, maskNext := none })).dirty, .no sOk)
      else ((d.modRx (fun r => { r with maskNext := some r.maskShadow })).dirty, .pend .maskCommit) }

/-- RX_MASK_COMMIT (R122). -/
def execRxMaskCommit (dt : Nat) (o : Origin) (s : State) : Host.Outcome State Fault Refusal := wcpRow dt o cmdMaskCommit noOpen s

/-- A witness block outside Table 4-6. -/
def witnessBad (b : Nat) : Bool := nfld b 63 12 != 0 || outside (nfld b 7 5) 1 4 || outside (nfld b 4 0) 1 16

/-- `rx.witness.set` (R127). -/
def cmdWitnessSet : Cmd :=
  { id := 0x0345, form := exactly 40
    state := fun d _ => refuse (!d.fire.isOff) sBadState
    content := fun _ p => refuse (witnessBad p.val) sBadParam
    run := fun _ p d => (d.modRx (fun r => { r with wit := .ofNat 320 p.val, witDisturbed := 15 }), .no sOk) }

/-- RX_WITNESS_SET (R127). -/
def execRxWitnessSet (dt : Nat) (o : Origin) (s : State) : Host.Outcome State Fault Refusal := wcpRow dt o cmdWitnessSet noOpen s

/-- A channel's retirement entry in a list. -/
def retiredIn (l : List Retired) (ch : Nat) : Option Retired := l.find? (fun x => x.ch == ch)

/-- A channel is to be retired from the next frame start (R118). -/
def Rx.retire (r : Rx) (ch : Nat) (bySelfTest : Bool) : Rx :=
  { r with
    retireNext := r.retireNext.filter (fun x => x.ch != ch) ++ [⟨ch, bySelfTest⟩]
    restoreNext := r.restoreNext.filter (· != ch) }

/-- `rx.channel.retire` (R118). -/
def cmdChannelRetire : Cmd :=
  { id := 0x0346, form := exactly 4
    content := fun _ p => refuse (1023 < p.word 0) sBadParam
    run := fun _ p d => ((d.modRx (fun r => r.retire (p.word 0) false)).dirty, .no sOk) }

/-- RX_CHANNEL_RETIRE (R118). -/
def execRxChannelRetire (dt : Nat) (o : Origin) (s : State) : Host.Outcome State Fault Refusal :=
  wcpRow dt o cmdChannelRetire noOpen s

/-- The last directed verdict of a unit is PASS (R370). -/
def Bist.passed (b : Bist) (cls idx : Nat) : Bool := b.verdicts.any (fun v => v.cls == cls && v.idx == idx && v.verdict == 0)

/-- A channel retired by self-test whose TDC has not passed a directed self-test since (R118). -/
def Device.notPassed (d : Device) (ch : Nat) : Bool :=
  let selfTest := (retiredIn (d.rx.retired ++ d.rx.retireNext) ch).any (fun x => x.bySelfTest) || d.unusable 0 ch
  selfTest && (!d.bist.passed 0 ch || d.bist.markedSince.contains (0, ch))

/-- Marks without those of a unit. -/
def Bist.unmark (b : Bist) (cls idx : Nat) : Bist :=
  b.putMarks (b.marks.filter (fun m => !(m.cls == cls && m.idx == idx)))

/-- `rx.channel.restore` (R118): its mark is cleared too (R366). -/
def cmdChannelRestore : Cmd :=
  { id := 0x0347, form := exactly 4
    hw := fun d p => d.notPassed (p.word 0)
    content := fun _ p => refuse (1023 < p.word 0) sBadParam
    run := fun _ p d =>
      let d := d.mram true (fun d => { d with bist := d.bist.unmark 0 (p.word 0) })
      ((d.modRx (fun r => { r with
        restoreNext := r.restoreNext.filter (· != p.word 0) ++ [p.word 0]
        retireNext := r.retireNext.filter (fun x => x.ch != p.word 0) })).dirty, .no sOk) }

/-- RX_CHANNEL_RESTORE (R118). -/
def execRxChannelRestore (dt : Nat) (o : Origin) (s : State) : Host.Outcome State Fault Refusal :=
  wcpRow dt o cmdChannelRestore noOpen s

/-- Breakdown coefficients in use (class 3). -/
def Rx.vbdNow (r : Rx) : BitVec 64 := r.vbd.use Config.vbdDefault

/-- Breakdown coefficients written. -/
def Rx.setVbd (r : Rx) (vbd25 tc : Nat) : Rx := { r with vbd := r.vbd.put (.ofNat 64 (fields [(32, tc % 2 ^ 32), (0, vbd25 % 2 ^ 32)])) }

/-- `rx.vbd.set` (R109). -/
def cmdVbdSet : Cmd :=
  { id := 0x0348, form := exactly 8
    content := fun _ p => refuse (outside (p.word 0) 20000 24000 || outside (p.word 1) 10000 30000) sBadParam
    run := fun _ p d => ((d.mram true (fun d => d.modRx (fun r => r.setVbd (p.word 0) (p.word 1)))).dirtyGroup, .no sOk) }

/-- RX_VBD_SET (R109). -/
def execRxVbdSet (dt : Nat) (o : Origin) (s : State) : Host.Outcome State Fault Refusal := wcpRow dt o cmdVbdSet noOpen s

/-- TC x (T_S - 25 degC), in mV: TC in uV/K, temperatures in 0.01 degC; rounded to the nearest mV (DESIGN CHOICE, log entry 145). -/
def tcTerm (tc : Nat) (ts : Int) : Int := roundInt ((tc : Int) * (ts - 2500)) 100000

/-- The current estimate of the breakdown voltage at T_S, mV (R109). -/
def Device.vbdEstimate (d : Device) : Int := (fld d.rx.vbdNow 31 0 : Int) + tcTerm (fld d.rx.vbdNow 63 32) d.ts

/-- `rx.vbd.measure` (R109). -/
def cmdVbdMeasure : Cmd :=
  { id := 0x0349, form := exactly 0
    state := fun d _ => refuse (!d.fire.isOff) sBadState
    run := fun _ _ d => (d.modRx (fun r => { r with vbdRun := some (r.vbdRun.getD (d.now, d.vbdEstimate)) }), .pend .vbdMeasure) }

/-- RX_VBD_MEASURE (R109). -/
def execRxVbdMeasure (dt : Nat) (o : Origin) (s : State) : Host.Outcome State Fault Refusal := wcpRow dt o cmdVbdMeasure noOpen s

/-- The first step at which at least 512 of the 1,024 SPADs have recorded an avalanche (R109). -/
def vbdStep (counts : List Nat) : Option Nat := counts.findIdx? (fun n => decide (512 ≤ n))

/-- The measurement: `counts` holds, for each step of 25 mV from the estimate less 1.000 V, how many of the SPADs have recorded an
avalanche. Each step dwells 100 us. The lowest bias found, referred to 25 degC, is stored whatever its value (R109; DESIGN CHOICE for a
value outside 20,000-24,000 mV, log entry 146). Where no step reaches 512 the command stays pending (DESIGN CHOICE, log entry 185). -/
def Device.vbdDone (d : Device) (counts : List Nat) : Device :=
  match d.rx.vbdRun, vbdStep counts with
  | some (since, est), some k =>
    if d.now < since + (k + 1) * (100 * us) then d
    else
      let tc := fld d.rx.vbdNow 63 32
      let v := (est - 1000 + 25 * (k : Int) - tcTerm tc d.ts).toNat
      (((d.modRx (fun r => { r with vbdRun := none })).mram true (fun d => d.modRx (fun r => r.setVbd v tc))).dirtyGroup).complete .vbdMeasure sOk Bytes.nil
  | _, _ => d

/-- RX_VBD_MEASURE_DONE (R109). -/
def execRxVbdMeasureDone (dt : Nat) (counts : List Nat) (s : State) : Host.Outcome State Fault Refusal :=
  fwRow dt (fun d => d.vbdDone counts) s

/-- Strictly rising, and strictly falling. -/
def rising : List Int → Bool
  | a :: b :: t => decide (a < b) && rising (b :: t)
  | _ => true

/-- A lens table that R107 refuses. -/
def lensBad (t : Nat) : Bool :=
  let e := fun (i : Nat) => sgn 16 (nfld t (16 * i + 15) (16 * i))
  !rising ((List.range 768).map e) || !rising ((List.range 384).map (fun r => -(e (768 + r))))

/-- `rx.lens.set` (R107): from the next frame start. -/
def cmdLensSet : Cmd :=
  { id := 0x034A, form := exactly 2304, sealed := fun _ => true
    content := fun _ p => refuse (lensBad p.val) sBadParam
    run := fun c p d =>
      let old := digest128 (d.sealedValue 2)
      let d := d.mram false (fun d => d.modRx (fun r => { r with lens := r.lens.put (.ofNat 18432 p.val), lensNext := true }))
      (((d.pendingEffect 2 true).sealChange c 0x034A 2 old).dirty, .no sOk) }

/-- RX_LENS_SET (R107). -/
def execRxLensSet (dt : Nat) (o : Origin) (s : State) : Host.Outcome State Fault Refusal := wcpRow dt o cmdLensSet noOpen s

/-! Hold-off (R110). -/

/-- A sample of the thermal guard puts T_S on the other side of -20 degC, or back. -/
def Rx.crossSample (r : Rx) (ts : Int) (now : Nat) : Rx :=
  if decide (ts < -2000) != r.cold then { r with crossSince := some (r.crossSince.getD now) }
  else { r with crossSince := none, switchDue := false }

/-- T_S has stayed on the other side of -20 degC for 1 s: the switch is due at the next group start. -/
def Device.holdoffTimer (d : Device) : Device :=
  match d.rx.crossSince with
  | some t => if t + second ≤ d.now then d.modRx (fun r => { r with switchDue := true }) else d
  | none => d

/-- HOLDOFF_AUTO_TIMER (R110). -/
def execHoldoffAutoTimer (dt : Nat) (s : State) : Host.Outcome State Fault Refusal := coreRow dt Device.holdoffTimer s

/-! The survey (R123-R126). -/

/-- This node's next calendar instant later than a local time, as a local time: device time maps onto the local clock. -/
def Device.nextCalendar (d : Device) (after : Nat) : Option Nat :=
  match d.fire.cal with
  | none => none
  | some c =>
    let e := calEntry c (d.ring.node % 32)
    let period := fld c 95 64
    if e.1 = 0xFFFFFFFF || period = 0 then none
    else
      let first : Int := (fld c 63 0 : Int) + e.1
      let devAfter : Int := (d.time.ns.toNat : Int) + ((after : Int) - d.now)
      let m : Int := if devAfter < first then 0 else (devAfter - first) / period + 1
      some ((first + m * period - d.time.ns.toNat + d.now).toNat)

/-- Passes per gap in use: half at ladder step 1 and above (Table 14-6). -/
def Device.surveyPasses (d : Device) : Nat := if 1 ≤ d.power.step then rxPasses d.rx.cfg / 2 else rxPasses d.rx.cfg

/-- No frame runs or is pending, no switchover is in progress (R392), and none starts before `len` under the CALENDAR source (R126). -/
def Device.gapRoom (d : Device) (len : Nat) : Bool :=
  d.bist.gap.isSome && d.sec.switchAt.isNone && d.fire.phase == .idle && decide (d.fire.frameEnd ≤ d.now) && d.fire.grp.isNone &&
    (d.fire.trigSrc != 2 || d.fire.fn.st != .on ||
      (match d.nextCalendar d.now with | some t => decide (d.now + len ≤ t) | none => true))

/-- A slice of row 1 runs, or one that this gap is reserved for is still to start (R362). -/
def Device.timingSlice (d : Device) : Bool :=
  d.bist.run.any (fun x => sliceRow x.num == 1) ||
    (!d.bist.gapStopped && d.sliceBarred.isNone &&
      (d.bist.waiting.find? (fun n => d.bist.reserved.contains n)).any (fun n => sliceRow n == 1))

/-- A pass starts (R123, R124): targeted passes first, up to 4 of them in a gap. -/
def Device.surveyStart (d : Device) : Device :=
  if d.rx.survey.isSome || d.timingSlice || d.surveyPasses ≤ d.rx.gapPasses || !d.gapRoom (12 * us) then d
  else if !d.rx.targets.isEmpty && d.rx.gapPasses < 4 then
    let first := d.rx.targets.take 32
    d.modRx (fun r => { r with survey := some ⟨first.map (fun p => p.1), (first.flatMap (fun p => p.2)).eraseDups, d.now⟩ })
  else
    d.modRx (fun r => { r with survey := some ⟨[], (List.range 1024).map (1024 * r.surveyPos + ·), d.now⟩ })

/-- SURVEY_PASS_START (R123). -/
def execSurveyPassStart (dt : Nat) (s : State) : Host.Outcome State Fault Refusal := coreRow dt Device.surveyStart s

/-- A SPAD's count taken into the survey (R125): above HOT_SET it is to be disabled; one that is disabled, or waits for the frame start
that disables it, stays so down to HOT_CLEAR. A SPAD a window's limit keeps enabled is not disabled, so that only a count above HOT_SET
counts for it. -/
def Rx.surveyCount (r : Rx) (i n : Nat) : Rx :=
  if bit r.mask i then r
  else
    let above := decide (rxHotSet r.cfg < n)
    let hot := above || ((bit r.dyn i || bit r.dynFresh i) && bit r.dynNext i && decide (rxHotClear r.cfg ≤ n))
    { r with
      counts := sset r.counts i n
      dynNext := if hot then setBits r.dynNext [i] else clearBits r.dynNext [i]
      dynFresh := if above then setBits r.dynFresh [i] else if hot then r.dynFresh else clearBits r.dynFresh [i] }

/-- A pass ends (R125). -/
def Device.surveyDone (d : Device) (counts : List Nat) : Device :=
  match d.rx.survey with
  | none => d
  | some run =>
    if d.now < run.startedAt + 12 * us then d
    else
      let d := d.modRx (fun r => (run.spads.zip counts).foldl (fun r p => r.surveyCount p.1 p.2) r)
      d.modRx (fun r => { r with
        survey := none, gapPasses := r.gapPasses + 1
        passCounts := if run.targets.isEmpty then (run.spads.zip counts).foldl (fun m p => sset m p.1 p.2) r.passCounts else r.passCounts
        targets := r.targets.filter (fun p => !run.targets.contains p.1)
        surveyPos := if run.targets.isEmpty then (r.surveyPos + 1) % 288 else r.surveyPos })

/-- SURVEY_PASS_DONE (R125). -/
def execSurveyPassDone (dt : Nat) (counts : List Nat) (s : State) : Host.Outcome State Fault Refusal :=
  coreRow dt (fun d => d.surveyDone counts) s

/-! Linearisation (R131). -/

/-- The tap widths of a code-density measurement in 1/16 ps: 64 taps span 2.000 ns. -/
def tapTable (codes : List Nat) : BitVec 1024 :=
  .ofNat 1024 (Config.pack 16 (codes.map (fun c => roundDiv (32000 * c) codes.sum)))

/-- A TDC's time in 31.25 ps from its tap code and the table in force (R131): whole periods of 64 taps, then the widths below the tap
code, to the nearest LSB (log entry 147). The uniform table leaves the code as it is. -/
def Rx.tapTime (r : Rx) (tdc code : Nat) : Nat :=
  match mget tdc r.lin with
  | some p => if p.ok then code / 64 * 64 + roundDiv ((List.range (code % 64)).map (fun j => fld p.v (16 * j + 15) (16 * j))).sum 500 else code
  | none => code

/-- A TDC has collected enough events, 10 s of ON time after its last table: the new one waits for a group start. -/
def Device.linUpdate (d : Device) (tdc : Nat) (codes : List Nat) : Device :=
  let on := d.rx.onTime d.now
  if d.fire.fn.st == .on && decide ((mget tdc d.rx.linAt).getD 0 + 10 * second ≤ on) && codes.length == 64 &&
      decide (65536 ≤ codes.sum) then
    d.modRx (fun r => { r with linNext := mset tdc (tapTable codes) r.linNext, linAt := mset tdc on r.linAt })
  else d

/-- LINEARISATION_UPDATE (R131). -/
def execLinearisationUpdate (dt : Nat) (tdc : Fin 1032) (codes : List Nat) (s : State) : Host.Outcome State Fault Refusal :=
  coreRow dt (fun d => d.linUpdate tdc.val codes) s

/-! Witness channels (R127, R128). -/

/-- Coincidence detection (R120) and the dead time of the TDC behind it (R130), over SPAD pulses in rising order, times in 31.25 ps: an
event is emitted at a pulse that makes k with those of the `win` before it, the detector then emits nothing for `win`, and the TDC that
accepted the event is dead for 15.625 ns. Gives the events accepted, and what the channel keeps. -/
def detect (k win : Nat) (w : WitTail) : List Nat → List Nat × WitTail
  | [] => ([], w)
  | t :: ts =>
    let near := w.seen.filter (fun u => t ≤ u + win)
    let event := decide (w.silent ≤ t) && decide (k ≤ near.length + 1)
    let taken := event && decide (w.dead ≤ t)
    let r := detect k win
      { seen := t :: near, silent := if event then t + win else w.silent, dead := if taken then t + 500 else w.dead } ts
    (if taken then t :: r.1 else r.1, r.2)

/-- SPADs of witness channel `j`'s 4 x 8 that WMASK leaves enabled (R127). -/
def witOn (wit : BitVec 320) (j i : Nat) : Bool := i < 32 && !bit wit (64 + 32 * j + i)

/-- Events a witness channel accepts from pulses (time in 31.25 ps from `start`, SPAD among its 32): `k` or fewer where fewer SPADs are
enabled; with what the channel keeps beyond the slot or interval. -/
def Rx.witEvents (r : Rx) (j k win start : Nat) (pulses : List (Nat × Nat)) : List Nat × WitTail :=
  let n := ((List.range 32).filter (witOn r.wit j)).length
  let times := ((pulses.filter (fun p => witOn r.wit j p.2)).map (fun p => start + p.1)).mergeSort (fun a b => decide (a ≤ b))
  let x := detect (min k n) win (vget r.witTail j {}) times
  if n = 0 then ([], vget r.witTail j {}) else (x.1.map (fun t => r.tapTime (1024 + j) (t - start)), x.2)

/-- Events of W0-W3 in a slot: WK pulses within WWIN. -/
def Rx.fireWitness (r : Rx) (j start : Nat) (pulses : List (Nat × Nat)) : List Nat × WitTail :=
  r.witEvents j (fld r.wit 7 5) (8 * fld r.wit 4 0) start pulses

/-- The lamp count of W(4 + m) over an interval that began at `start` (31.25 ps of the local clock): K = 1, nothing from a FIRE leading
edge until 200 ns after it (R127). -/
def Rx.lampCount (r : Rx) (m start : Nat) (pulses : List (Nat × Nat)) : Nat :=
  sat 0xFFFF ((r.witEvents (4 + m) 1 0 start pulses).1.filter (fun t =>
    !r.fireEdges.any (fun e => e ≤ start + t && decide (start + t < e + 6400)))).length

/-- Lamp witnesses whose TDCs serve as spares, and those under test: by the slice of row 1 of Table 12-2 that takes them (129 TDCs a slice),
or by a directed self-test of class 0 (R369). -/
def Rx.witSpares (r : Rx) : BitVec 4 :=
  .ofNat 4 (fields ((List.range 4).map (fun m => (m, (r.spares.any (fun p => p.2 == 1028 + m)).toNat))))
def Bist.witTested (b : Bist) : BitVec 4 := if b.run.any (fun x => x.num == 7) || b.directed.any (fun x => nbit x.1 0) then 15 else 0

/-- The counts of an interval, their validity (R128), and the next interval's start, 100 us later in device time. A step of device time
starts the intervals anew. -/
def Rx.witnessEnd (r : Rx) (tested : BitVec 4) (unusable : Nat → Bool) (now ns : Nat) (ws : List (List (Nat × Nat))) : Rx :=
  let start := 32 * (now - (ns - r.witStart))
  let c := fun (m : Nat) => r.lampCount m start (ws.getD m [])
  let bad := r.witDisturbed ||| tested ||| r.witSpares
  let v := fields ((List.range 4).map (fun m =>
    (m, (bit r.wit (8 + m) && !bit bad m && decide (c m < 0xFFFF) && !unusable (1028 + m)).toNat)))
  { r with
    witCount := ⟨#[c 0, c 1, c 2, c 3], rfl⟩, witValid := .ofNat 4 v, witTime := .ofNat 32 r.witStart
    witStart := if ns < r.witStart + 200 * us then r.witStart + 100 * us else ns
    witTail := (List.range 4).foldl (fun v m => vset v (4 + m) (r.witEvents (4 + m) 1 0 start (ws.getD m [])).2) r.witTail
    witDisturbed := tested ||| r.witSpares }

/-- A 100 us interval of device time ends (R127, R128). -/
def Device.witnessInterval (d : Device) (ws : List (List (Nat × Nat))) : Device :=
  let ns := d.time.ns.toNat
  if ns < d.rx.witStart then d.modRx (fun r => { r with witStart := ns, witDisturbed := 15 })
  else if ns < d.rx.witStart + 100 * us then d
  else d.modRx (fun r => r.witnessEnd d.bist.witTested (fun i => d.unusable 0 i) d.now ns ws)

/-- WITNESS_INTERVAL_END (R128): pulses of W4-W7 in the interval, in 31.25 ps from its start. -/
def execWitnessIntervalEnd (dt : Nat) (w4 w5 w6 w7 : List (Nat × Nat)) (s : State) : Host.Outcome State Fault Refusal :=
  coreRow dt (fun d => d.witnessInterval [w4, w5, w6, w7]) s

end Sys2Proof.Machine
end

