-- ==== Sys2Proof/Machine/Histogram.lean ====
section
/-! DEFINITION. The histogram store: planes, zoom gates, side records, export and import units, and its commands
(R137-R161). -/

namespace Sys2Proof.Machine

open Sys2Proof

/-- The histogram store changed. -/
def Device.modHist (d : Device) (f : Hist → Hist) : Device := { d with hist := f d.hist }

/-! Bins (R137, R138). -/

/-- Key of a bin. -/
def binKey (plane ch b : Nat) : Nat := (plane * 1024 + ch) * 4096 + b

/-- One count added; 0xFFFF stays (R140). -/
def incBin (bins : Sparse Nat) (k : Nat) : Sparse Nat :=
  let n := sget bins k
  if n = 0xFFFF then bins else sset bins k (n + 1)

/-- The bins of a range of keys as (offset, count). -/
def binsIn (bins : Sparse Nat) (base n : Nat) : List (Nat × Nat) :=
  (bins.filter (fun p => base ≤ p.1 && p.1 < base + n)).map (fun p => (p.1 - base, p.2))

/-- Bins without a range of keys: cleared. -/
def binsClear (bins : Sparse Nat) (base n : Nat) : Sparse Nat := bins.filter (fun p => p.1 < base || base + n ≤ p.1)

/-- `n` bins of 2 bytes from `base`. -/
def binBytes (bins : Sparse Nat) (base n : Nat) : Bytes :=
  .mk' (2 * n) (fields ((binsIn bins base n).map (fun p => (16 * p.1, p.2))))

/-- A whole plane cleared. -/
def clearPlane (bins : Sparse Nat) (plane : Nat) : Sparse Nat := binsClear bins (binKey plane 0 0) (1024 * 4096)

/-! Gate sets (Table 5-6). -/

/-- Gate set 0 (R145). -/
def gate0 : BitVec 16448 := .ofNat _ (fields [(16, 4), (8, 8), (0, 1)] + (2 ^ 16384 - 1) * 2 ^ 64)

def gtAge (g : BitVec 16448) : Nat := fld g 19 16
def gtMargin (g : BitVec 16448) : Nat := fld g 15 8
def gtTrack (g : BitVec 16448) : Bool := bit g 0
def gtStart (g : BitVec 16448) (n : Nat) : Nat := fld g (64 + 16 * n + 15) (64 + 16 * n)

/-- A gate set outside Table 5-6 (starts: a full-range bin, or 0xFFFF). -/
def gateBad (g : Nat) : Bool :=
  reservedSet g [(63, 20), (7, 1)] || outside (nfld g 19 16) 1 15 || 64 < nfld g 15 8 ||
    (List.range 1024).any (fun n => let s := nfld g (64 + 16 * n + 15) (64 + 16 * n); 4095 < s && s != 0xFFFF)

def Hist.gate (h : Hist) (i : Nat) : BitVec 16448 := (tableEntry gate0 h.gates i).getD gate0
def Hist.cfg (h : Hist) (i : Nat) : BitVec 64 := (tableEntry planecfg0 h.cfgs i).getD planecfg0

def pcFbin (c : BitVec 64) : Nat := fld c 1 0
def pcZbin (c : BitVec 64) : Nat := fld c 3 2
def pcPileup (c : BitVec 64) : Nat := fld c 14 8

/-- Gate length in full-range bins (R146). -/
def gateLen (c : BitVec 64) : Nat := 2048 / 2 ^ (pcFbin c - pcZbin c)

/-- A bin's width in 1/16 ps. -/
def binWidth16 (code : Nat) : Nat := 1000 * 2 ^ code

/-- The full-range bin of a range in cm: round trip 2 r / c (c = 299,792,458 m/s). -/
def binOfCm (cm fbin : Nat) : Nat := (2 * cm * 16 * 10 ^ 10) / (299792458 * binWidth16 fbin)

/-- The gate of a channel at a group start (R146): source and start. -/
def gateOf (h : Hist) (set : BitVec 16448) (cfg : BitVec 64) (layoutIdx stripe n : Nat) : Nat × Nat :=
  let l := gateLen cfg
  let top := 4096 - l
  let tracked := if gtTrack set then
      match mget (stripe * 256 + n % 256) h.track with
      | some t => if t.layout = layoutIdx then some t.cm else none
      | none => none
    else none
  match tracked with
  | some cm => (2, min top (binOfCm cm (pcFbin cfg) - l / 2))
  | none => if gtStart set n = 0xFFFF then (0, 0) else (1, min top (gtStart set n))

/-! Side records (Table 5-4). -/

/-- The record of a channel of the slot that has none of its own: it counts the slot's shots (R142). -/
def slotRecord (shots : Vector (Nat × Nat) 4) (ch : Nat) : SideRec :=
  let s := vget shots (ch / 256) (0, 0)
  { shotsA := s.1, shotsB := s.2 }

/-- SHOTS_A and SHOTS_B of a group's slots. -/
def Group.slotShots (g : Group) : Vector (Nat × Nat) 4 := g.slots.map (fun s => (s.firedA, s.fired - s.firedA))

/-- The record of a channel of a pair; one that is unused under the group's layout (R115) holds its slot's shots and is zero otherwise
(DESIGN CHOICE, log entry 187). -/
def Hist.sideOf (h : Hist) (pair : Bool) (ch : Nat) : SideRec :=
  match mget (pair.toNat * 1024 + ch) h.side, vget h.groups pair.toNat none with
  | some r, _ => r
  | none, some g => slotRecord g.slotShots ch
  | none, none => {}

/-- A record changed. -/
def Hist.modRec (h : Hist) (pair : Bool) (ch : Nat) (f : SideRec → SideRec) : Hist :=
  { h with side := mset (pair.toNat * 1024 + ch) (f (h.sideOf pair ch)) h.side }

/-- The channel record of Table 5-8. -/
def SideRec.exportBytes (r : SideRec) : Bytes :=
  .mk' 16 (fields [(96, r.guardA + r.guardB), (80, (r.shotsA + r.shotsB) % 2 ^ 16), (68, r.satHi), (56, r.satLo),
    (49, r.satZ.toNat), (48, r.satF.toNat), (0, r.status.toNat)])

/-- The side record an imported channel record stands for: its counters in one sub-histogram (R159, R184). -/
def SideRec.ofExport (v : Nat) : SideRec :=
  { guardA := nfld v 127 96, shotsA := nfld v 95 80, satHi := nfld v 79 68, satLo := nfld v 67 56, satZ := nbit v 49,
    satF := nbit v 48, status := .ofNat 32 v }

/-! Export units (R152-R156). -/

/-- Number of chunks of a unit (R156). -/
def ExportSet.chunks (e : ExportSet) : Nat := ceilDiv (e.chLast + 1 - e.chFirst) e.chunkCh

/-- First channel and number of channels of a chunk. -/
def ExportSet.span (e : ExportSet) (k : Nat) : Nat × Nat :=
  let first := e.chFirst + k * e.chunkCh
  (first, min e.chunkCh (e.chLast + 1 - first))

/-- The record of a channel of a unit. -/
def ExportUnit.recordOf (u : ExportUnit) (ch : Nat) : SideRec := (mget ch u.recs).getD (slotRecord u.shots ch)

/-- A chunk of a unit in a plane: header (Table 5-7), then record and bins of each channel (R155). EPOCH is the epoch in force when the chunk is enqueued
(DESIGN CHOICE, log entry 189). -/
def Device.chunkBytes (d : Device) (plane src : Nat) (u : ExportUnit) (k : Nat) : Bytes :=
  let e := d.hist.expSet
  let sp := e.span k
  let hdr := Bytes.mk' 32 (fields [(192, u.startNs.toNat), (160, u.frame % 2 ^ 32), (144, u.gen % 2 ^ 16),
    (128, d.time.epoch.toNat), (112, u.seq % 2 ^ 16), (96, k), (80, e.chunks), (67, e.binCount), (55, e.binFirst), (49, sp.2),
    (38, sp.1), (36, u.fbin), (28, u.group), (25, u.plan), (20, d.ring.node % 32), (18, src), (0, u.tag)])
  hdr.app (.cat ((List.range sp.2).map (fun i =>
    let ch := sp.1 + i
    (u.recordOf ch).exportBytes.app (binBytes d.hist.bins (binKey plane ch e.binFirst) e.binCount))))

/-- Planes 6 and 7. -/
def Hist.plane (h : Hist) (p : Nat) : XPlane := if p = 6 then h.p6 else h.p7
def Hist.setPlane (h : Hist) (p : Nat) (x : XPlane) : Hist := if p = 6 then { h with p6 := x } else { h with p7 := x }

/-- Plane 7 serves export: neither held, waiting for a hold, nor taken by import. -/
def Hist.p7Export (h : Hist) : Bool := !h.holdTaken && !h.imp.owns && h.p7.st != .held && h.p7.st != .import_

/-- Plane 7 just became FREE: a waiting hold or an enabled import takes it (R157, R159). -/
def Hist.claimP7 (h : Hist) : Hist :=
  if h.p7.st != .free then h
  else if h.hold.isSome then { h with holdTaken := true }
  else if h.imp.enabled then { h with imp := { h.imp with owns := true }, p7 := { st := .import_ } }
  else h

/-- A plane returns to FREE and is clear. -/
def Hist.freePlane (h : Hist) (p : Nat) : Hist :=
  (Hist.setPlane { h with bins := clearPlane h.bins p } p {}).claimP7

/-- The unit next in line drains once none does (R152). -/
def Hist.nextDrain (h : Hist) : Hist :=
  if h.p6.st == .draining || h.p7.st == .draining then h
  else
    let full := ([6, 7].filter (fun p => (h.plane p).st == .full)).map (fun p => (p, ((h.plane p).unit.map (fun u => u.seq)).getD 0))
    match full.mergeSort (fun a b => a.2 ≤ b.2) with
    | [] => h
    | (p, _) :: _ => h.setPlane p { h.plane p with st := .draining, chunk := 0 }

/-- The unit in a plane is abandoned by its producer: the plane is cleared, the unit counted, with E_Q_DROP (R153, R154). -/
def Device.abandonUnit (d : Device) (p reason : Nat) : Device :=
  let seq := ((d.hist.plane p).unit.map (fun u => u.seq)).getD 0
  let d := d.modHist (fun h => { (Hist.setPlane { h with bins := clearPlane h.bins p } p {}) with abandoned := h.abandoned + 1 })
  if d.hist.expSet.queue = 0xFFFF then d else d.countDrop d.hist.expSet.queue reason seq

/-- E_HIST_STATE (R161). -/
def Device.histEvent (d : Device) : Device := d.raise 0x0402 0 (d.hist.exp.word d.now (100 * us) * 2 ^ 224)

/-! Queries. -/

def PairState.code : PairState → Nat
  | .free => 0
  | .accumulating => 1
  | .handed => 2
  | .processing => 3

def PlaneState.code : PlaneState → Nat
  | .free => 0
  | .filling => 1
  | .full => 2
  | .draining => 3
  | .held => 4
  | .import_ => 5

/-- The result of `hist.status.get`. -/
def Device.histStatus (d : Device) : Bytes :=
  let h := d.hist
  words [(vget h.pairs 0 .free).code, (vget h.pairs 1 .free).code, h.p6.st.code, h.p7.st.code, h.exp.word d.now (100 * us),
    h.exported, h.abandoned, h.imported, h.impDiscarded, sat 0xFFFFFFFF h.late, h.track.length]

/-- `hist.status.get`. -/
def cmdHistStatus : Cmd := .query 0x0400 (exactly 0) (fun _ _ => none) (fun d _ => d.histStatus)

/-- HIST_STATUS_GET (R161). -/
def execHistStatusGet (dt : Nat) (o : Origin) (s : State) : Host.Outcome State Fault Refusal := wcpRow dt o cmdHistStatus noOpen s

/-- `hist.planecfg.get`. -/
def cmdPlanecfgGet : Cmd := .query 0x0401 (exactly 0) (fun _ _ => none) (fun d _ => wholeTable planecfg0 d.hist.cfgs)

/-- HIST_PLANECFG_GET (R442). -/
def execHistPlanecfgGet (dt : Nat) (o : Origin) (s : State) : Host.Outcome State Fault Refusal := wcpRow dt o cmdPlanecfgGet noOpen s

/-- `hist.gate.get`. -/
def cmdGateGet : Cmd := .query 0x0402 (exactly 4)
  (fun d p => refuse (15 < p.word 0 || (tableEntry gate0 d.hist.gates (p.word 0)).isNone) sBadParam)
  (fun d p => wBlock (d.hist.gate (p.word 0)))

/-- HIST_GATE_GET (R442). -/
def execHistGateGet (dt : Nat) (o : Origin) (s : State) : Host.Outcome State Fault Refusal := wcpRow dt o cmdGateGet noOpen s

/-- The record of a channel of the unit in plane 7. -/
def heldRecord (d : Device) (ch : Nat) : SideRec :=
  match d.hist.p7.unit with
  | some u => u.recordOf ch
  | none => {}

/-- `hist.plane.read`: record and bins of a channel of the held plane. -/
def cmdPlaneRead : Cmd :=
  { id := 0x0403, form := exactly 12
    state := fun d _ => refuse (d.hist.p7.st != .held) sBadState
    content := fun _ p => refuse (1023 < p.word 0 || 2016 < p.word 2 || 4096 < p.word 1 + p.word 2) sBadParam
    run := fun _ p d => (d, .ok
      ((heldRecord d (p.word 0)).exportBytes.app
        ((binBytes d.hist.bins (binKey 7 (p.word 0) (p.word 1)) (p.word 2)).pad 4))) }

/-- HIST_PLANE_READ (R158). -/
def execHistPlaneRead (dt : Nat) (o : Origin) (s : State) : Host.Outcome State Fault Refusal := wcpRow dt o cmdPlaneRead noOpen s

/-- A track entry of 4 bytes: range in cm, layout index, age (log entry 45). -/
def trackWord (t : Option Track) : Nat :=
  match t with
  | some x => fields [(24, x.age), (16, x.layout), (0, x.cm)]
  | none => 0xFFFF

/-- `hist.track.get`. -/
def cmdTrackGet : Cmd := .query 0x0404 (exactly 4)
  (fun _ p => refuse (47 < p.word 0) sBadParam)
  (fun d p => words ((List.range 256).map (fun w => trackWord (mget (p.word 0 * 256 + w) d.hist.track))))

/-- HIST_TRACK_GET (R161). -/
def execHistTrackGet (dt : Nat) (o : Origin) (s : State) : Host.Outcome State Fault Refusal := wcpRow dt o cmdTrackGet noOpen s

/-! Change commands. -/

/-- A plane configuration outside Table 5-2. -/
def planecfgBad (c : Nat) : Bool := reservedSet c [(63, 15), (7, 4)] || 64 < nfld c 14 8 || nfld c 1 0 < nfld c 3 2

/-- The first descriptor of a committed plan that would fail R73 under a configuration of its index (R139). -/
def Device.planecfgBreaks (d : Device) (i : Nat) (c : BitVec 64) : Option (Nat × Nat) :=
  ((List.range 8).filter (fun p => vget d.fire.committed p false)).findSome? (fun p =>
    ((d.fire.descs p).zipIdx.find? (fun x => descPlanecfg x.1 == i && decide (descPeriod x.1 < minPeriod x.1 c))).map
      (fun x => (p, x.2)))

/-- `hist.planecfg.set` (R139). -/
def cmdPlanecfgSet : Cmd :=
  { id := 0x0440, form := exactly 12
    content := fun d p =>
      if outside (p.word 0) 1 15 || planecfgBad (p.slice 4 8).val then some (sBadParam, Bytes.nil)
      else (d.planecfgBreaks (p.word 0) (.ofNat 64 (p.slice 4 8).val)).map (fun x => (sBadParam, words [x.1, x.2]))
    run := fun _ p d =>
      ((d.modHist (fun h => { h with cfgsNext := mset (p.word 0) (.ofNat 64 (p.slice 4 8).val) h.cfgsNext })).dirty, .no sOk) }

/-- HIST_PLANECFG_SET (R139). -/
def execHistPlanecfgSet (dt : Nat) (o : Origin) (s : State) : Host.Outcome State Fault Refusal := wcpRow dt o cmdPlanecfgSet noOpen s

/-- `hist.gate.set` (R145). -/
def cmdGateSet : Cmd :=
  { id := 0x0441, form := exactly 2060
    content := fun _ p => refuse (outside (p.word 0) 1 15 || gateBad (p.slice 4 2056).val) sBadParam
    run := fun _ p d =>
      ((d.modHist (fun h => { h with gatesNext := mset (p.word 0) (.ofNat 16448 (p.slice 4 2056).val) h.gatesNext })).dirty,
       .no sOk) }

/-- HIST_GATE_SET (R145). -/
def execHistGateSet (dt : Nat) (o : Origin) (s : State) : Host.Outcome State Fault Refusal := wcpRow dt o cmdGateSet noOpen s

/-- Settings outside R156. -/
def exportBad (p : Bytes) : Bool :=
  1023 < p.word 2 || p.word 2 < p.word 1 || p.word 3 % 16 != 0 || p.word 4 % 16 != 0 || outside (p.word 4) 16 4096 ||
    4096 < p.word 3 + p.word 4 || outside (p.word 5) 1 32

/-- `hist.export.set` (R155, R156): queue (0xFFFF none), channels, bins, CHUNK_CH. -/
def cmdExportSet : Cmd :=
  { id := 0x0442, form := exactly 24
    state := fun d _ => refuse (d.hist.exp.st != .off) sBadState
    content := fun d p => refuse (exportBad p || (p.word 0 != 0xFFFF && d.bindFails (p.word 0) 0x02 .hexport)) sBadParam
    run := fun _ p d =>
      ((d.bind .hexport d.hist.expSet.queue (p.word 0)).modHist (fun h => { h with expSet :=
        { queue := p.word 0, chFirst := p.word 1, chLast := p.word 2, binFirst := p.word 3, binCount := p.word 4, chunkCh := p.word 5 } }),
       .no sOk) }

/-- HIST_EXPORT_SET (R156). -/
def execHistExportSet (dt : Nat) (o : Origin) (s : State) : Host.Outcome State Fault Refusal := wcpRow dt o cmdExportSet noOpen s

/-- The export function starts: ON at once while the firing controller is OFF, else at the next group start (R154). -/
def Device.exportStart (d : Device) : Device :=
  if d.fire.isOff then (d.reachOn .hexport).histEvent else d.histEvent

/-- `hist.export.enable` (R154). -/
def cmdExportEnable : Cmd :=
  { id := 0x0443, form := exactly 0, run := fun _ _ d => d.enableFn .hexport (!d.fire.isOff) Device.exportStart }

/-- HIST_EXPORT_ENABLE (R154). -/
def execHistExportEnable (dt : Nat) (o : Origin) (s : State) : Host.Outcome State Fault Refusal := wcpRow dt o cmdExportEnable noOpen s

/-- The export function stops (R154): FILLING and FULL units are discarded; the DRAINING one completes, within 100 ms. -/
def Device.exportStop (d : Device) : Device :=
  let drop := fun (d : Device) (p : Nat) =>
    if ((d.hist.plane p).st == .filling && !(p == 7 && d.hist.holdTaken)) || (d.hist.plane p).st == .full then
      (d.abandonUnit p 6).modHist Hist.claimP7
    else d
  let d := drop (drop d 6) 7
  let draining := d.hist.p6.st == .draining || d.hist.p7.st == .draining
  (d.beginStop .hexport (if draining then 100 * ms else 0)).histEvent

/-- `hist.export.disable` (R154). -/
def cmdExportDisable : Cmd :=
  { id := 0x0444, form := exactly 0, run := fun _ _ d => d.disableFn .hexport true Device.exportStop }

/-- HIST_EXPORT_DISABLE (R154). -/
def execHistExportDisable (dt : Nat) (o : Origin) (s : State) : Host.Outcome State Fault Refusal := wcpRow dt o cmdExportDisable noOpen s

/-- STOPPING ends: OFF with the minimum off time of 100 us. -/
def Device.exportOff (d : Device) : Device := (d.reachOff .hexport (100 * us)).histEvent

/-- 100 ms into STOPPING, or with nothing draining: any rest is abandoned (R154). -/
def Device.exportTimeout (d : Device) : Device :=
  if d.hist.exp.st == .stopping && decide (d.hist.exp.stopBy ≤ d.now) then
    let drop := fun (d : Device) (p : Nat) => if (d.hist.plane p).st == .draining then (d.abandonUnit p 6).modHist Hist.claimP7 else d
    (drop (drop d 6) 7).exportOff
  else d

/-- EXPORT_STOP_TIMEOUT (R154). -/
def execExportStopTimeout (dt : Nat) (s : State) : Host.Outcome State Fault Refusal := coreRow dt Device.exportTimeout s

/-- A hold in place: waiting or captured (R157). -/
def Hist.holding (h : Hist) : Bool := h.hold.isSome || h.holdTaken || h.p7.st == .held

/-- `hist.plane.hold` (R157). -/
def cmdPlaneHold : Cmd :=
  { id := 0x0445, form := exactly 4
    state := fun d _ => refuse (d.hist.holding || d.hist.imp.enabled) sBadState
    content := fun _ p => refuse (255 < p.word 0) sBadParam
    run := fun _ p d => ((d.serveBank 3 true).modHist (fun h => Hist.claimP7 { h with hold := some (p.word 0, d.now) }), .pend .hold) }

/-- HIST_PLANE_HOLD (R157). -/
def execHistPlaneHold (dt : Nat) (o : Origin) (s : State) : Host.Outcome State Fault Refusal := wcpRow dt o cmdPlaneHold noOpen s

/-- A hold not captured within 10 s completes S_BAD_STATE, and plane 7 returns to export use (R157). -/
def Device.holdTimeout (d : Device) : Device :=
  match d.hist.hold with
  | some (_, since) =>
    if since + 10 * second ≤ d.now && !(d.hist.holdTaken && d.hist.p7.st == .filling) then
      (d.modHist (fun h => { h with hold := none, holdTaken := false })).complete .hold sBadState Bytes.nil
    else d
  | none => d

/-- PLANE_HOLD_TIMEOUT (R157). -/
def execPlaneHoldTimeout (dt : Nat) (s : State) : Host.Outcome State Fault Refusal := coreRow dt Device.holdTimeout s

/-- `hist.plane.release` (R158): S_BAD_STATE with no plane held. A send in progress ends with it, S_BAD_STATE (DESIGN CHOICE, log entry
190). -/
def cmdPlaneRelease : Cmd :=
  { id := 0x0446, form := exactly 0
    state := fun d _ => refuse (d.hist.p7.st != .held) sBadState
    run := fun _ _ d =>
      let d := if d.hist.p7.sending then d.complete .send sBadState Bytes.nil else d
      (d.modHist (fun h => h.freePlane 7), .no sOk) }

/-- HIST_PLANE_RELEASE (R158). -/
def execHistPlaneRelease (dt : Nat) (o : Origin) (s : State) : Host.Outcome State Fault Refusal := wcpRow dt o cmdPlaneRelease noOpen s

/-- `hist.plane.send` (R158): one unit with SRC 1 over the export range and queue; S_BAD_STATE while a send runs or with no export queue
(DESIGN CHOICE, log entry 190). -/
def cmdPlaneSend : Cmd :=
  { id := 0x0447, form := exactly 0
    state := fun d _ => refuse (d.hist.p7.st != .held || d.hist.p7.sending || d.hist.expSet.queue == 0xFFFF) sBadState
    run := fun _ _ d =>
      (d.modHist (fun h => { h with
        p7 := { h.p7 with sending := true, chunk := 0, unit := h.p7.unit.map (fun u => { u with seq := h.unitSeq }) }
        unitSeq := h.unitSeq + 1 }), .pend .send) }

/-- HIST_PLANE_SEND (R158). -/
def execHistPlaneSend (dt : Nat) (o : Origin) (s : State) : Host.Outcome State Fault Refusal := wcpRow dt o cmdPlaneSend noOpen s

/-- Import settings that R159 and R251 refuse. -/
def Device.importBad (d : Device) (p : Bytes) : Bool :=
  1 < p.word 3 || (31 < p.word 1 && p.word 1 != 0xFF) ||
    (if p.word 0 = 0xFFFF then p.word 3 == 1 else d.consumeFails (p.word 0) 0x02 .impIn) ||
    (if p.word 2 = 0xFFFF then p.word 3 == 1 else d.bindFails (p.word 2) 0x01 .impPoints)

/-- Import set, enabled or disabled (R159): disabling gives plane 7 back and discards a unit in it. -/
def Hist.setImport (h : Hist) (queue source points : Nat) (on : Bool) : Hist :=
  if on then
    Hist.claimP7 { h with imp := { h.imp with enabled := true, queue, source, points } }
  else
    let h' : Hist := { h with imp := { enabled := false, queue, source, points } }
    if h.imp.owns then h'.freePlane 7 else h'

/-- `hist.import.set` (R159): queue, source node, points queue, enable. -/
def cmdImportSet : Cmd :=
  { id := 0x0448, form := exactly 16
    state := fun d _ => refuse d.hist.holding sBadState
    content := fun d p => refuse (d.importBad p) sBadParam
    run := fun _ p d =>
      let d := (d.bind .impIn d.hist.imp.queue (p.word 0)).bind .impPoints d.hist.imp.points (p.word 2)
      ((d.serveBank 3 true).modHist (fun h => h.setImport (p.word 0) (p.word 1) (p.word 2) (p.word 3 == 1)), .no sOk) }

/-- HIST_IMPORT_SET (R159). -/
def execHistImportSet (dt : Nat) (o : Origin) (s : State) : Host.Outcome State Fault Refusal := wcpRow dt o cmdImportSet noOpen s

/-- `hist.track.clear` (R147). -/
def cmdTrackClear : Cmd :=
  { id := 0x0449, form := exactly 0, run := fun _ _ d => (d.modHist (fun h => { h with clearNext := true }), .no sOk) }

/-- HIST_TRACK_CLEAR (R147). -/
def execHistTrackClear (dt : Nat) (o : Origin) (s : State) : Host.Outcome State Fault Refusal := wcpRow dt o cmdTrackClear noOpen s

/-! Event words (R133, R140). -/

/-- One event word of a channel counted into the pair it names, with the group's gates (R140, R148). A pair already handed
over discards it as late (R143). -/
def Hist.accumulate (h : Hist) (ch : Nat) (w : Word) : Hist :=
  let pair := bit w 31
  let ab := (bit w 30).toNat
  let time := fld w 15 0
  match vget h.pairs pair.toNat .free, vget h.groups pair.toNat none with
  | .accumulating, some g =>
    let cfg := g.planecfg
    let base := 2 * pair.toNat
    let bins := incBin h.bins (binKey (base + ab) ch (time / 2 ^ binShift (pcFbin cfg)))
    let r := h.sideOf pair ch
    let rel := time - r.gateStart * 2 ^ binShift (pcFbin cfg)
    let z := rel / 2 ^ binShift (pcZbin cfg)
    let hit := descZoom g.desc && r.gateSrc != 0 && r.gateStart * 2 ^ binShift (pcFbin cfg) ≤ time && z < 2048
    { h with bins := if hit then incBin bins (binKey (4 + pair.toNat) ch (z + 2048 * ab)) else bins }
  | _, _ => { h with late := h.late + 1 }

/-- The oldest word in a channel's X2 queue counted. -/
def Hist.takeWord (h : Hist) (ch : Nat) : Hist :=
  match (mget ch h.x2).getD [] with
  | [] => h
  | w :: rest => Hist.accumulate { h with x2 := if rest.isEmpty then mdel ch h.x2 else mset ch rest h.x2 } ch w

/-- EVENT_WORD_ACCUMULATE (R140). -/
def execEventWordAccumulate (dt : Nat) (ch : Fin 1024) (s : State) : Host.Outcome State Fault Refusal :=
  coreRow dt (fun d => d.modHist (fun h => h.takeWord ch.val)) s

end Sys2Proof.Machine
end

