-- ==== Sys2Proof/Machine/Signal.lean ====
section
/-! DEFINITION. From bins to returns: background, matched filter, candidates, measurement, the tests and the selection
(R165-R178), over one channel's bins. Counts are carried to 1/16, times to exact fractions of 1/16 ps. -/

namespace Sys2Proof.Machine

open Sys2Proof

/-! Template sets (Table 6-1). -/

/-- Template set 0 (R163). -/
def template0 : BitVec 512 := .ofNat _
  (fields ([(68, 7), (64, 7), (56, 96), (48, 64), (40, 8), (32, 6), (16, 32), (8, 80), (3, 3), (2, 1)] ++
    (([16, 96, 255, 176, 64, 16] : List Nat).zipIdx.map (fun p => (256 + 8 * (5 + p.2), p.1))) ++
    (([8, 24, 56, 104, 160, 212, 244, 255, 244, 212, 160, 104, 56, 24, 8] : List Nat).zipIdx.map
      (fun p => (384 + 8 * p.2, p.1)))))

def tsTapF (t : BitVec 512) (k : Nat) : Nat := fld t (263 + 8 * k) (256 + 8 * k)
def tsTapZ (t : BitVec 512) (k : Nat) : Nat := fld t (391 + 8 * k) (384 + 8 * k)
def tsZref (t : BitVec 512) : Nat := fld t 71 68
def tsFref (t : BitVec 512) : Nat := fld t 67 64
def tsLowsnr (t : BitVec 512) : Nat := fld t 63 56
def tsAbZ (t : BitVec 512) : Nat := fld t 55 48
def tsAbDbin (t : BitVec 512) : Nat := fld t 47 40
def tsMinSep (t : BitVec 512) : Nat := fld t 39 32
def tsOffset (t : BitVec 512) : Nat := fld t 31 16
def tsK (t : BitVec 512) : Nat := fld t 15 8
def tsNret (t : BitVec 512) : Nat := fld t 4 3
def tsDefer (t : BitVec 512) : Bool := bit t 2
def tsPolicy (t : BitVec 512) : Nat := fld t 1 0

/-- A set R164 refuses. -/
def templateBad (t : BitVec 512) : Bool :=
  let top := fun (tap : Nat → Nat) (r : Nat) => tap r == 0 || (List.range 16).any (fun k => decide (tap r < tap k))
  reservedSet t.toNat [(255, 72), (7, 5)] || top (tsTapF t) (tsFref t) || top (tsTapZ t) (tsZref t) ||
    outside (tsK t) 16 255 || outside (tsMinSep t) 2 64

/-! The return configuration (Table 6-8). -/

def rcWinRange (c : BitVec 256) : Nat := fld c 223 208
def rcWinRatio (c : BitVec 256) : Nat := fld c 207 200
def rcWinFrames (c : BitVec 256) : Nat := fld c 199 192
def rcBlank (c : BitVec 256) : Nat := fld c 191 176
def rcImport (c : BitVec 256) : Nat := fld c 175 172
def rcPed (c : BitVec 256) : Nat := fld c 167 160
def rcRainRmax (c : BitVec 256) : Nat := fld c 159 144
def rcRainImax (c : BitVec 256) : Nat := fld c 143 132
def rcRainNb (c : BitVec 256) : Nat := fld c 131 128
def rcRainDr (c : BitVec 256) : Nat := fld c 127 112
def rcRainDt (c : BitVec 256) : Nat := fld c 111 96
def rcEmpty (c : BitVec 256) : Bool := bit c 3
def rcBlankDrop (c : BitVec 256) : Bool := bit c 2
def rcIntf (c : BitVec 256) : Bool := bit c 1
def rcRain (c : BitVec 256) : Bool := bit c 0

/-- A configuration outside Table 6-8. -/
def retCfgBad (c : Nat) : Bool :=
  reservedSet c [(255, 224), (171, 168), (95, 4)] || 2000 < nfld c 223 208 || nfld c 199 192 == 0 || 5000 < nfld c 191 176 ||
    8 < nfld c 131 128

/-! One sub-histogram with its background (R165). -/

/-- A sub-histogram: counts by bin (rising), guard count, shots, and whether the cap correction applies. -/
structure Sub2 where
  bins : List (Nat × Nat)
  guard : Nat
  shots : Nat
  capped : Bool

/-- Counts of a bin. -/
def Sub2.at_ (x : Sub2) (i : Nat) : Nat := (mget i x.bins).getD 0

/-- SURV_X(i) in 2^-32 (R165): 1 without capping; else the table interpolated at D; 0 above D = 16. A sub-histogram without
shots has no D: a free value (log entry 46). -/
def Sub2.surv (x : Sub2) (fbin i : Nat) : Nat :=
  if !x.capped then 2 ^ 32
  else if x.shots = 0 then Config.survNoShots x.guard
  else
    let num := x.guard * i * 2 ^ fbin
    let den := x.shots * 512
    let k := num / den
    if 64 < k || (k = 64 && num % den != 0) then 0
    else (Config.surv k * (den - num % den) + Config.surv (k + 1) * (num % den)) / den

/-- b_X(i) in 2^-43 counts (R165): GUARD x w / 128 ns x SURV. -/
def Sub2.bg (x : Sub2) (fbin i : Nat) : Nat := x.guard * 2 ^ fbin * x.surv fbin i

/-- A background in 1/16 count. -/
def bg16 (b : Nat) : Nat := roundDiv b (2 ^ 39)

/-- What the filters run over: counts and backgrounds by bin, over `len` bins. -/
structure Plane where
  len : Nat
  count : Nat → Nat
  bg : Nat → Nat
  /-- Background taken off, in 1/16 count. -/
  off : Nat → Nat
  /-- Bins with counts. -/
  filled : List Nat

/-- n(i) in 1/16 count, 0 outside the plane (R165, R166). -/
def Plane.net (p : Plane) (i : Int) : Int :=
  if 0 ≤ i ∧ i < p.len then (16 * p.count i.toNat : Int) - p.off i.toNat else 0

/-- b(i) in 2^-43 counts, 0 outside. -/
def Plane.back (p : Plane) (i : Int) : Nat := if 0 ≤ i ∧ i < p.len then p.bg i.toNat else 0

/-- A template: taps and reference tap. -/
structure Template where
  tap : Nat → Nat
  ref : Nat

/-- f(i) in 1/(16 TAP[REF]) counts (R166). -/
def Plane.f (p : Plane) (t : Template) (i : Int) : Int :=
  ((List.range 16).map (fun k => if t.tap k = 0 then 0 else (t.tap k : Int) * p.net (i + k - t.ref))).sum

/-- TAP[REF]^2 x sigma_f(i)^2 in 2^-43, floored at sigma 0.25 (R166). -/
def Plane.var (p : Plane) (t : Template) (i : Int) : Nat :=
  max (t.tap t.ref ^ 2 * 2 ^ 39) ((List.range 16).map (fun k => t.tap k ^ 2 * p.back (i + k - t.ref))).sum

/-- f(i) - OFFSET in 1/(16 TAP[REF]) counts. -/
def Plane.above (p : Plane) (t : Template) (offset : Nat) (i : Int) : Int := p.f t i - offset * t.tap t.ref

/-- Z(i) >= z / 16, for z above 0 (R166). -/
def Plane.zAtLeast (p : Plane) (t : Template) (offset z : Nat) (i : Int) : Bool :=
  let g := p.above t offset i
  decide (0 < g) && decide (z ^ 2 * p.var t i ≤ g.toNat ^ 2 * 2 ^ 43)

/-- Bins at which the filter can be above 0: within the taps' reach of a bin with counts. -/
def Plane.reach (p : Plane) (t : Template) : List Nat :=
  (p.filled.foldl (fun (acc : Nat × List Nat) j =>
    let first := max acc.1 (j + t.ref - 15)
    let last := min (j + t.ref + 1) p.len
    (max last acc.1, (List.range (last - first)).reverse.map (first + ·) ++ acc.2)) (0, [])).2.reverse

/-- The largest f within MIN_SEP bins, the earlier of a tie (R167). -/
def Plane.isPeak (p : Plane) (t : Template) (sep i : Nat) : Bool :=
  let f := p.f t i
  (List.range sep).all (fun k =>
    (i < k + 1 || decide (p.f t ((i : Int) - (k + 1)) < f)) && (p.len ≤ i + k + 1 || decide (p.f t (i + k + 1) ≤ f)))

/-- Candidates (R167): bin and f, largest f first, the earlier bin first among equals. -/
def Plane.peaks (p : Plane) (t : Template) (offset k sep : Nat) : List (Nat × Int) :=
  let found := ((p.reach t).filter (fun (i : Nat) => p.zAtLeast t offset k i && p.isPeak t sep i)).map (fun (i : Nat) => (i, p.f t i))
  found.mergeSort (fun a b => b.2 < a.2 || (a.2 == b.2 && a.1 ≤ b.1))

/-- Steps in one direction while f stays at or above half of `top`; the last bin reached. -/
def Plane.run (p : Plane) (t : Template) (top : Int) (up : Bool) (i : Nat) : Nat → Nat
  | 0 => i
  | n + 1 =>
    if up then (if i + 1 < p.len ∧ top ≤ 2 * p.f t (i + 1) then p.run t top up (i + 1) n else i)
    else (if 0 < i ∧ top ≤ 2 * p.f t ((i : Int) - 1) then p.run t top up (i - 1) n else i)

/-- The extent of a candidate (R167). -/
def Plane.extent (p : Plane) (t : Template) (i : Nat) : Nat × Nat :=
  let top := p.f t i
  (p.run t top false i p.len - 2, min (p.len - 1) (p.run t top true i p.len + 2))

/-- The bins of an extent. -/
def span (e : Nat × Nat) : List Nat := (List.range (e.2 + 1 - e.1)).map (e.1 + ·)

/-- Three-point interpolation (R168), clamped to one half. -/
def delta (l m r : Int) : Rat :=
  let den := l - 2 * m + r
  if 0 ≤ den then 0 else max (-1 / 2) (min (1 / 2) (mkRat (-(l - r)) (2 * (-den)).toNat))

/-- The same at bin i of a plane: 0 at either end. -/
def Plane.delta (p : Plane) (t : Template) (i : Nat) : Rat :=
  if i = 0 || i + 1 = p.len then 0
  else Sys2Proof.Machine.delta (p.f t ((i : Int) - 1)) (p.f t i) (p.f t (i + 1))

/-- The earliest bin of a list with the largest value. -/
def argMax (f : Nat → Int) : List Nat → Option Nat
  | [] => none
  | i :: t => match argMax f t with
    | none => some i
    | some j => if f i < f j then some j else some i

/-! Half-maximum crossings, linear between bin centres. -/

/-- The crossing before bin i of half of `top` (in bins, centres at whole numbers), walking back while the count stays at or
above it. -/
def Plane.lead (p : Plane) (top : Int) (i : Nat) : Nat → Rat
  | 0 => 0
  | n + 1 =>
    if i = 0 then 0
    else
      let lo := p.net ((i : Int) - 1)
      if top ≤ 2 * lo then p.lead top (i - 1) n
      else (i - 1 : Nat) + mkRat (top - 2 * lo) (2 * (p.net i - lo)).toNat

/-- The crossing after bin i. -/
def Plane.trail (p : Plane) (top : Int) (i : Nat) : Nat → Rat
  | 0 => i
  | n + 1 =>
    if p.len ≤ i + 1 then (i : Nat)
    else
      let hi := p.net (i + 1)
      if top ≤ 2 * hi then p.trail top (i + 1) n
      else (i : Nat) + mkRat (2 * p.net i - top) (2 * (p.net i - hi)).toNat

/-- The leading half-maximum of a template before its reference tap, in taps (R170). -/
def Template.lead (t : Template) : Nat → Rat
  | 0 => mkRat (t.tap t.ref) (2 * t.tap 0) - 1
  | k + 1 =>
    let top := t.tap t.ref
    if top ≤ 2 * t.tap k then t.lead k
    else (k : Nat) + mkRat ((top : Int) - 2 * t.tap k) (2 * (t.tap (k + 1) - t.tap k))

/-- RISE in taps: from the template's leading half-maximum to its peak (R170). -/
def Template.rise (t : Template) : Rat := (t.ref : Nat) - t.lead t.ref

/-- Round to the nearest integer, halves up (log entry 13). -/
def roundRat (x : Rat) : Int := (x + 1 / 2).floor

/-! A channel's input and its candidates. -/

/-- The inputs of R162 for one channel: sub-histograms A and B (an imported unit's sum in A), the zoom bins, the gate, and what
the side record and the group hold. -/
structure ChanIn where
  ch : Nat
  a : Sub2
  b : Sub2
  zoom : List (Nat × Nat)
  gateSrc : Nat
  gateStart : Nat
  cfg : BitVec 64
  tmpl : BitVec 512
  margin : Nat
  status : BitVec 32
  /-- An imported unit (R184). -/
  imported : Bool
  /-- A saturated bin lies within a stretch of an imported plane: its recorded range (Table 5-8). -/
  satRange : Option (Nat × Nat)

def ChanIn.tf (c : ChanIn) : Template := ⟨tsTapF c.tmpl, tsFref c.tmpl⟩
def ChanIn.tz (c : ChanIn) : Template := ⟨tsTapZ c.tmpl, tsZref c.tmpl⟩

/-- A plane of one sub-histogram, and of both. -/
def ChanIn.planeOf (c : ChanIn) (x : Sub2) : Plane :=
  { len := 4096, count := x.at_, bg := x.bg (pcFbin c.cfg), off := fun i => bg16 (x.bg (pcFbin c.cfg) i)
    filled := x.bins.map (fun p => p.1) }
def ChanIn.full (c : ChanIn) : Plane :=
  { len := 4096, count := fun i => c.a.at_ i + c.b.at_ i
    bg := fun i => c.a.bg (pcFbin c.cfg) i + c.b.bg (pcFbin c.cfg) i
    off := fun i => bg16 (c.a.bg (pcFbin c.cfg) i) + bg16 (c.b.bg (pcFbin c.cfg) i)
    filled := ((c.a.bins.map (fun p => p.1)) ++ (c.b.bins.map (fun p => p.1))).mergeSort.eraseDups }

/-- The zoom sum: bins j and j + 2,048 added, background b x w_z / w_f (R171). -/
def ChanIn.zoomPlane (c : ChanIn) : Plane :=
  let sh := pcFbin c.cfg - pcZbin c.cfg
  { len := 2048, count := fun j => (mget j c.zoom).getD 0 + (mget (j + 2048) c.zoom).getD 0
    bg := fun j => c.full.bg (c.gateStart + j / 2 ^ sh) / 2 ^ sh
    off := fun j => bg16 (c.full.bg (c.gateStart + j / 2 ^ sh) / 2 ^ sh), filled := [] }

/-- A bin of a parity with `shots` shots is saturated (R151). -/
def saturated (cfg : BitVec 64) (shots n : Nat) : Bool :=
  n == 0xFFFF || (pcPileup cfg != 0 && decide (max 1 (ceilDiv (pcPileup cfg * shots) 64) ≤ n))

/-- A full-range bin carries a saturation mark. -/
def ChanIn.satF (c : ChanIn) (i : Nat) : Bool :=
  if c.imported then (match c.satRange with | some r => decide (r.1 ≤ i ∧ i ≤ r.2) | none => false)
  else saturated c.cfg c.a.shots (c.a.at_ i) || saturated c.cfg c.b.shots (c.b.at_ i)

/-- A zoom bin pair carries one. -/
def ChanIn.satZ (c : ChanIn) (j : Nat) : Bool :=
  saturated c.cfg c.a.shots ((mget j c.zoom).getD 0) || saturated c.cfg c.b.shots ((mget (j + 2048) c.zoom).getD 0)

/-- A measured candidate. -/
structure Cand where
  bin : Nat
  f : Int
  ext : Nat × Nat
  /-- Peak time in 1/16 ps and the bin width code it was measured with. -/
  t : Rat
  code : Nat
  zoom : Bool
  split : Bool
  sat : Bool
  lowsnr : Bool
  /-- S in 1/16 count, I, WIDTH, CONF. -/
  s : Int
  intensity : Nat
  width : Nat
  conf : Nat
  abFail : Bool
  intf : Bool
  /-- RANGE in mm, and the marks that follow from it. -/
  range : Nat := 0
  walk : Bool := false
  blanked : Bool := false
  rain : Bool := false

/-- Confidence: min(255, round(16 Z)) (R172). -/
def Plane.conf (p : Plane) (t : Template) (offset : Nat) (i : Nat) : Nat :=
  let g := (p.above t offset i).toNat
  let v := p.var t i
  ((List.range 256).reverse.find? (fun n => n == 0 || decide ((2 * n - 1) ^ 2 * v ≤ 4 * g ^ 2 * 2 ^ 43))).getD 0

/-- Width at half maximum around a peak, in 1/8 bin, saturating (R172). -/
def Plane.width (p : Plane) (i : Nat) : Nat :=
  let top := p.net i
  if top ≤ 0 then 0 else min 255 (roundRat (8 * (p.trail top i p.len - p.lead top i p.len))).toNat

/-- Peak time in bins from the plane's start: interpolated, or for a saturated one leading half-maximum plus RISE (R168,
R170). -/
def Plane.peakTime (p : Plane) (t : Template) (i : Nat) (sat : Bool) : Rat :=
  if sat then p.lead (p.net i) i p.len + t.rise + 1 / 2 else (i : Nat) + 1 / 2 + p.delta t i

/-- The zoom result of a candidate whose peak lies in the gate span (R171, R149): the zoom bin, or none where it is refused. -/
def ChanIn.zoomPeak (c : ChanIn) (ext : Nat × Nat) : Option Nat :=
  let z := c.zoomPlane
  let r := 2 ^ (pcFbin c.cfg - pcZbin c.cfg)
  let lo := (ext.1 - c.gateStart) * r
  let hi := min 2048 ((ext.2 + 1 - c.gateStart) * r)
  match argMax (fun j => z.f c.tz j) ((List.range (hi - lo)).map (lo + ·)) with
  | none => none
  | some j =>
    if z.zAtLeast c.tz (tsOffset c.tmpl) (tsK c.tmpl) j && decide (c.margin ≤ j ∧ j + c.margin < 2048) &&
      decide (c.gateStart ≤ ext.1 ∧ ext.2 < c.gateStart + gateLen c.cfg) then some j else none

/-- Intensity (R172). -/
def intensityOf (s : Int) (shots : Nat) : Nat :=
  if shots = 0 then (Config.intensityNoShots s.toNat).toNat
  else min 4095 (roundInt (s * 1024) (16 * shots)).toNat

/-- The A/B figures of a candidate (R173): `(positions differ, 16^2 (r_A - r_B)^2, sigma_AB^2)`. -/
def ChanIn.abFigures (c : ChanIn) (ext : Nat × Nat) : Bool × Rat × Rat :=
  let e := span ext
  let pa := c.planeOf c.a
  let pb := c.planeOf c.b
  let pos := fun (p : Plane) => match argMax (fun i => p.f c.tf i) e with
    | some i => (i : Nat) + p.delta c.tf i
    | none => 0
  let net := fun (p : Plane) => (e.map (fun i => p.net i)).sum
  let tot := fun (x : Sub2) => (e.map x.at_).sum
  let d := mkRat (net pa) c.a.shots - mkRat (net pb) c.b.shots
  let apart := pos pa - pos pb
  (decide (mkRat (tsAbDbin c.tmpl) 8 < (if apart < 0 then -apart else apart)), d * d,
    mkRat (tot c.a) (c.a.shots ^ 2) + mkRat (tot c.b) (c.b.shots ^ 2))

/-- The pedestal test fails (R174): the mean net count of up to 32 bins on either side, outside the extents of other
candidates, exceeds its limit. -/
def ChanIn.pedestal (c : ChanIn) (ped : Nat) (ext : Nat × Nat) (others : List (Nat × Nat)) : Bool :=
  let near : List Int := (List.range 32).map (fun (k : Nat) => (ext.1 : Int) - 1 - k) ++ (List.range 32).map (fun (k : Nat) => (ext.2 : Int) + 1 + k)
  let use := near.filter (fun (i : Int) => decide (0 ≤ i ∧ i < 4096) && others.all (fun (o : Nat × Nat) => decide (i < (o.1 : Int) ∨ (o.2 : Int) < i)))
  let p := c.full
  let m := use.length
  let n := (use.map p.net).sum
  let b := max (mkRat (use.map p.back).sum (m * 2 ^ 43)) (1 / 16)
  m != 0 && decide (0 < n) &&
    decide (mkRat (ped ^ 2) 256 * b / (m : Nat) < mkRat n (16 * m) * mkRat n (16 * m))

/-- One candidate measured, and its A/B and interference tests (R168-R174). -/
def ChanIn.measure (c : ChanIn) (rc : BitVec 256) (others : List (Nat × Nat)) (peak : Nat × Int) : Cand :=
  let p := c.full
  let ext := p.extent c.tf peak.1
  let inGate := c.gateSrc != 0 && !c.imported && decide (c.gateStart ≤ peak.1 ∧ peak.1 < c.gateStart + gateLen c.cfg)
  let z := if inGate then c.zoomPeak ext else none
  let fb := pcFbin c.cfg
  let zb := pcZbin c.cfg
  let satFull := (span ext).any c.satF
  let r := 2 ^ (fb - zb)
  let satZoom := ((List.range ((ext.2 + 1 - ext.1) * r)).map ((ext.1 - c.gateStart) * r + ·)).any c.satZ
  let s := ((span ext).map (fun i => p.net i)).sum
  let ab := c.abFigures ext
  let few := c.a.shots < 16 || c.b.shots < 16
  let lim := mkRat (tsAbZ c.tmpl ^ 2) 1 * ab.2.2
  let base : Cand :=
    { bin := peak.1, f := peak.2, ext, t := p.peakTime c.tf peak.1 satFull * (binWidth16 fb : Nat), code := fb, zoom := false
      split := inGate, sat := satFull, lowsnr := !p.zAtLeast c.tf (tsOffset c.tmpl) (tsLowsnr c.tmpl) peak.1, s
      intensity := intensityOf s (c.a.shots + c.b.shots), width := p.width peak.1
      conf := p.conf c.tf (tsOffset c.tmpl) peak.1
      abFail := !c.imported && (few || ab.1 || decide (lim < ab.2.1))
      intf := rcIntf rc && ((!c.imported && !few && decide (16 * lim < ab.2.1)) || c.pedestal (rcPed rc) ext others) }
  match z with
  | none => base
  | some j =>
    { base with
      t := (c.gateStart * binWidth16 fb : Nat) + c.zoomPlane.peakTime c.tz j satZoom * (binWidth16 zb : Nat)
      code := zb, zoom := true, split := false, sat := satZoom, width := c.zoomPlane.width j }

/-- A channel's candidates, at most 16, and how many were beyond (R167). -/
def ChanIn.candidates (c : ChanIn) (rc : BitVec 256) : List Cand × Nat :=
  let all := c.full.peaks c.tf (tsOffset c.tmpl) (tsK c.tmpl) (tsMinSep c.tmpl)
  let kept := all.take 16
  let exts := kept.map (fun q => (q.1, c.full.extent c.tf q.1))
  (kept.map (fun q => c.measure rc ((exts.filter (fun e => e.1 != q.1)).map (fun e => e.2)) q), all.length - 16)

/-! Range (R169, R195, R200). -/

/-- Base-2 logarithm floor of a ratio to the power 4,096, for the background code. -/
def logPow (a b : Nat) : Nat := Nat.log2 (a ^ 4096 / b ^ 4096)

/-- Background code (R172): round(2,048 log2(rate)). -/
def bkgCode (guard shots : Nat) : Nat :=
  if guard = 0 then 0
  else if shots = 0 then (Config.bkgNoShots guard).toNat
  else (logPow (guard * 7812500) shots + 1) / 2 % 2 ^ 16

/-- WALK of an intensity in 1/16 ps from a walk table of 1,056 bits, and whether it lay outside the span (R200). -/
def walkOf (tab : BitVec 1056) (i : Nat) : Rat × Bool :=
  let n := fld tab 29 24
  let lo := fld tab 11 0
  let hi := fld tab 23 12
  let x := max lo (min hi i)
  let iw := fun (j : Nat) => fld tab (32 + 32 * j + 15) (32 + 32 * j)
  let wv := fun (j : Nat) => sgn 16 (fld tab (32 + 32 * j + 31) (32 + 32 * j + 16))
  let j := ((List.range (n - 1)).reverse.find? (fun j => decide (iw j ≤ x))).getD 0
  let v := (wv j : Rat) + mkRat ((wv (j + 1) - wv j) * ((x : Int) - iw j)) (iw (j + 1) - iw j)
  (16 * v, decide (i < lo) || decide (hi < i))

/-- Fields of a calibration set (Tables 7-2 to 7-5). -/
def csRev (c : BitVec 37888) : Nat := fld c 15 0
def csTcal (c : BitVec 37888) : Int := sgn 16 (fld c 31 16)
def csXtDr (c : BitVec 37888) : Nat := fld c 47 32
def csXtImin (c : BitVec 37888) : Nat := fld c 63 48
def csSlotZero (c : BitVec 37888) (s : Nat) : Int := sgn 16 (fld c (256 + 64 * s + 15) (256 + 64 * s))
def csTcz (c : BitVec 37888) (s : Nat) : Int := sgn 16 (fld c (256 + 64 * s + 31) (256 + 64 * s + 16))
def csDelay (c : BitVec 37888) (s : Nat) : Nat := fld c (256 + 64 * s + 47) (256 + 64 * s + 32)
def csXt (c : BitVec 37888) (s d : Nat) : Nat := fld c (512 + 16 * (4 * s + d) + 15) (512 + 16 * (4 * s + d))
def csWalk (c : BitVec 37888) (code : Nat) : BitVec 1056 := .ofNat _ (fld c (768 + 1056 * code + 1055) (768 + 1056 * code))
def csChZero (c : BitVec 37888) (ch : Nat) : Int := sgn 16 (fld c (4992 + 16 * ch + 15) (4992 + 16 * ch))
def csRefCal (c : BitVec 37888) (n : Nat) : Int := sgn 16 (fld c (21376 + 16 * n + 15) (21376 + 16 * n))

/-- The drift of a TDC since its set was made, 1/16 ps (R195). -/
def deltaRef (c : BitVec 37888) (ref : List Int) (n : Nat) : Int := (ref[n]?).getD 0 - 16 * csRefCal c n

/-- ZERO_ch in 1/16 ps (R195). -/
def zeroOf (c : BitVec 37888) (ref : List Int) (ts : Int) (ch tdc slot : Nat) : Int :=
  16 * (csChZero c ch + csSlotZero c slot) + roundInt (16 * csTcz c slot * (ts - csTcal c)) 10000 +
    deltaRef c ref tdc - deltaRef c ref (1024 + slot)

/-- A time in 1/16 ps after the corrections, in mm (R169): rounded and clamped. -/
def rangeMm (t : Rat) : Nat := min 1048574 (roundRat (t * mkRat 299792458 32000000000)).toNat

/-- A candidate with its range. -/
def Cand.ranged (x : Cand) (rc : BitVec 256) (zero : Int) (walk : Nat → Nat → Rat × Bool) : Cand :=
  let w := walk x.code x.intensity
  let r := rangeMm (x.t - zero - w.1)
  { x with range := r, walk := w.2, blanked := decide (r < rcBlank rc) }

/-! Precipitation (R175). -/

/-- The existing windows (c +- 1, r +- 1) of a window in a grid of NC by NR. -/
def gridNeighbours (nc nr w : Nat) : List Nat :=
  let c := w / nr
  let r := w % nr
  (List.range nc).flatMap (fun c' => if c' + 1 < c || c + 1 < c' then [] else
    (List.range nr).filterMap (fun r' =>
      if r' + 1 < r || r + 1 < r' || (c' == c && r' == r) then none else some (nr * c' + r')))

/-- Two ranges differ by at most d. -/
def within (a b d : Nat) : Bool := decide (a - b ≤ d) && decide (b - a ≤ d)

/-- A candidate carries RAIN: `near` are its neighbours' candidate ranges by window, `echo` its own window's memory in mm. -/
def Cand.rainy (x : Cand) (rc : BitVec 256) (near : List (List Nat)) (echo : List Nat) : Bool :=
  rcRain rc && decide (x.range < 10 * rcRainRmax rc) && decide (x.intensity < rcRainImax rc) &&
    decide ((near.filter (fun l => l.any (fun r => within r x.range (rcRainDr rc)))).length < rcRainNb rc) &&
    !echo.any (fun r => within r x.range (rcRainDt rc))

/-! Selection (R176). -/

/-- Candidates in the order a policy takes them (Table 6-2). -/
def orderBy (policy : Nat) (l : List Cand) : List Cand :=
  let strong := l.mergeSort (fun a b => b.f < a.f || (a.f == b.f && a.bin ≤ b.bin))
  let near := l.mergeSort (fun a b => a.range < b.range || (a.range == b.range && a.bin ≤ b.bin))
  if policy = 0 then strong
  else if policy = 1 then near
  else if policy = 2 then near.reverse
  else match near with
    | [] => []
    | a :: rest => match rest.getLast? with
      | none => [a]
      | some z => a :: z :: strong.filter (fun x => x.bin != a.bin && x.bin != z.bin)

/-- The selected returns, in order of range. -/
def select (t : BitVec 512) (rc : BitVec 256) (l : List Cand) : List Cand :=
  let l := if rcBlankDrop rc then l.filter (fun x => !x.blanked) else l
  let flagged := fun (x : Cand) => x.rain || x.intf || x.abFail || x.blanked
  let order := if tsDefer t then
      orderBy (tsPolicy t) (l.filter (fun x => !flagged x)) ++ orderBy (tsPolicy t) (l.filter flagged)
    else orderBy (tsPolicy t) l
  (order.take (tsNret t + 1)).mergeSort (fun a b => a.range < b.range || (a.range == b.range && a.bin ≤ b.bin))

/-- Point flags as bits 16-27 (Table 6-4); `extra` holds those of the channel and slot. -/
def Cand.flags (x : Cand) (extra : Nat) : Nat :=
  extra + fields [(16, x.sat.toNat), (17, x.rain.toNat), (18, x.intf.toNat), (19, x.zoom.toNat), (20, x.split.toNat),
    (21, x.lowsnr.toNat), (22, x.blanked.toNat), (24, x.walk.toNat), (26, x.abFail.toNat)]

end Sys2Proof.Machine
end

