-- ==== Sys2Proof/Machine/Zones.lean ====
section
/-! DEFINITION. Zone watch: maps, looks, the occupancy block and its commands (R189-R193). -/

namespace Sys2Proof.Machine

open Sys2Proof

/-- Return processing changed. -/
def Device.modRet (d : Device) (f : Ret → Ret) : Device := { d with ret := f d.ret }

/-! Zone maps (Tables 6-9, 6-10). -/

def zmExcl (m : BitVec 8320) : Nat := fld m 127 112
def zmBlindMs (m : BitVec 8320) : Nat := fld m 111 96
def zmLookPct (m : BitVec 8320) : Nat := fld m 95 88
def zmRev (m : BitVec 8320) : Nat := fld m 15 0

/-- Zone entry z. -/
def zmZone (m : BitVec 8320) (z : Nat) : BitVec 128 := .ofNat 128 (fld m (128 + 128 * z + 127) (128 + 128 * z))

def znRmax (e : BitVec 128) : Nat := fld e 127 112
def znRmin (e : BitVec 128) : Nat := fld e 111 96
def znElMax (e : BitVec 128) : Int := sgn 16 (fld e 95 80)
def znElMin (e : BitVec 128) : Int := sgn 16 (fld e 79 64)
def znAzMax (e : BitVec 128) : Int := sgn 16 (fld e 63 48)
def znAzMin (e : BitVec 128) : Int := sgn 16 (fld e 47 32)
def znConf (e : BitVec 128) : Nat := fld e 31 24
def znPoints (e : BitVec 128) : Nat := fld e 23 16
def znN (e : BitVec 128) : Nat := fld e 15 12
def znM (e : BitVec 128) : Nat := fld e 11 8
def znC (e : BitVec 128) : Nat := fld e 7 4
def znFollow (e : BitVec 128) : Bool := bit e 3
def znEn (e : BitVec 128) : Bool := bit e 0

/-- A zone entry R190 refuses. -/
def zoneBad (e : BitVec 128) : Bool :=
  reservedSet e.toNat [(2, 1)] ||
    (znEn e && (decide (znAzMax e < znAzMin e) || decide (znElMax e < znElMin e) || decide (znRmax e < znRmin e) ||
      decide (znM e < znN e) || znN e == 0 || znM e == 0 || znPoints e == 0 || znC e == 0))

/-- A map R190 refuses. -/
def zmapBad (m : BitVec 8320) : Bool :=
  reservedSet m.toNat [(87, 16)] || outside (zmBlindMs m) 10 10000 || outside (zmLookPct m) 1 100 ||
    (List.range 64).any (fun z => zoneBad (zmZone m z))

/-- The map of a number that groups take: the one still in force until the next frame start, else the committed one. -/
def Ret.zmapNow (r : Ret) (i : Nat) : BitVec 8320 × Bool :=
  let p := (mget i r.zmapsHeld).getD (vget r.zmaps i (.of 0)).live
  (p.v, p.ok)

/-! The occupancy block (R193): OCCUPIED [63:0], BLIND [127:64], FRAME [159:128], GROUP [167:160], map [175:168], MAP_REV
[191:176], then 64 counts of 8 bits. -/

def ocOcc (b : BitVec 768) : Nat := fld b 63 0
def ocBlind (b : BitVec 768) : Nat := fld b 127 64
def ocMap (b : BitVec 768) : Nat := fld b 175 168

/-- OCCUPIED and BLIND in force. -/
def Device.occNow (d : Device) : Nat := ocOcc d.ret.occ.v
def Device.blindNow (d : Device) : Nat := ocBlind d.ret.occ.v

/-- E_ZONE (Table 6-12) for the zones whose bits differ, at most once per zone in 100 ms (R193). -/
def Device.zoneEvents (d : Device) (occ blind frame group : Nat) : Device :=
  let old := (d.occNow, d.blindNow)
  (List.range 64).foldl (fun d z =>
    if nbit occ z == nbit old.1 z && nbit blind z == nbit old.2 z then d
    else d.limited 0x0501 z 0 (100 * ms)
      (fields [(255, (nbit occ z).toNat), (254, (nbit blind z).toNat), (222, frame % 2 ^ 32), (214, group % 256)]) 0 false) d

/-- The block written and passed to the sealed core over its own path (R193, R29): two discards in a row would blind it. -/
def Device.writeOcc (d : Device) (b : BitVec 768) : Device :=
  let d := d.zoneEvents (ocOcc b) (ocBlind b) (fld b 159 128) (fld b 167 160)
  let d := d.modRet (fun r => { r with occ := r.occ.put b })
  { d with core := { d.core with occ := .ofNat 64 (ocOcc b), blind := .ofNat 64 (ocBlind b), discards := 0 } }

/-- A bit of a 64-bit set. -/
def setZone (x z : Nat) (v : Bool) : Nat := x - (nbit x z).toNat * 2 ^ z + v.toNat * 2 ^ z

/-- OCCUPIED and BLIND bits of zones rewritten in the block in force. -/
def Device.setZones (d : Device) (f : Nat → Nat × Nat → Nat × Nat) : Device :=
  let ob := (List.range 64).foldl (fun p z => f z p) (d.occNow, d.blindNow)
  if ob.1 = d.occNow ∧ ob.2 = d.blindNow then d
  else d.writeOcc (setFld (setFld d.ret.occ.v 63 0 ob.1) 127 64 ob.2)

/-! Looks (R191, R192). -/

/-- A channel as zone watch sees it: direction sums (azimuth, columns, elevation, rows), usable, and its selected returns as
range in mm, confidence, flags. -/
structure ZoneChan where
  dir : Int × Nat × Int × Nat
  usable : Bool
  returns : List (Nat × Nat × Nat)

/-- A direction lies in a zone's box, its azimuths shifted by `shift` units (R191). -/
def inBox (e : BitVec 128) (shift : Int) (dir : Int × Nat × Int × Nat) : Bool :=
  let n : Int := dir.2.1
  let m : Int := dir.2.2.2
  dir.2.1 != 0 && dir.2.2.2 != 0 && decide ((znAzMin e + shift) * n ≤ dir.1) && decide (dir.1 ≤ (znAzMax e + shift) * n) &&
    decide (znElMin e * m ≤ dir.2.2.1) && decide (dir.2.2.1 ≤ znElMax e * m)

/-- A return that counts in a zone. -/
def counting (m : BitVec 8320) (e : BitVec 128) (r : Nat × Nat × Nat) : Bool :=
  decide (10 * znRmin e ≤ r.1 ∧ r.1 ≤ 10 * znRmax e) && decide (znConf e ≤ r.2.1) && (zmExcl m &&& (r.2.2 / 2 ^ 16)) == 0

/-- The look of a group at a zone: none where it does not look; else whether it is valid, and the counting returns. -/
def lookAt (m : BitVec 8320) (z : Nat) (offset : Int) (chans : List ZoneChan) : Option (Bool × Nat) :=
  let e := zmZone m z
  let box := chans.filter (fun c => inBox e (if znFollow e then offset * 1250 else 0) c.dir)
  if !znEn e || box.isEmpty then none
  else
    let use := box.filter (fun c => c.usable)
    some (decide (zmLookPct m * box.length ≤ 100 * use.length), (use.map (fun c => (c.returns.filter (counting m e)).length)).sum)

/-- OCCUPIED after a valid look (R192): the history holds the looks newest first, the new one included. Clearing comes before
setting (log entry 48). -/
def occupiedAfter (e : BitVec 128) (looks : List Bool) (was : Bool) : Bool :=
  if znC e ≤ looks.length && (looks.take (znC e)).all (fun h => !h) then false
  else if znN e ≤ ((looks.take (znM e)).filter id).length then true
  else was

/-- One zone after a group's look. -/
def Device.lookZone (d : Device) (m : BitVec 8320) (map z : Nat) (l : Option (Bool × Nat)) (p : Nat × Nat) : Device × (Nat × Nat) :=
  match l with
  | some (true, n) =>
    let e := zmZone m z
    let looks := (decide (znPoints e ≤ n) :: vget d.ret.looks z []).take 15
    (d.modRet (fun r => { r with looks := vset r.looks z looks, lastLook := vset r.lastLook z (some (d.time.ns.toNat, map)) }),
     (setZone p.1 z (occupiedAfter e looks (nbit p.1 z)), setZone p.2 z false))
  | _ => (d, p)

/-- Zone watch over a finished group: looks, histories and the occupancy block (R191-R193). With the map failing its check
every zone becomes BLIND at once, until a valid map is written (R190, log entry 51). While the firing controller is not ON there is no look
(R192), and the block of a group that completes then carries the zones' bits as they are. Zone watch that is unusable does nothing
(Table 12-5). -/
def Device.zoneWatch (d : Device) (m : BitVec 8320) (ok : Bool) (map : Nat) (offset : Int) (frame group : Nat)
    (chans : List ZoneChan) : Device :=
  if d.unusable 2 0 then d
  else
    let looks := (List.range 64).map (fun z => if ok && d.fire.fn.st == .on then lookAt m z offset chans else none)
    let r := looks.zipIdx.foldl (fun (acc : Device × (Nat × Nat)) x => acc.1.lookZone m map x.2 x.1 acc.2) (d, (d.occNow, d.blindNow))
    let blind := if ok && d.ret.zmapsFailed == 0 then r.2.2 else 2 ^ 64 - 1
    let counts := looks.map (fun l => match l with | some (_, n) => sat 255 n | none => 0)
    r.1.writeOcc (.ofNat 768 (fields ([(0, r.2.1), (64, blind), (128, frame % 2 ^ 32), (160, group % 256), (168, map),
      (176, if ok then zmRev m else 0)] ++ counts.zipIdx.map (fun c => (192 + 8 * c.2, c.1)))))

/-- BLIND_MS after its last valid look a zone becomes BLIND (R192), by the map of that look (log entry 51). -/
def Device.zoneBlind (d : Device) (z : Nat) : Device :=
  match vget d.ret.lastLook z none with
  | none => d
  | some (t, map) =>
    if t + zmBlindMs (d.ret.zmapNow map).1 * ms ≤ d.time.ns.toNat then
      d.setZones (fun i p => if i = z then (p.1, setZone p.2 z true) else p)
    else d

/-- ZONE_BLIND_TIMEOUT (R192). -/
def execZoneBlindTimeout (dt : Nat) (z : Fin 64) (s : State) : Host.Outcome State Fault Refusal :=
  coreRow dt (fun d => d.zoneBlind z.val) s

/-- The frame start brings rewritten maps into force: each zone whose entry changed starts anew (R192). -/
def Device.zmapsStart (d : Device) : Device :=
  if d.ret.zmapsHeld.isEmpty then d
  else
    let changed := (List.range 64).filter (fun z => d.ret.zmapsHeld.any (fun p =>
      zmZone p.2.v z != zmZone (vget d.ret.zmaps p.1 (.of 0)).v z))
    let d := d.modRet (fun r => { r with
      zmapsHeld := []
      zmapsFailed := d.ret.zmapsHeld.foldl (fun b p => setBit b p.1 false) r.zmapsFailed
      looks := changed.foldl (fun l z => vset l z []) r.looks
      lastLook := changed.foldl (fun l z => vset l z none) r.lastLook })
    (d.setZones (fun z p => if changed.contains z then (setZone p.1 z false, setZone p.2 z true) else p)).pendingEffect 3 false

/-! Commands. -/

/-- `zone.map.get`: the map in force; S_INTEGRITY where its pair fails, with a map of no zone (R352). -/
def cmdZoneMapGet : Cmd :=
  { id := 0x0502, form := exactly 4
    content := fun _ p => refuse (15 < p.word 0) sBadParam
    run := fun _ p d =>
      let m := d.ret.zmapNow (p.word 0)
      (d, answerPair m.2 (wBlock (if m.2 then m.1 else 0))) }

/-- ZONE_MAP_GET (R194). -/
def execZoneMapGet (dt : Nat) (o : Origin) (s : State) : Host.Outcome State Fault Refusal := wcpRow dt o cmdZoneMapGet noOpen s

/-- A zone's history: the number of looks held, and a mask of their hits with the newest in bit 0. -/
def historyWords (l : List Bool) : List Nat := [l.length, fields (l.zipIdx.map (fun p => (p.2, p.1.toNat)))]

/-- `zone.state.get`: the occupancy block, then per zone its history and the time since its last valid look in ms
(0xFFFF_FFFF before the first). -/
def cmdZoneStateGet : Cmd :=
  { id := 0x0503, form := exactly 0
    run := fun _ _ d =>
      (d, answerPair d.ret.occ.ok ((wBlock (d.ret.occ.use Config.occReset)).app (words ((List.range 64).flatMap (fun z =>
        historyWords (vget d.ret.looks z []) ++
        [match vget d.ret.lastLook z none with
         | some (t, _) => sat 0xFFFFFFFF ((d.time.ns.toNat - t) / ms)
         | none => 0xFFFFFFFF]))))) }

/-- ZONE_STATE_GET (R194). -/
def execZoneStateGet (dt : Nat) (o : Origin) (s : State) : Host.Outcome State Fault Refusal := wcpRow dt o cmdZoneStateGet noOpen s

/-- A map written: the former one stays in force until the next frame start. -/
def Ret.writeMap (r : Ret) (i : Nat) (m : BitVec 8320) : Ret :=
  let old := (vget r.zmaps i (.of 0)).live
  { r with
    zmaps := vmod r.zmaps i (fun x => x.put m)
    zmapsHeld := if (mget i r.zmapsHeld).isNone then mset i old r.zmapsHeld else r.zmapsHeld }

/-- `zone.map.set` (R189, R190). -/
def cmdZoneMapSet : Cmd :=
  { id := 0x0545, form := exactly 1044, sealed := fun _ => true
    content := fun _ p => refuse (15 < p.word 0 || zmapBad (.ofNat 8320 (p.slice 4 1040).val)) sBadParam
    run := fun c p d =>
      let old := digest128 (d.sealedValue 3)
      let d := d.mram false (fun d => d.modRet (fun r => r.writeMap (p.word 0) (.ofNat 8320 (p.slice 4 1040).val)))
      (((d.pendingEffect 3 true).sealChange c 0x0545 3 old).dirty, .no sOk) }

/-- ZONE_MAP_SET (R190). -/
def execZoneMapSet (dt : Nat) (o : Origin) (s : State) : Host.Outcome State Fault Refusal := wcpRow dt o cmdZoneMapSet noOpen s

end Sys2Proof.Machine
end

