-- ==== Sys2Proof/Machine/Returns.lean ====
section
/-! DEFINITION. The return processor's commands, rate and window monitor (R163, R181-R188, R194). -/

namespace Sys2Proof.Machine

open Sys2Proof

/-! Rate (R182, R183). -/

/-- Usable lanes now. -/
def Device.lanesNow (d : Device) : Nat := ((List.range 16).filter (fun i => !d.unusable 1 i)).length

/-- D-RET frequency now, 0.1 MHz (Table 14-6). -/
def Device.f10Now (d : Device) : Nat := if 2 ≤ d.power.step then 6250 else if 1 ≤ d.power.step then 9375 else 12500

/-- R_eff in 0.1 G bins/s. -/
def reff (lanes f10 : Nat) : Nat := roundDiv (lanes * f10) 1250

/-- The lanes and frequency of now come into force at a hand-over, with E_RET_RATE on a change (R183). -/
def Device.rateHandover (d : Device) : Device :=
  let l := d.lanesNow
  let f := d.f10Now
  if l = d.ret.lanes ∧ f = d.ret.f10 then d
  else (d.modRet (fun r => { r with lanes := l, f10 := f })).raise 0x0503 0
    (fields [(248, l), (232, roundDiv f 10), (216, reff l f)])

/-! Window monitor (R188). A figure is in 1/65,536 count per shot, and signed, as net counts are; a baseline holds it in bits [62:0],
bit 63 set. -/

/-- The baseline of a slot in use; none where none is stored. -/
def Ret.base (r : Ret) (s : Nat) : Option Int :=
  let p := vget r.baseline s (.of 0)
  if p.ok && bit p.v 63 then some (sgn 63 (fld p.v 62 0)) else none

/-- The frame's figure of a slot; none where it fired no shot. -/
def Ret.frameFigure (r : Ret) (s : Nat) : Option Int :=
  let n := vget r.figN s 0
  if n = 0 then none else some (roundInt (4096 * vget r.figSum s 0) n)

/-- One slot at the end of a frame: its figure against its baseline. -/
def Device.windowSlot (d : Device) (s : Nat) : Device :=
  match d.ret.frameFigure s with
  | none => d
  | some fig =>
    let d := d.modRet (fun r => { r with figure := vset r.figure s fig })
    let d := d.checkPair (vget d.ret.baseline s (.of 0)).ok 6 s 0
    match d.ret.base s with
    | none => d
    | some b =>
      let lim : Int := (rcWinRatio d.ret.cfg : Int) * b
      let m := rcWinFrames d.ret.cfg
      let high := if lim < 16 * fig then vget d.ret.overN s 0 + 1 else 0
      let low := if 16 * fig < lim then vget d.ret.underN s 0 + 1 else 0
      let d := d.modRet (fun r => { r with overN := vset r.overN s (min 255 high), underN := vset r.underN s (min 255 low) })
      let ev := fun (on : Bool) => (d.modRet (fun r => { r with alarm := setBit r.alarm s on })).raise 0x0502 s
        (fields [(255, on.toNat), (239, if b ≤ 0 then 0xFFFF else sat 0xFFFF (roundInt (16 * fig) b.toNat).toNat)])
      if !bit d.ret.alarm s && m ≤ high then ev true
      else if bit d.ret.alarm s && m ≤ low then ev false
      else d

/-- The frame of the sums ends: figures, alarms and learning. -/
def Device.windowFrame (d : Device) : Device :=
  if d.ret.figN.toList.all (· == 0) then d
  else
    let d := (List.range 4).foldl Device.windowSlot d
    d.modRet (fun r => { r with
      learn := r.learn.map (fun l => if 25 ≤ l.1 then l else
        (l.1 + 1, (List.range 4).map (fun s => (l.2[s]?).getD 0 + (r.frameFigure s).getD 0)))
      figSum := Vector.replicate 4 0, figN := Vector.replicate 4 0 })

/-- A group's sums by slot (in 1/16 count) and shots fired, in the frame they belong to; `last` closes the frame. -/
def Device.windowGroup (d : Device) (frame : Nat) (sums : List Int) (fired : List Nat) (last : Bool) : Device :=
  let d := if frame = d.ret.figFrame then d else d.windowFrame
  let d := d.modRet (fun r => { r with
    figFrame := frame
    figSum := (List.range 4).foldl (fun v s => vmod v s (· + (sums[s]?).getD 0)) r.figSum
    figN := (List.range 4).foldl (fun v s => vmod v s (· + (fired[s]?).getD 0)) r.figN })
  if last then d.windowFrame else d

/-- After 25 frames the averages become the baselines and the command completes (R188). -/
def Device.learnDone (d : Device) : Device :=
  match d.ret.learn with
  | some (n, sums) =>
    if 25 ≤ n then
      ((d.modRet (fun r => { r with learn := none })).mram true (fun d => d.modRet (fun r => { r with
        baseline := (List.range 4).foldl (fun v s =>
          vmod v s (fun x => x.put (BitVec.ofNat 64 (2 ^ 63 + (roundInt ((sums[s]?).getD 0) 25 % 2 ^ 63).toNat)))) r.baseline }))).complete .learn sOk Bytes.nil
    else d
  | none => d

/-- WINDOW_LEARN_DONE (R188). -/
def execWindowLearnDone (dt : Nat) (s : State) : Host.Outcome State Fault Refusal := coreRow dt Device.learnDone s

/-! Commands. -/

/-- The result of `ret.status.get`. -/
def Device.retStatus (d : Device) : Bytes :=
  let r := d.ret
  Bytes.cat ([words [r.lanes, roundDiv r.f10 10, reff r.lanes r.f10, sat 0xFFFFFFFF (r.procTime / us), r.processed]] ++
    (List.range 4).flatMap (fun s => [wInt (vget r.figure s 0), wInt ((r.base s).getD 0)]) ++ [w32 r.points])

/-- `ret.status.get`: S_INTEGRITY where a baseline fails its check (R352). -/
def cmdRetStatus : Cmd :=
  { id := 0x0500, form := exactly 0, run := fun _ _ d => (d, answerPair (d.ret.baseline.toList.all Stored.ok) d.retStatus) }

/-- RET_STATUS_GET (R194). -/
def execRetStatusGet (dt : Nat) (o : Origin) (s : State) : Host.Outcome State Fault Refusal := wcpRow dt o cmdRetStatus noOpen s

/-- The template set in force at an index, absent ones replaced by set 0. -/
def Ret.template (r : Ret) (i : Nat) : BitVec 512 := (tableEntry template0 r.templates i).getD template0

/-- `ret.template.get`. -/
def cmdTemplateGet : Cmd := .query 0x0501 (exactly 4)
  (fun d p => refuse (15 < p.word 0 || (tableEntry template0 d.ret.templates (p.word 0)).isNone) sBadParam)
  (fun d p => wBlock (d.ret.template (p.word 0)))

/-- RET_TEMPLATE_GET (R442). -/
def execRetTemplateGet (dt : Nat) (o : Origin) (s : State) : Host.Outcome State Fault Refusal := wcpRow dt o cmdTemplateGet noOpen s

/-- `ret.config.get`. -/
def cmdRetConfigGet : Cmd := .query 0x0504 (exactly 0) (fun _ _ => none) (fun d _ => wBlock d.ret.cfg)

/-- RET_CONFIG_GET (R194). -/
def execRetConfigGet (dt : Nat) (o : Origin) (s : State) : Host.Outcome State Fault Refusal := wcpRow dt o cmdRetConfigGet noOpen s

/-- `ret.config.set` (R187). -/
def cmdRetConfigSet : Cmd :=
  { id := 0x0540, form := exactly 32
    content := fun _ p => refuse (retCfgBad p.val) sBadParam
    run := fun _ p d => ((d.modRet (fun r => { r with cfgNext := some (.ofNat 256 p.val) })).dirty, .no sOk) }

/-- RET_CONFIG_SET (R187). -/
def execRetConfigSet (dt : Nat) (o : Origin) (s : State) : Host.Outcome State Fault Refusal := wcpRow dt o cmdRetConfigSet noOpen s

/-- `ret.template.set` (R163, R164). -/
def cmdTemplateSet : Cmd :=
  { id := 0x0541, form := exactly 68
    content := fun _ p => refuse (outside (p.word 0) 1 15 || templateBad (.ofNat 512 (p.slice 4 64).val)) sBadParam
    run := fun _ p d =>
      ((d.modRet (fun r => { r with templatesNext := mset (p.word 0) (.ofNat 512 (p.slice 4 64).val) r.templatesNext })).dirty,
       .no sOk) }

/-- RET_TEMPLATE_SET (R164). -/
def execRetTemplateSet (dt : Nat) (o : Origin) (s : State) : Host.Outcome State Fault Refusal := wcpRow dt o cmdTemplateSet noOpen s

/-- `ret.points.set` (R181). -/
def cmdPointsSet : Cmd :=
  { id := 0x0542, form := exactly 4
    content := fun d p => refuse (p.word 0 != 0xFFFF && d.bindFails (p.word 0) 0x01 .points) sBadParam
    run := fun _ p d => ((d.bind .points d.ret.points (p.word 0)).modRet (fun r => { r with points := p.word 0 }), .no sOk) }

/-- RET_POINTS_SET (R181). -/
def execRetPointsSet (dt : Nat) (o : Origin) (s : State) : Host.Outcome State Fault Refusal := wcpRow dt o cmdPointsSet noOpen s

/-- Raw settings: queue, count of channels, the channels, descriptor index, RAW_MAX, enable (R185). -/
def rawBad (d : Device) (p : Bytes) : Bool :=
  let n := p.word 1
  let chans := (List.range n).map (fun i => p.word (2 + i))
  32 < n || chans.any (fun c => 1023 < c) || 255 < p.word (2 + n) || outside (p.word (3 + n)) 1 1048576 || 1 < p.word (4 + n) ||
    (if p.word 0 = 0xFFFF then p.word (4 + n) == 1 else d.bindFails (p.word 0) 0x03 .raw)

/-- `ret.raw.set` (R185). -/
def cmdRawSet : Cmd :=
  { id := 0x0543
    form := fun p => 20 ≤ p.len && 20 + 4 * p.word 1 ≤ p.len
    content := fun d p => refuse (p.len != 20 + 4 * p.word 1 || rawBad d p) sBadParam
    run := fun _ p d =>
      let n := p.word 1
      ((d.bind .raw d.ret.rawQueue (p.word 0)).modRet (fun r => { r with
        rawQueue := p.word 0, rawChans := (List.range n).map (fun i => p.word (2 + i)), rawIdx := p.word (2 + n)
        rawMax := p.word (3 + n), rawOn := p.word (4 + n) == 1 }), .no sOk) }

/-- RET_RAW_SET (R185). -/
def execRetRawSet (dt : Nat) (o : Origin) (s : State) : Host.Outcome State Fault Refusal := wcpRow dt o cmdRawSet noOpen s

/-- `ret.window.learn` (R188): a second command joins the learning in progress. -/
def cmdWindowLearn : Cmd :=
  { id := 0x0544, form := exactly 0
    state := fun d _ => refuse (d.fire.fn.st != .on) sBadState
    run := fun _ _ d => (d.modRet (fun r => { r with learn := some (r.learn.getD (0, [])) }), .pend .learn) }

/-- RET_WINDOW_LEARN (R188). -/
def execRetWindowLearn (dt : Nat) (o : Origin) (s : State) : Host.Outcome State Fault Refusal := wcpRow dt o cmdWindowLearn noOpen s

end Sys2Proof.Machine
end

