-- ==== Sys2Proof/Machine/Calibration.lean ====
section
/-! DEFINITION. Range calibration: the set and its commit, reference passes, tracked emitter delays and the full calibration
(R195-R212). -/

namespace Sys2Proof.Machine

open Sys2Proof

/-- Calibration changed. -/
def Device.modCal (d : Device) (f : Cal → Cal) : Device := { d with cal := f d.cal }

/-! The set in force (R203). -/

/-- The safe default: its emitter delay follows the acceptance window in force, (WIT_MIN + WIT_MAX) / 2 (R203). -/
def Fire.calDefault (f : Fire) : BitVec 37888 :=
  let e := (fld f.emitter 79 72 + fld f.emitter 71 64) * 250
  (List.range 4).foldl (fun b s => setFld b (256 + 64 * s + 47) (256 + 64 * s + 32) e) Config.calDefault

/-- The live set, its backup where it fails its check or lies in a block marked unusable (Table 12-5, class 6), or the safe default:
source and set. -/
def Device.calStored (d : Device) : Nat × BitVec 37888 :=
  let lost := d.unusable 6 Config.calBlock.toNat && d.cal.backup.ok
  if d.cal.live.ok && !lost then (0, d.cal.live.v) else if d.cal.backup.ok then (1, d.cal.backup.v) else (2, d.fire.calDefault)

/-- What is in force: the stored set, but until the next group start the one it replaces (R204). -/
def Device.calNow (d : Device) : Nat × BitVec 37888 := d.cal.until_.getD d.calStored

/-- A group start: a committed set goes live (R204) and is checked (R203), with E_INTEGRITY on a mismatch. -/
def Device.calCheck (d : Device) : Device :=
  let u := d.calStored
  let d := d.checkPair d.cal.live.ok 5 0 (if u.1 = 1 then 1 else 0)
  d.modCal (fun c => { c with src := u.1, inForce := u.2, until_ := none })

/-- Tracked delays taken from the calibration set, as at boot (R199): units of 2 ps to 1/16 ps. -/
def delaysOf (c : BitVec 37888) : Vector Int 4 :=
  ⟨#[32 * (csDelay c 0 : Int), 32 * (csDelay c 1 : Int), 32 * (csDelay c 2 : Int), 32 * (csDelay c 3 : Int)], rfl⟩

/-- E_CAL (Table 7-11): of an applied result its own revision, else that of the set in force. -/
def Device.calEvent (d : Device) (applied : Bool) (reason : Nat) : Device :=
  let u := if applied then d.calStored else d.calNow
  d.raise 0x0601 0 (fields [(254, u.1), (253, d.cal.stale.toNat), (252, applied.toNat), (244, reason), (228, csRev u.2)])

/-! Reference passes (R197, R198). -/

/-- A pass starts in a gap once the survey's passes are done and room for 15 us remains. -/
def Device.refStart (d : Device) : Device :=
  let surveyDone := d.surveyPasses ≤ d.rx.gapPasses || !d.gapRoom (12 * us)
  if d.rx.survey.isNone && surveyDone && d.bist.run.isNone && !d.timingSlice && !d.cal.passDone && d.cal.passRun.isNone && d.gapRoom (15 * us) then
    d.modCal (fun c => { c with passRun := some d.now })
  else d

/-- REFERENCE_PASS_START (R197). -/
def execReferencePassStart (dt : Nat) (s : State) : Host.Outcome State Fault Refusal := coreRow dt Device.refStart s

/-- A complete pass: REF moves by an eighth toward each TDC's measurement (R198). -/
def Device.refDone (d : Device) (m : List Int) : Device :=
  match d.cal.passRun with
  | none => d
  | some t =>
    if d.now < t + 15 * us then d
    else d.modCal (fun c => { c with
      ref := (List.range 1032).map (fun n =>
        let r := (c.ref[n]?).getD 0
        r + roundInt ((m[n]?).getD r - r) 8)
      lastPass := some d.now, stale := false, passRun := none, passDone := true })

/-- REFERENCE_PASS_DONE (R198). -/
def execReferencePassDone (dt : Nat) (m : List Int) (s : State) : Host.Outcome State Fault Refusal :=
  coreRow dt (fun d => d.refDone m) s

/-- 1 s without a complete pass while ON, from the later of the last pass and the entry to ON (R198). -/
def Device.refStale (d : Device) : Device :=
  if d.fire.fn.st == .on && !d.cal.stale && decide (max (d.cal.lastPass.getD 0) d.fire.onAt + second ≤ d.now) then
    (d.modCal (fun c => { c with stale := true })).calEvent false d.cal.reason
  else d

/-- REF_STALE_TIMEOUT (R198). -/
def execRefStaleTimeout (dt : Nat) (s : State) : Host.Outcome State Fault Refusal := coreRow dt Device.refStale s

/-- EMIT_DELAY of each slot moves an eighth toward the group's mean, given sums in 31.25 ps over at least 64 witnessed shots
(R199). -/
def Device.trackDelays (d : Device) (g : Group) : Device :=
  d.modCal (fun c => { c with
    emitDelay := (List.range 4).foldl (fun v s =>
      let st := vget g.slots s {}
      if st.delayN < 64 then v
      else vmod v s (fun e => e + roundInt (roundInt (500 * (st.delaySum : Int)) st.delayN - e) 8)) c.emitDelay })

/-! Commit (R204). -/

/-- A walk table that violates R200 or its reserved bits. -/
def walkBad (t : BitVec 1056) : Bool :=
  let n := fld t 29 24
  let iw := fun (j : Nat) => fld t (32 + 32 * j + 15) (32 + 32 * j)
  fld t 31 30 != 0 || outside n 2 32 || fld t 23 12 < fld t 11 0 || fld t 11 0 < iw 0 || iw (n - 1) < fld t 23 12 ||
    (List.range (n - 1)).any (fun j => iw (j + 1) ≤ iw j) || (List.range n).any (fun j => 4095 < iw j)

/-- A set the commit refuses: R204 and the ranges of Tables 7-3 to 7-5. -/
def setBad (c : BitVec 37888) : Bool :=
  fld c 255 64 != 0 || 1000 < csXtDr c || (List.range 4).any (fun s => fld c (256 + 64 * s + 63) (256 + 64 * s + 48) != 0) ||
    (List.range 4).any (fun s => csXt c s s != 0) || (List.range 4).any (fun k => walkBad (csWalk c k))

/-- A set committed: the outgoing one becomes the backup and stays in force until the next group start, a CAL_COMMIT record is written,
the generation changes there. -/
def Device.commitSet (d : Device) (v : BitVec 37888) : Device := d.mram true fun d =>
  let now := d.calNow
  let old := d.calStored.2
  let d := d.modCal (fun c => { c with backup := c.backup.put old, live := c.live.put v, shadow := v, until_ := some now })
  (d.record 0x000C 0 sevInfo ((w32 (csRev v)).app (.mk' 16 (digest128 (.mk' 4736 v.toNat))))).dirtyGroup

/-- The result of `cal.status.get`. -/
def Device.calStatus (d : Device) : Bytes :=
  let c := d.cal
  let u := d.calNow
  let codes := popcount 4 (match c.full with | some f => fld f.par 11 8 | none => 0)
  let since := match c.lastPass with
    | some t => sat 0xFFFFFFFF ((d.now - t) / ms)
    | none => 0xFFFFFFFF
  (words [u.1, csRev u.2, c.stale.toNat, since]).app
    ((Bytes.cat (c.emitDelay.toList.map (fun e => wInt (roundInt e 32)))).app
      (words [c.ghosts, c.full.isSome.toNat,
        match c.full with | none => 0 | some f => if f.done < 12 * codes then 1 else 2]))

/-- `cal.status.get`: EMIT_DELAY in units of 2 ps; rounds 1 walk, 2 zero and crosstalk (log entry 49). -/
def cmdCalStatus : Cmd := { id := 0x0600, form := exactly 0, run := fun _ _ d => (d, answerPair d.cal.live.ok d.calStatus) }

/-- CAL_STATUS_GET (R212). -/
def execCalStatusGet (dt : Nat) (o : Origin) (s : State) : Host.Outcome State Fault Refusal := wcpRow dt o cmdCalStatus noOpen s

/-- `cal.coeff.get`: the set in force, or with bit 31 of the offset the backup; what is in force in place of a failed pair. -/
def cmdCalCoeffGet : Cmd :=
  { id := 0x0601, form := exactly 8
    content := fun _ p => refuse (2048 < p.word 1 || 4736 < p.word 0 % 2 ^ 31 + p.word 1) sBadParam
    run := fun _ p d =>
      let back := nbit (p.word 0) 31
      let v := if back then (if d.cal.backup.ok then d.cal.backup.v else d.fire.calDefault) else d.calNow.2
      (d, answerPair (if back then d.cal.backup.ok else d.cal.live.ok)
        ((Bytes.mk' 4736 v.toNat).slice (p.word 0 % 2 ^ 31) (p.word 1))) }

/-- CAL_COEFF_GET (R212). -/
def execCalCoeffGet (dt : Nat) (o : Origin) (s : State) : Host.Outcome State Fault Refusal := wcpRow dt o cmdCalCoeffGet noOpen s

/-- A channel's last result: covered, mean error, standard deviation (R441, log entry 50). -/
def calResWords (r : CalRes) : Bytes := (words [r.covered.toNat]).app ((wInt r.err).app (words [r.sd]))

/-- `cal.result.get`. -/
def cmdCalResultGet : Cmd := .query 0x0602 (exactly 8)
  (fun _ p => refuse (1000 < p.word 1 || 1024 < p.word 0 + p.word 1) sBadParam)
  (fun d p => .cat ((List.range (p.word 1)).map (fun i => calResWords ((mget (p.word 0 + i) d.cal.results).getD ⟨false, 0, 0⟩))))

/-- CAL_RESULT_GET (R208). -/
def execCalResultGet (dt : Nat) (o : Origin) (s : State) : Host.Outcome State Fault Refusal := wcpRow dt o cmdCalResultGet noOpen s

/-- `cal.coeff.write`: byte offset, length, data (R204). -/
def cmdCalCoeffWrite : Cmd :=
  { id := 0x0640
    form := fun p => 8 ≤ p.len && 8 + p.word 1 ≤ p.len
    state := fun d _ => refuse d.cal.full.isSome sBadState
    content := fun _ p => refuse (p.len != 8 + p.word 1 || 2048 < p.word 1 || 4736 < p.word 0 + p.word 1) sBadParam
    run := fun _ p d =>
      (d.modCal (fun c =>
        let lo := 8 * p.word 0
        let n := 8 * p.word 1
        { c with shadow := .ofNat _ (c.shadow.toNat - c.shadow.toNat / 2 ^ lo % 2 ^ n * 2 ^ lo + (p.drop 8).val * 2 ^ lo) }),
       .no sOk) }

/-- CAL_COEFF_WRITE (R204). -/
def execCalCoeffWrite (dt : Nat) (o : Origin) (s : State) : Host.Outcome State Fault Refusal := wcpRow dt o cmdCalCoeffWrite noOpen s

/-- `cal.coeff.commit` (R204): groups take the new set from the next group start on. -/
def cmdCalCoeffCommit : Cmd :=
  { id := 0x0641, form := exactly 0
    state := fun d _ => refuse d.cal.full.isSome sBadState
    content := fun d _ => refuse (setBad d.cal.shadow) sBadParam
    run := fun _ _ d => (d.commitSet d.cal.shadow, .no sOk) }

/-- CAL_COEFF_COMMIT (R204). -/
def execCalCoeffCommit (dt : Nat) (o : Origin) (s : State) : Host.Outcome State Fault Refusal := wcpRow dt o cmdCalCoeffCommit noOpen s

/-! Full calibration (R205-R209). -/

def fcPatch (p : BitVec 128) (s : Nat) : Nat := fld p (64 + 16 * s + 15) (64 + 16 * s)
def fcWall (p : BitVec 128) : Nat := fld p 63 48
def fcCodes (p : BitVec 128) : List Nat := (List.range 4).filter (fun c => bit p (8 + c))
def fcShare (p : BitVec 128) : Nat := fld p 3 2
def fcXt (p : BitVec 128) : Bool := bit p 1
def fcApply (p : BitVec 128) : Bool := bit p 0

/-- Calibration frames of the walk round, and of both rounds (Table 7-7). -/
def fcWalkFrames (p : BitVec 128) : Nat := 12 * (fcCodes p).length
def fcFrames (p : BitVec 128) : Nat := fcWalkFrames p + 8

/-- A payload R205 refuses. -/
def fullBad (p : BitVec 128) : Bool :=
  let dist := fcWall p :: ((List.range 4).map (fcPatch p)).filter (· != 0)
  reservedSet p.toNat [(47, 12), (7, 4)] || fcShare p == 0 || outside (fcWall p) 2000 30000 ||
    (List.range dist.length).any (fun i => (dist.drop (i + 1)).any (fun x => within x ((dist[i]?).getD 0) 499))

/-- `cal.full.start` (R205). -/
def cmdCalFullStart : Cmd :=
  { id := 0x0642, form := exactly 16
    state := fun d _ => refuse (d.fire.fn.st != .on || d.cal.full.isSome) sBadState
    content := fun _ p => refuse (fullBad (.ofNat 128 p.val)) sBadParam
    run := fun _ p d => (d.modCal (fun c => { c with full := some { par := .ofNat 128 p.val }, work := none, undo := none }), .pend .calFull) }

/-- CAL_FULL_START (R205). -/
def execCalFullStart (dt : Nat) (o : Origin) (s : State) : Host.Outcome State Fault Refusal := wcpRow dt o cmdCalFullStart noOpen s

/-- The result of Table 7-8. -/
def fullResult (rev sigma errMax : Nat) (errMean : Int) (rejected covered reason : Nat) : Bytes :=
  .mk' 32 (fields [(160, rev), (144, sat 0xFFFF sigma), (128, sat 0xFFFF errMax), (112, (errMean % 2 ^ 16).toNat),
    (96, rejected), (80, covered), (0, reason)])

/-- A full calibration stops early (R209): nothing is applied, the command completes with REASON 4. -/
def Device.calAbort (d : Device) : Device :=
  if d.cal.full.isNone then d
  else
    let d := d.modCal (fun c => { c with full := none, work := none, reason := 4 })
    (d.complete .calFull sOk (fullResult (csRev d.calNow.2) 0 0 0 0 0 4)).calEvent false 4

/-- `cal.full.abort` (R209). -/
def cmdCalFullAbort : Cmd := { id := 0x0643, form := exactly 0, run := fun _ _ d => (d.calAbort, .no sOk) }

/-- CAL_FULL_ABORT (R209). -/
def execCalFullAbort (dt : Nat) (o : Origin) (s : State) : Host.Outcome State Fault Refusal := wcpRow dt o cmdCalFullAbort noOpen s

/-- Cosine of `num / den` units of 0.002 degrees, in 2^-64 (Taylor terms to x^32). -/
def cosFix (num : Int) (den : Nat) : Int :=
  let x : Int := num * (3141592653589793238462643383279 * 2 ^ 64 / 10 ^ 30) / (90000 * den)
  let x2 : Int := x * x / 2 ^ 64
  ((List.range 16).foldl (fun (a : Int × Int) k =>
    let t := -(a.2 * x2 / 2 ^ 64 / ((2 * k + 1) * (2 * k + 2)))
    (a.1 + t, t)) (2 ^ 64, 2 ^ 64)).1

/-- Expected range in mm of a wall at `dist` mm in a direction (Table 7-7). -/
def expected (dist : Nat) (dir : Int × Nat × Int × Nat) : Rat :=
  mkRat ((dist : Int) * 2 ^ 128) (cosFix dir.1 dir.2.1 * cosFix dir.2.2.1 dir.2.2.2).toNat

/-- A distance in mm as a round-trip time in 1/16 ps. -/
def mmToTime (r : Rat) : Rat := r * mkRat 32000000000 299792458

/-- What the calibration sees of a channel of a group: its TDC, direction and selected returns as range, intensity, peak time
and its width code, saturation; ZERO_ch of the set in force. -/
structure CalSeen where
  ch : Nat
  tdc : Nat
  dir : Int × Nat × Int × Nat
  zero : Int
  returns : List (Nat × Nat × Rat × Nat × Bool)

/-- The strongest return of a list. -/
def strongest (l : List (Nat × Nat × Rat × Nat × Bool)) : Option (Nat × Nat × Rat × Nat × Bool) :=
  (l.mergeSort (fun a b => b.2.1 ≤ a.2.1)).head?

/-- Ranges within 300 mm (R207). -/
def near300 (r : Nat) (e : Rat) : Bool := decide ((r : Rat) - e ≤ 300) && decide (e - (r : Rat) ≤ 300)

/-- A channel's strongest return where the channel is covered: intensity, peak time less expectation in 1/16 ps, code. -/
def CalSeen.covered (c : CalSeen) (wall : Nat) : Option (Nat × Rat × Nat) :=
  if c.dir.2.1 = 0 || c.dir.2.2.2 = 0 then none
  else
    let e := expected wall c.dir
    match strongest c.returns with
    | some (r, i, t, code, sat) => if near300 r e && !sat then some (i, t - mmToTime e, code) else none
    | none => none

/-- A group of the walk round added: `k` is code x 6 + size. -/
def FullCal.addWalk (f : FullCal) (k : Nat) (seen : List CalSeen) : FullCal :=
  let got := seen.filterMap (fun c => (c.covered (fcWall f.par)).map (fun x => (x.1, roundRat x.2.1 - c.zero)))
  let old := (mget k f.walk).getD (0, 0, 0)
  { f with walk := mset k (old.1 + got.length, old.2.1 + (got.map (fun g => g.1)).sum, old.2.2 + (got.map (fun g => g.2)).sum) f.walk }

/-- A group of the zero round added (Table 7-7). -/
def FullCal.addZero (f : FullCal) (set : BitVec 37888) (ref : List Int) (seen : List CalSeen) : FullCal :=
  seen.foldl (fun f c => match c.covered (fcWall f.par) with
    | none => f
    | some (i, t, code) =>
      let r := roundRat t - (deltaRef set ref c.tdc - deltaRef set ref (1024 + c.ch / 256))
      let err := roundRat (t - c.zero - (walkOf (csWalk set code) i).1)
      { f with zero := mset c.ch (((mget c.ch f.zero).getD []) ++ [(r, i, code, err)]) f.zero }) f

/-- A group of the crosstalk round added: for each patch the strongest return near it, then the other slots' returns within
300 mm of that return's range. -/
def FullCal.addXt (f : FullCal) (seen : List CalSeen) : FullCal :=
  (List.range 4).foldl (fun f s =>
    let dist := fcPatch f.par s
    if dist = 0 then f
    else
      let cand := (seen.filter (fun c => c.ch / 256 == s && c.dir.2.1 != 0 && c.dir.2.2.2 != 0)).flatMap (fun c =>
        c.returns.filter (fun r => near300 r.1 (expected dist c.dir)))
      match strongest cand with
      | none => f
      | some (rs, is, _) =>
        let f := { f with xtI := mset s (max is ((mget s f.xtI).getD 0)) f.xtI }
        (List.range 4).foldl (fun f d =>
          if d = s then f
          else
            let got := ((seen.filter (fun c => c.ch / 256 == d)).flatMap (fun c => c.returns)).filter (fun r => within r.1 rs 300)
            let old := (mget (4 * s + d) f.xt).getD (0, 0)
            { f with xt := mset (4 * s + d) (old.1 + got.length, old.2 + (got.map (fun r => r.2.1)).sum) f.xt }) f) f

/-- A processed group of a calibration frame: its measurements go to the frame's own account, which joins the calibration
when the frame's last group is in, and is dropped when the frame is discarded (R207, R209). -/
def Device.calGroup (d : Device) (g : Group) (seen : List CalSeen) : Device :=
  match d.cal.full with
  | none => d
  | some f =>
    if g.frame < f.since then d
    else
      let base := match d.cal.work with
        | some (n, w) => if n = g.frame then w else f
        | none => f
      let walk := g.calStep < fcWalkFrames f.par
      let w := if walk then
          base.addWalk (((fcCodes f.par)[g.calStep / 12]?).getD 0 * 6 + g.calStep % 12 / 2) seen
        else
          let z := base.addZero g.cal g.ref seen
          if fcXt f.par then z.addXt seen else z
      if bit g.flags 12 || g.calBad then d.modCal (fun c => { c with work := none })
      else if bit g.flags 11 then
        d.modCal (fun c => { c with
          work := none, undo := some (g.frame, f)
          full := some { w with
            n := f.n, done := f.done, since := f.since, merged := f.merged + 1
            tsFirst := some (f.tsFirst.getD g.ts), tsLast := g.ts, tsSum := if walk then f.tsSum else f.tsSum + g.ts } })
      else d.modCal (fun c => { c with work := some (g.frame, w) })

/-- The walk table fitted through the mean pairs of the six window sizes (Table 7-7); none with fewer than two intensities. -/
def FullCal.fitWalk (f : FullCal) (code : Nat) : Option (BitVec 1056) :=
  let pairs := (List.range 6).filterMap (fun k => match mget (code * 6 + k) f.walk with
    | some (n, si, so) => if n = 0 then none else some (min 4095 (roundDiv si n), roundInt so (16 * n))
    | none => none)
  let sorted := pairs.mergeSort (fun a b => a.1 ≤ b.1)
  let uniq := sorted.foldl (fun (acc : List (Nat × Int)) p => match acc.getLast? with
    | some q => if q.1 = p.1 then acc else acc ++ [p]
    | none => [p]) []
  match uniq.head?, uniq.getLast? with
  | some a, some z =>
    if uniq.length < 2 then none
    else some (.ofNat 1056 (fields ([(24, uniq.length), (12, z.1), (0, a.1)] ++
      uniq.zipIdx.map (fun p => (32 + 32 * p.2, p.1.1 + (p.1.2 % 2 ^ 16).toNat * 2 ^ 16)))))
  | _, _ => none

/-- A set with the fitted walk tables. -/
def FullCal.withWalks (f : FullCal) (set : BitVec 37888) : BitVec 37888 :=
  (fcCodes f.par).foldl (fun b k => match f.fitWalk k with
    | some t => setFld b (768 + 1056 * k + 1055) (768 + 1056 * k) t.toNat
    | none => b) set

/-- Mean of a list, rounded. -/
def meanInt (l : List Int) : Int := roundInt l.sum l.length

/-- n^2 times the variance of a list. -/
def spread (l : List Int) : Nat := ((l.length : Int) * (l.map (fun x => x * x)).sum - l.sum * l.sum).toNat

/-- Standard deviation in whole units of 1/16 ps. -/
def deviation (l : List Int) : Nat := Nat.sqrt (spread l) / max 1 l.length

/-- The median: the mean of the middle two of an even number. -/
def median (l : List Int) : Int :=
  let s := l.mergeSort (fun a b => decide (a ≤ b))
  let n := s.length
  if n % 2 = 1 then (s[n / 2]?).getD 0 else roundInt ((s[n / 2 - 1]?).getD 0 + (s[n / 2]?).getD 0) 2

/-- A list whose standard deviation is at most 30 ps, 480 units of 1/16 ps (R208). -/
def steady (l : List Int) : Bool := spread l ≤ (480 * l.length) ^ 2

/-- A channel after the zero round: mean r and its deviation (1/16 ps), whether R208's limit accepts it, mean error and deviation in mm. -/
structure ChZero where
  ch : Nat
  r : Int
  sd : Nat
  good : Bool
  err : Int
  errSd : Nat

/-- 1/16 ps to mm, rounded. -/
def timeToMm (t : Int) : Int := roundInt (t * 299792458) 32000000000

/-- The zero round's channels under a set with the new walk tables. -/
def FullCal.zeros (f : FullCal) (set : BitVec 37888) : List ChZero :=
  f.zero.map (fun p =>
    let rs := p.2.map (fun m => m.1 - roundRat (walkOf (csWalk set m.2.2.1) m.2.1).1)
    let es := p.2.map (fun m => m.2.2.2)
    ⟨p.1, meanInt rs, deviation rs, steady rs, timeToMm (meanInt es), (timeToMm (deviation es)).toNat⟩)

/-- A signed 16-bit field, held at its ends. -/
def s16 (x : Int) : Nat := ((max (-32768) (min 32767 x)) % 2 ^ 16).toNat

/-- The new set of an accepted calibration (R207). -/
def FullCal.newSet (f : FullCal) (old : BitVec 37888) (good : List ChZero) (c : Cal) : BitVec 37888 :=
  let b := f.withWalks old
  let slot := fun (s : Nat) => (good.filter (fun z => z.ch / 256 == s)).map (fun z => z.r)
  let sz := (List.range 4).map (fun s => if (slot s).isEmpty then csSlotZero old s else roundInt (median (slot s)) 16)
  let b := (List.range 4).foldl (fun b s =>
    let b := setFld b (256 + 64 * s + 15) (256 + 64 * s) (s16 ((sz[s]?).getD 0))
    setFld b (256 + 64 * s + 47) (256 + 64 * s + 32) (roundInt (vget c.emitDelay s 0) 32).toNat) b
  let b := (List.range 1024).foldl (fun b ch =>
    let s := (sz[ch / 256]?).getD 0
    let v := match good.find? (fun z => z.ch == ch) with
      | some z => roundInt z.r 16 - s
      | none => csChZero old ch - (s - csSlotZero old (ch / 256))
    setFld b (4992 + 16 * ch + 15) (4992 + 16 * ch) (s16 v)) b
  let b := (List.range 1032).foldl (fun b n =>
    setFld b (21376 + 16 * n + 15) (21376 + 16 * n) (s16 (roundInt ((c.ref[n]?).getD 0) 16))) b
  let b := setFld (setFld b 31 16 (s16 (roundInt f.tsSum 8))) 15 0 (csRev old + 1)
  if !fcXt f.par then b
  else (List.range 16).foldl (fun b k =>
    let i := (mget (k / 4) f.xtI).getD 0
    let x := (mget k f.xt).getD (0, 0)
    setFld b (512 + 16 * k + 15) (512 + 16 * k)
      (if k / 4 = k % 4 || i = 0 || x.1 = 0 then 0 else sat 0xFFFF (roundDiv (65536 * x.2) (x.1 * i)))) b

/-- Slots that fire in the running plan. -/
def Device.firingSlots (d : Device) : List Nat :=
  (List.range 4).filter (fun s => (d.fire.descs d.fire.running.val).any (fun x =>
    (firedSlots x d.fire.offset).any (fun p => p.1 == s)))

/-- The calibration's rounds have ended: accepted, applied or rejected (R207, R208). -/
def Device.calFinish (d : Device) (f : FullCal) : Device :=
  let old := d.calNow.2
  let all := f.zeros (f.withWalks old)
  let good := all.filter (fun z => z.good)
  let reason :=
    if d.firingSlots.any (fun s => (good.filter (fun z => z.ch / 256 == s)).length < 64) then 1
    else if 10 * good.length < 9 * all.length then 2
    else if 300 < (f.tsLast - f.tsFirst.getD f.tsLast).natAbs then 3 else 0
  let applied := reason = 0 && fcApply f.par
  let d := d.modCal (fun c => { c with
    full := none, work := none, reason
    results := all.map (fun z => (z.ch, ⟨z.good, z.err, z.errSd⟩)) })
  let d := if applied then d.commitSet (f.newSet old good d.cal) else d
  let res := fullResult (csRev (if applied then d.calStored else d.calNow).2) (roundDiv ((all.map (fun z => z.sd)).foldl max 0) 16)
    ((good.map (fun z => z.err.natAbs)).foldl max 0) (if good.isEmpty then 0 else meanInt (good.map (fun z => z.err)))
    (all.length - good.length) all.length reason
  (d.complete .calFull sOk res).calEvent applied reason

/-- The frame whose measurements joined last still runs its GAP_AFTER: it can yet be cut (R80, R209). -/
def Device.calOpen (d : Device) : Bool := d.cal.undo.any (fun x => x.1 == d.fire.frameNo) && decide (d.now < d.fire.frameEnd)

/-- CAL_FULL_DONE acts when every calibration frame has ended and its measurements are in. -/
def Device.calFullDone (d : Device) : Device :=
  match d.cal.full with
  | some f => if fcFrames f.par ≤ f.merged && !d.calOpen then d.calFinish f else d
  | none => d

/-- CAL_FULL_DONE (R208). -/
def execCalFullDone (dt : Nat) (s : State) : Host.Outcome State Fault Refusal := coreRow dt Device.calFullDone s

end Sys2Proof.Machine
end

