-- ==== Sys2Proof/Machine/Pairs.lean ====
section
/-! DEFINITION. A pair's way after its group: hand-over, processing to points, zones and memories, export units out and imported
units in (R143, R144, R152-R159, R162-R184, R201). -/

namespace Sys2Proof.Machine

open Sys2Proof

/-! Records (Tables 3-7, 6-3, 6-5). -/

/-- The group status record (R104). MISS is the largest of the slots' total misses in the group, not R94's count over the last 64 fired
shots: the spec does not say which (DESIGN CHOICE, log entry 162). -/
def Group.record (g : Group) : Bytes :=
  let miss := (g.slots.toList.map (fun s => s.misses)).foldl max 0
  .mk' 32 (fields [(192, g.startNs.toNat), (160, g.frame % 2 ^ 32), (144, g.gen % 2 ^ 16), (128, descTag g.desc), (112, g.shots % 2 ^ 16),
    (104, g.idx % 256), (98, (g.offset % 64).toNat), (96, g.woff % 4), (93, g.plan.val), (80, g.flags.toNat), (64, sat 0xFFFF miss),
    (48, (vget g.slots 3 {}).fired % 2 ^ 16), (32, (vget g.slots 2 {}).fired % 2 ^ 16), (16, (vget g.slots 1 {}).fired % 2 ^ 16),
    (0, (vget g.slots 0 {}).fired % 2 ^ 16)])

/-- A point record (Table 6-3). -/
def pointRecord (time width conf bkg intensity range flags woff ret ch : Nat) : Bytes :=
  .mk' 16 (fields [(96, time % 2 ^ 32), (88, width), (80, conf), (64, bkg), (52, intensity), (32, range), (13, woff % 8), (11, ret),
    (0, ch)] + flags)

/-- The trailer (Table 6-5). -/
def trailer (occ blind frame group points rain intf ab over_ proc lanes : Nat) : Bytes :=
  .mk' 32 (fields [(192, occ), (128, blind), (96, frame % 2 ^ 32), (88, group % 256), (72, points), (60, sat 4095 rain),
    (48, sat 4095 intf), (36, sat 4095 ab), (24, sat 4095 over_), (8, sat 0xFFFF proc), (0, lanes)])

/-! A channel in processing. -/

/-- A channel with its input, place and results. -/
structure ChanOut where
  inp : ChanIn
  slot : Nat
  stripe : Nat
  win : Nat
  dir : Int × Nat × Int × Nat
  /-- It has enabled SPADs and a TDC (its status word shows ENABLED). -/
  live : Bool
  /-- Flags of the channel and its slot: WITMISS, EDGE, REPLACED_CH. -/
  extra : Nat
  tdc : Nat
  zero : Int
  cands : List Cand := []
  beyond : Nat := 0
  sel : List Cand := []

def ChanOut.ch (c : ChanOut) : Nat := c.inp.ch

/-- ENABLED, CAPPED, EDGE and REPLACED of a channel status word (Table 4-9). -/
def stEnabled (s : BitVec 32) : Nat := fld s 15 10
def stCapped (s : BitVec 32) : Nat := fld s 31 16

/-- Flags 25 and 27 of a status word, and 23 for a slot with misses. -/
def extraFlags (s : BitVec 32) (miss : Bool) : Nat := fields [(23, miss.toNat), (25, (bit s 4).toNat), (27, (bit s 3).toNat)]

/-- Stages 1 to 4 with ranges: candidates measured and corrected (R165-R173). -/
def ChanOut.detect (c : ChanOut) (rc : BitVec 256) (walk : Nat → Nat → Rat × Bool) : ChanOut :=
  if !c.live then c
  else
    let r := c.inp.candidates rc
    { c with cands := r.1.map (fun x => x.ranged rc c.zero walk), beyond := r.2 }

/-- Stage 5's precipitation test over all channels (R175): `echo` gives a channel's remembered ranges. -/
def rainAll (rc : BitVec 256) (nc nr : Nat) (echo : ChanOut → List Nat) (l : List ChanOut) : List ChanOut :=
  let ranges : Map (List Nat) := (l.filter (fun c => !c.cands.isEmpty)).map (fun c => (c.ch, c.cands.map (fun x => x.range)))
  l.map (fun c =>
    if c.cands.isEmpty then c
    else
      let near := (gridNeighbours nc nr c.win).map (fun w => (mget (256 * c.slot + w) ranges).getD [])
      { c with cands := c.cands.map (fun x => { x with rain := x.rainy rc near (echo c) }) })

/-- Stage 6 (R176). -/
def selectAll (t : BitVec 512) (rc : BitVec 256) (l : List ChanOut) : List ChanOut :=
  l.map (fun c => if c.cands.isEmpty then c else { c with sel := select t rc c.cands })

/-- The source of a slot for ghost rejection: intensity and range of its strongest selected return (R201). -/
def ghostSource (l : List ChanOut) (imin s : Nat) : Option (Nat × Nat) :=
  match ((l.filter (fun c => c.slot == s)).flatMap (fun c => c.sel.map (fun x => (x.intensity, x.range)))).foldl
    (fun (a : Option (Nat × Nat)) x => match a with | some y => if y.1 < x.1 then some x else a | none => some x) none with
  | some x => if x.1 < imin then none else some x
  | none => none

/-- A selected return is a ghost of a source of another slot. -/
def isGhost (set : BitVec 37888) (src : List (Option (Nat × Nat))) (slot : Nat) (x : Cand) : Bool :=
  (List.range 4).any (fun s => s != slot && (match (src[s]?).getD none with
    | some (i, r) => csXt set s slot != 0 && within x.range r (csXtDr set) &&
        decide (x.intensity * 65536 ≤ 2 * csXt set s slot * i)
    | none => false))

/-- Ghosts removed, and how many (R201). -/
def dropGhosts (set : BitVec 37888) (l : List ChanOut) : List ChanOut × Nat :=
  let src := (List.range 4).map (ghostSource l (csXtImin set))
  let out := l.map (fun c => if c.sel.isEmpty then c else { c with sel := c.sel.filter (fun x => !isGhost set src c.slot x) })
  (out, (l.map (fun c => c.sel.length)).sum - (out.map (fun c => c.sel.length)).sum)

/-- The records of a channel (R177, R178): an empty one with EMIT_EMPTY. -/
def ChanOut.records (c : ChanOut) (rc : BitVec 256) (time woff : Nat) (fired : Bool) : List (Bytes × Cand × Bool) :=
  let bkg := bkgCode (c.inp.a.guard + c.inp.b.guard) (c.inp.a.shots + c.inp.b.shots)
  let blank : Cand :=
    { bin := 0, f := 0, ext := (0, 0), t := 0, code := 0, zoom := false, split := false, sat := false, lowsnr := false
      s := 0, intensity := 0, width := 0, conf := 0, abFail := false, intf := false }
  if c.sel.isEmpty then
    if rcEmpty rc && c.live && fired then [(pointRecord time 0 0 bkg 0 0xFFFFF c.extra woff 0 c.ch, blank, false)] else []
  else c.sel.zipIdx.map (fun p =>
    (pointRecord time p.1.width p.1.conf bkg p.1.intensity p.1.range (p.1.flags c.extra) woff p.2 c.ch, p.1, true))

/-! A local group's channels. -/

/-- Sub-histogram of a plane for a channel. -/
def Hist.sub (h : Hist) (plane ch guard shots : Nat) (capped : Bool) : Sub2 :=
  ⟨binsIn h.bins (binKey plane ch 0) 4096, guard, shots, capped⟩

/-- The input of a channel of a group (R162). -/
def Hist.chanIn (h : Hist) (g : Group) (ch : Nat) : ChanIn :=
  let r := h.sideOf g.pair ch
  let capped := stCapped r.status != 0
  { ch
    a := h.sub (2 * g.pair.toNat) ch r.guardA r.shotsA capped
    b := h.sub (2 * g.pair.toNat + 1) ch r.guardB r.shotsB capped
    zoom := if r.gateSrc = 0 then [] else binsIn h.bins (binKey (4 + g.pair.toNat) ch 0) 4096
    gateSrc := r.gateSrc, gateStart := r.gateStart, cfg := g.planecfg, tmpl := g.template, margin := g.edgeMargin
    status := r.status, imported := false, satRange := none }

/-- The channels of a group's firing slots before detection. -/
def Device.groupChans (d : Device) (g : Group) : List ChanOut :=
  (List.range 4).flatMap (fun s =>
    let st := vget g.slots s {}
    if st.stripe = idleStripe then []
    else (List.range (lyNc g.layout * lyNr g.layout)).filterMap (fun w =>
      (windowOf g.layout st.stripe g.woff w).map (fun win =>
        let ch := 256 * s + w
        let inp := d.hist.chanIn g ch
        let tdc := (mget ch g.spares).getD ch
        { inp, slot := s, stripe := st.stripe, win := w, dir := windowDir g.lens win, live := stEnabled inp.status != 0
          extra := extraFlags inp.status (st.misses != 0), tdc, zero := zeroOf g.cal g.ref g.ts ch tdc s })))

/-- A local group's channels after stages 1 to 6 and ghost rejection. -/
def Device.groupReturns (d : Device) (g : Group) : List ChanOut × Nat :=
  let fired := fun (c : ChanOut) => (vget g.slots c.slot {}).fired != 0
  let l := (d.groupChans g).map (fun c =>
    if fired c then c.detect g.retCfg (fun code i => walkOf (csWalk g.cal code) i) else c)
  let echo := fun (c : ChanOut) => match mget (c.stripe * 256 + c.win) d.ret.echo with
    | some (rs, ly, fr) => if ly = g.layoutIdx ∧ (g.frame + 2 ^ 32 - fr) % 2 ^ 32 ≤ g.trackAge then rs else []
    | none => []
  dropGhosts g.cal (selectAll g.template g.retCfg (rainAll g.retCfg (lyNc g.layout) (lyNr g.layout) echo l))

/-! Memories (R147, R175). -/

/-- A channel's track entry after a group: the range of its strongest return to the nearest cm, the first in selection order among equal
intensities (DESIGN CHOICE, log entry 188). -/
def trackAfter (t : Map Track) (g : Group) (c : ChanOut) : Map Track :=
  let key := c.stripe * 256 + c.win
  match (c.sel.mergeSort (fun a b => b.intensity ≤ a.intensity)).head? with
  | some x => mset key ⟨min 0xFFFE (roundDiv x.range 10), g.layoutIdx, 0⟩ t
  | none => match mget key t with
    | some e => if g.trackAge < e.age + 1 then mdel key t else mset key { e with age := e.age + 1 } t
    | none => t

/-- A channel's echo entry after a group. -/
def echoAfter (e : Map (List Nat × Nat × Nat)) (g : Group) (c : ChanOut) : Map (List Nat × Nat × Nat) :=
  let key := c.stripe * 256 + c.win
  let rs := (c.sel.filter (fun x => !x.rain)).map (fun x => x.range)
  if rs.isEmpty then mdel key e else mset key (rs, g.layoutIdx, g.frame) e

/-! Saturation marks and the export tee (R151, R152). -/

/-- A channel's side record with the marks of its bins. -/
def markSat (g : Group) (c : ChanIn) (r : SideRec) : SideRec :=
  let bad := (((c.a.bins.filter (fun p => saturated c.cfg c.a.shots p.2)).map (fun p => p.1)) ++
    ((c.b.bins.filter (fun p => saturated c.cfg c.b.shots p.2)).map (fun p => p.1)))
  let r := { r with satZ := c.zoom.any (fun p => saturated g.planecfg (if p.1 < 2048 then c.a.shots else c.b.shots) p.2) }
  match bad.min?, bad.max? with
  | some lo, some hi => { r with satF := true, satLo := lo, satHi := hi }
  | _, _ => r

/-- Sums A + B of all channels of a pair, into a plane. -/
def tee (bins : Sparse Nat) (pair x : Nat) : Sparse Nat :=
  (binsIn bins (binKey (2 * pair) 0 0) (1024 * 4096) ++ binsIn bins (binKey (2 * pair + 1) 0 0) (1024 * 4096)).foldl
    (fun m p => sset m (binKey x 0 0 + p.1) (min 0xFFFF (sget m (binKey x 0 0 + p.1) + p.2))) (clearPlane bins x)

/-- The records of a pair by channel with their marks. -/
def Hist.unitRecs (h : Hist) (g : Group) : Map SideRec :=
  ((h.side.filter (fun p => p.1 / 1024 == g.pair.toNat)).map (fun p =>
    (p.1 % 1024, markSat g (h.chanIn g (p.1 % 1024)) p.2)))

/-- The unit a group opens in an export plane. -/
def Hist.openUnit (h : Hist) (g : Group) : ExportUnit :=
  { startNs := g.startNs, frame := g.frame, gen := g.gen, seq := h.unitSeq, fbin := pcFbin g.planecfg, group := g.idx
    plan := g.plan.val, tag := descTag g.desc, recs := [] }

/-- A group takes a plane: FILLING, with the next UNIT_SEQ. -/
def Hist.fill (h : Hist) (g : Group) (p : Nat) : Hist :=
  { h.setPlane p { st := .filling, unit := some (h.openUnit g) } with unitSeq := h.unitSeq + 1 }

/-- A FREE export plane: 6 first, 7 while in export use. -/
def Hist.freeExport (h : Hist) : Option Nat :=
  if h.p6.st == .free then some 6 else if h.p7Export && h.p7.st == .free then some 7 else none

/-- A unit not exported: E_Q_DROP with reason SOURCE (R183, Table 14-6). -/
def Device.notExported (d : Device) : Device :=
  if d.hist.expSet.queue = 0xFFFF then d else d.countDrop d.hist.expSet.queue 3 d.hist.unitSeq

/-- The group takes an export plane; with none FREE the DRAINING unit is abandoned first (R152, R153). -/
def Device.takePlane (d : Device) (g : Group) : Device :=
  match d.hist.freeExport with
  | some p => (d.serveBank (p - 4) false).modHist (fun h => h.fill g p)
  | none =>
    match [6, 7].find? (fun p => (d.hist.plane p).st == .draining) with
    | some p => (d.abandonUnit p 3).modHist (fun h => (h.fill g p).nextDrain)
    | none => (d.modHist Hist.nextDrain).notExported

/-! Hand-over (R143, R183, R199). -/

/-- Pair p released: its planes and records are zeroed (R144). -/
def Hist.releasePair (h : Hist) (p : Nat) : Hist :=
  { h with
    bins := clearPlane (clearPlane (clearPlane h.bins (2 * p)) (2 * p + 1)) (4 + p)
    side := h.side.filter (fun x => x.1 / 1024 != p)
    pairs := vset h.pairs p .free, groups := vset h.groups p none, marked := vset h.marked p false }

/-- All markers of an accumulating pair are taken: no event word of it is left in X2. -/
def Hist.readyPair (h : Hist) : Option Nat :=
  (List.range 2).find? (fun p => vget h.pairs p .free == .accumulating && vget h.marked p false &&
    h.x2.all (fun q => q.2.all (fun w => bit w 31 != (p == 1))))

/-- The unit of a group that was not processed: status record and trailer (R183). -/
def Device.emptyUnit (d : Device) (g : Group) : Device × Put :=
  if g.calFrame || g.points = 0xFFFF then (d, .unsent)
  else d.putStream g.points true 0 1 16 0 (fields [(0, g.idx % 256), (8, g.frame % 2 ^ 24)])
    (g.record.app (trailer d.occNow d.blindNow g.frame g.idx 0 0 0 0 0 0 0))

/-- A pair handed over; with no lanes it waits where its unit does (R255); the return processor is asked for it (R361). -/
def Device.handover (d : Device) : Device :=
  match d.hist.readyPair with
  | none => d
  | some p => match vget d.hist.groups p none with
    | none => d.modHist (fun h => h.releasePair p)
    | some g =>
      if d.lanesNow = 0 && (d.emptyUnit g).2 = .waits then (d.emptyUnit g).1 else
      let d := (d.serve [2, 3]).rateHandover.trackDelays g
      let g := { g with handClk := d.now, lanes := d.ret.lanes }
      if d.ret.lanes = 0 then
        let d := if descExport g.desc && d.hist.exp.st == .on then d.notExported else d
        ((d.modHist (fun h => h.releasePair p)).emptyUnit g).1
      else d.modHist (fun h => { h with
        pairs := vset h.pairs p .handed, groups := vset h.groups p (some g), marked := vset h.marked p false })

/-- PAIR_HANDOVER (R143). -/
def execPairHandover (dt : Nat) (s : State) : Host.Outcome State Fault Refusal := coreRow dt Device.handover s

/-! Processing (R11, R144). -/

/-- The handed-over pair whose group came first. -/
def Hist.nextPair (h : Hist) : Option (Nat × Group) :=
  let l := (List.range 2).filterMap (fun p =>
    if vget h.pairs p .free == .handed then (vget h.groups p none).map (fun g => (p, g)) else none)
  (l.mergeSort (fun a b => a.2.startClk ≤ b.2.startClk)).head?

/-- A waiting hold captures a group (R157): the named index, or with 0xFF a group that exports. -/
def Device.captureHold (d : Device) (g : Group) (exports : Bool) : Device :=
  match d.hist.hold with
  | some (idx, _) =>
    if d.hist.holdTaken && d.hist.p7.st == .free && (idx == g.idx || (idx == 0xFF && exports)) then
      (d.serveBank 3 false).modHist (fun h => { h with p7 := { st := .filling, unit := some (h.openUnit g) } })
    else d
  | none => d

/-- Processing of the next pair starts once no other is in processing. -/
def Device.procStart (d : Device) : Device :=
  if (List.range 2).any (fun p => vget d.hist.pairs p .free == .processing) then d
  else match d.hist.nextPair with
    | none => d
    | some (p, g) =>
      let d := d.modHist (fun h => { h with pairs := vset h.pairs p .processing })
      let d := d.modRet (fun r => { r with zoned := false })
      let exports := !g.calFrame && descExport g.desc && d.hist.exp.st == .on
      let d := d.captureHold g exports
      if !exports then d else if 2 ≤ d.power.step then d.notExported else d.takePlane g

/-- RET_PROCESSING_START (R11). -/
def execRetProcessingStart (dt : Nat) (s : State) : Host.Outcome State Fault Refusal := coreRow dt Device.procStart s

/-- A plane that the group fills is written, then FULL, or HELD for a hold, whose command completes (R152, R157). -/
def Device.closePlane (d : Device) (g : Group) (p : Nat) : Device :=
  if (d.hist.plane p).st != .filling then d
  else
    let recs := d.hist.unitRecs g
    let held := p == 7 && d.hist.holdTaken
    let d := d.modHist (fun h =>
      let h := { h with bins := tee h.bins g.pair.toNat p }
      let x := h.plane p
      h.setPlane p { x with st := if held then .held else .full, unit := x.unit.map (fun u => { u with recs := recs, shots := g.slotShots }) })
    if held then (d.modHist (fun h => { h with hold := none, holdTaken := false })).complete .hold sOk Bytes.nil
    else d.modHist Hist.nextDrain

/-- Sums of the window monitor by slot (R188): net counts in 1/16 over the bins within WIN_RANGE, by bin centre. -/
def windowSums (g : Group) (l : List ChanOut) : List Int :=
  (List.range 4).map (fun s => ((l.filter (fun c => c.slot == s && c.live)).map (fun c =>
    let lim := mkRat ((2 * rcWinRange g.retCfg + 1) * 16000000000) 299792458 + c.zero
    let n := (lim / (binWidth16 (pcFbin g.planecfg) : Nat) - 1 / 2).ceil.toNat
    ((List.range (min 4096 n)).map (fun (i : Nat) => c.inp.full.net i)).sum)).sum)

/-- What zone watch sees of a group (R191). -/
def zoneChans (g : Group) (l : List ChanOut) : List ZoneChan :=
  l.map (fun c => ⟨c.dir, c.live && decide (g.shots ≤ 2 * (vget g.slots c.slot {}).fired),
    c.sel.map (fun x => (x.range, x.conf, x.flags c.extra))⟩)

/-- A group's point unit (R180). -/
def Device.pointUnit (d : Device) (g : Group) (l : List ChanOut) : Nat × Bytes :=
  let time := (g.startNs.toNat + g.shots * descPeriod g.desc / 2 + 2 ^ 64 - g.frameNs.toNat) % 2 ^ 64
  let recs := l.flatMap (fun c => c.records g.retCfg time g.woff ((vget g.slots c.slot {}).fired != 0))
  let cnt := fun (f : Cand → Bool) => (recs.filter (fun r => f r.2.1)).length
  (recs.length, (g.record.app (.cat (recs.map (fun r => r.1)))).app
    (trailer d.occNow d.blindNow g.frame g.idx recs.length (cnt (fun x => x.rain)) (cnt (fun x => x.intf))
      (cnt (fun x => x.abFail)) ((l.map (fun c => c.beyond)).sum) ((d.now - g.handClk) / us) g.lanes))

/-- The end of a group's processing after its unit has gone: memories, planes, window monitor, calibration, release (R144). -/
def Device.procFinish (d : Device) (g : Group) (l : List ChanOut) (ghosts : Nat) : Device :=
  let d := (d.closePlane g 6).closePlane g 7
  let d := d.windowGroup g.frame (windowSums g l) (g.slots.toList.map (fun s => s.fired)) (bit g.flags 11 || bit g.flags 12)
  let d := if g.calFrame then
      d.calGroup g (l.map (fun c => ⟨c.ch, c.tdc, c.dir, c.zero, c.sel.map (fun x => (x.range, x.intensity, x.t, x.code, x.sat))⟩))
    else d
  let d := d.modCal (fun c => { c with ghosts := sat 0xFFFFFFFF (c.ghosts + ghosts) })
  let d := d.modRet (fun r => { r with
    echo := l.foldl (fun e c => echoAfter e g c) r.echo, procTime := d.now - g.handClk, processed := r.processed + 1, zoned := false })
  d.modHist (fun h => Hist.releasePair { h with track := l.foldl (fun t c => trackAfter t g c) h.track } g.pair.toNat)

/-- Processing ends (R144): zone watch first, then the unit; where the queue makes the processor wait, it stalls (R181). -/
def Device.procEnd (d : Device) : Device :=
  match (List.range 2).find? (fun p => vget d.hist.pairs p .free == .processing) with
  | none => d
  | some p => match vget d.hist.groups p none with
    | none => d.modHist (fun h => h.releasePair p)
    | some g =>
      let r := d.groupReturns g
      let d := if g.calFrame || d.ret.zoned then d
        else d.zoneWatch g.zmap g.zmapOk g.zoneMap g.offset g.frame g.idx (zoneChans g r.1)
      if g.calFrame || g.points = 0xFFFF then d.procFinish g r.1 r.2
      else
        let u := d.pointUnit g r.1
        let put := d.putStream g.points true 0 1 16 u.1 (fields [(0, g.idx % 256), (8, g.frame % 2 ^ 24)]) u.2
        if put.2 = .waits then put.1.modRet (fun r => { r with zoned := true }) else put.1.procFinish g r.1 r.2

/-- RET_PROCESSING_END (R144). -/
def execRetProcessingEnd (dt : Nat) (s : State) : Host.Outcome State Fault Refusal := coreRow dt Device.procEnd s

/-! Export (R155, R158). -/

/-- The plane that drains: an export unit, or the held plane being sent. -/
def Hist.drains (h : Hist) : Option Nat :=
  if h.p6.st == .draining then some 6 else if h.p7.st == .draining then some 7
  else if h.p7.st == .held && h.p7.sending then some 7 else none

/-- The last chunk has gone: the plane is FREE and the next unit drains, or the send completes. -/
def Device.drained (d : Device) (p : Nat) (u : ExportUnit) : Device :=
  if (d.hist.plane p).st == .held then
    (d.modHist (fun h => { h with p7 := { h.p7 with sending := false, chunk := 0, unit := some u } })).complete .send sOk Bytes.nil
  else
    let d := d.modHist (fun h => { (h.freePlane p).nextDrain with exported := h.exported + 1 })
    if d.hist.exp.st == .stopping then d.exportOff else d

/-- The next chunk enters the export queue when its credits cover it (R155). -/
def Device.exportChunk (d : Device) : Device :=
  match d.hist.drains with
  | none => d
  | some p => match (d.hist.plane p).unit with
    | none => d.modHist (fun h => (h.freePlane p).nextDrain)
    | some u =>
      let x := d.hist.plane p
      let e := d.hist.expSet
      let put := if e.queue = 0xFFFF then (d, Put.unsent)
        else d.putUnit e.queue d.ring.node true (fun _ => d.chunkBytes p (if x.st == .held then 1 else 0) u x.chunk)
      if put.2 = .waits then put.1
      else
        let d := put.1.modHist (fun h => h.setPlane p { h.plane p with chunk := x.chunk + 1 })
        if x.chunk + 1 < e.chunks then d else d.drained p u

/-- EXPORT_CHUNK_ENQUEUE (R155). -/
def execExportChunkEnqueue (dt : Nat) (s : State) : Host.Outcome State Fault Refusal := coreRow dt Device.exportChunk s

/-! Import (R159, R184). -/

/-- Fields of a chunk header (Table 5-7) as a number. -/
def ckSeq (h : Nat) : Nat := nfld h 127 112
def ckChunk (h : Nat) : Nat := nfld h 111 96
def ckChunks (h : Nat) : Nat := nfld h 95 80
def ckBins (h : Nat) : Nat := nfld h 79 67
def ckFirst (h : Nat) : Nat := nfld h 66 55
def ckCount (h : Nat) : Nat := nfld h 54 49
def ckCh (h : Nat) : Nat := nfld h 48 38
def ckNode (h : Nat) : Nat := nfld h 24 20
def ckSrc (h : Nat) : Nat := nfld h 19 18

/-- A chunk whose lengths agree with Table 5-7. -/
def chunkOk (b : Bytes) : Bool :=
  let h := (b.slice 0 32).val
  decide (b.len = 32 + ckCount h * (16 + 2 * ckBins h)) && decide (ckCh h + ckCount h ≤ 1024) &&
    decide (ckFirst h + ckBins h ≤ 4096) && decide (ckChunk h < ckChunks h)

/-- E_HIST_IMPORT (Table 5-10). -/
def Device.importEvent (d : Device) (reason : Nat) : Device :=
  let h := d.hist.imp.hdr.toNat
  d.raise 0x0401 d.hist.imp.queue (fields [(248, reason), (243, ckNode h), (227, ckSeq h), (211, d.hist.imp.got.length)])

/-- The unit in plane 7 given up: bins and records cleared. -/
def Hist.importClear (h : Hist) : Hist :=
  { h with
    bins := clearPlane h.bins 7
    imp := { h.imp with got := [], active := false, recs := [], complete := false, slices := 0 } }

/-- A chunk written into plane 7 and the import record area. -/
def Hist.importChunk (h : Hist) (b : Bytes) (now : Nat) : Hist :=
  let hd := (b.slice 0 32).val
  let h := (List.range (ckCount hd)).foldl (fun (h : Hist) i =>
    let off := 32 + i * (16 + 2 * ckBins hd)
    let ch := ckCh hd + i
    let bins := (List.range (ckBins hd)).foldl (fun m k =>
      sset m (binKey 7 ch (ckFirst hd + k)) ((b.slice (off + 16 + 2 * k) 2).val)) h.bins
    { h with bins, imp := { h.imp with recs := mset ch (SideRec.ofExport (b.slice off 16).val) h.imp.recs } }) h
  let got := if h.imp.got.contains (ckChunk hd) then h.imp.got else ckChunk hd :: h.imp.got
  let full := got.length = ckChunks hd
  { h with imp := { h.imp with
      got, active := true, complete := full, doneAt := if full then now else h.imp.doneAt
      hdr := if ckChunk hd = 0 || !h.imp.active then .ofNat 256 hd else h.imp.hdr } }

/-- One unit of the import queue dequeued; a chunk of another unit discards an incomplete one with reason 1 (R159). -/
def Device.importDequeue (d : Device) : Device :=
  let i := d.hist.imp
  if !i.enabled || !i.owns || i.complete || i.queue = 0xFFFF then d
  else match (d.queue i.queue).nextFor 33 with
    | none => d
    | some u =>
      let b := u.data
      let hd := (b.slice 0 32).val
      let d := d.take i.queue 33 u.useq
      if !chunkOk b || ckSrc hd != 0 || (i.source != 0xFF && ckNode hd != i.source) then d
      else
        let cur := i.hdr.toNat
        let other := i.active && (ckSeq cur != ckSeq hd || ckNode cur != ckNode hd)
        let d := if other then
            (d.importEvent 1).modHist (fun h => { h.importClear with impDiscarded := h.impDiscarded + 1 })
          else d
        d.modHist (fun h => h.importChunk b d.now)

/-- IMPORT_CHUNK_DEQUEUE (R159). -/
def execImportChunkDequeue (dt : Nat) (s : State) : Host.Outcome State Fault Refusal := coreRow dt Device.importDequeue s

/-- Time of a slice of 64 channels at the rate in force, in ns (R182). -/
def Device.sliceTime (d : Device) : Nat := ceilDiv (64 * 4096 * 10) (max 1 (reff d.ret.lanes d.ret.f10))

/-- The slots of a descriptor's shots together. -/
def descLen (x : BitVec 256) : Nat := descShots x * descPeriod x

/-- The descriptor of the next group: at the head of the shot queue, or to be enqueued next, or the first of the selected plan. -/
def Fire.nextDesc (f : Fire) : BitVec 256 :=
  match f.shotQ with
  | q :: _ => q.desc
  | [] => (if f.phase == .running && decide (f.grpIdx < hdrCount (f.header f.running.val)) then f.desc? f.running.val f.grpIdx
           else f.desc? f.selected.val 0).getD 0

/-- The earliest instant at which the next local group can be handed over: a truncated group ends with its present slot (R98); none while
none can start. -/
def Device.nextHandover (d : Device) : Option Nat :=
  match d.fire.grp with
  | some g => some (if bit g.flags 1 then (if g.shots = 0 then d.now else d.fire.slotClk + descPeriod g.desc) else g.startClk + descLen g.desc)
  | none =>
    if d.fire.fn.st == .on || d.fire.fn.st == .starting then some (max d.now d.fire.gapUntil + descLen d.fire.nextDesc) else none

/-- A slice starts when no local group is handed over, processed, or ended and about to be handed over, and when it ends before the next
hand-over can come (R159). Slices follow one another. A self-test slice of the return processor gives way to it, but a reserved one is
waited for (R361, R362). -/
def Device.importSlice (d : Device) : Device :=
  let busy := (List.range 2).any (fun p => vget d.hist.pairs p .free == .handed || vget d.hist.pairs p .free == .processing ||
    (vget d.hist.pairs p .free == .accumulating && vget d.hist.marked p false))
  let room := d.nextHandover.all (fun t => decide (d.now + d.sliceTime ≤ t))
  if d.hist.imp.complete && d.hist.imp.slices < 16 && d.ret.lanes != 0 && !busy && room && decide (d.hist.imp.sliceUntil ≤ d.now) &&
      !d.bist.reservedIn [2, 3] then
    (d.serve [2, 3]).modHist (fun h => { h with imp := { h.imp with slices := h.imp.slices + 1, sliceUntil := d.now + d.sliceTime } })
  else d

/-- IMPORT_SLICE_START (R159). -/
def execImportSliceStart (dt : Nat) (s : State) : Host.Outcome State Fault Refusal := coreRow dt Device.importSlice s

/-- An imported channel (R184). -/
def Device.importChan (d : Device) (p : Nat × SideRec) : ChanOut :=
  let h := d.hist.imp.hdr.toNat
  let r := p.2
  let inp : ChanIn :=
    { ch := p.1, a := d.hist.sub 7 p.1 r.guardA r.shotsA (stCapped r.status != 0), b := ⟨[], 0, 0, false⟩, zoom := [], gateSrc := 0
      gateStart := 0, cfg := .ofNat 64 (nfld h 37 36), tmpl := d.ret.template (rcImport d.ret.cfg), margin := 0, status := r.status
      imported := true, satRange := if r.satF then some (r.satLo, r.satHi) else none }
  { inp, slot := p.1 / 256, stripe := 0, win := p.1 % 256, dir := (0, 0, 0, 0), live := stEnabled r.status != 0
    extra := extraFlags r.status false, tdc := p.1, zero := 0 }

/-- The unit processed as a single plane; its points go out behind the chunk 0 header (R184). -/
def Device.importDone (d : Device) : Device :=
  let i := d.hist.imp
  if !i.complete || i.slices < 16 || d.now < i.sliceUntil then d
  else
    let rc := d.ret.cfg
    let t := d.ret.template (rcImport rc)
    let ly := Config.importLayout i.hdr
    let l := (i.recs.map d.importChan).map (fun c => c.detect rc (fun _ _ => (0, false)))
    let l := selectAll t rc (rainAll rc (lyNc ly) (lyNr ly) (fun _ => []) l)
    let recs := l.flatMap (fun c => c.records rc 0xFFFFFFFF (Config.importWoff i.hdr).toNat true)
    let cnt := fun (f : Cand → Bool) => (recs.filter (fun r => f r.2.1)).length
    let h := i.hdr.toNat
    let body := ((Bytes.mk' 32 h).app (.cat (recs.map (fun r => r.1)))).app
      (trailer 0 0 (nfld h 191 160) (nfld h 35 28) recs.length (cnt (fun x => x.rain)) (cnt (fun x => x.intf)) 0
        ((l.map (fun c => c.beyond)).sum) ((d.now - i.doneAt) / us) d.ret.lanes)
    let put := if i.points = 0xFFFF then (d, Put.unsent)
      else d.putStream i.points true 0 1 16 recs.length (fields [(0, nfld h 35 28), (8, nfld h 191 160 % 2 ^ 24)]) body
    if put.2 = .waits then put.1
    else (put.1.importEvent 0).modHist (fun h => { h.importClear with imported := h.imported + 1 })

/-- IMPORT_UNIT_DONE (R184). -/
def execImportUnitDone (dt : Nat) (s : State) : Host.Outcome State Fault Refusal := coreRow dt Device.importDone s

end Sys2Proof.Machine
end

