-- ==== Sys2Proof/Machine/Firing.lean ====
section
/-! DEFINITION. The firing controller: frame triggers and their overlap policy (R78-R82), starting and stopping (R96-R98),
emitter faults (R94-R96), the budget check (R91), the bias fault (R111) and the calendar (R102, R103). -/

namespace Sys2Proof.Machine

open Sys2Proof

/-- The scan planner and firing controller changed. -/
def Device.modFire (d : Device) (f : Fire → Fire) : Device := { d with fire := f d.fire }

/-- E_FIRE_STATE (Table 3-10). -/
def Device.fireEvent (d : Device) : Device := d.raise 0x0206 0 (d.fire.fn.word d.now ms * 2 ^ 224)

/-! Triggers (R79-R82). -/

/-- The plan whose period and cap count: the running one once a frame has run since ON, else the selected one. -/
def Fire.planNow (f : Fire) : Nat := if f.firstSlot.isSome then f.running.val else f.selected.val

/-- FRAME_PERIOD of the running plan. -/
def Fire.period (f : Fire) : Nat := hdrPeriod (f.header f.planNow)

/-- A frame runs or is pending (R79). -/
def Fire.inFrame (f : Fire) (now : Nat) : Bool := f.phase != .idle || decide (now < f.frameEnd)

/-- What the overlap policy treats as a running frame: a frame, the frame cap of ladder step 3 (Table 14-6), or a general
switchover (R391). -/
def Device.occupied (d : Device) : Bool := d.fire.inFrame d.now || decide (d.now < d.fire.capUntil) || d.sec.switchAt.isSome

/-- A trigger counted (R80). -/
def Device.countTrig (d : Device) : Device :=
  d.modFire (fun f => { f with counted := f.counted + 1, countedAll := f.countedAll + 1 })

/-- A trigger starts the pending of its frame; a survey or reference pass, and a slice of rows 1, 4 and 6, is aborted (R126, R197, R361). -/
def Device.acceptTrig (d : Device) (t : Trig) : Device :=
  (((d.serve [1, 4, 6]).modFire (fun f => { f with phase := .pending, trig := t, lastAcc := some t.at_ })).modRx
    (fun r => { r with survey := none })).modCal (fun c => { c with passRun := none })

/-- The held trigger starts the next frame once nothing stands in its way. -/
def Device.promote (d : Device) : Device :=
  match d.fire.held with
  | none => d
  | some t =>
    if d.fire.fn.st != .on || d.occupied then d
    else (d.modFire (fun f => { f with held := none })).acceptTrig t

/-- A trigger held, counting one it replaces. -/
def Device.holdTrig (d : Device) (t : Trig) : Device :=
  let d := if d.fire.held.isSome then d.countTrig else d
  d.modFire (fun f => { f with held := some t })

/-- Start of a group of a frame plus one; 0 where there is none. -/
def groupStartIn (frame : Nat) (g : Option Group) : Nat :=
  match g with
  | some x => if x.frame = frame then x.startClk + 1 else 0
  | none => 0

/-- The pair holding the last group of the frame whose record can still be marked. -/
def Hist.lastOf (h : Hist) (frame : Nat) : Option Nat :=
  let a := groupStartIn frame (vget h.groups 0 none)
  let b := groupStartIn frame (vget h.groups 1 none)
  if a = 0 ∧ b = 0 then none else some (if a < b then 1 else 0)

/-- That group carries FRAME_CUT. Cut in the GAP_AFTER of the frame's last group, the group keeps FRAME_LAST beside it: its frame was
complete, and ended under RESTART all the same (DESIGN CHOICE, log entry 140). -/
def Hist.cutLast (h : Hist) (frame : Nat) : Hist :=
  match h.lastOf frame with
  | none => h
  | some k => { h with groups := vmod h.groups k (fun g => g.map (fun x => { x with flags := setBit x.flags 12 true })) }

/-- The frame being cut had already counted as a calibration frame run to its end (R209), its last group not processed yet. -/
def Hist.calCounted (h : Hist) (frame : Nat) : Bool :=
  (h.lastOf frame).any (fun k => (vget h.groups k none).any (fun g => g.calFrame && !g.calBad && bit g.flags 11 && !bit g.flags 12))

/-- The running frame ends at once, no group accumulating (R80): a group start held for it is dropped, and a calibration frame cut so
is repeated (R209). -/
def Device.endFrameNow (d : Device) : Device :=
  let again := d.hist.calCounted d.fire.frameNo
  let joined := d.cal.undo.filter (fun x => x.1 == d.fire.frameNo)
  ((d.modFire (fun f => { f with phase := .idle, shotQ := [], frameEnd := d.now, gapUntil := d.now, heldNow := false })).modHist
    (fun h => h.cutLast d.fire.frameNo)).modCal
    (fun c => match joined with
      | some (_, u) => { c with full := c.full.map (fun x => { u with n := x.n, done := x.done - 1 }), undo := none }
      | none => if again then { c with full := c.full.map (fun x => { x with done := x.done - 1 }) } else c)

/-- The policy RESTART (R80). -/
def Device.restartTrig (d : Device) (t : Trig) : Device :=
  if d.fire.phase == .pending then (d.countTrig).modFire (fun f => { f with trig := t, lastAcc := some t.at_ })
  else if d.fire.phase == .running && d.fire.cut then d.holdTrig t
  else match d.fire.grp with
    | some g =>
      (d.holdTrig t).modFire (fun f => { f with
        cut := true, shotQ := [], grp := some { g with flags := setBit g.flags 12 true } })
    | none =>
      let d := if d.fire.inFrame d.now then d.endFrameNow else d
      if d.occupied then d.holdTrig t
      else
        let d := if d.fire.held.isSome then (d.countTrig).modFire (fun f => { f with held := none }) else d
        d.acceptTrig t

/-- A frame trigger arrives (R80). Triggers arriving while the controller is not ON are ignored and not counted. -/
def Device.trigger (d : Device) (t : Trig) : Device :=
  if d.fire.fn.st != .on then d
  else
    let d := d.promote
    let base := fun (d : Device) => d.modFire (fun f => { f with lastTrig := some t.at_ })
    if !d.occupied then (base d).acceptTrig t
    else if d.fire.trigPol = 0 then (if d.fire.trigSrc = 0 then base d.countTrig else d.countTrig)
    else if d.fire.trigPol = 1 then (base d).holdTrig t
    else (base d).restartTrig t

/-- E_TRIG_OVR for the triggers counted since the last report (R80). -/
def Device.reportTrig (d : Device) : Device :=
  if d.fire.counted = 0 then d
  else
    let e := fields [(224, sat 0xFFFFFFFF d.fire.counted), (222, d.fire.trigPol)]
    (d.raise 0x0201 0 e).modFire (fun f => { f with counted := 0 })

/-- Off the ring, or without any path to a head (R103, R243). -/
def Device.offRing (d : Device) : Bool := !d.ring.onring || d.ring.noPathSince.isSome

/-- The condition E_CAL_HOLD reports: the CALENDAR source without a calendar, or off the ring (R103). A calendar whose entry forbids
the node to fire (PHASE 0xFFFF_FFFF, R102) is an entry for it, and raises nothing (DESIGN CHOICE, log entry 141). -/
def Device.calHoldNow (d : Device) : Bool := d.fire.trigSrc == 2 && (d.fire.cal.isNone || d.offRing)

/-- E_CAL_HOLD at its changes. -/
def Device.calHoldCheck (d : Device) : Device :=
  let h := d.calHoldNow
  if h = d.fire.calHold then d
  else (d.modFire (fun f => { f with calHold := h })).raise 0x0208 d.ring.node (h.toNat * 2 ^ 255)

/-- A trigger source and policy take force (R81): a held trigger is discarded and, while ON, counted; INTERNAL counts from the last accepted
one. -/
def Device.applyTrigger (d : Device) (src pol : Nat) : Device :=
  let d := if d.fire.held.isSome && d.fire.fn.st == .on then d.countTrig else d
  (d.modFire (fun f => { f with trigSrc := src, trigPol := pol, trigNext := none, held := none, srcAt := d.now, lastTrig := f.lastAcc })).calHoldCheck

/-- `scan.trigger.set`: source and policy, a word each. -/
def cmdTriggerSet : Cmd :=
  { id := 0x0245, form := exactly 8
    content := fun _ p => refuse (3 < p.word 0 || 2 < p.word 1) sBadParam
    run := fun _ p d =>
      let d := d.promote
      (if d.fire.fn.st == .on && d.fire.inFrame d.now then d.modFire (fun f => { f with trigNext := some (p.word 0, p.word 1) })
       else d.applyTrigger (p.word 0) (p.word 1), .no sOk) }

/-- SCAN_TRIGGER_SET (R81). -/
def execScanTriggerSet (dt : Nat) (o : Origin) (s : State) : Host.Outcome State Fault Refusal := wcpRow dt o cmdTriggerSet noOpen s

/-- `scan.frame.trigger`: one HOST trigger. -/
def cmdFrameTrigger : Cmd :=
  { id := 0x0246, form := exactly 0
    state := fun d _ => refuse (d.fire.trigSrc != 3) sBadState
    run := fun _ _ d => (d.trigger ⟨d.now, false⟩, .no sOk) }

/-- SCAN_FRAME_TRIGGER (R80). -/
def execScanFrameTrigger (dt : Nat) (o : Origin) (s : State) : Host.Outcome State Fault Refusal :=
  wcpRow dt o cmdFrameTrigger noOpen s

/-- The instant of the next INTERNAL trigger (R81, R82). -/
def Fire.internalDue (f : Fire) : Nat :=
  match f.lastTrig with
  | none => max f.onAt f.srcAt
  | some t => max (t + f.period) f.srcAt

/-- An INTERNAL trigger, once due. -/
def Device.internalTrigger (d : Device) : Device :=
  if d.fire.fn.st == .on && d.fire.trigSrc == 0 && decide (d.fire.internalDue ≤ d.now) then d.trigger ⟨d.fire.internalDue, false⟩
  else d

/-- INTERNAL_TRIGGER (R82). -/
def execInternalTrigger (dt : Nat) (s : State) : Host.Outcome State Fault Refusal := coreRow dt Device.internalTrigger s

/-- FRAME_SYNC_ASSERT (R78): an assertion of at least 100 ns under the FRAME_SYNC source. -/
def execFrameSyncAssert (dt : Nat) (width : Nat) (s : State) : Host.Outcome State Fault Refusal :=
  coreRow dt (fun d => if d.fire.trigSrc == 1 && decide (100 ≤ width) then d.trigger ⟨d.now, false⟩ else d) s

/-! The calendar (R102). -/

/-- The calendar frame whose instant for this node has just passed: its number and the instant on the local clock. -/
def Device.calendarNow (d : Device) : Option (Nat × Nat) :=
  match d.fire.cal with
  | none => none
  | some c =>
    let e := calEntry c (d.ring.node % 32)
    let period := fld c 95 64
    let first := fld c 63 0 + e.1
    let ns := d.time.ns.toNat
    if e.1 = 0xFFFFFFFF || period = 0 || ns < first then none
    else
      let m := (ns - first) / period
      some (m, d.now - (ns - (first + m * period)))

/-- The first calendar instant for this node at or after an instant to come, on the local clock. -/
def Device.calendarFrom (d : Device) (t : Nat) : Option Nat :=
  match d.fire.cal with
  | none => none
  | some c =>
    let e := calEntry c (d.ring.node % 32)
    let period := fld c 95 64
    let first := fld c 63 0 + e.1
    let ns := d.time.ns.toNat + (t - d.now)
    if e.1 = 0xFFFFFFFF || period = 0 then none
    else some (t + (if ns ≤ first then first - ns else (period - (ns - first) % period) % period))

/-- A calendar instant triggers its frame once; it lies at least 2 us after the source came into force (R82, R102). -/
def Device.calendarInstant (d : Device) : Device :=
  match d.calendarNow with
  | none => d
  | some (m, at_) =>
    if d.fire.fn.st == .on && d.fire.trigSrc == 2 && d.fire.calM != m + 1 && decide (d.fire.srcAt + 2 * us ≤ at_) then
      (d.modFire (fun f => { f with calM := m + 1 })).trigger ⟨at_, true⟩
    else d

/-- CALENDAR_INSTANT (R102). -/
def execCalendarInstant (dt : Nat) (s : State) : Host.Outcome State Fault Refusal := coreRow dt Device.calendarInstant s

/-- At EPOCH the node's seed, where it is not 0, is loaded into the LFSR (R86, R102). A calendar that arrives after its EPOCH has
passed loads its seed at the next CALENDAR_EPOCH command (DESIGN CHOICE, log entry 142). -/
def Device.calendarEpoch (d : Device) : Device :=
  match d.fire.cal with
  | none => d
  | some c =>
    if d.fire.calSeeded || d.time.ns.toNat < fld c 63 0 then d
    else
      let seed := (calEntry c (d.ring.node % 32)).2
      d.modFire (fun f => { f with calSeeded := true, lfsr := if seed = 0 then f.lfsr else .ofNat 32 seed })

/-- CALENDAR_EPOCH (R102). -/
def execCalendarEpoch (dt : Nat) (s : State) : Host.Outcome State Fault Refusal := coreRow dt Device.calendarEpoch s

/-- A new calendar in force. -/
def Device.setCalendar (d : Device) (c : BitVec 2176) : Device :=
  (d.modFire (fun f => { f with cal := some c, calM := 0, calSeeded := false, srcAt := if f.trigSrc = 2 then d.now else f.srcAt })).calHoldCheck

/-! The end of a group (R94, R104, R134, R143). -/

/-- The channel status word of Table 4-9. -/
def ChState.word (c : ChState) : BitVec 32 :=
  .ofNat 32 (fields [(16, sat 0xFFFF c.capped), (10, c.enabled % 64), (6, c.kEff), (5, c.masked.toNat), (4, c.edge.toNat),
    (3, c.replaced.toNat), (2, c.hotcap.toNat), (1, c.calDefault.toNat)])

/-- Shots of a group and status words into its side records (R142). -/
def Hist.closeGroup (h : Hist) (g : Group) (chans : Map ChState) : Hist :=
  chans.foldl (fun h p =>
    let s := vget g.slots (p.1 / 256) {}
    h.modRec g.pair p.1 (fun r => { r with shotsA := s.firedA, shotsB := s.fired - s.firedA, status := p.2.word })) h

/-- Channels whose guard counts ask for a targeted survey pass (R124): guard counts per shot in 1/1,000. -/
def Device.guardHot (d : Device) (g : Group) : List Nat :=
  let lim := rxGuardHot d.rx.cfg
  if lim = 0 then []
  else (d.rx.chans.filter (fun p =>
    let r := d.hist.sideOf g.pair p.1
    decide (lim * (r.shotsA + r.shotsB) < 1000 * (r.guardA + r.guardB)))).map (fun p => g.idx * 1024 + p.1)

/-- The SPADs of a channel's window in a group (R115, R124). -/
def Group.channelSpads (g : Group) (ch : Nat) : List Nat :=
  match windowOf g.layout (vget g.slots (ch / 256) {}).stripe g.woff (ch % 256) with
  | none => []
  | some w => windowSpads w

/-- The queue of targeted channels after a group: new keys with their SPADs in this group (R124). -/
def Rx.queueTargets (r : Rx) (g : Group) (hot : List Nat) : Rx :=
  let new := hot.filter (fun k => !r.targets.any (fun p => p.1 == k))
  { r with targets := r.targets ++ new.map (fun k => (k, g.channelSpads (k % 1024))) }

/-- Stripes that fired and did not go dark end their runs (R94). -/
def Fire.endRuns (f : Fire) (g : Group) : Fire :=
  { f with darkRun := g.slots.toList.foldl (fun v s => if s.fired != 0 && !s.dark then vset v s.stripe 0 else v) f.darkRun }

/-- The raw unit of the group in progress (R185, R186, Table 6-6). -/
def Device.rawUnit (d : Device) (g : Group) : Device :=
  match g.raw with
  | none => d
  | some (q, _, _) =>
    let words := d.ret.rawBuf
    let hdr := Bytes.mk' 32 (fields [(192, g.startNs.toNat), (160, g.frame % 2 ^ 32), (152, g.idx % 256), (96, words.length),
      (64, sat 0xFFFFFFFF d.ret.notExported), (32, g.shots)])
    let r := d.putUnit q d.ring.node false (fun _ => hdr.app (.cat (words.map (fun w => Bytes.mk' 8 w.toNat))))
    r.1.modRet (fun x => { x with rawBuf := [], notExported := 0 })

/-- A frame gap opens (R355): survey passes, reference pass and slices start over; slices due in the next gap are first in line. -/
def Device.openGap (d : Device) : Device :=
  let b := d.bist
  let d := { d with bist := { b with gap := some d.now, spent := 0, gapStopped := false, waiting := b.later ++ b.waiting, later := [] } }
  (d.modRx (fun r => { r with gapPasses := 0 })).modCal (fun c => { c with passDone := false })

/-- The group in progress ends: its records are complete and its end-of-pair markers placed (R143). `last` says that it ends its
frame, `cut` that the frame ends now. -/
def Device.endGroup (d : Device) (g : Group) : Device :=
  let f := d.fire
  let whole := f.phase == .running && !f.cut && f.grpIdx == hdrCount (f.header f.running.val)
  let cut := bit g.flags 12 || bit g.flags 1
  let late := f.frameHeld && decide (f.period < d.now - f.firstSlot.getD d.now)
  let g := { g with
    flags := if whole && !cut then setBit g.flags 11 true else g.flags
    calBad := g.calBad || cut || (whole && late) }
  let d := d.modHist (fun h => h.closeGroup g d.rx.chans)
  let hot := d.guardHot g
  let d := d.modRx (fun r => { r.queueTargets g hot with chans := [] })
  let d := d.modHist (fun h => { h with
    groups := vset h.groups g.pair.toNat (some g), marked := vset h.marked g.pair.toNat true })
  let d := (d.modFire (fun f => { f.endRuns g with
    grp := none
    gapUntil := if cut then d.now else d.now + descGap g.desc * us })).rawUnit g
  if whole || cut then
    let d := d.modFire (fun f => { f with
      phase := .idle, shotQ := [], frameEnd := if cut then d.now else d.now + descGap g.desc * us })
    let d := d.openGap
    if g.calFrame && !g.calBad then
      d.modCal (fun c => { c with full := c.full.map (fun x => { x with done := x.done + 1 }) })
    else d
  else d

/-- The group's shots are done, or it ends early, and its last slot is over. -/
def Fire.groupOver (f : Fire) (g : Group) (now : Nat) : Bool :=
  let early := bit g.flags 1
  (early || g.shots == descShots g.desc) && (g.shots == 0 || decide (f.slotClk + descPeriod g.desc ≤ now))

/-- GROUP_ACCUMULATION_END (R143). -/
def execGroupAccumulationEnd (dt : Nat) (s : State) : Host.Outcome State Fault Refusal :=
  coreRow dt (fun d => match d.fire.grp with
    | some g => if d.fire.groupOver g d.now then d.endGroup g else d
    | none => d) s

/-! Starting and stopping (R98). -/

/-- The longest STOPPING: PERIOD + 10 us. -/
def Fire.stopLen (f : Fire) : Nat := ((f.grp.map (fun g => descPeriod g.desc)).getD 0) + 10 * us

/-- What entering STOPPING does: the group ends as TRUNCATED, counted triggers are reported, held ones discarded, a waiting
selection completes, the shot queue is flushed, EMIT_ARM is released and a calibration stops (R77, R80, R98, R209). -/
def Device.enterStopping (d : Device) : Device :=
  let d := d.reportTrig
  let d := match d.fire.trigNext with
    | some (s, p) => d.applyTrigger s p
    | none => d
  let running := d.fire.grp.isSome
  let reselected := d.wcp.waits.any (fun w => w.kind == .planSelect)
  let d := d.modRx (fun r => r.onEnds d.now)
  let d := d.modFire (fun f => { f with
    framesSince := if reselected then 0 else f.framesSince
    grp := f.grp.map (fun g => { g with flags := setBit g.flags 1 true })
    held := none, shotQ := [], armAt := none, phase := if running then f.phase else .idle
    frameEnd := if running then f.frameEnd else min f.frameEnd d.now, heldNow := false })
  (d.complete .planSelect sOk Bytes.nil).calAbort.fireEvent

/-- A fault stop of the firing controller (R22). -/
def Device.fireFaultStop (d : Device) : Device :=
  let live := d.fire.fn.st == .on || d.fire.fn.st == .starting
  let d := d.faultStop .fire d.fire.stopLen
  if live then d.enterStopping else d

/-- `fire.disable`. -/
def cmdFireDisable : Cmd :=
  { id := 0x0244, form := exactly 0
    run := fun _ _ d => d.disableFn .fire true (fun d => (d.beginStop .fire d.fire.stopLen).enterStopping) }

/-- FIRE_DISABLE (R98). -/
def execFireDisable (dt : Nat) (o : Origin) (s : State) : Host.Outcome State Fault Refusal := wcpRow dt o cmdFireDisable noOpen s

/-- Planes 0-5 and the side stores cleared (R144); a pair still under processing keeps its state and ends empty. -/
def Hist.clearPairs (h : Hist) : Hist :=
  let busy := fun (p : Nat) => vget h.pairs p .free == .handed || vget h.pairs p .free == .processing
  { h with
    bins := binsIn h.bins (binKey 6 0 0) (2 * 1024 * 4096) |>.map (fun p => (p.1 + binKey 6 0 0, p.2))
    side := []
    pairs := (List.range 2).foldl (fun v p => if busy p then v else vset v p .free) h.pairs
    groups := (List.range 2).foldl (fun v p => if busy p then v else vset v p none) h.groups
    marked := Vector.replicate 2 false }

/-- EMIT_KILL_N as the pin shows it, true where asserted: in OFF (which the controller is in during a reset) and STOPPING, and while a
kill is latched; released only in STARTING and ON (R97). -/
def Fire.emitKill (f : Fire) : Bool := f.killed || !(f.fn.st == .starting || f.fn.st == .on)

/-- STARTING begins: EMIT_KILL_N is released with the state (`Fire.emitKill`), EMIT_ARM asserted and the store cleared (R98, R144). No plan
runs before the first frame (R74). -/
def Device.fireStart (d : Device) : Device :=
  ((d.modFire (fun f => { f with armAt := some d.now, firstSlot := none })).modHist Hist.clearPairs).fireEvent

/-- Why the controller may not start: an uncommitted selection (R82), a latched kill (R97), open vendor debug (R377), no sealed
component (R67), or ladder step 4 (R408). -/
def Device.fireBarred (d : Device) : Bool :=
  !vget d.fire.committed d.fire.selected.val false || d.fire.killed || d.sec.debug || d.sec.sealed.isNone || 4 ≤ d.power.step

/-- `fire.enable`. -/
def cmdFireEnable : Cmd :=
  { id := 0x0243, form := exactly 0
    hw := fun d _ => d.unusable 3 0 || d.rx.biasFault
    state := fun d _ => refuse d.fireBarred sBadState
    run := fun _ _ d => d.enableFn .fire true Device.fireStart }

/-- FIRE_ENABLE (R98). -/
def execFireEnable (dt : Nat) (o : Origin) (s : State) : Host.Outcome State Fault Refusal := wcpRow dt o cmdFireEnable noOpen s

/-- Firing starts: no frame has gone before the first one, whose pulses no start skips (R278). -/
def Fsync.firingStarts (x : Fsync) : Fsync := { x with k := fld x.cfg 39 32 }

/-- ON is entered (R82, R98); a disable accepted meanwhile stops it at once. -/
def Device.enterOn (d : Device) : Device :=
  let stop := d.fire.fn.stopPending
  let d := d.modFire (fun f => { f with
    onAt := d.now, srcAt := d.now, firstSlot := none, intervals := [], lastTrig := none, lastAcc := none, nextPair := false, frameNo := 0
    counted := 0, calM := 0, held := none, phase := .idle, cut := false, frameEnd := d.now, capUntil := d.now
    gapUntil := d.now, heldNow := false })
  let d : Device := { d with cams := { d.cams with sync := d.cams.sync.map Fsync.firingStarts } }
  let d := (((d.modRx (fun r => r.onStarts d.now)).reachOn .fire).fireEvent).calHoldCheck
  if stop then (d.beginStop .fire d.fire.stopLen).enterStopping else d

/-- The kill latch is set (R95, R96). -/
def Device.latchKill (d : Device) : Device :=
  d.mram false (fun d => d.modFire (fun f => f.setLatch (setBit f.latchNow 48 true)))

/-- The FIRE edge of a slot from the slot start, in 31.25 ps (Table 3-3). -/
def fireEdge (emitter : BitVec 128) (dither s : Nat) : Nat := (128 + dither) * 32 + fld emitter (32 + 4 * s + 3) (32 + 4 * s)

/-- A slot whose FIRE edge in the present shot does not lead after all. -/
def SlotRun.unfire (x : SlotRun) (edge : Nat) (parity : Bool) : SlotRun :=
  { x with
    fired := x.fired - 1, firedA := if parity then x.firedA else x.firedA - 1, recent := x.recent.drop 1
    misses := x.misses - x.witMiss.toNat, delaySum := if x.witMiss then x.delaySum else x.delaySum - (x.e - edge)
    delayN := x.delayN - (!x.witMiss).toNat, firing := false, witMiss := false }

/-- Slots whose FIRE edge in the present shot leads later than an instant. -/
def Fire.edgesAfter (f : Fire) (g : Group) (t : Nat) : List Nat :=
  (List.range 4).filter (fun s => (vget g.slots s {}).firing && decide (32 * t < 32 * f.slotClk + fireEdge f.emitter f.dither s))

/-- FIRE edges of the present shot that would lead later than an instant do not lead: they are neither counted nor charged (R95, R96). -/
def Device.cancelEdges (d : Device) (t : Nat) : Device :=
  match d.fire.grp with
  | none => d
  | some g =>
    let f := d.fire
    let off := f.edgesAfter g t
    let slots := off.foldl (fun v s => vmod v s (fun x => x.unfire (fireEdge f.emitter f.dither s) f.parity)) g.slots
    let f := off.foldl (fun f s => f.uncharge (vget g.slots s {}).stripe (descEnergy g.desc s)) f
    let gone := off.map (fun s => 32 * f.slotClk + fireEdge f.emitter f.dither s)
    (d.modFire (fun _ => { f with grp := some { g with slots } })).modRx (fun r => { r with fireEdges := r.fireEdges.filter (fun e => !gone.contains e) })

/-- EMIT_FAULT_N acted on (R96): no FIRE edge leads later than 200 ns after it. -/
def Device.emitFault (d : Device) : Device :=
  let d := d.cancelEdges (d.now + 200)
  let d := if bit d.fire.emitter 0 then d.latchKill else d
  (d.raise 0x0205 0 (d.fire.killed.toNat * 2 ^ 255)).fireFaultStop

/-- ARM_LEAD has elapsed in STARTING. -/
def Fire.armed (f : Fire) (now : Nat) : Bool :=
  f.fn.st == .starting && f.armAt.any (fun a => decide (a + fld f.emitter 127 112 * us ≤ now))

/-- The end of R90's wait: LONG_WIN of the budget in force after the release of RST_N and after the latest change. -/
def Device.budgetReady (d : Device) : Nat := max d.time.releasedAt d.fire.budgetAt + budLongWin d.fire.budgetNow

/-- EMIT_FAULT_N is asserted for at least the 50 ns at which it is recognised (Table 3-4), whatever the controller's state (R96). -/
def Device.emitFaultNow (d : Device) : Bool := d.fire.faultLevel d.now && decide (d.fire.faultAt + 50 ≤ d.fire.faultUntil)

/-- ARM_LEAD has elapsed: a fault already present stops firing; else ON follows once R90's wait is over too. -/
def Device.armLead (d : Device) : Device :=
  if !d.fire.armed d.now then d
  else if d.emitFaultNow then d.emitFault
  else if d.budgetReady ≤ d.now then d.enterOn else d

/-- ARM_LEAD_EXPIRY (R98). -/
def execArmLeadExpiry (dt : Nat) (s : State) : Host.Outcome State Fault Refusal := coreRow dt Device.armLead s

/-- EMIT_FAULT_N asserted for `width` ns: acted on at 50 ns, while ON or in STARTING after ARM_LEAD (R96). The pin is an input that
whatever drives it, or its pull-down on an open line (R424), holds asserted until the width is over, in every state of the device. -/
def Device.emitFaultPin (d : Device) (width : Nat) : Device :=
  let d := d.modFire (fun f => { f with
    faultAt := if f.faultLevel d.now then f.faultAt else d.now, faultUntil := max f.faultUntil (d.now + width) })
  if d.alive && d.emitFaultNow && (d.fire.fn.st == .on || d.fire.armed d.now) then d.emitFault else d

/-- EMIT_FAULT_N_ASSERT (R96). -/
def execEmitFaultNAssert (dt : Nat) (width : Nat) (s : State) : Host.Outcome State Fault Refusal :=
  devRow dt (fun d => d.emitFaultPin width) s

/-- The export function enters ON: at a group start, or with the firing controller OFF (R154); a disable accepted meanwhile stops it at
once. -/
def Device.startExport (d : Device) : Device :=
  if d.hist.exp.st != .starting then d
  else
    let stop := d.hist.exp.stopPending
    let d := (d.reachOn .hexport).histEvent
    if stop then (d.modFn .hexport (fun f => { f with st := .stopping })).exportStop else d

/-- The firing controller reaches OFF, and an export function that waits for a group start enters ON. -/
def Device.fireOff (d : Device) : Device := ((d.reachOff .fire ms).fireEvent).startExport

/-- STOPPING ends: a group still open ends first; OFF with the minimum off time of 1 ms (R98). -/
def Device.fireStopDone (d : Device) : Device :=
  if d.fire.fn.st != .stopping then d
  else match d.fire.grp with
    | none => (d.modFire (fun f => { f with phase := .idle })).fireOff
    | some g => if d.fire.groupOver g d.now then (d.endGroup g).fireOff else d

/-- FIRE_STOP_DONE (R98). -/
def execFireStopDone (dt : Nat) (s : State) : Host.Outcome State Fault Refusal := coreRow dt Device.fireStopDone s

/-! Emitter supervision (R94, R95). -/

/-- A record of emitter supervision: slot, stripe, witness counts. -/
def Device.emitterRecord (d : Device) (id source payload slot stripe misses : Nat) : Device :=
  d.raiseRec id source payload 0x000B sevSafety (words [slot, stripe, misses])

/-- A stray event of a witness at an instant of the local clock (R95): STUCK_THRESH of them within 4 us latch the kill. A detection
empties the channel's list: the next one needs STUCK_THRESH events anew (DESIGN CHOICE, log entry 143). -/
def Device.stray (d : Device) (w at_ : Nat) : Device :=
  let l := (at_ :: vget d.fire.stray w []).filter (fun t => at_ ≤ t + 4 * us)
  let d := d.modFire (fun f => { f with stray := vset f.stray w l })
  if l.length < fld d.fire.emitter 95 88 then d
  else
    let first := l.foldl min at_
    let time := (d.time.ns.toNat + 2 ^ 64 + first - d.now) % 2 ^ 64
    let stripe := match d.fire.grp with
      | some g => (vget g.slots w {}).stripe
      | none => idleStripe
    let d := ((d.cancelEdges at_).modFire (fun f => { f with stray := vset f.stray w [] })).latchKill
    (d.emitterRecord 0x0204 w (fields [(192, time), (184, sat 255 l.length)]) w stripe l.length).fireFaultStop

/-- WITNESS_STRAY_EVENT (R95). -/
def execWitnessStrayEvent (dt : Nat) (w : Fin 4) (s : State) : Host.Outcome State Fault Refusal :=
  coreRow dt (fun d => d.stray w.val d.now) s

/-! The budget check (R91). -/

/-- The budget's complement checked: a mismatch brings the safe default, E_INTEGRITY and an EMITTER record. -/
def Device.budgetCheck (d : Device) : Device :=
  if d.fire.safeBudget then d
  else if d.fire.budget.ok then d.intact 1 0
  else
    let e := d.entry eIntegrity 1 (2 ^ 210)
    let d := d.integrity 1 0 0
    let d := d.record 0x000B 1 sevSafety ((Bytes.mk' 32 e.toNat).app (words [0xFF, 0xFF, 0]))
    d.modFire (fun f => Fire.restartSums { f with safeBudget := true, budgetAt := d.now } d.govTime)

/-- DOSE_SUBWINDOW_BOUNDARY (R88, R91). -/
def execDoseSubwindowBoundary (dt : Nat) (s : State) : Host.Outcome State Fault Refusal :=
  coreRow dt (fun d => (d.modFire (fun f => f.roll d.govTime)).budgetCheck) s

/-! The bias generator (R108, R111). -/

/-- The generator's output at an instant: from the last group start it slews toward the target at 50 mV per ms, the most R108 allows, but
to its first target since a power-up it ramps at 10 V per ms (R398; log entry 139). -/
def Rx.slewed (r : Rx) (now : Nat) : Nat :=
  let n := match r.ramp with
    | some t => 10000 * (now - max t r.biasAt) / ms
    | none => 50 * (now - r.biasAt) / ms
  if r.biasOut ≤ r.biasTarget then min r.biasTarget (r.biasOut + n) else max r.biasTarget (r.biasOut - n)

/-- The measured output: the slewing one with the departure of regulation. -/
def Rx.biasMeasured (r : Rx) (off : Int) (now : Nat) : Nat := ((r.slewed now : Int) + off).toNat

/-- The output has not been slewing for a time. -/
def Rx.settled (r : Rx) (held now : Nat) : Bool := held ≤ now && r.slewed (now - held) == r.biasTarget

/-- The output has stayed more than 250 mV off its target for 1 ms while not slewing. -/
def Rx.biasOff (r : Rx) (off : Int) (held now : Nat) : Bool := decide (250 < off.natAbs) && decide (ms ≤ held) && r.settled held now

/-- It has stayed within 100 mV of its target for 10 ms. -/
def Rx.biasNear (r : Rx) (off : Int) (held now : Nat) : Bool :=
  let near := fun (t : Nat) => decide (((r.slewed t : Int) + off - r.biasTarget).natAbs ≤ 100)
  decide (10 * ms ≤ held) && near now && near (now - held)

/-- E_RX_BIAS: target and applied value in 10 mV. -/
def Device.biasEvent (d : Device) (applied : Nat) (began : Bool) : Device :=
  d.raise 0x0301 0 (fields [(240, d.rx.biasTarget / 10), (224, applied / 10 % 2 ^ 16), (223, began.toNat)])

/-- A departure of `off` mV that has stood for `held` ns: the fault begins. -/
def Device.biasFaulted (d : Device) (off : Int) (held : Nat) : Device :=
  if d.rx.biasFault || !d.rx.biasOff off held d.now then d
  else ((d.modRx (fun r => { r with biasFault := true })).biasEvent (d.rx.biasMeasured off d.now) true).fireFaultStop

/-- BIAS_FAULT (R111). -/
def execBiasFault (dt : Nat) (off : Int) (held : Nat) (s : State) : Host.Outcome State Fault Refusal :=
  coreRow dt (fun d => d.biasFaulted off held) s

/-- The fault clears. -/
def Device.biasCleared (d : Device) (off : Int) (held : Nat) : Device :=
  if !d.rx.biasFault || !d.rx.biasNear off held d.now then d
  else (d.modRx (fun r => { r with biasFault := false })).biasEvent (d.rx.biasMeasured off d.now) false

/-- BIAS_FAULT_CLEAR (R111). -/
def execBiasFaultClear (dt : Nat) (off : Int) (held : Nat) (s : State) : Host.Outcome State Fault Refusal :=
  coreRow dt (fun d => d.biasCleared off held) s

end Sys2Proof.Machine
end

