-- ==== Sys2Proof/Machine/Groups.lean ====
section
/-! DEFINITION. Frames, groups and shots: the frame start (R71, R77-R79, R99-R101, R118, R119), the group start (R10, R89, R108-R110),
the shot with its dither, governor and witnesses (R85, R88, R89, R93, R94), and photon events (R132, R133). -/

namespace Sys2Proof.Machine

open Sys2Proof

/-! The frame start. -/

/-- The pair of the next group is FREE (R11). -/
def Device.pairFree (d : Device) : Bool := vget d.hist.pairs d.fire.nextPair.toNat .free == .free

/-- A start held under R11, counted once. -/
def Device.holdStart (d : Device) : Device :=
  if d.fire.heldNow then d else d.modFire (fun f => { f with heldNow := true, holds := f.holds + 1 })

/-- The plan named takes over (R77). -/
def Device.startPlan (d : Device) (frame : Nat) : Device :=
  let again := d.wcp.waits.any (fun w => w.kind == .planSelect)
  let switch := d.fire.running != d.fire.selected
  let d := d.modFire (fun f => { f with running := f.selected, framesSince := if again then 0 else f.framesSince })
  let d := if switch then d.raise 0x0207 d.fire.selected.val (frame % 2 ^ 32 * 2 ^ 224) else d
  d.complete .planSelect sOk Bytes.nil

/-- The stripe offset for an angle, in 0.01 degree times 16,000 (R99): steps of 2.5 degrees while it lies beyond 1.75 degrees. -/
def stepOffset (n angle : Int) : Int :=
  let one := 16000 * (250 : Int)
  let edge := 16000 * (175 : Int)
  if n * one + edge < angle then -((edge - angle) / one) else if angle < n * one - edge then (angle + edge) / one else n

/-- The articulation offset at a frame start (R99, R101). -/
def Fire.followFrame (f : Fire) (fieldOk : Bool) (ua now : Nat) : Fire :=
  if f.follow.source = 0 then { f with offset := 0, artHold := false, artFault := false, artSince := none }
  else if !fieldOk || ua ≤ 3600 || 21000 ≤ ua then
    let since := f.artSince.getD now
    if since + second ≤ now then { f with offset := 0, artHold := false, artFault := true, artSince := some since }
    else { f with artHold := true, artSince := some since }
  else
    let w := f.follow
    let n := stepOffset f.offset (16000 * w.a4 + ((ua : Int) - 4000) * (w.a20 - w.a4))
    { f with offset := max (-(w.max : Int)) (min (w.max : Int) n), artHold := false, artFault := false, artSince := none }

/-- The loop current the source names, in the latest valid field frame (Table 10-3). -/
def Device.loopNow (d : Device) : Nat :=
  if d.fire.follow.source = 1 then fld d.core.frame 191 176 else fld d.core.frame 207 192

/-- Receiver parameters that wait for a frame start take force (R107, R113, R121, R122, R125, R135). -/
def Device.startRx (d : Device) : Device :=
  let d := (d.checkPair d.rx.lens.ok 2 0 0).modRx (fun r => { r with
    lensInForce := r.lens.use Config.lensReference, lensNext := false
    cfg := r.cfgNext.getD r.cfg, cfgNext := none, mask := r.maskNext.getD r.mask, maskNext := none
    layouts := mergeTable r.layouts r.layoutsNext, layoutsNext := []
    coincs := mergeTable r.coincs r.coincsNext, coincsNext := [] })
  (d.complete .maskCommit sOk Bytes.nil).pendingEffect 2 false

/-- The calibration frame decision (R206, R209): a change of lens, mask or layout restarts the rounds. -/
def Device.startCal (d : Device) (changed : Bool) (frame : Nat) : Device :=
  let d := d.modCal (fun c => { c with undo := none })
  match d.cal.full with
  | none => d.modCal (fun c => { c with frame := false })
  | some f =>
    let f := if changed then
        { f with done := 0, merged := 0, since := frame, tsFirst := none, tsLast := 0, tsSum := 0, walk := [], zero := [], xt := [],
                 xtI := [] }
      else f
    d.modCal (fun c => { c with
      full := some { f with n := f.n + 1 }, work := if changed then none else c.work
      frame := decide (f.n % 4 < fcShare f.par) && decide (f.done < fcFrames f.par) })

/-- Spare TDCs of the retired channels (R119): unused ranging TDCs, then witnesses W7 to W4 that are not enabled. The channels take them
in rising order, a retired channel that the frame's layouts do not use included (DESIGN CHOICE, log entry 149). -/
def Device.pickSpares (d : Device) (layouts : List (BitVec 64)) (ret : List Retired) : Map Nat :=
  if ret.isEmpty then []
  else
    let used := (layouts.map (fun l => lyNc l * lyNr l)).foldl max 0
    let free := (List.range 1024).filter (fun c => used ≤ c % 256 && (retiredIn ret c).isNone && !d.unusable 0 c) ++
      ([3, 2, 1, 0].filter (fun m => !bit d.rx.wit (8 + m) && !d.unusable 0 (1028 + m))).map (1028 + ·)
    let chs := ((ret.map (fun x => x.ch)).mergeSort (fun a b => a ≤ b)).filter (fun c => !d.unusable 5 c)
    (chs.zip free).foldl (fun m p => mset p.1 p.2 m) []

/-- E_RX_CHANNEL: 0 retired, 1 restored, 2 spare lost. -/
def Device.channelEvent (d : Device) (code ch : Nat) (bySelfTest : Bool) (spare : Option Nat) : Device :=
  d.raise 0x0302 ch (fields [(254, code), (253, bySelfTest.toNat), (231, spare.getD 0x7FF)])

/-- Retirements and restorations take effect and the spares are chosen (R118, R119). E_RX_CHANNEL reports a spare lost where the channel is
left without one; a channel that takes another spare at the same frame start has none lost (DESIGN CHOICE, log entry 184). -/
def Device.startSpares (d : Device) (layouts : List (BitVec 64)) : Device :=
  let r := d.rx
  let back := r.retired.filter (fun x => r.restoreNext.contains x.ch)
  let kept := r.retired.filter (fun x => !r.restoreNext.contains x.ch && (retiredIn r.retireNext x.ch).isNone)
  let spares := d.pickSpares layouts (kept ++ r.retireNext)
  let d := d.modRx (fun r => { r with
    retired := kept ++ r.retireNext, retireNext := [], restoreNext := [], spares := spares
    witDisturbed := r.witDisturbed ||| r.witSpares ||| ({ r with spares } : Rx).witSpares })
  let d := r.retireNext.foldl (fun d x => d.channelEvent 0 x.ch x.bySelfTest (mget x.ch spares)) d
  let d := back.foldl (fun d x => d.channelEvent 1 x.ch x.bySelfTest none) d
  kept.foldl (fun d x => if (mget x.ch r.spares).isSome && (mget x.ch spares).isNone then d.channelEvent 2 x.ch x.bySelfTest none else d) d

/-- Tables and settings of the store and the return processor that wait for a frame start (R139, R145, R147, R164, R187). -/
def Device.startTables (d : Device) : Device :=
  let clear := d.hist.clearNext
  let d := d.modHist (fun h => { h with
    cfgs := mergeTable h.cfgs h.cfgsNext, cfgsNext := [], gates := mergeTable h.gates h.gatesNext, gatesNext := []
    track := if clear then [] else h.track, clearNext := false })
  (d.modRet (fun r => { r with
    templates := mergeTable r.templates r.templatesNext, templatesNext := [], cfg := r.cfgNext.getD r.cfg, cfgNext := none
    echo := if clear then [] else r.echo })).zmapsStart

/-- A CAM_FSYNC output at a frame start (R277, R278): pulses of the frame before that are still due are skipped. -/
def Fsync.frameStart (now : Nat) (x : Fsync) : Fsync :=
  let frames := bit x.cfg 2
  let cfg := x.next.getD x.cfg
  { x with
    cfg, next := none, since := if x.next.isSome then now else x.since, k := 0, skip := if frames then x.skip + (fld x.cfg 39 32 - x.k) else x.skip
    high := if fld cfg 3 2 = 0 then none else x.high }

/-- The layout of a calibration group (Table 7-7): in the walk round the windows of layout 0 shrink to a size of the round. -/
def calLayout (p : BitVec 128) (step : Nat) : BitVec 64 :=
  if step < fcWalkFrames p then
    let size := (([(1, 1), (1, 2), (2, 2), (2, 4), (4, 4), (4, 6)] : List (Nat × Nat))[step % 12 / 2]?).getD (4, 6)
    setFld (setFld layout0 3 0 size.1) 12 8 size.2
  else layout0

/-- The layout a descriptor runs with in the frame that starts: its own, or the calibration round's (R206). -/
def Device.frameLayout (d : Device) (desc : BitVec 256) : BitVec 64 :=
  match d.cal.full with
  | some f => if d.cal.frame then calLayout f.par f.done else d.rx.layout (descLayout desc)
  | none => d.rx.layout (descLayout desc)

/-- The frame's own registers. -/
def Fire.startFrame (f : Fire) (now frame : Nat) (ns : BitVec 64) (capped : Bool) : Fire :=
  { f with
    gen := if f.genDirty then (f.gen + 1) % 65536 else f.gen, genDirty := false
    frameNo := frame, frameNs := ns, framesSince := f.framesSince + 1
    intervals := match f.firstSlot with
      | some t => ((now - t) :: f.intervals).take 8
      | none => f.intervals
    firstSlot := some now, enqIdx := 0, grpIdx := 0, shotQ := [], phase := .running, cut := false, gapUntil := now
    frameHeld := false
    syncUntil := if f.trigSrc = 1 then none else some (now + us)
    capUntil := if capped then now + 2 * hdrPeriod (f.header f.running.val) else now }

/-- The frame starts. -/
def Device.frameBegin (d : Device) : Device :=
  let frame := if d.fire.firstSlot.isSome then (d.fire.frameNo + 1) % 2 ^ 32 else 0
  let d := d.reportTrig
  let d := match d.fire.trigNext with
    | some (s, p) => d.applyTrigger s p
    | none => d
  let d := d.startPlan frame
  let d := d.modFire (fun f => { f with
    lfsr := if f.seedPending then f.seed else f.lfsr, seedPending := false
    woff := hdrWoff (f.header f.running.val) f.framesSince })
  let d := d.modFire (fun f => f.followFrame d.core.fieldOk d.loopNow d.now)
  let changed := d.rx.lensNext || d.rx.maskNext.isSome || !d.rx.layoutsNext.isEmpty
  let d := d.startRx
  let d := d.startCal changed frame
  let descs := d.fire.descs d.fire.running.val
  let layoutOf := d.frameLayout
  let d := d.modRx (fun r => r.frameDyn layoutOf descs d.fire.offset d.fire.woff)
  let d := (d.startSpares (if d.cal.frame then [layoutOf 0] else descs.map layoutOf)).startTables
  let d := { d with cams := { d.cams with sync := d.cams.sync.map (Fsync.frameStart d.now) } }
  let d := d.modFire (fun f => f.startFrame d.now frame d.time.ns (3 ≤ d.power.step))
  { d with bist := { d.bist with gap := none } }

/-- A frame may start (R79): ON, its trigger accepted long enough ago, and no switchover in progress (R392). -/
def Device.frameDue (d : Device) : Bool :=
  let f := d.fire
  f.fn.st == .on && f.phase == .pending && d.sec.switchAt.isNone && decide (f.frameEnd ≤ d.now) && decide (f.capUntil ≤ d.now) &&
    decide ((if f.trig.cal then f.trig.at_ else f.trig.at_ + 2 * us) ≤ d.now)

/-- FRAME_START (R79). -/
def execFrameStart (dt : Nat) (s : State) : Host.Outcome State Fault Refusal :=
  coreRow dt (fun d =>
    let d := d.promote
    if !d.frameDue then d else if d.pairFree then d.frameBegin else d.holdStart) s

/-! The shot queue (R76). -/

/-- An index of a table, replaced by 0 where the entry is absent. -/
def presentIdx {n : Nat} (t : Map (BitVec n)) (i : Nat) : Nat := if i = 0 || (mget i t).isSome then i else 0

/-- A descriptor as it enters the shot queue (R76), and whether an index was replaced. -/
def Device.enqueueDesc (d : Device) (x : BitVec 256) : BitVec 256 × Bool :=
  let y := setFld x 91 88 (presentIdx d.rx.layouts (descLayout x))
  let y := setFld y 99 96 (presentIdx d.rx.coincs (descCoinc x))
  let y := setFld y 103 100 (presentIdx d.hist.cfgs (descPlanecfg x))
  let y := setFld y 107 104 (presentIdx d.hist.gates (descGateset x))
  let y := setFld y 95 92 (presentIdx d.ret.templates (descTemplate x))
  (y, y != x)

/-- The next descriptor of the running frame enters the shot queue of 64. -/
def Device.enqueue (d : Device) : Device :=
  let f := d.fire
  if f.phase == .running && !f.cut && f.fn.st == .on && decide (f.enqIdx < hdrCount (f.header f.running.val)) &&
      decide (f.shotQ.length < 64) then
    let r := d.enqueueDesc ((f.desc? f.running.val f.enqIdx).getD 0)
    d.modFire (fun f => { f with shotQ := f.shotQ ++ [⟨f.running, f.enqIdx, r.1, r.2⟩], enqIdx := f.enqIdx + 1 })
  else d

/-- SHOT_QUEUE_ENQUEUE (R76). -/
def execShotQueueEnqueue (dt : Nat) (s : State) : Host.Outcome State Fault Refusal := coreRow dt Device.enqueue s

/-! The group start. -/

/-- The bias target (R108) and the hold-off (R110) at a group start. The applied value is the generator's measured output, the slewing
one with a departure of `off` mV; from here it slews toward the new target. A generator still on its way to its first target since a
power-up has ramped toward this one (R398). -/
def Device.startBias (d : Device) (off : Int) : Device :=
  let d := d.checkPair d.rx.vbd.ok 3 0 0
  let v := d.rx.vbdNow
  let raw := (fld v 31 0 : Int) + tcTerm (fld v 63 32) d.ts + rxVex d.rx.cfg
  let target := max 18000 (min 32000 raw)
  d.modRx (fun r =>
    let cold := if r.switchDue then !r.cold else r.cold
    let was := if r.ramp.isSome then { r with biasTarget := target.toNat } else r
    let out := was.slewed d.now
    { r with
      biasTarget := target.toNat, biasApplied := was.biasMeasured off d.now, biasLim := raw != target
      biasOut := out, biasAt := d.now, ramp := if out = target.toNat then none else r.ramp
      cold := cold, switchDue := false, crossSince := if r.switchDue then none else r.crossSince
      holdoff := if rxAuto r.cfg && cold then 12 else rxHoldoff r.cfg })

/-- New linearisation tables are installed and all checked (R131). -/
def Device.startLin (d : Device) : Device :=
  let next := d.rx.linNext
  let install := fun (d : Device) => d.modRx (fun r => { r with
    lin := next.foldl (fun m p => mset p.1 (((mget p.1 m).getD (.of 0)).put p.2) m) r.lin, linNext := [] })
  let d := if next.isEmpty then d else (d.mram true install).dirtyGroup
  d.rx.lin.foldl (fun d p => d.checkPair p.2.ok 4 p.1 0) d

/-- The zone map of a group checked: one that fails makes every zone BLIND at once (R190, log entry 51). -/
def Device.startMap (d : Device) (i : Nat) : Device :=
  let ok := (d.ret.zmapNow i).2
  let d := d.checkPair ok 7 i 0
  if ok then d
  else (d.modRet (fun r => { r with zmapsFailed := setBit r.zmapsFailed i true })).setZones (fun z p => (p.1, setZone p.2 z true))

/-- The plane configuration of a calibration group: in the walk round the bins have the code's width. -/
def calPlanecfg (p : BitVec 128) (step : Nat) (cfg : BitVec 64) : BitVec 64 :=
  if step < fcWalkFrames p then
    let code := ((fcCodes p)[step / 12]?).getD 0
    setFld (setFld cfg 1 0 code) 3 2 code
  else cfg

/-- The stripes of a group: by slot the stripe fired or idle, and the flags ALLOW and FAILED_STRIPE (R89, R94). -/
def Fire.groupStripes (f : Fire) (desc : BitVec 256) : List Nat × Bool × Bool :=
  let want := (firedStripes desc f.offset).map (fun p => p.map (fun q => q.1))
  let allow := fun (k : Nat) => budAllow f.budgetNow k
  (want.map (fun p => match p with
    | some k => if allow k && !f.failedStripe k then k else idleStripe
    | none => idleStripe),
   want.any (fun p => p.any (fun k => !allow k)), want.any (fun p => p.any f.failedStripe))

/-- A channel at a group start (R115-R120, R125, R131). -/
def Device.chanState (d : Device) (coinc : BitVec 32) (stripe ch : Nat) (win : List Nat × List Nat) : ChState × Nat :=
  let r := d.rx
  let statics := r.staticOn win
  let on := statics.filter (fun i => !bit r.dyn i)
  let hot := (statics.filter (fun i => decide (rxHotSet r.cfg < sget r.counts i))).length
  let retired := (retiredIn r.retired ch).isSome
  let tdc := if d.unusable 5 ch then none else if retired then mget ch r.spares else some ch
  let n := if tdc.isSome then on.length else 0
  ({ enabled := n, kEff := min (coK coinc) n, masked := on.isEmpty, edge := edgeWindow stripe win.1
     replaced := retired && tdc.isSome, hotcap := decide (r.hotLimit statics.length < hot)
     calDefault := match tdc with
       | some t => (match mget t r.lin with | some p => !p.ok | none => true)
       | none => false
     tdc, capped := 0 }, hot)

/-- All channels of a group, with the SPADs above HOT_SET of their windows. -/
def Device.groupStates (d : Device) (layout : BitVec 64) (coinc : BitVec 32) (stripes : List Nat) (woff : Nat) :
    List (Nat × ChState × Nat) :=
  stripes.zipIdx.flatMap (fun p =>
    if p.1 = idleStripe then []
    else (List.range (lyNc layout * lyNr layout)).filterMap (fun w =>
      (windowOf layout p.1 woff w).map (fun win => (256 * p.2 + w, d.chanState coinc p.1 (256 * p.2 + w) win))))

/-- E_RX_HOTCAP, at most once per channel per 100 frames (Table 4-13). -/
def Device.hotEvents (d : Device) (l : List (Nat × ChState × Nat)) : Device :=
  (l.filter (fun x => x.2.1.hotcap)).foldl (fun d x =>
    let frame := d.fire.frameNo
    let quiet := match mget x.1 d.rx.hotcapAt with
      | some f => decide (f ≤ frame) && decide (frame < f + 100)
      | none => false
    if quiet then d
    else (d.modRx (fun r => { r with hotcapAt := mset x.1 frame r.hotcapAt })).raise 0x0303 x.1
      (fields [(224, frame), (218, x.2.2 % 64)])) d

/-- The group of a queued descriptor as it starts now (R10, R104). -/
def Device.newGroup (d : Device) (q : QueuedGroup) (stripes : List Nat) (allow failed : Bool) : Group :=
  let f := d.fire
  let calFrame := d.cal.frame
  let par := (d.cal.full.map (fun x => x.par)).getD 0
  let step := (d.cal.full.map (fun x => x.done)).getD 0
  let cfg := d.hist.cfg (descPlanecfg q.desc)
  let map := d.ret.zmapNow (descZonemap q.desc)
  let gate := d.hist.gate (descGateset q.desc)
  let raw := d.ret.rawOn && d.power.step < 3 && (d.ret.rawIdx == 0xFF || d.ret.rawIdx == q.idx)
  let slot := fun (s : Nat) => ({ stripe := (stripes[s]?).getD idleStripe } : SlotRun)
  let calHold := f.trigSrc == 2 && d.offRing
  { plan := q.plan, idx := q.idx, desc := q.desc, pair := f.nextPair, slots := ⟨#[slot 0, slot 1, slot 2, slot 3], rfl⟩
    flags := .ofNat 13 (fields [(0, f.heldNow.toNat), (4, failed.toNat), (5, allow.toNat), (6, (edgeIdle q.desc f.offset).toNat),
      (7, f.artHold.toNat), (8, f.artFault.toNat), (9, calHold.toNat), (10, q.refDefault.toNat)])
    startNs := d.time.ns, startClk := d.now, frame := f.frameNo, frameNs := f.frameNs, gen := f.gen, offset := f.offset
    woff := f.woff, shots := 0
    layout := if calFrame then calLayout par step else d.rx.layout (descLayout q.desc)
    layoutIdx := if calFrame then 0 else descLayout q.desc
    coinc := d.rx.coinc (descCoinc q.desc)
    planecfg := if calFrame then calPlanecfg par step cfg else cfg
    template := d.ret.template (descTemplate q.desc)
    trackAge := gtAge gate, edgeMargin := gtMargin gate
    zoneMap := descZonemap q.desc, zmap := map.1, zmapOk := map.2, ts := d.ts, cal := d.cal.inForce, ref := d.cal.ref
    calFrame, calStep := step, calBad := false, lens := d.rx.lensInForce, retCfg := d.ret.cfg
    emitDelay := d.cal.emitDelay, spares := d.rx.spares, points := d.ret.points
    raw := if raw then some (d.ret.rawQueue, d.ret.rawChans, d.ret.rawMax) else none
    handClk := 0, lanes := 0 }

/-- The side records a group starts with: its gates (R146). A descriptor with ZOOM clear has no zoom planes to fill, so its channels get no
gate (DESIGN CHOICE, log entry 150). -/
def Hist.openGroup (h : Hist) (g : Group) (chans : Map ChState) : Hist :=
  let p := g.pair.toNat
  let zoom := descZoom g.desc
  let set := h.gate (descGateset g.desc)
  let recs := chans.map (fun c =>
    let gate := if zoom then gateOf h set g.planecfg g.layoutIdx ((vget g.slots (c.1 / 256) {}).stripe) c.1 else (0, 0)
    (p * 1024 + c.1, ({ gateSrc := gate.1, gateStart := gate.2, status := c.2.word } : SideRec)))
  { h with
    side := h.side.filter (fun x => x.1 / 1024 < p) ++ recs ++ h.side.filter (fun x => p < x.1 / 1024)
    pairs := vset h.pairs p .accumulating, groups := vset h.groups p (some g), marked := vset h.marked p false }

/-- What is left of the channels' silence and dead time in the slot that starts `len` after the last slot start (R120, R130). -/
def Rx.nextSlot (r : Rx) (len : Nat) : Rx :=
  let left := r.shot.map (fun p => (p.1, ({ silent := p.2.silent - len, dead := p.2.dead - len } : ChShot)))
  { r with shot := left.filter (fun p => p.2.silent != 0 || p.2.dead != 0) }

/-- A group starts with the descriptor at the head of the shot queue. -/
def Device.groupBegin (d : Device) (q : QueuedGroup) (rest : List QueuedGroup) (off : Int) : Device :=
  let d := ((((d.modFire (fun f => f.roll d.govTime)).budgetCheck.startBias off).startLin.calCheck).startMap
    (descZonemap q.desc)).startExport
  let d := d.modFire (fun f => { f with gen := if f.genGroup then (f.gen + 1) % 65536 else f.gen, genGroup := false })
  let st := d.fire.groupStripes q.desc
  let g := d.newGroup q st.1 st.2.1 st.2.2
  let chans := d.groupStates g.layout g.coinc st.1 g.woff
  let d := d.hotEvents chans
  let d := d.modRx (fun r => { r.nextSlot (32 * (d.now - d.fire.slotClk)) with chans := chans.map (fun x => (x.1, x.2.1)) })
  let d := d.modHist (fun h => h.openGroup g (chans.map (fun x => (x.1, x.2.1))))
  let d := d.modRet (fun r => { r with rawBuf := [], notExported := 0 })
  d.modFire (fun f => { f with
    grp := some g, shotQ := rest, grpIdx := f.grpIdx + 1, frameHeld := f.frameHeld || (f.heldNow && f.grpIdx != 0), heldNow := false
    nextPair := !f.nextPair, slotClk := d.now
    sel := ⟨#[(st.1[0]?).getD 0x3F, (st.1[1]?).getD 0x3F, (st.1[2]?).getD 0x3F, (st.1[3]?).getD 0x3F], rfl⟩ })

/-- The next group starts once its GAP_AFTER is over and its pair FREE (R11). -/
def Device.groupStart (d : Device) (off : Int) : Device :=
  let f := d.fire
  if f.fn.st != .on || f.phase != .running || f.cut || f.grp.isSome || d.now < f.gapUntil then d
  else match f.shotQ with
    | [] => d
    | q :: rest => if d.pairFree then d.groupBegin q rest off else d.holdStart

/-- GROUP_START (R89). -/
def execGroupStart (dt : Nat) (off : Int) (s : State) : Host.Outcome State Fault Refusal := coreRow dt (fun d => d.groupStart off) s

/-! The shot. -/

/-- One step of the dither LFSR. -/
def lfsrStep (s : BitVec 32) : BitVec 32 := if bit s 0 then (s >>> 1) ^^^ 0x80200003 else s >>> 1

/-- One shot advances it eight steps (R85). -/
def lfsrShot (s : BitVec 32) : BitVec 32 :=
  lfsrStep (lfsrStep (lfsrStep (lfsrStep (lfsrStep (lfsrStep (lfsrStep (lfsrStep s)))))))

/-- The dither code C and the parity P (R85). -/
def ditherCode (s : BitVec 32) : Nat := s.toNat % 256
def ditherParity (c : Nat) : Bool := popcount 8 c % 2 == 1

/-- The governor's tests of a slot that may fire (R88): allowed, short, long. -/
def Fire.doseTests (f : Fire) (k w : Nat) : Bool × Bool × Bool :=
  let b := f.budgetNow
  (budAllow b k, decide (f.shortOf k + w ≤ budShort b), decide (f.longOf k + w ≤ budLong b))

/-- A slot is commanded in a shot: it has a stripe and has not gone dark (R89, R94). -/
def SlotRun.commanded (s : SlotRun) : Bool := s.stripe != idleStripe && !s.dark

/-- The slots that fire (R88). -/
def Fire.govern (f : Fire) (g : Group) : List Bool :=
  let ok := g.slots.toList.zipIdx.map (fun p => p.1.commanded &&
    (let t := f.doseTests p.1.stripe (descEnergy g.desc p.2); t.1 && t.2.1 && t.2.2))
  let total := (ok.zipIdx.map (fun p => if p.1 then descEnergy g.desc p.2 else 0)).sum
  if budGlobal f.budgetNow * 10000 < f.globOf + total then ok.map (fun _ => false) else ok

/-- E_DOSE_LIMIT of a withheld slot, once per stripe and group (R89): `f` as the tests were made. -/
def Device.doseEvent (d : Device) (f : Fire) (g : Group) (s : Nat) : Device :=
  let x := vget g.slots s {}
  let t := f.doseTests x.stripe (descEnergy g.desc s)
  let code := if !t.1 then 3 else if !t.2.1 then 0 else if !t.2.2 then 1 else 2
  d.raise 0x0202 x.stripe (fields [(224, g.frame % 2 ^ 32), (216, g.idx % 256), (214, code)])

/-- The trailing edge of a slot's FIRE pulse, in ns from the slot start: FIRE_WIDTH is the descriptor's (Table 3-4). -/
def fireTrail (emitter : BitVec 128) (desc : BitVec 256) (dither s : Nat) : Nat :=
  ceilDiv (fireEdge emitter dither s) 32 + descWidth desc

/-- 100 ns after the trailing edge of each slot's FIRE pulse in a shot; for an idle slot, the latest of the others' (R84). -/
def selTimes (emitter : BitVec 128) (g : Group) (now dither : Nat) : Vector Nat 4 :=
  let t := fun (s : Nat) => now + fireTrail emitter g.desc dither s + 100
  let live := (List.range 4).filter (fun s => (vget g.slots s {}).stripe != idleStripe)
  Vector.ofFn (fun (s : Fin 4) => if live.contains s.val then t s.val else (live.map t).foldl max 0)

/-- The stripes of the next group: of the shot queue's head, of the running frame's next descriptor, or, while ON between frames, of the
first group of the frame that comes, with the articulation offset it would have now. -/
def Device.nextStripes (d : Device) : List Nat :=
  let f := d.fire
  match f.shotQ with
  | q :: _ => (f.groupStripes q.desc).1
  | [] =>
    if f.fn.st != .on then List.replicate 4 idleStripe
    else if f.phase == .running && decide (f.grpIdx < hdrCount (f.header f.running.val)) && !f.cut then
      (f.groupStripes ((f.desc? f.running.val f.grpIdx).getD 0)).1
    else ((f.followFrame d.core.fieldOk d.loopNow d.now).groupStripes ((f.desc? f.selected.val 0).getD 0)).1

/-- EMIT_SEL0-3 as the pins show them (R84): a slot's stripe of the group until 100 ns after the trailing edge of its last FIRE pulse, the
next group's after that. -/
def Device.emitSel (d : Device) : List Nat :=
  let f := d.fire
  let more := match f.grp with
    | some g => !bit g.flags 1 && decide (g.shots < descShots g.desc)
    | none => false
  d.nextStripes.zipIdx.map (fun p => if more || decide (d.now < vget f.selUntil p.2 0) then vget f.sel p.2 idleStripe else p.1)

/-- A slot fires: its witness events give E, or the calibrated delay does (R93); the miss count of R94 moves. -/
def SlotRun.fire (x : SlotRun) (emitter : BitVec 128) (edge : Nat) (delay : Int) (parity : Bool) (hits : List Nat) : SlotRun :=
  let lo := edge + fld emitter 71 64 * 32
  let hi := edge + fld emitter 79 72 * 32
  let seen := (hits.filter (fun t => lo ≤ t && t ≤ hi)).min?
  let miss := seen.isNone
  { x with
    fired := x.fired + 1, firedA := if parity then x.firedA else x.firedA + 1
    recent := (miss :: x.recent).take 64, misses := if miss then x.misses + 1 else x.misses
    delaySum := x.delaySum + (seen.map (fun t => t - edge)).getD 0, delayN := if miss then x.delayN else x.delayN + 1
    firing := true, e := seen.getD (edge + ceilDiv delay.toNat 500), witMiss := miss }

/-- A slot reaches DARK_M misses (R94): dark for the group; the third dark group in a row marks the stripe failed. -/
def Device.darkEvent (d : Device) (g : Group) (s : Nat) : Device :=
  let x := vget g.slots s {}
  let run := vget d.fire.darkRun x.stripe 0 + 1
  let failed := decide (3 ≤ run)
  let d := d.modFire (fun f => { f with darkRun := vset f.darkRun x.stripe run })
  let d := if failed then d.mram false (fun d => d.modFire (fun f => f.setLatch (setBit f.latchNow x.stripe true))) else d
  let payload := fields [(224, g.frame % 2 ^ 32), (216, g.idx % 256), (210, x.stripe), (209, failed.toNat)]
  if failed then d.emitterRecord 0x0203 s payload s x.stripe x.misses else d.raise 0x0203 s payload

/-- The group after a shot: slots fired, withheld and dark. -/
def Group.shot (g : Group) (emitter : BitVec 128) (dither : Nat) (parity : Bool) (ok : List Bool) (ws : List (List Nat)) : Group :=
  let idle := g.slots.map (fun x => { x with firing := false })
  let slots := (List.range 4).foldl (fun v s =>
    if (ok[s]?).getD false then
      vmod v s (fun x => x.fire emitter (fireEdge emitter dither s) (vget g.emitDelay s 0) parity ((ws[s]?).getD []))
    else vmod v s (fun x => if x.commanded then { x with dosed := true } else x)) idle
  let darkM := fld emitter 87 80
  let slots := slots.map (fun x => if !x.dark && x.firing && darkM ≤ (x.recent.filter id).length then { x with dark := true } else x)
  let dosed := slots.any (fun x => x.dosed)
  let dark := slots.any (fun x => x.dark)
  let flags := if dosed then setBit g.flags 2 true else g.flags
  { g with slots, shots := g.shots + 1, flags := if dark then setBit flags 3 true else flags }

/-- A shot may be commanded now. -/
def Fire.shotDue (f : Fire) (g : Group) (now : Nat) : Bool :=
  f.fn.st == .on && !bit g.flags 1 && decide (g.shots < descShots g.desc) &&
    (if g.shots = 0 then decide (g.startClk ≤ now) else decide (f.slotClk + descPeriod g.desc ≤ now))

/-- Events of a witness outside the acceptance window of its slot's FIRE edge; all of them where the slot does not fire (R95). -/
def strayEvents (emitter : BitVec 128) (edge : Nat) (fires : Bool) (hits : List Nat) : List Nat :=
  hits.filter (fun t => !(fires && edge + fld emitter 71 64 * 32 ≤ t && t ≤ edge + fld emitter 79 72 * 32))

/-- A shot: the dither advances, the governor decides, FIRE edges are charged and judged (R85, R88, R89, R93, R94), and events outside
the acceptance windows feed stuck-lit detection (R95). `ps` are the pulses of W0-W3 in this slot, in 31.25 ps from its start. -/
def Device.shot (d : Device) (ps : List (List (Nat × Nat))) : Device :=
  match d.fire.grp with
  | none => d
  | some g =>
    if !d.fire.shotDue g d.now then d
    else
      let f := d.fire.roll d.govTime
      let lfsr := lfsrShot f.lfsr
      let c := ditherCode lfsr
      let dither := Nat.land c (descMask g.desc)
      let parity := ditherParity c
      let ok := f.govern g
      let seen := ps.zipIdx.map (fun p => d.rx.fireWitness p.2 (32 * d.now) p.1)
      let ws := seen.map (fun x => x.1)
      let fires := fun (s : Nat) => (ok[s]?).getD false
      let g' := g.shot f.emitter dither parity ok ws
      let charged := (List.range 4).foldl (fun f s =>
        if fires s then f.charge (vget g.slots s {}).stripe (descEnergy g.desc s) else f) f
      let edges := ((List.range 4).filter fires).map (fun s => 32 * d.now + fireEdge f.emitter dither s)
      let len := 32 * (d.now - d.fire.slotClk)
      let d := d.modFire (fun _ => { charged with
        grp := some g', lfsr, slotClk := d.now, dither, parity
        selUntil := selTimes f.emitter g d.now dither })
      let d := d.modRx (fun r => { r.nextSlot len with
        witTail := seen.zipIdx.foldl (fun v x => vset v x.2 x.1.2) r.witTail
        fireEdges := edges ++ r.fireEdges.filter (fun e => 32 * d.now ≤ e + 32 * (300 * us)) })
      let newly := fun (p : SlotRun → Bool) => (List.range 4).filter (fun s => p (vget g'.slots s {}) && !p (vget g.slots s {}))
      let d := (newly (fun x => x.dosed)).foldl (fun d s => d.doseEvent f g' s) d
      let d := (newly (fun x => x.dark)).foldl (fun d s => d.darkEvent g' s) d
      ws.zipIdx.foldl (fun d p => (strayEvents f.emitter (fireEdge f.emitter dither p.2) (fires p.2) p.1).foldl
        (fun d t => d.stray p.2 (d.now + t / 32)) d) d

/-- SHOT (R88). -/
def execShot (dt : Nat) (w0 w1 w2 w3 : List (Nat × Nat)) (s : State) : Host.Outcome State Fault Refusal :=
  coreRow dt (fun d => d.shot [w0, w1, w2, w3]) s

/-! Photon events (R120, R130, R132, R133). -/

/-- The event word of a range event (Table 4-8). -/
def eventWord (pair ab miss : Bool) (evt time : Nat) : Word :=
  .ofNat 32 (fields [(31, pair.toNat), (30, ab.toNat), (29, miss.toNat), (26, evt), (0, time)])

/-- The raw tap (R185, R186): at most 125 M events/s and RAW_MAX events in the group. -/
def Device.tap (d : Device) (g : Group) (ch : Nat) (w : Word) : Device :=
  match g.raw with
  | none => d
  | some (_, chs, top) =>
    if !chs.contains ch then d
    else if d.ret.rawBuf.length < top && d.ret.rawBuf.length < (d.now - g.startClk) / 8 + 1 then
      d.modRet (fun r => { r with rawBuf := r.rawBuf ++ [BitVec.ofNat 64 (fields [(48, (g.shots - 1) % 65536), (32, ch), (0, w.toNat)])] })
    else d.modRet (fun r => { r with notExported := r.notExported + 1 })

/-- An event the TDC accepts counts in the guard window, or is recorded in the range window. -/
def Device.accepted (d : Device) (g : Group) (x : SlotRun) (ch t : Nat) (sh : ChShot) : Device :=
  let put := fun (d : Device) (sh : ChShot) => d.modRx (fun r => { r with shot := mset ch sh r.shot })
  if t < 4096 then
    if 8 ≤ sh.guard then put d sh
    else (put d { sh with guard := sh.guard + 1 }).modHist (fun h => h.modRec g.pair ch (fun r =>
      if d.fire.parity then { r with guardB := r.guardB + 1 } else { r with guardA := r.guardA + 1 }))
  else if t < x.e || x.e + windowNs (pcFbin g.planecfg) * 32 ≤ t || 8 ≤ sh.range then put d sh
  else
    let w := eventWord g.pair d.fire.parity x.witMiss sh.range (t - x.e)
    let d := put d { sh with range := sh.range + 1 }
    let d := if sh.range = 7 then
        d.modRx (fun r => { r with chans := match mget ch r.chans with
          | some c => mset ch { c with capped := c.capped + 1 } r.chans
          | none => r.chans })
      else d
    let d := d.modHist (fun h => { (h.modRec g.pair ch (fun r => { r with events := r.events + 1 })) with
      x2 := mset ch (((mget ch h.x2).getD []) ++ [w]) h.x2 })
    d.tap g ch w

/-- A SPAD pulse on a channel's detector at tap code `t`, in 31.25 ps from the slot start, `ages` before it those of the channel's earlier
pulses (R120): with the ones of the preceding tau it makes K_EFF, and an event is emitted unless the detector is silent. The TDC, unless
dead (R130), times it with its tap table (R131). -/
def Device.photon (d : Device) (ch t : Nat) (ages : List Nat) : Device :=
  match d.fire.grp, mget ch d.rx.chans with
  | some g, some c =>
    let x := vget g.slots (ch / 256) {}
    let sh := (mget ch d.rx.shot).getD {}
    let win := 8 * coWin g.coinc
    let pulses := (ages.filter (fun a => a ≤ win)).length + 1
    if !x.firing || c.kEff = 0 || pulses < c.kEff || t < sh.silent then d
    else
      let sh := { sh with silent := t + win }
      match c.tdc with
      | none => d
      | some tdc =>
        if t < sh.dead then d.modRx (fun r => { r with shot := mset ch sh r.shot })
        else d.accepted g x ch (d.rx.tapTime tdc t) { sh with dead := t + 500 }
  | _, _ => d

/-- PHOTON_EVENT (R132). -/
def execPhotonEvent (dt : Nat) (ch : Fin 1032) (t : Nat) (ages : List Nat) (s : State) : Host.Outcome State Fault Refusal :=
  coreRow dt (fun d => d.photon ch.val t ages) s

end Sys2Proof.Machine
end

