-- ==== Sys2Proof/Machine/Subs.lean ====
section
/-! DEFINITION. Subscriptions: how they end, are suspended and resume (R258-R261), and the credit reset of a RELIABLE one
(R264, R265). -/

namespace Sys2Proof.Machine

open Sys2Proof

/-- E_Q_SUB: 0 active, 1 suspended, 2 resumed, 3 ended with its cause (Table 9-13). -/
def Device.subEvent (d : Device) (n who code cause : Nat) : Device :=
  d.raise 0x0802 n (fields [(250, who), (248, code), (246, cause)])

/-- The function of a queue. -/
def qFn (n : Nat) : FnId := .queue (Fin.ofNat 16384 n)

/-- E_Q_STATE. -/
def Device.queueEvent (d : Device) (n : Nat) : Device := d.raise 0x0803 n ((d.queue n).fn.word d.now ms * 2 ^ 224)

/-- The subscription is gone. -/
def Device.dropSub (d : Device) (n who cause : Nat) : Device :=
  ({ d with qs := { d.qs with subs := d.qs.subs.filter (fun s => !(s.queue == n && s.who == who)) } } : Device).subEvent n who 3 cause

/-- A queue reaches OFF: what remains is discarded under STOP and leaves no port any more, subscriptions that were ending end, and
credits are forgotten (R258, R261). -/
def Device.queueOff (d : Device) (n : Nat) : Device :=
  let d := (d.queue n).units.foldl (fun d u => ({ d with qs := d.qs.missed n u } : Device).countDrop n 6 u.useq) d
  let d := d.modQ n (fun q => { q with units := [], partials := [], tail := none })
  let d := [0, 1].foldl (fun (d : Device) p => d.modPort p (fun x => { x with x9 := x.x9.filter (fun f => f.queue != n) })) d
  let d := (d.qs.subs.filter (fun s => s.queue == n && s.st == .ending)).foldl (fun d s => d.dropSub n s.who s.endCause) d
  let d : Device := { d with qs := { d.qs with subs := d.qs.subs.map (fun s => if s.queue = n then
    { s with credit := 0, reset := none, resetZero := false, stallSince := none } else s) } }
  (d.reachOff (qFn n) ms).queueEvent n

/-- A STOPPING queue with nothing left to deliver reaches OFF. -/
def Device.queueSettle (d : Device) (n : Nat) : Device :=
  if (d.queue n).fn.st == .stopping && (d.queue n).units.isEmpty then d.queueOff n else d

/-- A unit a subscriber will not take any more. -/
def QUnit.without (u : QUnit) (who : Nat) : QUnit :=
  { u with active := u.active.filter (· != who), begun := u.begun.filter (· != who), gone := u.gone.filter (· != who) }

/-- The subscriber is partway through the unit. -/
def QUnit.partway (u : QUnit) (who : Nat) : Bool := u.active.contains who && (u.begun.contains who || (who == 32 && u.read != 0))

/-- The units of a queue satisfying a test are no longer for a subscriber: missed by it, and released where nobody waits. -/
def Device.abandon (d : Device) (n who : Nat) (f : QUnit → Bool) : Device :=
  let hit := (d.queue n).units.filter (fun u => u.active.contains who && f u)
  let d := d.modQ n (fun q => Queue.release { q with units := q.units.map (fun u => if f u then u.without who else u) })
  { d with qs := d.qs.modSub n who (fun s =>
    { s with missed := s.missed + hit.length, missedRead := s.missedRead + hit.length }) }

/-- An ending subscription ends at the unit boundary it has reached (R261). -/
def Device.subSettle (d : Device) (n who : Nat) : Device :=
  match d.qs.sub? n who with
  | some s =>
    if s.st == .ending && !((d.queue n).units.any (fun u => u.partway who)) then d.dropSub n who s.endCause else d
  | none => d

/-- A subscription ends (R261): units it has not begun are no longer for it; the unit in progress is still delivered (R256). -/
def Device.endSub (d : Device) (n who cause : Nat) : Device :=
  match d.qs.sub? n who with
  | none => d
  | some _ =>
    let d := d.abandon n who (fun u => !u.partway who)
    let d : Device := { d with qs := d.qs.modSub n who (fun s => { s with st := .ending, endCause := cause }) }
    (d.subSettle n who).queueSettle n

/-- A unit taken whole by a subscriber (R260). -/
def Device.taken (d : Device) (n who useq : Nat) : Device := ((d.take n who useq).subSettle n who).queueSettle n

/-! Credits (R264, R265). -/

/-- A message of the queue manager to Q1 of a node: type, queue, SEQ and a reserved word (R265). -/
def Device.sendQ1 (d : Device) (node type queue seq : Nat) : Device :=
  match d.ring.shortWest node with
  | none => d
  | some west =>
    let hops := (if west then d.ring.westHops node else d.ring.eastHops node).getD 0
    let fs := unitFrames (2 ^ node) 1 d.ring.node (hops + 1) 2 false (d.ring.wcpNext node 1) (words [type, queue, seq % 65536, 0]) 16385 []
    let d := d.modPort (d.ring.portOf west) (fun p => { p with x9 := p.x9 ++ fs })
    d.modRing (fun r => r.wcpSent node 1 fs.length)

/-- SEQ of the next frame a subscriber is to receive: that of its first unit not sent, else the queue's next (R263). -/
def Queue.nextSeq (q : Queue) (who : Nat) : Nat :=
  match q.units.find? (fun u => u.active.contains who && !u.gone.contains who) with
  | some u => u.seqBase.getD q.seq
  | none => q.seq

/-- What a subscriber was being sent goes back: a unit already partly sent is lost to it, others wait again (R235, R265). -/
def Device.unsend (d : Device) (n who : Nat) (started : Bool) : Device :=
  let mid := fun (u : QUnit) => u.begun.contains who && !u.gone.contains who
  let d := match (if started then (d.queue n).units.find? mid else none) with
    | some u => d.abandon n who (fun x => x.useq == u.useq)
    | none => d
  d.modQ n (fun q => { q with units := q.units.map (fun u => if mid u then { u with begun := u.begun.filter (· != who) } else u) })

/-- Frames of X9 whose unit began on the port before them: the rest of a unit partly sent. -/
def TxFrame.rest (l : List TxFrame) (f : TxFrame) : List TxFrame :=
  (l.filter (fun x => x.queue == f.queue && x.subs == f.subs)).takeWhile (fun x => !bit x.frame.hdr 58)

/-- Frames waiting in X9 of a port taken out of it: the units they carry go back to their queues, but one already partly sent is
lost whole, its remaining frames discarded (R235). -/
def Device.pullBack (d : Device) (p : Nat) (out : TxFrame → Bool) : Device :=
  let x9 := (vget d.ring.ports p {}).x9
  let hit := x9.filter out
  let d := d.modPort p (fun x => { x with x9 := x9.filter (fun f => !out f) })
  let cut := (hit.filter (fun f => (TxFrame.rest hit f).contains f)).length
  let d := d.modRing (fun r => { r with lostFrames := r.lostFrames + cut })
  ((hit.map (fun f => (f.queue, f.subs))).eraseDups).foldl (fun d k =>
    let started := match hit.find? (fun f => f.queue == k.1 && f.subs == k.2) with
      | some f => !bit f.frame.hdr 58
      | none => false
    k.2.foldl (fun d who => (d.unsend k.1 who started).subSettle k.1 who) d) d

/-- A credit reset starts at the sender (Table 9-5, step 1). -/
def Device.startReset (d : Device) (n who : Nat) : Device :=
  let d := [0, 1].foldl (fun (d : Device) p => d.pullBack p (fun f => f.queue == n && f.subs.contains who)) d
  let q := d.queue n
  let d : Device := { d with qs := d.qs.modSub n who (fun s =>
    { s with reset := some d.now, resetZero := false, stallSince := some d.now }) }
  d.sendQ1 who 1 q.deliverQ (q.nextSeq who)

/-- A RELIABLE subscription of a node that becomes active or resumes runs a credit reset (R265). -/
def Device.resetIfReliable (d : Device) (n who : Nat) : Device :=
  if (d.queue n).cls = 1 && who < 32 then d.startReset n who else d

/-- A frame that several subscribers share, for the others only. -/
def TxFrame.without (f : TxFrame) (node : Nat) : TxFrame :=
  if !f.subs.contains node then f
  else
    let h := setBit f.frame.hdr (96 + node) false
    { f with subs := f.subs.filter (· != node), frame := { f.frame with hdr := setFld h 15 0 (hcrc h.toNat) } }

/-- The subscriptions of a node are suspended while it is away (R261). -/
def Device.suspendNode (d : Device) (node : Nat) : Device :=
  (d.qs.subs.filter (fun s => s.who == node && s.st != .suspended)).foldl (fun d s =>
    let d := d.abandon s.queue node (fun _ => true)
    let d := [0, 1].foldl (fun (d : Device) p => (d.pullBack p (fun f => f.queue == s.queue && f.subs == [node])).modPort p
      (fun x => { x with x9 := x.x9.map (fun f => if f.queue = s.queue then f.without node else f) })) d
    if s.st == .ending then (d.subSettle s.queue node).queueSettle s.queue
    else
      (({ d with qs := d.qs.modSub s.queue node (fun x =>
        { x with st := .suspended, stallSince := none, reset := none, resetZero := false, west := none }) } : Device).subEvent
          s.queue node 1 0).queueSettle s.queue) d

/-- They resume at the next unit when the same UID returns within NODE_HOLD (R261). -/
def Device.resumeNode (d : Device) (node : Nat) : Device :=
  (d.qs.subs.filter (fun s => s.who == node && s.st == .suspended)).foldl (fun d s =>
    let d : Device := { d with qs := d.qs.modSub s.queue node (fun x => { x with st := .active }) }
    (d.subEvent s.queue node 2 0).resetIfReliable s.queue node) d

/-- They end when the node has been away for NODE_HOLD (R261). -/
def Device.endNode (d : Device) (node : Nat) : Device :=
  (d.qs.subs.filter (fun s => s.who == node && s.st == .suspended)).foldl (fun d s => d.dropSub s.queue node 2) d

end Sys2Proof.Machine
end

