-- ==== Sys2Proof/Machine/RingOps.lean ====
section
/-! DEFINITION. Ring messages, membership, breaks, reservations and the time parent: what the ring's commands share
(R218, R223, R229-R246). -/

namespace Sys2Proof.Machine

open Sys2Proof

/-! Ports and their reports. -/

/-- The function of a port. -/
def portFn (p : Nat) : FnId := .port (if p = 1 then .w else .e)

/-- LINK of Table 8-7. -/
def LinkState.code : LinkState → Nat
  | .down => 0
  | .training => 1
  | .aligning => 2
  | .linked => 3
  | .member => 4
  | .draining => 5

/-- Markers are exchanged: LINKED, MEMBER or DRAINING (R227). -/
def RPort.live (p : RPort) : Bool := p.link == .linked || p.link == .member || p.link == .draining

/-- The link is a member link. -/
def RPort.joined (p : RPort) : Bool := p.link == .member || p.link == .draining

/-- Port status word (Table 8-7). -/
def Device.portStatus (d : Device) (p : Nat) : Nat :=
  let x := d.port p
  fields [(24, x.neighbour), (11, x.refused.toNat), (10, x.degraded.toNat), (9, x.breakSeen.toNat),
    (8, (d.ring.closed && x.link == .member).toNat), (0, x.link.code)]

/-- E_RING_PORT. -/
def Device.portEvent (d : Device) (p : Nat) : Device :=
  d.raise 0x0708 p (fields [(224, (d.port p).fn.word d.now (10 * ms)), (192, d.portStatus p)])

/-- E_RING_LINK: 0 failed, 1 up, 2 degraded, 3 degrade cleared, with the exponent of the last 1 s window. -/
def Device.linkEvent (d : Device) (p code cause : Nat) : Device :=
  d.raise 0x0704 p (fields [(254, code), (246, cause), (230, (d.port p).serExp % 65536)])

/-- Device time in 1/65,536 ns. -/
def Device.time16 (d : Device) : Nat := d.time.ns.toNat * 65536 + d.time.frac.toNat / 65536

/-! TOPO messages (R218, Table 8-4). -/

/-- A TOPO flit: type, hops remaining, sequence, originator, body from byte 5. -/
def topoFlit (type hops seq orig body : Nat) : BitVec 512 :=
  .ofNat 512 (fields [(0, type), (8, hops), (16, seq % 65536), (32, orig), (40, body)])

/-- The body of a TOPO flit, bits [hi:lo]. -/
def topoBody (f : BitVec 512) (hi lo : Nat) : Nat := fld f (40 + hi) (40 + lo)

/-- What identifies a message: its originator (a node without a number by the UID its body names) and its sequence. -/
def topoKey (f : BitVec 512) : Nat × Nat :=
  let o := fld f 39 32
  (if o = 0xFF then 256 + topoBody f 63 0 else o, fld f 31 16)

/-- A flit queued on a live port. -/
def Device.sendOn (d : Device) (p : Nat) (f : BitVec 512) : Device :=
  if (d.port p).live then d.modPort p (fun x => { x with topoOut := x.topoOut ++ [f] }) else d

/-- A message seen: the last 64 are remembered. -/
def Device.noteTopo (d : Device) (k : Nat × Nat) : Device := d.modRing (fun r => { r with seen := (k :: r.seen).take 64 })

/-- A message of this node sent out of every live port, 32 hops far. -/
def Device.flood (d : Device) (type body : Nat) : Device :=
  let f := topoFlit type 32 d.ring.topoSeq (if d.ring.granted then d.ring.node else 0xFF) body
  let d := d.modRing (fun r => { r with topoSeq := (r.topoSeq + 1) % 65536 })
  ((d.noteTopo (topoKey f)).sendOn 0 f).sendOn 1 f

/-- A message received on a port: unseen, it is forwarded toward the far port with one hop less and acted upon. -/
def Device.topo (d : Device) (p type : Nat) (f : BitVec 512) (act : Device → Device) : Device :=
  if !(d.port p).live || fld f 7 0 != type || d.ring.seen.contains (topoKey f) then d
  else
    let hops := fld f 15 8 - 1
    let d := d.noteTopo (topoKey f)
    act (if hops = 0 then d else d.sendOn (1 - p) (setFld f 15 8 hops))

/-- The row of a TOPO message. -/
def topoRow (dt : Nat) (p : Port) (type : Nat) (f : BitVec 512) (act : Device → Device) (s : State) :
    Host.Outcome State Fault Refusal :=
  coreRow dt (fun d => d.topo (portNo p) type f act) s

/-! Reservations and admission (R237, R238). -/

/-- Nodes of a destination mask other than the source. -/
def Resv.dests (v : Resv) : List Nat := (List.range 32).filter (fun j => bit v.mask j && j != v.node)

/-- The direction a destination is reached in: the reservation's, where the way is open, else the other. -/
def Ring.legDir (r : Ring) (v : Resv) (dst : Nat) : Option Bool :=
  let r := { r with node := v.node }
  match r.eastHops dst, r.westHops dst with
  | some _, some _ => some v.west
  | some _, none => some false
  | none, some _ => some true
  | none, none => none

/-- Hops to the farthest destination reached in a direction; none where no destination is. -/
def Ring.legHops (r : Ring) (v : Resv) (west : Bool) : Option Nat :=
  let r' := { r with node := v.node }
  ((v.dests.filter (fun j => r.legDir v j == some west)).map
    (fun j => (if west then r'.westHops j else r'.eastHops j).getD 0)).max?

/-- The links a reservation counts on: its paths, and with PROTECT on a closed ring the alternative ones. -/
def Ring.legs (r : Ring) (v : Resv) : List (Bool × Nat) :=
  let of := fun (v : Resv) => [false, true].filterMap (fun w => (r.legHops v w).map (fun k => (w, k)))
  of v ++ (if v.protect && r.closed then of { v with west := !v.west } else [])

/-- Whether a leg from a place uses link i, which joins member i and its eastern neighbour. -/
def legUses (n place : Nat) (leg : Bool × Nat) (i : Nat) : Bool :=
  if leg.1 then decide ((place + 2 * n - 1 - i) % n < leg.2) else decide ((i + n - place) % n < leg.2)

/-- Whether a reservation uses a link in a direction; that of an absent member holds those it used (R232). -/
def Ring.uses (r : Ring) (v : Resv) (west : Bool) (i : Nat) : Bool :=
  match r.place v.node with
  | none => v.links.contains (west, ((r.members.drop i).head?.map (fun m => m.node)).getD 0xFF)
  | some a => (r.legs v).any (fun leg => leg.1 == west && legUses r.members.length a leg i)

/-- Reserved sum of a link direction. -/
def Ring.load (r : Ring) (l : List Resv) (west : Bool) (i : Nat) : Nat := ((l.filter (fun v => r.uses v west i)).map Resv.ru).sum

/-- What the reservations of nodes that go away hold while their numbers are held (R232). -/
def Ring.holdLinks (r : Ring) (old : Ring) (gone : List Nat) : Ring :=
  { r with resv := r.resv.map (fun v =>
      if gone.contains v.node && v.links.isEmpty then
        { v with links := old.members.zipIdx.flatMap (fun m => [false, true].filterMap (fun w =>
            if old.uses v w m.2 then some (w, m.1.node) else none)) }
      else v) }

/-- Largest reserved sum on any link in a direction. -/
def Ring.maxLoad (r : Ring) (west : Bool) : Nat :=
  ((List.range r.members.length).map (r.load r.resv west)).foldl max 0

/-- Whether every destination is reachable and the sums stay at or below 79,872 RU with the reservation beside others. -/
def Ring.fits (r : Ring) (l : List Resv) (v : Resv) : Bool :=
  !v.dests.isEmpty && (r.place v.node).isSome && v.dests.all (fun j => (r.legDir v j).isSome) &&
    [false, true].all (fun w => (List.range r.members.length).all (fun i =>
      !r.uses v w i || decide (r.load l w i + v.ru ≤ 79872)))

/-- The direction of the shorter way to the farthest destination; that of the node's port E on a tie (R223). -/
def Ring.resvWest (r : Ring) (v : Resv) : Bool :=
  let r' := { r with node := v.node }
  let far := fun (f : Nat → Option Nat) => (v.dests.map (fun j => (f j).getD 1000)).foldl max 0
  if far r'.westHops = far r'.eastHops then r'.west 0 else decide (far r'.westHops < far r'.eastHops)

/-- The newest unsealed reservation that shares a link with one. -/
def Ring.victim (r : Ring) (l : List Resv) (v : Resv) : Option Resv :=
  l.reverse.find? (fun x => !x.sealed && [false, true].any (fun w => (List.range r.members.length).any (fun i =>
    r.uses v w i && r.uses x w i)))

/-- Two reservations are the same source queue's. -/
def Resv.same (a b : Resv) : Bool := a.node == b.node && a.queue == b.queue

/-- Admission of a reservation beside others: what remains of them, those withdrawn, and whether it is admitted. -/
def Ring.makeRoom (r : Ring) (v : Resv) : Nat → List Resv → List Resv → List Resv × List Resv × Bool
  | 0, l, out => (l, out, r.fits l v)
  | k + 1, l, out =>
    if r.fits l v then (l, out, true)
    else if !v.sealed then (l, out, false)
    else match r.victim l v with
      | none => (l, out, false)
      | some x => r.makeRoom v k (l.filter (fun y => !y.same x)) (out ++ [x])

/-- E_RING_RESV: 0 admitted, 1 withdrawn for a sealed reservation, 2 lost at a wrap. -/
def Device.resvEvent (d : Device) (code : Nat) (v : Resv) : Device :=
  d.raise 0x0705 v.queue (fields [(254, code), (222, v.ru % 2 ^ 32)])

/-- The body of RESV_REQ: queue, mask, rate, flags (bit 0 PROTECT, bit 1 sealed; log entry 58). -/
def resvBody (v : Resv) : Nat := fields [(0, v.queue), (16, v.mask.toNat), (48, v.ru), (80, v.protect.toNat + 2 * v.sealed.toNat)]

/-! Sealed reservations (R384): entries of four words, queue, mask, RU, PROTECT; RU 0 is none (log entry 61). -/

/-- Sealed reservation of a queue. -/
def Sec.sealedResv (s : Sec) (q : Nat) : Option (BitVec 128) :=
  (s.resv.toList.map (fun r => r.use 0)).find? (fun v => fld v 95 64 != 0 && fld v 31 0 == q)

/-- The entry of a reservation. -/
def resvEntry (v : Resv) : BitVec 128 := .ofNat 128 (fields [(0, v.queue), (32, v.mask.toNat), (64, v.ru), (96, v.protect.toNat)])

/-- The 32 entries in queue order with one queue's entry written or removed; unused entries zero. An entry that fails its check is left as
it is (R352), and the others go around it. -/
def Sec.putResv (s : Sec) (q : Nat) (e : Option (BitVec 128)) : Sec :=
  let m : Map (BitVec 128) := ((s.resv.toList.map (fun r => r.use 0)).filter (fun v => fld v 95 64 != 0)).foldl
    (fun m v => mset (fld v 31 0) v m) []
  let l := (match e with
    | some v => mset q v m
    | none => mdel q m).map (fun (p : Nat × BitVec 128) => p.2)
  let place := fun (i : Nat) => ((s.resv.toList.take i).filter (fun r => r.ok)).length
  { s with resv := Vector.ofFn (fun i : Fin 32 => if s.resv[i].ok then s.resv[i].put ((l.drop (place i.val)).head?.getD 0) else s.resv[i]) }

/-- The sealed reservations in force: entries whose pair is consistent (Table 12-1, class 15). -/
def Device.sealedList (d : Device) : List Resv :=
  (d.sec.resv.toList.filter (fun r => r.ok && fld r.v 95 64 != 0)).map (fun r =>
    { node := d.ring.node, queue := fld r.v 31 0, mask := .ofNat 32 (fld r.v 63 32), ru := fld r.v 95 64, protect := bit r.v 96
      sealed := true, west := false, admitted := false })

/-- An admitted sealed reservation is committed: the sealed change of R384. -/
def Device.commitSealedResv (d : Device) (v : Resv) : Device :=
  (d.wcp.waits.filter (fun w => w.kind == .sealResv v.queue)).foldl (fun (d : Device) w =>
    let old := digest128 (d.sealedValue 7)
    let c : Ctx := { session := w.session.val, slot := (d.session w.session.val).slot, counter := w.counter.toNat, path := .spi, auth := true }
    (d.mram false (fun d => { d with sec := d.sec.putResv v.queue (some (resvEntry v)) })).sealChange c w.cmdId 7 old) d

/-- A frame sent best-effort. -/
def TxFrame.bestEffort (f : TxFrame) : TxFrame :=
  let h := setBit f.frame.hdr 54 false
  { f with rsv := false, frame := { f.frame with hdr := setFld h 15 0 (hcrc h.toNat) } }

/-- A reservation of this node is gone: its queue's frames go best-effort (R237). -/
def Device.unreserve (d : Device) (q : Nat) : Device :=
  [0, 1].foldl (fun (d : Device) p => d.modPort p (fun x =>
    { x with x9 := x.x9.map (fun f => if f.queue = q && f.rsv then f.bestEffort else f) })) d

/-- The outcome of a request reaches its node: admitted with a direction, refused, withdrawn or lost (R237, R238). -/
def Device.resvOutcome (d : Device) (queue status : Nat) (west : Bool) : Device :=
  let pend := d.ring.reqs.find? (fun v => v.queue == queue)
  let cur := d.ring.resv.find? (fun v => v.node == d.ring.node && v.queue == queue)
  let waiting := d.wcp.waits.any (fun w => w.kind == .resv queue || w.kind == .sealResv queue)
  let d := d.modRing (fun r => { r with reqs := r.reqs.filter (fun v => v.queue != queue) })
  match pend.orElse (fun _ => cur) with
  | none => d
  | some v =>
    if status = sOk then
      let new := { v with node := d.ring.node, west, admitted := true }
      let swap := fun (x : Resv) => if x.same new then new else x
      let resv := if cur.isSome then d.ring.resv.map swap else d.ring.resv ++ [new]
      let d := d.modRing (fun r => { r with resv })
      let d := if pend.isSome then d.resvEvent 0 new else d
      ((d.commitSealedResv new).complete (.resv queue) sOk Bytes.nil).complete (.sealResv queue) sOk Bytes.nil
    else if pend.isSome && waiting then
      (d.complete (.resv queue) sNoResource Bytes.nil).complete (.sealResv queue) sNoResource Bytes.nil
    else
      ((d.modRing (fun r => { r with resv := r.resv.filter (fun x => !x.same v) })).unreserve queue).resvEvent
        (if status = sSealed then 1 else 2) v

/-- The head answers a node: RESV_ANS, or its own outcome. -/
def Device.resvAnswer (d : Device) (v : Resv) (status : Nat) (west : Bool) : Device :=
  if v.node = d.ring.node then d.resvOutcome v.queue status west
  else d.flood 9 (fields [(0, v.queue), (16, status), (24, west.toNat)])

/-- Best-effort allowance of a direction (R238). -/
def Ring.allowance (r : Ring) (west : Bool) : Nat :=
  if r.members.isEmpty then 0 else (79872 - r.maxLoad west) / r.members.length

/-- The head sends each member its allowances after a change of membership or reservation (R238). -/
def Device.sendAllowances (d : Device) : Device :=
  if !d.ring.head then d
  else
    let e := d.ring.allowance false
    let w := d.ring.allowance true
    (d.modRing (fun r => { r with allowE := e, allowW := w })).flood 10 (fields [(0, e), (32, w)])

/-- A reservation withdrawn for a sealed one: its node is told, and the head reports another node's itself (R238, log entry 58). -/
def Device.withdrawResv (d : Device) (v : Resv) : Device :=
  let away := v.node != d.ring.node
  let d := d.resvAnswer v sSealed v.west
  if away then d.resvEvent 1 v else d

/-- A request decided at the head; rate 0 releases. -/
def Device.decideResv (d : Device) (v : Resv) : Device :=
  let others := d.ring.resv.filter (fun x => !x.same v)
  if v.ru = 0 then (d.modRing (fun r => { r with resv := others })).sendAllowances
  else
    let v := { v with west := d.ring.resvWest v, admitted := true }
    let a := d.ring.makeRoom v others.length others []
    if a.2.2 then
      let d := a.2.1.foldl (fun d x => d.withdrawResv x) d
      let d := d.modRing (fun r => { r with resv := a.1 ++ [v] })
      (d.resvAnswer v sOk v.west).sendAllowances
    else d.resvAnswer v sNoResource false

/-- The requests of this node: at the head they wait for its next superframe, elsewhere they go to the head (R237). -/
def Device.requestResv (d : Device) (v : Resv) : Device :=
  let d := d.modRing (fun r => { r with
    reqs := r.reqs.filter (fun x => x.queue != v.queue) ++ [{ v with node := r.node, asked := d.now }] })
  if d.ring.head then d else d.flood 8 (resvBody v)

/-- Requests without an answer go to the head again: one of them or its answer may have been lost with a link (R237). -/
def Device.askAgain (d : Device) : Device :=
  if d.ring.head || !d.ring.onring then d else d.ring.reqs.foldl (fun d v => d.flood 8 (resvBody v)) d

/-- A request without an answer for 10 ms (R237): the command that made it completes, with S_NO_RESOURCE, as the head has not admitted
it; one made at a join or a change of head is made again (log entry 191). -/
def Device.askLate (d : Device) : Device :=
  (d.ring.reqs.filter (fun v => decide (v.asked + 10 * ms ≤ d.now))).foldl (fun (d : Device) v =>
    if d.wcp.waits.any (fun w => w.kind == .resv v.queue || w.kind == .sealResv v.queue) then d.resvOutcome v.queue sNoResource false
    else d.requestResv v) d

/-- All of this node's reservations requested again, the sealed ones first: after a join or a change of head (R232, R233, R238). -/
def Device.requestAll (d : Device) : Device :=
  let d := (List.range 32).foldl (fun (d : Device) i => d.checkPair (vget d.sec.resv i (.of 0)).ok 15 i 0) d
  let own := d.ring.resv.filter (fun v => v.node == d.ring.node && !v.sealed)
  let reqs := d.ring.reqs.filter (fun v => !v.sealed && !own.any (fun x => x.queue == v.queue))
  (d.sealedList ++ own ++ reqs).foldl (fun d v => d.requestResv v) d

/-- After a change of topology the head admits again what lost its path, the sealed ones first and at the cost of unsealed ones
(R238), then in the order of admission; protected reservations keep
their rate (R237), and those of a member that is away are held with its number (R232). -/
def Device.readmit (d : Device) (old : Ring) : Device :=
  if !d.ring.head then d
  else
    let r := d.ring
    let intact := fun (v : Resv) => v.protect || (r.place v.node).isNone || v.dests.all (fun j => old.legDir v j == r.legDir v j)
    let step := fun (a : List Resv × List (Resv × Bool) × List Resv) (v : Resv) =>
      let v' := { v with west := r.resvWest v, links := [] }
      let m := r.makeRoom v' a.1.length a.1 []
      if m.2.2 then (m.1 ++ [v'], a.2.1 ++ [(v', true)], a.2.2 ++ m.2.1) else (a.1, a.2.1 ++ [(v', false)], a.2.2)
    let kept := (r.resv.filter intact).map (fun v => if v.protect && (r.place v.node).isSome then { v with west := r.resvWest v } else v)
    let moved := r.resv.filter (fun v => !intact v)
    let res := (moved.filter (fun v => v.sealed) ++ moved.filter (fun v => !v.sealed)).foldl step (kept, [], [])
    let place := fun (v : Resv) => res.1.find? (fun x => x.same v)
    let d := d.modRing (fun r => { r with resv := r.resv.filterMap (fun v =>
      match place v with
      | some x => some x
      | none => if v.node = r.node then some v else none) })
    let d := res.2.2.foldl (fun d v => d.withdrawResv v) d
    let d := res.2.1.foldl (fun d p => d.resvAnswer p.1 (if p.2 then sOk else sNoResource) p.1.west) d
    d.sendAllowances

/-! What a change of paths takes back (R235). -/

/-- X9 frames whose destinations their port no longer reaches are pulled back (R235). Those of a port that drains before it stops
finish (R246). -/
def Device.reroute (d : Device) : Device :=
  [0, 1].foldl (fun (d : Device) p =>
    let r := d.ring
    let x := d.port p
    d.pullBack p (fun f => x.link != .draining && (List.range 32).any (fun j =>
      bit f.frame.hdr (96 + j) && ((if r.west p then r.westHops j else r.eastHops j).isNone)))) d

/-! Time parent (R242, R243). -/

/-- Hop count a neighbour offers: 0 from the head, none while it sees none. -/
def RPort.offer (p : RPort) : Option Nat :=
  if !p.live then none
  else if nbit p.rxFlags 1 then some 0
  else if p.rxHops < 31 then some p.rxHops
  else none

/-- A head is in sight. -/
def Device.headSeen (d : Device) : Bool := d.ring.head || d.ring.hops != 0xFF

/-- Hop count and time parent computed again, the east neighbour on a tie (R242); a head in sight ends an election; without any path
the holdover begins (R243). -/
def Device.recountHops (d : Device) : Device :=
  if d.ring.head then d.modRing (fun r => { r with hops := 0, noPathSince := none })
  else
    let pe := d.ring.portOf false
    let pw := d.ring.portOf true
    let pick := match (d.port pe).offer, (d.port pw).offer with
      | some a, some b => if b < a then some (pw, b) else some (pe, a)
      | some a, none => some (pe, a)
      | none, some b => some (pw, b)
      | none, none => none
    match pick with
    | some (p, h) => d.modRing (fun r => { r with
        parent := p, hops := h + 1, noPathSince := none, sfSinceHead := 0, electing := false })
    | none => d.modRing (fun r => { r with
        hops := 0xFF, noPathSince := match r.noPathSince with
          | some t => some t
          | none => if r.onring || r.locked then some d.now else none })

/-! Membership (R229-R234). -/

/-- E_RING_JOIN and E_RING_LEAVE. -/
def Device.joinEvent (d : Device) (node : Nat) (uid : BitVec 64) (stepped : Bool) (epoch : Nat) : Device :=
  d.raise 0x0701 node (fields [(192, uid.toNat), (191, stepped.toNat), (175, epoch)])
def Device.leaveEvent (d : Device) (node : Nat) (uid : BitVec 64) (cause : Nat) : Device :=
  d.raise 0x0702 node (fields [(192, uid.toNat), (184, cause)])

/-- A body naming the two ends of a link and a generation. -/
def linkBody (w e gen : Nat) : Nat := fields [(0, w), (8, e), (16, gen % 65536)]

/-- Chunk k of the membership table (R229): three entries, node 0xFF where unused. -/
def membersBody (l : List Member) (k : Nat) : Nat :=
  k + 256 * Config.pack 128 ((List.range 3).map (fun i => match (l.drop (3 * k + i)).head? with
    | some m => fields [(0, m.uid.toNat), (64, m.node), (72, m.east)]
    | none => 0xFF * 2 ^ 64))

/-- The chain from its west end to its east end. -/
def Ring.chain (r : Ring) : List Member :=
  let start := match r.place r.brkWest with
    | some i => (i + 1) % r.members.length
    | none => 0
  r.members.drop start ++ r.members.take start

/-- The head sends its table, a chain from its west end on: chunks up to one with an unused entry. -/
def Device.sendMembers (d : Device) : Device :=
  let l := if d.ring.closed then d.ring.members else d.ring.chain
  (List.range (l.length / 3 + 1)).foldl (fun d k => d.flood 6 (membersBody l k)) { d with ring := { d.ring with membersAt := d.now + 100 * ms } }

/-- The head sends the calendar (R245). -/
def Device.sendCalendar (d : Device) : Device :=
  match d.fire.cal with
  | none => d
  | some c => (List.range 6).foldl (fun d k => d.flood 7 (k + 256 * fld c (384 * k + 383) (384 * k)))
      { d with ring := { d.ring with calendarAt := d.now + 100 * ms } }

/-- The neighbour of a member in the table: eastward or westward, cyclic. -/
def Ring.beside (r : Ring) (node : Nat) (east : Bool) : Nat :=
  match r.place node with
  | none => node
  | some i =>
    let n := r.members.length
    (((r.members.drop (if east then (i + 1) % n else (i + n - 1) % n)).head?).map (fun m => m.node)).getD node

/-- A member removed from the table: a break at it moves to its neighbour. -/
def Ring.remove (r : Ring) (node : Nat) : Ring :=
  { r with
    members := r.members.filter (fun m => m.node != node)
    brk := r.brk.map (fun b => (if b.1 = node then r.beside node false else b.1, if b.2 = node then r.beside node true else b.2)) }

/-- A member has left (R232): E_RING_LEAVE; its number is held for NODE_HOLD and its subscriptions are suspended. -/
def Device.memberGone (d : Device) (node cause : Nat) : Device :=
  match d.ring.members.find? (fun m => m.node == node) with
  | none => d
  | some m =>
    if node = d.ring.node then d
    else
      let d := d.leaveEvent node m.uid cause
      let d := d.modRing (fun r => { (r.remove node).holdLinks r [node] with
        held := r.held.filter (fun h => h.uid != m.uid) ++ [⟨m.uid, node, d.now + r.nodeHold * second⟩] })
      d.suspendNode node

/-- A member has come (R231): its subscriptions resume where the same UID regains its number (R261). -/
def Device.memberCome (d : Device) (m : Member) (stepped : Bool) (epoch : Nat) : Device :=
  let back := d.ring.held.any (fun h => h.uid == m.uid && h.node == m.node)
  let d := d.modRing (fun r => { r with held := r.held.filter (fun h => h.uid != m.uid) })
  let d : Device := { d with qs := d.qs.forgetSeq (fun n => n == m.node) }
  let d := if m.node = d.ring.node then d else d.joinEvent m.node m.uid stepped epoch
  if back then d.resumeNode m.node else d

/-- A configuration set while a member comes into force, for the next join (R247). -/
def Ring.takeConfig (r : Ring) : Ring :=
  match r.cfgNext with
  | some (cap, req, hold) => { r with headCap := cap, nodeReq := req, nodeHold := hold, cfgNext := none }
  | none => r

/-- This node is no longer a member (R232, R234): its requests come to nothing, its frames return to their queues, and its
subscribers are away. Device time runs on at its last increment (R243). -/
def Device.leaveRing (d : Device) : Device :=
  let away := (d.ring.members.map (fun m => m.node)).filter (· != d.ring.node)
  let held := (d.ring.members.filter (fun m => m.node != d.ring.node)).map
    (fun m => (⟨m.uid, m.node, d.now + d.ring.nodeHold * second⟩ : Held))
  let d := (d.pullBack 0 (fun _ => true)).pullBack 1 (fun _ => true)
  let d := d.ring.reqs.foldl (fun (d : Device) v =>
    (d.complete (.resv v.queue) sBadState Bytes.nil).complete (.sealResv v.queue) sBadState Bytes.nil) d
  let d : Device := { d with qs := d.qs.forgetSeq (fun _ => true) }
  let d := d.modRing (fun r => { r.takeConfig with
    onring := false, granted := false, head := false, closed := false, brk := none, members := [], joinAt := none
    joinDue := false, allowE := 0, allowW := 0, stepFlag := false, hops := 0xFF
    resv := r.resv.filter (fun v => v.node == r.node), reqs := []
    held := r.held.filter (fun h => held.all (fun x => x.uid != h.uid)) ++ held
    noPathSince := match r.noPathSince with
      | some t => some t
      | none => some d.now })
  let d := [0, 1].foldl (fun (d : Device) p => d.modPort p (fun x => if x.link == .member then { x with link := .linked } else x)) d
  (away.foldl (fun d n => d.suspendNode n) d).calHoldCheck

/-- JOIN_REQ sent (R226, R231); it is repeated every 1 s until answered. -/
def Device.sendJoin (d : Device) : Device :=
  (d.flood 1 (fields [(0, Config.uid.toNat), (64, d.ring.nodeReq), (72, d.ring.headCap)])).modRing
    (fun r => { r with joinAt := some (d.now + second) })

/-- Off a ring the increment is 1.000 ns (R25). -/
def Device.freeRun (d : Device) : Device := { d with time := { d.time with inc := 4294967296 } }

/-- Two segments have met and the other head is better (R234): this node leaves with cause MERGE and joins again; its time is not
that of the other segment's head, so it is locked no more. -/
def Device.mergeLeave (d : Device) : Device :=
  let d := (d.leaveEvent d.ring.node Config.uid 2).leaveRing.freeRun
  let d := if d.ring.locked then d.raise 0x0706 0 (fields [(223, Config.signed 32 d.ring.offset)]) else d
  ((d.modRing (fun r => { r with locked := false, inLock := 0, outLock := 0 })).recountHops).sendJoin

/-- Port p's function reaches ON (Table 8-8, step 7); a disable accepted meanwhile stops it. -/
def Device.portOn (d : Device) (p : Nat) (stop : Device → Device) : Device :=
  if (d.port p).fn.st == .starting && (d.port p).link == .member then
    let pend := (d.port p).fn.stopPending
    let d := (d.reachOn (portFn p)).portEvent p
    if pend then stop d else d
  else d

/-! Breaks (R235, R246). -/

/-- What a break between two neighbours leaves this node: the new topology and the members cut off. -/
def Ring.cutAt (r : Ring) (w e : Nat) : Ring × List Nat :=
  if r.closed then ({ r with closed := false, brk := some (w, e) }, [])
  else
    let c := r.chain.map (fun m => m.node)
    match c.findIdx? (· == w) with
    | none => (r, [])
    | some i =>
      if (c.drop (i + 1)).head? != some e then ({ r with brk := r.brk.orElse (fun _ => some (w, e)) }, [])
      else
        let a := c.take (i + 1)
        let b := c.drop (i + 1)
        if a.contains r.node then ({ r with brk := some (w, a.head?.getD w) }, b)
        else ({ r with brk := some (b.getLast?.getD e, e) }, a)

/-- E_RING_WRAP. -/
def Device.wrapEvent (d : Device) (wrap : Bool) (w e : Nat) : Device :=
  (d.raise 0x0703 d.ring.gen.toNat (fields [(255, wrap.toNat), (250, w % 32), (245, e % 32), (213, d.ring.lostFrames % 2 ^ 32)])).modRing
    (fun r => { r with lostFrames := 0 })

/-- This node's protected reservations take the path the break leaves them (R237), as the head reckons it too. -/
def Ring.wrapResv (r : Ring) : Ring :=
  { r with resv := r.resv.map (fun v =>
      if v.node = r.node && v.admitted && v.protect && !r.head then { v with west := r.resvWest v } else v) }

/-- A broken link takes effect at this node (Table 8-9): the paths move; those cut off leave, reported by the head, or by each
node of a part that has lost it. A link one of whose ends has left already breaks no more. -/
def Device.applyBreak (d : Device) (w e : Nat) : Device :=
  if !d.ring.onring || d.ring.brk == some (w, e) || (d.ring.place w).isNone || (d.ring.place e).isNone then d
  else
    let old := d.ring
    let c := d.ring.cutAt w e
    let d := d.modRing (fun _ => c.1.wrapResv.holdLinks old c.2)
    let lost := if d.ring.head || c.2.contains 0 then c.2 else []
    let d := lost.foldl (fun (d : Device) n =>
      let d := d.memberGone n 1
      if d.ring.head then d.flood 3 (fields [(0, n), (8, 1)]) else d) d
    let d := if d.ring.head && !lost.isEmpty then d.sendMembers else d
    let d := d.reroute
    ((d.wrapEvent true w e).readmit old).askAgain

/-- The ends of the link at a port: west, east. -/
def Device.linkEnds (d : Device) (p : Nat) : Nat × Nat :=
  if d.ring.west p then ((d.port p).neighbour, d.ring.node) else (d.ring.node, (d.port p).neighbour)

/-- This node declares the link at a port broken: BREAK goes out of its other port (R235, R246), and its own paths move; with no
other port in the ring none is left to move to. -/
def Device.declareBreak (d : Device) (p : Nat) : Device :=
  if !d.ring.onring then d
  else
    let l := d.linkEnds p
    let d := d.modRing (fun r => { r with gen := r.gen + 1 })
    let d := d.flood 4 (linkBody l.1 l.2 d.ring.gen.toNat)
    if (d.port (1 - p)).link == .member then d.applyBreak l.1 l.2 else d

/-- The stop of a port begins (R246): DRAINING, with BREAK while the link still works, for at most 2 ms. The last member port's
node says first that it leaves in order (R232), so that no break takes it out. -/
def Device.portStop (d : Device) (p : Nat) : Device :=
  let was := (d.port p).link
  let last := d.ring.onring && was == .member && (d.port (1 - p)).link != .member
  let d := if last then d.flood 3 (fields [(0, d.ring.node), (8, 0)]) else d
  let d := d.modPort p (fun x => { x with link := if x.live then .draining else x.link, retryAt := none })
  let d := if was == .member then d.declareBreak p else d
  (d.beginStop (portFn p) (2 * ms)).portEvent p

/-- No port of this node is a member any more: it leaves (R232). -/
def Device.leaveIfAlone (d : Device) : Device :=
  let e := d.port 0
  let w := d.port 1
  if (d.ring.onring && !e.joined && !w.joined) || (d.ring.granted && !e.live && !w.live) then d.leaveRing else d

/-- Credit entries that waited on a port go out by the path left while both ends are members (R264). -/
def Device.regrant (d : Device) (l : List Grant) : Device := l.foldl (fun d g => d.grant g.queue g.node g.cells) d

/-- The link of a port goes down: failed for a cause of R227, or ended by the neighbour's LEAVE. What stood in the port's queues
is discarded (R17, R235) and the port trains again. -/
def Device.linkDown (d : Device) (p : Nat) (cause : Option Nat) : Device :=
  let was := (d.port p).link
  let d := (d.pullBack p (fun _ => true)).modRing (fun r => { r with lostFrames := r.lostFrames + (d.port p).x8.length })
  let d := match cause with
    | some c => d.linkEvent p 0 c
    | none => d
  let kept := (d.port p).grants
  let d := if was == .member && cause.isSome then d.declareBreak p else d
  let d := d.modPort p (fun x => { x with
    link := .training
    signal := false, failed := cause.isSome, neighbour := 0xFF, degraded := false, breakSeen := false
    rxSf := none, rxHops := 0xFF, rxFlags := 0, missed := 0, breaks := 0, delays := [], txTimes := []
    topoOut := [], grants := [], x6 := [], x8 := [], left := 0, tokens := []
    retryAt := if x.fn.st == .starting then some (d.now + second) else none })
  (((d.leaveIfAlone.regrant kept).askAgain).recountHops).calHoldCheck

/-! The control window (Table 8-3). -/

/-- This node's MARKER on port p. -/
def Device.markerFlit (d : Device) (p : Nat) : BitVec 512 :=
  let x := d.port p
  let r := d.ring
  .ofNat 512 (fields [(0, 0x5A3C96E10F87D24B), (64, x.txSf.toNat), (96, Config.uid.toNat),
    (160, if r.granted then r.node else 0xFF), (168, r.hops), (176, r.gen.toNat), (192, d.time.epoch.toNat),
    (208, r.onring.toNat), (209, r.head.toNat), (210, (r.locked || r.head).toNat), (212, x.failed.toNat), (213, x.refused.toNat),
    (216, r.headCap)])

/-- Its TIME flit: T_TX, and the echo of the neighbour's last marker. -/
def Device.timeOut (d : Device) (p : Nat) : BitVec 512 :=
  let x := d.port p
  .ofNat 512 (fields [(0, d.time.ns.toNat), (64, d.time.frac.toNat / 65536), (80, (x.rxSf.getD 0).toNat),
    (112, x.rxAt / 65536 % 2 ^ 64), (176, x.rxAt % 65536), (192, Config.signed 32 x.delay)])

/-- A CREDIT flit of at most seven entries. -/
def creditOut (l : List Grant) : BitVec 512 :=
  .ofNat 512 (fields ((0, l.length) :: l.zipIdx.map (fun g =>
    (64 + 64 * g.2, fields [(50, g.1.queue % 2 ^ 14), (45, g.1.node % 32), (0, g.1.cells % 2 ^ 32)]))))

/-- The control window of the next superframe is sent. -/
def Device.sendWindow (d : Device) (p : Nat) : Device :=
  let x := d.port p
  let w := [d.markerFlit p, d.timeOut p, creditOut (x.grants.take 7), creditOut ((x.grants.drop 7).take 7), x.topoOut.head?.getD 0]
  d.modPort p (fun x => { x with
    window := w, txTimes := ((x.txSf.toNat, d.time16) :: x.txTimes).take 64, txSf := x.txSf + 1
    grants := x.grants.drop 14, topoOut := x.topoOut.drop 1, sent := [] })

end Sys2Proof.Machine
end

