-- ==== Sys2Proof/Machine/Ring.lean ====
section
/-! DEFINITION. The commands of the Waitik Ring but the superframe and the frame: bring-up, markers, messages, time, election and
the ring commands (R213-R247). -/

namespace Sys2Proof.Machine

open Sys2Proof

/-! Bring-up (Table 8-8). -/

/-- A port in use: not OFF. -/
def RPort.active (p : RPort) : Bool := p.fn.st != .off

/-- SIGNAL_DETECT (R226): step 2. -/
def execSignalDetect (dt : Nat) (p : Port) (s : State) : Host.Outcome State Fault Refusal :=
  coreRow dt (fun d => d.modPort (portNo p) (fun x =>
    if x.active && x.link == .training then { x with signal := true } else x)) s

/-- TRAINING_COMPLETE (R226): step 3; markers no longer carry BREAK_SEEN for the failure that led here. -/
def execTrainingComplete (dt : Nat) (p : Port) (s : State) : Host.Outcome State Fault Refusal :=
  coreRow dt (fun d => d.modPort (portNo p) (fun x =>
    if x.active && x.link == .training && x.signal then { x with link := .aligning, failed := false } else x)) s

/-- What a marker says of the neighbour (Table 8-3). -/
def RPort.heard (x : RPort) (f : BitVec 512) (at_ : Nat) : RPort :=
  { x with
    rxSf := some (.ofNat 32 (fld f 95 64)), rxAt := at_, neighUid := .ofNat 64 (fld f 159 96), neighbour := fld f 167 160
    rxHops := fld f 175 168, rxGen := fld f 191 176, rxFlags := fld f 213 208, rxCap := fld f 223 216
    breakSeen := bit f 212 }

/-- The marker's pattern. -/
def markerOk (f : BitVec 512) : Bool := fld f 63 0 == 0x5A3C96E10F87D24B

/-- What this node learns from a neighbour's marker: a head next to it, its hop count; and it asks to join a head in sight. -/
def Device.lookAround (d : Device) (p : Nat) : Device :=
  let x := d.port p
  let d := if nbit x.rxFlags 1 && !d.ring.head && (!d.ring.granted || d.ring.headUid == x.neighUid) then
      d.modRing (fun r => { r with headUid := x.neighUid, best := some (x.rxCap, x.neighUid) }) else d
  let d := (d.recountHops).calHoldCheck
  let d := if d.ring.onring then d else d.modRing (fun r => { r with gen := .ofNat 16 x.rxGen })
  if d.headSeen && !d.ring.granted && d.ring.joinAt.isNone then d.sendJoin else d

/-- ELECT for the best candidate known (R230). -/
def Device.floodElect (d : Device) : Device :=
  match d.ring.best with
  | some (cap, uid) => d.flood 11 (fields [(0, uid.toNat), (64, cap)])
  | none => d

/-- MARKER_LOCK (R226): step 4; the neighbour is known. Where two segments with heads meet, both speak for theirs (R234). -/
def Device.markerLock (d : Device) (p : Nat) (f : BitVec 512) : Device :=
  if (d.port p).link != .aligning || !markerOk f then d
  else
    let d := d.modPort p (fun x => { x.heard f d.time16 with link := .linked, missed := 0, breaks := 0, delays := [] })
    let x := d.port p
    let meets := d.ring.granted && d.headSeen && (nbit x.rxFlags 1 || x.rxHops < 31) &&
      !d.ring.members.any (fun m => m.uid == x.neighUid)
    let d := d.lookAround p
    if meets then d.floodElect else d

def execMarkerLock (dt : Nat) (p : Port) (flit : BitVec 512) (s : State) : Host.Outcome State Fault Refusal :=
  coreRow dt (fun d => d.markerLock (portNo p) flit) s

/-- Device time stepped at a join (R26): the epoch rises, a record is written, and the calendar is computed anew (R103). -/
def Device.stepTime (d : Device) (offset : Int) : Device :=
  let old := d.time.ns
  let x := ((d.time.ns.toNat * 2 ^ 32 + d.time.frac.toNat : Int) + offset * 65536) % 2 ^ 96
  let d : Device := { d with time := { d.time with
    ns := .ofNat 64 (x.toNat / 2 ^ 32), frac := .ofNat 32 x.toNat, epoch := d.time.epoch + 1 } }
  let d : Device := { d with cams := { d.cams with sync := d.cams.sync.map (fun x => { x with since := d.now, lastFree := none }) } }
  let d := d.modFire (fun f => { f with calM := 0, srcAt := if f.trigSrc = 2 then d.now else f.srcAt })
  (d.modRing (fun r => { r with stepped := true })).record 0x0006 0 sevInfo ((w64 old.toNat).app (w64 d.time.ns.toNat))

/-- Offset to the time parent in 1/65,536 ns (R242): T_TX(parent) + d - T_RX(own). -/
def Device.offsetNow (d : Device) (p : Nat) : Int :=
  let x := d.port p
  (x.peerTx : Int) + x.delay - x.rxAt

/-- E_RING_JOIN for this node, once due and its time locked (Table 8-8, step 7). -/
def Device.joinDone (d : Device) : Device :=
  if d.ring.joinDue && (d.ring.head || d.ring.locked) then
    (d.modRing (fun r => { r with joinDue := false })).joinEvent d.ring.node Config.uid d.ring.stepped d.time.epoch.toNat
  else d

/-- Step 7 for both ports. -/
def Device.portsOn (d : Device) : Device :=
  if d.ring.onring && (d.ring.head || d.ring.locked) then
    [0, 1].foldl (fun (d : Device) p => d.portOn p (fun d => d.portStop p)) d.joinDone
  else d

/-- The link at a member port closes the chain (R236): HEAL goes out from both nodes at it and the topology is a RING. -/
def Device.healAt (d : Device) (p : Nat) : Device :=
  let l := d.linkEnds p
  if d.ring.members.length < 2 || d.ring.beside l.1 true != l.2 then d
  else if d.ring.closed then d.flood 5 (linkBody l.1 l.2 d.ring.gen.toNat)
  else if d.ring.brkWest == l.1 then
    let d := d.modRing (fun r => { r with closed := true, brk := none, gen := r.gen + 1 })
    ((d.flood 5 (linkBody l.1 l.2 d.ring.gen.toNat)).wrapEvent false l.1 l.2).sendAllowances
  else d

/-- LINK_DELAY_AVERAGED (R226): step 6. -/
def Device.delayAveraged (d : Device) (p : Nat) : Device :=
  let x := d.port p
  if x.link != .linked || !d.ring.granted || x.delays.length < 256 then d
  else
    let first := !d.ring.onring
    let d := if first && d.ring.stepFlag && !d.ring.locked && !d.ring.head then d.stepTime (d.offsetNow p)
      else if first then d.modRing (fun r => { r with stepped := false }) else d
    let d := d.modRing (fun r => { r with onring := true, joinDue := r.joinDue || first })
    let d := d.modPort p (fun x => { x with link := .member, retryAt := none })
    let d := d.linkEvent p 1 0
    let d := if first then d else d.healAt p
    (d.calHoldCheck).portsOn

def execLinkDelayAveraged (dt : Nat) (p : Port) (s : State) : Host.Outcome State Fault Refusal :=
  coreRow dt (fun d => d.delayAveraged (portNo p)) s

/-! Markers and time. -/

/-- MARKER (R218, R227): three out of sequence, or BREAK_SEEN in two consecutive ones, fail the link; LEAVE ends it. -/
def Device.markerSeen (d : Device) (p : Nat) (f : BitVec 512) : Device :=
  let x := d.port p
  if !x.live then d
  else
    let next := x.rxSf.all (fun n => n.toNat + 1 == fld f 95 64 || (n.toNat == 2 ^ 32 - 1 && fld f 95 64 == 0))
    let good := markerOk f && next
    let missed := if good then 0 else x.missed + 1
    let breaks := if markerOk f && bit f 212 then x.breaks + 1 else 0
    if !markerOk f then
      if missed < 3 then d.modPort p (fun x => { x with missed, breaks }) else d.linkDown p (some 1)
    else
      let d := d.modPort p (fun x => { x.heard f d.time16 with missed, breaks })
      if 3 ≤ missed then d.linkDown p (some 1)
      else if 2 ≤ breaks then d.linkDown p (some 3)
      else if bit f 211 then d.linkDown p none
      else d.lookAround p

def execMarker (dt : Nat) (p : Port) (flit : BitVec 512) (s : State) : Host.Outcome State Fault Refusal :=
  coreRow dt (fun d => d.markerSeen (portNo p) flit) s

/-- Mean of a list of link delays. -/
def meanDelay (l : List Int) : Int := if l.isEmpty then 0 else l.foldl (· + ·) 0 / l.length

/-- TIME_FLIT (R241): one delay measurement from the neighbour's stamps and this node's. -/
def Device.timeFlit (d : Device) (p : Nat) (f : BitVec 512) : Device :=
  let x := d.port p
  if !x.live then d
  else
    let t3 := fld f 63 0 * 65536 + fld f 79 64
    let t2 := fld f 175 112 * 65536 + fld f 191 176
    let d := d.modPort p (fun x => { x with peerTx := t3 })
    match mget (fld f 111 80) x.txTimes with
    | none => d
    | some t1 =>
      let delta : Int := (((x.rxAt : Int) - t1) - ((t3 : Int) - t2)) / 2
      d.modPort p (fun x =>
        let l := (delta :: x.delays).take 256
        { x with delays := l, delay := meanDelay l })

def execTimeFlit (dt : Nat) (p : Port) (flit : BitVec 512) (s : State) : Host.Outcome State Fault Refusal :=
  coreRow dt (fun d => d.timeFlit (portNo p) flit) s

/-- E_RING_TIME. -/
def Device.ringTimeEvent (d : Device) (locked : Bool) (offset : Int) : Device :=
  d.raise 0x0706 0 (fields [(255, locked.toNat), (223, Config.signed 32 offset)])

/-- The increment the servo sets: within 250 ppm of the nominal one (R24, R242). -/
def servoInc (offset integ : Int) : Nat :=
  let t := Config.servoTrim offset integ
  let t := if t < -1073741 then -1073741 else if 1073741 < t then 1073741 else t
  (4294967296 + t).toNat

/-- TIME_SERVO_UPDATE (R242): the offset steers the increment, and the lock state follows it. -/
def Device.servoUpdate (d : Device) : Device :=
  if !d.ring.onring || d.ring.head || d.ring.hops == 0xFF || d.ring.servoSf < 256 then d
  else
    let o := d.offsetNow d.ring.parent
    let inN := if o.natAbs < 65536 then d.ring.inLock + 1 else 0
    let outN := if 131072 < o.natAbs then d.ring.outLock + 1 else 0
    let integ := d.ring.integ + o
    let d := d.modRing (fun r => { r with offset := o, integ, servoSf := 0, inLock := inN, outLock := outN })
    let d : Device := { d with time := { d.time with inc := servoInc o integ } }
    if !d.ring.locked && 64 ≤ inN then ((d.modRing (fun r => { r with locked := true })).ringTimeEvent true o).portsOn
    else if d.ring.locked && 8 ≤ outN then (d.modRing (fun r => { r with locked := false })).ringTimeEvent false o
    else d

def execTimeServoUpdate (dt : Nat) (s : State) : Host.Outcome State Fault Refusal := coreRow dt Device.servoUpdate s

/-- TIME_HOLDOVER_TIMEOUT (R243): 1 s without a path to a head clears TIME_LOCKED. -/
def Device.holdoverEnd (d : Device) : Device :=
  match d.ring.noPathSince with
  | some t =>
    if t + second ≤ d.now && d.ring.locked then
      (d.modRing (fun r => { r with locked := false, inLock := 0 })).ringTimeEvent false d.ring.offset
    else d
  | none => d

def execTimeHoldoverTimeout (dt : Nat) (s : State) : Host.Outcome State Fault Refusal := coreRow dt Device.holdoverEnd s

/-! Messages. -/

/-- A grant that arrives (R264, R265): it completes a reset that waits for it, else it adds to a subscriber's credit on the
arriving port, the one with the least (log entry 59). -/
def Device.takeGrant (d : Device) (p queue cells : Nat) : Device :=
  let mine := d.qs.subs.filter (fun s =>
    s.who < 32 && s.st != .suspended && (d.queue s.queue).deliverQ == queue && (d.queue s.queue).cls == 1 &&
      !(d.queue s.queue).inbound && (d.ring.dirTo s.queue s.who s.west).any (fun w => d.ring.portOf w == p))
  match mine.find? (fun s => s.resetZero) with
  | some s => { d with qs := d.qs.modSub s.queue s.who (fun s =>
      { s with credit := cells, reset := none, resetZero := false, stallSince := none }) }
  | none =>
    let least := (mine.map (fun s => s.credit)).foldl min (2 ^ 32)
    match mine.find? (fun s => s.credit == least) with
    | some s => { d with qs := d.qs.modSub s.queue s.who (fun s => { s with credit := s.credit + cells, stallSince := none }) }
    | none => d

/-- CREDIT_FLIT (R264): entries for this node are taken, others go on toward theirs. -/
def Device.creditFlit (d : Device) (p : Nat) (f : BitVec 512) : Device :=
  if !(d.port p).live then d
  else (List.range (min 7 (fld f 7 0))).foldl (fun (d : Device) i =>
    let e := fld f (64 * i + 127) (64 * i + 64)
    let node := nfld e 49 45
    if node = d.ring.node then d.takeGrant p (nfld e 63 50) (nfld e 31 0)
    else d.grant (nfld e 63 50) node (nfld e 31 0)) d

def execCreditFlit (dt : Nat) (p : Port) (flit : BitVec 512) (s : State) : Host.Outcome State Fault Refusal :=
  coreRow dt (fun d => d.creditFlit (portNo p) flit) s

/-- The number the head grants a UID (R231), never its own, 0; none where the ring is full. -/
def Ring.grantNumber (r : Ring) (uid : BitVec 64) (req : Nat) : Option Nat :=
  let free := fun (n : Nat) => !r.members.any (fun m => m.node == n) && !r.held.any (fun h => h.node == n && h.uid != uid)
  match r.members.find? (fun m => m.uid == uid) with
  | some m => some m.node
  | none =>
    if 32 ≤ r.members.length then none
    else match r.held.find? (fun h => h.uid == uid && h.node != 0 && free h.node) with
    | some h => some h.node
    | none =>
      if 1 ≤ req && req ≤ 31 && free req then some req else ((List.range 31).map (· + 1)).find? free

/-- A new member placed next to the break, on the arm its request came from (log entry 30). -/
def Ring.insert (r : Ring) (m : Member) (east : Bool) : Ring :=
  let w := r.brkWest
  let e := r.beside w true
  let i := (r.place w).getD 0 + 1
  { r with
    members := r.members.take i ++ [m] ++ r.members.drop i
    closed := false, brk := some (if east then (m.node, e) else (w, m.node)) }

/-- JOIN_REQ at the head (R231). -/
def Device.joinReq (d : Device) (p : Nat) (f : BitVec 512) : Device :=
  if !d.ring.head then d
  else
    let uid := BitVec.ofNat 64 (topoBody f 63 0)
    let ack := fun (d : Device) (n : Nat) => d.flood 2 (fields [(0, uid.toNat), (64, n), (72, 1)])
    match d.ring.grantNumber uid (topoBody f 71 64) with
    | none => ack d 0xFE
    | some n =>
      let old := d.ring
      let known := d.ring.members.any (fun m => m.uid == uid)
      let m : Member := ⟨uid, n, (Config.portEast uid).toNat⟩
      let d := ack d n
      if known then d
      else
        let d := d.modRing (fun r => r.insert m (!r.west p))
        (((d.memberCome m false d.time.epoch.toNat).sendMembers).readmit old)

def execJoinReq (dt : Nat) (p : Port) (flit : BitVec 512) (s : State) : Host.Outcome State Fault Refusal :=
  topoRow dt p 1 flit (fun d => d.joinReq (portNo p) flit) s

/-- JOIN_ACK (R226, R231): the number granted, or REFUSED. -/
def Device.joinAck (d : Device) (f : BitVec 512) : Device :=
  if topoBody f 63 0 != Config.uid.toNat || d.ring.head then d
  else
    let n := topoBody f 71 64
    let mark := fun (d : Device) (b : Bool) => [0, 1].foldl (fun (d : Device) p => d.modPort p (fun x => { x with refused := b && x.live })) d
    if n = 0xFE then (mark d true).modRing (fun r => { r with joinAt := some (d.now + second) })
    else if d.ring.granted then d
    else
      let own := d.ring.resv.map (fun v => { v with node := n % 32, admitted := false })
      ((mark d false).modRing (fun r => { r with
        node := n % 32, granted := true, stepFlag := topoBody f 79 72 == 1, joinAt := none, resv := own })).requestAll

def execJoinAck (dt : Nat) (p : Port) (flit : BitVec 512) (s : State) : Host.Outcome State Fault Refusal :=
  topoRow dt p 2 flit (fun d => d.joinAck flit) s

/-- LEAVE (R232): the member is removed and E_RING_LEAVE raised; the head sends its table and allowances. -/
def Device.leaveMsg (d : Device) (f : BitVec 512) : Device :=
  if !d.ring.granted then d
  else
    let old := d.ring
    let d := d.memberGone (topoBody f 7 0) (topoBody f 15 8)
    if d.ring.head then (d.sendMembers).readmit old else d

def execLeave (dt : Nat) (p : Port) (flit : BitVec 512) (s : State) : Host.Outcome State Fault Refusal :=
  topoRow dt p 3 flit (fun d => d.leaveMsg flit) s

/-- The later of two generations. -/
def genMax (a : BitVec 16) (b : Nat) : BitVec 16 := if (b + 65536 - a.toNat) % 65536 < 32768 then .ofNat 16 b else a

/-- The break of a BREAK message at a member. -/
def Device.breakMsg (d : Device) (f : BitVec 512) : Device :=
  if !d.ring.onring then d
  else (d.modRing (fun r => { r with gen := genMax r.gen (topoBody f 31 16) })).applyBreak (topoBody f 7 0) (topoBody f 15 8)

/-- BREAK (R235). -/
def execBreakMsg (dt : Nat) (p : Port) (flit : BitVec 512) (s : State) : Host.Outcome State Fault Refusal :=
  topoRow dt p 4 flit (fun d => d.breakMsg flit) s

/-- HEAL (R236): the topology is a RING again; paths stay, alternatives return. -/
def Device.healMsg (d : Device) (f : BitVec 512) : Device :=
  if !d.ring.onring || d.ring.closed then d
  else
    let d := d.modRing (fun r => { r with closed := true, brk := none, gen := genMax r.gen (topoBody f 31 16) })
    ((d.wrapEvent false (topoBody f 7 0) (topoBody f 15 8)).recountHops).sendAllowances

def execHeal (dt : Nat) (p : Port) (flit : BitVec 512) (s : State) : Host.Outcome State Fault Refusal :=
  topoRow dt p 5 flit (fun d => d.healMsg flit) s

/-- Entries of a MEMBERS chunk up to its first unused one. -/
def chunkMembers (f : BitVec 512) : List Member :=
  ((List.range 3).map (fun i =>
    (⟨.ofNat 64 (topoBody f (8 + 128 * i + 63) (8 + 128 * i)), topoBody f (8 + 128 * i + 71) (8 + 128 * i + 64),
      topoBody f (8 + 128 * i + 79) (8 + 128 * i + 72)⟩ : Member))).takeWhile (fun m => m.node != 0xFF)

/-- Where the chain is broken by a new table: still where it was, where no newcomer stands within, else west of the table's first
entry (log entry 30). -/
def Ring.fixBreak (r : Ring) : Ring :=
  { r with brk := r.brk.filter (fun b => (r.place b.1).isSome && (r.place b.2).isSome && r.beside b.1 true == b.2) }

/-- A whole table from the head (R229, R231, R233): members that came and went are reported, and a new head is taken over. The table
of another head tells a head that two segments have met: it speaks for its own (R234). -/
def Device.tableArrived (d : Device) (t : List Member) : Device :=
  match t.find? (fun m => m.node == 0) with
  | none => d
  | some h =>
    let foreign := d.ring.headUid != h.uid && d.ring.headUid != 0 && d.ring.members.any (fun m => m.uid == d.ring.headUid) &&
      !(d.ring.best.any (fun b => b.2 == h.uid))
    if d.ring.head then (if h.uid != Config.uid then d.floodElect else d)
    else if foreign || !d.ring.granted then d
    else if !t.any (fun m => m.uid == Config.uid) then
      if d.ring.onring then d.mergeLeave else d
    else
      let newHead := d.ring.headUid != h.uid
      let former := ((d.ring.members.find? (fun m => m.uid == h.uid)).map (fun m => m.node)).getD 0xFF
      let known := d.ring.members
      let old := d.ring
      let gone := known.filter (fun m => !t.any (fun x => x.uid == m.uid && x.node == m.node) && m.uid != h.uid)
      let d := gone.foldl (fun (d : Device) m => d.memberGone m.node 1) d
      let ren := fun (n : Nat) => if newHead && n = former then 0 else n
      let d := d.modRing (fun r => { r with
        members := t, headUid := h.uid, brk := r.brk.map (fun (b : Nat × Nat) => (ren b.1, ren b.2)) }.fixBreak)
      let came := t.filter (fun m => !known.any (fun x => x.uid == m.uid) && m.uid != Config.uid)
      let d := if known.isEmpty then came.foldl (fun (d : Device) m => if d.ring.held.any (fun x => x.uid == m.uid && x.node == m.node)
          then (d.modRing (fun r => { r with held := r.held.filter (fun x => x.uid != m.uid) })).resumeNode m.node else d) d
        else came.foldl (fun (d : Device) m => d.memberCome m false d.time.epoch.toNat) d
      let d := if newHead && old.onring then (d.raise 0x0707 former (h.uid.toNat * 2 ^ 192)).requestAll else d
      d

/-- MEMBERS (R229): chunks are gathered until one with an unused entry ends the table. -/
def Device.membersMsg (d : Device) (f : BitVec 512) : Device :=
  let k := topoBody f 7 0
  let l := chunkMembers f
  let had := if k = 0 then [] else d.ring.memberChunks
  if had.length != k then d.modRing (fun r => { r with memberChunks := [] })
  else
    let all := had ++ [(k, l)]
    if l.length = 3 then d.modRing (fun r => { r with memberChunks := all })
    else (d.modRing (fun r => { r with memberChunks := [] })).tableArrived (all.flatMap (fun c => c.2))

def execMembers (dt : Nat) (p : Port) (flit : BitVec 512) (s : State) : Host.Outcome State Fault Refusal :=
  topoRow dt p 6 flit (fun d => d.membersMsg flit) s

/-- CALENDAR (R245): six chunks make a calendar; a new one is installed. -/
def Device.calendarMsg (d : Device) (f : BitVec 512) : Device :=
  let k := topoBody f 7 0
  let had := if k = 0 then [] else d.ring.calChunks
  if d.ring.head || had.length != k || 5 < k then d.modRing (fun r => { r with calChunks := [] })
  else
    let all := had ++ [(k, BitVec.ofNat 384 (topoBody f 391 8))]
    if all.length < 6 then d.modRing (fun r => { r with calChunks := all })
    else
      let c : BitVec 2176 := .ofNat 2176 (Config.pack 384 (all.map (fun x => x.2.toNat)))
      let d := d.modRing (fun r => { r with calChunks := [] })
      if d.fire.cal == some c then d else d.setCalendar c

def execCalendar (dt : Nat) (p : Port) (flit : BitVec 512) (s : State) : Host.Outcome State Fault Refusal :=
  topoRow dt p 7 flit (fun d => d.calendarMsg flit) s

/-- RESV_REQ at the head (R237, R238). -/
def Device.resvReq (d : Device) (f : BitVec 512) : Device :=
  if !d.ring.head then d
  else
    let flags := topoBody f 87 80
    d.decideResv
      { node := fld f 39 32, queue := topoBody f 15 0, mask := .ofNat 32 (topoBody f 47 16), ru := topoBody f 79 48
        protect := nbit flags 0, sealed := nbit flags 1, west := false, admitted := true }

def execResvReq (dt : Nat) (p : Port) (flit : BitVec 512) (s : State) : Host.Outcome State Fault Refusal :=
  topoRow dt p 8 flit (fun d => d.resvReq flit) s

/-- The answer to a reservation, at a node that is not the head. -/
def Device.resvAnsMsg (d : Device) (f : BitVec 512) : Device :=
  if d.ring.head then d else d.resvOutcome (topoBody f 15 0) (topoBody f 23 16) (topoBody f 31 24 == 1)

/-- The allowances the head sends. -/
def Device.allowanceMsg (d : Device) (f : BitVec 512) : Device :=
  if d.ring.head || !d.ring.granted then d
  else d.modRing (fun r => { r with allowE := topoBody f 31 0, allowW := topoBody f 63 32 })

/-- RESV_ANS (R237). -/
def execResvAns (dt : Nat) (p : Port) (flit : BitVec 512) (s : State) : Host.Outcome State Fault Refusal :=
  topoRow dt p 9 flit (fun d => d.resvAnsMsg flit) s

/-- ALLOWANCE (R238). -/
def execAllowance (dt : Nat) (p : Port) (flit : BitVec 512) (s : State) : Host.Outcome State Fault Refusal :=
  topoRow dt p 10 flit (fun d => d.allowanceMsg flit) s

/-! Election (R230, R233, R234). -/

/-- Rank of candidates: higher HEAD_CAP, then lower UID. -/
def better (a b : Nat × BitVec 64) : Bool := b.1 < a.1 || (a.1 == b.1 && a.2.toNat < b.2.toNat)

/-- The best candidate a node without a head knows: itself with HEAD_CAP 1-15, or one it heard of. -/
def Ring.bestKnown (r : Ring) : Option (Nat × BitVec 64) :=
  let own := if r.headCap = 0 then none else some (r.headCap, Config.uid)
  match own, r.best.filter (fun b => b.2 != r.headUid) with
  | some a, some b => if better a b then some a else some b
  | some a, none => some a
  | none, b => b

/-- ELECT (R230): the best known candidate is updated, where the one named is better than any this node knows of; a head, or a member
that knows its own head's rank, gives way to a better head of another segment (R234). -/
def Device.electMsg (d : Device) (f : BitVec 512) : Device :=
  let c : Nat × BitVec 64 := (topoBody f 71 64, .ofNat 64 (topoBody f 63 0))
  let known := if d.headSeen then d.ring.best else d.ring.bestKnown
  let beats := known.all (fun b => better c b)
  if !beats then (if (d.ring.head || d.ring.electing) && d.ring.best != some c then d.floodElect else d)
  else
    let rival := d.ring.granted && d.headSeen && c.2 != d.ring.headUid && (d.ring.head || d.ring.best.any (fun b => b.2 == d.ring.headUid))
    let d := d.modRing (fun r => { r with best := some c, sfSinceElect := 0, electing := r.electing || !d.headSeen })
    if rival then d.mergeLeave else d

def execElect (dt : Nat) (p : Port) (flit : BitVec 512) (s : State) : Host.Outcome State Fault Refusal :=
  topoRow dt p 11 flit (fun d => d.electMsg flit) s

/-- HEAD_LOSS_TIMEOUT (R230): 64 superframes without a head in sight start an election. -/
def Device.headLoss (d : Device) : Device :=
  if d.headSeen || d.ring.sfSinceHead < 64 || d.ring.electing || !((d.port 0).live || (d.port 1).live) then d
  else
    (d.modRing (fun r => { r with electing := true, best := r.bestKnown, sfSinceElect := 0 })).floodElect

def execHeadLossTimeout (dt : Nat) (s : State) : Host.Outcome State Fault Refusal := coreRow dt Device.headLoss s

/-- This node becomes head (R230, R233): node 0, nominal rate, its old number free; the members it reaches stay. -/
def Device.becomeHead (d : Device) : Device :=
  let former := if d.ring.granted then d.ring.node else 0xFF
  let me : Member := ⟨Config.uid, 0, d.ring.eastPort⟩
  let d := if d.ring.granted then d.modRing (fun r =>
      ({ r with brk := if r.closed then none else some (r.brkWest, r.beside r.brkWest true) } : Ring).remove 0)
    else d
  let rest := d.ring.members.filter (fun m => m.node != 0 && m.uid != Config.uid)
  let swap := fun (n : Nat) => if n = former then 0 else n
  let order := match d.ring.members.findIdx? (fun m => m.uid == Config.uid) with
    | some i => ((d.ring.members.drop (i + 1)) ++ (d.ring.members.take i)).filter (fun m => m.node != 0)
    | none => rest
  let d := d.modRing (fun r => { r with
    members := me :: order, brk := r.brk.map (fun b => (swap b.1, swap b.2)), node := 0, head := true, granted := true
    headUid := Config.uid, hops := 0, noPathSince := none, electing := false, sfSinceHead := 0, joinAt := none
    best := some (r.headCap, Config.uid), held := r.held.filter (fun h => h.node != 0 && h.uid != Config.uid)
    resv := (r.resv.filter (fun v => v.node == r.node)).map (fun v => { v with node := 0, admitted := false }) })
  let d : Device := { d with time := { d.time with inc := 4294967296 } }
  let d := d.raise 0x0707 former (Config.uid.toNat * 2 ^ 192)
  ((((d.requestAll).sendMembers).sendAllowances).calHoldCheck).portsOn

/-- ELECT_TIMEOUT (R230): no better ELECT for 64 superframes. -/
def Device.electTimeout (d : Device) : Device :=
  if d.ring.electing && !d.headSeen && 64 ≤ d.ring.sfSinceElect && d.ring.headCap != 0 && d.ring.best == some (d.ring.headCap, Config.uid)
  then d.becomeHead else d

def execElectTimeout (dt : Nat) (s : State) : Host.Outcome State Fault Refusal := coreRow dt Device.electTimeout s

/-- NO_HEAD_REPORT (R230): no candidate at all, once every 10 s. -/
def Device.noHead (d : Device) : Device :=
  if d.headSeen || !d.ring.electing || d.ring.best.isSome || d.now < d.ring.noHeadAt then d
  else (d.modRing (fun r => { r with noHeadAt := d.now + 10 * second })).raise 0x0707 0xFF (2 ^ 191)

def execNoHeadReport (dt : Nat) (s : State) : Host.Outcome State Fault Refusal := coreRow dt Device.noHead s

/-! Timers. -/

/-- Causes of a link failure as E_RING_LINK numbers them (Table 8-12). -/
def linkCauseNo : LinkCause → Nat
  | .signal => 0
  | .markers => 1
  | .codewords => 2
  | .breakSeen => 3

/-- LINK_FAILURE (R227). -/
def execLinkFailure (dt : Nat) (p : Port) (cause : LinkCause) (s : State) : Host.Outcome State Fault Refusal :=
  coreRow dt (fun d => if (d.port (portNo p)).live then d.linkDown (portNo p) (some (linkCauseNo cause)) else d) s

/-- STARTING_RETRY_TIMER (R227): step 1 again every 1 s; a disable accepted meanwhile stops the port instead. -/
def Device.startRetry (d : Device) (p : Nat) : Device :=
  let x := d.port p
  if x.fn.st != .starting || !x.retryAt.any (fun t => decide (t ≤ d.now)) then d
  else if x.fn.stopPending then d.portStop p
  else d.modPort p (fun x =>
    if x.live then { x with retryAt := some (d.now + second) }
    else { x with link := .training, signal := false, retryAt := some (d.now + second) })

def execStartingRetryTimer (dt : Nat) (p : Port) (s : State) : Host.Outcome State Fault Refusal :=
  coreRow dt (fun d => d.startRetry (portNo p)) s

/-- Whether an error ratio is above 10^-k. -/
def ratioAbove (errors symbols k : Nat) : Bool := symbols < errors * 10 ^ k

/-- The ratio's exponent in units of 0.01: hundredths of -log10, rounded down; 0xFFFF without errors. -/
def ratioExponent (errors symbols : Nat) : Nat :=
  if errors = 0 || symbols = 0 then 0xFFFF
  else ((List.range 2000).takeWhile (fun k => decide (errors ^ 100 * 10 ^ k ≤ symbols ^ 100))).length - 1

/-- DEGRADE_WINDOW (R228): set above 10^-SER_DEGRADE, cleared one decade below; the window's corrected symbols and uncorrectable
codewords are counted (R247). -/
def Device.degradeWindow (d : Device) (p errors symbols bad : Nat) : Device :=
  let x := d.port p
  let k := fld x.cfg 11 8
  let d := if x.live then d.modPort p (fun x => { x with
      corrected := x.corrected + errors, uncorrectable := x.uncorrectable + bad, serExp := ratioExponent errors symbols }) else d
  if !x.live then d
  else if !x.degraded && ratioAbove errors symbols k then
    (d.modPort p (fun x => { x with degraded := true })).linkEvent p 2 0
  else if x.degraded && !ratioAbove errors symbols (k + 1) then
    (d.modPort p (fun x => { x with degraded := false })).linkEvent p 3 0
  else d

def execDegradeWindow (dt : Nat) (p : Port) (errors symbols bad : Nat) (s : State) : Host.Outcome State Fault Refusal :=
  coreRow dt (fun d => d.degradeWindow (portNo p) errors symbols bad) s

/-- JOIN_RETRY_TIMER (R231). -/
def Device.joinRetry (d : Device) : Device :=
  if !d.ring.granted && d.headSeen && d.ring.joinAt.any (fun t => decide (t ≤ d.now)) then d.sendJoin else d

def execJoinRetryTimer (dt : Nat) (s : State) : Host.Outcome State Fault Refusal := coreRow dt Device.joinRetry s

/-- NODE_HOLD_EXPIRY (R232, R261): number, reservations and subscriptions are released. -/
def Device.holdExpiry (d : Device) (node : Nat) : Device :=
  if !d.ring.held.any (fun h => h.node == node && decide (h.until_ ≤ d.now)) then d
  else
    let d := d.modRing (fun r => { r with
      held := r.held.filter (fun h => h.node != node)
      resv := if r.head then r.resv.filter (fun v => v.node != node) else r.resv })
    (d.endNode node).sendAllowances

def execNodeHoldExpiry (dt : Nat) (node : Fin 32) (s : State) : Host.Outcome State Fault Refusal :=
  coreRow dt (fun d => d.holdExpiry node.val) s

/-- MEMBERS_REPEAT (R229). -/
def execMembersRepeat (dt : Nat) (s : State) : Host.Outcome State Fault Refusal :=
  coreRow dt (fun d => if d.ring.head && decide (d.ring.membersAt ≤ d.now) then d.sendMembers else d) s

/-- CALENDAR_REPEAT (R245). -/
def execCalendarRepeat (dt : Nat) (s : State) : Host.Outcome State Fault Refusal :=
  coreRow dt (fun d => if d.ring.head && decide (d.ring.calendarAt ≤ d.now) then d.sendCalendar else d) s

/-- RING_PORT_STOP_DONE (R246): with its queues drained, or after 2 ms, the port sends a final marker with LEAVE set and turns off. -/
def Device.portStopDone (d : Device) (p : Nat) : Device :=
  let x := d.port p
  let dry := x.x9.isEmpty && x.x8.isEmpty && x.left == 0
  if x.fn.st != .stopping || !(dry || !x.live || decide (x.fn.stopBy ≤ d.now)) then d
  else
    let d := if x.live then d.sendWindow p else d
    let final := match (d.port p).window with
      | marker :: t => setBit marker 211 true :: t
      | [] => []
    let d := d.pullBack p (fun _ => true)
    let d := d.modPort p (fun y => { ({} : RPort) with
      fn := y.fn, cfg := y.cfg, txSf := y.txSf, window := if x.live then final else []
      corrected := y.corrected, uncorrectable := y.uncorrectable, discarded := y.discarded })
    let was := d.ring.onring
    let d := d.leaveIfAlone
    let d := if was && !d.ring.onring then d.freeRun else d
    (((d.recountHops).calHoldCheck).reachOff (portFn p) (10 * ms)).portEvent p

def execRingPortStopDone (dt : Nat) (p : Port) (s : State) : Host.Outcome State Fault Refusal :=
  coreRow dt (fun d => d.portStopDone (portNo p)) s

/-! Ring commands (Table 8-11). -/

/-- `ring.status.get`: topology (0 CHAIN, 1 RING), generation, node, head UID, hops, parent, offset, locked, epoch, allowances. -/
def cmdRingStatus : Cmd := .query 0x0700 (exactly 0) (fun _ _ => none) (fun d _ =>
  let r := d.ring
  Bytes.cat [words [r.closed.toNat, r.gen.toNat, r.node], w64 r.headUid.toNat, words [r.hops, r.parent], wInt r.offset,
    words [r.locked.toNat, d.time.epoch.toNat, r.allowE, r.allowW]])

/-- RING_STATUS_GET (R247). -/
def execRingStatusGet (dt : Nat) (o : Origin) (s : State) : Host.Outcome State Fault Refusal := wcpRow dt o cmdRingStatus noOpen s

/-- `ring.port.get`. -/
def cmdRingPort : Cmd := .query 0x0701 (exactly 4) (fun _ p => refuse (1 < p.word 0) sBadParam) (fun d p =>
  let x := d.port (p.word 0)
  Bytes.cat [words [x.fn.word d.now (10 * ms), d.portStatus (p.word 0)], wBlock x.cfg,
    words [x.corrected, x.uncorrectable, x.discarded], wInt x.delay])

/-- RING_PORT_GET (R247). -/
def execRingPortGet (dt : Nat) (o : Origin) (s : State) : Host.Outcome State Fault Refusal := wcpRow dt o cmdRingPort noOpen s

/-- `ring.members.get`: count, then UID, node number and port facing east. -/
def cmdRingMembers : Cmd := .query 0x0702 (exactly 0) (fun _ _ => none) (fun d _ =>
  counted (d.ring.members.map (fun m => (w64 m.uid.toNat).app (words [m.node, m.east]))))

/-- RING_MEMBERS_GET (R247). -/
def execRingMembersGet (dt : Nat) (o : Origin) (s : State) : Host.Outcome State Fault Refusal := wcpRow dt o cmdRingMembers noOpen s

/-- `ring.resv.get`: this node's reservations (queue, mask, RU, PROTECT, path, admitted); at the head the sums of every link
direction, east then west. -/
def cmdRingResv : Cmd := .query 0x0703 (exactly 0) (fun _ _ => none) (fun d _ =>
  let r := d.ring
  let own := counted (((r.resv.filter (fun v => v.node == r.node)).mergeSort (fun a b => a.queue ≤ b.queue)).map (fun v =>
    words [v.queue, v.mask.toNat, v.ru, v.protect.toNat, v.west.toNat, v.admitted.toNat]))
  let sums := if r.head then (List.range r.members.length).map (fun i => words [r.load r.resv false i, r.load r.resv true i]) else []
  own.app (counted sums))

/-- RING_RESV_GET (R247). -/
def execRingResvGet (dt : Nat) (o : Origin) (s : State) : Host.Outcome State Fault Refusal := wcpRow dt o cmdRingResv noOpen s

/-- A port configuration block's fields are in range (Table 8-2). -/
def portCfgOk (b : Nat) : Bool :=
  !reservedSet b [(63, 32), (15, 12), (7, 5), (1, 1)] && !outside (nfld b 31 24) 0 40 && !outside (nfld b 23 16) 0 20 &&
    !outside (nfld b 11 8) 3 8

/-- The other port's rate binds a port unless it is OFF and is not to start again (R213, R216; log entry 60). -/
def Device.rateClash (d : Device) (p : Nat) (rate : Bool) : Bool :=
  let y := d.port (1 - p)
  (y.active || y.fn.restart) && bit y.cfg 0 != rate

/-- `ring.port.set`. -/
def cmdRingPortSet : Cmd :=
  { id := 0x0740, form := exactly 12
    state := fun d p => refuse (p.word 0 < 2 && (d.port (p.word 0)).active) sBadState
    content := fun d p =>
      let b := (p.slice 4 8).val
      refuse (1 < p.word 0 || !portCfgOk b || d.rateClash (p.word 0) (nbit b 0)) sBadParam
    run := fun _ p d => (d.mram true (fun d => d.modPort (p.word 0) (fun x => { x with cfg := .ofNat 64 (p.slice 4 8).val })), .no sOk) }

/-- RING_PORT_SET (R216). -/
def execRingPortSet (dt : Nat) (o : Origin) (s : State) : Host.Outcome State Fault Refusal := wcpRow dt o cmdRingPortSet noOpen s

/-- Step 1 of Table 8-8. -/
def Device.portStart (d : Device) (p : Nat) : Device :=
  (d.modPort p (fun x => { x with link := .training, signal := false, failed := false, retryAt := some (d.now + second) })).portEvent p

/-- `ring.port.enable`. -/
def cmdRingPortEnable : Cmd :=
  { id := 0x0741, form := exactly 4
    content := fun d p => refuse (1 < p.word 0 || d.rateClash (p.word 0) (bit (d.port (p.word 0)).cfg 0)) sBadParam
    run := fun _ p d => d.enableFn (portFn (p.word 0)) true (fun d => d.portStart (p.word 0)) }

/-- RING_PORT_ENABLE (R226). -/
def execRingPortEnable (dt : Nat) (o : Origin) (s : State) : Host.Outcome State Fault Refusal := wcpRow dt o cmdRingPortEnable noOpen s

/-- `ring.port.disable`. -/
def cmdRingPortDisable : Cmd :=
  { id := 0x0742, form := exactly 4
    content := fun _ p => refuse (1 < p.word 0) sBadParam
    run := fun _ p d => d.disableFn (portFn (p.word 0)) true (fun d => d.portStop (p.word 0)) }

/-- RING_PORT_DISABLE (R246). -/
def execRingPortDisable (dt : Nat) (o : Origin) (s : State) : Host.Outcome State Fault Refusal := wcpRow dt o cmdRingPortDisable noOpen s

/-- `ring.config.set`: HEAD_CAP, NODE_REQ, NODE_HOLD; a member keeps those in force until it joins again. -/
def cmdRingConfig : Cmd :=
  { id := 0x0743, form := exactly 12
    content := fun _ p => refuse (15 < p.word 0 || !(p.word 1 == 0xFF || (1 ≤ p.word 1 && p.word 1 ≤ 31)) || outside (p.word 2) 1 600) sBadParam
    run := fun _ p d => (d.modRing (fun r =>
      let r := { r with cfgNext := some (p.word 0, p.word 1, p.word 2) }
      if r.granted then r else r.takeConfig), .no sOk) }

/-- RING_CONFIG_SET (R247). -/
def execRingConfigSet (dt : Nat) (o : Origin) (s : State) : Host.Outcome State Fault Refusal := wcpRow dt o cmdRingConfig noOpen s

/-- `ring.resv.set`: queue, destination mask, rate in RU, PROTECT. -/
def cmdRingResvSet : Cmd :=
  { id := 0x0744, form := exactly 16
    state := fun d p => if !d.ring.onring then some (sBadState, Bytes.nil)
      else refuse (d.sec.sealedResv (p.word 0)).isSome sSealed
    content := fun d p => refuse (outside (p.word 0) 16 16383 || !(d.queue (p.word 0)).configured || (d.queue (p.word 0)).inbound ||
      p.word 1 == 0 || p.word 2 == 0 || 1 < p.word 3) sBadParam
    run := fun _ p d =>
      let v : Resv := { node := d.ring.node, queue := p.word 0, mask := .ofNat 32 (p.word 1), ru := p.word 2, protect := p.word 3 == 1
                        sealed := false, west := false, admitted := false }
      (d.requestResv v, .pend (.resv (p.word 0))) }

/-- RING_RESV_SET (R237). -/
def execRingResvSet (dt : Nat) (o : Origin) (s : State) : Host.Outcome State Fault Refusal := wcpRow dt o cmdRingResvSet noOpen s

/-- The reservation of a local queue released (R247). -/
def Device.releaseResv (d : Device) (q : Nat) : Device :=
  match (d.ring.reqs ++ d.ring.resv).find? (fun v => v.node == d.ring.node && v.queue == q) with
  | none => d
  | some v =>
    let d := ((d.modRing (fun r => { r with
      resv := r.resv.filter (fun x => !x.same v), reqs := r.reqs.filter (fun x => x.queue != q) })).unreserve q).complete
      (.resv q) sBadState Bytes.nil
    if d.ring.head then d.sendAllowances else if d.ring.granted then d.flood 8 (resvBody { v with ru := 0 }) else d

/-- `ring.resv.clear`. -/
def cmdRingResvClear : Cmd :=
  { id := 0x0745, form := exactly 4
    state := fun d p => refuse (d.sec.sealedResv (p.word 0)).isSome sSealed
    content := fun _ p => refuse (outside (p.word 0) 16 16383) sBadParam
    run := fun _ p d => (d.releaseResv (p.word 0), .no sOk) }

/-- RING_RESV_CLEAR (R238). -/
def execRingResvClear (dt : Nat) (o : Origin) (s : State) : Host.Outcome State Fault Refusal := wcpRow dt o cmdRingResvClear noOpen s

/-- A queue's path is chosen anew at its next unit (R236); a reserved one is asked for again. -/
def Device.rebalance (d : Device) (q : Nat) : Device :=
  let d : Device := { d with qs := { d.qs with subs := d.qs.subs.map (fun s => if s.queue = q then { s with west := none } else s) } }
  match d.ring.ownResv q with
  | some v => if d.ring.onring then d.requestResv v else d
  | none => d

/-- `ring.route.rebalance`: one queue, or 0xFFFF for all. -/
def cmdRebalance : Cmd :=
  { id := 0x0746, form := exactly 4
    content := fun _ p => refuse (!(p.word 0 == 0xFFFF || p.word 0 < 16384)) sBadParam
    run := fun _ p d =>
      let qs := if p.word 0 = 0xFFFF then ((d.qs.subs.map (fun s => s.queue)) ++ (d.ring.resv.filter (fun v => v.node == d.ring.node)).map
        (fun v => v.queue)).eraseDups else [p.word 0]
      (qs.foldl (fun d q => d.rebalance q) d, .no sOk) }

/-- RING_ROUTE_REBALANCE (R236). -/
def execRingRouteRebalance (dt : Nat) (o : Origin) (s : State) : Host.Outcome State Fault Refusal := wcpRow dt o cmdRebalance noOpen s

/-- `scan.calendar.set` (R102, R245): at the head only; the calendar is installed and sent. -/
def cmdCalendarSet : Cmd :=
  { id := 0x024D, form := exactly 272
    state := fun d _ => refuse (!d.ring.head) sBadState
    content := fun d p =>
      let c : BitVec 2176 := .ofNat 2176 p.val
      let period := fld c 95 64
      refuse (outside period 10000000 1000000000 || fld c 127 96 != 0 || fld c 63 0 < d.time.ns.toNat + 10000000 ||
        (List.range 32).any (fun j => (calEntry c j).1 != 0xFFFFFFFF && period ≤ (calEntry c j).1)) sBadParam
    run := fun _ p d => ((d.setCalendar (.ofNat 2176 p.val)).sendCalendar, .no sOk) }

/-- SCAN_CALENDAR_SET (R102). -/
def execScanCalendarSet (dt : Nat) (o : Origin) (s : State) : Host.Outcome State Fault Refusal := wcpRow dt o cmdCalendarSet noOpen s

end Sys2Proof.Machine
end

