-- ==== Sys2Proof/Machine/Superframe.lean ====
section
/-! DEFINITION. The superframe: the frames a port sends after its control window, in which order (R221, R224, R263, R264), and the
frames it receives (R222). -/

namespace Sys2Proof.Machine

open Sys2Proof

/-! Sending (R224). -/

/-- Pass-through frames that fit: sent, kept, room left, flits running on into the next superframe. -/
def sendThrough : Nat → List Frame → List Frame × List Frame × Nat × Nat
  | room, [] => ([], [], room, 0)
  | room, f :: t =>
    if room = 0 then ([], f :: t, 0, 0)
    else
      let n := flits f.data.len
      if room < n then ([f], t, 0, n - room)
      else
        let r := sendThrough (room - n) t
        (f :: r.1, r.2)

/-- Local sending within one superframe. -/
structure Sending where
  d : Device
  room : Nat
  left : Nat
  tokens : Map Nat
  /-- Bytes in X9. -/
  full : Nat
  /-- Queues, reserved or not, of which no further frame leaves, and of which none enters X9. -/
  blocked : List (Nat × Bool)
  stopped : List (Nat × Bool)
  /-- Newest first. -/
  keep : List TxFrame
  sent : List Frame

/-- Subscribers of a RELIABLE frame without credit for it (R264). -/
def Device.lacking (d : Device) (f : TxFrame) : List Nat :=
  if fld f.frame.hdr 56 55 != 1 then []
  else f.subs.filter (fun w => match d.qs.sub? f.queue w with
    | some s => s.st != .suspended && (s.reset.isSome || decide (s.credit < f.cells))
    | none => false)

/-- A frame leaves: credit is debited, and with a unit's last frame the unit has left toward its subscribers (R260, R264). -/
def Device.frameLeaves (d : Device) (f : TxFrame) : Device :=
  f.subs.foldl (fun (d : Device) w =>
    let d : Device := if fld f.frame.hdr 56 55 = 1 then
        { d with qs := d.qs.modSub f.queue w (fun s => { s with credit := s.credit - f.cells, stallSince := none }) } else d
    if f.last then
      match (d.queue f.queue).units.find? (fun u => u.begun.contains w && !u.gone.contains w) with
      | some u => d.modQ f.queue (fun q => { q with units := q.units.map (fun x =>
          if x.useq = u.useq then { x with gone := x.gone ++ [w] } else x) })
      | none => d
    else d) d

/-- Transmit passes: 0 within reservations, 1 messages of the queue manager, 2 other best-effort frames (R224, R265). -/
def TxFrame.inPass (f : TxFrame) (pass : Nat) : Bool :=
  if pass = 0 then f.rsv else if pass = 1 then !f.rsv && f.queue == 16385 else !f.rsv && f.queue != 16385

/-- One frame in a pass: it leaves, or it waits and its queue with it. A held one enters X9 in its queue's order where room is left
of the 32 KiB; frames that stay in X9 leave room for one of the largest size, which passes through as it leaves (R16, log entry 152). -/
def Sending.step (pass : Nat) (s : Sending) (f : TxFrame) : Sending :=
  let key := if f.rsv then f.queue else 16384
  let id := (f.queue, f.rsv)
  let n := flits f.frame.data.len
  if !f.inPass pass then { s with keep := f :: s.keep }
  else
    let enters := !s.stopped.contains id && decide (s.full + f.size ≤ 32768)
    let may := s.room != 0 && !s.blocked.contains id && decide (256 * n ≤ sget s.tokens key) && (!f.held || enters)
    let lack := if may then s.d.lacking f else []
    if may && lack.isEmpty then
      { s with
        d := s.d.frameLeaves f, room := s.room - n, left := n - s.room, full := if f.held then s.full else s.full - f.size
        tokens := sset s.tokens key (sget s.tokens key - 256 * n), sent := f.frame :: s.sent }
    else
      let stays := enters && decide (s.full + f.size ≤ 28656)
      { s with
        d := lack.foldl (fun (d : Device) w => { d with qs := d.qs.modSub f.queue w (fun x =>
          { x with stallSince := some (x.stallSince.getD d.now) }) }) s.d
        full := if f.held && stays then s.full + f.size else s.full
        keep := { f with held := f.held && !stays } :: s.keep
        blocked := id :: s.blocked, stopped := if (f.held && !stays) || !lack.isEmpty then id :: s.stopped else s.stopped }

/-- A pass over X9 and what is held behind it. -/
def Sending.pass (s : Sending) (l : List TxFrame) (pass : Nat) : Sending :=
  l.foldl (fun s f => s.step pass f) { s with keep := [], blocked := [], stopped := [] }

/-- Rates gathered in a superframe: each reservation its RU, the allowance its own, beside what is left of them, up to a frame of the
largest size (R224, R240, log entry 56). -/
def Device.tokensNow (d : Device) (p : Nat) : Map Nat :=
  let t := (d.port p).tokens
  let add := fun (m : Map Nat) (key ru : Nat) => sset m key (min 16640 (sget t key) + ru)
  let m := (d.ring.resv.filter (fun v => v.node == d.ring.node && v.admitted)).foldl (fun m v => add m v.queue v.ru) []
  add m 16384 (if d.ring.west p then d.ring.allowW else d.ring.allowE)

/-- The 315 frame flits of a superframe: of pass-through frames, and on a member link of local ones (R226). -/
def Device.sendFrames (d : Device) (p : Nat) : Device :=
  let d := d.fillX9 p
  let x := d.port p
  let tokens := d.tokensNow p
  if 315 ≤ x.left then d.modPort p (fun x => { x with left := x.left - 315, tokens })
  else
    let t := sendThrough (315 - x.left) x.x8
    if !x.joined then d.modPort p (fun x => { x with left := t.2.2.2, x8 := t.2.1, tokens, sent := t.1 })
    else
      let s0 : Sending := { d, room := t.2.2.1, left := t.2.2.2, tokens, full := x.inX9, blocked := [], stopped := [], keep := [], sent := [] }
      let s1 := s0.pass x.x9 0
      let s2 := s1.pass s1.keep.reverse 1
      let s3 := s2.pass s2.keep.reverse 2
      let l := s3.keep.reverse
      s3.d.modPort p (fun x => { x with
        left := s3.left, x8 := t.2.1, x9 := l.filter (fun f => !f.held) ++ l.filter (fun f => f.held), tokens := s3.tokens
        sent := t.1 ++ s3.sent.reverse })

/-- Superframes counted: without a head in sight, since the own ELECT, and toward the next servo update. -/
def Ring.tickSf (r : Ring) : Ring :=
  { r with
    sfSinceHead := if r.head || r.hops != 0xFF then 0 else r.sfSinceHead + 1
    sfSinceElect := r.sfSinceElect + 1
    servoSf := if r.onring && !r.head then r.servoSf + 1 else 0 }

/-- One superframe on a port. Markers are sent from ALIGNING on, and with BREAK_SEEN after a failure (R227). -/
def Device.superframe (d : Device) (p : Nat) : Device :=
  let x := d.port p
  if !x.active || !(x.live || x.link == .aligning || (x.link == .training && x.failed)) then d
  else
    let d := if d.ring.head then (d.ring.reqs).foldl (fun d v => d.decideResv v) d else d.askLate
    let counts := x.live && (p == 0 || !(d.port 0).live)
    let d := if counts then d.modRing Ring.tickSf else d
    let d := d.sendWindow p
    if x.live then d.sendFrames p else d

/-- SUPERFRAME (R224). -/
def execSuperframe (dt : Nat) (p : Port) (s : State) : Host.Outcome State Fault Refusal :=
  coreRow dt (fun d => d.superframe (portNo p)) s

/-! Reception (R222). -/

/-- Bytes in X6 of a port (X7 of port W). -/
def RPort.received (x : RPort) : Nat := (x.x6.map (fun f => 16 + f.data.len)).sum

/-- A frame received on a port: discarded, copied toward this node's queue (from step 6 of Table 8-8 on), forwarded or stripped. One
that finds no room in X6 is still with the upstream node, which holds it (Table 1-4, log entry 156). -/
def Device.receiveFrame (d : Device) (p : Nat) (hdr : BitVec 128) (payload : Bytes) (bad : Bool) : Device :=
  if !(d.port p).live then d
  else if bad || hcrc hdr.toNat != fld hdr 15 0 then
    d.modPort p (fun x => { x with discarded := x.discarded + 1 })
  else if (d.ring.granted && fld hdr 81 77 == d.ring.node) || fld hdr 76 72 == 0 then d
  else if d.ring.onring && bit hdr (96 + d.ring.node) && decide (65536 < (d.port p).received + 16 + fld hdr 71 59) then d
  else
    let mine := d.ring.onring && bit hdr (96 + d.ring.node)
    let data := payload.slice 0 (fld hdr 71 59)
    let d := if mine then d.modPort p (fun x => { x with x6 := x.x6 ++ [⟨hdr, data⟩] }) else d
    let h := if d.ring.onring then setBit hdr (96 + d.ring.node) false else hdr
    let h := setFld h 76 72 (fld hdr 76 72 - 1)
    let h := setFld h 15 0 (hcrc h.toNat)
    if fld h 127 96 = 0 || !(d.port (1 - p)).live then d
    else d.modPort (1 - p) (fun x => { x with x8 := x.x8 ++ [⟨h, data⟩] })

/-- RING_FRAME_RECEIVE (R222). -/
def execRingFrameReceive (dt : Nat) (p : Port) (hdr : BitVec 128) (payload : Bytes) (uncorrectable : Bool) (s : State) :
    Host.Outcome State Fault Refusal :=
  coreRow dt (fun d => d.receiveFrame (portNo p) hdr payload uncorrectable) s

end Sys2Proof.Machine
end

