-- ==== Sys2Proof/Machine/Queues.lean ====
section
/-! DEFINITION. The commands of the queue manager and the event and mirror streams (R248-R270, R279). -/

namespace Sys2Proof.Machine

open Sys2Proof

/-! Producers (R255). -/

/-- Whether a bound producer may wait (Table 9-6). -/
def Binder.mayWait : Binder → Bool
  | .points | .hexport | .events | .mirror | .seq _ | .inputs | .impPoints => true
  | .raw | .cam _ | .impIn => false

/-- The stream type a producer writes with the stream header; none where its units have their own (Table 9-6). -/
def Binder.streamType : Binder → Option Nat
  | .points | .impPoints => some 0x01
  | .events => some 0x04
  | .cam _ => some 0x05
  | .seq _ | .inputs => some 0x06
  | .mirror => some 0x07
  | .hexport | .raw | .impIn => none

/-- The producer bound to a queue writes a unit (R255, R267). -/
def Device.cellRequest (d : Device) (n flags recsize records info : Nat) (unit : Bytes) : Device :=
  match (d.queue n).bound with
  | none => d
  | some b =>
    if (d.queue n).inbound || unit.len = 0 then d
    else match b.streamType with
      | none => (d.putUnit n d.ring.node b.mayWait (fun _ => unit)).1
      | some type => (d.putStream n b.mayWait flags type recsize records info unit).1

/-- CELL_REQUEST (R255). -/
def execCellRequest (dt : Nat) (q : Fin 16384) (flags recsize records info : Nat) (unit : Bytes) (s : State) :
    Host.Outcome State Fault Refusal :=
  coreRow dt (fun d => d.cellRequest q.val flags recsize records info unit) s

/-! Inbound frames (R263-R266). -/

/-- The partial unit of a source. -/
def Queue.partial_ (q : Queue) (src : Nat) : Partial :=
  (q.partials.find? (fun p => p.src == src)).getD
    { src, data := Bytes.nil, cells := [], off := 0, descs := [], open_ := false, lastSeq := none, at_ := 0, resetAt := none }

/-- It is written back. -/
def Queue.setPartial (q : Queue) (p : Partial) : Queue :=
  { q with partials := (q.partials.filter (fun x => x.src != p.src)) ++ [p] }

/-- A partial unit closed: it holds nothing any more. -/
def Partial.closed (p : Partial) : Partial := { p with open_ := false, data := Bytes.nil, cells := [], off := 0, descs := [], times := [] }

/-- The partial unit of a source starts where the queue's last unit ended (R252). -/
def Queue.openPartial (q : Queue) (src : Nat) : Queue :=
  { q.setPartial { (q.partial_ src).closed with open_ := true, off := q.startOff, cells := (q.tailNow.map (fun t => t.1)).toList } with
    tail := none }

/-- A discarded partial unit gives the queue's last cell back. -/
def Queue.closePartial (q : Queue) (src : Nat) : Queue :=
  let p := q.partial_ src
  { q.setPartial p.closed with
    tail := if q.tail.isNone && p.off != 0 then p.cells.head?.map (fun c => (c, p.off)) else q.tail }

/-- The partial unit of a source is discarded under a reason; under RX_LOSS a RELIABLE receiver sends RESYNC (R265). -/
def Device.dropPartial (d : Device) (n src reason : Nat) : Device :=
  let q := d.queue n
  let d := d.modQ n (fun q => { q.closePartial src with useq := q.useq + 1 })
  let d := d.countDrop n reason q.useq
  if reason = 4 && q.cls = 1 && (q.partial_ src).resetAt.isNone then d.sendQ1 src 2 n 0 else d

/-- S_BUSY for a command refused at Q0 itself (R18, R266): to its REPLY_Q, its counter echoed. -/
def Device.refuseQ0 (d : Device) (msg : Bytes) : Device :=
  if msg.len < 40 then d
  else
    let h := (msg.slice 8 32).val
    let e : Env := { hdr := h, body := Bytes.nil, path := .spi }
    let s := d.session e.session
    let key := if e.session < 16 && s.isOpen then some (keyBytes s.key) else none
    let r := response key e.id e.session e.counter sBusy 0 d.time.ns.toNat Bytes.nil
    d.reply (msg.bits 28 24) (msg.bits 45 32) r false

/-- Cells for a partial unit of `len` bytes found, dropping older units of a STREAM queue (R255, R266). -/
def Device.growCells (d : Device) (n src len : Nat) : Device × Bool :=
  d.findCells n (fun q => moreCells (q.partial_ src).off len (q.partial_ src).cells.length) (d.queue n).units.length

/-- A command arrives at Q0: in flight, unless 64 are (R45). -/
def Device.arriveQ0 (d : Device) (useq : Nat) : Device :=
  if 64 ≤ d.wcp.inFlight then
    d.modQ 0 (fun q => { q with units := q.units.map (fun u => if u.useq = useq then { u with tooMany := true } else u) })
  else { d with wcp := { d.wcp with inFlight := d.wcp.inFlight + 1 } }

/-- A partial unit is whole: it joins the queue. -/
def Device.completeUnit (d : Device) (n src seq : Nat) : Device :=
  let q := d.queue n
  let p := q.partial_ src
  let first := (seq + 65536 + 1 - p.descs.length) % 65536
  let u : QUnit := { p.unit with useq := q.useq, active := d.qs.activeSubs n, seqBase := some first }
  let d := d.modQ n (fun q => { q.setPartial p.closed with
    units := q.units ++ [u], tail := tailAfter p.off p.data.len p.cells, useq := q.useq + 1 })
  if n = 0 then d.arriveQ0 q.useq else d

/-- One frame of a source appended (R263, R264, R266): a RELIABLE queue grants back at once what packing saved. Whether the frame is the
first since a subscription at its source became active, no message tells: a free value (log entry 155). -/
def Device.appendFrame (d : Device) (n src seq : Nat) (first last : Bool) (data : Bytes) : Device :=
  let q := d.queue n
  let p := q.partial_ src
  let delta := match p.lastSeq with
    | some x => if 16 ≤ n && Config.firstAnew n src seq d.time.ns.toNat then 1 else (seq + 65536 - x) % 65536
    | none => 1
  if delta = 0 || 32768 ≤ delta then d
  else
    let gap := 2 ≤ delta
    let seen := fun (d : Device) => d.modQ n (fun q => q.setPartial { q.partial_ src with lastSeq := some seq, at_ := d.now })
    let d := if (p.open_ && (gap || first)) || (gap && !first) then d.dropPartial n src 4 else d
    let d := seen d
    let p := (d.queue n).partial_ src
    if !first && !p.open_ then d
    else
      let d := if first then d.modQ n (fun q => q.openPartial src) else d
      let all := ((d.queue n).partial_ src).data.app data
      if q.maxUnit < ceilDiv all.len 256 then d.dropPartial n src 2
      else
        let r := d.growCells n src all.len
        if !r.2 then
          let d := r.1.dropPartial n src (if q.cls = 2 then 5 else if q.cls = 1 then 4 else 2)
          if n = 0 then d.refuseQ0 all else d
        else
          let d := r.1
          let had := (d.queue n).partial_ src
          let a := d.qs.allocate had.off all.len had.cells had.descs
          let d := d.modQ n (fun q => q.setPartial { q.partial_ src with
            data := all, cells := a.1, descs := a.2
            times := had.times ++ List.replicate (a.2.length - had.descs.length) d.time.ns.toNat })
          let d := if q.cls = 1 && p.resetAt.isNone then
              d.grant n src (ceilDiv data.len 256 - (a.1.length - had.cells.length)) else d
          if last then d.completeUnit n src seq else d

/-- A received frame taken from X6 or X7: a queue that is not enabled discards it and counts it (R259). -/
def Device.frameAppend (d : Device) (p : Nat) : Device :=
  match (d.port p).x6 with
  | [] => d
  | f :: rest =>
    let d := d.modPort p (fun x => { x with x6 := rest })
    let n := fld f.hdr 95 82
    let src := fld f.hdr 81 77
    let q := d.queue n
    if q.fn.st != .on || !q.inbound || (q.cls = 1 && q.srcNode != src) then
      d.modQ n (fun q => { q with discarded := q.discarded + 1 })
    else d.appendFrame n src (fld f.hdr 53 38) (bit f.hdr 58) (bit f.hdr 57) f.data

/-- INBOUND_FRAME_APPEND (R263). -/
def execInboundFrameAppend (dt : Nat) (p : Port) (s : State) : Host.Outcome State Fault Refusal :=
  coreRow dt (fun d => d.frameAppend (portNo p)) s

/-- PARTIAL_UNIT_TIMEOUT (R263): 10 ms without a frame from the source. -/
def execPartialUnitTimeout (dt : Nat) (q : Fin 16384) (src : Fin 32) (s : State) : Host.Outcome State Fault Refusal :=
  coreRow dt (fun d =>
    let p := (d.queue q.val).partial_ src.val
    if p.open_ && decide (p.at_ + 10 * ms ≤ d.now) then d.dropPartial q.val src.val 4 else d) s

/-! Subscribers. -/

/-- UNIT_DELIVERED (R260): the oldest unit whose last frame has left toward the subscriber; where a producer's request has released it
already (R256), what waited for its end follows. -/
def Device.delivered (d : Device) (n who : Nat) : Device :=
  match (d.queue n).units.find? (fun u => u.active.contains who && u.gone.contains who) with
  | some u => d.taken n who u.useq
  | none => (d.subSettle n who).queueSettle n

def execUnitDelivered (dt : Nat) (q : Fin 16384) (sub : Fin 33) (s : State) : Host.Outcome State Fault Refusal :=
  coreRow dt (fun d => d.delivered q.val sub.val) s

/-- LEASE_EXPIRY (R261). -/
def execLeaseExpiry (dt : Nat) (q : Fin 16384) (sub : Fin 33) (s : State) : Host.Outcome State Fault Refusal :=
  coreRow dt (fun d => match d.qs.sub? q.val sub.val with
    | some x => if x.st != .ending && x.lease.any (fun t => decide (t ≤ d.now)) then d.endSub q.val sub.val 1 else d
    | none => d) s

/-- Q_STOP_TIMEOUT (R258): with nothing left, or 100 ms into STOPPING, the queue reaches OFF. -/
def execQStopTimeout (dt : Nat) (q : Fin 16384) (s : State) : Host.Outcome State Fault Refusal :=
  coreRow dt (fun d =>
    let x := d.queue q.val
    if x.fn.st == .stopping && (x.units.isEmpty || decide (x.fn.stopBy ≤ d.now)) then d.queueOff q.val else d) s

/-! Credit resets (Table 9-5). -/

/-- CREDIT_TMO_EXPIRY (R265). -/
def execCreditTmoExpiry (dt : Nat) (q : Fin 16384) (node : Fin 32) (s : State) : Host.Outcome State Fault Refusal :=
  coreRow dt (fun d => match d.qs.sub? q.val node.val with
    | some x =>
      if x.st != .suspended && (x.reset.isNone || x.resetZero) &&
          x.stallSince.any (fun t => decide (t + (d.queue q.val).creditTmo * ms ≤ d.now)) then d.startReset q.val node.val else d
    | none => d) s

/-- The oldest message of Q1, where its type is the one named: queue, SEQ, source; it is taken. -/
def Device.q1Take (d : Device) (type : Nat) : Option (Nat × Nat × Nat × Device) :=
  match (d.queue 1).units with
  | [] => none
  | u :: _ => if u.data.word 0 = type then some (u.data.word 1, u.data.word 2, u.src, d.take 1 33 u.useq) else none

/-- RESET arrives (steps 2): no more grants to the sender, its partial unit is discarded, its expected SEQ is set. -/
def Device.q1Reset (d : Device) : Device :=
  match d.q1Take 1 with
  | none => d
  | some (n, seq, src, d) =>
    let q := d.queue n
    if !q.inbound || n < 2 || 16384 ≤ n then d
    else
      let d := d.modQ n (fun q => q.setPartial { q.partial_ src with resetAt := some d.now })
      let d := if (q.partial_ src).open_ then d.dropPartial n src 4 else d
      d.modQ n (fun q => q.setPartial { q.partial_ src with lastSeq := some ((seq + 65535) % 65536) })

/-- Q1_RESET (R265). -/
def execQ1Reset (dt : Nat) (s : State) : Host.Outcome State Fault Refusal := coreRow dt Device.q1Reset s

/-- RESYNC arrives: the sender starts a credit reset for the copies it sends to that queue of that node. -/
def Device.q1Resync (d : Device) : Device :=
  match d.q1Take 2 with
  | none => d
  | some (n, _, src, d) =>
    (d.qs.subs.filter (fun s => s.who == src && s.st != .suspended && s.reset.isNone && (d.queue s.queue).cls == 1 &&
      (d.queue s.queue).deliverQ == n)).foldl (fun d s => d.startReset s.queue src) d

/-- Q1_RESYNC (R265). -/
def execQ1Resync (dt : Nat) (s : State) : Host.Outcome State Fault Refusal := coreRow dt Device.q1Resync s

/-- CREDIT_RESET_SENDER_TIMER (step 3): 2 ms after the start the credit is zero. -/
def execCreditResetSenderTimer (dt : Nat) (q : Fin 16384) (node : Fin 32) (s : State) : Host.Outcome State Fault Refusal :=
  coreRow dt (fun d => match d.qs.sub? q.val node.val with
    | some x =>
      if x.reset.any (fun t => decide (t + 2 * ms ≤ d.now)) && !x.resetZero then
        { d with qs := d.qs.modSub q.val node.val (fun y => { y with credit := 0, resetZero := true }) }
      else d
    | none => d) s

/-- CREDIT_RESET_RECEIVER_TIMER (step 4): 2 ms after RESET arrived the receiver grants CAP minus the cells it holds. -/
def execCreditResetReceiverTimer (dt : Nat) (q : Fin 16384) (node : Fin 32) (s : State) : Host.Outcome State Fault Refusal :=
  coreRow dt (fun d =>
    let x := d.queue q.val
    let p := x.partial_ node.val
    if p.resetAt.any (fun t => decide (t + 2 * ms ≤ d.now)) then
      (d.modQ q.val (fun y => y.setPartial { p with resetAt := none })).grant q.val node.val (x.cap - x.held)
    else d) s

/-! Streams. -/

/-- EVENT_UNIT_CLOSE (R269): 1 ms after its first entry. -/
def execEventUnitClose (dt : Nat) (s : State) : Host.Outcome State Fault Refusal :=
  coreRow dt (fun d => if !d.qs.evBuf.isEmpty && decide (d.qs.evSince + ms ≤ d.now) then d.closeEvents else d) s

/-- `stream.events.set`. -/
def cmdEventsSet : Cmd :=
  { id := 0x0846, form := exactly 4
    content := fun d p => refuse (p.word 0 != 0xFFFF && d.bindFails (p.word 0) 0x04 .events) sBadParam
    run := fun _ p d =>
      let d := d.bind .events d.qs.eventQ (p.word 0)
      ({ d with qs := { d.qs with eventQ := p.word 0, evBuf := if p.word 0 = 0xFFFF then [] else d.qs.evBuf } }, .no sOk) }

/-- STREAM_EVENTS_SET (R269). -/
def execStreamEventsSet (dt : Nat) (o : Origin) (s : State) : Host.Outcome State Fault Refusal := wcpRow dt o cmdEventsSet noOpen s

/-- `stream.mirror.set`: records committed from now on are mirrored, the one being written first. -/
def cmdMirrorSet : Cmd :=
  { id := 0x0847, form := exactly 4
    content := fun d p => refuse (p.word 0 != 0xFFFF && d.bindFails (p.word 0) 0x07 .mirror) sBadParam
    run := fun _ p d =>
      let d := d.bind .mirror d.qs.mirrorQ (p.word 0)
      ({ d with qs := { d.qs with mirrorQ := p.word 0, mirrorSeq := d.log.nextSeq - d.log.writing.isSome.toNat } }, .no sOk) }

/-- STREAM_MIRROR_SET (R270). -/
def execStreamMirrorSet (dt : Nat) (o : Origin) (s : State) : Host.Outcome State Fault Refusal := wcpRow dt o cmdMirrorSet noOpen s

/-! Queries. -/

/-- A queue number of 0-16383. -/
def anyQueue (p : Bytes) : Refuse := refuse (16383 < p.word 0) sBadParam

/-- A queue the host configures (R248). -/
def hostQueue (p : Bytes) : Refuse := refuse (outside (p.word 0) 16 16383) sBadParam

/-- `q.status.get`. -/
def cmdQStatus : Cmd := .query 0x0800 (exactly 4) (fun _ p => anyQueue p) (fun d p =>
  let q := d.queue (p.word 0)
  let subs := d.qs.subs.filter (fun s => s.queue == p.word 0 && s.who < 32 && q.cls == 1)
  let credits := counted (((List.range 32).filterMap (fun w => subs.find? (fun s => s.who == w))).map (fun s => w32 s.credit))
  Bytes.cat [w32 (q.fn.word d.now ms), wBlock q.cfg, words ([q.held, q.units.length, q.useq] ++ q.drops.toList ++ [q.unsent, q.discarded]),
    credits])

/-- Q_STATUS_GET (R279). -/
def execQStatusGet (dt : Nat) (o : Origin) (s : State) : Host.Outcome State Fault Refusal := wcpRow dt o cmdQStatus noOpen s

/-- State codes of a subscription. -/
def SubState.code : SubState → Nat
  | .active => 0
  | .suspended => 1
  | .ending => 2

/-- `q.subs.get`: per subscriber its number, state, lease remaining in s, units taken and missed. -/
def cmdQSubs : Cmd := .query 0x0801 (exactly 4) (fun _ p => anyQueue p) (fun d p =>
  let subs := (List.range 33).filterMap (fun w => d.qs.sub? (p.word 0) w)
  counted (subs.map (fun s => words [s.who, s.st.code, (s.lease.map (fun t => ceilDiv (t - d.now) second)).getD 0, s.taken, s.missed])))

/-- Q_SUBS_GET (R279). -/
def execQSubsGet (dt : Nat) (o : Origin) (s : State) : Host.Outcome State Fault Refusal := wcpRow dt o cmdQSubs noOpen s

/-- `q.pool.get`. -/
def cmdQPool : Cmd := .query 0x0802 (exactly 0) (fun _ _ => none) (fun d _ =>
  words [d.qs.sharedFree, d.qs.freeDescs, d.qs.reserved, d.qs.subs.length])

/-- Q_POOL_GET (R279). -/
def execQPoolGet (dt : Nat) (o : Origin) (s : State) : Host.Outcome State Fault Refusal := wcpRow dt o cmdQPool noOpen s

/-! Changes. -/

/-- A queue configuration block is well formed (Table 9-2). -/
def queueCfgOk (b : Nat) : Bool :=
  let cap := nfld b 47 32
  !reservedSet b [(113, 96), (31, 22), (7, 3)] && nfld b 1 0 != 3 && !outside cap 1 4096 && nfld b 63 48 ≤ cap &&
    !outside (nfld b 95 80) 1 cap && !outside (nfld b 79 64) 1 1000 && nfld b 15 8 ≤ 8

/-- `q.config.set`. -/
def cmdQConfig : Cmd :=
  { id := 0x0840, form := exactly 20
    state := fun d p => if outside (p.word 0) 16 16383 then none
      else if (d.queue (p.word 0)).fn.st != .off then some (sBadState, Bytes.nil)
      else refuse (d.sec.sealedResv (p.word 0)).isSome sSealed
    content := fun _ p => refuse (outside (p.word 0) 16 16383 || !queueCfgOk (p.slice 4 16).val) sBadParam
    run := fun _ p d =>
      (d.modQ (p.word 0) (fun q => { q with cfg := .ofNat 128 (p.slice 4 16).val, configured := true }), .no sOk) }

/-- Q_CONFIG_SET (R250). -/
def execQConfigSet (dt : Nat) (o : Origin) (s : State) : Host.Outcome State Fault Refusal := wcpRow dt o cmdQConfig noOpen s

/-- STARTING of a queue: RESERVE is allocated at once and ON follows (R258). -/
def Device.queueStart (d : Device) (n : Nat) : Device := (d.reachOn (qFn n)).queueEvent n

/-- `q.enable`. -/
def cmdQEnable : Cmd :=
  { id := 0x0841, form := exactly 4
    state := fun d p => refuse (!(outside (p.word 0) 16 16383) && !(d.queue (p.word 0)).configured) sBadState
    content := fun _ p => hostQueue p
    resource := fun d p =>
      let q := d.queue (p.word 0)
      refuse (q.fn.st == .off && 28672 < d.qs.reserved + q.reserve) sNoResource
    run := fun _ p d => d.enableFn (qFn (p.word 0)) false (fun d => d.queueStart (p.word 0)) }

/-- Q_ENABLE (R254). -/
def execQEnable (dt : Nat) (o : Origin) (s : State) : Host.Outcome State Fault Refusal := wcpRow dt o cmdQEnable noOpen s

/-- STOPPING of a queue (R258): units being received are discarded under STOP. -/
def Device.queueStop (d : Device) (n : Nat) : Device :=
  let d := ((d.queue n).partials.filter (fun p => p.open_)).foldl (fun d p => d.dropPartial n p.src 6) d
  (d.beginStop (qFn n) (100 * ms)).queueEvent n

/-- `q.disable`. -/
def cmdQDisable : Cmd :=
  { id := 0x0842, form := exactly 4
    content := fun _ p => hostQueue p
    run := fun _ p d => d.disableFn (qFn (p.word 0)) true (fun d => d.queueStop (p.word 0)) }

/-- Q_DISABLE (R258). -/
def execQDisable (dt : Nat) (o : Origin) (s : State) : Host.Outcome State Fault Refusal := wcpRow dt o cmdQDisable noOpen s

/-- `q.subscribe`. -/
def cmdQSubscribe : Cmd :=
  { id := 0x0843, form := exactly 12
    content := fun d p =>
      refuse (outside (p.word 0) 16 16383 || (d.queue (p.word 0)).inbound || 32 < p.word 1 || 3600 < p.word 2) sBadParam
    resource := fun d p => refuse ((d.qs.sub? (p.word 0) (p.word 1)).isNone && 256 ≤ d.qs.subs.length) sNoResource
    run := fun _ p d =>
      let n := p.word 0
      let who := p.word 1
      let lease := if p.word 2 = 0 then none else some (d.now + p.word 2 * second)
      match d.qs.sub? n who with
      | some _ => ({ d with qs := d.qs.modSub n who (fun x =>
          { x with lease, st := if x.st = .ending then .active else x.st }) }, .no sOk)
      | none =>
        let d : Device := { d with qs := { d.qs with subs := d.qs.subs ++ [{ queue := n, who, st := .active, lease }] } }
        ((d.subEvent n who 0 0).resetIfReliable n who, .no sOk) }

/-- Q_SUBSCRIBE (R259). -/
def execQSubscribe (dt : Nat) (o : Origin) (s : State) : Host.Outcome State Fault Refusal := wcpRow dt o cmdQSubscribe noOpen s

/-- `q.unsubscribe`; naming no subscription has no effect. -/
def cmdQUnsubscribe : Cmd :=
  { id := 0x0844, form := exactly 8
    content := fun _ p => refuse (outside (p.word 0) 16 16383 || 32 < p.word 1) sBadParam
    run := fun _ p d => (d.endSub (p.word 0) (p.word 1) 0, .no sOk) }

/-- Q_UNSUBSCRIBE (R261). -/
def execQUnsubscribe (dt : Nat) (o : Origin) (s : State) : Host.Outcome State Fault Refusal := wcpRow dt o cmdQUnsubscribe noOpen s

/-- Whether the host reads a queue (R262). -/
def Device.hostReads (d : Device) (n : Nat) : Bool :=
  if (d.queue n).inbound then !(d.queue n).consumer else (d.qs.sub? n 32).isSome

/-- Units the host missed since its last read; the count starts again. -/
def Device.hostMissed (d : Device) (n : Nat) : Nat × Device :=
  if (d.queue n).inbound then ((d.queue n).hostMissed, d.modQ n (fun q => { q with hostMissed := 0 }))
  else (((d.qs.sub? n 32).map (fun s => s.missedRead)).getD 0, { d with qs := d.qs.modSub n 32 (fun s => { s with missedRead := 0 }) })

/-- Up to 4,048 B of the oldest unit the host has not read (R262). -/
def Device.readQueue (d : Device) (n : Nat) : Device × Bytes :=
  let m := d.hostMissed n
  let d := m.2
  let header := fun (useq off len : Nat) (last : Bool) =>
    Bytes.mk' 16 (fields [(0, useq % 2 ^ 32), (32, off), (64, len), (96, sat 0xFFFF m.1), (112, last.toNat)])
  match (d.queue n).nextFor 32 with
  | none => (d, header 0 0 0 false)
  | some u =>
    let k := min 4048 (u.data.len - u.read)
    let last := u.read + k == u.data.len
    let r := (header u.useq u.read u.data.len last).app (u.data.slice u.read k)
    if last then (d.taken n 32 u.useq, r)
    else (d.modQ n (fun q => { q with units := q.units.map (fun x => if x.useq = u.useq then { x with read := u.read + k } else x) }), r)

/-- `q.read`. -/
def cmdQRead : Cmd :=
  { id := 0x0845, form := exactly 4
    state := fun d p => refuse (p.word 0 < 16384 && !d.hostReads (p.word 0)) sBadState
    content := fun _ p => anyQueue p
    run := fun _ p d =>
      let r := d.readQueue (p.word 0)
      (r.1, .ok r.2) }

/-- Q_READ (R262). -/
def execQRead (dt : Nat) (o : Origin) (s : State) : Host.Outcome State Fault Refusal := wcpRow dt o cmdQRead noOpen s

end Sys2Proof.Machine
end

