-- ==== Sys2Proof/Machine/Camera.lean ====
section
/-! DEFINITION. Camera ingest and camera frame sync (R271-R279). -/

namespace Sys2Proof.Machine

open Sys2Proof

/-- Camera port p. -/
def Device.cam (d : Device) (p : Nat) : CamPort := vget d.cams.ports p {}

/-- A camera port changed. -/
def Device.modCam (d : Device) (p : Nat) (f : CamPort → CamPort) : Device :=
  { d with cams := { d.cams with ports := vmod d.cams.ports p f } }

/-- The function of a camera port. -/
def camFn (p : Nat) : FnId := .cam (Fin.ofNat 4 p)

/-- E_CAM_STATE. -/
def Device.camEvent (d : Device) (p : Nat) : Device := d.raise 0x0805 p ((d.cam p).fn.word d.now (100 * us) * 2 ^ 224)

/-- E_CAM_ERR, at most once per port in 100 ms: one more at a bit position of its payload (Table 9-13). -/
def Device.camErr (d : Device) (p low : Nat) : Device := d.limited 0x0804 p 0 (100 * ms) 0 (2 ^ low) false

/-! Configuration (Table 9-8). -/

/-- Route r of a block: virtual-channel mask and queue. -/
def route (b r : Nat) : Nat × Nat := (nfld b (159 + 32 * r) (144 + 32 * r), nfld b (143 + 32 * r) (130 + 32 * r))

/-- Queues a block's routes name. -/
def routeQueues (b : Nat) : List Nat := (((List.range 4).map (route b)).filter (fun r => r.1 != 0)).map (fun r => r.2)

/-- A port configuration block is acceptable (R251, R272). -/
def Device.camCfgOk (d : Device) (p b : Nat) : Bool :=
  let masks := (List.range 4).map (fun r => (route b r).1)
  let others := ((List.range 4).filter (fun o => o != p && (d.cam o).configured)).flatMap (fun o => routeQueues (d.cam o).cfg.toNat)
  !reservedSet b [(225, 224), (193, 192), (161, 160), (129, 128), (127, 64), (31, 8), (5, 3)] &&
    (List.range 16).all (fun v => (masks.filter (fun m => nbit m v)).length ≤ 1) &&
    (nfld b 2 0 == 1 || nfld b 2 0 == 2 || nfld b 2 0 == 4) && !outside (nfld b 63 48) 80 2500 && !outside (nfld b 47 32) 1 16384 &&
    (routeQueues b).all (fun q => !others.contains q && !d.bindFails q 0x05 (.cam p))

/-- `cam.port.set`. -/
def cmdCamPortSet : Cmd :=
  { id := 0x0848, form := exactly 36
    state := fun d p => refuse (p.word 0 < 4 && (d.cam (p.word 0)).fn.st != .off) sBadState
    content := fun d p => refuse (3 < p.word 0 || !d.camCfgOk (p.word 0) (p.slice 4 32).val) sBadParam
    run := fun _ p d =>
      let n := p.word 0
      let b := (p.slice 4 32).val
      let d := (routeQueues (d.cam n).cfg.toNat).foldl (fun d q => d.bind (.cam n) q 0xFFFF) d
      let d := (routeQueues b).foldl (fun d q => d.bind (.cam n) 0xFFFF q) d
      (d.modCam n (fun c => { c with cfg := .ofNat 256 b, configured := true }), .no sOk) }

/-- CAM_PORT_SET (R272). -/
def execCamPortSet (dt : Nat) (o : Origin) (s : State) : Host.Outcome State Fault Refusal := wcpRow dt o cmdCamPortSet noOpen s

/-! Starting and stopping (R276). -/

/-- STARTING: the receiver is powered. -/
def Device.camStart (d : Device) (p : Nat) : Device :=
  (d.modCam p (fun c => { c with startedAt := d.now, traffic := false, dropRest := 0, incomplete := 0 })).camEvent p

/-- STOPPING: the packet in progress may still complete for 100 us. -/
def Device.camStop (d : Device) (p : Nat) : Device := (d.beginStop (camFn p) (100 * us)).camEvent p

/-- ON is reached; a disable accepted meanwhile stops the port. -/
def Device.camOn (d : Device) (p : Nat) : Device :=
  if (d.cam p).fn.st != .starting then d
  else
    let stop := (d.cam p).fn.stopPending
    let d := (d.reachOn (camFn p)).camEvent p
    if stop then d.camStop p else d

/-- `cam.enable`. -/
def cmdCamEnable : Cmd :=
  { id := 0x0849, form := exactly 4
    state := fun d p => refuse (p.word 0 < 4 && !(d.cam (p.word 0)).configured) sBadState
    content := fun _ p => refuse (3 < p.word 0) sBadParam
    run := fun _ p d => d.enableFn (camFn (p.word 0)) true (fun d => d.camStart (p.word 0)) }

/-- CAM_ENABLE (R276). -/
def execCamEnable (dt : Nat) (o : Origin) (s : State) : Host.Outcome State Fault Refusal := wcpRow dt o cmdCamEnable noOpen s

/-- `cam.disable`. -/
def cmdCamDisable : Cmd :=
  { id := 0x084A, form := exactly 4
    content := fun _ p => refuse (3 < p.word 0) sBadParam
    run := fun _ p d => d.disableFn (camFn (p.word 0)) false (fun d => d.camStop (p.word 0)) }

/-- CAM_DISABLE (R276). -/
def execCamDisable (dt : Nat) (o : Origin) (s : State) : Host.Outcome State Fault Refusal := wcpRow dt o cmdCamDisable noOpen s

/-- CAM_START_TIMEOUT (R276): ON after 1 ms without traffic; once packets have arrived, the first good header ends STARTING. -/
def execCamStartTimeout (dt : Nat) (port : Fin 4) (s : State) : Host.Outcome State Fault Refusal :=
  coreRow dt (fun d => if decide ((d.cam port.val).startedAt + ms ≤ d.now) && !(d.cam port.val).traffic then d.camOn port.val else d) s

/-! Packets (R273-R275). The fields of a packet header are those of CSI-2 on D-PHY: data identifier [7:0] with the virtual
channel's low bits [7:6] and the data type [5:0], word count [23:8], the virtual channel's high bits [31:30] (log entry 63). -/

def csiVc (h : BitVec 32) : Nat := 4 * fld h 31 30 + fld h 7 6
def csiType (h : BitVec 32) : Nat := fld h 5 0
def csiWc (h : BitVec 32) : Nat := fld h 23 8

/-- The queue a virtual channel is routed to. -/
def CamPort.queueOf (c : CamPort) (vc : Nat) : Option Nat :=
  (((List.range 4).map (route c.cfg.toNat)).find? (fun r => nbit r.1 vc)).map (fun r => r.2)

/-- A long packet of a virtual channel is lost: its frame is incomplete, and with DROP_REST the rest of it is discarded. -/
def CamPort.lose (c : CamPort) (vc : Nat) (long : Bool) : CamPort :=
  let c := { c with lost := c.lost + 1 }
  if !long then c
  else { c with incomplete := setBit c.incomplete vc true, dropRest := if bit c.cfg 7 then setBit c.dropRest vc true else c.dropRest }

/-- OFF is reached. -/
def Device.camOff (d : Device) (p : Nat) : Device := (d.reachOff (camFn p) (100 * us)).camEvent p

/-- A packet in progress discarded under a reason on the queue its channel is routed to. -/
def Device.camDrop (d : Device) (p reason : Nat) (h : BitVec 32) : Device :=
  match (d.cam p).queueOf (csiVc h) with
  | none => d.modCam p (fun c => { c with unrouted := c.unrouted + 1 })
  | some q =>
    let useq := (d.queue q).useq
    ((d.modQ q (fun q => { q with useq := q.useq + 1 })).modCam p (fun c => c.lose (csiVc h) (0x10 ≤ csiType h))).countDrop q reason useq

/-- CAM_STOP_TIMEOUT (R276): 100 us into STOPPING the packet in progress is discarded under STOP; the port reaches OFF. -/
def execCamStopTimeout (dt : Nat) (port : Fin 4) (running : Option (BitVec 32)) (s : State) : Host.Outcome State Fault Refusal :=
  coreRow dt (fun d =>
    if (d.cam port.val).fn.st == .stopping && decide ((d.cam port.val).fn.stopBy ≤ d.now) then
      (match running with
        | some h => d.camDrop port.val 6 h
        | none => d).camOff port.val
    else d) s

/-- The unit of a packet (R274). -/
def Device.camUnit (d : Device) (p q : Nat) (pkt : CsiPacket) (long crcErr incomplete : Bool) : Device × Put :=
  let h := pkt.hdr
  let body := if long then ((w32 h.toNat).app (pkt.payload.slice 0 (csiWc h))).app (Bytes.mk' 2 pkt.crc.toNat) else w32 h.toNat
  let info := fields [(30, p), (26, csiVc h), (20, csiType h), (0, csiWc h)]
  let flags := fields [(0, (pkt.ecc == .corrected).toNat), (1, crcErr.toNat), (2, incomplete.toNat)]
  d.putStream q false flags 0x05 0 1 info (body.pad 8)

/-- A packet with a usable header. -/
def Device.packet (d : Device) (p : Nat) (pkt : CsiPacket) : Device :=
  let h := pkt.hdr
  let vc := csiVc h
  let long := 0x10 ≤ csiType h
  let d := if csiType h = 0 then d.modCam p (fun c => { c with
      dropRest := setBit c.dropRest vc false, incomplete := setBit c.incomplete vc false }) else d
  let c := d.cam p
  match c.queueOf vc with
  | none => (d.modCam p (fun c => { c with unrouted := c.unrouted + 1 })).camErr p 128
  | some q =>
    let lose := fun (d : Device) => d.modCam p (fun c => c.lose vc long)
    if pkt.x10Lost then d.camDrop p 3 h
    else if long && bit c.dropRest vc then d.modCam p (fun c => { c with lost := c.lost + 1 })
    else if long && fld c.cfg 47 32 < csiWc h then
      (lose (d.modCam p (fun c => { c with oversize := c.oversize + 1 }))).camErr p 160
    else
      let bad := long && !pkt.crcOk
      let d := if bad then (d.modCam p (fun c => { c with crcErr := c.crcErr + 1 })).camErr p 192 else d
      if bad && bit c.cfg 6 then lose d
      else
        let fe := csiType h == 1
        let r := d.camUnit p q pkt long bad (fe && bit c.incomplete vc)
        let d := if r.2 = .dropped then lose r.1 else r.1
        if fe then d.modCam p (fun c => { c with incomplete := setBit c.incomplete vc false }) else d

/-- A received packet: its header first (R273); the first header without error ends STARTING, and a port in STOPPING reaches OFF
with it (R276). -/
def Device.csi (d : Device) (p : Nat) (pkt : CsiPacket) : Device :=
  if (d.cam p).fn.st == .off then d
  else
    let d := d.modCam p (fun c => { c with packets := c.packets + 1, traffic := true })
    let d := match pkt.ecc with
      | .uncorrectable => (d.modCam p (fun c => { c with badHdr := c.badHdr + 1 })).camErr p 224
      | .corrected => (d.modCam p (fun c => { c with eccCorr := c.eccCorr + 1 })).packet p pkt
      | .ok => (d.camOn p).packet p pkt
    if (d.cam p).fn.st == .stopping then d.camOff p else d

/-- CSI2_PACKET (R274). -/
def execCsi2Packet (dt : Nat) (port : Fin 4) (pkt : CsiPacket) (s : State) : Host.Outcome State Fault Refusal :=
  coreRow dt (fun d => d.csi port.val pkt) s

/-- `cam.status.get`. -/
def cmdCamStatus : Cmd := .query 0x0803 (exactly 4) (fun _ p => refuse (3 < p.word 0) sBadParam) (fun d p =>
  let c := d.cam (p.word 0)
  words [c.fn.word d.now (100 * us), fld c.cfg 2 0, c.packets, c.eccCorr, c.badHdr, c.crcErr, c.oversize, c.unrouted, c.lost,
    (vget d.cams.sync (p.word 0) {}).skip])

/-- CAM_STATUS_GET (R279). -/
def execCamStatusGet (dt : Nat) (o : Origin) (s : State) : Host.Outcome State Fault Refusal := wcpRow dt o cmdCamStatus noOpen s

/-! Frame sync (R277, R278). -/

def syMode (b : BitVec 128) : Nat := fld b 3 2
def syMult (b : BitVec 128) : Nat := fld b 39 32
def syWidth (b : BitVec 128) : Nat := fld b 63 48
def syFree (b : BitVec 128) : Nat := fld b 95 64
def syPhase (b : BitVec 128) : Nat := fld b 127 96

/-- A frame-sync block is well formed (Table 9-9). -/
def syncOk (b : BitVec 128) : Bool :=
  !reservedSet b.toNat [(47, 40), (31, 4), (1, 0)] && !outside (syFree b) 1000000 1000000000 && !outside (syWidth b) 1 1000 &&
    !outside (syMult b) 1 8

/-- `cam.fsync.set`: from the next frame start (log entry 62). -/
def cmdFsyncSet : Cmd :=
  { id := 0x084B, form := exactly 20
    content := fun _ p => refuse (3 < p.word 0 || !syncOk (.ofNat 128 (p.slice 4 16).val)) sBadParam
    run := fun _ p d =>
      ({ d with cams := { d.cams with sync := vmod d.cams.sync (p.word 0) (fun x =>
        { x with next := some (.ofNat 128 (p.slice 4 16).val) }) } }, .no sOk) }

/-- CAM_FSYNC_SET (R277). -/
def execCamFsyncSet (dt : Nat) (o : Origin) (s : State) : Host.Outcome State Fault Refusal := wcpRow dt o cmdFsyncSet noOpen s

/-- Pulse k of the running frame, on the local clock. -/
def Device.framePulse (d : Device) (x : Fsync) : Option Nat :=
  match d.fire.firstSlot with
  | none => none
  | some t => if syMult x.cfg ≤ x.k then none
      else some (t + syPhase x.cfg % (d.fire.period / syMult x.cfg) + x.k * d.fire.period / syMult x.cfg)

/-- The latest free pulse not after now and not given yet: on the device-time grid (with its device time), or from the last frame
pulse (R278). -/
def Device.freePulse (d : Device) (x : Fsync) : Option (Nat × Option Nat) :=
  let period := syFree x.cfg
  match (if syMode x.cfg = 3 then x.lastAt else none) with
  | some t =>
    let latest := t + (d.now - t) / period * period
    if t + period ≤ d.now && decide (x.since ≤ latest) then some (latest, none) else none
  | none =>
    let ns := d.time.ns.toNat
    let late := (ns - syPhase x.cfg) % period
    if ns < syPhase x.cfg || d.now < x.since + late || x.lastFree == some (ns - late) then none else some (d.now - late, some (ns - late))

/-- When pulse 0 of the first frame is to be expected while the controller is STARTING: under INTERNAL, or at the next calendar
instant (R278). Another source's trigger cannot be foreseen. -/
def Device.firstPulse (d : Device) (x : Fsync) : Option Nat :=
  let phase := syPhase x.cfg % (d.fire.period / syMult x.cfg)
  if d.fire.fn.st != .starting then none
  else d.fire.armAt.bind (fun a =>
    let first := max (a + fld d.fire.emitter 127 112 * us) d.budgetReady + 2 * us
    if d.fire.trigSrc = 0 then some (first + phase)
    else if d.fire.trigSrc = 2 then (d.calendarFrom first).map (· + phase)
    else none)

/-- A scheduled pulse, once due and not yet given: frame pulses, or free ones; under FRAME_OR_FREE a free pulse within 1 ms before
pulse 0 is not emitted. -/
def Device.syncPulse (d : Device) (x : Fsync) : Fsync :=
  let give := fun (x : Fsync) (t : Nat) => { x with lastAt := some t, high := some (t + syWidth x.cfg * us) }
  let mode := syMode x.cfg
  let on := d.fire.fn.st == .on
  if mode = 0 then { x with high := none }
  else if mode = 1 || (mode = 3 && on) then
    match d.framePulse x with
    | some t => if t ≤ d.now then give { x with k := x.k + 1 } t else x
    | none => x
  else
    match d.freePulse x with
    | none => x
    | some (t, g) =>
      let near := mode == 3 && (d.firstPulse x).any (fun z => decide (z ≤ t + ms))
      if near then x else give { x with lastFree := g } t

/-- CAM_FSYNC_PULSE (R278). -/
def execCamFsyncPulse (dt : Nat) (out : Fin 4) (s : State) : Host.Outcome State Fault Refusal :=
  coreRow dt (fun d => { d with cams := { d.cams with sync := vmod d.cams.sync out.val (fun x => d.syncPulse x) } }) s

end Sys2Proof.Machine
end

