-- ==== Sys2Proof/Machine/FieldOps.lean ====
section
/-! DEFINITION. The field die's clock, contact with the core side, its messages, the field block's layout (Tables 10-6 to 10-10),
and triggers of sequences (R333, R334): what chapters 10 and 11 share. -/

namespace Sys2Proof.Machine

open Sys2Proof

/-- Field time in ns (R284): the local clock with the field die's offset. -/
def Device.fieldNs (d : Device) : Nat := (((d.now : Int) + d.field.offset) % 2 ^ 64).toNat

/-- Field time as it is stamped on an aspect's switch and an input's edge: to 1 us, rounded down (R27; DESIGN CHOICE, log entry 161). -/
def Device.fieldStamp (d : Device) : Nat := d.fieldNs / us * us

/-- Instant of the next field tick (10 us of field time). -/
def Device.nextTick (d : Device) : Nat := d.now + (10 * us - d.fieldNs % (10 * us))

/-- The core side runs and receives valid frames from the field die (R288). -/
def Device.contact (d : Device) : Bool := d.alive && d.core.fieldOk && d.field.running

/-- A command routed to the field die while there is no contact is answered S_BAD_STATE (DESIGN CHOICE, log entry 66). -/
def needsField (d : Device) (_ : Bytes) : Refuse := refuse (!d.contact) sBadState

/-! Messages of the field die (R314): each is queued for CHAN 0 and reaches the core side with its frame, in order, without loss
(R286); what is queued without contact follows when frames return (R290). -/

/-- A unit lost before its queue: its USEQ passes, the loss is counted (R257). -/
def Device.lostUnit (d : Device) (queue reason : Nat) : Device :=
  let useq := (d.queue queue).useq
  (d.modQ queue (fun q => { q with useq := q.useq + 1 })).countDrop queue reason useq

/-- A unit enters the unusable map and its backup (R366). -/
def Device.addMark (d : Device) (cls idx : Nat) : Device :=
  if d.unusable cls idx then d
  else d.mram true (fun d => { d with bist := d.bist.putMarks (d.bist.marks ++ [{ cls, idx, time := d.time.ns }]) })

/-- The end of a silence the field die detected: the episode's record is written unless the core side wrote it (R288). -/
def Device.tellSilence (d : Device) (source payload : Nat) (time : BitVec 64) (kind sev : Nat) (extra : Bytes) : Device :=
  let d' := if d.core.recorded then d.raiseAt time 0x0906 source payload else d.raiseRecAt time 0x0906 source payload kind sev extra
  { d' with core := { d'.core with recorded := d.core.silentAt.isSome } }

/-- The values whose checks the field die reports, each at its bit of an INTACT message: block, input configuration, their idle copies
and those of the coefficients, the aspect frame, the coefficients of a path. -/
def intactValues : List (Nat × Nat) :=
  [(10, 0), (12, 0), (10, 1), (12, 1), (13, 32), (9, 0)] ++ (List.range 17).map (fun i => (13, i))
def intactUnits (mask : Nat) : List (Nat × Nat) := (intactValues.zipIdx.filter (fun x => nbit mask x.2)).map (fun x => x.1)
def intactMask (u : Nat × Nat) : Nat := 2 ^ intactValues.idxOf u

/-- A message reaches the core side. -/
def Device.tell (d : Device) (m : FieldMsg) : Device :=
  match m with
  | .event id source payload time none => d.raiseAt time id source payload
  | .event id source payload time (some (kind, sev, extra)) =>
    if id = 0x0906 then d.tellSilence source payload time kind sev extra else d.raiseRecAt time id source payload kind sev extra
  | .limited id source sub len payload add => d.limited id source sub len payload add false
  | .integrity cls idx act n => d.integrityN cls idx act n
  | .intact mask => (intactUnits mask).foldl (fun d u => d.intact u.1 u.2) d
  | .lost queue => d.lostUnit queue 3
  | .mark cls idx => d.addMark cls idx

/-- A message as a CHAN 0 payload, in the model's own layout (PRESUMED, log entry 158): kind of message in byte 0, then its parts; of an
event's payload bits [255:128], below which no field event has any. -/
def FieldMsg.enc (m : FieldMsg) : Bytes :=
  match m with
  | .event id source payload time none =>
    .mk' 29 (fields [(0, 1), (8, id), (24, source), (40, time.toNat), (104, payload / 2 ^ 128)])
  | .event id source payload time (some (kind, sev, extra)) =>
    Bytes.app (.mk' 32 (fields [(0, 2), (8, id), (24, source), (40, time.toNat), (104, payload / 2 ^ 128), (232, kind), (248, sev)]))
      (extra.slice 0 24)
  | .limited id source sub len payload add =>
    .mk' 45 (fields [(0, 3), (8, id), (24, source), (40, sub), (56, len), (104, payload / 2 ^ 128), (232, add / 2 ^ 128)])
  | .integrity cls idx act n => .mk' 12 (fields [(0, 4), (8, cls), (24, idx), (40, act), (64, n)])
  | .lost queue => .mk' 4 (fields [(0, 5), (8, queue)])
  | .mark cls idx => .mk' 8 (fields [(0, 6), (8, cls), (24, idx)])
  | .intact mask => .mk' 8 (fields [(0, 7), (8, mask)])

/-- A message of the field die is queued for CHAN 0. -/
def Device.fieldMsg (d : Device) (m : FieldMsg) : Device :=
  d.modField (fun f => { f with msgs := f.msgs ++ [m], end_ := { f.end_ with out := f.end_.out ++ [m.enc] } })

/-- A CHAN 0 payload at the core side: it brings the oldest message not received yet; any other payload means nothing. -/
def Device.deliver (d : Device) (p : Bytes) : Device :=
  match d.field.msgs with
  | [] => d
  | m :: t => if m.enc == p then (d.modField (fun f => { f with msgs := t })).tell m else d

/-- A field event, dated by field time converted to device time (R314). -/
def Device.fieldEvent (d : Device) (id source payload : Nat) : Device :=
  d.fieldMsg (.event id source payload (.ofNat 64 d.fieldNs) none)

/-- A field event with its record. -/
def Device.fieldRec (d : Device) (id source payload kind severity : Nat) (extra : Bytes) : Device :=
  d.fieldMsg (.event id source payload (.ofNat 64 d.fieldNs) (some (kind, severity, extra)))

/-- A rate-limited field event. -/
def Device.fieldLimited (d : Device) (id source sub len payload add : Nat) : Device := d.fieldMsg (.limited id source sub len payload add)

/-- The failures told by a message about a value. -/
def FieldMsg.failures (m : FieldMsg) (cls idx act : Nat) : Option Nat :=
  match m with
  | .integrity c i a n => if c = cls && i = idx && a = act then some n else none
  | _ => none

/-- The last occurrence of an element replaced. -/
def replaceLast {α : Type} [BEq α] (l : List α) (x y : α) : List α := (l.reverse.replace x y).reverse

/-- A failed check at the field die (R352): a message that brings E_INTEGRITY and its record. Where one about that value is still to be
sent, it counts this failure too. -/
def Device.fieldIntegrity (d : Device) (cls idx act : Nat) : Device :=
  let d := d.modField (fun f => { f with bad := f.bad.filter (· != (cls, idx)) ++ [(cls, idx)] })
  match d.field.msgs.reverse.findSome? (fun m => m.failures cls idx act) with
  | none => d.fieldMsg (.integrity cls idx act 1)
  | some n =>
    let m := FieldMsg.integrity cls idx act n
    let m' := FieldMsg.integrity cls idx act (n + 1)
    if d.field.end_.out.contains m.enc then
      d.modField (fun f => { f with msgs := replaceLast f.msgs m m', end_ := { f.end_ with out := replaceLast f.end_.out m.enc m'.enc } })
    else d.fieldMsg (.integrity cls idx act 1)

/-- A value of the field die checked and found consistent: its episode ends, which a message tells where its last check failed (R352). -/
def Device.fieldIntact (d : Device) (cls idx : Nat) : Device :=
  if d.field.bad.contains (cls, idx) then
    (d.modField (fun f => { f with bad := f.bad.filter (· != (cls, idx)) })).fieldMsg (.intact (intactMask (cls, idx)))
  else d

/-- A value of the field die checked. -/
def Device.fieldChecked (d : Device) (ok : Bool) (cls idx : Nat) : Device :=
  if ok then d.fieldIntact cls idx else d.fieldIntegrity cls idx 0

/-! The field block (Table 10-6). -/

/-- `len` bytes of a field block from a byte offset. -/
def blockBits (b : BitVec 11392) (off len : Nat) : Nat := b.toNat / 2 ^ (8 * off) % 2 ^ (8 * len)

/-- Header, output configuration, pattern, safe-state entry and aspect entry (Tables 10-7 to 10-10). -/
def bHdr (b : BitVec 11392) : Nat := blockBits b 0 16
def bOut (b : BitVec 11392) (k : Nat) : Nat := blockBits b (16 + 16 * k) 16
def bPat (b : BitVec 11392) (n : Nat) : Nat := blockBits b (272 + 8 * n) 8
def bSafe (b : BitVec 11392) (k : Nat) : Nat := blockBits b (400 + 2 * k) 2
def bAspect (b : BitVec 11392) (a k : Nat) : Nat := if a = 0 then 0 else blockBits b (432 + 32 * (a - 1) + 2 * k) 2

/-- WDT in ns, SAG_LEVEL in mV, CLEAN_MS in ns, DIAG_EN (Table 10-7). -/
def bWdt (b : BitVec 11392) : Nat := nfld (bHdr b) 111 96 * 10 * us
def bSag (b : BitVec 11392) : Nat := nfld (bHdr b) 95 80 * 100
def bClean (b : BitVec 11392) : Nat := nfld (bHdr b) 79 64 * ms
def bDiag (b : BitVec 11392) (k : Nat) : Bool := nbit (bHdr b) (48 + k)

/-- Fields of an output configuration (Table 10-8). -/
def cWitEn (c : Nat) : Bool := nbit c 123
def cWitSel (c : Nat) : Nat := nfld c 121 120
def cWitLit (c : Nat) : Nat := nfld c 119 112
def cWitDark (c : Nat) : Nat := nfld c 111 104
def cSpare (c : Nat) : Nat := nfld c 103 99
def cAuto (c : Nat) : Bool := nbit c 98
def cGroup (c : Nat) : Nat := nfld c 97 96
def cInrush (c : Nat) : Nat := nfld c 95 88 * ms
def cOffBlank (c : Nat) : Nat := nfld c 87 80 * ms
def cDarkN (c : Nat) : Nat := nfld c 79 76
def cLitMs (c : Nat) : Nat := nfld c 71 64
def cLo (c : Nat) : Nat := nfld c 63 56
def cHi (c : Nat) : Nat := nfld c 55 48
def cInom (c : Nat) : Nat := nfld c 47 32
def cVref (c : Nat) : Nat := nfld c 31 20
def cModel (c : Nat) : Nat := nfld c 19 16
def cPwm (c : Nat) : Nat := nfld c 15 4

/-- Fields of an output entry (Table 10-10). -/
def eMode (e : Nat) : Nat := nfld e 15 13
def ePat (e : Nat) : Nat := nfld e 11 8
def eDuty (e : Nat) : Nat := nfld e 7 0

/-- Fields of a pattern (Table 10-9), in ms. -/
def pPeriod (p : Nat) : Nat := nfld p 59 48
def pLead (p : Nat) : Nat := nfld p 47 36
def pOn1 (p : Nat) : Nat := nfld p 35 24
def pGap (p : Nat) : Nat := nfld p 23 12
def pOn2 (p : Nat) : Nat := nfld p 11 0

/-- The leader of an output's group (R297): itself unless it is a member. -/
def leaderOf (b : BitVec 11392) (k : Nat) : Nat :=
  if cGroup (bOut b k) = 3 then (if cGroup (bOut b (k / 4 * 4)) = 2 then k / 4 * 4 else k / 2 * 2) else k

/-- The outputs that switch together with an output, its leader first (R297). -/
def clanOf (b : BitVec 11392) (k : Nat) : List Nat :=
  let l := leaderOf b k
  if cGroup (bOut b l) = 1 then [l, l + 1] else if cGroup (bOut b l) = 2 then [l, l + 1, l + 2, l + 3] else [l]

/-- Output k of the field die, its configuration (that of its leader) and its group. -/
def Field.out (f : Field) (k : Nat) : Output := vget f.outs k {}
def Field.cfg (f : Field) (k : Nat) : Nat := bOut f.block (leaderOf f.block k)
def Field.clan (f : Field) (k : Nat) : List Nat := clanOf f.block k
def Field.group (f : Field) (g : Nat) : VGroup := vget f.groups g {}

/-- An output, and a group, changed. -/
def Device.modOut (d : Device) (k : Nat) (g : Output → Output) : Device :=
  d.modField (fun f => { f with outs := vmod f.outs k g })
def Device.modGroup (d : Device) (k : Nat) (g : VGroup → VGroup) : Device :=
  d.modField (fun f => { f with groups := vmod f.groups k g })

/-- Voltage of the highest group in mV (R404, R405). -/
def Field.highest (f : Field) : Nat := f.groups.toList.foldl (fun a g => max a g.mv) 0

/-- FIELD_OK, the field die's pin (R291). -/
def Field.okPin (f : Field) : Bool := f.running && !f.blockBad && !f.safe && !f.groups.toList.any (fun g => g.uvOff)

/-! EXC_POL in field time (R342). -/

/-- A half of its period. -/
def Field.excHalf (f : Field) : Nat := f.excP * us / 2

/-- The next multiple of P. -/
def Field.excMultiple (f : Field) (ns : Nat) : Nat := (ns / (f.excP * us) + 1) * (f.excP * us)

/-- Its next edge after a step of field time: the start of the half now running, where the pin does not show it yet, else the end of
that half. -/
def Field.excAlign (f : Field) (ns : Nat) : Field :=
  if f.exc.st == .off then f
  else if f.exc.st == .starting then { f with excNext := f.excMultiple ns }
  else
    let k := ns / f.excHalf
    { f with excNext := if (k % 2 == 0) == f.excPos then (k + 1) * f.excHalf else k * f.excHalf }

/-! Sequences: the header (Table 11-7) and triggers (R333, R334). -/

def sQueue (h : BitVec 128) : Nat := fld h 127 114
def sQen (h : BitVec 128) : Bool := bit h 113
def sDelay (h : BitVec 128) : Nat := fld h 111 96 * us
def sTrig (h : BitVec 128) : Nat := fld h 95 92
def sPwmOut (h : BitVec 128) : Nat := fld h 91 88
def sPwmEdge (h : BitVec 128) : Nat := fld h 87 87
def sOverlap (h : BitVec 128) : Nat := fld h 85 84
def sNent (h : BitVec 128) : Nat := fld h 83 78 + 1
def sHold (h : BitVec 128) : Nat := fld h 71 64 * us
def sMax (h : BitVec 128) : Nat := fld h 63 48 * ms
def sSettle (h : BitVec 128) : Nat := fld h 47 32 * us

/-- Sequence q, and it changed. -/
def Field.seq (f : Field) (q : Nat) : Seq := vget f.seqs q {}
def Device.modSeq (d : Device) (q : Nat) (g : Seq → Seq) : Device :=
  d.modField (fun f => { f with seqs := vmod f.seqs q g })

/-- A trigger is counted: E_TRIG_OVR, at most once per sequence in 10 ms (R334). -/
def Device.seqCount (d : Device) (q : Nat) : Device :=
  (d.modSeq q (fun x => { x with countedAll := x.countedAll + 1 })).fieldLimited 0x0201 (q + 1) 0 (10 * ms)
    (sOverlap (d.field.seq q).hdr * 2 ^ 222) (2 ^ 224)

/-- A PWM edge arrives while TRIG_DELAY of an earlier edge that started a run, or is held for one, still runs (R333). -/
def Seq.edgeBarred (x : Seq) (now : Nat) : Bool := sTrig x.hdr == 4 && x.lastTrig.any (fun t => decide (now < t + sDelay x.hdr))

/-- A trigger of sequence q now, stamped with field time (R333), by its OVERLAP (R334): under SKIP one during a run is counted; under QUEUE1 it
is held, and one held before is replaced and counted; under RESTART it cuts the run, and one during the cut is counted (Table 1-5). -/
def Device.seqTrigger (d : Device) (q : Nat) : Device :=
  let x := d.field.seq q
  if x.fn.st != .on then d
  else if x.edgeBarred d.now then d.seqCount q
  else match x.run with
    | none => d.modSeq q (fun x => { x with lastTrig := some d.now, run := some { trigAt := d.now, stamp := d.fieldStamp } })
    | some r =>
      if sOverlap x.hdr = 0 then d.seqCount q
      else if sOverlap x.hdr = 1 then
        let d := if x.held.isSome then d.seqCount q else d
        d.modSeq q (fun x => { x with lastTrig := some d.now, held := some (d.now, d.fieldStamp) })
      else if r.cut then d.seqCount q
      else d.modSeq q (fun x => { x with lastTrig := some d.now, held := some (d.now, d.fieldStamp), run := some { r with cut := true } })

/-- Every sequence whose header passes a test is triggered. -/
def Device.seqTriggers (d : Device) (p : BitVec 128 → Bool) : Device :=
  (List.range 4).foldl (fun d q => if p (d.field.seq q).hdr then d.seqTrigger q else d) d

/-! Inrush capture (R348). -/

/-- A dark-to-lit transition of an output: a capture armed on it is to start. -/
def Field.captureFrom (f : Field) (k now : Nat) : Field :=
  match f.capture with
  | some c => if c.out == k && c.startAt.isNone then { f with capture := some { c with startAt := some now } } else f
  | none => f

end Sys2Proof.Machine
end

