-- ==== Sys2Proof/Machine/Converters.lean ====
section
/-! DEFINITION. What the converters are and serve: slices and slots, entries and chains, and the slots background conversions take
(R324-R326, R328, R331, R332). -/

namespace Sys2Proof.Machine

open Sys2Proof

/-- Converter c, and it changed. -/
def Field.conv (f : Field) (c : Nat) : Conv := vget f.convs c {}
def Device.modConv (d : Device) (c : Nat) (g : Conv → Conv) : Device := d.modField (fun f => { f with convs := vmod f.convs c g })

/-- A converter has a slice in use. -/
def Conv.usable (c : Conv) : Bool := c.usableA || c.usableB

/-- The converter that takes another's place (R326), and the one that serves it. -/
def partner (c : Nat) : Nat := if c % 2 = 0 then c + 1 else c - 1
def Field.server (f : Field) (c : Nat) : Nat := if (f.conv c).usable then c else partner c
def Field.outOfService (f : Field) (c : Nat) : Bool := !(f.conv c).usable && !(f.conv (partner c)).usable

/-- PAIR is set: ADC0 and ADC1 form one converter (R324). -/
def Field.paired (f : Field) : Bool := bit (f.conv 0).cfg 7
def Conv.policy (c : Conv) : Nat := fld c.cfg 1 0
def Conv.slices (c : Conv) : Nat := c.usableA.toNat + c.usableB.toNat

/-- Slices a converter samples with, and how many its policy would use (Table 11-4, R326). -/
def Field.slices (f : Field) (c : Nat) : Nat × Nat :=
  let x := f.conv (f.server c)
  if f.paired && c = 0 then ((f.conv 0).slices + (f.conv 1).slices, 4)
  else if x.policy = 2 then (min 1 x.slices, 1)
  else (x.slices, 2)

/-- A conversion slot in half ns: each slice gives 4 MS/s. -/
def Field.slot (f : Field) (c : Nat) : Nat := 500 / max 1 (f.slices c).1

/-- Results carry DEGRADED: a single slice where two would serve, LOW_POWER without its slice A, or the partner serves (R326). -/
def Field.degraded (f : Field) (c : Nat) : Bool :=
  let n := f.slices c
  n.1 < n.2 || f.server c != c || ((f.conv c).policy == 2 && !(f.conv c).usableA)

/-! Entries (Table 11-8). -/

def nMux (e : BitVec 64) : Nat := fld e 63 56
def nConv (e : BitVec 64) : Nat := fld e 55 54
def nSim (e : BitVec 64) : Bool := bit e 53
def nDemod (e : BitVec 64) : Bool := bit e 52
def nBlank (e : BitVec 64) : Bool := bit e 51
def nDest (e : BitVec 64) : Nat := fld e 50 49
def nOw (e : BitVec 64) : Bool := bit e 48
def nOwI (e : BitVec 64) : Nat := fld e 47 46
def nRange (e : BitVec 64) : Nat := fld e 45 44
def nShift (e : BitVec 64) : Nat := fld e 43 40
def nSamples (e : BitVec 64) : Nat := fld e 39 32 + 1
def nDelay (e : BitVec 64) : Nat := fld e 31 16 * 100
def nThresh (e : BitVec 64) : Nat := fld e 15 0

/-- Entry i of a sequence. -/
def Seq.entry (x : Seq) (i : Nat) : BitVec 64 := (x.entries.drop i).head?.getD 0

/-- A sequence names a converter. -/
def Seq.uses (x : Seq) (c : Nat) : Bool := x.entries.any (fun e => nConv e == c)

/-! Chains (R332). -/

/-- Members of the chain that starts a list of entries: the first, and those with SIM set that follow it. -/
def chainOf (l : List (Nat × BitVec 64)) : List (Nat × BitVec 64) :=
  match l with
  | [] => []
  | e :: rest => e :: rest.takeWhile (fun p => nSim p.2)

/-- The entries of this half of a run, with their indices. -/
def Seq.half (x : Seq) (neg : Bool) : List (Nat × BitVec 64) :=
  ((List.range x.entries.length).map (fun i => (i, x.entry i))).filter (fun p => !neg || nDemod p.2)

/-- The next chain of a run; empty at the end of its half. -/
def Seq.next (x : Seq) (r : SeqRun) : List (Nat × BitVec 64) := chainOf ((x.half r.neg).drop r.pos)

/-- Converters that serve a chain. -/
def Field.servers (f : Field) (l : List (Nat × BitVec 64)) : List Nat := (l.map (fun p => f.server (nConv p.2))).eraseDups

/-- Entries of the chain in progress. -/
def Seq.chainEntries (x : Seq) (r : SeqRun) : List (Nat × BitVec 64) := ((x.half r.neg).drop r.pos).take r.chain

/-- A chain of a sequence is being sampled on a converter. -/
def Field.converting (f : Field) (q s : Nat) : Bool :=
  let x := f.seq q
  x.run.any (fun r => r.chain != 0 && (f.servers (x.chainEntries r)).contains s)

/-- Conversion slot of a chain in half ns: its members take sample i at one instant, so the slowest sets it; and the samples it takes,
one member after another where one converter serves two of them (R326, R332). -/
def Field.chainSlot (f : Field) (l : List (Nat × BitVec 64)) : Nat := (l.map (fun p => f.slot (nConv p.2))).foldl max 1
def Field.inTurn (f : Field) (l : List (Nat × BitVec 64)) : Bool := decide ((f.servers l).length < l.length)
def Field.chainLen (f : Field) (l : List (Nat × BitVec 64)) : Nat :=
  let ns := l.map (fun p => nSamples p.2)
  if f.inTurn l then ns.sum else ns.foldl max 0

/-- Place of each member's sample 0 among the samples of a chain. -/
def Field.firsts (f : Field) (l : List (Nat × BitVec 64)) : List Nat :=
  (List.range l.length).map (fun i => if f.inTurn l then ((l.take i).map (fun p => nSamples p.2)).sum else 0)

/-! Overranges (R338). -/

/-- A conversion on an input that starts `since` conversions after the overranged one, of another input, carries RECOV. -/
def Conv.recovAt (c : Conv) (mux start since : Nat) : Bool :=
  c.ovAt != 0 && c.ovMux != mux && (decide (start < c.ovAt + 1500) || since == 0)

/-- A converter after conversions of one input, `slot` half ns apart, the last ending at `done`; `ovr` says which were beyond full
scale. -/
def Conv.ran (c : Conv) (mux : Nat) (ovr : List Bool) (slot done : Nat) : Conv :=
  match ovr.reverse.findIdx? id with
  | some i => { c with ovAt := done - i * slot / 2, ovMux := mux, since := i, overrange := true }
  | none => { c with since := sat 2 (c.since + ovr.length), overrange := c.overrange && c.ovMux == mux }

/-- Background conversions from now on the converter that serves c, one after another: each its input and whether it was beyond full
scale (R328). -/
def Device.ranBackground (d : Device) (c : Nat) (l : List (Nat × Bool)) : Device :=
  let slot := d.field.slot c
  let at_ := d.now
  d.modConv (d.field.server c) (fun x =>
    l.zipIdx.foldl (fun x p => x.ran p.1.1 [p.1.2] slot (at_ + (p.2 + 1) * slot / 2)) x)

/-- `n` background conversions of converter c: each takes a slot of the converter that serves it, and the averaged samples of an entry
in progress there are split around them; those of a simultaneous chain are not (R328). -/
def Device.takeSlots (d : Device) (c n : Nat) : Device :=
  let f := d.field
  let t := ceilDiv (n * f.slot c) 2
  d.modField (fun f => { f with seqs := Vector.ofFn (fun q : Fin 4 =>
    let x := f.seq q.val
    if f.converting q.val (f.server c) then
      { x with run := x.run.map (fun r =>
          if r.chain = 1 && r.deferAt.isNone && decide (d.now < r.doneAt) then { r with doneAt := r.doneAt + t } else r) }
    else x) })

end Sys2Proof.Machine
end

