-- ==== Sys2Proof/Machine/Diagnostics.lean ====
section
/-! DEFINITION. What an output shows: its entry's lit phases, lamp models, and the diagnostic cycle's evidence (R298, R299, R304, R305,
R308, R309, R312). -/

namespace Sys2Proof.Machine

open Sys2Proof

/-- The function of an output. -/
def outFn (k : Nat) : FnId := .output (Fin.ofNat 16 k)

/-- The entry as a number. -/
def Output.ent (o : Output) : Nat := o.entry.toNat

/-- The output is commanded lit: MODE ON or PATTERN. -/
def Output.commanded (o : Output) : Bool := eMode o.ent == 1 || eMode o.ent == 2

/-- Time since the lit phase a pattern is in began, `t` ns after its start; none in a dark phase (R299). -/
def patternLit (p t : Nat) : Option Nat :=
  let x := if pPeriod p = 0 then 0 else t % (pPeriod p * ms)
  let a := pLead p * ms
  let b := a + pOn1 p * ms
  let c := b + pGap p * ms
  if a ≤ x ∧ x < b then some (x - a)
  else if c ≤ x ∧ x < c + pOn2 p * ms then some (x - c)
  else none

/-- Lit part of a PWM period, `t` ns after a period began: DUTY / 255 of each period from its start (R298). -/
def pwmLit (hz duty t : Nat) : Bool := duty == 255 || t * hz % second * 255 < duty * second

/-- Lit time of a PWM period is under 60 us (R304). -/
def pwmShort (hz duty : Nat) : Bool := duty != 255 && duty * second < 60 * us * 255 * hz

/-- Since when the present lit phase of an output's entry runs: its start or its pattern's lit phase; none in a dark phase. A
pattern's lit phase begins with a PWM period (DEDUCED, log entry 67). -/
def Field.litPhase (f : Field) (k now : Nat) : Option Nat :=
  let o := f.out k
  if eMode o.ent = 1 then some (now - o.pwmStart)
  else if eMode o.ent = 2 then patternLit (bPat f.block (ePat o.ent)) (now - o.patStart)
  else none

/-- The entry's output is lit now, PWM included. -/
def Field.wantsLit (f : Field) (k now : Nat) : Bool :=
  match f.litPhase k now with
  | some t => pwmLit (cPwm (f.cfg k)) (eDuty (f.out k).ent) t
  | none => false

/-- The output is lit (R304, R308): ON and in a lit phase, the dark parts of its PWM periods included. -/
def Field.isLit (f : Field) (k now : Nat) : Bool := (f.out k).fn.st == .on && (f.litPhase k now).isSome

/-- The output is commanded dark: OFF, or in a dark phase of its pattern (DEDUCED, log entry 71). -/
def Device.commandedDark (d : Device) (k : Nat) : Bool := !(d.field.out k).switch && (d.field.litPhase k d.now).isNone

/-- CROSS holds on the output, with at least one other (R309). -/
def Output.cross (o : Output) : Bool := !o.partners.isEmpty

/-- The switch of an output is on now: a diagnostic pulse or gap of its group inverts it (R308). -/
def Field.switchNow (f : Field) (k : Nat) : Bool :=
  match (f.out (leaderOf f.block k)).diagRun with
  | some r => !r.gap
  | none => (f.out k).switch

/-- An item of evidence: clean ones extend the clean interval, any other ends it. -/
def Output.item (o : Output) (clean : Bool) (now : Nat) : Output :=
  if clean then { o with cleanAt := if o.cleanN = 0 then now else o.cleanAt, cleanN := o.cleanN + 1 } else { o with cleanN := 0 }

/-! Lamp models (Table 10-15): exact comparisons of a current in uA with p percent of I_exp at a group voltage in mV. -/

/-- The two sides of `current : p % of I_exp`; for FILAMENT both are taken to the 20th power, (V / V_REF)^0.55 being 11/20. -/
def modelSides (cfg ua p mv : Nat) : Nat × Nat :=
  let vref := cVref cfg * 100
  let nom := p * cInom cfg * 1000
  if cModel cfg = 2 then ((ua * 100) ^ 20 * vref ^ 11, nom ^ 20 * mv ^ 11)
  else if cModel cfg = 3 then (ua * 100 * vref, nom * mv)
  else (ua * 100, nom)

/-- The current is below, or above, p % of I_exp. -/
def belowPct (cfg ua p mv : Nat) : Bool := let s := modelSides cfg ua p mv; s.1 < s.2
def abovePct (cfg ua p mv : Nat) : Bool := let s := modelSides cfg ua p mv; s.2 < s.1

/-- Near zero (R305): below the greater of 10 mA and 5 % of I_exp. -/
def nearZero (cfg ua mv : Nat) : Bool := ua < 10000 || (cModel cfg != 0 && belowPct cfg ua 5 mv)

/-- Full scale of an output's current sense in uA, and the current a code stands for (Table 11-6). -/
def senseFull (low : Bool) : Nat := if low then 250000 else 8000000
def senseUa (low : Bool) (code : Nat) : Nat := code * senseFull low / 65536

/-- Both converters that supervision could use are out of service (R326). -/
def Field.noSupervision (f : Field) : Bool := f.outOfService 3

/-! The diagnostic cycle (R308, R309). -/

/-- The diagnostic cycle now running: 10 ms of field time each. -/
def Device.diagCycle (d : Device) : Nat := d.fieldNs / (10 * ms)

/-- Evidence of cycle `cyc`, in p's slot, that p and k are wired together: in two consecutive cycles it raises E_CROSS once and sets
CROSS on both. -/
def Device.crossEvidence (d : Device) (p k cyc : Nat) : Device :=
  let prev := mget (max p k) (d.field.out (min p k)).evid
  let known := (mget k (d.field.out p).partners).isSome
  let d := d.modOut (min p k) (fun o => { o with evid := mset (max p k) cyc o.evid })
  let joined := (d.modOut p (fun o => { o with partners := mset k d.now o.partners })).modOut k
    (fun o => { o with partners := mset p d.now o.partners })
  if known then joined
  else if prev.any (fun c => c + 1 == cyc) then joined.fieldEvent 0x0904 p (2 ^ 255 + k * 2 ^ 251)
  else d

/-- The evidence of p's pulse or gap: the outputs that watched it echo it or not; a voltage that followed it did not persist (R307); a
near-zero pulse current sets OPEN_OFF (R308). -/
def Device.diagEvidence (d : Device) (p : Nat) (r : DiagRun) : Device :=
  let x := r.sense
  let cfg := d.field.cfg p
  let open_ := nearZero cfg x.ua x.groupMv
  let d := d.modOut p (fun o =>
    let o := { o with diagRun := none, groupMv := x.groupMv }
    if r.gap then o else ({ o with openOff := open_, ua := x.ua }).item (!open_) d.now)
  let d := d.modField (fun f => { f with outs := Vector.ofFn (fun k : Fin 16 =>
    let o := f.out k.val
    if k.val == p then o else { o with persisted := o.persisted && bit x.before k.val && bit x.during k.val }) })
  r.watch.foldl (fun d k =>
    let echo := if r.gap then bit x.before k && !bit x.during k else !bit x.before k && bit x.during k
    if echo then d.crossEvidence p k ((d.field.out p).diagCyc.getD 0) else d) d

/-- A pulse or gap that has lasted its 50 us ends with its evidence; `cut` ends a running one without (R300). -/
def Device.endDiag (d : Device) (k : Nat) (cut : Bool) : Device :=
  match (d.field.out k).diagRun with
  | none => d
  | some r =>
    if r.at_ + 50 * us ≤ d.now then d.diagEvidence k r
    else if cut then d.modOut k (fun o => { o with diagRun := none, gapAt := if r.gap then d.now else o.gapAt })
    else d

/-- Every output's pulse or gap. -/
def Device.endDiags (d : Device) (cut : Bool) : Device := (List.range 16).foldl (fun d k => d.endDiag k cut) d

end Sys2Proof.Machine
end

