-- ==== Sys2Proof/Machine/Outputs.lean ====
section
/-! DEFINITION. Outputs of the field die: entries, patterns and PWM, switching, fault stops, remaps and clearing (R289, R295-R300,
R306, R312, R313). -/

namespace Sys2Proof.Machine

open Sys2Proof

/-- An output may not be on: LATCHED, waiting for its switch to cool, its group in UV_OFF or before its turn in soft-start. -/
def Field.barred (f : Field) (k : Nat) : Bool :=
  let g := f.group (k / 4)
  let l := leaderOf f.block k
  (f.clan k).any (fun j => (f.out j).latched || (f.out j).overTemp) || g.uvOff || g.soft.any (fun j => decide (j ≤ l % 4))

/-- One switch turned on: a dark-to-lit transition unless it is a PWM period's start after at most 10 ms dark (R304). The transition
holds the high current range; leaving the low one is a range switch (R330). -/
def Device.switchOn (d : Device) (k : Nat) (pwm : Bool) : Device :=
  let o := d.field.out k
  let trans := !pwm || decide (o.offAt + 10 * ms < d.now)
  let d := d.modOut k (fun o => { o with switch := true, rbBefore := o.rb, edgeAt := d.now, litInt := 0, witInt := 0 })
  if trans then
    (d.modOut k (fun o => { o with onAt := d.now, lowRange := false, rangeChg := o.rangeChg || o.lowRange })).modField
      (fun f => f.captureFrom k d.now)
  else d

/-- One switch turned off. -/
def Device.switchOff (d : Device) (k : Nat) : Device :=
  d.modOut k (fun o => { o with switch := false, offAt := d.now, litInt := 0, witInt := 0 })

/-- A switch set. -/
def Device.setSwitch (d : Device) (k : Nat) (on pwm : Bool) : Device :=
  if (d.field.out k).switch == on then d else if on then d.switchOn k pwm else d.switchOff k

/-- A switch set by its entry: a lit or dark edge of PWM periods or pattern phases triggers the sequences on it (R333). -/
def Device.setByEntry (d : Device) (k : Nat) (on pwm : Bool) : Device :=
  let o := d.field.out k
  if o.switch == on then d
  else
    let d := d.setSwitch k on pwm
    if eMode o.ent = 2 || (o.commanded && eDuty o.ent != 255) then
      d.seqTriggers (fun h => sTrig h == 4 && sPwmOut h == k && sPwmEdge h == (!on).toNat)
    else d

/-- The function of one output brought in line with its command (R295): ON at once on a lit command, STOPPING for up to 2 ms on a
dark one or while it is barred; a lit command during STOPPING or the minimum off time sets RESTART_PENDING. -/
def Device.driveFn (d : Device) (k : Nat) : Device :=
  let o := d.field.out k
  let go := o.commanded && !d.field.barred k
  match o.fn.st with
  | .off =>
    if !go then d.modFn (outFn k) (fun f => { f with restart := false })
    else if d.now < o.fn.offUntil then d.modFn (outFn k) (fun f => { f with restart := true })
    else d.reachOn (outFn k)
  | .stopping => d.modFn (outFn k) (fun f => { f with restart := go })
  | _ => if go then d else d.beginStop (outFn k) (2 * ms)

/-- An output's function and switch brought in line with its entry; `pwm` says that only a PWM period starts. -/
def Device.driveOne (d : Device) (k : Nat) (pwm : Bool) : Device :=
  let d := d.driveFn k
  d.setByEntry k ((d.field.out k).fn.st == .on && d.field.wantsLit k d.now) pwm

/-- An output with all that switch with it. -/
def Device.drive (d : Device) (k : Nat) (pwm : Bool) : Device := (d.field.clan k).foldl (fun d j => d.driveOne j pwm) d

/-! Entries (R289, R298, R300, R313). -/

/-- The output a spare serves. -/
def Field.servedBy (f : Field) (k : Nat) : Option Nat :=
  (List.range 16).find? (fun j => bit f.remaps j && cSpare (bOut f.block j) == k)

/-- The entry output k has under a table of entries: that of its leader; OFF for a remapped output, whose spare takes it. -/
def Field.entryOf (f : Field) (src : Nat → Nat) (k : Nat) : Nat :=
  let l := leaderOf f.block k
  if bit f.remaps l then 0
  else match f.servedBy k with
    | some j => src j
    | none => src l

/-- The table in force: the applied aspect, or the safe-state table. -/
def Field.table (f : Field) (safe : Bool) (k : Nat) : Nat := if safe then bSafe f.block k else bAspect f.block f.aspect k

/-- An entry takes effect on one output: an unchanged entry, and a pattern that goes on, continue undisturbed; HOLD keeps the last
commanded state (R289, R300). -/
def Output.take (o : Output) (e source now : Nat) : Output :=
  let o := { o with source }
  if eMode e = 3 || e = o.ent then o
  else if eMode e = 2 && eMode o.ent == 2 && ePat e = ePat o.ent then { o with entry := .ofNat 16 e }
  else { o with entry := .ofNat 16 e, patStart := now, pwmStart := now }

/-- Every output takes its entry at one tick (R300); a diagnostic pulse or gap still running ends, its evidence discarded. -/
def Device.applyAll (d : Device) (safe : Bool) (source : Nat) : Device :=
  let d := (d.endDiags true).modField (fun f => { f with outs := Vector.ofFn (fun k : Fin 16 =>
    (f.out k.val).take (f.entryOf (f.table safe) k.val) source d.now) })
  (List.range 16).foldl (fun d k => d.driveOne k false) d

/-! Output status (Table 10-12). -/

/-- Bits [19:14]: LATCHED, HIGH, CROSS, SHORT_VF, LIT_FAULT, DARK_FAULT. -/
def Output.faultBits (o : Output) : Nat :=
  fields [(5, o.latched.toNat), (4, o.high.toNat), (3, o.cross.toNat), (2, o.shortVf.toNat), (1, o.litFault.toNat), (0, o.darkFault.toNat)]

/-- The lamp is judged lit (R311): while its output is lit unless it is judged dark; while it is dark when it is judged lit. -/
def Output.judgedLit (o : Output) (lit : Bool) : Bool :=
  if lit then !o.darkFault || (o.shortVf && o.shortOn) else o.litFault || o.shortVf

/-- The output status word; PARTNER is the first of several outputs CROSS holds with (DESIGN CHOICE, log entry 159). -/
def Field.statusWord (f : Field) (k now : Nat) : Nat :=
  let o := f.out k
  let g := f.group (k / 4)
  let serving := (f.servedBy k).isSome
  let remapped := bit f.remaps k
  let partner := if o.cross then (o.partners.head?.map (fun p => p.1)).getD 0 else if remapped then cSpare (bOut f.block k) else (f.servedBy k).getD 0
  let soft := g.soft.any (fun j => decide (j ≤ leaderOf f.block k % 4)) && o.commanded
  fields [(31, remapped.toNat), (30, serving.toNat), (26, partner % 16), (25, o.disagree.toNat), (24, o.openOff.toNat),
    (23, (o.commanded && pwmShort (cPwm (f.cfg k)) (eDuty o.ent)).toNat), (22, o.witUnavail.toNat),
    (21, g.sagHold.toNat), (20, (g.uvOff || soft).toNat), (14, o.faultBits), (11, o.darkCause), (10, (o.judgedLit (f.isLit k now)).toNat), (9, (f.switchNow k).toNat), (8, o.commanded.toNat), (6, o.source)]

/-! Remaps (R313). -/

/-- An output may be remapped: its spare is declared, its role is not yet moved, and the spare serves no other. -/
def Field.canRemap (f : Field) (k : Nat) : Bool :=
  let sp := cSpare (bOut f.block k)
  sp < 16 && !bit f.remaps k && (f.servedBy sp).isNone

/-- A spare with SPARE_AUTO takes over at the next tick once its output is DARK, SHORT_VF or LATCHED. -/
def Device.autoRemap (d : Device) (k : Nat) : Device :=
  let o := d.field.out k
  if (o.darkFault || o.shortVf || o.latched) && cAuto (bOut d.field.block k) && d.field.canRemap k &&
      !d.field.remapDue.any (fun r => r.out == k) then
    d.modField (fun f => { f with remapDue := f.remapDue ++ [{ out := k, set := true, auto := true, at_ := d.now }] })
  else d

/-- A remap or its withdrawal takes effect at a tick: roles move, E_REMAP is raised; a remap leaves a record. -/
def Device.doRemap (d : Device) (r : RemapReq) : Device :=
  let sp := cSpare (bOut d.field.block r.out)
  if r.set && !d.field.canRemap r.out then d
  else
    let d := d.modField (fun f => { f with remaps := setBit f.remaps r.out r.set })
    let payload := r.set.toNat * 2 ^ 255 + sp % 16 * 2 ^ 251 + r.auto.toNat * 2 ^ 250
    let d := if r.set then d.fieldRec 0x0909 r.out payload 0x000A sevFault (words [r.out, sp % 16]) else d.fieldEvent 0x0909 r.out payload
    d.applyAll d.field.safe (d.field.out r.out).source

/-! Verdicts and their clearing (R305, R307, R309, R312). -/

/-- E_LAMP_DARK's payload. -/
def Output.darkPayload (o : Output) (set : Bool) : Nat :=
  fields [(255, set.toNat), (252, o.darkCause), (236, sat 0xFFFF (o.ua / 1000)), (220, sat 0xFFFF (o.groupMv / 10))]

/-- The lamp on output k is found dark: once per fault (R305, R310). -/
def Device.foundDark (d : Device) (k cause : Nat) : Device :=
  if (d.field.out k).darkFault then d
  else
    let d := d.modOut k (fun o => { o with darkFault := true, darkCause := cause, cleanN := 0 })
    (d.fieldEvent 0x0901 k ((d.field.out k).darkPayload true)).autoRemap k

/-- The output is found shorted to VFIELD (R305, R307). -/
def Device.foundShort (d : Device) (k : Nat) (on : Bool) : Device :=
  if (d.field.out k).shortVf then d
  else
    let d := d.modOut k (fun o => { o with shortVf := true, shortOn := on, cleanN := 0 })
    (d.fieldEvent 0x0903 k (2 ^ 255 + on.toNat * 2 ^ 254)).autoRemap k

/-- CLEAN_MS of clean evidence with at least 8 items clears DARK, LIT, SHORT_VF and HIGH, each with its event. -/
def Device.clearClean (d : Device) (k : Nat) : Device :=
  let o := d.field.out k
  let d := if o.darkFault then d.fieldEvent 0x0901 k (o.darkPayload false) else d
  let d := if o.litFault then d.fieldEvent 0x0902 k (o.litEvid * 2 ^ 253) else d
  let d := if o.shortVf then d.fieldEvent 0x0903 k (o.shortOn.toNat * 2 ^ 254) else d
  let d := if o.high then d.fieldEvent 0x0907 k 0 else d
  d.modOut k (fun o => { o with
    darkFault := false, darkCause := 0, litFault := false, litEvid := 0, shortVf := false, shortOn := false
    high := false, elecDark := false, optIsDark := false, elecLit := false, optIsLit := false, disagree := false, attrAt := none })

/-- CROSS of two outputs clears after CLEAN_MS without evidence (R309). -/
def Device.clearCross (d : Device) (k j : Nat) : Device :=
  let drop := fun (i : Nat) (x : Output) => { x with partners := mdel i x.partners, evid := mdel i x.evid }
  (((d.fieldEvent 0x0904 k (j * 2 ^ 251)).modOut k (drop j))).modOut j (drop k)

/-! Fault stops of outputs (R22, R295, R296, R306). -/

/-- A fault stop of one output: its switch is off, a diagnostic pulse or gap of it ends. -/
def Device.outStop (d : Device) (k : Nat) : Device :=
  ((d.faultStop (outFn k) (2 * ms)).modOut k (fun o => { o with diagRun := none })).setSwitch k false false

/-- A stop by current limit or over-temperature (R296): it waits for cooling; after 16 within 10 s it is LATCHED. -/
def Device.limitStop (d : Device) (k reason : Nat) : Device :=
  let d := (d.field.clan k).foldl (fun d j => d.outStop j) d
  let d := d.fieldEvent 0x0907 k (2 ^ 255 + reason * 2 ^ 252)
  let stops := d.now :: (d.field.out k).stops.filter (fun t => decide (d.now < t + 10 * second))
  let d := d.modOut k (fun o => { o with overTemp := true, stops := stops.take 16 })
  if 16 ≤ stops.length && !(d.field.out k).latched then
    ((d.modOut k (fun o => { o with latched := true })).fieldEvent 0x0907 k (2 ^ 255 + 3 * 2 ^ 252)).autoRemap k
  else d

end Sys2Proof.Machine
end

