-- ==== Sys2Proof/Machine/Bridge.lean ====
section
/-! DEFINITION. The isolation bridge: frames, bulk channels, silence on either side, safe states and the field block's transfer
(R280-R291, R301). -/

namespace Sys2Proof.Machine

open Sys2Proof

/-- A frame with its CRC-32 over bytes 0-59 in bytes 60-63 (R281). -/
def withCrc (v : Nat) : BitVec 512 := .ofNat 512 (v % 2 ^ 480 + Crypto.crc32 60 (v % 2 ^ 480) * 2 ^ 480)

/-- The CRC of a frame is correct. -/
def crcOk (f : BitVec 512) : Bool := fld f 511 480 == Crypto.crc32 60 (f.toNat % 2 ^ 480)

/-- Bits [hi:lo] are the complement of the 16 bits from `at_`. -/
def pair16 (f : BitVec 512) (at_ neg : Nat) : Bool := fld f (neg + 15) neg == 65535 - fld f (at_ + 15) at_

/-! Ends of the bridge. -/

def Device.modCore (d : Device) (g : CoreBridge → CoreBridge) : Device := { d with core := g d.core }
def Device.modEnd (d : Device) (s : Side) (g : BridgeEnd → BridgeEnd) : Device :=
  match s with
  | .core => d.modCore (fun c => { c with end_ := g c.end_ })
  | .field => d.modField (fun f => { f with end_ := g f.end_ })

/-- A bulk frame (R285). -/
def bulk (type fseq chan : Nat) (p : Bytes) : BitVec 512 :=
  withCrc (fields [(0, type), (8, fseq % 256), (16, chan), (24, p.len), (32, p.val)])

/-- The CHAN 0 message a bulk slot sends: the next of the window that is to be sent again, else a new one while the window of 8
allows (R286). -/
def BridgeEnd.message (e : BridgeEnd) (now : Nat) : Option (BridgeEnd × Byte × Bytes) :=
  match e.win.drop (e.win.length - e.again) with
  | w :: t => some ({ e with win := e.win.take (e.win.length - e.again) ++ (w.1, w.2.1, now) :: t, again := t.length }, w.1, w.2.1)
  | [] =>
    match (if e.win.length < 8 then e.out.head? else none) with
    | some m => some ({ e with out := e.out.drop 1, win := e.win ++ [(e.bseq0, m, now)], bseq0 := e.bseq0 + 1 }, e.bseq0, m)
    | none => none

/-- One bulk slot filled: a CHAN 0 message, else up to 56 bytes of CHAN 1 data, else an empty frame, which counts on CHAN 1 (R285, R286;
DESIGN CHOICE, log entry 68). -/
def BridgeEnd.slot (e : BridgeEnd) (now type : Nat) (data : Bytes) : BridgeEnd × BitVec 512 × Nat :=
  match e.message now with
  | some m => ({ m.1 with sentB := e.sentB + 1 }, bulk type m.2.1.toNat 0 m.2.2, 0)
  | none =>
    let p := data.slice 0 (min 56 data.len)
    ({ e with bseq1 := e.bseq1 + 1, sentB := e.sentB + 1 }, bulk type e.bseq1.toNat 1 p, p.len)

/-- MSG_ACK received: messages up to it leave the window. -/
def BridgeEnd.acked (e : BridgeEnd) (ack : Nat) : BridgeEnd :=
  match e.win.findIdx? (fun w => w.1.toNat == ack) with
  | some i => { e with win := e.win.drop (i + 1), again := min e.again (e.win.length - (i + 1)) }
  | none => e

/-- Go-back-N: everything in the window is sent again under its own numbers (R286). -/
def BridgeEnd.goBack (e : BridgeEnd) : BridgeEnd := { e with again := e.win.length, repeats := e.repeats + e.win.length }

/-- MSG_ACK names a message of the window, or the one before it. -/
def BridgeEnd.knows (e : BridgeEnd) (ack : Nat) : Bool :=
  e.win.any (fun w => w.1.toNat == ack) ||
    (match e.win with
      | [] => e.bseq0
      | w :: _ => w.1).toNat == (ack + 1) % 256

/-- Contact (re)starts: CHAN 0 goes on after the message the other end acknowledged last, what is in the window again, numbered from
there (DESIGN CHOICE, log entry 68); where the next unit of CHAN 1 starts is not known. -/
def BridgeEnd.resume (e : BridgeEnd) (ack : Nat) : BridgeEnd :=
  let e := (e.acked ack).goBack
  { e with
    win := e.win.zipIdx.map (fun w => (.ofNat 8 (ack + 1 + w.2), w.1.2)), bseq0 := .ofNat 8 (ack + 1 + e.win.length)
    adrift := true, part := Bytes.nil, partLeft := 0, partBad := false }

/-- A CHAN 0 frame received is in order; any other is discarded (R286). -/
def BridgeEnd.inOrder (e : BridgeEnd) (fseq : Nat) : Bool := fseq == (e.ack.toNat + 1) % 256

/-! CHAN 1 toward the core side (R337). The 8-byte header of a unit on the bridge, in the model's own layout (log entry 69): queue
[13:0], period records [14], CUT [15], sequence [17:16], record count [24:18], number of the unit in its queue modulo 4 [26:25], field
time at which it closed in us modulo 8,192 [39:27], time from trigger to close in us [63:40]. -/

def chunkHeader (queue : Nat) (period cut : Bool) (seq count number closed time : Nat) : Bytes :=
  .mk' 8 (fields [(0, queue), (14, period.toNat), (15, cut.toNat), (16, seq), (18, count), (25, number % 4), (27, closed % 8192),
    (40, time)])

/-- Bytes of a unit after its header. -/
def chunkBody (h : Bytes) : Nat := h.bits 24 18 * (if nbit h.val 14 then 8 else 4)

/-- Device time in ns of a close time in us modulo 8,192: the latest such instant up to 1 ms from now (log entry 69). -/
def Device.closeTime (d : Device) (closed : Nat) : Nat :=
  let t := (d.time.ns.toNat + ms) / us
  (t - (t + 8192 - closed % 8192) % 8192) * us

/-- A unit received whole, with its close time, enters its queue, or waits for it (R337). -/
def Device.storeChunk (d : Device) (time : Nat) (u : Bytes) : Device × Bool :=
  let period := nbit u.val 14
  let flags := fields [(0, u.bits 15 15), (1, period.toNat)]
  let info := if period then 0 else fields [(30, u.bits 17 16), (0, u.bits 63 40)]
  let r := d.putStreamAt time (u.bits 13 0) true flags 0x06 (if period then 8 else 4) (u.bits 24 18) info (u.drop 8)
  (r.1, r.2 == .waits)

def Device.storeReady (d : Device) : Device :=
  match d.core.end_.ready with
  | [] => d
  | u :: t =>
    let r := d.storeChunk u.1 u.2
    if r.2 then r.1 else r.1.modEnd .core (fun e => { e with ready := t })

/-- The present unit is complete: stored, or, having missed a frame, discarded under RX_LOSS. -/
def Device.endChunk (d : Device) : Device :=
  let e := d.core.end_
  let d := d.modEnd .core (fun e => { e with part := Bytes.nil, partLeft := 0, partBad := false })
  if e.partBad then d.lostUnit (e.part.bits 13 0) 4
  else (d.modEnd .core (fun e' => { e' with ready := e'.ready ++ [(e.partTime, e.part)] })).storeReady

/-- Data that may be the first frame of a unit: a header whose queue is bound to its producer, whose record count its kind allows, and
whose unit has a first frame of this length. -/
def Device.startsUnit (d : Device) (p : Bytes) : Bool :=
  let h := p.val
  let bound := (d.queue (nfld h 13 0)).bound
  decide (8 ≤ p.len) && p.len == min 56 (8 + chunkBody p) &&
    (if nbit h 14 then bound == some .inputs && nfld h 17 15 == 0 && nfld h 63 40 == 0 && !outside (nfld h 24 18) 1 16
     else bound == some (.seq (nfld h 17 16)) && decide (nfld h 24 18 ≤ 64))

/-- The first frame of a unit: the units of its queue that its number shows to be missing are counted under RX_LOSS. -/
def Device.chunkStart (d : Device) (p : Bytes) : Device :=
  let queue := p.bits 13 0
  let n := p.bits 26 25
  let missing := match mget queue d.core.end_.nums with
    | some m => (n + 4 - m) % 4
    | none => 0
  let d := (List.range missing).foldl (fun d _ => d.lostUnit queue 4) d
  let left := ceilDiv (8 + chunkBody p) 56
  let d := d.modEnd .core (fun e => { e with
    part := p, partLeft := left - 1, partBad := false, adrift := false, partTime := d.closeTime (p.bits 39 27)
    nums := mset queue ((n + 1) % 4) e.nums })
  if left ≤ 1 then d.endChunk else d

/-- A CHAN 1 frame's data in sequence: the first frame of a unit carries its header. -/
def Device.chunkData (d : Device) (p : Bytes) : Device :=
  let e := d.core.end_
  if p.len = 0 then d
  else if e.partLeft = 0 then d.chunkStart p
  else
    let d := d.modEnd .core (fun e => { e with part := e.part.app p, partLeft := e.partLeft - 1 })
    if e.partLeft = 1 then d.endChunk else d

/-- Frames lost before this one: within the present unit it is bad; beyond it the start of the next unit is not known. -/
def Device.chunkGap (d : Device) (gap : Nat) : Device :=
  let e := d.core.end_
  if gap = 0 then d
  else if gap < e.partLeft then d.modEnd .core (fun e => { e with partLeft := e.partLeft - gap, partBad := true })
  else
    let d := if e.partLeft = 0 then d else (d.modEnd .core (fun e => { e with partBad := true })).endChunk
    if gap = e.partLeft then d else d.modEnd .core (fun e => { e with adrift := true })

/-- A CHAN 1 frame at the core side (R286, R337). While the start of a unit is not known, one that may be a first frame is one, and a
frame with fewer than 56 bytes ends a unit. -/
def Device.chan1 (d : Device) (fseq : Nat) (p : Bytes) : Device :=
  let e := d.core.end_
  let d := d.modEnd .core (fun e => { e with next1 := .ofNat 8 (fseq + 1) })
  let d := if e.adrift then d else d.chunkGap ((fseq + 256 - e.next1.toNat) % 256)
  if !d.core.end_.adrift then d.chunkData p
  else if d.startsUnit p then d.chunkStart p
  else d.modEnd .core (fun e => { e with adrift := p.len == 56 })

/-! Transmission (R280, R282, R283). -/

/-- RESUME may not be sent: no sealed component runs or is being switched, or vendor debug is open (R377, R382). -/
def Device.resumeBarred (d : Device) : Bool := d.sec.debug || (d.sec.sealed.isNone && d.sec.sealSwitchAt.isNone)

/-- The aspect command as sent. -/
def Device.sentCmd (d : Device) : Pair 16 :=
  if d.resumeBarred && d.core.cmd.ok then Pair.of (setBit d.core.cmd.v 5 false) else d.core.cmd

/-- The core-to-field control frame (Table 10-2). -/
def Device.coreFrame (d : Device) : BitVec 512 :=
  let c := d.sentCmd
  withCrc (fields ([(0, 0x11), (8, d.core.end_.fseq.toNat), (16, d.time.ns.toNat), (80, c.v.toNat), (96, c.nv.toNat),
    (112, d.sec.sealed.isSome.toNat), (113, d.power.shut.isSome.toNat),
    (114, (d.sec.switchAt.isSome || d.sec.sealSwitchAt.isSome).toNat), (120, d.core.end_.ack.toNat),
    (192, d.rx.witTime.toNat), (224, d.rx.witValid.toNat)] ++
    d.rx.witCount.toList.zipIdx.map (fun p => (128 + 16 * p.2, sat 0xFFFF p.1))))

/-- A temperature in the field frame: degC + 64 in 8 bits. -/
def tempByte (t : Int) : Nat := sat 255 (t / 100 + 64).toNat

/-- The field-to-core control frame (Table 10-3). -/
def Device.fieldFrame (d : Device) : BitVec 512 :=
  let f := d.field
  let echo := fields [(0, f.aspect), (5, f.safe.toNat), (8, f.cseq.toNat)]
  let gs := f.groups.toList
  let low := gs.foldl (fun a g => min a (min g.mv g.prevMv)) (f.group 0).mv
  let lit := fields ((List.range 16).map (fun k => (k, ((f.out k).judgedLit (f.isLit k d.now)).toNat)))
  let sw := fields ((List.range 16).map (fun k => (k, (f.switchNow k).toNat)))
  let fault := fields ((List.range 16).map (fun k => (k, ((f.out k).faultBits != 0).toNat)))
  let inState := fields ((List.range 16).map (fun k =>
    let i := vget f.inputs k {}
    (k, (i.state && !i.wire).toNat)))
  withCrc (fields ([(0, 0x21), (8, f.end_.fseq.toNat), (16, echo), (32, 65535 - echo), (48, f.applyTime.toNat), (80, sw), (96, lit),
    (112, fault), (128, inState), (144, sat 0xFFFF (low / 10)), (160, (gs.any (fun g => g.sagHold)).toNat),
    (161, (gs.any (fun g => g.uvOff)).toNat), (162, f.blockBad.toNat), (163, f.poweron.toNat),
    (176, sat 0xFFFF (vget f.loops 0 {}).ua), (192, sat 0xFFFF (vget f.loops 1 {}).ua), (240, f.end_.ack.toNat)] ++
    (List.range 4).map (fun i => (208 + 8 * i, tempByte (vget d.power.sensors (12 + i) {}).reading))))

/-- CHAN 1 data the field die has to send now: of the oldest unit, a new one only while the core side holds none that waits. -/
def Device.fifoData (d : Device) : Bytes :=
  match d.field.fifo.head? with
  | none => Bytes.nil
  | some u => if d.field.fifoSent = 0 && !d.core.end_.ready.isEmpty then Bytes.nil else u.drop d.field.fifoSent

/-- `n` bytes of the oldest unit have been sent. -/
def Field.fifoTake (f : Field) (n : Nat) : Field :=
  match f.fifo with
  | [] => f
  | u :: t => if u.len ≤ f.fifoSent + n then { f with fifo := t, fifoSent := 0 } else { f with fifoSent := f.fifoSent + n }

/-- One bulk slot of a side. -/
def Device.bulkSlot (d : Device) (s : Side) : Device :=
  match s with
  | .core =>
    let r := d.core.end_.slot d.now 0x12 Bytes.nil
    d.modEnd .core (fun _ => { r.1 with line := r.1.line ++ [r.2.1] })
  | .field =>
    let r := d.field.end_.slot d.now 0x22 d.fifoData
    (d.modEnd .field (fun _ => { r.1 with line := r.1.line ++ [r.2.1] })).modField (fun f => f.fifoTake r.2.2)

/-- One cycle of a side: a control frame and two bulk frames go on the line; units that waited for their queue try again. -/
def Device.bridgeCycle (d : Device) (s : Side) : Device :=
  let frame := match s with
    | .core => d.coreFrame
    | .field => d.fieldFrame
  let d := match s with
    | .core => d.storeReady
    | .field => d
  let d := d.modEnd s (fun e => { e with line := [frame], fseq := e.fseq + 1, sentC := e.sentC + 1 })
  (d.bulkSlot s).bulkSlot s

/-- BRIDGE_CYCLE (R280): frames are sent in every state of the transmitting die except reset and power-down. -/
def execBridgeCycle (dt : Nat) (side : Side) (s : State) : Host.Outcome State Fault Refusal :=
  match side with
  | .core => coreRow dt (fun d => d.bridgeCycle .core) s
  | .field => fieldRow dt (fun d => d.bridgeCycle .field) s

/-! Reception of bulk frames. -/

/-- A CHAN 0 frame at one end: in order it is acknowledged and its message taken, at the field die as a part of a field block, at the
core side as a message of the field die (R286, R293, R314). -/
def Device.chan0 (d : Device) (s : Side) (fseq : Nat) (p : Bytes) : Device :=
  match s with
  | .core =>
    if p.len = 0 || !d.core.end_.inOrder fseq then d else (d.modEnd .core (fun e => { e with ack := .ofNat 8 fseq })).deliver p
  | .field =>
    if p.len = 0 || !d.field.end_.inOrder fseq then d
    else d.modEnd .field (fun e => { e with ack := .ofNat 8 fseq, inbox := e.inbox ++ [p] })

/-- A bulk frame at one end. -/
def Device.bulkFrame (d : Device) (s : Side) (f : BitVec 512) : Device :=
  let type := match s with
    | .core => 0x22
    | .field => 0x12
  if !crcOk f || fld f 7 0 != type || 1 < fld f 23 16 || 56 < fld f 31 24 then d.modEnd s (fun e => { e with crcFail := e.crcFail + 1 })
  else
    let p : Bytes := .mk' (fld f 31 24) (fld f 479 32)
    let d := d.modEnd s (fun e => { e with recvB := e.recvB + 1 })
    if fld f 23 16 = 0 then d.chan0 s (fld f 15 8) p
    else match s with
      | .core => d.chan1 (fld f 15 8) p
      | .field => d

/-- BULK_FRAME (R285). -/
def execBulkFrame (dt : Nat) (at_ : Side) (frame : BitVec 512) (s : State) : Host.Outcome State Fault Refusal :=
  match at_ with
  | .core => coreRow dt (fun d => d.bulkFrame .core frame) s
  | .field => fieldRow dt (fun d => d.bulkFrame .field frame) s

/-- MSG_ACK has not covered the oldest message within 100 us (R286). -/
def Device.chan0Timeout (d : Device) (s : Side) : Device :=
  let late := fun (e : BridgeEnd) => match e.win with
    | [] => e
    | w :: _ => if e.again < e.win.length && decide (w.2.2 + 100 * us ≤ d.now) then e.goBack else e
  d.modEnd s late

/-- CHAN0_REPEAT_TIMEOUT (R286). -/
def execChan0RepeatTimeout (dt : Nat) (side : Side) (s : State) : Host.Outcome State Fault Refusal :=
  match side with
  | .core => coreRow dt (fun d => d.chan0Timeout .core) s
  | .field => fieldRow dt (fun d => d.chan0Timeout .field) s

/-! The field die: control frames from the core side (R281, R284, R287, R290). -/

/-- Field time follows DEV_TIME plus 6 us: a step beyond 10 us, else a slew of at most 1 us (R284). -/
def Device.setFieldTime (d : Device) (dev : Nat) : Device :=
  let diff : Int := (dev : Int) + 6 * us - ((d.now : Int) + d.field.offset)
  let step : Bool := 10 * (us : Int) < diff || diff < -10 * (us : Int)
  let d := d.modField (fun f => { f with offset := f.offset + (if step then diff else max (-(us : Int)) (min us diff)) })
  if step then d.modField (fun f => f.excAlign d.fieldNs) else d

/-- A count of a lamp witness, excluded where it overlaps the output's inrush mask, OFF_BLANK or diagnostic pulse or gap, from the
interval's start on the local clock (R310). -/
def Output.witExcluded (o : Output) (cfg start : Nat) (lit : Bool) : Bool :=
  let stop := start + 100 * us
  (start < o.diagAt + 50 * us && o.diagAt < stop && o.diagCyc.isSome) ||
    (if lit then start < o.onAt + cInrush cfg || start < o.onAt else start < o.offAt + cOffBlank cfg)

/-- One witness interval at one output (R310): optical dark after 10 low intervals while it is lit, optical presence integrated while
it is dark. -/
def Output.witness (o : Output) (cfg count : Nat) (now : Nat) (lit : Bool) : Output :=
  if lit then
    let low := count * 255 < cWitLit cfg * eDuty o.ent
    let o := { o with wit := count, witInt := 0, optIsLit := false, optDark := if low then sat 10 (o.optDark + 1) else 0 }
    let o := if low then o else { o with optIsDark := false }
    o.item (!low) now
  else
    let lit := cWitDark cfg ≤ count
    let o := { o with wit := count, optDark := 0, optIsDark := false,
                      witInt := if lit then sat (10 * cLitMs cfg) (o.witInt + 1) else o.witInt - 1 }
    let o := if lit then o else { o with optIsLit := o.optIsLit && 0 < o.witInt }
    o.item (!lit) now

/-- Electrical and optical evidence differ (R311): where the output has both, a witness whose counts arrive and, while lit, a lamp
model and valid samples. -/
def Output.compare (o : Output) (cfg : Nat) (lit samples : Bool) : Output :=
  { o with disagree := cWitEn cfg && !o.witUnavail &&
      (if lit then samples && cModel cfg != 0 && o.elecDark != o.optIsDark else o.elecLit != o.optIsLit) }

/-- The comparison at output k; while it is lit there is electrical evidence only from valid samples (R304, R326). -/
def Device.compareAt (d : Device) (k : Nat) : Device :=
  let lit := d.field.isLit k d.now
  let cfg := d.field.cfg k
  d.modOut k (fun o => o.compare cfg lit (!pwmShort (cPwm cfg) (eDuty o.ent) && !d.field.noSupervision))

/-- Dark verdicts of an output are suspended: its group in SAG_HOLD, or an LED below 0.6 V_REF (R306, Table 10-15). -/
def Field.darkSuspended (f : Field) (k : Nat) : Bool :=
  let c := f.cfg k
  (f.group (k / 4)).sagHold || (cModel c == 1 && decide ((f.out k).groupMv * 10 < 6 * cVref c * 100))

/-- No valid counts arrive: WIT_UNAVAIL, and no optical evidence (R310). -/
def Output.noCounts (o : Output) : Output :=
  { o with witUnavail := true, optDark := 0, optIsDark := false, optIsLit := false, witInt := 0, disagree := false }

/-- The counts of a control frame at one output: none valid sets WIT_UNAVAIL; a new interval is judged (R310). -/
def Device.opticalOne (d : Device) (frame : BitVec 512) (fresh : Bool) (k : Nat) : Device :=
  let cfg := d.field.cfg k
  if !cWitEn cfg || leaderOf d.field.block k != k then d
  else if !bit frame (224 + cWitSel cfg) then
    d.modOut k Output.noCounts
  else
    let d := d.modOut k (fun o => { o with witUnavail := false })
    let age := (d.fieldNs + 2 ^ 32 - fld frame 223 192) % 2 ^ 32
    let o := d.field.out k
    let lit := d.field.isLit k d.now
    if !fresh || o.witExcluded cfg (d.now - age) lit then d
    else
      let d := d.modOut k (fun o => o.witness cfg (fld frame (143 + 16 * cWitSel cfg) (128 + 16 * cWitSel cfg)) d.now lit)
      if 10 ≤ (d.field.out k).optDark && !d.field.darkSuspended k then
        ((d.foundDark k 3).modOut k (fun o => { o with optIsDark := true })).compareAt k
      else d.compareAt k

/-- The core command of a valid frame: applied at the next tick when its CSEQ is new; from the safe states only with RESUME and
five valid frames in a row, and not before safe states that are due have been taken (R287, R290, R301). -/
def Device.takeCommand (d : Device) (frame : BitVec 512) : Device :=
  let f := d.field
  if fld frame 95 88 = f.cseq.toNat || f.safeDue.isSome then d
  else if f.safe && !(5 ≤ f.valid && bit frame 85) then d
  else if f.applyDue.any (fun a => a.1 == fld frame 95 88) then d
  else d.modField (fun f => { f with applyDue := some (fld frame 95 88, fld frame 84 80, d.nextTick) })

/-- The silence the field die detected ends (R288): the event, with the episode's record for the case that the core side wrote none. -/
def Device.fieldSilenceEnds (d : Device) : Device :=
  match d.field.silentAt with
  | none => d
  | some _ =>
    let len := sat 0xFFFFFFFF ((d.now - d.field.wdAt) / us)
    (d.fieldRec 0x0906 0 (2 ^ 254 + len * 2 ^ 222) 0x0008 sevSafety (words [1, len])).modField (fun f => { f with silentAt := none })

/-- A valid core control frame; a MSG_ACK outside the window tells that one end has started anew, and CHAN 0 resumes (log entry 68). -/
def Device.coreFrameValid (d : Device) (frame : BitVec 512) : Device :=
  let d := if d.field.end_.knows (fld frame 127 120) then d else d.modEnd .field (fun e => e.resume (fld frame 127 120))
  let d := (d.fieldIntact 9 0).fieldSilenceEnds
  let d := (d.setFieldTime (fld frame 79 16)).modField (fun f => { f with valid := f.valid + 1, wdAt := d.now })
  let d := d.modEnd .field (fun e => { (e.acked (fld frame 127 120)) with recvC := e.recvC + 1 })
  let fresh := fld frame 223 192 != d.field.witTime.toNat
  let d := (List.range 16).foldl (fun d k => d.opticalOne frame fresh k) d
  (d.modField (fun f => { f with witTime := .ofNat 32 (fld frame 223 192) })).takeCommand frame

/-- A control frame from the core side (R281): one that fails its complement check alone is counted, raises E_INTEGRITY and is
otherwise treated as lost. -/
def Device.coreFrameIn (d : Device) (frame : BitVec 512) : Device :=
  if !crcOk frame || fld frame 7 0 != 0x11 then
    (d.modEnd .field (fun e => { e with crcFail := e.crcFail + 1 })).modField (fun f => { f with valid := 0 })
  else if !pair16 frame 80 96 then
    ((d.modEnd .field (fun e => { e with compFail := e.compFail + 1 })).modField (fun f => { f with valid := 0 })).fieldIntegrity 9 0 2
  else d.coreFrameValid frame

/-- CORE_TO_FIELD_CONTROL_FRAME (R290). -/
def execCoreToFieldControlFrame (dt : Nat) (frame : BitVec 512) (s : State) : Host.Outcome State Fault Refusal :=
  fieldRow dt (fun d => d.coreFrameIn frame) s

/-- The field die's silence watchdog: WDT after the last valid frame, within 3 % (R287). The safe states follow at the next tick;
the frames received no longer count; WIT_UNAVAIL is set where a witness is used (R310). -/
def Device.watchdog (d : Device) : Device :=
  if d.field.silentAt.isSome || d.now < d.field.wdAt + bWdt d.field.block * 97 / 100 then d
  else
    let d := d.modField (fun f => { f with silentAt := some d.now, valid := 0, safeDue := if f.safe then f.safeDue else some d.nextTick })
    let d := d.modField (fun f => { f with outs := Vector.ofFn (fun k : Fin 16 =>
      let o := f.out k.val
      if cWitEn (f.cfg k.val) then o.noCounts else o) })
    d.fieldEvent 0x0906 0 (2 ^ 255 + 2 ^ 254)

/-- FIELD_WATCHDOG_EXPIRY (R287). -/
def execFieldWatchdogExpiry (dt : Nat) (s : State) : Host.Outcome State Fault Refusal := fieldRow dt Device.watchdog s

/-- Every output takes its safe state at the tick; SAFE is set (R287, R289). Sequences triggered by ASPECT are triggered (R333). -/
def Device.takeSafe (d : Device) : Device :=
  match d.field.safeDue with
  | none => d
  | some t =>
    if d.now < t then d
    else
      let d := d.modField (fun f => { f with safeDue := none, safe := true, applyDue := none })
      (d.applyAll true 1).seqTriggers (fun h => sTrig h == 6)

/-- SAFE_STATE_APPLY (R287). -/
def execSafeStateApply (dt : Nat) (s : State) : Host.Outcome State Fault Refusal := fieldRow dt Device.takeSafe s

/-- The aspect commanded is applied at the tick (R300): SAFE and POWERON clear (R290, R404). -/
def Device.applyAspect (d : Device) : Device :=
  match d.field.applyDue with
  | none => d
  | some (cseq, aspect, t) =>
    if d.now < t then d
    else
      let d := d.modField (fun f => { f with
        applyDue := none, cseq := .ofNat 8 cseq, aspect := aspect, applyTime := .ofNat 32 d.fieldStamp, safe := false, poweron := false })
      (d.applyAll false 0).seqTriggers (fun h => sTrig h == 6)

/-- ASPECT_APPLY (R300). -/
def execAspectApply (dt : Nat) (s : State) : Host.Outcome State Fault Refusal := fieldRow dt Device.applyAspect s

/-! The core side: control frames from the field die (R281, R288, R301). -/

/-- The field block in chunks of CHAN 0 (R293). -/
def blockChunks (b : BitVec 11392) : List Bytes := (List.range 26).map (fun i => (Bytes.mk' 1424 b.toNat).slice (56 * i) (min 56 (1424 - 56 * i)))

/-- The field die detected a silence that has not ended, or its message of the end is on its way. -/
def Device.fieldSilent (d : Device) : Bool :=
  d.field.silentAt.isSome || d.field.msgs.any (fun m => match m with
    | .event id _ _ _ r => id == 0x0906 && r.isSome
    | _ => false)

/-- The core side's silence ends: FIELD_OK, the event with its duration, and the episode's one record unless the field die's message
of the same episode brought it (R288). -/
def Device.coreSilenceEnds (d : Device) : Device :=
  match d.core.silentAt with
  | none => d
  | some _ =>
    let len := sat 0xFFFFFFFF ((d.now - d.core.since) / us)
    let d := if d.core.recorded then d.raise 0x0906 0 (len * 2 ^ 222)
      else d.raiseRec 0x0906 0 (len * 2 ^ 222) 0x0008 sevSafety (words [0, len])
    d.modCore (fun c => { c with
      silentAt := none, longest := max c.longest (d.now - c.since), recorded := !c.recorded && d.fieldSilent })

/-- The core side's end resumes: a unit of CHAN 1 in progress is lost; after a restart of the field die its units count anew. -/
def Device.coreResume (d : Device) (ack : Nat) (anew : Bool) : Device :=
  let e := d.core.end_
  let d := if e.partLeft = 0 then d else d.lostUnit (e.part.bits 13 0) 4
  d.modEnd .core (fun e => { (e.resume ack) with nums := if anew then [] else e.nums })

/-- A field frame shows that the field die has restarted: a MSG_ACK outside the window, or POWERON newly set (log entry 68). -/
def Device.fieldAnew (d : Device) (frame : BitVec 512) : Bool :=
  !d.core.end_.knows (fld frame 247 240) || (bit frame 163 && !bit d.core.frame 163)

/-- What contact brings (R293, R301, R376, R386): the comparison and the shadow of the field block after a reset, a safe-default
block still to be sent, and a new CSEQ after the one echoed. -/
def Device.contactStarts (d : Device) (frame : BitVec 512) : Device :=
  let d := d.coreResume (fld frame 247 240) (d.fieldAnew frame)
  let d := if d.core.loaded || d.sec.blockDefaultDue || d.sec.sealed.isNone then d else d.recoverParam 4
  let d := d.modCore (fun c => { c with fieldOk := true, resync := true, echo := .ofNat 8 (fld frame 31 24)
                                        shadow := if c.loaded then c.shadow else d.field.block, loaded := true })
  let d := if d.sec.blockDefaultDue && d.core.commitAt.isNone then
      (d.modEnd .core (fun e => { e with out := e.out ++ blockChunks Config.blockDefault })).modCore (fun c => { c with commitAt := some d.now })
    else d
  d.coreSilenceEnds

/-- E_ASPECT for a CSEQ newly echoed (R301), and when the safe states are taken (Table 10-18). -/
def Device.reportAspect (d : Device) (frame : BitVec 512) : Device :=
  let cseq := fld frame 31 24
  let safe := bit frame 21
  let report := fun (d : Device) => d.raise 0x0908 (fld frame 20 16) (fields [(248, cseq), (247, safe.toNat), (215, fld frame 79 48)])
  let fresh := d.core.reported.any (fun r => r != cseq)
  let d := if fresh || (safe && !d.core.safeSeen) then report d else d
  d.modCore (fun c => { c with reported := some cseq, safeSeen := safe })

/-- A valid field control frame. -/
def Device.fieldFrameValid (d : Device) (frame : BitVec 512) : Device :=
  let d := d.intact 9 1
  let d := if !d.core.fieldOk then d.contactStarts frame
    else if d.fieldAnew frame then d.coreResume (fld frame 247 240) true else d
  let d := d.modEnd .core (fun e => { (e.acked (fld frame 247 240)) with recvC := e.recvC + 1 })
  let d := d.modCore (fun c => { c with
    longest := max c.longest (d.now - c.since), since := d.now, frame := frame })
  d.reportAspect frame

/-- A control frame from the field die (R281). -/
def Device.fieldFrameIn (d : Device) (frame : BitVec 512) : Device :=
  if !crcOk frame || fld frame 7 0 != 0x21 then d.modEnd .core (fun e => { e with crcFail := e.crcFail + 1 })
  else if !pair16 frame 16 32 then (d.modEnd .core (fun e => { e with compFail := e.compFail + 1 })).integrity 9 1 2
  else d.fieldFrameValid frame

/-- FIELD_TO_CORE_CONTROL_FRAME (R283). -/
def execFieldToCoreControlFrame (dt : Nat) (frame : BitVec 512) (s : State) : Host.Outcome State Fault Refusal :=
  coreRow dt (fun d => d.fieldFrameIn frame) s

/-- WDT at the core side: that of the live block once it is known (R288). -/
def Device.coreWdt (d : Device) : Nat := if d.core.loaded then bWdt d.field.block else ms

/-- No valid field frame for WDT (R288): FIELD_OK in HIF_STATUS clears and E_BRIDGE_SILENT is raised. -/
def Device.coreSilent (d : Device) : Device :=
  if d.core.silentAt.isSome || d.now < d.core.since + d.coreWdt then d
  else (d.modCore (fun c => { c with fieldOk := false, silentAt := some d.now, episodes := c.episodes + 1 })).raise 0x0906 0 (2 ^ 255)

/-- CORE_SILENCE_TIMEOUT (R288). -/
def execCoreSilenceTimeout (dt : Nat) (s : State) : Host.Outcome State Fault Refusal := coreRow dt Device.coreSilent s

end Sys2Proof.Machine
end

