-- ==== Sys2Proof/Machine/Lamps.lean ====
section
/-! DEFINITION. Supervision of the outputs, their timers, and the VFIELD groups (R295-R312). -/

namespace Sys2Proof.Machine

open Sys2Proof

/-- Class of a valid sample (R305): 0 clean, 1 near zero, 2 low, 3 high. -/
def sampleClass (cfg ua mv : Nat) : Nat :=
  if nearZero cfg ua mv then 1
  else if belowPct cfg ua (cLo cfg) mv then 2
  else if abovePct cfg ua (cHi cfg) mv then 3
  else 0

/-- The current range after a result (R330): low below 150 mA in the high range, high from 235 mA in the low range or where the result
carries OVR; the next conversion carries RANGE_CHG after a switch. The high range is held during the inrush mask. -/
def Output.ranged (o : Output) (ua : Nat) (ovr held : Bool) : Output :=
  if held then { o with rangeChg := false }
  else if !o.lowRange && ua < 150000 then { o with lowRange := true, rangeChg := true }
  else if o.lowRange && (ovr || 235000 ≤ ua) then { o with lowRange := false, rangeChg := true }
  else { o with rangeChg := false }

/-- The high range of an output's sense is held: its inrush mask, or a capture that runs on it (R330, R348). -/
def Field.rangeHeld (f : Field) (k now : Nat) : Bool :=
  decide (now < (f.out k).onAt + cInrush (f.cfg k)) || f.capture.any (fun c => c.running && c.out == k)

/-- A sample is excluded from verdicts (R304). -/
def Device.sampleExcluded (d : Device) (k : Nat) : Bool :=
  let o := d.field.out k
  let cfg := d.field.cfg k
  d.now < o.onAt + cInrush cfg || d.now < o.gapAt + 100 * us || (d.field.clan k).any (fun j => (d.field.out j).rangeChg) ||
    pwmShort (cPwm cfg) (eDuty o.ent)

/-- The inputs a supervision sample converts, in order: the currents of the output and its members, its voltage, its group's. -/
def Field.lampMuxes (f : Field) (k : Nat) : List Nat := (f.clan k).map (fun j => 0x30 + j) ++ [0x20 + k, 0x44 + k / 4]

/-- A supervision sample now would carry RECOV (R338). -/
def Device.lampRecov (d : Device) (k : Nat) : Bool :=
  let c := d.field.conv (d.field.server 3)
  let slot := d.field.slot 3
  (d.field.lampMuxes k).zipIdx.any (fun p => c.recovAt p.1 (d.now + p.2 * slot / 2) (c.since + p.2))

/-- Which of a sample's conversions were beyond full scale, by the range each sense was in. -/
def Field.lampOver (f : Field) (k : Nat) (smp : LampSample) : List Bool :=
  ((f.clan k).zipIdx.map (fun p => decide (senseFull (f.out p.1).lowRange ≤ (smp.ua.drop p.2).head?.getD 0))) ++
    [decide (75000 ≤ smp.mv), decide (75000 ≤ smp.groupMv)]

/-- The sample as converted: nothing beyond full scale. -/
def Field.lampTaken (f : Field) (k : Nat) (smp : LampSample) : LampSample :=
  let top := senseUa
  { ua := ((f.clan k).zip smp.ua).map (fun p => sat (top (f.out p.1).lowRange 0xFFFF) p.2), mv := sat 74998 smp.mv
    groupMv := sat 74998 smp.groupMv }

/-- The verdict of DARK_N samples of one class (R305). -/
def Device.sampleVerdict (d : Device) (k : Nat) : Device :=
  let o := d.field.out k
  if o.clsN < cDarkN (d.field.cfg k) then d
  else if o.cls = 1 && o.rbBefore then d.foundShort k true
  else if o.cls = 1 || o.cls = 2 then
    if d.field.darkSuspended k then d
    else (d.foundDark k o.cls).modOut k (fun o => { o with elecDark := true })
  else if o.cls = 3 && !o.high then
    (d.modOut k (fun o => { o with high := true, cleanN := 0 })).fieldEvent 0x0907 k (2 ^ 255)
  else d

/-- A member carries less than half its share of a group's current (R297): E_OUT_FAULT, reason SHARE, once. -/
def Device.checkShare (d : Device) (k : Nat) (uas : List Nat) : Device :=
  let n := (d.field.clan k).length
  let short := 1 < n && (uas.take n).any (fun a => decide (a * 2 * n < (uas.take n).sum))
  let d := if short && !(d.field.out k).share then d.fieldEvent 0x0907 k (2 ^ 255 + 4 * 2 ^ 252) else d
  d.modOut k (fun o => { o with share := short })

/-- A valid sample of a supervised output. -/
def Device.judge (d : Device) (k ua : Nat) : Device :=
  let cfg := d.field.cfg k
  let c := sampleClass cfg ua (d.field.out k).groupMv
  let d := d.modOut k (fun o =>
    let o := { o with cls := c, clsN := if o.cls = c then sat 15 (o.clsN + 1) else 1, elecDark := o.elecDark && c != 0 }
    o.item (c == 0) d.now)
  (if c = 0 then d else d.sampleVerdict k).compareAt k

/-- The sampling instant an output is at: for PWM its lit edge plus 40 us, else k x 31.25 us modulo 500 us of field time, each for the
31.25 us up to the next output's (R304); none between them. Even keys name windows, odd ones lit edges. -/
def Device.samplingAt (d : Device) (k : Nat) : Option Nat :=
  let o := d.field.out k
  if eDuty o.ent != 255 then
    if o.edgeAt + 40 * us ≤ d.now && d.now < o.edgeAt + 40 * us + 31250 then some (2 * o.edgeAt + 1) else none
  else
    let x := d.fieldNs + 500 * us - 31250 * k
    if x % (500 * us) < 31250 then some (2 * (x / (500 * us))) else none

/-- A sample of the output is due: one at each instant, or again 1.5 us after one that carried RECOV (R304, R328). -/
def Device.sampleDue (d : Device) (k : Nat) : Bool :=
  let o := d.field.out k
  (d.samplingAt k).isSome && d.samplingAt k != o.smpKey && decide (o.smpAfter ≤ d.now)

/-- A supervision sample of a lit output, leader of its group (R304, R305); one that would carry RECOV is taken again. -/
def Device.superviseLamp (d : Device) (k : Nat) (smp : LampSample) : Device :=
  if leaderOf d.field.block k != k || !(d.field.out k).switch || d.field.noSupervision || !d.sampleDue k then d
  else if d.lampRecov k then d.modOut k (fun o => { o with smpAfter := d.now + 1500 })
  else
    let key := d.samplingAt k
    let ovr := d.field.lampOver k smp
    let x := d.field.lampTaken k smp
    let clan := d.field.clan k
    let excluded := d.sampleExcluded k
    let held := d.field.rangeHeld k d.now
    let d := (d.takeSlots 3 (clan.length + 2)).ranBackground 3 ((d.field.lampMuxes k).zip ovr)
    let d := d.modOut k (fun o => { o with ua := x.ua.sum, mv := x.mv, groupMv := x.groupMv, smpKey := key })
    let d := (clan.zip (x.ua.zip ovr)).foldl (fun d p => d.modOut p.1 (fun o => o.ranged p.2.1 p.2.2 held)) d
    if excluded || cModel (d.field.cfg k) = 0 then d else (d.checkShare k x.ua).judge k x.ua.sum

/-- SUPERVISION_SAMPLE (R305). -/
def execSupervisionSample (dt : Nat) (k : Fin 16) (smp : LampSample) (s : State) : Host.Outcome State Fault Refusal :=
  fieldRow dt (fun d => d.superviseLamp k.val smp) s

/-! The diagnostic slots (R308, R309). -/

/-- The field time lies in slot p, early enough for the whole pulse. -/
def Device.inSlot (d : Device) (p : Nat) : Bool :=
  let x := d.fieldNs % (10 * ms)
  decide (p * 625 * us ≤ x) && decide (x + 50 * us ≤ (p + 1) * 625 * us)

/-- The dark outputs that watch p's slot: with DIAG_EN, outside p's group (R309). -/
def Device.watchers (d : Device) (p : Nat) : List Nat :=
  let f := d.field
  (List.range 16).filter (fun k => !(f.clan p).contains k && leaderOf f.block k == k && !f.isLit k d.now && bDiag f.block k)

/-- A slot's inversion of output p with DIAG_EN, once a cycle: a gap while lit, PWM included, a pulse while dark; a pulse does not run in
UV_OFF or SAG_HOLD, nor on a switch held off by a fault stop (log entry 70). It ends, with its evidence, at the first tick 50 us later
(log entry 157). -/
def Device.diagSlot (d : Device) (p : Nat) (x : DiagSense) : Device :=
  let o := d.field.out p
  let g := d.field.group (p / 4)
  let gap := d.field.isLit p d.now
  let barred := g.uvOff || (!gap && (g.sagHold || o.latched || o.overTemp))
  if leaderOf d.field.block p != p || !bDiag d.field.block p || o.diagCyc == some d.diagCycle || !d.inSlot p || barred then d
  else
    let watch := d.watchers p
    let ovr := decide (senseFull o.lowRange ≤ x.ua)
    ((d.takeSlots 3 1).ranBackground 3 [(0x30 + p, ovr)]).modOut p (fun o => { o with
      diagCyc := some d.diagCycle, diagAt := d.now, diagRun := some ⟨gap, d.now, watch, x⟩
      gapAt := if gap then d.now + 50 * us else o.gapAt })

/-- DIAG_SLOT (R308). -/
def execDiagSlot (dt : Nat) (k : Fin 16) (diag : DiagSense) (s : State) : Host.Outcome State Fault Refusal :=
  fieldRow dt (fun d => d.diagSlot k.val diag) s

/-! Lit when commanded dark (R307, R310). -/

/-- LIT_MS of presence: E_LAMP_LIT with its evidence, once; evidence of the other kind that follows is added to it. With voltage the
attribution runs for one diagnostic cycle. -/
def Device.litVerdict (d : Device) (k : Nat) : Device :=
  let o := d.field.out k
  let n := cLitMs (d.field.cfg k)
  let volt : Bool := 100 * n ≤ o.litInt && d.commandedDark k
  let wit : Bool := 10 * n ≤ o.witInt && !o.witUnavail && !d.field.isLit k d.now
  let more := (volt && !o.elecLit) || (wit && !o.optIsLit)
  if n = 0 || leaderOf d.field.block k != k || !(more || ((volt || wit) && !o.litFault)) then d
  else
    let had := if o.litFault then o.litEvid else 0
    let evid := fields [(0, (volt || nbit had 0).toNat), (1, (wit || nbit had 1).toNat)]
    let attr : Bool := volt && !(o.litFault && o.elecLit)
    let d := (d.modOut k (fun o => { o with
      litFault := true, litEvid := evid, elecLit := volt || o.elecLit, optIsLit := wit || o.optIsLit, cleanN := 0
      attrAt := if attr then some d.now else o.attrAt, persisted := attr || o.persisted })).compareAt k
    if o.litFault then d else d.fieldEvent 0x0902 k (2 ^ 255 + evid * 2 ^ 253)

/-- LIT_WHEN_DARK (R307). -/
def execLitWhenDark (dt : Nat) (k : Fin 16) (s : State) : Host.Outcome State Fault Refusal := fieldRow dt (fun d => d.litVerdict k.val) s

/-! Current limit, over-temperature, cooling (R296). -/

/-- 20 ms in current limit outside the inrush mask. -/
def Device.limitTimeout (d : Device) (k : Nat) : Device :=
  let o := d.field.out k
  if o.switch && decide (o.onAt + cInrush (d.field.cfg k) + 20 * ms ≤ d.now) then d.limitStop k 1 else d

/-- CURRENT_LIMIT_TIMEOUT (R296). -/
def execCurrentLimitTimeout (dt : Nat) (k : Fin 16) (s : State) : Host.Outcome State Fault Refusal :=
  fieldRow dt (fun d => d.limitTimeout k.val) s

/-- SWITCH_OVERTEMP (R296): a switch that is on reaches 175 degC. -/
def execSwitchOvertemp (dt : Nat) (k : Fin 16) (s : State) : Host.Outcome State Fault Refusal :=
  fieldRow dt (fun d => if (d.field.out k.val).switch then d.limitStop k.val 2 else d) s

/-- A switch has cooled to 160 degC: it restarts if its command is still lit and it is not LATCHED. -/
def Device.cooled (d : Device) (k : Nat) : Device :=
  if (d.field.out k).overTemp then (d.modOut k (fun o => { o with overTemp := false })).drive k false else d

/-- SWITCH_COOLED (R296). -/
def execSwitchCooled (dt : Nat) (k : Fin 16) (s : State) : Host.Outcome State Fault Refusal := fieldRow dt (fun d => d.cooled k.val) s

/-! Clearing (R309, R312). -/

/-- CLEAN_MS has passed clean, with at least 8 items; or without evidence of CROSS. -/
def Device.cleanExpiry (d : Device) (k : Nat) : Device :=
  let o := d.field.out k
  let clean := bClean d.field.block
  let d := if 8 ≤ o.cleanN && decide (o.cleanAt + clean ≤ d.now) then d.clearClean k else d
  (o.partners.filter (fun p => decide (p.2 + clean ≤ d.now))).foldl (fun d p => d.clearCross k p.1) d

/-- CLEAN_MS_EXPIRY (R312). -/
def execCleanMsExpiry (dt : Nat) (k : Fin 16) (s : State) : Host.Outcome State Fault Refusal := fieldRow dt (fun d => d.cleanExpiry k.val) s

/-! VFIELD groups (R306). -/

/-- E_SAG_HOLD. -/
def sagPayload (began uv : Bool) (lowest len : Nat) : Nat :=
  fields [(255, began.toNat), (254, uv.toNat), (238, sat 0xFFFF (lowest / 10)), (206, sat 0xFFFFFFFF len)]

/-- An episode of a group begins, or goes on at a lower voltage. -/
def Device.sagEpisode (d : Device) (g mv : Nat) (uv : Bool) : Device :=
  match (d.field.group g).epAt with
  | some _ => d.modGroup g (fun x => { x with lowest := min x.lowest mv, uvSeen := x.uvSeen || uv })
  | none => (d.modGroup g (fun x => { x with epAt := some d.now, lowest := mv, uvSeen := uv })).fieldEvent 0x0905 g (sagPayload true uv mv 0)

/-- An episode ends once neither SAG_HOLD nor UV_OFF holds: reported and recorded. -/
def Device.sagClose (d : Device) (g : Nat) : Device :=
  let x := d.field.group g
  match x.epAt with
  | some t =>
    if x.sagHold || x.uvOff then d
    else
      let len := (d.now - t) / us
      (d.modGroup g (fun x => { x with epAt := none })).fieldRec 0x0905 g (sagPayload false x.uvSeen x.lowest len) 0x0009 sevFault
        (words [g, x.lowest / 10, x.uvSeen.toNat, sat 0xFFFFFFFF len])
  | none => d

/-- A group falls below SAG_LEVEL: SAG_HOLD. -/
def Device.sagBegin (d : Device) (g mv : Nat) : Device :=
  if bSag d.field.block ≤ mv || (d.field.group g).low then d.modGroup g (fun x => { x with mv := mv })
  else
    (d.modGroup g (fun x => { x with mv := mv, sagHold := true, sagAt := d.now, low := true, sagBelow := d.now })).sagEpisode g mv false

/-- SAG_BEGIN (R306). -/
def execSagBegin (dt : Nat) (g : Fin 4) (mv : Nat) (s : State) : Host.Outcome State Fault Refusal :=
  fieldRow dt (fun d => d.sagBegin g.val mv) s

/-- SAG_HOLD ends after 10 ms above SAG_LEVEL + 0.5 V or after 500 ms, whichever comes first. -/
def Device.sagEnd (d : Device) (g mv : Nat) : Device :=
  let level := bSag d.field.block
  let x := d.field.group g
  let d := d.modGroup g (fun x => { x with mv := mv, low := x.low && decide (mv < level) })
  let up : Bool := level + 500 < mv && x.sagBelow + 10 * ms ≤ d.now
  if x.sagHold && (up || decide (x.sagAt + 500 * ms ≤ d.now)) then (d.modGroup g (fun x => { x with sagHold := false })).sagClose g else d

/-- SAG_END (R306). -/
def execSagEnd (dt : Nat) (g : Fin 4) (mv : Nat) (s : State) : Host.Outcome State Fault Refusal := fieldRow dt (fun d => d.sagEnd g.val mv) s

/-- Below 7.0 V the group's outputs switch off, a fault stop (R306). -/
def Device.uvOff (d : Device) (g mv : Nat) : Device :=
  let d := d.modGroup g (fun x => { x with mv := mv })
  if 7000 ≤ mv || (d.field.group g).uvOff then d
  else
    let d := (d.modGroup g (fun x => { x with uvOff := true, soft := none, uvBelow := d.now })).sagEpisode g mv true
    [4 * g, 4 * g + 1, 4 * g + 2, 4 * g + 3].foldl (fun d k => d.outStop k) d

/-- UV_OFF (R306). -/
def execUvOff (dt : Nat) (g : Fin 4) (mv : Nat) (s : State) : Host.Outcome State Fault Refusal := fieldRow dt (fun d => d.uvOff g.val mv) s

/-- After 10 ms above 8.0 V soft-start begins. -/
def Device.uvRecover (d : Device) (g mv : Nat) : Device :=
  let d := d.modGroup g (fun x => { x with mv := mv })
  if (d.field.group g).uvOff && decide (8000 < mv) && decide ((d.field.group g).uvBelow + 10 * ms ≤ d.now) then
    (d.modGroup g (fun x => { x with uvOff := false, soft := some 0, softAt := d.now })).sagClose g
  else d

/-- UV_RECOVERY (R306). -/
def execUvRecovery (dt : Nat) (g : Fin 4) (mv : Nat) (s : State) : Host.Outcome State Fault Refusal :=
  fieldRow dt (fun d => d.uvRecover g.val mv) s

/-- The next lit output of a group in soft-start returns, its pattern from its start. -/
def Device.softStep (d : Device) (g : Nat) : Device :=
  let x := d.field.group g
  match x.soft with
  | none => d
  | some j =>
    if d.now < x.softAt then d
    else
      let lit := (List.range 4).find? (fun i => decide (j ≤ i) && leaderOf d.field.block (4 * g + i) == 4 * g + i &&
        (d.field.out (4 * g + i)).commanded)
      match lit with
      | none => d.modGroup g (fun x => { x with soft := none })
      | some i =>
        let k := 4 * g + i
        let d := d.modGroup g (fun x => { x with soft := if i = 3 then none else some (i + 1), softAt := d.now + ms })
        ((d.field.clan k).foldl (fun d j => d.modOut j (fun o => { o with patStart := d.now, pwmStart := d.now })) d).drive k false

/-- SOFT_START_STEP (R306). -/
def execSoftStartStep (dt : Nat) (g : Fin 4) (s : State) : Host.Outcome State Fault Refusal := fieldRow dt (fun d => d.softStep g.val) s

/-! Timers of an output. -/

/-- OUTPUT_STOP_DONE (R295): the output has risen above -1 V; the minimum off time is 20 us. -/
def execOutputStopDone (dt : Nat) (k : Fin 16) (s : State) : Host.Outcome State Fault Refusal :=
  fieldRow dt (fun d => if (d.field.out k.val).fn.st == .stopping then d.reachOff (outFn k.val) (20 * us) else d) s

/-- PATTERN_PHASE (R299): the output takes the phase its pattern is in now. -/
def execPatternPhase (dt : Nat) (k : Fin 16) (s : State) : Host.Outcome State Fault Refusal :=
  fieldRow dt (fun d => if eMode (d.field.out k.val).ent = 2 then d.drive k.val false else d) s

/-- PWM_PERIOD (R298): the output takes the part of its PWM period it is in now. -/
def execPwmPeriod (dt : Nat) (k : Fin 16) (s : State) : Host.Outcome State Fault Refusal :=
  fieldRow dt (fun d => if (d.field.out k.val).commanded then d.drive k.val true else d) s

end Sys2Proof.Machine
end

