-- ==== Sys2Proof/Machine/Aspects.lean ====
section
/-! DEFINITION. Aspect rules, the field block's checks and commit, and the output commands (R292, R293, R302, R303, R313, R314). -/

namespace Sys2Proof.Machine

open Sys2Proof

/-! Aspect rules (R302, R303). -/

/-- Rule i of a table: 64 bits. -/
def ruleOf (t : BitVec 4160) (i : Nat) : Nat := t.toNat / 2 ^ (64 + 64 * i) % 2 ^ 64

/-- Occupancy as the sealed core reads it (Table 12-1, class 8): an inconsistent block is discarded; after two in a row every zone
reads BLIND. -/
def Device.readOcc (d : Device) : Device :=
  if d.ret.occ.ok then
    (d.intact 8 0).modCore (fun c => { c with
      occ := .ofNat 64 (fld d.ret.occ.v 63 0), blind := .ofNat 64 (fld d.ret.occ.v 127 64), discards := 0 })
  else
    (d.integrity 8 0 2).modCore (fun c => { c with
      discards := c.discards + 1, blind := if 1 ≤ c.discards then ~~~(0 : BitVec 64) else c.blind })

/-- An input of Table 10-14. -/
def Device.ruleInput (d : Device) (i : Nat) : Bool :=
  if i < 64 then bit d.core.occ i
  else if i < 128 then bit d.core.blind (i - 64)
  else if i < 144 then bit d.core.frame i
  else if i < 160 then bit d.core.req (i - 144)
  else if i < 176 then bit d.core.frame (112 + (i - 160))
  else if i = 176 then !d.core.fieldOk
  else if i = 177 then d.fire.fn.st == .off && d.fire.fn.faultStop
  else i == 178

/-- A term holds: disabled, or its input differs from its negate bit. -/
def Device.term (d : Device) (t : Nat) : Bool := !nbit t 9 || (d.ruleInput (nfld t 7 0) != nbit t 8)

/-- A rule matches when all its enabled terms are true. -/
def Device.ruleMatches (d : Device) (r : Nat) : Bool :=
  d.term (nfld r 9 0) && d.term (nfld r 19 10) && d.term (nfld r 29 20) && d.term (nfld r 39 30)

/-- The first matching rule with its aspect and HOLD in ns; the default aspect as rule 64. -/
def Device.ruleSelect (d : Device) (t : BitVec 4160) : Nat × Nat × Nat :=
  match (List.range (nrules t)).find? (fun i => d.ruleMatches (ruleOf t i)) with
  | some i => (i, nfld (ruleOf t i) 63 59, nfld (ruleOf t i) 58 48 * 10 * ms)
  | none => (64, fld t 47 43, 0)

/-- The selection: it stands for its rule's HOLD unless an earlier rule matches. -/
def Device.reselect (d : Device) (t : BitVec 4160) : Device :=
  let m := d.ruleSelect t
  let c := d.core
  if m.1 = c.selRule && m.2.1 = c.sel then d.modCore (fun c => { c with selHold := m.2.2 })
  else if d.now < c.selAt + c.selHold && c.selRule ≤ m.1 then d
  else d.modCore (fun c => { c with selRule := m.1, sel := m.2.1, selHold := m.2.2, selAt := d.now })

/-- The aspect command with a CSEQ, RESUME set. -/
def aspectCmd (cseq aspect : Nat) : Pair 16 := Pair.of (.ofNat 16 (fields [(8, cseq % 256), (5, 1), (0, aspect % 32)]))

/-- A selection that differs from the command is sent with the next CSEQ; after a reset or a silence the selection is sent with the
CSEQ after the one echoed, even where it does not differ (R301, R303). -/
def Device.sendAspect (d : Device) : Device :=
  let c := d.core
  if c.resync then
    if c.fieldOk then d.modCore (fun c => { c with resync := false, cmd := aspectCmd (c.echo.toNat + 1) c.sel }) else d
  else if fld c.cmd.v 4 0 != c.sel then d.modCore (fun c => { c with cmd := aspectCmd (fld c.cmd.v 15 8 + 1) c.sel })
  else d

/-- One evaluation by the running sealed component. -/
def Device.evaluate (d : Device) : Device :=
  if d.sec.sealed.isNone then d
  else
    let d := (d.checkPair d.core.rules.ok 11 0 0).readOcc
    ((d.pendingEffect 5 false).reselect (d.core.rules.use 0)).sendAspect

/-! Checks of a field block (Tables 10-7 to 10-10, R297, R299, R313). -/

/-- Byte offset of the first failing field of a list. -/
def firstBad (l : List (Nat × Bool)) : Option Nat := (l.find? (fun p => p.2)).map (fun p => p.1)

/-- The header. -/
def hdrChecks (h : Nat) : List (Nat × Bool) :=
  [(0, nfld h 47 0 != 0), (8, outside (nfld h 79 64) 100 10000), (10, outside (nfld h 95 80) 90 400), (12, outside (nfld h 111 96) 10 10000)]

/-- GROUPING of an output is in its place (R297). -/
def groupingOk (b : BitVec 11392) (k : Nat) : Bool :=
  let g := cGroup (bOut b k)
  let isMember := fun j => cGroup (bOut b j) == 3
  if g = 0 then true
  else if g = 1 then k % 2 == 0 && isMember (k + 1)
  else if g = 2 then k % 4 == 0 && isMember (k + 1) && isMember (k + 2) && isMember (k + 3)
  else (k % 2 == 1 && cGroup (bOut b (k - 1)) == 1) || (k % 4 != 0 && cGroup (bOut b (k / 4 * 4)) == 2)

/-- SPARE names none, or a single other output that is OFF in every aspect and in the safe-state table (R313). -/
def spareOk (b : BitVec 11392) (k : Nat) : Bool :=
  let s := cSpare (bOut b k)
  s == 0x1F || (s < 16 && s != k && cGroup (bOut b s) == 0 && eMode (bSafe b s) == 0 &&
    (List.range 31).all (fun a => eMode (bAspect b (a + 1) s) == 0))

/-- An output configuration. -/
def outChecks (b : BitVec 11392) (k : Nat) : List (Nat × Bool) :=
  let c := bOut b k
  let o := 16 + 16 * k
  [(o, nfld c 3 0 != 0), (o, outside (cPwm c) 100 2000), (o + 2, 3 < cModel c), (o + 2, outside (cVref c) 90 600),
    (o + 4, 1500 * (clanOf b k).length < cInom c), (o + 6, cHi c < 105), (o + 7, outside (cLo c) 10 95),
    (o + 8, outside (cLitMs c) 1 100), (o + 9, nfld c 75 72 != 0), (o + 9, cDarkN c == 0), (o + 10, outside (nfld c 87 80) 1 50),
    (o + 12, !groupingOk b k), (o + 12, !spareOk b k), (o + 15, nbit c 122), (o + 15, nfld c 127 124 != 0)]

/-- A pattern (R299). -/
def patChecks (b : BitVec 11392) (n : Nat) : List (Nat × Bool) :=
  let p := bPat b n
  let o := 272 + 8 * n
  [(o + 3, pOn1 p == 0), (o + 6, outside (pPeriod p) 20 4095), (o + 6, pPeriod p < pLead p + pOn1 p + pGap p + pOn2 p), (o + 7, nfld p 63 60 != 0)]

/-- An output entry at a byte offset (R298); HOLD only in the safe-state table. -/
def entryChecks (e o : Nat) (safe : Bool) : List (Nat × Bool) :=
  [(o, (eMode e == 1 || eMode e == 2) && eDuty e == 0), (o + 1, nbit e 12), (o + 1, (if safe then 3 else 2) < eMode e)]

/-- The byte offset of a field block's first failing field. -/
def blockBadAt (b : BitVec 11392) : Option Nat :=
  firstBad (hdrChecks (bHdr b) ++ (List.range 16).flatMap (outChecks b) ++ (List.range 16).flatMap (patChecks b) ++
    (List.range 16).flatMap (fun k => entryChecks (bSafe b k) (400 + 2 * k) true) ++
    (List.range 31).flatMap (fun a => (List.range 16).flatMap (fun k => entryChecks (bAspect b (a + 1) k) (432 + 32 * a + 2 * k) false)))

/-! Writing and committing (R293). -/

/-- `lamp.block.write`: offset, then data, into the shadow. -/
def cmdBlockWrite : Cmd :=
  { id := 0x0940, form := fun p => 5 ≤ p.len, sealed := fun _ => true
    state := fun d _ => refuse (!d.core.loaded) sBadState
    content := fun _ p => refuse (1424 < p.word 0 + (p.len - 4)) sBadParam
    run := fun _ p d =>
      let lo := 8 * p.word 0
      let n := 8 * (p.len - 4)
      (d.modCore (fun c => { c with
        shadow := .ofNat 11392 (c.shadow.toNat - c.shadow.toNat / 2 ^ lo % 2 ^ n * 2 ^ lo + (p.drop 4).val * 2 ^ lo) }), .no sOk) }

/-- LAMP_BLOCK_WRITE (R293). -/
def execLampBlockWrite (dt : Nat) (o : Origin) (s : State) : Host.Outcome State Fault Refusal := wcpRow dt o cmdBlockWrite noOpen s

/-- The highest group allows an NVM commit to start (R405). -/
def Field.nvmOk (f : Field) : Bool := 9000 ≤ f.highest

/-- An NVM commit waits for its voltage from now; each that waits has its own second (R405). -/
def Device.nvmWaits (d : Device) (k : NvmKind) : Device :=
  { d with power := { d.power with nvmWait := d.power.nvmWait ++ [(k, d.now)] } }

/-- The first of a kind no longer waits; none of the kind does. -/
def Device.nvmFirst (d : Device) (k : NvmKind) : Device :=
  { d with power := { d.power with nvmWait := d.power.nvmWait.eraseP (fun w => w.1 == k) } }
def Device.nvmDone (d : Device) (k : NvmKind) : Device :=
  { d with power := { d.power with nvmWait := d.power.nvmWait.filter (fun w => w.1 != k) } }

/-- `lamp.block.commit`: the shadow is checked and sent over CHAN 0. -/
def cmdBlockCommit : Cmd :=
  { id := 0x0941, form := exactly 0, sealed := fun _ => true
    state := fun d _ => refuse (!d.core.fieldOk || !d.core.loaded) sBadState
    content := fun d _ => (blockBadAt d.core.shadow).map (fun o => (sBadParam, w32 o))
    run := fun c _ d =>
      let d := d.modEnd .core (fun e => { e with out := e.out ++ blockChunks d.core.shadow })
      let d := d.modCore (fun x => { x with commitAt := some d.now, commitBy := (c.session, c.slot) })
      (if d.field.nvmOk then d else d.nvmWaits .fieldBlock, .pend .fieldBlock) }

/-- LAMP_BLOCK_COMMIT (R293). -/
def execLampBlockCommit (dt : Nat) (o : Origin) (s : State) : Host.Outcome State Fault Refusal := wcpRow dt o cmdBlockCommit noOpen s

/-- The block received over CHAN 0. -/
def Field.received (f : Field) : BitVec 11392 := .ofNat 11392 (Bytes.cat (f.end_.inbox.take 26)).val

/-- An output under a new block: with configuration and entry unchanged it continues; else its supervision history and fault bits are
reset (R293). A commit ends LATCHED (R296). -/
def Field.reborn (f old : Field) (k : Nat) : Output :=
  let o := f.out k
  let e := f.entryOf (f.table f.safe) k
  let same := bOut old.block k == bOut f.block k && (e == o.ent || eMode e == 3)
  if same then { o with latched := false, stops := if o.latched then [] else o.stops }
  else { fn := o.fn, entry := o.entry, source := o.source, patStart := o.patStart, pwmStart := o.pwmStart, switch := o.switch,
         onAt := o.onAt, offAt := o.offAt, diagAt := o.diagAt, gapAt := o.gapAt, diagCyc := o.diagCyc, edgeAt := o.edgeAt,
         smpKey := o.smpKey, overTemp := o.overTemp, rb := o.rb, rbBefore := o.rbBefore, ua := o.ua, mv := o.mv, groupMv := o.groupMv, lowRange := o.lowRange, rangeChg := o.rangeChg }

/-- A block written to the inactive copy, the pointer switched, and the block applied at one tick; every remap is cleared. -/
def Device.applyBlock (d : Device) (b : BitVec 11392) : Device :=
  let old := d.field
  let i := 1 - old.blockPtr.v.toNat % 2
  let d := d.modField (fun f => { f with
    blocks := vset f.blocks i (Pair.of b), blockPtr := Pair.of (.ofNat 32 i), block := b, blockBad := false, remaps := 0, remapNvm := 0
    remapDue := [] })
  let d := d.modField (fun f => { f with outs := Vector.ofFn (fun k : Fin 16 => f.reborn old k.val) })
  d.applyAll d.field.safe (d.field.out 0).source

/-- What the core side makes of a committed block: the sealed change, its record and the completion; or the confirmation of a
safe-default block (R376). -/
def Device.blockCommitted (d : Device) (b : BitVec 11392) (old : Nat) : Device :=
  let by_ := d.core.commitBy
  let d := (d.modCore (fun c => { c with commitAt := none })).nvmDone .fieldBlock
  if d.sec.blockDefaultDue && b == Config.blockDefault then { d with sec := { d.sec with blockDefaultDue := false } }
  else
    let d := d.record 0x000F 0 sevSafety ((w32 (nfld (bHdr b) 127 112)).app (.mk' 16 (digest128 (.mk' 1424 b.toNat))))
    (d.sealChange ⟨by_.1, by_.2, 0, .spi, true⟩ 0x0941 4 old).complete .fieldBlock sOk Bytes.nil

/-- A commit whose voltage has fallen waits from then (R405). -/
def Device.blockWaits (d : Device) : Device :=
  if d.core.commitAt.isNone || d.field.nvmOk || d.power.nvmWait.any (fun w => w.1 == .fieldBlock) then d else d.nvmWaits .fieldBlock

/-- The block has been received whole and the supply allows the commit: it is checked again, written and applied. -/
def Device.commitDone (d : Device) : Device :=
  if d.field.end_.inbox.length < 26 then d
  else if !d.field.nvmOk then d.blockWaits
  else
    let b := d.field.received
    let old := digest128 (d.sealedValue 4)
    let d := d.modEnd .field (fun e => { e with inbox := e.inbox.drop 26 })
    if b != Config.blockDefault && (blockBadAt b).isSome then
      (d.modCore (fun c => { c with commitAt := none })).complete .fieldBlock sBadParam Bytes.nil
    else
      let d := d.applyBlock b
      if d.core.commitAt.isSome then d.blockCommitted b old else d

/-- FIELD_BLOCK_COMMIT_DONE (R292). -/
def execFieldBlockCommitDone (dt : Nat) (s : State) : Host.Outcome State Fault Refusal := fieldRow dt Device.commitDone s

/-! Queries and the other commands (Table 10-17). -/

/-- Function state word, status word, last current in mA, group voltage in 10 mV, witness count of one output. -/
def Device.lampStatus (d : Device) (k : Nat) : Bytes :=
  let o := d.field.out k
  words [o.fn.word d.now (20 * us), d.field.statusWord k d.now, sat 0xFFFFFFFF (o.ua / 1000), sat 0xFFFFFFFF ((d.field.group (k / 4)).mv / 10), o.wit]

/-- `lamp.status.get`. -/
def cmdLampStatus : Cmd :=
  { id := 0x0900, form := exactly 4, state := needsField
    content := fun _ p => refuse (15 < p.word 0 && p.word 0 != 0xFF) sBadParam
    run := fun _ p d =>
      (d, .ok (if p.word 0 = 0xFF then .cat ((List.range 16).map (fun k => d.lampStatus k)) else d.lampStatus (p.word 0))) }

/-- LAMP_STATUS_GET (R314). -/
def execLampStatusGet (dt : Nat) (o : Origin) (s : State) : Host.Outcome State Fault Refusal := wcpRow dt o cmdLampStatus noOpen s

/-- `lamp.block.get`: bit 31 of the offset names the shadow. -/
def cmdBlockGet : Cmd :=
  { id := 0x0901, form := exactly 8
    state := fun d p => if nbit (p.word 0) 31 then refuse (!d.core.loaded) sBadState else needsField d p
    content := fun _ p => refuse (1424 < p.word 0 % 2 ^ 31 + p.word 1) sBadParam
    run := fun _ p d =>
      let shadow := nbit (p.word 0) 31
      let b := if shadow then d.core.shadow else d.field.block
      (d, answerPair (shadow || !d.field.blockBad) ((Bytes.mk' 1424 b.toNat).slice (p.word 0 % 2 ^ 31) (p.word 1))) }

/-- LAMP_BLOCK_GET (R314). -/
def execLampBlockGet (dt : Nat) (o : Origin) (s : State) : Host.Outcome State Fault Refusal := wcpRow dt o cmdBlockGet noOpen s

/-- `lamp.rules.get`. -/
def cmdRulesGet : Cmd :=
  { id := 0x0902, form := exactly 0
    run := fun _ _ d =>
      let t := d.core.rules.use 0
      (d, answerPair d.core.rules.ok (.mk' (8 + 8 * nrules t) t.toNat)) }

/-- LAMP_RULES_GET (R314). -/
def execLampRulesGet (dt : Nat) (o : Origin) (s : State) : Host.Outcome State Fault Refusal := wcpRow dt o cmdRulesGet noOpen s

/-- `bridge.status.get`. -/
def cmdBridgeStatus : Cmd := .query 0x0903 (exactly 0) (fun _ _ => none) (fun d _ =>
  let e := d.core.end_
  let off : Int := (d.fieldNs : Int) - d.time.ns.toNat
  (words [e.sentC, e.sentB, e.recvC, e.recvB, e.crcFail, e.compFail, e.repeats, d.core.episodes, sat 0xFFFFFFFF (d.core.longest / us)]).app
    ((wInt off).app (words [fld d.core.frame 20 16, fld d.core.frame 31 24])))

/-- BRIDGE_STATUS_GET (R314). -/
def execBridgeStatusGet (dt : Nat) (o : Origin) (s : State) : Host.Outcome State Fault Refusal := wcpRow dt o cmdBridgeStatus noOpen s

/-- A rule table outside R302. -/
def rulesBad (p : Bytes) : Bool :=
  let t := BitVec.ofNat 4160 p.val
  nfld p.val 35 0 != 0 || 64 < nfld p.val 42 36 || p.len != 8 + 8 * nfld p.val 42 36 ||
    (List.range (nrules t)).any (fun i => nfld (ruleOf t i) 47 40 != 0)

/-- `lamp.rules.set`: applies at the next evaluation. -/
def cmdRulesSet : Cmd :=
  { id := 0x0942, form := fun p => 8 ≤ p.len && 8 + 8 * nfld p.val 42 36 ≤ p.len, sealed := fun _ => true
    content := fun _ p => refuse (rulesBad p) sBadParam
    run := fun c p d =>
      let old := digest128 (d.sealedValue 5)
      let d := d.mram false (fun d => d.modCore (fun c => { c with rules := c.rules.put (.ofNat 4160 p.val) }))
      ((d.pendingEffect 5 true).sealChange c 0x0942 5 old, .no sOk) }

/-- LAMP_RULES_SET (R302). -/
def execLampRulesSet (dt : Nat) (o : Origin) (s : State) : Host.Outcome State Fault Refusal := wcpRow dt o cmdRulesSet noOpen s

/-- `lamp.request.set`: mask and value. -/
def cmdRequestSet : Cmd :=
  { id := 0x0943, form := exactly 8
    content := fun _ p => refuse (65535 < p.word 0 || 65535 < p.word 1) sBadParam
    run := fun _ p d =>
      let m := BitVec.ofNat 16 (p.word 0)
      (d.modCore (fun c => { c with req := (c.req &&& ~~~m) ||| (BitVec.ofNat 16 (p.word 1) &&& m) }), .no sOk) }

/-- LAMP_REQUEST_SET (R303). -/
def execLampRequestSet (dt : Nat) (o : Origin) (s : State) : Host.Outcome State Fault Refusal := wcpRow dt o cmdRequestSet noOpen s

/-- LATCHED cleared on an output; it returns if its command is lit. -/
def Device.clearLatched (d : Device) (k : Nat) : Device :=
  if (d.field.out k).latched then
    ((d.modOut k (fun o => { o with latched := false, stops := [] })).fieldEvent 0x0907 k (3 * 2 ^ 252)).drive k false
  else d

/-- `lamp.fault.clear`. -/
def cmdFaultClear : Cmd :=
  { id := 0x0944, form := exactly 4, state := needsField
    content := fun _ p => refuse (15 < p.word 0) sBadParam
    run := fun _ p d => (d.clearLatched (p.word 0), .no sOk) }

/-- LAMP_FAULT_CLEAR (R296). -/
def execLampFaultClear (dt : Nat) (o : Origin) (s : State) : Host.Outcome State Fault Refusal := wcpRow dt o cmdFaultClear noOpen s

/-- A remap or its withdrawal commanded: at the next tick; its storage may wait for the supply (R313, R405). -/
def Device.askRemap (d : Device) (k : Nat) (set : Bool) : Device × Answer :=
  let d := d.modField (fun f => { f with remapDue := f.remapDue ++ [{ out := k, set, auto := false, at_ := d.now }] })
  if d.field.nvmOk then (d, .no sOk) else (d.nvmWaits .remap, .pend (.remap k))

/-- `lamp.remap.set`: of an output that is DARK, SHORT_VF or LATCHED. -/
def cmdRemapSet : Cmd :=
  { id := 0x0945, form := exactly 4
    state := fun d p =>
      let o := d.field.out (p.word 0)
      match needsField d p with
      | some r => some r
      | none => refuse (p.word 0 < 16 && d.field.canRemap (p.word 0) && !(o.darkFault || o.shortVf || o.latched)) sBadState
    content := fun d p => refuse (15 < p.word 0 || !d.field.canRemap (p.word 0) || leaderOf d.field.block (p.word 0) != p.word 0) sBadParam
    run := fun _ p d => d.askRemap (p.word 0) true }

/-- LAMP_REMAP_SET (R313). -/
def execLampRemapSet (dt : Nat) (o : Origin) (s : State) : Host.Outcome State Fault Refusal := wcpRow dt o cmdRemapSet noOpen s

/-- `lamp.remap.clear`. -/
def cmdRemapClear : Cmd :=
  { id := 0x0946, form := exactly 4, state := needsField
    content := fun _ p => refuse (15 < p.word 0) sBadParam
    run := fun _ p d => if bit d.field.remaps (p.word 0) then d.askRemap (p.word 0) false else (d, .no sOk) }

/-- LAMP_REMAP_CLEAR (R313). -/
def execLampRemapClear (dt : Nat) (o : Origin) (s : State) : Host.Outcome State Fault Refusal := wcpRow dt o cmdRemapClear noOpen s

end Sys2Proof.Machine
end

