-- ==== Sys2Proof/Machine/Inputs.lean ====
section
/-! DEFINITION. Digital inputs, period records and the field FIFO (R315-R323, R337, R349). -/

namespace Sys2Proof.Machine

open Sys2Proof

/-! Configuration (R318, Table 11-2). -/

/-- PQUEUE and the block of input k of a configuration. -/
def inQueue (c : BitVec 1088) : Nat := fld c 15 0
def inBlock (c : BitVec 1088) (k : Nat) : BitVec 64 := .ofNat 64 (c.toNat / 2 ^ (64 + 64 * k))

/-- Fields of an input's block. -/
def iTmo (b : BitVec 64) : Nat := fld b 63 48 * ms
def iNedge (b : BitVec 64) : Nat := fld b 47 40
def iThresh (b : BitVec 64) : Nat := fld b 39 32
def iSample (b : BitVec 64) : Nat := fld b 31 16
def iEvt (b : BitVec 64) : Bool := bit b 11
def iPeriod (b : BitVec 64) : Bool := bit b 10
def iWb (b : BitVec 64) : Bool := bit b 9
def iType3 (b : BitVec 64) : Bool := bit b 8
def iVnom (b : BitVec 64) : Nat := fld b 7 6
def iLimited (b : BitVec 64) : Bool := bit b 5
def iInvert (b : BitVec 64) : Bool := bit b 4
def iEn (b : BitVec 64) : Bool := bit b 0

/-- V_ON and V_OFF in mV (Table 11-1). -/
def vOn (b : BitVec 64) : Nat := (if iType3 b then 5500 else 7500) * 2 ^ iVnom b
def vOff (b : BitVec 64) : Nat := 2500 * 2 ^ iVnom b

/-- A block outside Table 11-2, or PULSED below 100 us (R317). -/
def inBlockBad (b : BitVec 64) : Bool :=
  reservedSet b.toNat [(15, 12), (3, 1)] || iVnom b == 3 || outside (iSample b) 1 1000 || iThresh b == 0 || iNedge b == 0 ||
    outside (fld b 63 48) 1 10000 || (!iLimited b && iSample b < 10)

/-- A configuration is not acceptable. -/
def Device.inCfgBad (d : Device) (c : BitVec 1088) : Bool :=
  fld c 63 16 != 0 || (List.range 16).any (fun k => inBlockBad (inBlock c k)) ||
    (inQueue c != 0xFFFF && d.bindFails (inQueue c) 0x06 .inputs)

/-! The field FIFO (R337). -/

/-- Bytes held. -/
def Field.fifoLevel (f : Field) : Nat := (f.fifo.map (fun u => u.len)).sum - f.fifoSent

/-- A unit offered to the FIFO of 16 KiB behind its header; where it does not fit whole it is discarded and counted under SOURCE. -/
def Device.offerUnit (d : Device) (queue : Nat) (period cut : Bool) (seq count time : Nat) (body : Bytes) : Device :=
  let n := (mget queue d.field.unitNo).getD 0
  let unit := (chunkHeader queue period cut seq count n (d.fieldNs / us) time).app body
  if d.field.fifoLevel + unit.len ≤ 16384 then
    d.modField (fun f => { f with fifo := f.fifo ++ [unit], unitNo := mset queue ((n + 1) % 4) f.unitNo })
  else (d.modField (fun f => { f with fifoLost := f.fifoLost + 1 })).fieldMsg (.lost queue)

/-- The period records gathered make a unit. -/
def Device.closePeriods (d : Device) : Device :=
  let rs := d.field.recs
  if rs.isEmpty then d
  else (d.modField (fun f => { f with recs := [] })).offerUnit (inQueue d.field.inCfg) true false 0 rs.length 0
    (.cat (rs.map (fun r => Bytes.mk' 8 r.toNat)))

/-- PERIOD_UNIT_CLOSE (R337): 100 ms after its first record. -/
def execPeriodUnitClose (dt : Nat) (s : State) : Host.Outcome State Fault Refusal :=
  fieldRow dt (fun d => if d.field.recsAt + 100 * ms ≤ d.now then d.closePeriods else d) s

/-- A configuration committed to the inactive copy, its pointer switched (R292, R318), and its queue bound; records gathered for another
queue are a unit of that one. -/
def Device.storeInputs (d : Device) (c : BitVec 1088) : Device :=
  let old := inQueue d.field.inCfg
  let d := if old = inQueue c then d else d.closePeriods
  let i := 1 - d.field.inPtr.v.toNat % 2
  let d := d.modField (fun f => { f with
    inCfgs := vset f.inCfgs i (Pair.of c), inPtr := Pair.of (.ofNat 32 i), inCfg := c })
  d.bind .inputs old (inQueue c)

/-- `in.config.set`; below 9.0 V it waits (R405). -/
def cmdInConfigSet : Cmd :=
  { id := 0x0A40, form := exactly 136, state := needsField
    content := fun d p => refuse (d.inCfgBad (.ofNat 1088 p.val)) sBadParam
    run := fun _ p d =>
      let c := BitVec.ofNat 1088 p.val
      if d.field.nvmOk then (d.storeInputs c, .no sOk)
      else ((d.modField (fun f => { f with inCfgNext := f.inCfgNext ++ [c] })).nvmWaits .inputs, .pend .inConfig) }

/-- IN_CONFIG_SET (R318). -/
def execInConfigSet (dt : Nat) (o : Origin) (s : State) : Host.Outcome State Fault Refusal := wcpRow dt o cmdInConfigSet noOpen s

/-- The stored copy in use passes its check (R352). -/
def Field.inputsOk (f : Field) : Bool := f.inPtr.ok && (vget f.inCfgs (f.inPtr.v.toNat % 2) ⟨0, 0⟩).ok

/-- `in.config.get`. -/
def cmdInConfigGet : Cmd :=
  { id := 0x0A01, form := exactly 0, state := needsField
    run := fun _ _ d => (d, answerPair d.field.inputsOk (.mk' 136 d.field.inCfg.toNat)) }

/-- IN_CONFIG_GET (R349). -/
def execInConfigGet (dt : Nat) (o : Origin) (s : State) : Host.Outcome State Fault Refusal := wcpRow dt o cmdInConfigGet noOpen s

/-- Input k. -/
def Field.input (f : Field) (k : Nat) : Input := vget f.inputs k {}
def Device.modIn (d : Device) (k : Nat) (g : Input → Input) : Device := d.modField (fun f => { f with inputs := vmod f.inputs k g })

/-- A period record of input k (Table 11-10): kept as its latest, and gathered for PQUEUE up to 16. -/
def Device.periodRecord (d : Device) (k mean edges : Nat) (timeout : Bool) : Device :=
  let r := BitVec.ofNat 64 (fields [(32, sat 0xFFFFFFFF mean), (16, edges), (8, timeout.toNat), (0, k)])
  let d := d.modIn k (fun i => { i with last := r, ptmo := timeout })
  if inQueue d.field.inCfg = 0xFFFF then d
  else
    let d := d.modField (fun f => { f with recs := f.recs ++ [r], recsAt := if f.recs.isEmpty then d.now else f.recsAt })
    if 16 ≤ d.field.recs.length then d.closePeriods else d

/-! Samples (R319-R322). -/

/-- Class of a sample: 1 OPEN, 2 HIGH, 3 LOW, 4 UNDEF. -/
def inClass (b : BitVec 64) (mv ua : Nat) : Nat :=
  if iWb b && ua < 300 then 1 else if vOn b ≤ mv then 2 else if mv ≤ vOff b then 3 else 4

/-- The current an input's sink takes from its pin in uA (R315): V / 2 kOhm, at most 2.5 mA LIMITED, 5 mA PULSED. -/
def inCurrent (b : BitVec 64) (mv : Nat) : Nat := min (mv / 2) (if iLimited b then 2500 else 5000)

/-- Field time at which the present sample period of input k began: a multiple of SAMPLE, offset by k x 625 ns (R319). -/
def inPeriodStart (b : BitVec 64) (k ns : Nat) : Nat :=
  let t := max 1 (iSample b) * 10 * us
  ns - (ns + t - 625 * k % t) % t

/-- The sink of input k is on (R315): continuously for LIMITED, in the first 20 us of each sample period for PULSED; off while the input
is disabled. -/
def Field.sinkOn (f : Field) (k ns : Nat) : Bool :=
  let b := (vget f.inputs k {}).cfg
  iEn b && (iLimited b || decide (ns < inPeriodStart b k ns + 20 * us))

/-- The instant of input k's sample has come, once in each period: its start for LIMITED, 18 us into the window for PULSED, each for
the 625 ns up to the next input's. -/
def Device.inDue (d : Device) (k : Nat) : Bool :=
  let i := vget d.field.inputs k {}
  let t := inPeriodStart i.cfg k d.fieldNs
  let at_ := if iLimited i.cfg then t else t + 18 * us
  i.sampledAt != some t && decide (at_ ≤ d.fieldNs) && decide (d.fieldNs < at_ + 625)

/-- A changed configuration applies at the next sample: EVT_EN, PERIOD, NEDGE and PERIOD_TMO alone leave the filter; anything else
restarts the input, and with PERIOD set its measurement and timeout. -/
def Input.adopt (i : Input) (b : BitVec 64) (now : Nat) : Input :=
  if b == i.cfg then i
  else
    let filter := fun (x : BitVec 64) => x.toNat % 2 ^ 40 / 2 ^ 12 * 2 ^ 12 + fld x 9 0
    let same := filter b == filter i.cfg
    let i' : Input := if same then i else { last := i.last, ptmo := i.ptmo, sampledAt := i.sampledAt }
    let measured := iPeriod b && !(same && iPeriod i.cfg)
    { i' with cfg := b, rise := if measured then none else i'.rise, sum := if measured then 0 else i'.sum, n := if measured then 0 else i'.n
              tmoAt := if measured then some now else i'.tmoAt }

/-- STATE as everybody reads it: 0 while WIREBREAK is set. -/
def Input.shown (i : Input) : Bool := i.state && !i.wire

/-- The counters C and W take one sample's class (R320). -/
def Input.count (i : Input) (cls : Nat) : Input :=
  let top := iThresh i.cfg
  let c := if cls = 2 then sat top (i.c + 1) else if cls = 3 then i.c - 1 else i.c
  let w := if cls = 1 then sat top (i.w + 1) else i.w - 1
  let moved := cls == 2 || cls == 3
  { i with
    cls := cls, c := c, w := w
    state := if moved && c == top then !iInvert i.cfg else if moved && c == 0 then iInvert i.cfg else i.state
    wire := if w = top then true else if w = 0 then false else i.wire }

/-- A 0-to-1 transition of STATE under PERIOD (R322): after NEDGE periods a record holds their mean. -/
def Device.inRise (d : Device) (k : Nat) : Device :=
  let t := d.fieldNs / us
  let i := d.field.input k
  let d := d.modIn k (fun i => { i with tmoAt := some d.now, rise := some t })
  match i.rise with
  | none => d.modIn k (fun i => { i with sum := 0, n := 0 })
  | some r =>
    let n := i.n + 1
    let sum := i.sum + (t - r)
    if n < iNedge i.cfg then d.modIn k (fun i => { i with sum := sum, n := n })
    else (d.modIn k (fun i => { i with sum := 0, n := 0 })).periodRecord k (roundDiv sum n) n false

/-- What a sample changed is reported (R321) and measured, a restart by a new configuration included. -/
def Device.inChanges (d : Device) (k : Nat) (old : Input) : Device :=
  let i := d.field.input k
  let d := if i.wire != old.wire then d.fieldMsg (.event 0x0A02 k (i.wire.toNat * 2 ^ 255) (.ofNat 64 d.fieldStamp) none) else d
  let changed := i.shown != old.shown
  let d := if changed && iEvt i.cfg then
      d.fieldLimited 0x0A01 k 0 (10 * ms) (i.shown.toNat * 2 ^ 255 + d.fieldStamp % 2 ^ 32 * 2 ^ 223) 0
    else d
  if changed && i.shown && iPeriod i.cfg then d.inRise k else d

/-- One sample of input k at its instant: the pin voltage, and the current the sink takes at it. -/
def Device.inSample (d : Device) (k mv : Nat) : Device :=
  if !d.inDue k then d
  else
    let old := d.field.input k
    let t := inPeriodStart old.cfg k d.fieldNs
    let d := d.modIn k (fun i => { i.adopt (inBlock d.field.inCfg k) d.now with sampledAt := some t })
    let d := if iEn (d.field.input k).cfg then d.modIn k (fun i => i.count (inClass i.cfg mv (inCurrent i.cfg mv))) else d
    d.inChanges k old

/-- INPUT_SAMPLE (R320). -/
def execInputSample (dt : Nat) (k : Fin 16) (mv : Nat) (s : State) : Host.Outcome State Fault Refusal :=
  fieldRow dt (fun d => d.inSample k.val mv) s

/-- No transition for PERIOD_TMO: one record with TIMEOUT; the next transition starts a new measurement (R322). -/
def Device.periodTimeout (d : Device) (k : Nat) : Device :=
  let i := d.field.input k
  match i.tmoAt with
  | none => d
  | some t =>
    if !iPeriod i.cfg || d.now < t + iTmo i.cfg then d
    else (d.modIn k (fun i => { i with tmoAt := none, rise := none, sum := 0, n := 0 })).periodRecord k 0 0 true

/-- PERIOD_TIMEOUT (R322). -/
def execPeriodTimeout (dt : Nat) (k : Fin 16) (s : State) : Host.Outcome State Fault Refusal := fieldRow dt (fun d => d.periodTimeout k.val) s

/-- Input status word (Table 11-3). -/
def Input.word (i : Input) : Nat :=
  fields [(24, i.w), (16, i.c), (5, i.ptmo.toNat), (4, (i.cls == 4).toNat), (3, (i.cls == 1).toNat), (2, (i.cls == 2).toNat),
    (1, i.wire.toNat), (0, i.shown.toNat)]

/-- `in.status.get`. -/
def cmdInStatus : Cmd :=
  { id := 0x0A00, form := exactly 0, state := needsField
    run := fun _ _ d =>
      let f := d.field
      (d, .ok (((words (f.inputs.toList.map Input.word)).app (w32 f.readback.toNat)).app
        ((Bytes.cat (f.inputs.toList.map (fun i => w64 i.last.toNat))).app (w32 (inQueue f.inCfg))))) }

/-- IN_STATUS_GET (R349). -/
def execInStatusGet (dt : Nat) (o : Origin) (s : State) : Host.Outcome State Fault Refusal := wcpRow dt o cmdInStatus noOpen s

end Sys2Proof.Machine
end

