-- ==== Sys2Proof/Machine/Adc.lean ====
section
/-! DEFINITION. The converters, their corrections and calibration, excitation and blanking (R324-R330, R341-R348). -/

namespace Sys2Proof.Machine

open Sys2Proof

/-! Converters. -/

/-- The functions of a converter and of a sequence. -/
def convFn (c : Nat) : FnId := .adc (Fin.ofNat 4 c)
def seqFn (q : Nat) : FnId := .seq (Fin.ofNat 4 q)

/-- Minimum off times of converters, sequences and EXC_POL (R327, R335, R342). -/
def convOff : Nat := 20 * us
def seqOff : Nat := 10 * us
def excOff : Nat := ms

/-- E_ADC_STATE: converter 0-3, sequence 4-7, EXC_POL 8. -/
def Device.adcEvent (d : Device) (i : FnId) (source minOff : Nat) : Device :=
  d.fieldEvent 0x0B04 source ((d.getFn i).word d.now minOff * 2 ^ 224)
def Device.convEvent (d : Device) (c : Nat) : Device := d.adcEvent (convFn c) c convOff
def Device.seqEvent (d : Device) (q : Nat) : Device := d.adcEvent (seqFn q) (4 + q) seqOff
def Device.excEvent (d : Device) : Device := d.adcEvent .exc 8 excOff

/-- Corrections have not converged since the converter's start; taken as the full 100 ms of R325 (DESIGN CHOICE, log entry 72). -/
def Conv.unconverged (c : Conv) (now : Nat) : Bool := now < c.startAt + 100 * ms

/-! Paths with system coefficients (R345), numbered in the model's own order (log entry 73): AIN0-AIN5 in R2V5 (0-5) and in R30V
(6-11), the three pairs (12-14), the two loops (15, 16). -/

def pathOf (mux range : Nat) : Option Nat :=
  if mux ≤ 5 then some (if range = 1 then 6 + mux else mux)
  else if 0x08 ≤ mux ∧ mux ≤ 0x0A then some (12 + (mux - 8))
  else if mux = 0x40 ∨ mux = 0x41 then some (15 + (mux - 0x40))
  else none

/-- The stored pair of a path; a pointer that fails its check fails every path. -/
def Field.coeffPair (f : Field) (path : Nat) : Pair 64 :=
  if f.coeffPtr.ok then vget (vget f.coeffs (f.coeffPtr.v.toNat % 2) (Vector.replicate 17 ⟨0, 0⟩)) path ⟨0, 0⟩ else ⟨0, 0⟩

/-- Coefficients of a path in use, and whether they are the safe default. -/
def Field.coeffUse (f : Field) (path : Nat) : BitVec 64 × Bool := ((f.coeffPair path).use Config.coeffDefault, !(f.coeffPair path).ok)

/-- clamp((raw - OFFSET) * GAIN / 32,768); the quotient is rounded down (DESIGN CHOICE, log entry 74). -/
def correct (k : BitVec 64) (raw : Nat) : Nat :=
  let x := ((raw : Int) - sgn 32 (fld k 31 0)) * fld k 63 32 / 32768
  if x < 0 then 0 else sat 0xFFFF x.toNat

/-! Slices (R325, R326, R368). -/

/-- A sequence stops under R22: its run ends at the next entry boundary. -/
def Device.seqFault (d : Device) (q : Nat) : Device :=
  let on := (d.field.seq q).fn.st == .on
  let d := (d.faultStop (seqFn q) second).modSeq q (fun x => { x with held := none, run := x.run.map (fun r => { r with cut := true }) })
  if on then d.seqEvent q else d

/-- A slice is taken out of use: E_ADC_SLICE, its mark, and, with a converter and its partner out of service, the stop of every
sequence that uses either. -/
def Device.sliceOut (d : Device) (c : Nat) (b : Bool) : Device :=
  let d := d.modConv c (fun x => if b then { x with usableB := false } else { x with usableA := false })
  let code := if (d.field.conv c).usable then 0 else if (d.field.conv (partner c)).usable then 1 else 2
  let d := (d.fieldMsg (.mark 8 (2 * c + b.toNat))).fieldEvent 0x0B05 c (code * 2 ^ 254 + b.toNat * 2 ^ 253)
  if code = 2 then
    (List.range 4).foldl (fun d q =>
      if (d.field.seq q).uses c || (d.field.seq q).uses (partner c) then d.seqFault q else d) d
  else d

/-- A background check of one slice, once every 1 ms in slots of its converter's schedule (R325): offset and gain are tracked from the
reference and FGND, skew from the signal; in 10 consecutive checks beyond 256 codes or 1 % of its test
values the slice is unusable (R368). -/
def Device.background (d : Device) (c : Nat) (b : Bool) (offset gain skew : Int) : Device :=
  let x := d.field.conv c
  if d.now < (if b then x.bgB else x.bgA) + ms then d
  else
    let unit := 2 * c + b.toNat
    let dg := gain - Config.adcTestGain unit
    let drift : Bool := 256 < (offset - Config.adcTestOffset unit).natAbs || (Config.adcTestGain unit).natAbs < 100 * dg.natAbs
    let n := if drift then (if b then x.driftB else x.driftA) + 1 else 0
    let d := ((d.takeSlots c 2).ranBackground c [(0x48, false), (0x49, false)]).modConv c (fun x =>
      if b then { x with offB := offset, gainB := gain, driftB := n, skew := skew, bgB := d.now }
      else { x with offA := offset, gainA := gain, driftA := n, skew := skew, bgA := d.now })
    if 10 ≤ n && (if b then x.usableB else x.usableA) then d.sliceOut c b else d

/-- BACKGROUND_CALIBRATION (R325). -/
def execBackgroundCalibration (dt : Nat) (c : Fin 4) (b : Bool) (offset gain skew : Int) (s : State) : Host.Outcome State Fault Refusal :=
  fieldRow dt (fun d => d.background c.val b offset gain skew) s

/-! Converter commands (R324, R327). -/

/-- A policy block is not acceptable. -/
def convCfgBad (c v : Nat) : Bool :=
  3 < c || reservedSet v [(31, 8), (6, 2)] || nfld v 1 0 == 3 || (nfld v 1 0 == 1 && 2 ≤ c) || (nbit v 7 && c != 0)

/-- `adc.config.set`. -/
def cmdAdcConfigSet : Cmd :=
  { id := 0x0B40, form := exactly 8
    state := fun d p =>
      match needsField d p with
      | some r => some r
      | none =>
        let c := p.word 0
        let pairing := c == 0 && nbit (p.word 1) 7 != d.field.paired
        refuse (c < 4 && ((d.field.conv c).fn.st != .off || (pairing && (d.field.conv 1).fn.st != .off))) sBadState
    content := fun _ p => refuse (convCfgBad (p.word 0) (p.word 1)) sBadParam
    run := fun _ p d => (d.modConv (p.word 0) (fun x => { x with cfg := .ofNat 32 (p.word 1) }), .no sOk) }

/-- ADC_CONFIG_SET (R324). -/
def execAdcConfigSet (dt : Nat) (o : Origin) (s : State) : Host.Outcome State Fault Refusal := wcpRow dt o cmdAdcConfigSet noOpen s

/-- STARTING: power-up and reference settling. -/
def Device.convStart (d : Device) (c : Nat) : Device := (d.modConv c (fun x => { x with startAt := d.now })).convEvent c

/-- `adc.enable`. -/
def cmdAdcEnable : Cmd :=
  { id := 0x0B41, form := exactly 4, state := needsField
    hw := fun d p => p.word 0 < 4 && d.field.outOfService (p.word 0)
    content := fun _ p => refuse (3 < p.word 0) sBadParam
    run := fun _ p d => d.enableFn (convFn (p.word 0)) true (fun d => d.convStart (p.word 0)) }

/-- ADC_ENABLE (R327). -/
def execAdcEnable (dt : Nat) (o : Origin) (s : State) : Host.Outcome State Fault Refusal := wcpRow dt o cmdAdcEnable noOpen s

/-- ADC0 and ADC1 are both ON, as a capture needs them (R348). -/
def Field.captureOn (f : Field) : Bool := (f.conv 0).fn.st == .on && (f.conv 1).fn.st == .on

/-- A capture whose converters are not both ON ends in S_BAD_STATE (DESIGN CHOICE, log entry 192). -/
def Device.captureAbort (d : Device) : Device :=
  (d.modField (fun f => { f with capture := none })).complete .capture sBadState Bytes.nil

/-- STOPPING: the conversion in progress completes, at most 5 us; a capture that runs on the converter ends. -/
def Device.convStop (d : Device) (c : Nat) : Device :=
  let d := (d.beginStop (convFn c) (5 * us)).convEvent c
  if c < 2 && d.field.capture.any (fun x => x.running) then d.captureAbort else d

/-- Converters a sequence needs ON: those it names, and ADC1 with a paired ADC0 (R324, R335). -/
def Seq.needs (x : Seq) (f : Field) : List Nat :=
  (List.range 4).filter (fun c => x.uses c || (c == 1 && f.paired && x.uses 0))

/-- `adc.disable`: refused while a sequence that is ON uses the converter. -/
def cmdAdcDisable : Cmd :=
  { id := 0x0B42, form := exactly 4
    state := fun d p =>
      match needsField d p with
      | some r => some r
      | none => refuse (d.field.seqs.toList.any (fun x => x.fn.st == .on && (x.needs d.field).contains (p.word 0))) sBadState
    content := fun _ p => refuse (3 < p.word 0) sBadParam
    run := fun _ p d => d.disableFn (convFn (p.word 0)) false (fun d => d.convStop (p.word 0)) }

/-- ADC_DISABLE (R327). -/
def execAdcDisable (dt : Nat) (o : Origin) (s : State) : Host.Outcome State Fault Refusal := wcpRow dt o cmdAdcDisable noOpen s

/-- ON after 50 us; a disable accepted meanwhile stops the converter. -/
def Device.convOn (d : Device) (c : Nat) : Device :=
  let x := d.field.conv c
  if x.fn.st != .starting || d.now < x.startAt + 50 * us then d
  else
    let d := (d.reachOn (convFn c)).convEvent c
    if x.fn.stopPending then d.convStop c else d

/-- ADC_START_DONE (R327). -/
def execAdcStartDone (dt : Nat) (c : Fin 4) (s : State) : Host.Outcome State Fault Refusal := fieldRow dt (fun d => d.convOn c.val) s

/-- ADC_STOP_DONE (R327). -/
def execAdcStopDone (dt : Nat) (c : Fin 4) (s : State) : Host.Outcome State Fault Refusal :=
  fieldRow dt (fun d => if (d.field.conv c.val).fn.st == .stopping then (d.reachOff (convFn c.val) convOff).convEvent c.val else d) s

/-! System calibration (R345-R347). -/

/-- A sequence that is not OFF uses a path. -/
def Field.pathBusy (f : Field) (path : Nat) : Bool :=
  f.seqs.toList.any (fun x => x.fn.st != .off && x.entries.any (fun e => pathOf (nMux e) (nRange e) == some path))

/-- `adc.cal.run`: path, point (0 ZERO, 1 SPAN), and for SPAN the expected code. -/
def cmdCalRun : Cmd :=
  { id := 0x0B4B, form := fun p => 8 ≤ p.len
    state := fun d p =>
      match needsField d p with
      | some r => some r
      | none => refuse (d.field.calRun.isSome || d.field.pathBusy (p.word 0)) sBadState
    content := fun _ p => refuse (16 < p.word 0 || 1 < p.word 1 || p.len != 8 + 4 * p.word 1 || 65535 < p.word 2) sBadParam
    run := fun _ p d =>
      (d.modField (fun f => { f with calRun := some (p.word 0, p.word 1 == 1, p.word 2, d.now) }), .pend .adcCalRun) }

/-- ADC_CAL_RUN (R346). -/
def execAdcCalRun (dt : Nat) (o : Origin) (s : State) : Host.Outcome State Fault Refusal := wcpRow dt o cmdCalRun noOpen s

/-- A raw code: beyond full scale it clamps (R338). -/
def rawClamp (x : Int) : Nat := if x < 0 then 0 else sat 0xFFFF x.toNat

/-- The shadow of a path written. -/
def Device.setShadow (d : Device) (path hi lo v : Nat) : Device :=
  d.modField (fun f => { f with coeffShadow := vmod f.coeffShadow path (fun k => setFld k hi lo v) })

/-- 4,096 samples averaged: the shadow OFFSET, or GAIN = 32,768 * (expected - OFFSET) / (measured - OFFSET), S_BAD_PARAM outside its
range. Averages and quotient round to the nearest (log entry 13). -/
def Device.calRunDone (d : Device) (codes : List Int) : Device :=
  match d.field.calRun with
  | none => d
  | some (path, span, expected, _) =>
    if codes.length != 4096 then d
    else
      let sum : Nat := (codes.map rawClamp).sum
      let mean := roundDiv sum 4096
      let d := d.modField (fun f => { f with calRun := none })
      let off := sgn 32 (fld (vget d.field.coeffShadow path 0) 31 0)
      if !span then (d.setShadow path 31 0 mean).complete .adcCalRun sOk Bytes.nil
      else
        let den : Int := (mean : Int) - off
        let num : Int := 32768 * ((expected : Int) - off)
        let gain : Int := if den = 0 then 0 else if 0 < den then roundInt num den.toNat else roundInt (-num) (-den).toNat
        if gain < 16384 || 49152 < gain then d.complete .adcCalRun sBadParam Bytes.nil
        else (d.setShadow path 63 32 gain.toNat).complete .adcCalRun sOk Bytes.nil

/-- ADC_CAL_RUN_DONE (R346). -/
def execAdcCalRunDone (dt : Nat) (codes : List Int) (s : State) : Host.Outcome State Fault Refusal := fieldRow dt (fun d => d.calRunDone codes) s

/-- The shadow committed to the inactive copy, its pointer switched (R347), and its record: the first path that changed (0xFFFF none)
and the digest (log entry 75). -/
def Device.storeCoeffs (d : Device) : Device :=
  let f := d.field
  let changed := (List.range 17).find? (fun i => (f.coeffUse i).1 != vget f.coeffShadow i 0)
  let i := 1 - f.coeffPtr.v.toNat % 2
  let bytes := Bytes.cat (f.coeffShadow.toList.map (fun k => Bytes.mk' 8 k.toNat))
  let d := d.modField (fun f => { f with
    coeffs := vset f.coeffs i (f.coeffShadow.map (fun k => Pair.of k)), coeffPtr := Pair.of (.ofNat 32 i) })
  d.record 0x000C 0 sevInfo ((w32 (changed.getD 0xFFFF)).app (.mk' 16 (digest128 bytes)))

/-- `adc.cal.commit`; below 9.0 V it waits (R405). -/
def cmdAdcCalCommit : Cmd :=
  { id := 0x0B4C, form := exactly 0, state := needsField
    run := fun _ _ d => if d.field.nvmOk then (d.storeCoeffs, .no sOk) else (d.nvmWaits .coeffs, .pend .adcCalCommit) }

/-- ADC_CAL_COMMIT (R347). -/
def execAdcCalCommit (dt : Nat) (o : Origin) (s : State) : Host.Outcome State Fault Refusal := wcpRow dt o cmdAdcCalCommit noOpen s

/-- `adc.cal.get`: live coefficients in use, then the shadow. -/
def cmdAdcCalGet : Cmd :=
  { id := 0x0B03, form := exactly 0, state := needsField
    run := fun _ _ d =>
      let live := (List.range 17).map (fun i => Bytes.mk' 8 (d.field.coeffUse i).1.toNat)
      let ok := (List.range 17).all (fun i => !(d.field.coeffUse i).2)
      (d, answerPair ok (.cat (live ++ d.field.coeffShadow.toList.map (fun k => Bytes.mk' 8 k.toNat)))) }

/-- ADC_CAL_GET (R349). -/
def execAdcCalGet (dt : Nat) (o : Origin) (s : State) : Host.Outcome State Fault Refusal := wcpRow dt o cmdAdcCalGet noOpen s

/-! Inrush capture (R348). -/

/-- `adc.capture.arm`. -/
def cmdCaptureArm : Cmd :=
  { id := 0x0B4D, form := exactly 12
    state := fun d p =>
      match needsField d p with
      | some r => some r
      | none => refuse (d.field.capture.isSome || !d.field.captureOn) sBadState
    content := fun _ p => refuse (15 < p.word 0 || outside (p.word 1) 256 4096 || outside (p.word 2) 1 256) sBadParam
    run := fun _ p d =>
      (d.modField (fun f => { f with
        capture := some { out := p.word 0, count := p.word 1, dec := p.word 2, armedAt := d.now, startAt := none, running := false } }),
       .pend .capture) }

/-- ADC_CAPTURE_ARM (R348). -/
def execAdcCaptureArm (dt : Nat) (o : Origin) (s : State) : Host.Outcome State Fault Refusal := wcpRow dt o cmdCaptureArm noOpen s

/-- The armed output has turned lit: ADC0 and ADC1, still ON, pair on its current in the high range. -/
def Device.captureStart (d : Device) : Device :=
  match d.field.capture with
  | some c =>
    if c.startAt.isSome && !c.running && !d.field.captureOn then d.captureAbort
    else if c.startAt.isSome && !c.running then
      (d.modField (fun f => { f with capture := some { c with running := true } })).modOut c.out
        (fun o => { o with lowRange := false, rangeChg := o.rangeChg || o.lowRange })
    else d
  | none => d

/-- CAPTURE_START (R348). -/
def execCaptureStart (dt : Nat) (s : State) : Host.Outcome State Fault Refusal := fieldRow dt Device.captureStart s

/-- Means of D conversions each, clamped at full scale (R338). -/
def decimate (dec : Nat) (codes : List Nat) : Nat → List Nat
  | 0 => []
  | n + 1 => ((codes.take dec).map (fun c => sat 0xFFFF c)).sum / dec :: decimate dec (codes.drop dec) n

/-- The last sample is stored: 62.5 ns per conversion. -/
def Device.captureEnd (d : Device) (codes : List Nat) : Device :=
  match d.field.capture with
  | some c =>
    let at_ := c.startAt.getD d.now
    if !c.running || codes.length != c.count * c.dec || d.now < at_ + c.count * c.dec * 125 / 2 then d
    else (d.modField (fun f => { f with capture := none, samples := decimate c.dec codes c.count })).complete .capture sOk Bytes.nil
  | none => d

/-- CAPTURE_END (R348). -/
def execCaptureEnd (dt : Nat) (codes : List Nat) (s : State) : Host.Outcome State Fault Refusal := fieldRow dt (fun d => d.captureEnd codes) s

/-- 10 s without a transition. -/
def Device.captureTimeout (d : Device) : Device :=
  match d.field.capture with
  | some c =>
    if c.startAt.isNone && decide (c.armedAt + 10 * second ≤ d.now) then
      (d.modField (fun f => { f with capture := none })).complete .capture sBadState Bytes.nil
    else d
  | none => d

/-- CAPTURE_TIMEOUT (R348). -/
def execCaptureTimeout (dt : Nat) (s : State) : Host.Outcome State Fault Refusal := fieldRow dt Device.captureTimeout s

/-- `adc.capture.get`: first sample and count; samples of 16 bits each (log entry 76). -/
def cmdCaptureGet : Cmd :=
  { id := 0x0B04, form := exactly 8, state := needsField
    content := fun d p => refuse (2000 < p.word 1 || d.field.samples.length < p.word 0 + p.word 1) sBadParam
    run := fun _ p d => (d, .ok ((Bytes.cat (((d.field.samples.drop (p.word 0)).take (p.word 1)).map (fun x => Bytes.mk' 2 x))).pad 4)) }

/-- ADC_CAPTURE_GET (R348). -/
def execAdcCaptureGet (dt : Nat) (o : Origin) (s : State) : Host.Outcome State Fault Refusal := wcpRow dt o cmdCaptureGet noOpen s

/-! Excitation (R342). -/

/-- `adc.exc.set`. -/
def cmdExcSet : Cmd :=
  { id := 0x0B48, form := exactly 4
    state := fun d p =>
      match needsField d p with
      | some r => some r
      | none => refuse (d.field.exc.st != .off) sBadState
    content := fun _ p => refuse (outside (p.word 0) 500 100000) sBadParam
    run := fun _ p d => (d.modField (fun f => { f with excP := p.word 0 }), .no sOk) }

/-- ADC_EXC_SET (R342). -/
def execAdcExcSet (dt : Nat) (o : Origin) (s : State) : Host.Outcome State Fault Refusal := wcpRow dt o cmdExcSet noOpen s

/-- STARTING waits for the next field-time multiple of P. -/
def Device.excStart (d : Device) : Device :=
  (d.modField (fun f => { f with excNext := f.excMultiple d.fieldNs, excPos := false, excPin := false })).excEvent

/-- `adc.exc.enable`; before a period is set S_BAD_STATE (DESIGN CHOICE, log entry 77). -/
def cmdExcEnable : Cmd :=
  { id := 0x0B49, form := exactly 0
    state := fun d p =>
      match needsField d p with
      | some r => some r
      | none => refuse (d.field.excP == 0) sBadState
    run := fun _ _ d => d.enableFn .exc true Device.excStart }

/-- ADC_EXC_ENABLE (R342). -/
def execAdcExcEnable (dt : Nat) (o : Origin) (s : State) : Host.Outcome State Fault Refusal := wcpRow dt o cmdExcEnable noOpen s

/-- STOPPING completes the current period. -/
def Device.excStop (d : Device) : Device := (d.beginStop .exc (d.field.excP * us)).excEvent

/-- `adc.exc.disable`. -/
def cmdExcDisable : Cmd :=
  { id := 0x0B4A, form := exactly 0, state := needsField
    run := fun _ _ d => d.disableFn .exc true Device.excStop }

/-- ADC_EXC_DISABLE (R342). -/
def execAdcExcDisable (dt : Nat) (o : Origin) (s : State) : Host.Outcome State Fault Refusal := wcpRow dt o cmdExcDisable noOpen s

/-- A positive half starts: EXC_POL asserted, EXC sequences triggered (R333). -/
def Device.excPositive (d : Device) : Device :=
  (d.modField (fun f => { f with excPos := true, excPin := true, excNext := f.excNext + f.excHalf })).seqTriggers
    (fun h => sTrig h == 9)

/-- The next half begins; ON is reached with the first positive half; a stop ends with the period, and stops the sequences with DEMOD
entries. -/
def Device.excHalf (d : Device) : Device :=
  let f := d.field
  if f.exc.st = .off || d.fieldNs < f.excNext then d
  else if f.exc.st = .starting then
    let stop := f.exc.stopPending
    let d := ((d.reachOn .exc).excEvent).excPositive
    if stop then d.excStop else d
  else if f.excPos then
    d.modField (fun f => { f with excPos := false, excPin := false, excNext := f.excNext + f.excHalf })
  else if f.exc.st = .stopping then
    let d := (d.reachOff .exc excOff).excEvent
    (List.range 4).foldl (fun d q =>
      if (d.field.seq q).fn.st == .on && (d.field.seq q).entries.any nDemod then d.seqFault q else d) d
  else d.excPositive

/-- EXC_HALF (R342). -/
def execExcHalf (dt : Nat) (s : State) : Host.Outcome State Fault Refusal := fieldRow dt Device.excHalf s

/-! Blanking (R344). -/

/-- The chain in progress has an entry that BLANK_N defers: BLANK_EN and no open-wire test (R340). -/
def Seq.blankable (x : Seq) (r : SeqRun) : Bool := (x.chainEntries r).any (fun p => nBlank p.2 && !nOw p.2)

/-- Sampling of a sequence is held back: BLANK_N asserted, or BLANK_HOLD after its release. -/
def Field.blanked (f : Field) (hold now : Nat) : Bool := f.blankAt.isSome || f.blankRel.any (fun t => decide (now < t + hold))

/-- Samples of the chain in progress that are still to be taken at an instant: those not begun 100 ns before it (R344). -/
def Field.samplesLeft (f : Field) (l : List (Nat × BitVec 64)) (r : SeqRun) (now : Nat) : Nat :=
  min (f.chainLen l) ((2 * (r.doneAt + 100 - now) - 1) / f.chainSlot l)

/-- BLANK_N asserted for at least 100 ns: running entries with BLANK_EN that have samples left are deferred. -/
def Device.blankAssert (d : Device) (width : Nat) : Device :=
  if width < 100 then d
  else
    let d := d.modField (fun f => { f with blankAt := some d.now, blankRel := none })
    (List.range 4).foldl (fun d q =>
      d.modSeq q (fun x => { x with run := x.run.map (fun r =>
        let left := d.field.samplesLeft (x.chainEntries r) r d.now
        if r.chain != 0 && r.deferAt.isNone && !r.blk && left != 0 && x.blankable r then { r with deferAt := some d.now, left } else r) })) d

/-- BLANK_N_ASSERT (R344). -/
def execBlankNAssert (dt : Nat) (width : Nat) (s : State) : Host.Outcome State Fault Refusal := fieldRow dt (fun d => d.blankAssert width) s

/-- BLANK_N_RELEASE (R344). -/
def execBlankNRelease (dt : Nat) (s : State) : Host.Outcome State Fault Refusal :=
  fieldRow dt (fun d => if d.field.blankAt.isSome then d.modField (fun f => { f with blankAt := none, blankRel := some d.now }) else d) s

/-- End of the half a run is in, in field time, for demodulation (R343). -/
def Field.halfEnd (f : Field) (r : SeqRun) : Nat :=
  let p := f.excP * us
  r.stamp / p * p + (if r.neg then p else f.excHalf)

/-- A sample 0 taken now comes too late for the half its run is in. -/
def Device.lateFor (d : Device) (x : Seq) (r : SeqRun) : Bool := sTrig x.hdr == 9 && decide (d.field.halfEnd r ≤ d.fieldNs)

/-- A deferred chain goes on: the samples left are taken from now, each member's sample 0 among them (R344). -/
def Device.resumeRun (d : Device) (x : Seq) (r : SeqRun) : SeqRun :=
  match r.deferAt with
  | none => r
  | some _ =>
    let l := x.chainEntries r
    let slot := d.field.chainSlot l
    let taken := d.field.chainLen l - r.left
    { r with
      deferAt := none, doneAt := d.now + ceilDiv (r.left * slot) 2
      starts := (r.starts.zip (d.field.firsts l)).map (fun p => if taken ≤ p.2 then d.now + (p.2 - taken) * slot / 2 else p.1)
      late := if taken = 0 then d.lateFor x r else r.late }

/-- BLANK_HOLD after the release: deferred sampling resumes. -/
def Device.blankHoldEnd (d : Device) : Device :=
  match d.field.blankRel with
  | none => d
  | some t =>
    let d := (List.range 4).foldl (fun d q =>
      d.modSeq q (fun x => if d.now < t + sHold x.hdr then x else { x with run := x.run.map (fun r => d.resumeRun x r) })) d
    if t + 255 * us ≤ d.now then d.modField (fun f => { f with blankRel := none }) else d

/-- BLANK_HOLD_EXPIRY (R344). -/
def execBlankHoldExpiry (dt : Nat) (s : State) : Host.Outcome State Fault Refusal := fieldRow dt Device.blankHoldEnd s

/-- An entry's deferral reaches BLANK_MAX: its samples are taken regardless, with BLK. -/
def Device.blankMax (d : Device) (q : Nat) : Device :=
  d.modSeq q (fun x => { x with run := x.run.map (fun r =>
    match r.deferAt with
    | some t => if t + sMax x.hdr ≤ d.now then { (d.resumeRun x r) with blk := true } else r
    | none => r) })

/-- BLANK_MAX_EXPIRY (R344). -/
def execBlankMaxExpiry (dt : Nat) (q : Fin 4) (s : State) : Host.Outcome State Fault Refusal := fieldRow dt (fun d => d.blankMax q.val) s

end Sys2Proof.Machine
end

