-- ==== Sys2Proof/Machine/Sequences.lean ====
section
/-! DEFINITION. Sequences of the converters: triggers, runs, entries and their results (R331-R340, R343, R349). -/

namespace Sys2Proof.Machine

open Sys2Proof

/-! Triggers (R333). -/

/-- One more than the latest tick instant of a timer up to a field time in us; 0 before the first. -/
def lastTick (period phase now : Nat) : Nat := if period = 0 ∨ now < phase then 0 else phase + (now - phase) / period * period + 1

/-- A timer ticks: once for every instant reached, also over a forward step of field time; a backward step fires none twice. -/
def Device.timerTick (d : Device) (t : Nat) : Device :=
  let x := vget d.field.timers t (0, 0, 0)
  let n := lastTick x.1 x.2.1 (d.fieldNs / us)
  if n ≤ x.2.2 then d
  else (d.modField (fun f => { f with timers := vset f.timers t (x.1, x.2.1, n) })).seqTriggers (fun h => sTrig h == t)

/-- ADC_TIMER_TICK (R333). -/
def execAdcTimerTick (dt : Nat) (t : Fin 4) (s : State) : Host.Outcome State Fault Refusal := fieldRow dt (fun d => d.timerTick t.val) s

/-- ADC_TRIG_ASSERT (R333): an assertion lasting at least 100 ns. -/
def execAdcTrigAssert (dt : Nat) (width : Nat) (s : State) : Host.Outcome State Fault Refusal :=
  fieldRow dt (fun d => if width < 100 then d else d.seqTriggers (fun h => sTrig h == 5)) s

/-! Entries and chains (R332). -/

/-- Time a chain samples for. -/
def Field.chainTime (f : Field) (l : List (Nat × BitVec 64)) : Nat := ceilDiv (f.chainLen l * f.chainSlot l) 2

/-- The converter of entry 0 sleeps: AUTO_SLEEP, more than 10 us idle, background conversions counted, and none in progress
(Table 11-4). -/
def Field.asleep (f : Field) (e : BitVec 64) (now : Nat) : Bool :=
  let s := f.server (nConv e)
  let c := f.conv s
  c.policy == 1 && decide (max (max c.usedAt c.startAt) (max c.bgA c.bgB) + 10 * us < now) &&
    !(List.range 4).any (fun q => f.converting q s)

/-- Instant from which entry 0's DELAY counts: the trigger, TRIG_DELAY, 250 ns, the wake delay, and EXC_SETTLE under EXC (R332,
R343). -/
def Field.runDue (f : Field) (x : Seq) (r : SeqRun) (now : Nat) : Nat :=
  r.trigAt + sDelay x.hdr + 250 + (if f.asleep (x.entry 0) now then 2 * us else 0) + (if sTrig x.hdr = 9 then sSettle x.hdr else 0)

/-- A path a sequence uses. -/
def Seq.paths (x : Seq) : List Nat := x.entries.filterMap (fun e => pathOf (nMux e) (nRange e))

/-! Open-wire tests (R340): the pull current is on from the start of the entry's DELAY to the end of its conversions. -/

/-- Instant from which the DELAY of a run's next chain counts: an open-wire test waits 10 us after one of the same input. -/
def Field.delayFrom (f : Field) (r : SeqRun) (l : List (Nat × BitVec 64)) : Nat :=
  l.foldl (fun a p => if nOw p.2 then max a ((mget (nMux p.2) f.owUntil).getD 0) else a) r.readyAt

/-- The pull currents of a run's next chain are switched on. -/
def Device.pullOn (d : Device) (q : Nat) : Device :=
  let x := d.field.seq q
  match x.run with
  | none => d
  | some r =>
    let l := x.next r
    if !r.begun || r.cut || r.chain != 0 then d
    else
      let on := fun (f : Field) (m : Map (Nat × Nat)) (p : Nat × BitVec 64) => mset (256 * q + nMux p.2) (nOwI p.2, f.delayFrom r l) m
      d.modField (fun f => { f with pulls := (l.filter (fun p => nOw p.2)).foldl (on f) f.pulls })

/-- Those of a sequence are switched off. -/
def Device.pullOff (d : Device) (q : Nat) : Device :=
  d.modField (fun f => { f with pulls := f.pulls.filter (fun p => p.1 / 256 != q) })

/-- The pull current on an input now, as OW_I. -/
def Field.pull (f : Field) (mux now : Nat) : Option Nat :=
  (f.pulls.find? (fun p => p.1 % 256 == mux && decide (p.2.2 ≤ now))).map (fun p => p.2.1)

/-- A run starts: it takes the coefficients of its paths, whose pairs are checked (R345, Table 12-1 class 13). -/
def Device.runStart (d : Device) (q : Nat) : Device :=
  let x := d.field.seq q
  match x.run with
  | none => d
  | some r =>
    let due := d.field.runDue x r d.now
    if r.begun || r.cut || d.now < due then d
    else
      let cs := (List.range 17).map (fun p => d.field.coeffUse p)
      let d := (d.modSeq q (fun x => { x with run := some { r with begun := true, readyAt := due, coeffs := cs } })).pullOn q
      x.paths.eraseDups.foldl (fun d p =>
        d.fieldChecked (!(d.field.coeffUse p).2) 13 p) d

/-- SEQ_RUN_START (R332). -/
def execSeqRunStart (dt : Nat) (q : Fin 4) (s : State) : Host.Outcome State Fault Refusal := fieldRow dt (fun d => d.runStart q.val) s

/-- Instant at which a run's next chain is due; none while it has none to start. -/
def Field.entryDue (f : Field) (q : Nat) : Option Nat :=
  let x := f.seq q
  match x.run with
  | some r =>
    match x.next r with
    | [] => none
    | e :: l => if r.begun && !r.cut && r.chain == 0 then some (f.delayFrom r (e :: l) + nDelay e.2) else none
  | none => none

/-- The chain's converters are free of other sequences and of an inrush capture (R348). -/
def Field.convsFree (f : Field) (q : Nat) (l : List (Nat × BitVec 64)) : Bool :=
  let need := f.servers l
  let held := (List.range 4).any (fun j =>
    let x := f.seq j
    j != q && x.run.any (fun r => r.chain != 0 && (f.servers (x.chainEntries r)).any (fun c => need.contains c)))
  !held && !(f.capture.any (fun c => c.running) && need.any (fun c => c < 2))

/-- Sequences take turns at entry boundaries: the one due first, and of those SEQ0 first (DEDUCED, log entry 78). -/
def Field.myTurn (f : Field) (q now due : Nat) (l : List (Nat × BitVec 64)) : Bool :=
  let need := f.servers l
  (List.range 4).all (fun j =>
    let x := f.seq j
    let other := match x.run with
      | some r => x.next r
      | none => []
    match f.entryDue j with
    | some t => j == q || decide (now < t) || decide (due < t) || (t == due && decide (q < j)) ||
        !(f.servers other).any (fun c => need.contains c) || !f.convsFree j other
    | none => true)

/-- The inputs of a chain may be taken: no wait after an open-wire test (R340), and, for an entry on its own, the recovery slot after
an overrange on another input (R338). -/
def Field.inputsFree (f : Field) (now : Nat) (l : List (Nat × BitVec 64)) : Bool :=
  l.all (fun p => match mget (nMux p.2) f.owUntil with
    | some t => decide (t ≤ now)
    | none => true) &&
  (l.length != 1 || l.all (fun p =>
    let c := f.conv (f.server (nConv p.2))
    !c.overrange || c.ovMux == nMux p.2 || decide (c.usedAt + us ≤ now)))


/-- The next entry, or chain, of a run starts. BLANK_N defers its samples (R344). -/
def Device.entryStart (d : Device) (q : Nat) : Device :=
  let f := d.field
  let x := f.seq q
  match x.run, f.entryDue q with
  | some r, some due =>
    let l := x.next r
    if d.now < due || !f.convsFree q l || !f.myTurn q d.now due l || !f.inputsFree d.now l then d
    else
      let slot := f.chainSlot l
      let r1 := { r with
        chain := l.length, starts := (f.firsts l).map (fun i => d.now + i * slot / 2), doneAt := d.now + f.chainTime l, blk := false
        late := d.lateFor x r }
      let wait := f.blanked (sHold x.hdr) d.now && x.blankable r1
      d.modSeq q (fun x => { x with run := some { r1 with deferAt := if wait then some d.now else none, left := f.chainLen l } })
  | _, _ => d

/-- SEQ_ENTRY_START (R332). -/
def execSeqEntryStart (dt : Nat) (q : Fin 4) (s : State) : Host.Outcome State Fault Refusal := fieldRow dt (fun d => d.entryStart q.val) s

/-! Results (R336-R340, R343). -/

/-- An entry's samples in a chain's list of codes: its members one after another. -/
def sliceCodes : List (Nat × BitVec 64) → List Int → List (Nat × BitVec 64 × List Int)
  | [], _ => []
  | p :: l, codes => (p.1, p.2, codes.take (nSamples p.2)) :: sliceCodes l (codes.drop (nSamples p.2))

/-- What one entry's samples come to: RESULT and the flag bits of Table 11-10. -/
structure Taken where
  code : Nat
  flags : Nat
deriving DecidableEq, Repr

/-- Samples clamped, corrected, summed, shifted and limited (R332, R338, R345): RESULT, CLIP, UNR, OVR. -/
def average (e k : BitVec 64) (codes : List Int) : Taken :=
  let sum := (codes.map (fun c => correct k (rawClamp c))).sum / 2 ^ nShift e
  { code := sat 0xFFFF sum
    flags := fields [(6, (decide (0xFFFF < sum)).toNat), (1, (codes.any (fun c => decide (c < 0))).toNat),
      (0, (codes.any (fun c => decide (65535 < c))).toNat)] }

/-- A member of a chain, sampled from `s0`, carries RECOV (R338). -/
def Field.recov (f : Field) (chain : Bool) (e : BitVec 64) (s0 : Nat) : Bool :=
  let c := f.conv (f.server (nConv e))
  chain && c.recovAt (nMux e) s0 c.since

/-- The converter after an entry: when it was used, and its last overrange. -/
def Conv.after (c : Conv) (e : BitVec 64) (codes : List Int) (slot done : Nat) : Conv :=
  { (c.ran (nMux e) (codes.map (fun x => decide (x < 0) || decide (65535 < x))) slot done) with usedAt := done }

/-- Flags of an entry sampled from `s0` besides those of its samples: UNCAL, DEGRADED, BLK, RANGE_CHG, LOWRANGE, RECOV. -/
def Field.entryFlags (f : Field) (r : SeqRun) (e : BitVec 64) (s0 now : Nat) : Nat :=
  let m := nMux e
  let default := (pathOf m (nRange e)).any (fun p => (r.coeffs.drop p).head?.any (fun k => k.2))
  let cur := decide (0x30 ≤ m) && decide (m < 0x40)
  let o := f.out (m - 0x30)
  fields [(9, ((f.conv (f.server (nConv e))).unconverged now || default).toNat), (8, (f.degraded (nConv e)).toNat), (7, r.blk.toNat),
    (4, (cur && o.rangeChg).toNat), (3, (cur && o.lowRange).toNat), (2, (f.recov (1 < r.chain) e s0).toNat)]

/-- An overranged result is reported: E_ADC_OVR, at most once per entry per 100 ms (R338). -/
def Device.overranged (d : Device) (q i : Nat) (e : BitVec 64) (flags : Nat) : Device :=
  if flags % 4 = 0 then d
  else d.fieldLimited 0x0B02 (q * 64 + i) 0 (100 * ms) ((flags % 2) * 2 ^ 255 + nMux e * 2 ^ 247) (2 ^ 215)

/-- The open-wire verdict of an OW entry (R340): E_OPEN_WIRE with every open result, and with the first that is not. -/
def Device.openWire (d : Device) (q i : Nat) (e : BitVec 64) (code : Nat) : Device :=
  if !nOw e then d
  else
    let open_ : Bool := nThresh e ≤ code
    let was := (d.field.seq q).openSet.contains i
    let d := d.modField (fun f => { f with owUntil := mset (nMux e) (d.now + 10 * us) f.owUntil })
    let d := d.modSeq q (fun x => { x with openSet := if open_ then i :: x.openSet.filter (fun j => j != i) else x.openSet.filter (fun j => j != i) })
    if open_ || was then
      d.fieldEvent 0x0B01 (q * 64 + i) (open_.toNat * 2 ^ 255 + nMux e * 2 ^ 247 + code * 2 ^ 231)
    else d

/-- A result word goes where DEST says (R336); without a queue a stream result is kept in the register (Table 11-7). -/
def Device.putResult (d : Device) (q i : Nat) (e : BitVec 64) (code flags time : Nat) : Device :=
  let w := BitVec.ofNat 32 (code * 2 ^ 16 + i % 64 * 2 ^ 10 + flags)
  d.modSeq q (fun x =>
    let regs := if nDest e = 1 ∨ nDest e = 3 ∨ sQen x.hdr = false then mset i (w, BitVec.ofNat 64 time) x.regs else x.regs
    let run := if nDest e = 2 ∨ nDest e = 3 then x.run.map (fun r => { r with words := mset i w r.words }) else x.run
    { x with regs, run })

/-- Bit 15 of a first half's flags: its sample 0 came too late. -/
def lateBit : Nat := 2 ^ 15

/-- 0x8000 + (S+ - S-) / 2, truncated toward zero (R343). -/
def demod (a b : Nat) : Nat := ((0x8000 : Int) + ((a : Int) - (b : Int)).tdiv 2).toNat

/-- A result of an entry: under DEMOD the first half's is kept, and the second half's makes the word. OVR, UNR and RECOV of either
half carry; the other flags are the second half's (log entry 79). -/
def Device.keepResult (d : Device) (q i : Nat) (e : BitVec 64) (t : Taken) (time : Nat) : Device :=
  match (d.field.seq q).run with
  | none => d
  | some r =>
    let plain := fun (d : Device) (code flags time : Nat) =>
      let flags := flags + (if nOw e && nThresh e ≤ code then 2 ^ 5 else 0)
      (d.openWire q i e code).putResult q i e code flags time
    if !nDemod e then plain d t.code t.flags time
    else if !r.neg then
      d.modSeq q (fun x => { x with run := some { r with
        first := mset i (t.code, t.flags + (if r.late then lateBit else 0), time) r.first } })
    else
      let a := (mget i r.first).getD (0, lateBit, time)
      let carried := fun (b : Nat) => (nbit a.2.1 b || nbit t.flags b).toNat * 2 ^ b
      let flags := t.flags / 2 ^ 3 * 2 ^ 3 + carried 2 + carried 1 + carried 0
      if r.late || nbit a.2.1 15 then
        plain d 0x8000 (flags - flags / 2 ^ 7 % 2 * 2 ^ 7 + 2 ^ 7) a.2.2
      else plain d (demod a.1 t.code) flags a.2.2

/-- One entry of a chain completes, sampled from `s0`. -/
def Device.entryResult (d : Device) (q : Nat) (r : SeqRun) (s0 i : Nat) (e : BitVec 64) (codes : List Int) : Device :=
  let f := d.field
  let k := match pathOf (nMux e) (nRange e) with
    | some p => ((r.coeffs.drop p).head?.getD (Config.coeffDefault, true)).1
    | none => Config.coeffDefault
  let t := average e k codes
  let t := { t with flags := t.flags + f.entryFlags r e s0 d.now }
  let m := nMux e
  let d := d.overranged q i e t.flags
  let d :=
    if 0x30 ≤ m ∧ m < 0x40 then
      let o := m - 0x30
      d.modOut o (fun x => x.ranged (senseUa x.lowRange t.code) (nbit t.flags 0) (f.rangeHeld o d.now))
    else d
  d.keepResult q i e t (d.fieldNs - (d.now - s0))

/-- A chain completes: its words, and the converters' last use; the run goes on, into the negative half under EXC (R343). -/
def Device.entryDone (d : Device) (q : Nat) (codes : List Int) : Device :=
  let x := d.field.seq q
  match x.run with
  | none => d
  | some r =>
    let l := x.chainEntries r
    if r.chain = 0 || r.deferAt.isSome || d.now < r.doneAt || codes.length != (l.map (fun p => nSamples p.2)).sum then d
    else
      let slot := d.field.chainSlot l
      let d := (r.starts.zip (sliceCodes l codes)).foldl (fun d p =>
        let e := p.2.2.1
        let codes := p.2.2.2
        (d.entryResult q r p.1 p.2.1 e codes).modConv (d.field.server (nConv e))
          (fun c => c.after e codes slot (if d.field.inTurn l then p.1 + ceilDiv (codes.length * slot) 2 else r.doneAt))) d
      let d := (d.pullOff q).modSeq q (fun x => { x with run := x.run.map (fun r =>
        let pos := r.pos + r.chain
        let over_ := !r.neg && (x.half false).length ≤ pos && sTrig x.hdr == 9 && !(x.half true).isEmpty
        if over_ then
          { r with pos := 0, chain := 0, neg := true, blk := false
                   readyAt := r.trigAt + d.field.excP * us / 2 + sSettle x.hdr + 250 }
        else { r with pos := pos, chain := 0, readyAt := r.doneAt, blk := false }) })
      d.pullOn q

/-- SEQ_ENTRY_DONE (R336). -/
def execSeqEntryDone (dt : Nat) (q : Fin 4) (codes : List Int) (s : State) : Host.Outcome State Fault Refusal :=
  fieldRow dt (fun d => d.entryDone q.val codes) s

/-! The end of a run (R337, R334, R335). -/

/-- A run is at its end: every entry taken, or cut at an entry boundary. -/
def Seq.ended (x : Seq) (r : SeqRun) : Bool := r.chain == 0 && (r.cut || (r.begun && (x.next r).isEmpty))

/-- The run's unit, for a sequence with a queue: CUT, the time from the trigger in us, and the words in entry order. -/
def Device.runUnit (d : Device) (q : Nat) (x : Seq) (r : SeqRun) : Device :=
  if !sQen x.hdr then d
  else d.offerUnit (sQueue x.hdr) false r.cut q r.words.length (sat 0xFFFFFF ((d.now - r.trigAt) / us))
    (words (r.words.map (fun p => p.2.toNat)))

/-- A sequence in STOPPING without a run is OFF; an edge's TRIG_DELAY no longer runs. -/
def Device.seqOffNow (d : Device) (q : Nat) : Device :=
  ((d.modSeq q (fun x => { x with lastTrig := none })).reachOff (seqFn q) seqOff).seqEvent q

/-- A run ends: its unit closes, and what follows: OFF, the held trigger's run, or under CONT the next. -/
def Device.runEnd (d : Device) (q : Nat) : Device :=
  let x := d.field.seq q
  match x.run with
  | none => if x.fn.st == .stopping then d.seqOffNow q else d
  | some r =>
    if !x.ended r then d
    else
      let d := ((d.runUnit q x r).pullOff q).modSeq q (fun x => { x with run := none, runs := x.runs + 1 })
      if x.fn.st != .on then (d.modSeq q (fun x => { x with held := none })).seqOffNow q
      else match x.held with
        | some t => d.modSeq q (fun x => { x with held := none, run := some { trigAt := t.1, stamp := t.2 } })
        | none => if sTrig x.hdr = 7 then d.seqTrigger q else d

/-- SEQ_RUN_END (R337). -/
def execSeqRunEnd (dt : Nat) (q : Fin 4) (s : State) : Host.Outcome State Fault Refusal := fieldRow dt (fun d => d.runEnd q.val) s

/-! Commands (Table 11-12). -/

/-- Functions state words of converters, sequences and EXC_POL; policies; slices; runs, triggers counted; FIFO; loop classes (R349). -/
def cmdAdcStatus : Cmd :=
  { id := 0x0B00, form := exactly 0, state := needsField
    run := fun _ _ d =>
      let f := d.field
      let cs := f.convs.toList
      let ss := f.seqs.toList
      (d, .ok (words (cs.map (fun c => c.fn.word d.now convOff) ++ ss.map (fun x => x.fn.word d.now seqOff) ++ [f.exc.word d.now excOff] ++
        cs.map (fun c => c.cfg.toNat) ++ (cs.map (fun c => [c.usableA.toNat, c.usableB.toNat])).flatten ++
        ss.map (fun x => sat 0xFFFFFFFF x.runs) ++ ss.map (fun x => sat 0xFFFFFFFF x.countedAll) ++
        [f.fifoLevel, sat 0xFFFFFFFF f.fifoLost] ++ f.loops.toList.map (fun l => l.cls)))) }

/-- ADC_STATUS_GET (R349). -/
def execAdcStatusGet (dt : Nat) (o : Origin) (s : State) : Host.Outcome State Fault Refusal := wcpRow dt o cmdAdcStatus noOpen s

/-- `adc.result.get`: 64 registers, each a word and its field time. -/
def cmdAdcResult : Cmd :=
  { id := 0x0B01, form := exactly 4, state := needsField
    content := fun _ p => refuse (3 < p.word 0) sBadParam
    run := fun _ p d =>
      let regs := (d.field.seq (p.word 0)).regs
      (d, .ok (.cat ((List.range 64).map (fun i =>
        let r := (mget i regs).getD (0, 0)
        (w32 r.1.toNat).app (w64 r.2.toNat))))) }

/-- ADC_RESULT_GET (R336). -/
def execAdcResultGet (dt : Nat) (o : Origin) (s : State) : Host.Outcome State Fault Refusal := wcpRow dt o cmdAdcResult noOpen s

/-- `adc.seq.get`: header and entries. -/
def cmdSeqGet : Cmd :=
  { id := 0x0B02, form := exactly 4, state := needsField
    content := fun _ p => refuse (3 < p.word 0) sBadParam
    run := fun _ p d =>
      let x := d.field.seq (p.word 0)
      (d, .ok ((Bytes.mk' 16 x.hdr.toNat).app (.cat (x.entries.map (fun e => Bytes.mk' 8 e.toNat))))) }

/-- ADC_SEQ_GET (R349). -/
def execAdcSeqGet (dt : Nat) (o : Origin) (s : State) : Host.Outcome State Fault Refusal := wcpRow dt o cmdSeqGet noOpen s

/-- A MUX code of Table 11-6. -/
def muxOk (m : Nat) : Bool := m ≤ 5 || (8 ≤ m && m ≤ 0x0A) || (0x10 ≤ m && m ≤ 0x41) || (0x44 ≤ m && m ≤ 0x49)

/-- A header outside Table 11-7. -/
def seqHdrBad (h : BitVec 128) : Bool :=
  reservedSet h.toNat [(112, 112), (86, 86), (77, 72), (31, 0)] || 1000 < fld h 111 96 || 9 < sTrig h || sOverlap h == 3 ||
    outside (fld h 63 48) 1 1000 || 1000 < fld h 47 32

/-- An entry outside Table 11-8, on its own. -/
def Field.entryBad (f : Field) (h : BitVec 128) (e : BitVec 64) : Bool :=
  !muxOk (nMux e) || nDest e == 0 || nOwI e == 3 || 1 < nRange e || (nRange e == 1 && 5 < nMux e) || 8 < nShift e || 10000 < fld e 31 16 ||
    (!nOw e && nThresh e != 0) || (nDemod e && sTrig h != 9) || (f.paired && nConv e == 1)

/-- The entries of the chain that entry i belongs to, before it. -/
def earlier (es : List (BitVec 64)) (i : Nat) : List (BitVec 64) :=
  let before := (es.take i).reverse
  let sims := before.takeWhile nSim
  (before.drop sims.length).take 1 ++ sims

/-- An entry conflicts with its chain: SIM on entry 0, a converter or a MUX code named twice, or more than 16 samples in a chain on
ADC2 or ADC3 (R328, R329, R331). -/
def chainBad (es : List (BitVec 64)) (i : Nat) (e : BitVec 64) : Bool :=
  let chained := nSim e || (es.drop (i + 1)).head?.any nSim
  (nSim e && (i == 0 || (earlier es i).any (fun x => nConv x == nConv e || nMux x == nMux e))) ||
    (chained && 2 ≤ nConv e && 16 < nSamples e)

/-- The nominal positive-half time of an EXC sequence up to and with entry i exceeds half a period less EXC_SETTLE (R331). -/
def Field.halfLong (f : Field) (h : BitVec 128) (es : List (BitVec 64)) (i : Nat) : Bool :=
  let take := (List.range (i + 1)).map (fun j =>
    let e := (es.drop j).head?.getD 0
    if nSim e then 0
    else nDelay e + f.chainTime ((e :: ((es.drop (j + 1)).take (i - j)).takeWhile nSim).map (fun x => (0, x))))
  sTrig h == 9 && decide (f.excP * us / 2 < sDelay h + 250 + take.sum + sSettle h)

/-- The first failing entry. -/
def Field.badEntry (f : Field) (h : BitVec 128) (es : List (BitVec 64)) : Option Nat :=
  (List.range es.length).find? (fun i =>
    let e := (es.drop i).head?.getD 0
    f.entryBad h e || chainBad es i e || f.halfLong h es i)

/-- The payload of `adc.seq.set`. -/
def seqHdrOf (p : Bytes) : BitVec 128 := .ofNat 128 (p.slice 4 16).val
def seqEntriesOf (p : Bytes) : List (BitVec 64) := (List.range (sNent (seqHdrOf p))).map (fun i => .ofNat 64 (p.slice (20 + 8 * i) 8).val)

/-- `adc.seq.set`: sequence, header, NENT entries. -/
def cmdSeqSet : Cmd :=
  { id := 0x0B43, form := fun p => 20 ≤ p.len && 20 + 8 * sNent (seqHdrOf p) ≤ p.len
    state := fun d p =>
      match needsField d p with
      | some r => some r
      | none => refuse (p.word 0 < 4 && (d.field.seq (p.word 0)).fn.st != .off) sBadState
    content := fun d p =>
      let h := seqHdrOf p
      if p.len != 20 + 8 * sNent h || 3 < p.word 0 || seqHdrBad h || (sQen h && d.bindFails (sQueue h) 0x06 (.seq (p.word 0))) then some (sBadParam, Bytes.nil)
      else (d.field.badEntry h (seqEntriesOf p)).map (fun i => (sBadParam, w32 i))
    run := fun _ p d =>
      let q := p.word 0
      let h := seqHdrOf p
      let x := d.field.seq q
      let old := if x.loaded && sQen x.hdr then sQueue x.hdr else 0xFFFF
      let d := d.modSeq q (fun x => { x with loaded := true, hdr := h, entries := seqEntriesOf p, regs := [], openSet := [] })
      (d.bind (.seq q) old (if sQen h then sQueue h else 0xFFFF), .no sOk) }

/-- ADC_SEQ_SET (R331). -/
def execAdcSeqSet (dt : Nat) (o : Origin) (s : State) : Host.Outcome State Fault Refusal := wcpRow dt o cmdSeqSet noOpen s

/-- A sequence may go ON: its converters are ON, and EXC_POL where it demodulates (R335, R342); entries of a paired ADC1 are invalid
(R331). -/
def Field.seqReady (f : Field) (q : Nat) : Bool :=
  let x := f.seq q
  x.loaded && (x.needs f).all (fun c => (f.conv c).fn.st == .on) && !(f.paired && x.uses 1) &&
    (!x.entries.any nDemod || f.exc.st == .on)

/-- ON at once; under CONT the first run is triggered with it (DESIGN CHOICE, log entry 80). -/
def Device.seqStart (d : Device) (q : Nat) : Device :=
  let d := (d.reachOn (seqFn q)).seqEvent q
  if sTrig (d.field.seq q).hdr = 7 then d.seqTrigger q else d

/-- `adc.seq.enable`. -/
def cmdSeqEnable : Cmd :=
  { id := 0x0B44, form := exactly 4
    state := fun d p =>
      match needsField d p with
      | some r => some r
      | none => refuse (p.word 0 < 4 && !d.field.seqReady (p.word 0)) sBadState
    hw := fun d p => p.word 0 < 4 && (List.range 4).any (fun c => (d.field.seq (p.word 0)).uses c && d.field.outOfService c)
    content := fun _ p => refuse (3 < p.word 0) sBadParam
    run := fun _ p d => d.enableFn (seqFn (p.word 0)) false (fun d => d.seqStart (p.word 0)) }

/-- ADC_SEQ_ENABLE (R335). -/
def execAdcSeqEnable (dt : Nat) (o : Origin) (s : State) : Host.Outcome State Fault Refusal := wcpRow dt o cmdSeqEnable noOpen s

/-- STOPPING lasts at most the longest entry plus its DELAY: the run is cut, a held trigger discarded. -/
def Device.seqStop (d : Device) (q : Nat) : Device :=
  let longest := (d.field.seq q).entries.foldl (fun a e => max a (nDelay e + ceilDiv (nSamples e * d.field.slot (nConv e)) 2)) 0
  ((d.beginStop (seqFn q) longest).modSeq q (fun x => { x with
    held := none, run := x.run.map (fun r => { r with cut := true }) })).seqEvent q

/-- `adc.seq.disable`. -/
def cmdSeqDisable : Cmd :=
  { id := 0x0B45, form := exactly 4, state := needsField
    content := fun _ p => refuse (3 < p.word 0) sBadParam
    run := fun _ p d => d.disableFn (seqFn (p.word 0)) true (fun d => d.seqStop (p.word 0)) }

/-- ADC_SEQ_DISABLE (R335). -/
def execAdcSeqDisable (dt : Nat) (o : Origin) (s : State) : Host.Outcome State Fault Refusal := wcpRow dt o cmdSeqDisable noOpen s

/-- `adc.seq.trigger`: one HOST trigger; of a sequence that is not ON, or has another source, S_BAD_STATE (DESIGN CHOICE, log entry
81). -/
def cmdSeqTrigger : Cmd :=
  { id := 0x0B46, form := exactly 4
    state := fun d p =>
      let x := d.field.seq (p.word 0)
      match needsField d p with
      | some r => some r
      | none => refuse (p.word 0 < 4 && (x.fn.st != .on || sTrig x.hdr != 8)) sBadState
    content := fun _ p => refuse (3 < p.word 0) sBadParam
    run := fun _ p d => (d.seqTrigger (p.word 0), .no sOk) }

/-- ADC_SEQ_TRIGGER (R333). -/
def execAdcSeqTrigger (dt : Nat) (o : Origin) (s : State) : Host.Outcome State Fault Refusal := wcpRow dt o cmdSeqTrigger noOpen s

/-- `adc.timer.set`: timer, PERIOD, PHASE in us. -/
def cmdTimerSet : Cmd :=
  { id := 0x0B47, form := exactly 12, state := needsField
    content := fun _ p => refuse (3 < p.word 0 || outside (p.word 1) 1 10000000 || p.word 1 ≤ p.word 2) sBadParam
    run := fun _ p d =>
      (d.modField (fun f => { f with
        timers := vset f.timers (p.word 0) (p.word 1, p.word 2, lastTick (p.word 1) (p.word 2) (d.fieldNs / us)) }), .no sOk) }

/-- ADC_TIMER_SET (R333). -/
def execAdcTimerSet (dt : Nat) (o : Origin) (s : State) : Host.Outcome State Fault Refusal := wcpRow dt o cmdTimerSet noOpen s

end Sys2Proof.Machine
end

