-- ==== Sys2Proof/Machine/FieldTick.lean ====
section
/-! DEFINITION. The field tick: readbacks, the background conversions of ADC2, remaps and their storage (R306, R307, R313, R323, R328,
R341, R405). -/

namespace Sys2Proof.Machine

open Sys2Proof

/-! Loop inputs (R341). -/

/-- Class of a loop current in uA (Table 11-11): 0 VALID, 1 FAULT_LOW, 2 FAULT_HIGH, 3 UNDER, 4 OVER. -/
def loopClass (ua : Nat) : Nat := if ua ≤ 3600 then 1 else if ua ≤ 3799 then 3 else if ua ≤ 20500 then 0 else if ua ≤ 20999 then 4 else 2

/-- A loop after a sample: its current and class, and the class of its fault, which ends after 10 samples outside the fault classes. -/
def Loop.after (l : Loop) (ua : Nat) : Loop :=
  let c := loopClass ua
  let bad := c == 1 || c == 2
  let n := if bad then 0 else l.okN + 1
  { ua := ua, cls := c, fault := if bad then c else if n < 10 then l.fault else 0, okN := if l.fault = 0 then 0 else n }

/-- One sample of a loop: E_LOOP with the first sample in a fault class, and when the fault ends (a change of fault class is a first
sample; DEDUCED, log entry 133). -/
def Device.loopSample (d : Device) (i code : Nat) : Device :=
  let k := (d.field.coeffUse (15 + i)).1
  let ua := roundDiv (correct k code * 25000) 65536
  let old := vget d.field.loops i {}
  let new := old.after ua
  let d := d.modField (fun f => { f with loops := vset f.loops i new })
  if new.fault != old.fault then d.fieldEvent 0x0B03 i (new.cls * 2 ^ 253 + ua * 2 ^ 237) else d

/-- The background conversions of a tick in order, each its input and its raw code (R328). -/
def backgroundOf (x : FieldSense) : List (Nat × Int) :=
  [(0x40, x.loop0), (0x41, x.loop1), (0x44, x.v0), (0x45, x.v1), (0x46, x.v2), (0x47, x.v3)]

/-! VFIELD groups (R306, R328). -/

/-- One sample of a group's voltage, in mV. -/
def Device.groupSample (d : Device) (g code : Nat) : Device :=
  let mv := code * 75000 / 65536
  let level := bSag d.field.block
  d.modGroup g (fun x => { x with
    mv := mv, prevMv := x.mv, minMv := min x.minMv mv, lowest := if x.epAt.isSome then min x.lowest mv else x.lowest
    sagBelow := if mv ≤ level + 500 then d.now else x.sagBelow
    uvBelow := if mv ≤ 8000 then d.now else x.uvBelow
    low := x.low && decide (mv < level) })

/-! Lit when commanded dark (R307). -/

/-- Ticks count while the output is commanded dark, outside OFF_BLANK and its own diagnostic pulse. -/
def Device.litCounts (d : Device) (k : Nat) : Bool :=
  let o := d.field.out k
  d.commandedDark k && decide (o.offAt + cOffBlank (d.field.cfg k) ≤ d.now) && (o.diagAt = 0 || decide (o.diagAt + 50 * us ≤ d.now))

/-- One tick of an output's readback: the integrating count, and, while its voltage is being attributed, whether it persists. -/
def Output.litTick (o : Output) (rb counts : Bool) (top now : Nat) : Output :=
  let n := if !counts then o.litInt else if rb then sat top (o.litInt + 1) else o.litInt - 1
  let o := { o with rb := rb, litInt := n, elecLit := o.elecLit && n != 0, persisted := o.persisted && (rb || !counts) }
  if counts && rb then o.item false now else o

/-- The attribution after one full diagnostic cycle: a voltage that persisted through it is a short to VFIELD. -/
def Device.attribute (d : Device) (k : Nat) : Device :=
  let o := d.field.out k
  match o.attrAt with
  | some t =>
    if d.now < t + 10 * ms then d
    else
      let d := d.modOut k (fun o => { o with attrAt := none })
      if o.persisted then d.foundShort k false else d
  | none => d

/-- The readback stages (R323): each output's voltage against 40 % of its group's VFIELD, present from there on (log entry 160). -/
def readbackOf (x : FieldSense) : BitVec 16 :=
  .ofNat 16 (fields ((List.range 16).map (fun k =>
    let code := match k / 4 with
      | 0 => x.v0
      | 1 => x.v1
      | 2 => x.v2
      | _ => x.v3
    (k, (decide (2 * (rawClamp code * 75000) ≤ 5 * ((x.outs.drop k).head?.getD 0 * 65536))).toNat))))

/-- Readbacks sampled. -/
def Device.readbacks (d : Device) (rb : BitVec 16) : Device :=
  let d := d.modField (fun f => { f with readback := rb })
  let d := (List.range 16).foldl (fun d k =>
    d.modOut k (fun o => o.litTick (bit rb k) (d.litCounts k) (100 * cLitMs (d.field.cfg k)) d.now)) d
  (List.range 16).foldl (fun d k => d.attribute k) d

/-! Remaps at a tick, and NVM commits that waited for their supply (R313, R405). -/

/-- The remaps in force written to NVM. -/
def Device.storeRemaps (d : Device) : Device := (d.modField (fun f => { f with remapNvm := f.remaps })).nvmDone .remap

/-- Requests due at this tick: those of the field die at once, those by command once their storage may start. -/
def Device.remapTick (d : Device) : Device :=
  let ok := d.field.nvmOk
  let due := d.field.remapDue.filter (fun r => r.auto || ok)
  if due.isEmpty then d
  else
    let d := d.modField (fun f => { f with remapDue := f.remapDue.filter (fun r => !(r.auto || ok)) })
    let d := due.foldl (fun d r => d.doRemap r) d
    let d := if ok then d.storeRemaps else d.nvmWaits .remap
    due.foldl (fun d r => if r.auto then d else d.complete (.remap r.out) sOk Bytes.nil) d

/-- A commit of a kind waits for its supply. -/
def Device.nvmWaiting (d : Device) (k : NvmKind) : Bool := d.power.nvmWait.any (fun w => w.1 == k)

/-- What waited for 9.0 V starts, in its order; a field block whose voltage has fallen begins to wait. -/
def Device.nvmRelease (d : Device) : Device :=
  if !d.field.nvmOk then d.blockWaits
  else
    let d := d.field.inCfgNext.foldl (fun (d : Device) c => (d.storeInputs c).completeFirst .inConfig sOk Bytes.nil) d
    let d := (d.modField (fun f => { f with inCfgNext := [] })).nvmDone .inputs
    let d := (d.power.nvmWait.filter (fun w => w.1 == .coeffs)).foldl (fun (d : Device) _ =>
      d.storeCoeffs.completeFirst .adcCalCommit sOk Bytes.nil) d
    let d := d.nvmDone .coeffs
    let d := if d.nvmWaiting .remap then d.storeRemaps else d
    d.nvmDone .fieldBlock

/-- The tick. -/
def Device.fieldTick (d : Device) (x : FieldSense) : Device :=
  if d.now < d.field.tickAt then d
  else
    let d := d.modField (fun f => { f with tickAt := d.nextTick })
    let d :=
      if d.field.noSupervision then d
      else
        let d := (d.takeSlots 2 6).ranBackground 2 ((backgroundOf x).map (fun p => (p.1, decide (p.2 < 0) || decide (65535 < p.2))))
        let d := (d.loopSample 0 (rawClamp x.loop0)).loopSample 1 (rawClamp x.loop1)
        [(0, x.v0), (1, x.v1), (2, x.v2), (3, x.v3)].foldl (fun d (p : Nat × Int) => d.groupSample p.1 (rawClamp p.2)) d
    (((d.endDiags false).readbacks (readbackOf x)).remapTick).nvmRelease

/-- FIELD_TICK (R323). -/
def execFieldTick (dt : Nat) (tick : FieldSense) (s : State) : Host.Outcome State Fault Refusal := fieldRow dt (fun d => d.fieldTick tick) s

end Sys2Proof.Machine
end

