-- ==== Sys2Proof/Machine/BlackBox.lean ====
section
/-! DEFINITION. The black-box store: records in two phases, first-fault area, counters and reading (R411-R418). -/

namespace Sys2Proof.Machine

open Sys2Proof

/-! Records (R411). -/

/-- What a record's header says (Table 14-8). -/
structure RecHead where
  tick : Nat
  time : Nat
  seq : Nat
  boot : Nat
  epoch : Nat
  kind : Nat
  source : Nat
  sev : Nat
  first : Bool
  late : Bool
  plen : Nat
deriving DecidableEq, Repr

/-- Bytes 0-31. -/
def RecHead.bits (h : RecHead) : Nat :=
  fields [(192, h.tick % 2 ^ 64), (128, h.time), (96, h.seq % 2 ^ 32), (80, h.boot % 2 ^ 16), (64, h.epoch), (48, h.kind),
    (32, h.source % 2 ^ 16), (20, h.sev), (19, h.first.toNat), (18, h.late.toNat), (9, h.plen)]

/-- Bytes 0-503: header, its complement, payload, CRC-32; the first phase of a write. -/
def recBody (hdr payload : Nat) : Nat :=
  let x := hdr + (2 ^ 256 - 1 - hdr) * 2 ^ 256 + payload * 2 ^ 512
  x + Crypto.crc32 496 x * 2 ^ (8 * 496)

/-- Bytes 504-511: SEQ, then its complement; the second phase. -/
def recCommit (seq : Nat) : Nat := seq % 2 ^ 32 * 2 ^ (8 * 504) + (2 ^ 32 - 1 - seq % 2 ^ 32) * 2 ^ (8 * 508)

/-- Fields of a record. -/
def recKind (r : BitVec 4096) : Nat := fld r 63 48
def recSource (r : BitVec 4096) : Nat := fld r 47 32
def recSev (r : BitVec 4096) : Nat := fld r 21 20
def recPayload (r : BitVec 4096) : Nat := r.toNat / 2 ^ 512 % 2 ^ (8 * 432)

/-- A record is valid: header pair, CRC, commit pair equal to SEQ. -/
def recValid (r : BitVec 4096) : Bool :=
  fld r 511 256 == 2 ^ 256 - 1 - fld r 255 0 && fld r 3999 3968 == Crypto.crc32 496 (r.toNat % 2 ^ 3968) &&
    fld r 4063 4032 == recSeq r && fld r 4095 4064 == 2 ^ 32 - 1 - recSeq r

/-- A pending record with its SEQ, as its first phase writes it. -/
def Device.recordBits (d : Device) (p : PendRec) (seq : Nat) : BitVec 4096 :=
  let body := (p.change.map (fun x => d.sealBytes x)).getD p.payload
  let len := min 432 body.len
  let h : RecHead :=
    { tick := p.tick, time := if p.late then 0 else p.time.toNat, seq := seq, boot := d.counter cBoot, epoch := d.time.epoch.toNat
      kind := p.kind, source := p.source, sev := p.severity, first := false, late := p.late, plen := len }
  .ofNat 4096 (recBody h.bits (body.slice 0 len).val)

/-- The copy of a record in the first-fault area: FIRST set, everything else its own. -/
def firstCopy (r : BitVec 4096) : BitVec 4096 :=
  .ofNat 4096 (recBody (fld r 255 0 + (1 - fld r 19 19) * 2 ^ 19) (recPayload r) + recCommit (recSeq r))

def Device.modLog (d : Device) (f : Log → Log) : Device := { d with log := f d.log }

/-- The counters E_LOG reports are read (class 19). -/
def Device.reportRead (d : Device) : Device := ((d.counterRead cLost).counterRead cTorn).counterRead cFfFull

/-- E_LOG when LOST_RECORDS, TORN or FF_FULL has grown, at most once per 1 s (R419). -/
def Device.logReport (d : Device) : Device :=
  let d := d.reportRead
  let x := (d.counter cLost, d.counter cTorn, d.counter cFfFull)
  if x = d.log.logSeen || d.now < d.log.logAt + second then d
  else (d.modLog (fun l => { l with logSeen := x, logAt := d.now })).raise 0x0F01 0 (fields [(224, x.1), (192, x.2.1), (160, x.2.2)])

/-- HOST records pending or being written. -/
def Log.hostRecs (l : Log) : Nat :=
  (l.pend.filter (fun p => p.kind == 0x0011)).length + (l.writing.filter (fun r => recKind r == 0x0011)).toList.length

/-- A mark whose record was discarded from a full queue completes S_BUSY (DESIGN CHOICE, log entry 83). -/
def Device.markCheck (d : Device) : Device :=
  let marks := d.wcp.waits.filter (fun w => w.kind == .mark)
  (marks.drop d.log.hostRecs).foldl (fun d w =>
    ({ d with wcp := { d.wcp with waits := d.wcp.waits.erase w } } : Device).finish w sBusy Bytes.nil) d

/-- The oldest pending record's write begins, one write at a time, and stops a slice of row 7 (R361); after shutdown-imminent none begins
(R18, R400, R412). -/
def Device.bbWrite (d : Device) : Device :=
  let d := d.markCheck
  if d.log.writing.isSome || d.power.shut.isSome then d
  else match d.log.pend with
    | [] => d.logReport
    | p :: _ =>
      let d := (d.serve [7]).counterRead cBoot
      let d := if p.change.isSome then (d.counterRead cSeal).count cSeal 1 else d
      (d.modLog (fun l => { l with
        pend := l.pend.drop 1, sealing := p.change, writing := some (d.recordBits p l.nextSeq), writeAt := d.now, nextSeq := l.nextSeq + 1 })).logReport

/-- BB_RECORD_WRITE (R412). -/
def execBbRecordWrite (dt : Nat) (s : State) : Host.Outcome State Fault Refusal := fwRow dt Device.bbWrite s

/-- A committed record enters the ring of 2,048; each overwrite counts, and every 64 records RECORD_SEQ does (R412, R416). -/
def Device.logAppend (d : Device) (r : BitVec 4096) : Device :=
  let full : Bool := 2048 ≤ d.log.recs.length
  let d := d.modLog (fun l => { l with recs := (if full then l.recs.drop 1 else l.recs) ++ [r], writing := none })
  (d.count cOverwritten full.toNat).count cRecSeq ((recSeq r + 1) % 64 == 0).toNat

/-- The first FAULT or SAFETY record of a KIND and SOURCE is copied; with 512 slots used it is counted (R414). -/
def Device.firstFault (d : Device) (r : BitVec 4096) : Device :=
  let known := d.log.ff.any (fun x => recKind x == recKind r && recSource x == recSource r)
  if recSev r < 2 || known || d.power.shut.isSome then d
  else if d.log.ff.length < 512 then d.modLog (fun l => { l with ff := l.ff ++ [firstCopy r] })
  else d.count cFfFull 1

/-- The record of a sealed change with the entry of the event that its commit raises (R386, R413). -/
def Device.withSealEntry (d : Device) (r : BitVec 4096) : BitVec 4096 :=
  match d.log.sealing with
  | none => r
  | some x => .ofNat 4096 (recBody (fld r 255 0) (recPayload r / 2 ^ 256 * 2 ^ 256 + (d.sealBytes x).val % 2 ^ 256))

/-- A sealed change is recorded: the identifiers take their new values, and the event is raised (R386). -/
def Device.sealDone (d : Device) : Device :=
  match d.log.sealing with
  | none => d
  | some x =>
    let d := { d with log := { d.log with sealing := none }, sec := { d.sec with digests := x.digests d.sec.digests } }
    d.raise 0x0D01 x.source (sealPayload (d.counter cSeal) d.digestShown)

/-- The record being written commits. -/
def Device.bbCommit (d : Device) : Device :=
  match d.log.writing with
  | none => d
  | some w =>
    let w := d.withSealEntry w
    let r := BitVec.ofNat 4096 (w.toNat % 2 ^ 4032 + recCommit (recSeq w))
    let d := ((d.logAppend r).firstFault r).sealDone
    let d := if recKind r = 0x0011 then d.completeFirst .mark sOk Bytes.nil else d
    d.logReport

/-- BB_RECORD_COMMIT (R411). -/
def execBbRecordCommit (dt : Nat) (s : State) : Host.Outcome State Fault Refusal := coreRow dt Device.bbCommit s

/-- ON_TIME_TICK (R416): every 60 s with the core side running. -/
def execOnTimeTick (dt : Nat) (s : State) : Host.Outcome State Fault Refusal :=
  coreRow dt (fun d =>
    if d.log.onTimeAt + 60 * second ≤ d.now then (d.modLog (fun l => { l with onTimeAt := d.now })).count cOnTime 1 else d) s

/-! Commands (R417-R419). -/

/-- The lowest SEQ held of a list of records. -/
def oldestSeq (l : List (BitVec 4096)) : Nat := ((l.filter recValid).map recSeq).foldl min (((l.filter recValid).head?.map recSeq).getD 0)

/-- `log.status.get`. -/
def cmdLogStatus : Cmd := .query 0x0F00 (exactly 0) (fun _ _ => none)
  (fun d _ => words [oldestSeq d.log.recs, d.log.nextSeq, d.log.ff.length, d.log.pend.length])

/-- LOG_STATUS_GET (R419). -/
def execLogStatusGet (dt : Nat) (o : Origin) (s : State) : Host.Outcome State Fault Refusal := wcpRow dt o cmdLogStatus noOpen s

/-- The header of R417 and the records returned. -/
def Device.logResult (d : Device) (oldest : Nat) (rs : List (BitVec 4096)) : Bytes :=
  (words [oldest, d.log.nextSeq, (rs.head?.map recSeq).getD 0, rs.length]).app (.cat (rs.map (fun r => Bytes.mk' 512 r.toNat)))

/-- `log.read`: valid records in SEQ order from the lowest held at or above the first. -/
def cmdLogRead : Cmd := .query 0x0F01 (exactly 8) (fun _ p => refuse (outside (p.word 1) 1 7) sBadParam)
  (fun d p =>
    let rs := (d.log.recs.filter (fun r => recValid r && decide (p.word 0 ≤ recSeq r))).mergeSort (fun a b => recSeq a ≤ recSeq b)
    d.logResult (oldestSeq d.log.recs) (rs.take (p.word 1)))

/-- LOG_READ (R417). -/
def execLogRead (dt : Nat) (o : Origin) (s : State) : Host.Outcome State Fault Refusal := wcpRow dt o cmdLogRead noOpen s

/-- `log.ff.read`: the first-fault area by slot. -/
def cmdLogFf : Cmd := .query 0x0F02 (exactly 8) (fun _ p => refuse (511 < p.word 0 || outside (p.word 1) 1 7) sBadParam)
  (fun d p => d.logResult (oldestSeq d.log.ff) (((d.log.ff.drop (p.word 0)).filter recValid).take (p.word 1)))

/-- LOG_FF_READ (R417). -/
def execLogFfRead (dt : Nat) (o : Origin) (s : State) : Host.Outcome State Fault Refusal := wcpRow dt o cmdLogFf noOpen s

/-- `log.counters.get`: each counter in the order of Table 14-10; one with both slots inconsistent is reported (Table 12-1, class
19). -/
def cmdLogCounters : Cmd :=
  { id := 0x0F03, form := exactly 0
    run := fun _ _ d =>
      let ok := (List.range 10).all d.counterOk
      let d := (List.range 10).foldl Device.counterRead d
      (d, answerPair ok (words ((List.range 10).map (fun i => d.counter i)))) }

/-- LOG_COUNTERS_GET (R416). -/
def execLogCountersGet (dt : Nat) (o : Origin) (s : State) : Host.Outcome State Fault Refusal := wcpRow dt o cmdLogCounters noOpen s

/-- `log.mark`: a HOST record; S_OK once it is committed. -/
def cmdLogMark : Cmd :=
  { id := 0x0F40
    busy := fun d _ => 64 ≤ d.log.pend.length
    content := fun _ p => refuse (400 < p.len) sBadParam
    run := fun _ p d => (d.record 0x0011 0 sevInfo p, .pend .mark) }

/-- LOG_MARK (R418). -/
def execLogMark (dt : Nat) (o : Origin) (s : State) : Host.Outcome State Fault Refusal := wcpRow dt o cmdLogMark noOpen s

end Sys2Proof.Machine
end

