-- ==== Sys2Proof/Machine/Thermal.lean ====
section
/-! DEFINITION. The thermal guard: sensors, their cross-check and the throttling ladder (R406-R409, R419). -/

namespace Sys2Proof.Machine

open Sys2Proof

def Device.modPower (d : Device) (f : Power → Power) : Device := { d with power := f d.power }

/-! Sensors (R407); temperatures in 0.01 degC. -/

/-- Threshold of a step (Table 14-6). -/
def Power.threshold (p : Power) (k : Nat) : Int :=
  ((([13500, 13500, 14000, 14500, 14800] : List Int)[k]?).getD 14800) - 100 * p.lower

/-- The die of a sensor is sampled at 10 kHz (R406): a temperature on it is within 10 K of the next ladder threshold or of the hardware
limit, or above (DEDUCED, log entry 169). -/
def Power.fast (p : Power) (i : Nat) : Bool :=
  (dieOf i).any (fun j => (p.step < 4 && decide (p.threshold (p.step + 1) - 1000 ≤ p.value j)) || decide (15500 ≤ p.value j))

/-- A sensor's next sample is due: 100 us or 1 ms after its last. -/
def Power.sampleDue (p : Power) (i now : Nat) : Bool :=
  let last := (p.sensor i).at_
  last == 0 || decide (last + (if p.fast i then 100 * us else ms) ≤ now)

/-- The highest reading of a sensor's valid neighbours. -/
def Power.nbMax (p : Power) (i : Nat) : Option Int := p.maxValid (neighbours i)

/-- OFFSET of a sensor in 0.01 K. -/
def Power.offsetOf (p : Power) (i : Nat) : Int := roundInt (p.sensor i).offset 65536

/-- A reading taken: what it changed by, and since when it stands. -/
structure Reading where
  idx : Nat
  t : Int
  /-- No reading came before it since the sensor's die started. -/
  fresh : Bool
deriving DecidableEq, Repr

/-- The reading list of a sample: of the sensors that are due, those of the core while the C-die runs, those of the F-die while the field
die does. -/
def Device.readingsOf (d : Device) (temps : List Int) : List Reading :=
  (temps.zipIdx.filter (fun x => x.2 < 16 && (if x.2 < 12 then d.alive else d.field.running) && d.power.sampleDue x.2 d.now)).map (fun x =>
    { idx := x.2, t := x.1, fresh := (d.power.sensor x.2).stillAt == 0 })

/-- The change of sensor i's reading in a sample; 0 where it took none. -/
def Power.delta (p : Power) (rs : List Reading) (i : Nat) : Int :=
  match rs.find? (fun r => r.idx == i) with
  | some r => if r.fresh then 0 else r.t - (p.sensor i).reading
  | none => 0

/-- The new reading of sensor i. -/
def Power.newReading (p : Power) (rs : List Reading) (i : Nat) : Int :=
  match rs.find? (fun r => r.idx == i) with
  | some r => r.t
  | none => (p.sensor i).reading

/-- A reading differs from what its valid neighbours lead to expect by more than 8 K. -/
def Power.disagrees (p : Power) (rs : List Reading) (r : Reading) : Bool :=
  let nb := ((neighbours r.idx).filter (fun j => (p.sensor j).valid)).map (fun j => p.newReading rs j)
  match nb.max? with
  | some m => decide (800 < (r.t - (m + p.offsetOf r.idx)).natAbs)
  | none => false

/-- A sensor after a reading, its validity aside: the count of disagreements, and since when the reading has not changed. -/
def Power.track (p : Power) (rs : List Reading) (r : Reading) (now : Nat) : Sensor :=
  let s := p.sensor r.idx
  let s := { s with dis := if p.disagrees rs r then sat 10 (s.dis + 1) else 0, at_ := max 1 now }
  if r.fresh || r.t != s.still then
    { s with reading := r.t, still := r.t, stillNb := (neighbours r.idx).map (fun j => p.newReading rs j), stillAt := max 1 now }
  else { s with reading := r.t }

/-- The exclusion condition a reading meets (R407), `s` being the sensor after it: 0 range, 1 jump, 2 disagreement, 3 stuck. Samples
at most 100 us apart are 10 kHz samples. -/
def Power.condition (p : Power) (rs : List Reading) (r : Reading) (s : Sensor) (fast : Bool) (now : Nat) : Option Nat :=
  let dl := (p.delta rs r.idx).natAbs
  let calm := (neighbours r.idx).all (fun j => decide ((p.delta rs j).natAbs * 4 ≤ dl))
  let moved := ((neighbours r.idx).zip s.stillNb).any (fun x => decide (500 < (p.newReading rs x.1 - x.2).natAbs))
  if r.t < -5500 || 20000 < r.t then some 0
  else if (if fast then 200 else 2000) < dl && calm then some 1
  else if 10 ≤ s.dis then some 2
  else if s.stillAt + 60 * second ≤ now && moved then some 3
  else none

/-- OFFSET learned with a time constant of 600 s while every sensor involved is valid; a first-order filter (DESIGN CHOICE, log entry
84). -/
def Power.learn (p : Power) (i dt : Nat) : Power :=
  if (i :: neighbours i).all (fun j => (p.sensor j).valid) then
    match p.nbMax i with
    | some m =>
      let x : Int := ((p.sensor i).reading - m) * 65536
      { p with sensors := vmod p.sensors i (fun s => { s with offset := s.offset + (x - s.offset) * dt / (600 * second : Nat) }) }
    | none => p
  else p

/-- 16 bits of a signed temperature. -/
def temp16 (t : Int) : Nat := (t % 2 ^ 16).toNat

/-- E_THERM_SENSOR and its record: excluded, or restored. -/
def Device.sensorEvent (d : Device) (i : Nat) (excluded : Bool) (rule : Nat) : Device :=
  let p := d.power
  let r := (p.sensor i).reading
  let payload := fields [(255, excluded.toNat), (252, rule), (236, temp16 r), (220, temp16 (p.substitute i))]
  if !excluded then (if i < 12 then d.raise 0x0E02 i payload else d.fieldEvent 0x0E02 i payload)
  else
    let extra := (words [i, rule]).app ((wInt r).app (wInt (p.substitute i)))
    if i < 12 then d.raiseRec 0x0E02 i payload 0x0005 sevFault extra else d.fieldRec 0x0E02 i payload 0x0005 sevFault extra

/-- Since a sensor's last sample. -/
def Power.since_ (p : Power) (i now : Nat) : Nat := if (p.sensor i).at_ = 0 then 0 else now - (p.sensor i).at_

/-- The sensors after a sample, and those it excludes. -/
def Device.takeReadings (d : Device) (rs : List Reading) : Device :=
  let old := d.power
  let p := old
  let judged := rs.map (fun r =>
    let s := p.track rs r d.now
    (r.idx, s, p.condition rs r s (decide (old.since_ r.idx d.now ≤ 100 * us)) d.now))
  let bad := judged.filterMap (fun (x : Nat × Sensor × Option Nat) => if x.2.1.valid then x.2.2.map (fun c => (x.1, c)) else none)
  let sensors := judged.foldl (fun (v : Vector Sensor 16) (x : Nat × Sensor × Option Nat) =>
    let s := x.2.1
    let s := if x.2.2.isSome then { s with metAt := d.now, valid := false, rule := if s.valid then x.2.2.getD 0 else s.rule } else s
    vset v x.1 s) p.sensors
  let p := { p with sensors := sensors, exclAt := if bad.isEmpty then p.exclAt else some d.now }
  let p := rs.foldl (fun p r => p.learn r.idx (old.since_ r.idx d.now)) p
  bad.foldl (fun d x => d.sensorEvent x.1 true x.2) { d with power := p }

/-! The ladder (R408). -/

/-- T_G and the sensor that governs. -/
def Power.governing (p : Power) : Int × Nat :=
  (List.range 12).foldl (fun a i => if a.1 < p.value i then (p.value i, i) else a) (p.value 0, 0)

/-- The step a temperature reaches. -/
def Power.reaches (p : Power) (t : Int) : Nat := (([4, 3, 2, 1] : List Nat).find? (fun k => p.threshold k ≤ t)).getD 0

/-- Two or more sensors of the C-die, the S-tier and the P-die are excluded (DEDUCED: counted together, log entry 85). -/
def Power.twoFailed (p : Power) : Bool := 2 ≤ ((List.range 12).filter (fun i => !(p.sensor i).valid)).length

/-- The rise over the last 1 s, where a sample that old is known. -/
def Power.rise (p : Power) (tg : Int) (now : Nat) : Option Int :=
  (p.tgHist.find? (fun x => decide (x.1 + second ≤ now))).map (fun x => tg - x.2)

/-- A predicted rise: at least RISE_RATE over 1 s, and T_G plus 2 s of it at the next threshold. -/
def Power.predicts (p : Power) (tg : Int) (now : Nat) : Bool :=
  p.step < 4 && (p.rise tg now).any (fun (r : Int) => decide (((p.riseRate * 10 : Nat) : Int) ≤ r) && decide (p.threshold (p.step + 1) ≤ tg + 2 * r))

/-- Since when T_G has stayed 5 K below the step in force. -/
def Power.below (p : Power) (tg : Int) (now : Nat) : Option Nat :=
  if 0 < p.step && tg + 500 ≤ p.threshold p.step then some (p.belowSince.getD now) else none

/-- The step changes: E_THERM_STEP and its record; step 4 stops the firing controller and self-test slices
(Table 14-6). -/
def Device.setStep (d : Device) (new : Nat) (predict : Bool) : Device :=
  let p := d.power
  let g := p.governing
  let held := p.twoFailed && new == 3
  let payload := fields [(253, new), (250, p.step), (249, predict.toNat), (248, held.toNat), (232, temp16 g.1), (227, g.2)]
  let d := d.modPower (fun p => { p with step := new, belowSince := none })
  let d := d.raiseRec 0x0E01 0 payload 0x0004 sevWarn ((words [p.step, new]).app ((wInt g.1).app (w32 predict.toNat)))
  if new = 4 then (d.sliceLoss 4).fireFaultStop else d

/-- The step after a sample: two samples in a row at a higher step, else a predicted rise; at least 3 with two failed sensors. -/
def Device.ladder (d : Device) : Device :=
  let p := d.power
  let tg := p.governing.1
  let tgt := p.reaches tg
  let up := min tgt p.upStep
  let predict := !decide (p.step < up) && p.predicts tg d.now
  let new := max (if p.step < up then up else if predict then p.step + 1 else p.step) (if p.twoFailed then 3 else 0)
  let old := (p.tgHist.filter (fun x => decide (d.now < x.1 + second))) ++ (p.tgHist.find? (fun x => decide (x.1 + second ≤ d.now))).toList
  let d := d.modPower (fun p => { p with upStep := tgt, tgHist := (d.now, tg) :: old })
  let d := if new = p.step then d else d.setStep new predict
  d.modPower (fun p => { p with belowSince := p.below tg d.now })

/-- A sample of the sensors that are due, each 1,000 or 10,000 a second (R406): readings in the order TS0-TS15. -/
def Device.thermSample (d : Device) (temps : List Int) : Device :=
  let rs := d.readingsOf temps
  if rs.isEmpty then d
  else
    let d := d.takeReadings rs
    if rs.any (fun r => r.idx < 12) then (d.modRx (fun r => r.crossSample d.ts d.now)).ladder else d

/-- THERMAL_SAMPLE (R408). -/
def execThermalSample (dt : Nat) (temps : List Int) (s : State) : Host.Outcome State Fault Refusal := devRow dt (fun d => d.thermSample temps) s

/-- When the step may next fall: 2 s below, and 10 s after any exclusion. -/
def Power.downAt (p : Power) (now : Nat) : Nat :=
  max (p.belowSince.getD now + 2 * second) ((p.exclAt.map (fun t => t + 10 * second)).getD 0)

/-- T_G has stayed 5 K below the step's threshold for 2 s: one step down, and the 2 s start again. -/
def Device.stepDown (d : Device) : Device :=
  let p := d.power
  if p.step = 0 || p.belowSince.isNone || d.now < p.downAt d.now || (p.twoFailed && p.step ≤ 3) then d
  else
    let d := d.setStep (p.step - 1) false
    d.modPower (fun p => { p with belowSince := p.below p.governing.1 d.now })

/-- THERM_STEP_DOWN (R408). -/
def execThermStepDown (dt : Nat) (s : State) : Host.Outcome State Fault Refusal := coreRow dt Device.stepDown s

/-- THERM_ALERT_N asserted (R408). -/
def Device.thermAlert (d : Device) : Bool :=
  3 ≤ d.power.step || d.power.thermHold || d.power.thermLock || d.power.shut.any (fun x => x.2 == .thermHw)

/-! Commands (R419). -/

/-- A sensor's reading, OFFSET, validity and substitute. -/
def Power.sensorBytes (p : Power) (i : Nat) : Bytes :=
  Bytes.cat [wInt (p.sensor i).reading, wInt (p.offsetOf i), w32 (p.sensor i).valid.toNat, wInt (p.substitute i)]

/-- `therm.status.get`; the time to the next permitted step down in ms. -/
def cmdThermStatus : Cmd := .query 0x0E01 (exactly 0) (fun _ _ => none) (fun d _ =>
  let p := d.power
  let left := if p.step = 0 then 0 else ceilDiv (p.downAt d.now - d.now) ms
  Bytes.cat ([w32 p.step, wInt p.governing.1, w32 p.governing.2] ++ (List.range 16).map (fun i => p.sensorBytes i) ++
    [wInt p.sdC, wInt p.sdP, w32 left]))

/-- THERM_STATUS_GET (R419). -/
def execThermStatusGet (dt : Nat) (o : Origin) (s : State) : Host.Outcome State Fault Refusal := wcpRow dt o cmdThermStatus noOpen s

/-- `therm.config.set`: LOWER in K and RISE_RATE in 0.1 K/s (DESIGN CHOICE, log entry 86). -/
def cmdThermConfig : Cmd :=
  { id := 0x0E40, form := exactly 8
    content := fun _ p => refuse (30 < p.word 0 || outside (p.word 1) 5 100) sBadParam
    run := fun _ p d => (d.modPower (fun x => { x with lower := p.word 0, riseRate := p.word 1 }), .no sOk) }

/-- THERM_CONFIG_SET (R419). -/
def execThermConfigSet (dt : Nat) (o : Origin) (s : State) : Host.Outcome State Fault Refusal := wcpRow dt o cmdThermConfig noOpen s

/-- `therm.sensor.restore`: a sensor that has met no exclusion condition for 60 s. -/
def cmdSensorRestore : Cmd :=
  { id := 0x0E41, form := exactly 4
    state := fun d p =>
      let s := d.power.sensor (p.word 0)
      refuse (p.word 0 < 16 && (!s.valid && d.now < s.metAt + 60 * second || (12 ≤ p.word 0 && !d.contact))) sBadState
    content := fun _ p => refuse (15 < p.word 0) sBadParam
    run := fun _ p d =>
      let i := p.word 0
      if (d.power.sensor i).valid then (d, .no sOk)
      else
        let d := d.sensorEvent i false (d.power.sensor i).rule
        (d.modPower (fun x => { x with sensors := vmod x.sensors i (fun s => { s with valid := true, dis := 0 }) }), .no sOk) }

/-- THERM_SENSOR_RESTORE (R407). -/
def execThermSensorRestore (dt : Nat) (o : Origin) (s : State) : Host.Outcome State Fault Refusal := wcpRow dt o cmdSensorRestore noOpen s

end Sys2Proof.Machine
end

