-- ==== Sys2Proof/Machine/Reset.lean ====
section
/-! DEFINITION. Device resets: what a reset of the C-die keeps and loses (R439), and the resets that leave the rails up (R400). -/

namespace Sys2Proof.Machine

open Sys2Proof

/-- The code of a latched cause (Table 14-11). -/
def causeCode : Cause → Nat
  | .por => 0
  | .pfVbat => 1
  | .ovVbat => 2
  | .rail => 3
  | .thermHw => 4
  | .standby => 5
  | .rstN => 6
  | .commanded => 7
  | .lockstep => 8
  | .memory => 9
  | .switchFail => 10

/-- The causes that go through shutdown-imminent (R400). -/
def causeShuts (c : Cause) : Bool := 1 ≤ causeCode c && causeCode c ≤ 5

/-- The scan planner keeps its budget and its latch; the level of EMIT_FAULT_N is not the device's own. -/
def Fire.cleared (f : Fire) : Fire := { budget := f.budget, latch := f.latch, faultAt := f.faultAt, faultUntil := f.faultUntil }

/-- The receiver keeps lens table, breakdown coefficients and linearisation tables; the bias generator, which a reset of the C-die does not
touch, holds its output (log entry 139). -/
def Rx.cleared (r : Rx) (now : Nat) : Rx :=
  { biasOut := r.slewed now, biasTarget := r.slewed now, biasAt := now, ramp := r.ramp, lens := r.lens
    lensInForce := r.lens.use Config.lensReference, vbd := r.vbd, lin := r.lin }

/-- The ring keeps its port configurations. -/
def Ring.cleared (r : Ring) : Ring := { ports := r.ports.map (fun x => { cfg := x.cfg }) }

/-- Self-test keeps its configuration, its maps and verdicts, and the spare regions used; a new pass begins. A directed run with CONTROL
is still to give its verdicts (R369). -/
def Bist.cleared (b : Bist) (now : Nat) : Bist :=
  { cfg := b.cfg, inForce := b.cfg.use Config.bistDefault, map := b.map, mapBackup := b.mapBackup, marks := b.marks
    markedSince := b.markedSince, clearAtBoot := b.clearAtBoot, verdicts := b.verdicts, spareFw := b.spareFw, spareSealed := b.spareSealed
    spareField := b.spareField, ramPos := b.ramPos, passAt := now, coverAt := now, idleAt := 0
    directed := b.directed.filter (fun x => nbit x.1 15) }

/-- The security engine keeps OTP, MRAM and flash; staging, switches, images in banks and vendor debug end (R377). -/
def Sec.cleared (s : Sec) : Sec :=
  { keys := s.keys, fuses := s.fuses, lc := s.lc, flash := s.flash, minSec := s.minSec, boot := s.boot, digests := s.digests
    resv := s.resv, blockDefaultDue := s.blockDefaultDue }

/-- A sensor after a reset of its die: its offset is kept, and an exclusion, which only `therm.sensor.restore` ends (R407). -/
def Sensor.restarted (s : Sensor) : Sensor := { offset := s.offset, valid := s.valid, rule := s.rule, metAt := s.metAt }

/-- The thermal guard keeps offsets and exclusions; the sensors of the field die are its own; the always-on domain and the rails stay. -/
def Power.cleared (p : Power) : Power :=
  { p with
    standbyAt := none, step := 0, upStep := 0, tgHist := [], belowSince := none, exclAt := none, lower := 0, riseRate := 20
    sensors := (List.range 12).foldl (fun v i => vmod v i (fun (s : Sensor) => s.restarted)) p.sensors }

/-- The C-die after a reset (R439, Table 1-10): what is held in MRAM and on the field die is kept, the rest takes its reset values; a
record being written is finished first (R400). -/
def Device.cleared (d : Device) : Device :=
  let d := d.bbCommit
  { wcp := { draws := d.wcp.draws }
    time := { clk := d.time.clk, releasedAt := d.now }
    fire := d.fire.cleared
    rx := d.rx.cleared d.now
    ret := { baseline := d.ret.baseline, zmaps := d.ret.zmaps }
    cal := { live := d.cal.live, backup := d.cal.backup }
    ring := d.ring.cleared
    core := { since := d.now, rules := d.core.rules }
    field := { d.field with end_ := { d.field.end_ with inbox := [] } }
    bist := d.bist.cleared d.now
    sec := d.sec.cleared
    power := d.power.cleared
    log := { recs := d.log.recs, ff := d.log.ff, counters := d.log.counters, nextSeq := d.log.nextSeq, logSeen := d.log.logSeen
             logAt := d.log.logAt } }

/-- A reset that does not remove power: the cause is latched unless a shutdown has latched its own, and the boot ROM starts once
RST_N is released. -/
def Device.reboot (d : Device) (cause : Cause) : Device :=
  let latch : Bool := !causeShuts cause && d.power.shut.isNone
  let d := if latch then d.modPower (fun p => { p with cause, causeTick := d.tick }) else d
  d.cleared.modPower (fun p => { p with core := if p.rstPin then .reset else .boot })

/-- A step that may reset the device: the C-die's host port is reset with it, and what was to be told is lost. -/
def resetRow (dt : Nat) (act : Device → Option Device) (s : State) : Host.Outcome State Fault Refusal :=
  let t := s.elapse dt
  match act t.dev with
  | some d => .next { t with host := {}, dev := { d with wcp := { d.wcp with out := [], irq := 0 } } }
  | none => .next (State.settle t s.dev)

/-- COMMANDED_RESET_TIMER (R65). -/
def execCommandedResetTimer (dt : Nat) (s : State) : Host.Outcome State Fault Refusal :=
  resetRow dt (fun d => match d.wcp.resetAt with
    | some (t, cause) => if d.alive && t ≤ d.now then some (d.reboot cause) else none
    | none => none) s

/-- DEVICE_RESET (R439), on the causes that leave the rails up; the others are POWER_REMOVAL's. -/
def execDeviceReset (dt : Nat) (cause : Cause) (s : State) : Host.Outcome State Fault Refusal :=
  resetRow dt (fun d => if d.alive && !causeShuts cause && cause != .por then some (d.reboot cause) else none) s

/-- The bias generator starts 5 ms after the start condition (Table 14-3, step 4). -/
def Device.biasStart (d : Device) : Device :=
  d.modRx (fun r => { r with biasOut := 0, biasTarget := 0, ramp := some (d.now + 5 * ms) })

/-- A start under Table 14-3, held back by the minimum off time (R399). -/
def Device.powerUp (d : Device) : Device :=
  if d.now < d.power.offUntil then d.modPower (fun p => { p with startDue := true })
  else d.modPower (fun p => { p with
    core := .sequence, startDue := false, rails := (State.reset).dev.power.rails, warn := 0, fault := 0 }) |>.biasStart

/-- RST_N asserted from outside (R439, R410): the C-die is in reset while the pin is held; 10 ms of it end THERM_LOCK, and the device that
the lock alone kept down starts. -/
def Device.rstAssert (d : Device) (width : Nat) : Device :=
  let p := d.power
  let ends := p.thermLock && 10 * ms ≤ width
  let d := d.modPower (fun p => { p with rstPin := true, thermLock := p.thermLock && width < 10 * ms })
  if ends && p.core == .off && !p.thermHold && !p.ovBarred && 9500 ≤ p.vbat then d.powerUp else d

/-- RST_N_ASSERT (R439). -/
def execRstNAssert (dt : Nat) (width : Nat) (s : State) : Host.Outcome State Fault Refusal :=
  if (s.elapse dt).dev.alive then resetRow dt (fun d => some ((d.rstAssert width).reboot .rstN)) s
  else devRow dt (fun d => d.rstAssert width) s

/-- RST_N is released: 20 us later the C-die leaves reset (R398), and device time counts from there (DEDUCED, log entry 34); in standby the
device starts (R402). The P-die releases it only with every rail inside its warning band. -/
def Device.rstRelease (d : Device) : Device :=
  let p := d.power
  let d := d.modPower (fun p => { p with rstPin := false })
  if p.core = .reset || (p.core = .sequence && p.warn = 0 && p.fault = 0) then
    { (d.modPower (fun p => { p with core := .boot })) with
      time := { clk := d.time.clk, releasedAt := d.now - 20 * us } }
  else if p.core = .standby && p.rstPin then d.powerUp
  else d

/-- RST_N_RELEASE (R398). -/
def execRstNRelease (dt : Nat) (s : State) : Host.Outcome State Fault Refusal := devRow dt Device.rstRelease s

end Sys2Proof.Machine
end

