-- ==== Sys2Proof/Machine/FieldPower.lean ====
section
/-! DEFINITION. The field supply and the field die's own protection: power-on, loss, thermal stop, RAM and NVM tests, and the end of an
NVM commit's wait (R368, R404, R405, R409). -/

namespace Sys2Proof.Machine

open Sys2Proof

/-- The stored field block and its pointer pass their check (R292, class 10). -/
def Field.blockOk (f : Field) : Bool := f.blockPtr.ok && f.liveBlock.ok

/-- Every stored coefficient passes its check (class 13). -/
def Field.badCoeffs (f : Field) : List Nat := (List.range 17).filter (fun i => (f.coeffUse i).2)

/-- A group at power-on: its voltage, and below 7.0 V UV_OFF with its episode (R306). -/
def VGroup.atPowerOn (g : VGroup) (now : Nat) : VGroup :=
  let uv : Bool := g.mv < 7000
  { mv := g.mv, prevMv := g.mv, minMv := g.mv, uvOff := uv, uvBelow := now, epAt := if uv then some now else none
    lowest := if uv then g.mv else 0, uvSeen := uv }

/-- The input configuration loaded: that of the copy in use, or the safe default (R318). -/
def Field.storedInputs (f : Field) : BitVec 1088 :=
  if f.inputsOk then (vget f.inCfgs (f.inPtr.v.toNat % 2) ⟨0, 0⟩).v else Config.inputDefault

/-- What the field die loads and starts with (R404, step 1): NVM contents under their checks; everything in RAM is lost (R439),
but slices in the unusable map stay out of use (R326, R366). The
field clock starts at 0 until a core frame sets it (DESIGN CHOICE, log entry 88). -/
def Field.loaded (f : Field) (now : Nat) : Field :=
  { running := true, blocks := f.blocks, blockPtr := f.blockPtr, inCfgs := f.inCfgs, inPtr := f.inPtr, coeffs := f.coeffs
    coeffPtr := f.coeffPtr, remapNvm := f.remapNvm, remaps := f.remapNvm
    block := if f.blockOk then f.liveBlock.v else Config.blockDefault, blockBad := !f.blockOk
    inCfg := f.storedInputs
    coeffShadow := Vector.ofFn (fun (i : Fin 17) => (f.coeffUse i.val).1)
    groups := f.groups.map (fun g => g.atPowerOn now)
    inputs := Vector.ofFn (fun (k : Fin 16) => ({} : Input).adopt (inBlock f.storedInputs k.val) now)
    convs := f.convs.map (fun c => ({ usableA := c.usableA, usableB := c.usableB } : Conv))
    tickAt := now, wdAt := now, ramAt := now, nvmAt := now, offset := -(now : Int) }

/-- Output k at power-on: dark where its safe state is HOLD (Table 10-4). -/
def Field.outAtPowerOn (f : Field) (k now : Nat) : Output :=
  let e := f.entryOf (f.table true) k
  { entry := .ofNat 16 (if eMode e = 3 then 0 else e), source := 2, patStart := now, pwmStart := now }

/-- The queues of sequences that are lost are free again (R251). -/
def Device.dropSeqs (d : Device) : Device :=
  (List.range 4).foldl (fun d q =>
    let x := d.field.seq q
    if x.loaded && sQen x.hdr then d.bind (.seq q) (sQueue x.hdr) 0xFFFF else d) d

/-- The checks of a power-on reported (R352). -/
def Device.powerOnChecks (d : Device) : Device :=
  let f := d.field
  let ok := (if f.blockOk then [(10, 0)] else []) ++ (if f.inputsOk then [(12, 0)] else []) ++
    ((List.range 17).filter (fun i => !(f.coeffUse i).2)).map (fun i => (13, i))
  let d := d.fieldMsg (.intact ((ok.map intactMask).foldl (· + ·) 0))
  let d := if f.blockOk then d else d.fieldIntegrity 10 0 0
  let d := if f.inputsOk then d else d.fieldIntegrity 12 0 0
  f.badCoeffs.foldl (fun d i => d.fieldIntegrity 13 i 0) d

/-- The episodes of groups below 7.0 V begin with the power-on (R306). -/
def Device.powerOnSags (d : Device) : Device :=
  (List.range 4).foldl (fun d g =>
    let x := d.field.group g
    if x.uvOff then d.fieldEvent 0x0905 g (sagPayload true true x.mv 0) else d) d

/-- The functions of the field die. -/
def fieldFns : List FnId :=
  ([0, 1, 2, 3] : List Nat).flatMap (fun i => [.adc (Fin.ofNat 4 i), .seq (Fin.ofNat 4 i)]) ++ [.exc] ++
    (List.range 16).map (fun k => .output (Fin.ofNat 16 k))

/-- Commands that waited for the field die and what it lost: starts, runs and commits end in S_HW_FAULT, stops are done (DESIGN CHOICE,
log entry 89). -/
def Device.fieldWaits (d : Device) : Device :=
  let d := fieldFns.foldl (fun d f => (d.complete (.fnOn f) sHwFault Bytes.nil).complete (.fnOff f) sOk Bytes.nil) d
  let d := [WaitKind.adcCalRun, .capture, .fieldBlock, .inConfig, .adcCalCommit].foldl (fun d k => d.complete k sHwFault Bytes.nil) d
  let d := (List.range 16).foldl (fun d k => d.complete (.remap k) sHwFault Bytes.nil) d
  let d := (d.modCore (fun c => { c with commitAt := none })).modEnd .core (fun e => { e with out := [], win := [], again := 0 })
  (d.modField (fun f => { f with inCfgNext := [], remapDue := [] })).modPower (fun p => { p with nvmWait := [] })

/-- The power-on of the field die (R404): it loads, applies the power-on safe states and starts sending with POWERON. -/
def Device.fieldPowerOn (d : Device) : Device :=
  let old := inQueue d.field.inCfg
  let d := d.dropSeqs.fieldWaits
  let d := d.modField (fun f => f.loaded d.now)
  let d := d.modField (fun f => { f with outs := Vector.ofFn (fun k : Fin 16 => f.outAtPowerOn k.val d.now) })
  let d := if inQueue d.field.inCfg = old then d else d.bind .inputs old (inQueue d.field.inCfg)
  let d := d.modPower (fun p => { p with
    sensors := [12, 13, 14, 15].foldl (fun v i => vmod v i (fun s => s.restarted)) p.sensors })
  ((List.range 16).foldl (fun d k => d.driveOne k false) d).powerOnSags.powerOnChecks

/-- The field logic stops: every output is off (R404, R409). -/
def Device.fieldDown (d : Device) : Device :=
  d.fieldWaits.modField (fun f => { f with
    running := false, outs := Vector.replicate 16 {}, applyDue := none, safeDue := none, fifo := [], recs := [], capture := none
    excPin := false })

/-- The four group voltages. -/
def Device.setGroups (d : Device) (vs : List Nat) : Device :=
  vs.zipIdx.foldl (fun d p => d.modGroup p.2 (fun g => { g with mv := p.1 })) d

/-- VFIELD rises: the power-on starts at 6.5 V of the highest group. -/
def Device.fieldOn (d : Device) (vs : List Nat) : Device :=
  if d.field.running then d
  else
    let d := d.setGroups vs
    if d.field.hot || d.field.highest < 6500 then d else d.fieldPowerOn

/-- FIELD_POWER_ON (R404). -/
def execFieldPowerOn (dt v0 v1 v2 v3 : Nat) (s : State) : Host.Outcome State Fault Refusal :=
  devRow dt (fun d => d.fieldOn [v0, v1, v2, v3]) s

/-- VFIELD falls below 5.5 V on every group: the field die is held in reset. -/
def Device.fieldOff (d : Device) (vs : List Nat) : Device :=
  if 5500 ≤ vs.foldl max 0 then d
  else
    let d := d.setGroups vs
    (if d.field.running then d.fieldDown else d).modField (fun f => { f with hot := false })

/-- FIELD_POWER_LOSS (R404). -/
def execFieldPowerLoss (dt v0 v1 v2 v3 : Nat) (s : State) : Host.Outcome State Fault Refusal :=
  devRow dt (fun d => d.fieldOff [v0, v1, v2, v3]) s

/-- The readings of the valid F-die sensors. -/
def Power.validField (p : Power) (temps : List Int) : List Int :=
  ((temps.zipIdx.filter (fun x => (p.sensor (12 + x.2)).valid)).map (fun x => x.1)).take 4

/-- The stop threshold of R409 in 0.01 degC: lower with two or more F-die sensors excluded. -/
def Power.fieldLimit (p : Power) : Int :=
  if 2 ≤ (([12, 13, 14, 15] : List Nat).filter (fun i => !(p.sensor i).valid)).length then 16000 else 17000

/-- A valid F-die sensor reaches its limit. -/
def Device.fieldHot (d : Device) (temps : List Int) : Device :=
  if (d.power.validField temps).any (fun t => decide (d.power.fieldLimit ≤ t)) then
    d.fieldDown.modField (fun f => { f with hot := true })
  else d

/-- FIELD_THERMAL_STOP (R409). -/
def execFieldThermalStop (dt : Nat) (temps : List Int) (s : State) : Host.Outcome State Fault Refusal :=
  fieldRow dt (fun d => d.fieldHot temps) s

/-- Every valid F-die sensor is below 150 degC: the power-on runs, where the supply allows it. -/
def Device.fieldCool (d : Device) (temps : List Int) : Device :=
  if d.field.hot && (d.power.validField temps).all (fun t => decide (t < 15000)) then
    let d := d.modField (fun f => { f with hot := false })
    if d.field.highest < 6000 then d else d.fieldPowerOn
  else d

/-- FIELD_THERMAL_RESTART (R409). -/
def execFieldThermalRestart (dt : Nat) (temps : List Int) (s : State) : Host.Outcome State Fault Refusal :=
  devRow dt (fun d => d.fieldCool temps) s

/-! The wait of an NVM commit (R405). -/

/-- The first commit of a kind that has waited 1 s is dropped. -/
def Device.nvmTimeout (d : Device) (k : NvmKind) : Device :=
  match d.power.nvmWait.find? (fun w => w.1 == k) with
  | none => d
  | some w =>
    if d.now < w.2 + second then d
    else
      let d := d.nvmFirst k
      match k with
      | .fieldBlock =>
        let d := (d.modCore (fun c => { c with commitAt := none })).modEnd .core (fun e => { e with out := [] })
        (d.modEnd .field (fun e => { e with inbox := [] })).complete .fieldBlock sBadState Bytes.nil
      | .inputs => (d.modField (fun f => { f with inCfgNext := f.inCfgNext.drop 1 })).completeFirst .inConfig sBadState Bytes.nil
      | .coeffs => d.completeFirst .adcCalCommit sBadState Bytes.nil
      | .remap =>
        match d.field.remapDue.find? (fun r => !r.auto && r.at_ == w.2) with
        | some r => (d.modField (fun f => { f with remapDue := f.remapDue.erase r })).completeFirst (.remap r.out) sBadState Bytes.nil
        | none => d

/-- NVM_COMMIT_WAIT_TIMEOUT (R405). -/
def execNvmCommitWaitTimeout (dt : Nat) (k : NvmKind) (s : State) : Host.Outcome State Fault Refusal :=
  fieldRow dt (fun d => d.nvmTimeout k) s

/-! The field die's tests (R368). -/

/-- One RAM region tested, every 100 us: a failing one is replaced by a spare and marked; with no spare left the field
die resets, and then reports it. -/
def Device.ramTest (d : Device) (fails : Bool) : Device :=
  let pos := d.bist.ramPos
  let early := d.now < d.field.ramAt + 100 * us
  let d := if early then d
    else { d with bist := { d.bist with ramPos := (pos + 1) % 64 }, field := { d.field with ramAt := d.now } }
  if early || !fails then d
  else
    let d := if d.bist.spareField = 0 then d.fieldPowerOn else { d with bist := { d.bist with spareField := d.bist.spareField - 1 } }
    let word := fields [(30, 1), (26, 9), (14, pos), (1, 1)]
    (d.fieldMsg (.mark 9 pos)).fieldRec 0x0C01 (9 * 4096 + pos) (word * 2 ^ 222) 0x0010 sevFault (w32 word)

/-- FIELD_RAM_TEST (R368). -/
def execFieldRamTest (dt : Nat) (fails : Bool) (s : State) : Host.Outcome State Fault Refusal := fieldRow dt (fun d => d.ramTest fails) s

/-- Both copies of field block, input configuration and coefficients read and checked; what fails in use goes to its safe default
(Table 12-1). -/
def Device.nvmRead (d : Device) : Device :=
  let f := d.field
  let d := if f.blockOk then d.fieldIntact 10 0
    else if f.blockBad then d.fieldIntegrity 10 0 0
    else
      let d := d.modField (fun f => { f with block := Config.blockDefault, blockBad := true })
      (d.fieldIntegrity 10 0 0).applyAll f.safe (f.out 0).source
  let d := if f.inputsOk then d.fieldIntact 12 0
    else
      let d := d.closePeriods.modField (fun f => { f with inCfg := Config.inputDefault })
      (d.bind .inputs (inQueue f.inCfg) (inQueue Config.inputDefault)).fieldIntegrity 12 0 0
  let d := (List.range 17).foldl (fun d i => d.fieldChecked (!f.badCoeffs.contains i) 13 i) d
  let idle := fun (p : Pair 32) => 1 - p.v.toNat % 2
  let d := d.fieldChecked (vget f.blocks (idle f.blockPtr) ⟨0, 0⟩).ok 10 1
  let d := d.fieldChecked (vget f.inCfgs (idle f.inPtr) ⟨0, 0⟩).ok 12 1
  d.fieldChecked ((vget f.coeffs (idle f.coeffPtr) (Vector.replicate 17 ⟨0, 0⟩)).all (fun p => p.ok)) 13 32

/-- The check every 10 s. -/
def Device.nvmCheck (d : Device) : Device :=
  if d.now < d.field.nvmAt + 10 * second then d else (d.modField (fun f => { f with nvmAt := d.now })).nvmRead

/-- FIELD_NVM_CHECK (R368). -/
def execFieldNvmCheck (dt : Nat) (s : State) : Host.Outcome State Fault Refusal := fieldRow dt Device.nvmCheck s

end Sys2Proof.Machine
end

