-- ==== Sys2Proof/Machine/SelfTest.lean ====
section
/-! DEFINITION. Self-test: slices in frame gaps, verdicts, unusable units, directed self-test (R354-R372). -/

namespace Sys2Proof.Machine

open Sys2Proof

/-! Slices. -/

/-- Longest length of a slice in us. -/
def sliceLen (n : Nat) : Nat := ([30, 40, 20, 10, 30, 10, 45, 40].drop (sliceRow n - 1)).headD 50

/-- Units whose FAIL marks at once (R365). -/
def sliceMemory (n : Nat) : Bool := sliceRow n = 4 || 6 ≤ sliceRow n

/-- The firing controller is not firing. -/
def Device.notFiring (d : Device) : Bool := d.fire.phase != .running && d.fire.grp.isNone

/-- The return processor is idle: no local group and no import slice. -/
def Device.processorIdle (d : Device) : Bool :=
  !(d.hist.pairs.toList.any (fun p => p == .handed || p == .processing)) && !(d.hist.imp.complete && 0 < d.hist.imp.slices)

/-- "Runs only when" (Table 12-2). -/
def Device.sliceReady (d : Device) (n : Nat) : Bool :=
  match sliceRow n with
  | 1 => d.notFiring
  | 2 => d.processorIdle
  | 3 => d.processorIdle
  | 4 => d.notFiring
  | 6 => d.bankFree n
  | 7 => d.log.writing.isNone
  | _ => true

/-- The expected start of the next frame's first slot (R356); none while nothing is expected. -/
def Device.nextFirstSlot (d : Device) : Option Nat :=
  let f := d.fire
  if f.fn.st != .on then none
  else if f.trigSrc = 0 then some (f.internalDue + 2 * us)
  else if f.trigSrc = 2 then d.nextCalendar d.now
  else match f.firstSlot, f.intervals.min? with
    | some t, some i => some (t + i)
    | _, _ => none

/-- SLICE_BUDGET in use: half at ladder step 1 and above (Table 14-6). -/
def Device.sliceBudget (d : Device) : Nat :=
  let b := fld d.bist.inForce 31 16
  if 1 ≤ d.power.step then b / 2 else b

/-- A slice that starts now fits the gap (R355); the first that does not ends its run (DEDUCED, log entry 176). -/
def Device.sliceFits (d : Device) (n : Nat) : Bool :=
  decide (d.bist.spent + sliceLen n ≤ d.sliceBudget) &&
    (match d.nextFirstSlot with
     | some t => decide (d.now + (sliceLen n + 20) * us ≤ t)
     | none => true)

/-- The gap is open, and nothing of a frame stands in it. -/
def Device.gapOpen (d : Device) : Bool :=
  d.bist.gap.isSome && d.fire.phase == .idle && decide (d.fire.frameEnd ≤ d.now) && d.fire.grp.isNone

/-- The survey and the reference pass of this gap are done, or no longer fit. -/
def Device.passesDone (d : Device) : Bool :=
  d.rx.survey.isNone && d.cal.passRun.isNone && (d.surveyPasses ≤ d.rx.gapPasses || !d.gapRoom (12 * us)) &&
    (d.cal.passDone || !d.gapRoom (15 * us))

/-- Slices of the pass from `pos`, those not ready passed over, until one is ready: what is passed over, and the slice. -/
def Device.nextInPass (d : Device) (pos : Nat) : Nat → List Nat × Option Nat
  | 0 => ([], none)
  | fuel + 1 =>
    if 411 ≤ pos then ([], none)
    else if d.sliceReady pos then ([], some pos)
    else
      let r := d.nextInPass (pos + 1) fuel
      (pos :: r.1, r.2)

/-- The slice whose turn it is (R354, R355, R357, R362), and self-test with the scheduler's place moved on: a reserved slice ahead of
all, then those waiting, then the pass. -/
def Device.pickSlice (d : Device) : Bist × Option Nat :=
  let b := d.bist
  match b.waiting.find? (fun n => b.reserved.contains n) with
  | some n =>
    if d.sliceReady n && (if sliceRow n = 1 then d.rx.survey.isNone && d.cal.passRun.isNone else d.passesDone) then
      ({ b with waiting := b.waiting.erase n }, some n)
    else (b, none)
  | none =>
    if !d.passesDone then (b, none)
    else match b.waiting.find? (fun n => d.sliceReady n) with
      | some n => ({ b with waiting := b.waiting.erase n }, some n)
      | none =>
        let r := d.nextInPass b.pos 411
        ({ b with waiting := b.waiting ++ r.1, pos := match r.2 with | some n => n + 1 | none => 411 }, r.2)

/-- A slice starts (R355), is deferred (R363), or ends the gap's run; `clocks` says that the PLLs that feed its unit are locked and, for row
2, that D-RET does not change its frequency. -/
def Device.sliceStart (d : Device) (clocks : Bool) : Device :=
  if d.bist.run.isSome || !d.gapOpen || d.bist.gapStopped then d
  else
    let r := d.pickSlice
    match r.2 with
    | none => d.modBist (fun _ => r.1)
    | some n =>
      let b := r.1
      let back := { b with waiting := n :: b.waiting }
      match (if clocks then d.sliceBarred else some (d.sliceBarred.getD 2)) with
      | some c =>
        d.modBist (fun _ => { back.setWord n (sliceWord 3 (sliceClass n) (sliceIndex n 0) c (b.abortsOf n) false
          ((mget n b.retest).isSome) false false) with deferred := b.deferred + 1 })
      | none =>
        if !d.sliceFits n then d.modBist (fun _ => { back with gapStopped := true })
        else
          let b := { b with run := some ⟨n, d.now, b.reserved.contains n, (mget n b.retest).isSome⟩, spent := b.spent + sliceLen n }
          (d.modBist (fun _ => b.saveUnit n d.now)).modRx (fun r => { r with witDisturbed := r.witDisturbed ||| b.witTested })

/-- SLICE_START (R355). -/
def execSliceStart (dt : Nat) (clocks : Bool) (s : State) : Host.Outcome State Fault Refusal := coreRow dt (fun d => d.sliceStart clocks) s

/-! Unusable units (R366, R367). -/

/-- What a queue holds in a cell or a descriptor that is withdrawn, dropped under POOL (R367): units, and units being received. Frames of
a unit partway are taken out of X9. -/
def Device.dropHeld (d : Device) (n : Nat) (held : List Nat → List Nat → Bool) : Device :=
  let q := d.queue n
  let d := (q.units.filter (fun u => held u.cells u.descs)).foldl (fun (d : Device) u =>
    let d := if u.droppable then d else (d.pullBack 0 (fun f => f.queue == n)).pullBack 1 (fun f => f.queue == n)
    d.dropUnit n u 1) d
  (q.partials.filter (fun p => held p.cells p.descs)).foldl (fun (d : Device) p => d.dropPartial n p.src 1) d

/-- A withdrawn cell emptied (R367): its bytes go to a free cell; where the pool has none for them, what it holds is dropped (DESIGN
CHOICE, log entry 173). -/
def Device.freeCell (d : Device) (c : Nat) : Device :=
  match d.qs.qs.find? (fun p => p.2.cellList.contains c) with
  | none => d
  | some p =>
    let full := 32768 - 16 * d.qs.lostCells.length < d.qs.reserved + d.qs.sharedHeld && p.2.reserveNow < p.2.held
    let new := (freeNumbers d.qs.usedCells 0 1).headD 32768
    if full || 32768 ≤ new then d.dropHeld p.1 (fun cells _ => cells.contains c)
    else d.modQ p.1 (fun q => q.renumber (fun k => if k = c then new else k) id)

/-- A withdrawn descriptor's contents moved in the same way. -/
def Device.freeDesc (d : Device) (x : Nat) : Device :=
  match d.qs.qs.find? (fun p => p.2.descList.contains x) with
  | none => d
  | some p =>
    let new := (freeNumbers d.qs.usedDescs 0 1).headD 262144
    if 262144 ≤ new then d.dropHeld p.1 (fun _ descs => descs.contains x)
    else d.modQ p.1 (fun q => q.renumber id (fun k => if k = x then new else k))

/-- A system SRAM region withdrawn (R367), by the model's layout of the regions: pool 0-2047, descriptors 2048-3071, firmware data
3072-4095 with the sealed partition in the last 128 (DESIGN CHOICE, log entry 82). True: no spare page was left. -/
def Device.withdrawRegion (d : Device) (idx : Nat) : Device × Bool :=
  if idx < 2048 then
    ((groupNumbers 16 [idx]).foldl Device.freeCell { d with qs := { d.qs with lostCells := insertNat idx d.qs.lostCells } }, false)
  else if idx < 3072 then
    let g := idx - 2048
    ((groupNumbers 256 [g]).foldl Device.freeDesc { d with qs := { d.qs with lostDescs := insertNat g d.qs.lostDescs } }, false)
  else if idx < 3968 then (d.modBist (fun b => { b with spareFw := b.spareFw - 1 }), d.bist.spareFw == 0)
  else (d.modBist (fun b => { b with spareSealed := b.spareSealed - 1 }), d.bist.spareSealed == 0)

/-- A unit marked unusable, with what Table 12-5 makes of it; true where the device must reset with cause MEMORY. -/
def Device.markUnit (d : Device) (cls idx : Nat) : Device × Bool :=
  if d.unusable cls idx then (d, false)
  else
    let d := (d.addMark cls idx).modBist (fun b => { b with markedSince := (cls, idx) :: b.markedSince.filter (· != (cls, idx)) })
    match cls with
    | 0 =>
      if idx < 1024 then ((d.modRx (fun r => r.retire idx true)).dirty, false)
      else if idx < 1028 then
        let m : BitVec 64 := .ofNat 64 ((2 ^ 12 - 1) * 2 ^ (12 * (idx - 1024)))
        (d.mram true (fun d => d.modFire (fun f => f.setLatch (f.latchNow ||| m))), false)
      else (d, false)
    | 3 => (d.fireFaultStop, false)
    | 5 => (d.channelEvent 0 idx true none, false)
    | 7 => d.withdrawRegion idx
    | _ => (d, false)

/-- E_BIST_FAIL with its record where it reports a FAIL (R365). -/
def Device.bistFail (d : Device) (cls idx code : Nat) (w : Word) (rec_ : Bool) : Device :=
  let payload := code * 2 ^ 254 + w.toNat * 2 ^ 222
  if rec_ then d.raiseRec 0x0C01 (cls * 4096 + idx) payload 0x0010 sevFault (w32 w.toNat)
  else d.raise 0x0C01 (cls * 4096 + idx) payload

/-! Verdicts (R364, R365). -/

/-- The verdict of a slice: 0 PASS, 1 FAIL, 2 INCOMPLETE. -/
def sliceVerdict (r : SliceResult) : Nat :=
  if r.compareErr || r.uncorrectable || (r.complete && !r.sigMatch) then 1
  else if r.complete && r.sigMatch then 0 else 2

/-- A pass begins: its configuration comes into force after its check (R371, class 16). -/
def Device.passBegin (d : Device) : Device :=
  let ok := d.bist.cfg.ok
  let d := (d.checkPair ok 16 0 0).modBist (fun b => { b with
    inForce := b.cfg.use Config.bistDefault, pos := 0, passAt := d.now, coverAt := d.now })
  if ok then d.pendingEffect 6 false else d

/-- The pass ends once all its slices have given a verdict; the next begins at row 1 (R355). -/
def Device.passEnd (d : Device) : Device :=
  let b := d.bist
  if b.pos < 411 || !b.waiting.isEmpty || !b.later.isEmpty || b.run.isSome then d
  else (d.modBist (fun b => { b with lastPass := d.now - b.passAt, pass := b.pass + 1 })).passBegin

/-- A PASS: on a retest a TRANSIENT is counted; the third of a unit within 24 h marks it (R365). -/
def Device.slicePass (d : Device) (n : Nat) (w : Word) : Device × Bool :=
  match mget n d.bist.retest with
  | none => (d, false)
  | some idx =>
    let cls := sliceClass n
    let key := cls * 4096 + idx
    let ns := d.time.ns.toNat
    let old := ((mget key d.bist.transients).getD []).filter (fun t => ns < t + 86400 * second)
    let d := d.modBist (fun b => { b with
      transient := b.transient + 1, retest := mdel n b.retest, transients := mset key (ns :: old) b.transients })
    if 2 ≤ old.length then
      let r := d.markUnit cls idx
      (r.1.bistFail cls idx 0 w false, r.2)
    else (d.bistFail cls idx 2 w false, false)

/-- A FAIL: memory units are marked, logic units retested first in the next gap, and marked on the second (R365). -/
def Device.sliceFail (d : Device) (n unit : Nat) (w : Word) : Device × Bool :=
  let cls := sliceClass n
  match (if sliceMemory n then some (sliceIndex n unit) else mget n d.bist.retest) with
  | some idx =>
    let d := d.modBist (fun b => { b with retest := mdel n b.retest })
    let r := d.markUnit cls idx
    (r.1.bistFail cls idx 0 w true, r.2)
  | none =>
    let idx := sliceIndex n unit
    ((d.modBist (fun b => { b with retest := mset n idx b.retest, later := b.later ++ [n] })).bistFail cls idx 1 w true, false)

/-- The slice running ends; true where the device resets with cause MEMORY. -/
def Device.sliceEnd (d : Device) (r : SliceResult) : Device × Bool :=
  match d.bist.run with
  | none => (d, false)
  | some x =>
    let n := x.num
    let v := sliceVerdict r
    if v = 2 then (d.sliceCut x 0 (d.bist.abortsOf n) (some r) (fun b => { b with later := b.later ++ [n] }), false)
    else
      let idx := if v = 1 then sliceIndex n r.unit else (mget n d.bist.retest).getD (sliceIndex n 0)
      let w := sliceWord v (sliceClass n) idx 0 (d.bist.abortsOf n) x.reserved x.retest r.compareErr r.sigMatch
      let d := d.modBist (fun b => { (b.setWord n w).restore n with
        run := none, aborts := sset b.aborts n 0, reserved := b.reserved.filter (· != n) })
      let y := if v = 0 then d.slicePass n w else d.sliceFail n r.unit w
      (y.1.passEnd, y.2)

/-- A row that ends a slice: it acts while the C-die runs, and resets the device with cause MEMORY where a unit has no spare (R367). -/
def sliceRowEnd (dt : Nat) (act : Device → Device × Bool) (s : State) : Host.Outcome State Fault Refusal :=
  let x := act (s.elapse dt).dev
  if (s.elapse dt).dev.alive && x.2 then resetRow dt (fun _ => some (x.1.reboot .memory)) s
  else coreRow dt (fun _ => x.1) s

/-- SLICE_END (R364). -/
def execSliceEnd (dt : Nat) (r : SliceResult) (s : State) : Host.Outcome State Fault Refusal := sliceRowEnd dt (fun d => d.sliceEnd r) s

/-- A slice is stopped before its end. Where a compare error had been seen in it, in unit `seen`, its verdict is FAIL; else it is
`stop`'s INCOMPLETE (R364). -/
def Device.sliceStopped (d : Device) (seen : Option Nat) (stop : Device) : Device × Bool :=
  match seen with
  | none => (stop, false)
  | some u => d.sliceEnd { complete := false, sigMatch := false, compareErr := true, uncorrectable := false, unit := u }

/-- A service request for the unit under test, which waits where the slice runs in its reserved gap (R361, R362). -/
def Device.sliceService (d : Device) (bus : Bool) (seen : Option Nat) : Device × Bool :=
  if d.bist.run.any (fun x => x.reserved && bus) then (d, false) else d.sliceStopped seen (d.sliceAbort bus)

/-- A precondition of Table 12-3 lost during a slice. -/
def Device.slicePrecond (d : Device) (cause : Nat) (seen : Option Nat) : Device × Bool :=
  if outside cause 2 6 then (d, false) else d.sliceStopped seen (d.sliceLoss cause)

/-- SLICE_SERVICE_ABORT (R361); `bus` says that the request is one that waits for a reserved slice, `seen` the unit in which the slice had
seen a compare error. -/
def execSliceServiceAbort (dt : Nat) (bus : Bool) (seen : Option Nat) (s : State) : Host.Outcome State Fault Refusal :=
  sliceRowEnd dt (fun d => d.sliceService bus seen) s

/-- SLICE_PRECONDITION_LOSS (R363). -/
def execSlicePreconditionLoss (dt : Nat) (cause : Fin 8) (seen : Option Nat) (s : State) : Host.Outcome State Fault Refusal :=
  sliceRowEnd dt (fun d => d.slicePrecond cause.val seen) s

/-- The pass is not complete within COVER_MAX (R358). -/
def Device.coverMax (d : Device) : Device :=
  if d.now < d.bist.coverAt + fld d.bist.inForce 47 32 * second then d
  else (d.modBist (fun b => { b with coverAt := d.now })).raise 0x0C02 0xFFFF (7 * 2 ^ 253 + 2 ^ 221)

/-- COVER_MAX_EXPIRY (R358). -/
def execCoverMaxExpiry (dt : Nat) (s : State) : Host.Outcome State Fault Refusal := coreRow dt Device.coverMax s

/-- Every 40 ms of device time without firing counts as a gap (R356): one for each multiple of 40 ms (DEDUCED, log
entry 175); none opens during a switchover. -/
def Device.idleGap (d : Device) : Device :=
  let k := d.time.ns.toNat / (40 * ms)
  if d.fire.fn.st == .on || d.sec.switchAt.isSome || k == d.bist.idleAt then d
  else (d.modBist (fun b => { b with idleAt := k })).openGap

/-- IDLE_GAP (R356). -/
def execIdleGap (dt : Nat) (s : State) : Host.Outcome State Fault Refusal := coreRow dt Device.idleGap s

/-- LOCKSTEP_MISMATCH (R354). -/
def execLockstepMismatch (dt : Nat) (s : State) : Host.Outcome State Fault Refusal :=
  resetRow dt (fun d => if d.alive then some (d.reboot .lockstep) else none) s

/-- Duplicated logic differs: 0 dose governor, 1 stuck-lit detection, 2 dither LFSR. The spec gives it no class of Table 12-5: the
event carries class 15 and the block's number (DESIGN CHOICE, log entry 90). -/
def Device.duplicateMismatch (d : Device) (which : Nat) : Device :=
  (d.fireFaultStop).bistFail 15 which 3 (sliceWord 1 15 which 0 0 false false true false) false

/-- DUPLICATE_MISMATCH (R354). -/
def execDuplicateMismatch (dt : Nat) (which : Fin 3) (s : State) : Host.Outcome State Fault Refusal :=
  coreRow dt (fun d => d.duplicateMismatch which.val) s

/-! Directed self-test (R369, R370). -/

/-- The verdicts of a directed run are stored; the command completes. -/
def Device.directedDone (d : Device) (vs : List DirectedVerdict) : Device :=
  match d.bist.directed with
  | none => d
  | some x =>
    let vs := vs.filter (fun v => nbit x.1 v.cls)
    (d.mram true (fun d => d.modBist (fun b => { b with
      verdicts := vs, directed := none
      markedSince := b.markedSince.filter (fun u => !vs.any (fun v => v.cls == u.1 && v.idx == u.2)) }))).complete .directed sOk Bytes.nil

/-- DIRECTED_RUN_DONE (R369). -/
def execDirectedRunDone (dt : Nat) (verdicts : List DirectedVerdict) (s : State) : Host.Outcome State Fault Refusal :=
  coreRow dt (fun d => d.directedDone verdicts) s

/-- Only in BLANK and RETURN. -/
def testOnly (d : Device) (_ : Ctx) (_ : Bytes) : Refuse := refuse (!(d.lc = lcBlank || d.lc = lcReturn)) sLifecycle

/-- Firing controller, ring ports, camera ports and sequences are OFF. -/
def Device.allOff (d : Device) : Bool :=
  d.fire.fn.st == .off && d.ring.ports.toList.all (fun p => p.fn.st == .off) && d.cams.ports.toList.all (fun p => p.fn.st == .off) &&
    d.field.seqs.toList.all (fun x => x.fn.st == .off)

/-- `bist.directed.run`: bits 0-9 name classes, bit 15 CONTROL, which resets the device. -/
def cmdDirectedRun : Cmd :=
  { id := 0x0C41, form := exactly 4, life := testOnly
    state := fun d _ => refuse (d.bist.directed.isSome || !d.allOff) sBadState
    content := fun _ p => refuse (reservedSet (p.word 0) [(31, 16), (14, 10)]) sBadParam
    run := fun _ p d =>
      let d := (d.lcUsed.modBist (fun b => { b with directed := some (p.word 0, d.now) })).modRx (fun r =>
        { r with witDisturbed := if nbit (p.word 0) 0 then 15 else r.witDisturbed })
      if nbit (p.word 0) 15 then (d.scheduleReset ms .commanded, .no sOk) else (d, .pend .directed) }

/-- BIST_DIRECTED_RUN (R369). -/
def execBistDirectedRun (dt : Nat) (o : Origin) (s : State) : Host.Outcome State Fault Refusal :=
  wcpRowThen dt o cmdDirectedRun noOpen Device.resetAfterReply s

/-- Units named by a count and pairs of class and index words. -/
def namedUnits (p : Bytes) : List (Nat × Nat) := (List.range (p.word 0)).map (fun i => (p.word (1 + 2 * i), p.word (2 + 2 * i)))

/-- `bist.unusable.clear`: the marks clear at the next boot. -/
def cmdUnusableClear : Cmd :=
  { id := 0x0C42, form := fun p => 4 ≤ p.len && 4 + 8 * p.word 0 ≤ p.len, life := testOnly
    hw := fun d p => (namedUnits p).any (fun u => !d.bist.passed u.1 u.2)
    content := fun _ p => refuse (p.len != 4 + 8 * p.word 0 || (namedUnits p).any (fun u => 9 < u.1 || 4095 < u.2)) sBadParam
    run := fun _ p d => (d.lcUsed.modBist (fun b => { b with clearAtBoot := b.clearAtBoot ++ namedUnits p }), .no sOk) }

/-- BIST_UNUSABLE_CLEAR (R370). -/
def execBistUnusableClear (dt : Nat) (o : Origin) (s : State) : Host.Outcome State Fault Refusal := wcpRow dt o cmdUnusableClear noOpen s

/-! Queries and configuration (R371, R372). -/

/-- `bist.status.get`: times in us. -/
def cmdBistStatus : Cmd := .query 0x0C00 (exactly 0) (fun _ _ => none) (fun d _ =>
  let b := d.bist
  words ([b.pass, b.pos, sat 0xFFFFFFFF ((d.now - b.passAt) / us), sat 0xFFFFFFFF (b.lastPass / us)] ++ b.words.toList.map BitVec.toNat ++
    [b.deferred, b.incomplete, b.transient, b.spareFw, b.spareSealed, b.spareField]))

/-- BIST_STATUS_GET (R372). -/
def execBistStatusGet (dt : Nat) (o : Origin) (s : State) : Host.Outcome State Fault Refusal := wcpRow dt o cmdBistStatus noOpen s

/-- `bist.unusable.get`: the marks in force, by class and index. -/
def cmdUnusableGet : Cmd :=
  { id := 0x0C01, form := exactly 0
    run := fun _ _ d =>
      let sorted := d.bist.marks.mergeSort (fun a b => a.cls * 4096 + a.idx ≤ b.cls * 4096 + b.idx)
      (d, answerPair d.bist.map.ok (counted (sorted.map (fun m => (words [m.cls, m.idx]).app (w64 m.time.toNat))))) }

/-- BIST_UNUSABLE_GET (R372). -/
def execBistUnusableGet (dt : Nat) (o : Origin) (s : State) : Host.Outcome State Fault Refusal := wcpRow dt o cmdUnusableGet noOpen s

/-- `bist.result.get`: the verdicts of a class, 15 those of CONTROL. -/
def cmdBistResult : Cmd := .query 0x0C02 (exactly 4) (fun _ p => refuse (9 < p.word 0 && p.word 0 != 15) sBadParam) (fun d p =>
  counted (((d.bist.verdicts.filter (fun v => v.cls == p.word 0)).mergeSort (fun a b => a.idx ≤ b.idx)).map (fun v =>
    words [v.idx, v.verdict])))

/-- BIST_RESULT_GET (R372). -/
def execBistResultGet (dt : Nat) (o : Origin) (s : State) : Host.Outcome State Fault Refusal := wcpRow dt o cmdBistResult noOpen s

/-- A configuration outside Table 12-6. -/
def bistCfgBad (v : Nat) : Bool :=
  reservedSet v [(63, 48), (15, 0)] || outside (nfld v 47 32) 1 600 || outside (nfld v 31 16) 100 3000

/-- `bist.config.set`: applies from the next pass. -/
def cmdBistConfig : Cmd :=
  { id := 0x0C40, form := exactly 8, sealed := fun _ => true
    content := fun _ p => refuse (bistCfgBad p.val) sBadParam
    run := fun c p d =>
      let old := digest128 (d.sealedValue 6)
      let d := d.mram false (fun d => d.modBist (fun b => { b with cfg := b.cfg.put (.ofNat 64 p.val) }))
      ((d.pendingEffect 6 true).sealChange c 0x0C40 6 old, .no sOk) }

/-- BIST_CONFIG_SET (R371). -/
def execBistConfigSet (dt : Nat) (o : Origin) (s : State) : Host.Outcome State Fault Refusal := wcpRow dt o cmdBistConfig noOpen s

end Sys2Proof.Machine
end

