-- ==== Sys2Proof/Machine/Supply.lean ====
section
/-! DEFINITION. The core supply: VBAT and rails, shutdown-imminent, standby and the hardware thermal shutdown (R396-R403, R410). -/

namespace Sys2Proof.Machine

open Sys2Proof

/-! Shutdown-imminent (R400). -/

/-- A member port sends one marker with LEAVE set, and its link is down (Table 14-4, step 6). -/
def Device.leaveMarker (d : Device) (p : Nat) : Device :=
  if (d.port p).joined then d.modPort p (fun x => { x with window := [setBit (d.markerFlit p) 211 true], link := .down }) else d

/-- The core side is powered and not already on its way down. -/
def Device.powered (d : Device) : Bool := d.power.core != .off && d.power.core != .standby

/-- Shutdown-imminent asserted: the cause is latched with the tick count, firing stops at once, records waiting are lost and counted
in the always-on domain, a running slice is restored, LEAVE markers go out. Once asserted it completes. -/
def Device.shutdown (d : Device) (cause : Cause) : Device :=
  if d.power.shut.isSome || !d.powered then d
  else
    let latch := (if d.alive then d.countShutdown cause else d).modPower (fun p => { p with
      counted := d.alive, cause, causeTick := d.tick, shut := some (d.now, cause), lostAtShutdown := sat 255 d.log.pend.length })
    if !d.alive then latch
    else
      let d := (latch.modLog (fun l => { l with pend := [] })).fireFaultStop
      let d := d.modFire (fun f => { f with armAt := none })
      let d := d.sliceLoss 6
      (d.leaveMarker 0).leaveMarker 1

/-- SHUTDOWN_IMMINENT (R400): on the causes that go through it. -/
def execShutdownImminent (dt : Nat) (cause : Cause) (s : State) : Host.Outcome State Fault Refusal :=
  devRow dt (fun d => if causeShuts cause then d.shutdown cause else d) s

/-- The rails have fallen: the C-die is in reset, the always-on domain holds the cause, and the minimum off time runs (R399). -/
def Device.removed (d : Device) (at_ : Nat) (cause : Cause) : Device :=
  (if d.power.core = .boot || d.power.core = .run then d.cleared else d).modPower (fun p => { p with
    core := if cause = .standby then .standby else .off
    shut := none, standbyAt := none, offUntil := at_ + 10 * ms, warn := 0, fault := 0, since := vset (Vector.replicate 7 none) 0 (vget p.since 0 none)
    rails := ⟨#[0, 0, 0, 0, 0, vget p.rails 5 0], rfl⟩
    thermHold := p.thermHold || cause = .thermHw, ovBarred := p.ovBarred || cause = .ovVbat })

/-- POWER_REMOVAL (R400): the supply has gone 100 us after the assertion, whenever this is told; the core side does nothing after that
(`Device.alive`). -/
def execPowerRemoval (dt : Nat) (s : State) : Host.Outcome State Fault Refusal :=
  resetRow dt (fun d => match d.power.shut with
    | some (t, cause) => if t + 100 * us ≤ d.now then some (d.removed (t + 100 * us) cause) else none
    | none => none) s

/-! VBAT (R396). -/

/-- A monitored voltage: VBAT is rail 0. -/
def Device.setRail (d : Device) (r mv : Nat) : Device :=
  if r = 0 then d.modPower (fun p => { p with vbat := mv, lowestVbat := min p.lowestVbat mv })
  else d.modPower (fun p => { p with rails := vset p.rails (r - 1) mv })

/-- The value of an episode farthest out: the lowest, or the highest of one above its nominal. -/
def farther (nominal old mv : Nat) : Nat :=
  let dist := fun (x : Nat) => max x nominal - min x nominal
  if dist old < dist mv then mv else old

/-- Nominal voltages in mV, VBAT first: an episode of VBAT is a low one. -/
def railNominal (r : Nat) : Nat := ([100000, 5000, 750, 900, 1200, 1800, 1200].drop r).headD 0

/-- PAYLOAD of E_SUPPLY (Table 14-13): value in 10 mV. -/
def supplyPayload (kind mv : Nat) : Nat := kind * 2 ^ 254 + sat 0xFFFF (mv / 10) * 2 ^ 238

/-- E_SUPPLY. -/
def Device.supplyEvent (d : Device) (r kind mv : Nat) : Device :=
  if d.alive then d.raise 0x0E03 r (supplyPayload kind mv) else d

/-- An episode of LOW or WARN begins, or goes on with another value. -/
def Device.episode (d : Device) (r mv : Nat) : Device :=
  d.modPower (fun p => { p with since := vset p.since r (match vget p.since r none with
    | none => some (d.now, mv)
    | some (t, x) => some (t, farther (railNominal r) x mv)) })

/-- An episode ends: E_SUPPLY, and the SUPPLY record with its entry, the rail, the value farthest out and the duration in us (R413,
log entry 91). -/
def Device.episodeEnd (d : Device) (r kind mv : Nat) : Device :=
  match vget d.power.since r none with
  | none => d.supplyEvent r kind mv
  | some (t, x) =>
    let d := if d.alive then d.raiseRec 0x0E03 r (supplyPayload kind mv) 0x0003 sevWarn (words [r, x, sat 0xFFFFFFFF ((d.now - t) / us)]) else d
    d.modPower (fun p => { p with since := vset p.since r none })

/-- VBAT has been above the start threshold for 1 ms: the power-up begins unless it is barred (R398, R410) or must wait (R399). After an
overvoltage VBAT must have been below 60 V, `calm` ns long by now, for 10 ms before that 1 ms began (Table 14-1). -/
def Device.vbatStart (d : Device) (mv calm : Nat) : Device :=
  let d := d.setRail 0 mv
  let p := d.power
  if mv < 9500 || p.core != .off || p.thermHold || p.thermLock || (p.ovBarred && (60000 ≤ mv || calm < 11 * ms)) then d
  else (d.modPower (fun p => { p with ovBarred := false })).powerUp

/-- VBAT_START (R398). -/
def execVbatStart (dt mv calm : Nat) (s : State) : Host.Outcome State Fault Refusal := devRow dt (fun d => d.vbatStart mv calm) s

/-- VBAT below 9.0 V for 10 us. -/
def Device.vbatLow (d : Device) (mv : Nat) : Device :=
  let d := d.setRail 0 mv
  if 9000 ≤ mv then d
  else
    let was := d.power.low
    let d := (d.modPower (fun p => { p with low := true })).episode 0 mv
    if was then d else d.supplyEvent 0 2 mv

/-- VBAT_LOW_WARNING (R396). -/
def execVbatLowWarning (dt mv : Nat) (s : State) : Host.Outcome State Fault Refusal := devRow dt (fun d => d.vbatLow mv) s

/-- VBAT has risen through 9.3 V. -/
def Device.vbatLowClear (d : Device) (mv : Nat) : Device :=
  let d := d.setRail 0 mv
  if mv < 9300 || !d.power.low then d
  else (d.modPower (fun p => { p with low := false })).episodeEnd 0 3 mv

/-- VBAT_LOW_CLEAR (R396). -/
def execVbatLowClear (dt mv : Nat) (s : State) : Host.Outcome State Fault Refusal := devRow dt (fun d => d.vbatLowClear mv) s

/-- VBAT_POWER_FAIL (R396): below 8.5 V for 2 us. -/
def execVbatPowerFail (dt mv : Nat) (s : State) : Host.Outcome State Fault Refusal :=
  devRow dt (fun d => if mv < 8500 then (d.setRail 0 mv).shutdown .pfVbat else d.setRail 0 mv) s

/-- VBAT_OVERVOLTAGE (R396): above 63 V for 10 us. -/
def execVbatOvervoltage (dt mv : Nat) (s : State) : Host.Outcome State Fault Refusal :=
  devRow dt (fun d => if 63000 < mv then (d.setRail 0 mv).shutdown .ovVbat else d.setRail 0 mv) s

/-- VBAT below 4.5 V: the always-on domain resets and its latched causes are lost (R396); what was powered falls with it. A
record being written stays torn (R415; DEDUCED, log entry 172). -/
def Device.aonMinimum (d : Device) : Device :=
  let d := d.modLog (fun l => { l with
    recs := (l.recs ++ l.writing.toList).drop (l.recs.length + l.writing.toList.length - 2048), writing := none, sealing := none })
  { d.cleared with
    power := { vbat := 0, rails := Vector.replicate 6 0, core := .off, aonBase := d.now, counted := true, sensors := d.cleared.power.sensors
               nvmWait := d.power.nvmWait, rstPin := d.power.rstPin, lowestVbat := 0 } }

/-- AON_MINIMUM (R396). -/
def execAonMinimum (dt : Nat) (s : State) : Host.Outcome State Fault Refusal := resetRow dt (fun d => some d.aonMinimum) s

/-- MIN_OFF_TIME_EXPIRY (R399): a start condition that came earlier takes effect. -/
def execMinOffTimeExpiry (dt : Nat) (s : State) : Host.Outcome State Fault Refusal :=
  devRow dt (fun d => if d.power.startDue && d.power.offUntil ≤ d.now && !d.powered then d.powerUp else d) s

/-! Rails (R397, Table 14-2). -/

/-- The number of a rail in E_SUPPLY. -/
def railNo : Rail → Nat
  | .vbat => 0
  | .vint => 1
  | .vcore => 2
  | .vser => 3
  | .vmem => 4
  | .vio => 5
  | .vaon => 6

/-- A rail deviates by more than a percentage of its nominal. -/
def railBeyond (r mv pct : Nat) : Bool :=
  let n := railNominal r
  decide (pct * n < 100 * (max mv n - min mv n))

/-- Warning band and fault limit in percent. -/
def railWarn (r : Nat) : Nat := if r = 6 then 5 else 3
def railLimit (r : Nat) : Nat := if r = 1 then 8 else if r = 6 then 10 else 6

/-- A rail outside its warning band for 10 us: WARN, which fails the VOLTAGE precondition (R363). -/
def Device.railWarning (d : Device) (r mv : Nat) : Device :=
  if r = 0 then d.setRail 0 mv
  else
    let d := d.setRail r mv
    if !d.powered || !railBeyond r mv (railWarn r) then d
    else
      let d := if d.alive then d.sliceLoss 3 else d
      let was := bit d.power.warn (r - 1)
      let d := (d.modPower (fun p => { p with warn := setBit p.warn (r - 1) true })).episode r mv
      if was then d else d.supplyEvent r 0 mv

/-- RAIL_WARNING (R397). -/
def execRailWarning (dt : Nat) (rail : Rail) (mv : Nat) (s : State) : Host.Outcome State Fault Refusal :=
  devRow dt (fun d => d.railWarning (railNo rail) mv) s

/-- A rail back inside its warning band. -/
def Device.railWarningEnd (d : Device) (r mv : Nat) : Device :=
  if r = 0 then d.setRail 0 mv
  else
    let d := d.setRail r mv
    if railBeyond r mv (railWarn r) || !bit d.power.warn (r - 1) then d
    else (d.modPower (fun p => { p with warn := setBit p.warn (r - 1) false })).episodeEnd r 1 mv

/-- RAIL_WARNING_END (R397). -/
def execRailWarningEnd (dt : Nat) (rail : Rail) (mv : Nat) (s : State) : Host.Outcome State Fault Refusal :=
  devRow dt (fun d => d.railWarningEnd (railNo rail) mv) s

/-- A rail outside its fault limit for 10 us: shutdown with cause RAIL. -/
def Device.railFault (d : Device) (r mv : Nat) : Device :=
  let d := d.setRail r mv
  if r = 0 || !d.powered || !railBeyond r mv (railLimit r) then d
  else (d.modPower (fun p => { p with fault := setBit p.fault (r - 1) true })).shutdown .rail

/-- RAIL_FAULT (R397). -/
def execRailFault (dt : Nat) (rail : Rail) (mv : Nat) (s : State) : Host.Outcome State Fault Refusal :=
  devRow dt (fun d => d.railFault (railNo rail) mv) s

/-! Standby (R402). -/

/-- `pwr.standby`. -/
def cmdStandby : Cmd :=
  { id := 0x0E42, form := exactly 0
    run := fun _ _ d => (d.modPower (fun p => { p with standbyAt := some (p.standbyAt.getD (d.now + ms)) }), .no sOk) }

/-- Where the response waits for its REPLY_Q, the 1 ms count from its delivery (log entry 135). -/
def Device.standbyAfterReply (old new : Device) : Device :=
  match old.power.standbyAt, new.power.standbyAt with
  | none, some _ => if old.replyWaits new then new.afterReply .standby else new
  | _, _ => new

/-- PWR_STANDBY (R402). -/
def execPwrStandby (dt : Nat) (o : Origin) (s : State) : Host.Outcome State Fault Refusal :=
  wcpRowThen dt o cmdStandby noOpen Device.standbyAfterReply s

/-- When standby is due: not while its response still waits for its REPLY_Q. -/
def Device.standbyDue (d : Device) : Option Nat :=
  if d.wcp.replies.any (fun r => r.resets == some .standby) then none else d.power.standbyAt

/-- STANDBY_SHUTDOWN (R402): 1 ms after the response. -/
def execStandbyShutdown (dt : Nat) (s : State) : Host.Outcome State Fault Refusal :=
  coreRow dt (fun d => match d.standbyDue with
    | some t => if t ≤ d.now then (d.modPower (fun p => { p with standbyAt := none })).shutdown .standby else d
    | none => d) s

/-- WAKE_ASSERT (R402): WAKE for at least 1 ms starts the device from standby. -/
def execWakeAssert (dt width : Nat) (s : State) : Host.Outcome State Fault Refusal :=
  devRow dt (fun d => if d.power.core = .standby && ms ≤ width then d.powerUp else d) s

/-! Hardware shutdown (R410); temperatures in 0.01 degC, the trip at 165 degC within 3 K. -/

/-- SD_C or SD_P trips: the shutdown is counted; the fourth within 600 s sets THERM_LOCK. -/
def Device.thermTrip (d : Device) (sdC sdP : Int) : Device :=
  let d := d.modPower (fun p => { p with sdC, sdP })
  if d.power.shut.isSome || !d.powered || max sdC sdP < 16200 then d
  else
    let old := d.power.thermAt.filter (fun t => decide (d.now < t + 600 * second))
    let d := d.modPower (fun p => { p with
      tripC := sdC, tripP := sdP, thermAt := d.now :: old, thermCount := p.thermCount + 1, thermLock := p.thermLock || 3 ≤ old.length })
    d.shutdown .thermHw

/-- HW_THERMAL_TRIP (R410). -/
def execHwThermalTrip (dt : Nat) (sdC sdP : Int) (s : State) : Host.Outcome State Fault Refusal := devRow dt (fun d => d.thermTrip sdC sdP) s

/-- Both sensors have read below 140 degC for 1 s: the hold ends, and the device starts where the supply stands and THERM_LOCK is clear. -/
def Device.thermRestart (d : Device) (sdC sdP : Int) : Device :=
  let d := d.modPower (fun p => { p with sdC, sdP })
  let p := d.power
  if !p.thermHold || 14000 ≤ max sdC sdP || p.core != .off then d
  else
    let d := d.modPower (fun p => { p with thermHold := false })
    if p.vbat < 9500 || p.thermLock then d else d.powerUp

/-- HW_THERMAL_RESTART (R410). -/
def execHwThermalRestart (dt : Nat) (sdC sdP : Int) (s : State) : Host.Outcome State Fault Refusal :=
  devRow dt (fun d => d.thermRestart sdC sdP) s

/-- `pwr.status.get`: VBAT in mV and its low warning; per rail its voltage, warning and fault; cause; THERM_LOCK with the
thermal shutdowns counted and those of the last 600 s; lowest VFIELD per group. -/
def cmdPwrStatus : Cmd := .query 0x0E00 (exactly 0) (fun _ _ => none) (fun d _ =>
  let p := d.power
  Bytes.cat [words [p.vbat, p.low.toNat],
    words (p.rails.toList.zipIdx.flatMap (fun x => [x.1, (bit p.warn x.2).toNat, (bit p.fault x.2).toNat])), w32 (causeCode p.cause),
    words [p.thermLock.toNat, p.thermCount, (p.thermAt.filter (fun t => decide (d.now < t + 600 * second))).length],
    words (d.field.groups.toList.map (fun g => g.minMv))])

/-- PWR_STATUS_GET (R419). -/
def execPwrStatusGet (dt : Nat) (o : Origin) (s : State) : Host.Outcome State Fault Refusal := wcpRow dt o cmdPwrStatus noOpen s

end Sys2Proof.Machine
end

