-- ==== Sys2Proof/Machine/Security.lean ====
section
/-! DEFINITION. Keys, life cycle, vendor debug, image verification and the sealed queries and reservations (R373-R380, R384, R387). -/

namespace Sys2Proof.Machine

open Sys2Proof

def Device.modSec (d : Device) (f : Sec → Sec) : Device := { d with sec := f d.sec }

/-! Key slots (R373, R374). -/

/-- Slots of public-key digests; the others hold AES keys (Table 13-1). -/
def publicSlot (slot : Nat) : Bool := slot = 0 || slot = 2 || slot = 3

/-- The copies of a slot. -/
def Sec.copies (s : Sec) (slot : Nat) : Vector KeyCopy 4 := vget s.keys slot (Vector.replicate 4 {})

/-- The next unwritten integrator copy. -/
def Sec.nextCopy (s : Sec) (slot : Nat) : Option Nat := [1, 2, 3].find? (fun i => !(vget (s.copies slot) i {}).written)

/-- The slot holds an integrator copy in force. -/
def Sec.integrator (s : Sec) (slot : Nat) : Bool :=
  [1, 2, 3].any (fun i => (vget (s.copies slot) i {}).written && !(vget (s.copies slot) i {}).revoked)

/-- A copy is written and not revoked. -/
def Sec.standing (s : Sec) (slot i : Nat) : Bool :=
  (vget (s.copies slot) i {}).written && !(vget (s.copies slot) i {}).revoked

/-- A slot's copies changed. -/
def Sec.modCopies (s : Sec) (slot : Nat) (f : Vector KeyCopy 4 → Vector KeyCopy 4) : Sec := { s with keys := vmod s.keys slot f }

/-- The copies in a range revoked. -/
def Sec.revoke (s : Sec) (slot : Nat) (l : List Nat) : Sec :=
  s.modCopies slot (fun c => l.foldl (fun c i => vmod c i (fun k => { k with revoked := true })) c)

/-- A value written into a copy; the integrator copies before it are revoked. -/
def Sec.putKey (s : Sec) (slot i : Nat) (v : BitVec 256) : Sec :=
  (s.revoke slot ((List.range i).filter (fun j => 1 ≤ j))).modCopies slot (fun c => vset c i { written := true, value := v })

/-- Whether a slot is writable from a session's slot, the life-cycle state aside (Table 13-1). -/
def writableFrom (slot by_ : Nat) : Bool :=
  (2 ≤ slot && slot ≤ 14) && (by_ = 1 || (by_ = 4 && slot != 3 && slot != 5) || (by_ = 5 && (slot = 3 || slot = 5)))

/-- The rights of `sec.key.write` beyond Table 13-1 (R374, R375). -/
def keyLife (d : Device) (c : Ctx) (p : Bytes) : Refuse :=
  let slot := p.byte 0
  let image := slot = 2 || slot = 3
  if !writableFrom slot c.slot then some (sBadState, Bytes.nil)
  else if d.sec.fuseFail || (image && !(d.lc = lcBlank || d.lc = lcProvisioned)) ||
      !(d.lc = lcBlank || d.lc = lcProvisioned || d.lc = lcField) then some (sLifecycle, Bytes.nil)
  else refuse (image && c.slot != 1 && d.lc != lcProvisioned) sBadState

/-- The value of key material: the unwrapped key, or the digest of a point on P-256. -/
def Device.keyMaterial (d : Device) (c : Ctx) (p : Bytes) : Option (BitVec 256) :=
  if publicSlot (p.byte 0) then
    let pt := Crypto.bytesOf (p.slice 8 64)
    if Crypto.onCurve (Crypto.toBig (pt.take 32)) (Crypto.toBig (pt.drop 32)) then some (.ofNat 256 (Crypto.toNat (Crypto.sha pt))) else none
  else (Crypto.unwrap (keyBytes (d.session c.session).key) (Crypto.bytesOf (p.slice 8 40))).map (fun k => .ofNat 256 (Crypto.toNat k))

/-- The key written: E_KEY with its record, and one for the copy it revokes, and for slots 3 and 5 a sealed change (R385). -/
def Device.writeKey (d : Device) (c : Ctx) (slot copy : Nat) (v : BitVec 256) : Device :=
  let old := ((d.keyCopy slot).map (fun k => digest128 (.mk' 32 k.2.value.toNat))).getD 0
  let used := ((d.keyCopy c.slot).map (fun k => k.1)).getD 0
  let gone := (List.range copy).filter (fun i => 1 ≤ i && d.sec.standing slot i)
  let d := d.modSec (fun s => s.putKey slot copy v)
  let d := d.raiseRec 0x0D04 slot (copy * 2 ^ 254 + 2 ^ 253) 0x000E sevSafety (words [slot, copy])
  let d := gone.foldl (fun d i => d.raise 0x0D04 slot (i * 2 ^ 254)) d
  if slot = 3 || slot = 5 then
    d.sealRecord ⟨9, 0x0D40, c.slot, used, .ofNat 128 old, Crypto.shaBits (.mk' 32 v.toNat), false⟩
  else d

/-- `sec.key.write`. -/
def cmdKeyWrite : Cmd :=
  { id := 0x0D40
    form := fun p => 1 ≤ p.len && p.byte 0 ≤ 15 && p.len == 8 + (if publicSlot (p.byte 0) then 64 else 40)
    sealed := fun p => p.byte 0 == 3 || p.byte 0 == 5
    life := keyLife
    content := fun _ p => refuse (p.bits 63 8 != 0) sBadParam
    run := fun c p d =>
      match d.keyMaterial c p, d.sec.nextCopy (p.byte 0) with
      | none, _ => (d, .no sBadParam)
      | _, none => (d, .no sNoResource)
      | some v, some i => (d.lcUsed.writeKey c (p.byte 0) i v, .no sOk) }

/-- The open sessions of the slots whose key has changed (R374). -/
def Device.rekeyed (old new : Device) : List Nat :=
  let changed := (List.range 16).filter (fun t => old.sec.copies t != new.sec.copies t && old.lc = new.lc)
  (List.range 16).filter (fun n => (new.session n).isOpen && changed.contains (new.session n).slot)

/-- The sessions of the slots whose key has changed close once the response has been delivered (R374): where it waits for its REPLY_Q,
with its delivery. -/
def Device.closeWritten (old new : Device) : Device :=
  let l := old.rekeyed new
  if l.isEmpty then new
  else if old.replyWaits new then
    new.modLastReply (fun r => { r with closes := l })
  else l.foldl (fun d n => d.closeSession n 0) new

/-- SEC_KEY_WRITE (R374). -/
def execSecKeyWrite (dt : Nat) (o : Origin) (s : State) : Host.Outcome State Fault Refusal :=
  wcpRowThen dt o cmdKeyWrite noOpen Device.closeWritten s

/-! Images (R378-R380). -/

/-- The number of a component: 0 general, 1 sealed. -/
def compNo : Component → Nat
  | .general => 0
  | .sealed => 1

/-- Offset and size of a slot, and the largest body (Table 13-4). -/
def slotOff (comp slot : Nat) : Nat :=
  if comp = 0 then (if slot = 0 then 0x100000 else 0x400000) else (if slot = 0 then 0x700000 else 0x800000)
def slotSize (comp : Nat) : Nat := if comp = 0 then 0x300000 else 0x100000
def bodyLimit (comp : Nat) : Nat := if comp = 0 then 0x200000 else 0x80000

/-- What an unlisted byte of the flash reads as: erased. -/
def flashDefault : Byte := 0xFF

/-- A slot's header as a number, and its fields (Table 13-5). -/
def Sec.imgHeader (s : Sec) (comp slot : Nat) : Nat := Mem.readN flashDefault s.flash (slotOff comp slot) 512
def ihFmt (h : Nat) : Nat := nfld h 63 48
def ihVersion (h : Nat) : Nat := nfld h 95 64
def ihSec (h : Nat) : Nat := nfld h 103 96
def ihLength (h : Nat) : Nat := nfld h 159 128
def ihDigest (h : Nat) : Nat := nfld h 415 160

/-- MAGIC, COMPONENT, FORMAT, PARAM_FMT, VERSION, SEC_VER and LENGTH valid for a component, reserved bytes zero. -/
def imgFormOk (comp h : Nat) : Bool :=
  nfld h 31 0 == 0x4B574D49 && nfld h 39 32 == comp + 1 && nfld h 47 40 == 1 && (comp == 1 || ihFmt h == 0) &&
    2 ≤ ihVersion h && ihVersion h % 2 == 0 && ihSec h ≤ 63 && nfld h 127 104 == 0 && ihLength h % 256 == 0 &&
    ihLength h ≤ bodyLimit comp && nfld h 511 416 == 0 && nfld h 4095 1536 == 0

/-- The points with x coordinate `x` modulo the group order (ECDSA), as candidates for the signature's point. -/
def Crypto.lift (r : Nat) : List (Nat × Nat) :=
  let p := Crypto.p256
  [r, r + Crypto.n256].flatMap (fun x =>
    let a := (x * x * x + (p - 3) * x + Crypto.b256) % p
    let y := Crypto.powMod p a 256 ((p + 1) / 4)
    if p ≤ x || y * y % p != a then [] else [(x, y), (x, (p - y) % p)])

/-- The public keys under which a signature r, s verifies over a hash. -/
def Crypto.signers (r s e : Nat) : List (Nat × Nat) :=
  let n := Crypto.n256
  if r = 0 || n ≤ r || s = 0 || n ≤ s then []
  else
    let w := Crypto.invMod n r
    (Crypto.lift r).filterMap (fun pt =>
      match Crypto.add (Crypto.mulPt (some pt) 256 (s * w % n)) (Crypto.mulPt (some Crypto.g256) 256 ((n - e % n) * w % n)) with
      | some q => if Crypto.ecdsa q.1 q.2 r s e then some q else none
      | none => none)

/-- A signature in 64 bytes of a header verifies over its bytes 0-63 with a slot: its signer's point has the slot's digest (DEDUCED,
log entry 92). -/
def Device.signed (d : Device) (slot h off : Nat) : Bool :=
  let sig := Crypto.bytesOfNat 64 (h / 2 ^ (8 * off))
  let e := Crypto.toBig (Crypto.sha (Crypto.bytesOfNat 64 h))
  match d.keyCopy slot with
  | none => false
  | some k => (Crypto.signers (Crypto.toBig (sig.take 32)) (Crypto.toBig (sig.drop 32)) e).any (fun q =>
      Crypto.toNat (Crypto.sha (Crypto.ofBig 32 q.1 ++ Crypto.ofBig 32 q.2)) == k.2.value.toNat)

/-- The integrator signature of a component's header verifies. -/
def Device.signedInt (d : Device) (comp h : Nat) : Bool := d.signed (2 + comp) h 128

/-- The image in a slot, where it verifies (R380). -/
def Device.image (d : Device) (comp slot : Nat) : Option Image :=
  let h := d.sec.imgHeader comp slot
  let lc := d.lc
  let ok := imgFormOk comp h && vget d.sec.minSec comp 0 ≤ ihSec h && d.signed 0 h 64 &&
    (!(lc = lcProvisioned || lc = lcField) || d.signedInt comp h) &&
    Crypto.toNat (Crypto.sha (Crypto.bytesOfNat (ihLength h) (Mem.readN flashDefault d.sec.flash (slotOff comp slot + 512) (ihLength h)))) ==
      ihDigest h
  if ok then some { slot, version := .ofNat 32 (ihVersion h), secVer := ihSec h, paramFmt := ihFmt h, digest := .ofNat 256 (ihDigest h) }
  else none

/-! Life cycle (R375, R376). -/

/-- Every sealed parameter is consistent. -/
def Device.sealedOk (d : Device) : Bool :=
  d.fire.budget.ok && d.rx.lens.ok && d.ret.zmaps.toList.all (fun z => z.ok) && d.field.blockOk && d.core.rules.ok && d.bist.cfg.ok &&
    d.sec.resv.toList.all (fun r => r.ok)

/-- A transition is permitted from a state by a session's slot (Table 13-3). -/
def lcPermits (lc target slot : Nat) : Bool :=
  (lc = lcBlank && slot = 1 && (target = lcProvisioned || target = lcScrapped)) ||
    (lc = lcProvisioned && slot = 4 && (target = lcField || target = lcReturn || target = lcScrapped)) ||
    (lc = lcField && slot = 4 && (target = lcReturn || target = lcScrapped)) ||
    (lc = lcReturn && slot = 15 && target = lcScrapped)

/-- The running image of a component carries an integrator signature that verifies. -/
def Device.runningSigned (d : Device) (comp : Nat) : Bool :=
  match (if comp = 0 then d.sec.general else d.sec.sealed) with
  | some i => d.signedInt comp (d.sec.imgHeader comp i.slot)
  | none => false

/-- Preconditions of a transition (Table 13-3). -/
def Device.lcReady (d : Device) (target : Nat) : Bool :=
  if target = lcProvisioned then [2, 3, 4, 5].all (fun s => d.sec.integrator s) && d.runningSigned 0 && d.runningSigned 1
  else if target = lcField then d.sec.sealed.isSome && d.sealedOk
  else
    d.fire.fn.st == .off && (target != lcReturn ||
      (!vget d.sec.switchDue 0 false && d.sec.switchAt.isNone && !d.sealedSwitching))

/-- The safe-default field block: applied now where the field die is in contact, else due (R376). -/
def Device.blockToDefault (d : Device) : Device :=
  if d.contact then d.applyBlock Config.blockDefault else d.modSec (fun s => { s with blockDefaultDue := true })

/-- Every sealed parameter at its safe default, as one counted change (R376, R385): the record names the sealed identification before
and after. -/
def Device.sealedToDefault (d : Device) (cmdId slot : Nat) : Device :=
  let old := d.digestShown
  let d := d.blockToDefault.serve [7]
  let d := d.modFire (fun f => { f with budget := f.budget.put Config.budgetDefault, safeBudget := false, budgetAt := d.now })
  let d := d.modRx (fun r => { r with lens := r.lens.put Config.lensReference, lensNext := true })
  let d := d.modRet (fun r => { r with zmaps := r.zmaps.map (fun m => m.put Config.zmapDefault) })
  let d := d.modCore (fun c => { c with rules := c.rules.put 0 })
  let d := d.modBist (fun b => { b with cfg := b.cfg.put Config.bistDefault })
  let d := d.modSec (fun s => { s with resv := s.resv.map (fun m => m.put 0) })
  let used := if cmdId = 0 then 0 else ((d.keyCopy slot).map (fun k => k.1)).getD 0
  d.sealRecord ⟨10, cmdId, slot, used, .ofNat 128 old, .ofNat 256 (d.digestWith defaultDigests), false⟩

/-- Copies of slots revoked, each that stood with its E_KEY (Table 13-10). -/
def Device.revokeAll (d : Device) (slots copies : List Nat) : Device :=
  let gone := slots.flatMap (fun k => (copies.filter (fun i => d.sec.standing k i)).map (fun i => (k, i)))
  gone.foldl (fun d x => d.raise 0x0D04 x.1 (x.2 * 2 ^ 254)) (d.modSec (fun s => slots.foldl (fun s k => s.revoke k copies) s))

/-- The effects of reaching a state (Table 13-3), by a command or, at a boot, without one. -/
def Device.lcEffects (d : Device) (target cmdId slot : Nat) : Device :=
  if target = lcProvisioned then d.modSec (fun s => { s with debug := false })
  else if target = lcReturn then
    (d.sealedToDefault cmdId slot).revokeAll ((List.range 15).drop 2) [1, 2, 3]
  else if target = lcScrapped then d.blockToDefault.revokeAll ((List.range 16).drop 1) [0, 1, 2, 3]
  else d

/-- Both fuses of a transition programmed and the working pair set. -/
def Sec.advance (s : Sec) (target : Nat) : Sec :=
  { s with fuses := vset s.fuses (target - 2) (true, true), lc := Pair.of (.ofNat 32 target) }

/-- E_LIFECYCLE (Table 13-10). -/
def lcPayload (from_ to_ : Nat) (begun : Bool) : Nat := fields [(252, from_), (248, to_), (247, begun.toNat)]

/-- The rights of `lc.advance`: a consistent pair, and a target that is permitted. -/
def advanceLife (d : Device) (c : Ctx) (p : Bytes) : Refuse :=
  if p.word 1 != 2 ^ 32 - 1 - p.word 0 then some (sBadParam, Bytes.nil)
  else refuse (d.sec.fuseFail || d.sec.lcTo.isSome || !lcPermits d.lc (p.word 0) c.slot) sLifecycle

/-- `lc.advance`: begun. -/
def cmdAdvance : Cmd :=
  { id := 0x0D41, form := exactly 8, life := advanceLife
    state := fun d p => refuse (!d.lcReady (p.word 0)) sBadState
    run := fun _ p d =>
      let d := d.lcUsed.raiseRec 0x0D03 (p.word 0) (lcPayload d.lc (p.word 0) true) 0x000E sevSafety (words [d.lc, p.word 0])
      (d.modSec (fun s => { s with lcTo := some (p.word 0) }), .pend .lcAdvance) }

/-- The transition carried out once its S_PENDING has been answered: fuses, effects, completion, and the reset 1 ms later. The spec gives
no time between them (DESIGN CHOICE, log entry 93). -/
def Device.advance (old new : Device) : Device :=
  match new.sec.lcTo, old.sec.lcTo with
  | some t, none =>
    let was := new.lc
    let slot := ((new.wcp.waits.find? (fun w => w.kind == .lcAdvance)).map (fun w => (new.session w.session.val).slot)).getD 0
    let d := (new.lcEffects t 0x0D41 slot).modSec (fun s => s.advance t)
    let d := (d.complete .lcAdvance sOk Bytes.nil).raise 0x0D03 t (lcPayload was t false)
    let d := if t = lcReturn then (List.range 16).foldl (fun d n => d.closeSession n 0) d else d
    d.scheduleReset ms .commanded
  | _, _ => new

/-- The transition, and its reset 1 ms after its completion has been delivered. -/
def Device.advanceAndReset (old new : Device) : Device := old.resetAfterReply (old.advance new)

/-- LC_ADVANCE (R376). -/
def execLcAdvance (dt : Nat) (o : Origin) (s : State) : Host.Outcome State Fault Refusal :=
  wcpRowThen dt o cmdAdvance noOpen Device.advanceAndReset s

/-- The debug port presents a nonce and receives a response: AES-256-CMAC under KY_SVC of the identifier and the nonce opens vendor
debug, in BLANK and RETURN only; the firing controller goes OFF (R377). -/
def Device.debugUnlock (d : Device) (response : BitVec 128) : Device :=
  let nonce := Crypto.bytesOfNat 16 (Config.nonce d.wcp.draws).toNat
  let d := ({ d with wcp := { d.wcp with draws := d.wcp.draws + 1 } } : Device).lcUsed
  match (if (d.lc = lcBlank || d.lc = lcReturn) && !d.sec.fuseFail then d.keyCopy 15 else none) with
  | none => d
  | some k =>
    if BitVec.ofNat 128 (Crypto.toNat (Crypto.cmac (keyBytes k.2.value) (uidBytes ++ nonce))) = response then
      let live := d.fire.fn.st == .on || d.fire.fn.st == .starting
      let d := d.modSec (fun s => { s with debug := true })
      if live then (d.beginStop .fire d.fire.stopLen).enterStopping else d
    else d

/-- DEBUG_UNLOCK (R377). -/
def execDebugUnlock (dt : Nat) (response : BitVec 128) (s : State) : Host.Outcome State Fault Refusal :=
  coreRow dt (fun d => d.debugUnlock response) s

/-! Queries (R395). -/

/-- The result of `sec.status.get`: state; per slot its kind (0 public-key digest, 1 AES), the copy in force (0xFF none) and the integrator
copies left; MIN_SEC_VER of both components; debug. -/
def Device.secStatus (d : Device) : Bytes :=
  let slot := fun (k : Nat) => words [(!publicSlot k).toNat, ((d.keyCopy k).map (fun c => c.1)).getD 0xFF,
    ([1, 2, 3].filter (fun i => !(vget (d.sec.copies k) i {}).written)).length]
  Bytes.cat ([w32 d.lc] ++ (List.range 16).map slot ++ [words (d.sec.minSec.toList ++ [(d.sec.debug : Bool).toNat])])

/-- `sec.status.get`. -/
def cmdSecStatus : Cmd := { id := 0x0D00, form := exactly 0, run := fun _ _ d => (d.lcUsed, answerPair d.sec.lc.ok d.secStatus) }

/-- SEC_STATUS_GET (R395). -/
def execSecStatusGet (dt : Nat) (o : Origin) (s : State) : Host.Outcome State Fault Refusal := wcpRow dt o cmdSecStatus noOpen s

/-- The result of `seal.ident.get`. -/
def Device.sealIdent (d : Device) : Bytes :=
  Bytes.cat ([Bytes.mk' 32 d.digestShown, w32 (d.counter cSeal), w32 ((d.sealedShown.map (fun i => i.version.toNat)).getD 0)] ++
    (List.range 7).map (fun i => Bytes.mk' 16 (paramDigest d.sec.digests i).toNat) ++ [w32 d.sec.pendingEffect.toNat])

/-- `seal.ident.get`. -/
def cmdSealIdent : Cmd :=
  { id := 0x0D02, form := exactly 0, run := fun _ _ d => (d.counterRead cSeal, answerPair (d.counterOk cSeal) d.sealIdent) }

/-- SEAL_IDENT_GET (R387). -/
def execSealIdentGet (dt : Nat) (o : Origin) (s : State) : Host.Outcome State Fault Refusal := wcpRow dt o cmdSealIdent noOpen s

/-! Sealed reservations (R384). -/

/-- Entries of sealed reservations in use, with those left as they are because they fail their check (R352). -/
def Sec.resvCount (s : Sec) : Nat := (s.resv.toList.filter (fun r => !r.ok || fld r.v 95 64 != 0)).length

/-- `seal.resv.set`: queue, destination mask, rate in RU, PROTECT. -/
def cmdSealResvSet : Cmd :=
  { id := 0x0D47, form := exactly 16, sealed := fun _ => true
    state := fun d _ => refuse (!d.ring.onring) sBadState
    content := fun d p => refuse (outside (p.word 0) 16 16383 || ((d.queue (p.word 0)).configured && (d.queue (p.word 0)).inbound) ||
      p.word 1 == 0 || p.word 2 == 0 || 1 < p.word 3) sBadParam
    resource := fun d p => refuse (32 ≤ d.sec.resvCount && (d.sec.sealedResv (p.word 0)).isNone) sNoResource
    run := fun _ p d =>
      let v : Resv := { node := d.ring.node, queue := p.word 0, mask := .ofNat 32 (p.word 1), ru := p.word 2, protect := p.word 3 == 1
                        sealed := true, west := false, admitted := false }
      (d.requestResv v, .pend (.sealResv (p.word 0))) }

/-- SEAL_RESV_SET (R384). -/
def execSealResvSet (dt : Nat) (o : Origin) (s : State) : Host.Outcome State Fault Refusal := wcpRow dt o cmdSealResvSet noOpen s

/-- `seal.resv.clear`. -/
def cmdSealResvClear : Cmd :=
  { id := 0x0D48, form := exactly 4, sealed := fun _ => true
    state := fun d p => refuse (outside (p.word 0) 16 16383 = false && (d.sec.sealedResv (p.word 0)).isNone) sBadState
    content := fun _ p => refuse (outside (p.word 0) 16 16383) sBadParam
    run := fun c p d =>
      let old := digest128 (d.sealedValue 7)
      let d := d.mram false (fun d => d.modSec (fun s => s.putResv (p.word 0) none))
      ((d.sealChange c 0x0D48 7 old).releaseResv (p.word 0), .no sOk) }

/-- SEAL_RESV_CLEAR (R384). -/
def execSealResvClear (dt : Nat) (o : Origin) (s : State) : Host.Outcome State Fault Refusal := wcpRow dt o cmdSealResvClear noOpen s

end Sys2Proof.Machine
end

