-- ==== Sys2Proof/Machine/Update.lean ====
section
/-! DEFINITION. Live update: staging, general and sealed switchovers, confirmation (R381, R388-R394). -/

namespace Sys2Proof.Machine

open Sys2Proof

/-! The boot record (R381). -/

/-- A boot record written to the copy with the lower write count, or one that does not match. -/
def Sec.putBoot (s : Sec) (r : BootRec) : Sec :=
  let a := vget s.boot 0 {}
  let b := vget s.boot 1 {}
  let i := if !a.good then 0 else if !b.good then 1 else if a.count.toNat < b.count.toNat then 0 else 1
  let count := max (if a.good then a.count.toNat else 0) (if b.good then b.count.toNat else 0) + 1
  let c : BootCopy := { count := .ofNat 32 count, rec_ := r }
  { s with boot := vset s.boot i { c with crc := .ofNat 32 c.sum } }

/-- The boot record in use, empty where neither copy matches. -/
def Sec.record (s : Sec) : BootRec := s.bootRec.getD {}

def Device.modBoot (d : Device) (f : BootRec → BootRec) : Device := d.mram true (fun d => d.modSec (fun s => s.putBoot (f s.record)))

/-- VERSION of a slot as last verified in it; 0 where it is not. -/
def BootRec.setVersion (r : BootRec) (comp slot v : Nat) : BootRec := { r with versions := vset r.versions (2 * comp + slot) (.ofNat 32 v) }

/-- The image running of a component. -/
def Device.runs (d : Device) (comp : Nat) : Option Image :=
  if comp = 0 then d.sec.general else match d.sec.sealed with
    | some i => some i
    | none => if d.sec.sealSwitchAt.isSome then d.sec.sealedLast else none

/-- The slot a component runs from, or last did; and the other one. -/
def Device.activeSlot (d : Device) (comp : Nat) : Nat :=
  match d.runs comp with
  | some i => i.slot
  | none => vget d.sec.record.active comp 0
def Device.inactiveSlot (d : Device) (comp : Nat) : Nat := 1 - d.activeSlot comp

/-- E_FW (Table 13-10): kinds 0 VERIFIED, 1 SWITCHED, 2 CONFIRMED, 3 ROLLBACK, 4 FAILED_START, 5 SLOT_FAILED, 6 RECOVERY. -/
def Device.fwEvent (d : Device) (comp kind version slot : Nat) : Device :=
  d.raise 0x0D02 (comp + 1) (fields [(252, kind), (221, version / 2), (220, slot)])

def Device.staging (d : Device) (comp : Nat) : Staging := vget d.sec.staging comp .idle
def Device.setStaging (d : Device) (comp : Nat) (st : Staging) (img : Option Image) : Device :=
  d.modSec (fun s => { s with staging := vset s.staging comp st, staged := vset s.staged comp img })

/-- COMPONENT of a payload, and the component it names. -/
def compOf (p : Bytes) : Nat := p.word 0 - 1
def compName (c : Nat) : Component := if c = 0 then .general else .sealed
def fwForm (n : Nat) (p : Bytes) : Bool := p.len == n && (p.word 0 == 1 || p.word 0 == 2)
def fwSealed (p : Bytes) : Bool := p.word 0 == 2

/-- Staging is refused while the component is on trial (R389), or its switch is pending (DESIGN CHOICE, log entry 94). -/
def Device.stagingBarred (d : Device) (comp : Nat) : Bool :=
  vget d.sec.record.trial comp false || vget d.sec.switchDue comp false || (comp = 1 && d.sec.sealSwitchAt.isSome)

/-- `fw.stage.begin`. -/
def cmdStageBegin : Cmd :=
  { id := 0x0D42, form := fwForm 4, sealed := fwSealed
    state := fun d p => refuse (d.stagingBarred (compOf p) || d.staging (compOf p) == .erasing || d.staging (compOf p) == .verifying) sBadState
    run := fun _ p d =>
      let c := compOf p
      ((d.modBoot (fun r => r.setVersion c (d.inactiveSlot c) 0)).setStaging c .erasing none, .pend (.erase (compName c))) }

/-- FW_STAGE_BEGIN (R389). -/
def execFwStageBegin (dt : Nat) (o : Origin) (s : State) : Host.Outcome State Fault Refusal := wcpRow dt o cmdStageBegin noOpen s

/-- The inactive slot is erased: every byte reads 0xFF. -/
def Device.eraseDone (d : Device) (c : Component) : Device :=
  let k := compNo c
  if d.staging k != .erasing then d
  else
    let d := d.modSec (fun s => { s with flash := Mem.clear s.flash (slotOff k (d.inactiveSlot k)) (slotSize k) })
    (d.setStaging k .writing none).complete (.erase c) sOk Bytes.nil

/-- FW_ERASE_DONE (R389). -/
def execFwEraseDone (dt : Nat) (c : Component) (s : State) : Host.Outcome State Fault Refusal := fwRow dt (fun d => d.eraseDone c) s

/-- `fw.stage.write`: offset into the slot and up to 4,000 bytes. -/
def cmdStageWrite : Cmd :=
  { id := 0x0D43
    form := fun p => 8 ≤ p.len && (p.word 0 == 1 || p.word 0 == 2)
    sealed := fwSealed
    state := fun d p => refuse (d.stagingBarred (compOf p) || !(d.staging (compOf p) == .writing || d.staging (compOf p) == .verified)) sBadState
    content := fun _ p => refuse (4008 < p.len || slotSize (compOf p) < p.word 1 + (p.len - 8)) sBadParam
    run := fun _ p d =>
      let c := compOf p
      let slot := d.inactiveSlot c
      let d := d.modBoot (fun r => r.setVersion c slot 0)
      let d := d.modSec (fun s => { s with
        flash := Mem.writeN flashDefault s.flash (slotOff c slot + p.word 1) (p.len - 8) (p.drop 8).val })
      (d.setStaging c .writing none, .no sOk) }

/-- FW_STAGE_WRITE (R389). -/
def execFwStageWrite (dt : Nat) (o : Origin) (s : State) : Host.Outcome State Fault Refusal := wcpRow dt o cmdStageWrite noOpen s

/-- `fw.stage.verify`. -/
def cmdStageVerify : Cmd :=
  { id := 0x0D44, form := fwForm 4, sealed := fwSealed
    state := fun d p => refuse (d.stagingBarred (compOf p) || !(d.staging (compOf p) == .writing || d.staging (compOf p) == .verified)) sBadState
    run := fun _ p d => (d.setStaging (compOf p) .verifying none, .pend (.verify (compName (compOf p)))) }

/-- FW_STAGE_VERIFY (R389). -/
def execFwStageVerify (dt : Nat) (o : Origin) (s : State) : Host.Outcome State Fault Refusal := wcpRow dt o cmdStageVerify noOpen s

/-- The image staged, where it verifies; a sealed one must accept the format of the live sealed parameters, that of the component that
runs them (DEDUCED, log entry 95). -/
def Device.stagedImage (d : Device) (comp : Nat) : Option Image :=
  match d.image comp (d.inactiveSlot comp) with
  | none => none
  | some i => if comp = 1 && (d.runs 1).any (fun x => x.paramFmt != i.paramFmt) then none else some i

/-- Verification ends: the body is in the inactive bank and the state VERIFIED, or a check has failed. -/
def Device.verifyDone (d : Device) (c : Component) : Device :=
  let k := compNo c
  if d.staging k != .verifying then d
  else
  let d := d.lcUsed
  match d.stagedImage k with
    | none => (d.setStaging k .writing none).complete (.verify c) sBadParam Bytes.nil
    | some i =>
      let d := d.modSec (fun s => if k = 0 then { s with genBank := vset s.genBank i.slot (some i) }
        else { s with sealBank := vset s.sealBank i.slot (some i) })
      let d := (d.modBoot (fun r => r.setVersion k i.slot i.version.toNat)).setStaging k .verified (some i)
      (d.fwEvent k 0 i.version.toNat i.slot).complete (.verify c) sOk (w32 i.version.toNat)

/-- FW_VERIFY_DONE (R389). -/
def execFwVerifyDone (dt : Nat) (c : Component) (s : State) : Host.Outcome State Fault Refusal := fwRow dt (fun d => d.verifyDone c) s

/-- A switch of a component is pending or in progress. -/
def Device.switching (d : Device) (comp : Nat) : Bool :=
  vget d.sec.switchDue comp false || (if comp = 0 then d.sec.switchAt.isSome else d.sec.sealSwitchAt.isSome)

/-- `fw.switch` (R390). -/
def cmdFwSwitch : Cmd :=
  { id := 0x0D45, form := fwForm 4, sealed := fwSealed
    busy := fun d p => d.switching (compOf p)
    state := fun d p => refuse (d.staging (compOf p) != .verified) sBadState
    run := fun _ p d =>
      (d.modSec (fun s => { s with switchDue := vset s.switchDue (compOf p) true }), .pend (.switch (compName (compOf p)))) }

/-- FW_SWITCH (R390). -/
def execFwSwitch (dt : Nat) (o : Origin) (s : State) : Host.Outcome State Fault Refusal := wcpRow dt o cmdFwSwitch noOpen s

/-- `fw.confirm` (R394). -/
def cmdFwConfirm : Cmd :=
  { id := 0x0D46, form := fwForm 4, sealed := fwSealed
    state := fun d p => refuse (!vget d.sec.record.trial (compOf p) false) sBadState
    run := fun _ p d =>
      let c := compOf p
      let i := d.runs c
      let d := d.modBoot (fun r => { r with trial := vset r.trial c false })
      let d := d.modSec (fun s => { s with minSec := vmod s.minSec c (fun m => max m ((i.map (fun x => x.secVer)).getD 0)) })
      (d.fwEvent c 2 ((i.map (fun x => x.version.toNat)).getD 0) (d.activeSlot c), .no sOk) }

/-- FW_CONFIRM (R394). -/
def execFwConfirm (dt : Nat) (o : Origin) (s : State) : Host.Outcome State Fault Refusal := wcpRow dt o cmdFwConfirm noOpen s

/-- The code of a staging state: 0 idle, 1 erasing, 2 WRITING, 3 verifying, 4 VERIFIED. -/
def Staging.code : Staging → Nat
  | .idle => 0
  | .erasing => 1
  | .writing => 2
  | .verifying => 3
  | .verified => 4

/-- `fw.status.get`: per component active and previous slot, VERSION and SEC_VER of both slots, TRIAL, staging. -/
def cmdFwStatus : Cmd := .query 0x0D01 (exactly 0) (fun _ _ => none) (fun d _ =>
  let r := d.sec.record
  let sv := fun (c k : Nat) => if r.version c k = 0 then 0 else ihSec (d.sec.imgHeader c k)
  Bytes.cat ([0, 1].map (fun c => words [d.activeSlot c, vget r.prev c 0, r.version c 0, sv c 0, r.version c 1, sv c 1,
    (vget r.trial c false).toNat, (d.staging c).code])))

/-- FW_STATUS_GET (R395). -/
def execFwStatusGet (dt : Nat) (o : Origin) (s : State) : Host.Outcome State Fault Refusal := wcpRow dt o cmdFwStatus noOpen s

/-! The general switchover (R391, R392). -/

/-- A pending general switchover may start: the firing of the running frame has ended, or the firing controller is not ON. -/
def Device.generalDue (d : Device) : Bool :=
  vget d.sec.switchDue 0 false && (d.fire.fn.st != .on || (d.fire.phase != .running && d.fire.grp.isNone))

/-- SWITCH set: no frame starts, passes and a calibration end, the gap runs nothing more. -/
def Device.switchStart (d : Device) : Device :=
  if !d.generalDue || d.sec.switchAt.isSome || d.sec.sealSwitchAt.isSome then d
  else
    let d := (d.sliceLoss 5).modSec (fun s => { s with switchAt := some d.now, switchDue := vset s.switchDue 0 false })
    let d := ((d.modRx (fun r => { r with survey := none })).modCal (fun c => { c with passRun := none })).modBist (fun b => { b with gap := none })
    d.calAbort

/-- SWITCHOVER_START (R391). -/
def execSwitchoverStart (dt : Nat) (s : State) : Host.Outcome State Fault Refusal := fwRow dt Device.switchStart s

/-- The new image takes over in its slot, on trial. -/
def BootRec.switched (r : BootRec) (comp slot : Nat) : BootRec :=
  { r with active := vset r.active comp slot, prev := vset r.prev comp (1 - slot), trial := vset r.trial comp true }

/-- Triggers that waited for SWITCH: a pending frame, or one held, starts 2 us after it clears (R392). -/
def Device.afterSwitch (d : Device) : Device :=
  if d.fire.phase == .pending then d.modFire (fun f => { f with trig := ⟨d.now, false⟩ })
  else if d.fire.held.isSome && !d.occupied then (d.modFire (fun f => { f with held := some ⟨d.now, false⟩ })).promote
  else d

/-- The new firmware runs, clears SWITCH and completes the switch. -/
def Device.switchDone (d : Device) : Device :=
  match d.sec.switchAt, vget d.sec.staged 0 none with
  | some t, some i =>
    if t + 8 * ms < d.now then d
    else
      let d := d.modSec (fun s => { s with general := some i, switchAt := none })
      let d := (d.modBoot (fun r => r.switched 0 i.slot)).setStaging 0 .idle none
      ((d.fwEvent 0 1 i.version.toNat i.slot).complete (.switch .general) sOk (w32 i.version.toNat)).afterSwitch
  | _, _ => d

/-- SWITCHOVER_DONE (R391). -/
def execSwitchoverDone (dt : Nat) (s : State) : Host.Outcome State Fault Refusal := fwRow dt Device.switchDone s

/-- SWITCHOVER_TIMEOUT (R391): 8 ms without the new firmware reset the device. -/
def execSwitchoverTimeout (dt : Nat) (s : State) : Host.Outcome State Fault Refusal :=
  resetRow dt (fun d => match d.sec.switchAt with
    | some t => if d.alive && t + 8 * ms ≤ d.now then some (d.reboot .switchFail) else none
    | none => none) s

/-! The sealed switchover (R388, R393). -/

/-- The sealed core stops evaluating; a general switchover due at the same time runs first (R390), and so does a sealed command that still
runs (R388). -/
def Device.sealStart (d : Device) : Device :=
  if !vget d.sec.switchDue 1 false || d.sec.sealSwitchAt.isSome || d.sec.switchAt.isSome || d.generalDue || d.sealedRunning then d
  else (d.modSec (fun s => { s with
    sealSwitchAt := some d.now, switchDue := vset s.switchDue 1 false, sealedLast := s.sealed, sealed := none })).calAbort

/-- SEALED_SWITCHOVER (R393). -/
def execSealedSwitchover (dt : Nat) (s : State) : Host.Outcome State Fault Refusal := coreRow dt Device.sealStart s

/-- The sealed-change commands. -/
def sealedCmds : List Cmd :=
  [cmdBudgetSet, cmdLensSet, cmdZoneMapSet, cmdBlockWrite, cmdBlockCommit, cmdRulesSet, cmdBistConfig, cmdKeyWrite, cmdStageBegin,
    cmdStageWrite, cmdStageVerify, cmdFwSwitch, cmdFwConfirm, cmdSealResvSet, cmdSealResvClear]

/-- A command that waited is executed now: it completes with its answer, or goes on waiting for its own end. -/
def Device.runDeferred (d : Device) (x : Deferred) : Device :=
  match sealedCmds.find? (fun c => c.id == x.cmdId),
    d.wcp.waits.find? (fun w => w.kind == .deferred && w.session.val == x.session && w.counter == x.counter) with
  | some c, some w =>
    let ctx : Ctx := { session := x.session, slot := (d.session x.session).slot, counter := x.counter.toNat, path := .spi, auth := true }
    let r := c.execute ctx x.payload d.lcUsed
    match r.2 with
    | .done st res => Device.closeWritten d (({ r.1 with wcp := { r.1.wcp with waits := r.1.wcp.waits.erase w } } : Device).finish w st res)
    | .pend k => { r.1 with wcp := { r.1.wcp with waits := r.1.wcp.waits.map (fun y => if y = w then { y with kind := k } else y) } }
  | _, _ => d

/-- The commands that waited, in their order, until one of them occupies the sealed domain (R388). -/
def Device.runAllDeferred (d : Device) : List Deferred → Device
  | [] => d
  | x :: t =>
    if d.sealedSwitching || d.sealedRunning then d.modSec (fun s => { s with deferred := x :: t })
    else (d.runDeferred x).runAllDeferred t

/-- The sealed domain is free again: what waited is executed. -/
def Device.sealedEnds (d : Device) : Device :=
  if d.sec.deferred.isEmpty then d else (d.modSec (fun s => { s with deferred := [] })).runAllDeferred d.sec.deferred

/-- ASPECT_EVALUATION (R303): after it the sealed core executes the sealed commands that waited for another one (R388; the instant is the
model's choice, log entry 181). -/
def execAspectEvaluation (dt : Nat) (s : State) : Host.Outcome State Fault Refusal := coreRow dt (fun d => d.evaluate.sealedEnds) s

/-- First 128 bits of an image's digest; 0 for none. -/
def imageDigest (i : Option Image) : Nat := (i.map (fun x => x.digest.toNat % 2 ^ 128)).getD 0

/-- Slot and copy of the session whose switch waits. -/
def Device.switchBy (d : Device) : Nat × Nat :=
  let slot := ((d.wcp.waits.find? (fun w => w.kind == .switch .sealed)).map (fun w => (d.session w.session.val).slot)).getD 0
  (slot, ((d.keyCopy slot).map (fun k => k.1)).getD 0)

/-- The new sealed component signals that it runs: counted, recorded, the switch completes. -/
def Device.sealRunning (d : Device) : Device :=
  match d.sec.sealSwitchAt, vget d.sec.staged 1 none with
  | some t, some i =>
    if t + 2 * ms < d.now then d
    else
      let by_ := d.switchBy
      let old := imageDigest d.sec.sealedLast
      let d := d.modSec (fun s => { s with sealed := some i, sealSwitchAt := none })
      let d := (d.modBoot (fun r => r.switched 1 i.slot)).setStaging 1 .idle none
      let d := d.sealRecord ⟨8, 0x0D45, by_.1, by_.2, .ofNat 128 old, .ofNat 256 (imageDigest (some i)), false⟩
      ((d.fwEvent 1 1 i.version.toNat i.slot).complete (.switch .sealed) sOk (w32 i.version.toNat)).sealedEnds
  | _, _ => d

/-- SEALED_COMPONENT_RUNNING (R393). -/
def execSealedComponentRunning (dt : Nat) (s : State) : Host.Outcome State Fault Refusal := coreRow dt Device.sealRunning s

/-- 2 ms without it: the previous bank runs again; the switchover and the failed start are both counted (R385, R393). The switch
completes S_HW_FAULT (DESIGN CHOICE, log entry 96). -/
def Device.sealFailed (d : Device) : Device :=
  match d.sec.sealSwitchAt with
  | none => d
  | some t =>
    if d.now < t + 2 * ms then d
    else
      let by_ := d.switchBy
      let new := vget d.sec.staged 1 none
      let old := d.sec.sealedLast
      let d := (d.modSec (fun s => { s with sealed := s.sealedLast, sealSwitchAt := none })).setStaging 1 .idle none
      let d := d.sealRecord ⟨8, 0x0D45, by_.1, by_.2, .ofNat 128 (imageDigest old), .ofNat 256 (imageDigest new), false⟩
      let d := d.sealRecord ⟨8, 0x0D45, by_.1, by_.2, .ofNat 128 (imageDigest new), .ofNat 256 (imageDigest old), false⟩
      let d := d.fwEvent 1 4 ((new.map (fun i => i.version.toNat)).getD 0) ((new.map (fun i => i.slot)).getD 0)
      (d.complete (.switch .sealed) sHwFault Bytes.nil).sealedEnds

/-- SEALED_START_TIMEOUT (R393). -/
def execSealedStartTimeout (dt : Nat) (s : State) : Host.Outcome State Fault Refusal := coreRow dt Device.sealFailed s

end Sys2Proof.Machine
end

