-- ==== Sys2Proof/Machine/Boot.lean ====
section
/-! DEFINITION. The boot of the C-die (R366, R375, R376, R381, R382, R386, R415, R416). -/

namespace Sys2Proof.Machine

open Sys2Proof

/-! Steps 1 and 2: fuses, boot record, counters. -/

/-- A transition whose F1 alone is programmed is completed, with its remaining effects (R375). -/
def Device.completeFuses (d : Device) : Device :=
  [lcProvisioned, lcField, lcReturn, lcScrapped].foldl (fun d t =>
    let f := vget d.sec.fuses (t - 2) (false, false)
    if f.1 && !f.2 then (d.modSec (fun s => s.advance t)).lcEffects t 0 0 else d) d

/-- Fuses read and the working copy of the life-cycle state set; a failed redundancy check stands until the next reset. -/
def Device.bootFuses (d : Device) (fusesOk : Bool) : Device :=
  let d := d.completeFuses
  d.modSec (fun s => { s with fuseFail := !fusesOk, lc := Pair.of (.ofNat 32 s.fuseState) })

/-- The scan of the log before READY (R415): invalid records counted, the next SEQ set, a failed RECORD_SEQ reported. -/
def Device.bootScan (d : Device) : Device :=
  let all := d.log.recs ++ d.log.ff
  let top := (all.filter recValid).foldl (fun m r => max m (recSeq r + 1)) 0
  let d := d.counterRead cRecSeq
  (d.modLog (fun l => { l with nextSeq := max top (d.counter cRecSeq) })).count cTorn (all.filter (fun r => !recValid r)).length

/-- Counters raised for the shutdown before this boot (Table 14-10), where it found the core side unable to. -/
def Device.bootCounters (d : Device) : Device :=
  let c := d.power.cause
  let d := d.count cLost d.power.lostAtShutdown
  (if d.power.counted then d else d.countShutdown c).modPower (fun p => { p with counted := true })

/-! Steps 3 to 5: images (R382). -/

/-- What the boot of a component finds: the image that starts, if any, its boot record, and the E_FW events due (kind, version, slot). -/
structure BootPick where
  image : Option Image
  rec_ : BootRec
  events : List (Nat × Nat × Nat)
  /-- A component on trial has been given up. -/
  rolled : Bool
deriving DecidableEq, Repr

/-- An image of a slot that verifies and starts. -/
def Device.starts (d : Device) (comp slot : Nat) (ok : Bool × Bool) : Option Image :=
  if (if slot = 0 then ok.1 else ok.2) then d.image comp slot else none

/-- A component is booted from the slot the record names, or the one before while TRIAL is set, and else from the other; with no record
from slot A, then B (R381, R382). -/
def Device.bootPick (d : Device) (comp : Nat) (ok : Bool × Bool) : BootPick :=
  let known := d.sec.bootRec.isSome
  let r := d.sec.record
  let trial := known && vget r.trial comp false
  let first := if !known then 0 else if trial then vget r.prev comp 0 else vget r.active comp 0
  let verified := fun (r : BootRec) (slot : Nat) => match d.image comp slot with
    | some i => r.setVersion comp slot i.version.toNat
    | none => r
  let was := r.version comp first
  let r := { r with trial := vset r.trial comp false }
  let fail := (5, was, first)
  let x : Option Image × BootRec × List (Nat × Nat × Nat) := match d.starts comp first ok with
    | some i => (some i, verified r first, if trial then [(3, i.version.toNat, first)] else [])
    | none => (d.starts comp (1 - first) ok, verified (verified r first) (1 - first), [fail])
  let rec_ := match x.1 with
    | none => x.2.1
    | some i => if known && i.slot = vget r.active comp 0 then x.2.1
      else { x.2.1 with active := vset x.2.1.active comp i.slot, prev := vset x.2.1.prev comp (1 - i.slot) }
  { image := x.1, rec_, events := x.2.2, rolled := trial }

/-- A component's image loaded into its bank and its boot record written. -/
def Device.bootImage (d : Device) (comp : Nat) (p : BootPick) : Device :=
  let d := if some p.rec_ = d.sec.bootRec then d else d.modSec (fun s => s.putBoot p.rec_)
  match p.image with
  | none => d
  | some i => d.modSec (fun s =>
      if comp = 0 then { s with genBank := vset s.genBank i.slot (some i), general := some i }
      else { s with sealBank := vset s.sealBank i.slot (some i), sealed := some i })

/-! Step 6: the sealed core. -/

/-- The sealed parameters checked at the start of the sealed core (Table 12-1): classes 1, 2, 7, 11 and 15. Class 10 is checked by the
field die, class 16 with the pass that begins. -/
def Device.sealedCheck (d : Device) : Device :=
  let d := d.checkPair d.fire.budget.ok 1 0 0
  let d := d.checkPair d.rx.lens.ok 2 0 0
  let d := (List.range 16).foldl (fun d n => d.checkPair (vget d.ret.zmaps n (.of 0)).ok 7 n 0) d
  let d := d.checkPair d.core.rules.ok 11 0 0
  (List.range 32).foldl (fun d n => d.checkPair (vget d.sec.resv n (.of 0)).ok 15 n 0) d

/-- The sealed core starts; a rollback is counted (R385), and values committed without their record are recorded (R386), the field
block's at the first contact. -/
def Device.sealedStart (d : Device) (p : BootPick) (before : Option Image) : Device :=
  if d.sec.sealed.isNone then d
  else
    let d := d.sealedCheck
    let d := if p.rolled then d.sealRecord ⟨8, 0, 0, 0, .ofNat 128 (imageDigest before), .ofNat 256 (imageDigest p.image), false⟩ else d
    [1, 2, 3, 5, 6, 7].foldl (fun d n => d.recoverParam n) d

/-! Step 7: the general firmware. -/

/-- The calibration set, its shadow and the tracked delays (R199, R203, R204). -/
def Device.bootCal (d : Device) : Device :=
  let u := d.calNow
  d.modCal (fun c => { c with shadow := (d.calStored).2, src := u.1, inForce := u.2, emitDelay := delaysOf u.2 })

/-- Marks accepted for clearing are cleared; a converter slice comes back (R370, R326). -/
def Device.bootUnmark (d : Device) (u : Nat × Nat) : Device :=
  if !d.unusable u.1 u.2 then d
  else
    let d := { d with bist := d.bist.unmark u.1 u.2 }
    if u.1 != 8 then d
    else
      let c := u.2 / 2
      let b : Bool := u.2 % 2 == 1
      let d := { d with field := { d.field with convs := vmod d.field.convs c (fun x =>
        if b then { x with usableB := true, driftB := 0 } else { x with usableA := true, driftA := 0 }) } }
      d.raise 0x0B05 c (3 * 2 ^ 254 + b.toNat * 2 ^ 253)

/-- Marks of a class in a range of indices. -/
def Bist.marked (b : Bist) (cls lo hi : Nat) : Nat :=
  (b.marks.filter (fun m => m.cls == cls && decide (lo ≤ m.idx) && decide (m.idx ≤ hi))).length

/-- The marked units of a class among `n` from an index on, counted from there. -/
def Bist.markedIn (b : Bist) (cls lo n : Nat) : List Nat :=
  (b.marks.filter (fun m => m.cls == cls && decide (lo ≤ m.idx) && decide (m.idx < lo + n))).foldl (fun l m => insertNat (m.idx - lo) l) []

/-- The marks the map gives at a boot: its backup where it fails its check or lies in a block it marks, else none (R366). -/
def Bist.mapMarks (b : Bist) : List Mark :=
  let m := b.map.v.map markOf
  let lost := m.any (fun x => x.cls == 6 && x.idx == Config.mapBlock.toNat) && b.mapBackup.ok
  if b.map.ok && !lost then m else if b.mapBackup.ok then b.mapBackup.v.map markOf else []

/-- The unusable map applied (R366); what it withdraws from the SRAM and RAM (R367,
R368, by the layout of log entry 82), and the channels it retires. -/
def Device.bootMap (d : Device) : Device :=
  let b := d.bist
  let d := d.checkPair b.map.ok 17 0 (if b.mapBackup.ok then 1 else 0)
  let d := d.modBist (fun b => { b with marks := b.mapMarks })
  let d := d.bist.clearAtBoot.foldl (fun d u => d.bootUnmark u) d
  let m := d.bist
  let d := d.modBist (fun b => { b with
    clearAtBoot := [], spareFw := 16 - m.marked 7 3072 3967, spareSealed := 8 - m.marked 7 3968 4095
    spareField := 4 - m.marked 9 0 63 })
  let d := { d with qs := { d.qs with lostCells := m.markedIn 7 0 2048, lostDescs := m.markedIn 7 2048 1024 } }
  d.modRx (fun r => m.marks.foldl (fun r u => if u.cls = 0 && u.idx < 1024 then r.retire u.idx true else r) r)

/-- Ports with AUTOSTART start (R216), the second only at the rate of the first. -/
def Device.autostart (d : Device) (p : Nat) : Device :=
  let cfg := (d.port p).cfg
  if bit cfg 4 && !d.rateClash p (bit cfg 0) then (d.enableFn (portFn p) true (fun d => d.portStart p)).1 else d

/-- The general firmware initialises. -/
def Device.bootGeneral (d : Device) : Device :=
  let d := d.bootCal.bootMap
  let d := d.checkPair d.fire.latch.ok 20 0 0
  let d := (d.autostart 0).autostart 1
  let d := d.passBegin
  d.modLog (fun l => { l with onTimeAt := d.now })

/-- The BOOT record (Table 14-9). -/
def Device.bootRecord (d : Device) : Device :=
  let v := fun (i : Option Image) => (i.map (fun x => x.version.toNat)).getD 0
  d.record 0x0001 0 sevInfo (Bytes.cat [w32 (causeCode d.power.cause), w64 d.power.causeTick,
    words [d.power.lostAtShutdown, v d.sec.general, v d.sec.sealed, d.lc]])

/-- The SHUTDOWN record with LATE set, after a cause that goes through R400. -/
def Device.shutdownRecord (d : Device) : Device :=
  let p := d.power
  if !causeShuts p.cause then d
  else
    let hot := (p.thermAt.filter (fun t => decide (d.now < t + 600 * second))).length
    d.queueRec { kind := 0x0002, source := 0, severity := sevFault, time := 0, tick := p.causeTick, late := true
                 payload := Bytes.cat [w32 (causeCode p.cause), wInt p.tripC, wInt p.tripP, words [p.lowestVbat, hot]] }

/-- E_LOG at a boot when LOST_RECORDS, TORN or FF_FULL has grown (R419). -/
def Device.bootLog (d : Device) : Device :=
  let d := d.reportRead
  let x := (d.counter cLost, d.counter cTorn, d.counter cFfFull)
  if x = d.log.logSeen then d
  else (d.modLog (fun l => { l with logSeen := x, logAt := d.now })).raise 0x0F01 0 (fields [(224, x.1), (192, x.2.1), (160, x.2.2)])

/-- The events of a component's boot; those the general firmware raises stay out in recovery. -/
def Device.bootEvents (d : Device) (comp : Nat) (p : BootPick) : Device :=
  p.events.foldl (fun d e => if e.1 = 3 && d.sec.general.isNone then d else d.fwEvent comp e.1 e.2.1 e.2.2) d

/-- After READY: events, records, and what the always-on domain has told is cleared. -/
def Device.bootReport (d : Device) (g s : BootPick) : Device :=
  let d := (d.bootEvents 0 g).bootEvents 1 s
  let d := if d.sec.general.isNone then d.fwEvent 0 6 0 0 else d.bootRecord.shutdownRecord
  d.bootLog.modPower (fun p => { p with lostAtShutdown := 0, lowestVbat := p.vbat })

/-- The boot (Table 13-6); no firmware runs in SCRAPPED, and READY stays clear (Table 13-2). -/
def Device.boot (d : Device) (env : BootEnv) : Device :=
  let d := (d.bootFuses env.fusesOk).count cBoot 1
  let d := (d.modPower (fun p => { p with core := .run })).bootScan.bootCounters
  if d.lc = lcScrapped then d
  else
    let g := d.bootPick 0 env.generalStarts
    let d := d.bootImage 0 g
    let s := d.bootPick 1 env.sealedStarts
    let before := d.image 1 (vget d.sec.record.active 1 0)
    let d := (d.bootImage 1 s).sealedStart s before
    let d := if d.sec.general.isSome then d.bootGeneral else d
    ({ d with ready := true } : Device).bootReport g s

/-- BOOT (R381). -/
def execBoot (dt : Nat) (env : BootEnv) (s : State) : Host.Outcome State Fault Refusal :=
  devRow dt (fun d => if d.power.core = .boot && !d.ready then d.boot env else d) s

end Sys2Proof.Machine
end

