-- ==== Sys2Proof/Machine/Restart.lean ====
section
/-! DEFINITION. Starts that waited for a function's minimum off time (R21). -/

namespace Sys2Proof.Machine

open Sys2Proof

/-- A start withdrawn: its waiting enables complete with the status their check answers. -/
def Device.withdrawStart (d : Device) (f : FnId) : Device :=
  (d.modFn f (fun x => { x with restart := false })).complete (.fnOn f) (match f with
    | .port _ => sBadParam
    | .queue _ => sNoResource
    | _ => sBadState) Bytes.nil

/-- The start of a function, in STARTING. -/
def Device.startOf (d : Device) : FnId → Device
  | .fire => d.fireStart
  | .hexport => d.exportStart
  | .port p => d.portStart (portNo p)
  | .queue n => d.queueStart n.val
  | .cam n => d.camStart n.val
  | .adc n => d.convStart n.val
  | .seq n => d.seqStart n.val
  | .exc => d.excStart
  | .output n => d.drive n.val false

/-- The start is barred by now: the conditions are those of the function's enable (DESIGN CHOICE, log entry 97); both ports run at one
rate (R213) and the RESERVE of the queues that are ON stays within 28,672 cells (R254). -/
def Device.startBarred (d : Device) : FnId → Bool
  | .fire => d.fireBarred || d.unusable 3 0 || d.rx.biasFault
  | .seq n => !d.field.seqReady n.val
  | .port p => d.rateClash (portNo p) (bit (d.port (portNo p)).cfg 0)
  | .queue n => decide (28672 < d.qs.reserved + (d.queue n.val).reserve)
  | _ => false

/-- A function of the field die. -/
def onField : FnId → Bool
  | .adc _ => true
  | .seq _ => true
  | .exc => true
  | .output _ => true
  | _ => false

/-- A start whose minimum off time has passed begins (R21). -/
def Device.restart (d : Device) (f : FnId) : Device :=
  if !(d.getFn f).restartDue d.now then d
  else match f with
    | .output n => d.drive n.val false
    | _ =>
      if d.startBarred f then d.withdrawStart f
      else (d.modFn f (fun x => { x with st := .starting, restart := false })).startOf f

/-- FUNCTION_RESTART (R21). -/
def execFunctionRestart (dt : Nat) (f : FnId) (s : State) : Host.Outcome State Fault Refusal :=
  if onField f then fieldRow dt (fun d => d.restart f) s else coreRow dt (fun d => d.restart f) s

end Sys2Proof.Machine
end

