-- ==== Sys2Proof/Machine/Dispatch.lean ====
section
/-! DEFINITION. The meaning of each command: one arm per constructor. -/

namespace Sys2Proof.Machine

/-- The effect of a command on everything but the queue. -/
def exec (i : Instr) (s : State) : Host.Outcome State Fault Refusal :=
  match i with
  | .hifDbWrite dt v => Sys2Proof.Machine.execHifDbWrite dt v s
  | .hifMbRelWrite dt v => Sys2Proof.Machine.execHifMbRelWrite dt v s
  | .hifEvtRdWrite dt v => Sys2Proof.Machine.execHifEvtRdWrite dt v s
  | .hifTimeLoRead dt op addr n => Sys2Proof.Machine.execHifTimeLoRead dt op addr n s
  | .hifEvtLostRead dt op addr n => Sys2Proof.Machine.execHifEvtLostRead dt op addr n s
  | .mbWindowWrite dt op addr ws => Sys2Proof.Machine.execMbWindowWrite dt op addr ws s
  | .registerWrite dt op addr ws => Sys2Proof.Machine.execRegisterWrite dt op addr ws s
  | .hostCsNRelease dt cut => Sys2Proof.Machine.execHostCsNRelease dt cut s
  | .badOp dt opcode => Sys2Proof.Machine.execBadOp dt opcode s
  | .responseRetry dt accepted => Sys2Proof.Machine.execResponseRetry dt accepted s
  | .sessionIdleTimeout dt n => Sys2Proof.Machine.execSessionIdleTimeout dt n s
  | .sessionOpenTimeout dt n => Sys2Proof.Machine.execSessionOpenTimeout dt n s
  | .sysIdentGet dt o => Sys2Proof.Machine.execSysIdentGet dt o s
  | .sysStatusGet dt o => Sys2Proof.Machine.execSysStatusGet dt o s
  | .sysSessionStatus dt o => Sys2Proof.Machine.execSysSessionStatus dt o s
  | .sysResultGet dt o => Sys2Proof.Machine.execSysResultGet dt o s
  | .sysSessionOpen dt o => Sys2Proof.Machine.execSysSessionOpen dt o s
  | .sysSessionClose dt o => Sys2Proof.Machine.execSysSessionClose dt o s
  | .sysPolicySet dt o => Sys2Proof.Machine.execSysPolicySet dt o s
  | .sysEventMaskSet dt o => Sys2Proof.Machine.execSysEventMaskSet dt o s
  | .sysReset dt o => Sys2Proof.Machine.execSysReset dt o s
  | .commandedResetTimer dt => Sys2Proof.Machine.execCommandedResetTimer dt s
  | .deviceReset dt cause => Sys2Proof.Machine.execDeviceReset dt cause s
  | .rstNAssert dt width => Sys2Proof.Machine.execRstNAssert dt width s
  | .rstNRelease dt => Sys2Proof.Machine.execRstNRelease dt s
  | .boot dt env => Sys2Proof.Machine.execBoot dt env s
  | .scanPlanGet dt o => Sys2Proof.Machine.execScanPlanGet dt o s
  | .fireStatusGet dt o => Sys2Proof.Machine.execFireStatusGet dt o s
  | .fireDoseGet dt o => Sys2Proof.Machine.execFireDoseGet dt o s
  | .scanCalendarGet dt o => Sys2Proof.Machine.execScanCalendarGet dt o s
  | .scanPlanWrite dt o => Sys2Proof.Machine.execScanPlanWrite dt o s
  | .scanPlanCommit dt o => Sys2Proof.Machine.execScanPlanCommit dt o s
  | .scanPlanSelect dt o => Sys2Proof.Machine.execScanPlanSelect dt o s
  | .fireEnable dt o => Sys2Proof.Machine.execFireEnable dt o s
  | .fireDisable dt o => Sys2Proof.Machine.execFireDisable dt o s
  | .scanTriggerSet dt o => Sys2Proof.Machine.execScanTriggerSet dt o s
  | .scanFrameTrigger dt o => Sys2Proof.Machine.execScanFrameTrigger dt o s
  | .fireDitherSet dt o => Sys2Proof.Machine.execFireDitherSet dt o s
  | .fireEmitterSet dt o => Sys2Proof.Machine.execFireEmitterSet dt o s
  | .fireBudgetSet dt o => Sys2Proof.Machine.execFireBudgetSet dt o s
  | .fireKillClear dt o => Sys2Proof.Machine.execFireKillClear dt o s
  | .fireStripeClear dt o => Sys2Proof.Machine.execFireStripeClear dt o s
  | .scanFollowSet dt o => Sys2Proof.Machine.execScanFollowSet dt o s
  | .scanCalendarSet dt o => Sys2Proof.Machine.execScanCalendarSet dt o s
  | .internalTrigger dt => Sys2Proof.Machine.execInternalTrigger dt s
  | .frameSyncAssert dt width => Sys2Proof.Machine.execFrameSyncAssert dt width s
  | .calendarInstant dt => Sys2Proof.Machine.execCalendarInstant dt s
  | .frameStart dt => Sys2Proof.Machine.execFrameStart dt s
  | .shotQueueEnqueue dt => Sys2Proof.Machine.execShotQueueEnqueue dt s
  | .groupStart dt off => Sys2Proof.Machine.execGroupStart dt off s
  | .shot dt w0 w1 w2 w3 => Sys2Proof.Machine.execShot dt w0 w1 w2 w3 s
  | .witnessStrayEvent dt w => Sys2Proof.Machine.execWitnessStrayEvent dt w s
  | .emitFaultNAssert dt width => Sys2Proof.Machine.execEmitFaultNAssert dt width s
  | .armLeadExpiry dt => Sys2Proof.Machine.execArmLeadExpiry dt s
  | .doseSubwindowBoundary dt => Sys2Proof.Machine.execDoseSubwindowBoundary dt s
  | .fireStopDone dt => Sys2Proof.Machine.execFireStopDone dt s
  | .functionRestart dt f => Sys2Proof.Machine.execFunctionRestart dt f s
  | .groupAccumulationEnd dt => Sys2Proof.Machine.execGroupAccumulationEnd dt s
  | .rxStatusGet dt o => Sys2Proof.Machine.execRxStatusGet dt o s
  | .rxLayoutGet dt o => Sys2Proof.Machine.execRxLayoutGet dt o s
  | .rxMaskGet dt o => Sys2Proof.Machine.execRxMaskGet dt o s
  | .rxSurveyGet dt o => Sys2Proof.Machine.execRxSurveyGet dt o s
  | .rxCoincGet dt o => Sys2Proof.Machine.execRxCoincGet dt o s
  | .rxLensGet dt o => Sys2Proof.Machine.execRxLensGet dt o s
  | .rxConfigSet dt o => Sys2Proof.Machine.execRxConfigSet dt o s
  | .rxLayoutSet dt o => Sys2Proof.Machine.execRxLayoutSet dt o s
  | .rxCoincSet dt o => Sys2Proof.Machine.execRxCoincSet dt o s
  | .rxMaskWrite dt o => Sys2Proof.Machine.execRxMaskWrite dt o s
  | .rxMaskCommit dt o => Sys2Proof.Machine.execRxMaskCommit dt o s
  | .rxWitnessSet dt o => Sys2Proof.Machine.execRxWitnessSet dt o s
  | .rxChannelRetire dt o => Sys2Proof.Machine.execRxChannelRetire dt o s
  | .rxChannelRestore dt o => Sys2Proof.Machine.execRxChannelRestore dt o s
  | .rxVbdSet dt o => Sys2Proof.Machine.execRxVbdSet dt o s
  | .rxVbdMeasure dt o => Sys2Proof.Machine.execRxVbdMeasure dt o s
  | .rxVbdMeasureDone dt counts => Sys2Proof.Machine.execRxVbdMeasureDone dt counts s
  | .rxLensSet dt o => Sys2Proof.Machine.execRxLensSet dt o s
  | .photonEvent dt ch t ages => Sys2Proof.Machine.execPhotonEvent dt ch t ages s
  | .biasFault dt off held => Sys2Proof.Machine.execBiasFault dt off held s
  | .biasFaultClear dt off held => Sys2Proof.Machine.execBiasFaultClear dt off held s
  | .holdoffAutoTimer dt => Sys2Proof.Machine.execHoldoffAutoTimer dt s
  | .surveyPassStart dt => Sys2Proof.Machine.execSurveyPassStart dt s
  | .surveyPassDone dt counts => Sys2Proof.Machine.execSurveyPassDone dt counts s
  | .linearisationUpdate dt tdc codes => Sys2Proof.Machine.execLinearisationUpdate dt tdc codes s
  | .witnessIntervalEnd dt w4 w5 w6 w7 => Sys2Proof.Machine.execWitnessIntervalEnd dt w4 w5 w6 w7 s
  | .eventWordAccumulate dt ch => Sys2Proof.Machine.execEventWordAccumulate dt ch s
  | .pairHandover dt => Sys2Proof.Machine.execPairHandover dt s
  | .retProcessingStart dt => Sys2Proof.Machine.execRetProcessingStart dt s
  | .retProcessingEnd dt => Sys2Proof.Machine.execRetProcessingEnd dt s
  | .exportChunkEnqueue dt => Sys2Proof.Machine.execExportChunkEnqueue dt s
  | .exportStopTimeout dt => Sys2Proof.Machine.execExportStopTimeout dt s
  | .planeHoldTimeout dt => Sys2Proof.Machine.execPlaneHoldTimeout dt s
  | .importChunkDequeue dt => Sys2Proof.Machine.execImportChunkDequeue dt s
  | .importSliceStart dt => Sys2Proof.Machine.execImportSliceStart dt s
  | .importUnitDone dt => Sys2Proof.Machine.execImportUnitDone dt s
  | .histStatusGet dt o => Sys2Proof.Machine.execHistStatusGet dt o s
  | .histPlanecfgGet dt o => Sys2Proof.Machine.execHistPlanecfgGet dt o s
  | .histGateGet dt o => Sys2Proof.Machine.execHistGateGet dt o s
  | .histPlaneRead dt o => Sys2Proof.Machine.execHistPlaneRead dt o s
  | .histTrackGet dt o => Sys2Proof.Machine.execHistTrackGet dt o s
  | .histPlanecfgSet dt o => Sys2Proof.Machine.execHistPlanecfgSet dt o s
  | .histGateSet dt o => Sys2Proof.Machine.execHistGateSet dt o s
  | .histExportSet dt o => Sys2Proof.Machine.execHistExportSet dt o s
  | .histExportEnable dt o => Sys2Proof.Machine.execHistExportEnable dt o s
  | .histExportDisable dt o => Sys2Proof.Machine.execHistExportDisable dt o s
  | .histPlaneHold dt o => Sys2Proof.Machine.execHistPlaneHold dt o s
  | .histPlaneRelease dt o => Sys2Proof.Machine.execHistPlaneRelease dt o s
  | .histPlaneSend dt o => Sys2Proof.Machine.execHistPlaneSend dt o s
  | .histImportSet dt o => Sys2Proof.Machine.execHistImportSet dt o s
  | .histTrackClear dt o => Sys2Proof.Machine.execHistTrackClear dt o s
  | .zoneBlindTimeout dt z => Sys2Proof.Machine.execZoneBlindTimeout dt z s
  | .windowLearnDone dt => Sys2Proof.Machine.execWindowLearnDone dt s
  | .retStatusGet dt o => Sys2Proof.Machine.execRetStatusGet dt o s
  | .retTemplateGet dt o => Sys2Proof.Machine.execRetTemplateGet dt o s
  | .zoneMapGet dt o => Sys2Proof.Machine.execZoneMapGet dt o s
  | .zoneStateGet dt o => Sys2Proof.Machine.execZoneStateGet dt o s
  | .retConfigGet dt o => Sys2Proof.Machine.execRetConfigGet dt o s
  | .retConfigSet dt o => Sys2Proof.Machine.execRetConfigSet dt o s
  | .retTemplateSet dt o => Sys2Proof.Machine.execRetTemplateSet dt o s
  | .retPointsSet dt o => Sys2Proof.Machine.execRetPointsSet dt o s
  | .retRawSet dt o => Sys2Proof.Machine.execRetRawSet dt o s
  | .retWindowLearn dt o => Sys2Proof.Machine.execRetWindowLearn dt o s
  | .zoneMapSet dt o => Sys2Proof.Machine.execZoneMapSet dt o s
  | .referencePassStart dt => Sys2Proof.Machine.execReferencePassStart dt s
  | .referencePassDone dt m => Sys2Proof.Machine.execReferencePassDone dt m s
  | .refStaleTimeout dt => Sys2Proof.Machine.execRefStaleTimeout dt s
  | .calFullDone dt => Sys2Proof.Machine.execCalFullDone dt s
  | .calStatusGet dt o => Sys2Proof.Machine.execCalStatusGet dt o s
  | .calCoeffGet dt o => Sys2Proof.Machine.execCalCoeffGet dt o s
  | .calResultGet dt o => Sys2Proof.Machine.execCalResultGet dt o s
  | .calCoeffWrite dt o => Sys2Proof.Machine.execCalCoeffWrite dt o s
  | .calCoeffCommit dt o => Sys2Proof.Machine.execCalCoeffCommit dt o s
  | .calFullStart dt o => Sys2Proof.Machine.execCalFullStart dt o s
  | .calFullAbort dt o => Sys2Proof.Machine.execCalFullAbort dt o s
  | .signalDetect dt p => Sys2Proof.Machine.execSignalDetect dt p s
  | .trainingComplete dt p => Sys2Proof.Machine.execTrainingComplete dt p s
  | .markerLock dt p flit => Sys2Proof.Machine.execMarkerLock dt p flit s
  | .linkDelayAveraged dt p => Sys2Proof.Machine.execLinkDelayAveraged dt p s
  | .timeServoUpdate dt => Sys2Proof.Machine.execTimeServoUpdate dt s
  | .superframe dt p => Sys2Proof.Machine.execSuperframe dt p s
  | .marker dt p flit => Sys2Proof.Machine.execMarker dt p flit s
  | .timeFlit dt p flit => Sys2Proof.Machine.execTimeFlit dt p flit s
  | .creditFlit dt p flit => Sys2Proof.Machine.execCreditFlit dt p flit s
  | .joinReq dt p flit => Sys2Proof.Machine.execJoinReq dt p flit s
  | .joinAck dt p flit => Sys2Proof.Machine.execJoinAck dt p flit s
  | .leave dt p flit => Sys2Proof.Machine.execLeave dt p flit s
  | .breakMsg dt p flit => Sys2Proof.Machine.execBreakMsg dt p flit s
  | .heal dt p flit => Sys2Proof.Machine.execHeal dt p flit s
  | .members dt p flit => Sys2Proof.Machine.execMembers dt p flit s
  | .calendar dt p flit => Sys2Proof.Machine.execCalendar dt p flit s
  | .resvReq dt p flit => Sys2Proof.Machine.execResvReq dt p flit s
  | .resvAns dt p flit => Sys2Proof.Machine.execResvAns dt p flit s
  | .allowance dt p flit => Sys2Proof.Machine.execAllowance dt p flit s
  | .elect dt p flit => Sys2Proof.Machine.execElect dt p flit s
  | .ringFrameReceive dt p hdr payload uncorrectable => Sys2Proof.Machine.execRingFrameReceive dt p hdr payload uncorrectable s
  | .linkFailure dt p cause => Sys2Proof.Machine.execLinkFailure dt p cause s
  | .startingRetryTimer dt p => Sys2Proof.Machine.execStartingRetryTimer dt p s
  | .degradeWindow dt p errors symbols bad => Sys2Proof.Machine.execDegradeWindow dt p errors symbols bad s
  | .headLossTimeout dt => Sys2Proof.Machine.execHeadLossTimeout dt s
  | .electTimeout dt => Sys2Proof.Machine.execElectTimeout dt s
  | .noHeadReport dt => Sys2Proof.Machine.execNoHeadReport dt s
  | .joinRetryTimer dt => Sys2Proof.Machine.execJoinRetryTimer dt s
  | .nodeHoldExpiry dt node => Sys2Proof.Machine.execNodeHoldExpiry dt node s
  | .membersRepeat dt => Sys2Proof.Machine.execMembersRepeat dt s
  | .calendarRepeat dt => Sys2Proof.Machine.execCalendarRepeat dt s
  | .timeHoldoverTimeout dt => Sys2Proof.Machine.execTimeHoldoverTimeout dt s
  | .ringPortStopDone dt p => Sys2Proof.Machine.execRingPortStopDone dt p s
  | .ringStatusGet dt o => Sys2Proof.Machine.execRingStatusGet dt o s
  | .ringPortGet dt o => Sys2Proof.Machine.execRingPortGet dt o s
  | .ringMembersGet dt o => Sys2Proof.Machine.execRingMembersGet dt o s
  | .ringResvGet dt o => Sys2Proof.Machine.execRingResvGet dt o s
  | .ringPortSet dt o => Sys2Proof.Machine.execRingPortSet dt o s
  | .ringPortEnable dt o => Sys2Proof.Machine.execRingPortEnable dt o s
  | .ringPortDisable dt o => Sys2Proof.Machine.execRingPortDisable dt o s
  | .ringConfigSet dt o => Sys2Proof.Machine.execRingConfigSet dt o s
  | .ringResvSet dt o => Sys2Proof.Machine.execRingResvSet dt o s
  | .ringResvClear dt o => Sys2Proof.Machine.execRingResvClear dt o s
  | .ringRouteRebalance dt o => Sys2Proof.Machine.execRingRouteRebalance dt o s
  | .cellRequest dt q flags recsize records info unit => Sys2Proof.Machine.execCellRequest dt q flags recsize records info unit s
  | .inboundFrameAppend dt p => Sys2Proof.Machine.execInboundFrameAppend dt p s
  | .partialUnitTimeout dt q src => Sys2Proof.Machine.execPartialUnitTimeout dt q src s
  | .unitDelivered dt q sub => Sys2Proof.Machine.execUnitDelivered dt q sub s
  | .leaseExpiry dt q sub => Sys2Proof.Machine.execLeaseExpiry dt q sub s
  | .qStopTimeout dt q => Sys2Proof.Machine.execQStopTimeout dt q s
  | .creditTmoExpiry dt q node => Sys2Proof.Machine.execCreditTmoExpiry dt q node s
  | .q1Reset dt => Sys2Proof.Machine.execQ1Reset dt s
  | .q1Resync dt => Sys2Proof.Machine.execQ1Resync dt s
  | .creditResetSenderTimer dt q node => Sys2Proof.Machine.execCreditResetSenderTimer dt q node s
  | .creditResetReceiverTimer dt q node => Sys2Proof.Machine.execCreditResetReceiverTimer dt q node s
  | .eventUnitClose dt => Sys2Proof.Machine.execEventUnitClose dt s
  | .qStatusGet dt o => Sys2Proof.Machine.execQStatusGet dt o s
  | .qSubsGet dt o => Sys2Proof.Machine.execQSubsGet dt o s
  | .qPoolGet dt o => Sys2Proof.Machine.execQPoolGet dt o s
  | .camStatusGet dt o => Sys2Proof.Machine.execCamStatusGet dt o s
  | .qConfigSet dt o => Sys2Proof.Machine.execQConfigSet dt o s
  | .qEnable dt o => Sys2Proof.Machine.execQEnable dt o s
  | .qDisable dt o => Sys2Proof.Machine.execQDisable dt o s
  | .qSubscribe dt o => Sys2Proof.Machine.execQSubscribe dt o s
  | .qUnsubscribe dt o => Sys2Proof.Machine.execQUnsubscribe dt o s
  | .qRead dt o => Sys2Proof.Machine.execQRead dt o s
  | .streamEventsSet dt o => Sys2Proof.Machine.execStreamEventsSet dt o s
  | .streamMirrorSet dt o => Sys2Proof.Machine.execStreamMirrorSet dt o s
  | .camPortSet dt o => Sys2Proof.Machine.execCamPortSet dt o s
  | .camEnable dt o => Sys2Proof.Machine.execCamEnable dt o s
  | .camDisable dt o => Sys2Proof.Machine.execCamDisable dt o s
  | .camFsyncSet dt o => Sys2Proof.Machine.execCamFsyncSet dt o s
  | .csi2Packet dt port pkt => Sys2Proof.Machine.execCsi2Packet dt port pkt s
  | .camStartTimeout dt port => Sys2Proof.Machine.execCamStartTimeout dt port s
  | .camStopTimeout dt port running => Sys2Proof.Machine.execCamStopTimeout dt port running s
  | .camFsyncPulse dt out => Sys2Proof.Machine.execCamFsyncPulse dt out s
  | .bridgeCycle dt side => Sys2Proof.Machine.execBridgeCycle dt side s
  | .coreToFieldControlFrame dt frame => Sys2Proof.Machine.execCoreToFieldControlFrame dt frame s
  | .fieldToCoreControlFrame dt frame => Sys2Proof.Machine.execFieldToCoreControlFrame dt frame s
  | .bulkFrame dt at_ frame => Sys2Proof.Machine.execBulkFrame dt at_ frame s
  | .chan0RepeatTimeout dt side => Sys2Proof.Machine.execChan0RepeatTimeout dt side s
  | .fieldWatchdogExpiry dt => Sys2Proof.Machine.execFieldWatchdogExpiry dt s
  | .safeStateApply dt => Sys2Proof.Machine.execSafeStateApply dt s
  | .coreSilenceTimeout dt => Sys2Proof.Machine.execCoreSilenceTimeout dt s
  | .fieldTick dt tick => Sys2Proof.Machine.execFieldTick dt tick s
  | .aspectApply dt => Sys2Proof.Machine.execAspectApply dt s
  | .aspectEvaluation dt => Sys2Proof.Machine.execAspectEvaluation dt s
  | .supervisionSample dt k smp => Sys2Proof.Machine.execSupervisionSample dt k smp s
  | .diagSlot dt k diag => Sys2Proof.Machine.execDiagSlot dt k diag s
  | .litWhenDark dt k => Sys2Proof.Machine.execLitWhenDark dt k s
  | .currentLimitTimeout dt k => Sys2Proof.Machine.execCurrentLimitTimeout dt k s
  | .switchOvertemp dt k => Sys2Proof.Machine.execSwitchOvertemp dt k s
  | .switchCooled dt k => Sys2Proof.Machine.execSwitchCooled dt k s
  | .cleanMsExpiry dt k => Sys2Proof.Machine.execCleanMsExpiry dt k s
  | .sagBegin dt g mv => Sys2Proof.Machine.execSagBegin dt g mv s
  | .sagEnd dt g mv => Sys2Proof.Machine.execSagEnd dt g mv s
  | .uvOff dt g mv => Sys2Proof.Machine.execUvOff dt g mv s
  | .uvRecovery dt g mv => Sys2Proof.Machine.execUvRecovery dt g mv s
  | .softStartStep dt g => Sys2Proof.Machine.execSoftStartStep dt g s
  | .outputStopDone dt k => Sys2Proof.Machine.execOutputStopDone dt k s
  | .patternPhase dt k => Sys2Proof.Machine.execPatternPhase dt k s
  | .pwmPeriod dt k => Sys2Proof.Machine.execPwmPeriod dt k s
  | .fieldBlockCommitDone dt => Sys2Proof.Machine.execFieldBlockCommitDone dt s
  | .lampStatusGet dt o => Sys2Proof.Machine.execLampStatusGet dt o s
  | .lampBlockGet dt o => Sys2Proof.Machine.execLampBlockGet dt o s
  | .lampRulesGet dt o => Sys2Proof.Machine.execLampRulesGet dt o s
  | .bridgeStatusGet dt o => Sys2Proof.Machine.execBridgeStatusGet dt o s
  | .lampBlockWrite dt o => Sys2Proof.Machine.execLampBlockWrite dt o s
  | .lampBlockCommit dt o => Sys2Proof.Machine.execLampBlockCommit dt o s
  | .lampRulesSet dt o => Sys2Proof.Machine.execLampRulesSet dt o s
  | .lampRequestSet dt o => Sys2Proof.Machine.execLampRequestSet dt o s
  | .lampFaultClear dt o => Sys2Proof.Machine.execLampFaultClear dt o s
  | .lampRemapSet dt o => Sys2Proof.Machine.execLampRemapSet dt o s
  | .lampRemapClear dt o => Sys2Proof.Machine.execLampRemapClear dt o s
  | .inputSample dt k mv => Sys2Proof.Machine.execInputSample dt k mv s
  | .periodTimeout dt k => Sys2Proof.Machine.execPeriodTimeout dt k s
  | .periodUnitClose dt => Sys2Proof.Machine.execPeriodUnitClose dt s
  | .adcTimerTick dt t => Sys2Proof.Machine.execAdcTimerTick dt t s
  | .adcTrigAssert dt width => Sys2Proof.Machine.execAdcTrigAssert dt width s
  | .seqRunStart dt q => Sys2Proof.Machine.execSeqRunStart dt q s
  | .seqEntryStart dt q => Sys2Proof.Machine.execSeqEntryStart dt q s
  | .seqEntryDone dt q codes => Sys2Proof.Machine.execSeqEntryDone dt q codes s
  | .seqRunEnd dt q => Sys2Proof.Machine.execSeqRunEnd dt q s
  | .backgroundCalibration dt c b offset gain skew => Sys2Proof.Machine.execBackgroundCalibration dt c b offset gain skew s
  | .adcStartDone dt c => Sys2Proof.Machine.execAdcStartDone dt c s
  | .adcStopDone dt c => Sys2Proof.Machine.execAdcStopDone dt c s
  | .excHalf dt => Sys2Proof.Machine.execExcHalf dt s
  | .blankNAssert dt width => Sys2Proof.Machine.execBlankNAssert dt width s
  | .blankNRelease dt => Sys2Proof.Machine.execBlankNRelease dt s
  | .blankHoldExpiry dt => Sys2Proof.Machine.execBlankHoldExpiry dt s
  | .blankMaxExpiry dt q => Sys2Proof.Machine.execBlankMaxExpiry dt q s
  | .adcCalRunDone dt codes => Sys2Proof.Machine.execAdcCalRunDone dt codes s
  | .captureStart dt => Sys2Proof.Machine.execCaptureStart dt s
  | .captureEnd dt codes => Sys2Proof.Machine.execCaptureEnd dt codes s
  | .captureTimeout dt => Sys2Proof.Machine.execCaptureTimeout dt s
  | .inStatusGet dt o => Sys2Proof.Machine.execInStatusGet dt o s
  | .inConfigGet dt o => Sys2Proof.Machine.execInConfigGet dt o s
  | .inConfigSet dt o => Sys2Proof.Machine.execInConfigSet dt o s
  | .adcStatusGet dt o => Sys2Proof.Machine.execAdcStatusGet dt o s
  | .adcResultGet dt o => Sys2Proof.Machine.execAdcResultGet dt o s
  | .adcSeqGet dt o => Sys2Proof.Machine.execAdcSeqGet dt o s
  | .adcCalGet dt o => Sys2Proof.Machine.execAdcCalGet dt o s
  | .adcCaptureGet dt o => Sys2Proof.Machine.execAdcCaptureGet dt o s
  | .adcConfigSet dt o => Sys2Proof.Machine.execAdcConfigSet dt o s
  | .adcEnable dt o => Sys2Proof.Machine.execAdcEnable dt o s
  | .adcDisable dt o => Sys2Proof.Machine.execAdcDisable dt o s
  | .adcSeqSet dt o => Sys2Proof.Machine.execAdcSeqSet dt o s
  | .adcSeqEnable dt o => Sys2Proof.Machine.execAdcSeqEnable dt o s
  | .adcSeqDisable dt o => Sys2Proof.Machine.execAdcSeqDisable dt o s
  | .adcSeqTrigger dt o => Sys2Proof.Machine.execAdcSeqTrigger dt o s
  | .adcTimerSet dt o => Sys2Proof.Machine.execAdcTimerSet dt o s
  | .adcExcSet dt o => Sys2Proof.Machine.execAdcExcSet dt o s
  | .adcExcEnable dt o => Sys2Proof.Machine.execAdcExcEnable dt o s
  | .adcExcDisable dt o => Sys2Proof.Machine.execAdcExcDisable dt o s
  | .adcCalRun dt o => Sys2Proof.Machine.execAdcCalRun dt o s
  | .adcCalCommit dt o => Sys2Proof.Machine.execAdcCalCommit dt o s
  | .adcCaptureArm dt o => Sys2Proof.Machine.execAdcCaptureArm dt o s
  | .sliceStart dt clocks => Sys2Proof.Machine.execSliceStart dt clocks s
  | .sliceEnd dt r => Sys2Proof.Machine.execSliceEnd dt r s
  | .sliceServiceAbort dt bus seen => Sys2Proof.Machine.execSliceServiceAbort dt bus seen s
  | .slicePreconditionLoss dt cause seen => Sys2Proof.Machine.execSlicePreconditionLoss dt cause seen s
  | .coverMaxExpiry dt => Sys2Proof.Machine.execCoverMaxExpiry dt s
  | .idleGap dt => Sys2Proof.Machine.execIdleGap dt s
  | .lockstepMismatch dt => Sys2Proof.Machine.execLockstepMismatch dt s
  | .duplicateMismatch dt which => Sys2Proof.Machine.execDuplicateMismatch dt which s
  | .fieldRamTest dt fails => Sys2Proof.Machine.execFieldRamTest dt fails s
  | .fieldNvmCheck dt => Sys2Proof.Machine.execFieldNvmCheck dt s
  | .directedRunDone dt verdicts => Sys2Proof.Machine.execDirectedRunDone dt verdicts s
  | .bistStatusGet dt o => Sys2Proof.Machine.execBistStatusGet dt o s
  | .bistUnusableGet dt o => Sys2Proof.Machine.execBistUnusableGet dt o s
  | .bistResultGet dt o => Sys2Proof.Machine.execBistResultGet dt o s
  | .bistConfigSet dt o => Sys2Proof.Machine.execBistConfigSet dt o s
  | .bistDirectedRun dt o => Sys2Proof.Machine.execBistDirectedRun dt o s
  | .bistUnusableClear dt o => Sys2Proof.Machine.execBistUnusableClear dt o s
  | .switchoverStart dt => Sys2Proof.Machine.execSwitchoverStart dt s
  | .switchoverDone dt => Sys2Proof.Machine.execSwitchoverDone dt s
  | .switchoverTimeout dt => Sys2Proof.Machine.execSwitchoverTimeout dt s
  | .sealedSwitchover dt => Sys2Proof.Machine.execSealedSwitchover dt s
  | .sealedStartTimeout dt => Sys2Proof.Machine.execSealedStartTimeout dt s
  | .debugUnlock dt response => Sys2Proof.Machine.execDebugUnlock dt response s
  | .fwEraseDone dt c => Sys2Proof.Machine.execFwEraseDone dt c s
  | .fwVerifyDone dt c => Sys2Proof.Machine.execFwVerifyDone dt c s
  | .secStatusGet dt o => Sys2Proof.Machine.execSecStatusGet dt o s
  | .fwStatusGet dt o => Sys2Proof.Machine.execFwStatusGet dt o s
  | .sealIdentGet dt o => Sys2Proof.Machine.execSealIdentGet dt o s
  | .secKeyWrite dt o => Sys2Proof.Machine.execSecKeyWrite dt o s
  | .lcAdvance dt o => Sys2Proof.Machine.execLcAdvance dt o s
  | .fwStageBegin dt o => Sys2Proof.Machine.execFwStageBegin dt o s
  | .fwStageWrite dt o => Sys2Proof.Machine.execFwStageWrite dt o s
  | .fwStageVerify dt o => Sys2Proof.Machine.execFwStageVerify dt o s
  | .fwSwitch dt o => Sys2Proof.Machine.execFwSwitch dt o s
  | .fwConfirm dt o => Sys2Proof.Machine.execFwConfirm dt o s
  | .sealResvSet dt o => Sys2Proof.Machine.execSealResvSet dt o s
  | .sealResvClear dt o => Sys2Proof.Machine.execSealResvClear dt o s
  | .vbatStart dt mv calm => Sys2Proof.Machine.execVbatStart dt mv calm s
  | .vbatLowWarning dt mv => Sys2Proof.Machine.execVbatLowWarning dt mv s
  | .vbatPowerFail dt mv => Sys2Proof.Machine.execVbatPowerFail dt mv s
  | .vbatOvervoltage dt mv => Sys2Proof.Machine.execVbatOvervoltage dt mv s
  | .aonMinimum dt => Sys2Proof.Machine.execAonMinimum dt s
  | .railWarning dt rail mv => Sys2Proof.Machine.execRailWarning dt rail mv s
  | .railFault dt rail mv => Sys2Proof.Machine.execRailFault dt rail mv s
  | .shutdownImminent dt cause => Sys2Proof.Machine.execShutdownImminent dt cause s
  | .powerRemoval dt => Sys2Proof.Machine.execPowerRemoval dt s
  | .minOffTimeExpiry dt => Sys2Proof.Machine.execMinOffTimeExpiry dt s
  | .wakeAssert dt width => Sys2Proof.Machine.execWakeAssert dt width s
  | .thermalSample dt temps => Sys2Proof.Machine.execThermalSample dt temps s
  | .thermStepDown dt => Sys2Proof.Machine.execThermStepDown dt s
  | .hwThermalTrip dt sdC sdP => Sys2Proof.Machine.execHwThermalTrip dt sdC sdP s
  | .hwThermalRestart dt sdC sdP => Sys2Proof.Machine.execHwThermalRestart dt sdC sdP s
  | .fieldThermalStop dt temps => Sys2Proof.Machine.execFieldThermalStop dt temps s
  | .fieldThermalRestart dt temps => Sys2Proof.Machine.execFieldThermalRestart dt temps s
  | .fieldPowerOn dt v0 v1 v2 v3 => Sys2Proof.Machine.execFieldPowerOn dt v0 v1 v2 v3 s
  | .fieldPowerLoss dt v0 v1 v2 v3 => Sys2Proof.Machine.execFieldPowerLoss dt v0 v1 v2 v3 s
  | .nvmCommitWaitTimeout dt k => Sys2Proof.Machine.execNvmCommitWaitTimeout dt k s
  | .bbRecordWrite dt => Sys2Proof.Machine.execBbRecordWrite dt s
  | .bbRecordCommit dt => Sys2Proof.Machine.execBbRecordCommit dt s
  | .onTimeTick dt => Sys2Proof.Machine.execOnTimeTick dt s
  | .pwrStatusGet dt o => Sys2Proof.Machine.execPwrStatusGet dt o s
  | .thermStatusGet dt o => Sys2Proof.Machine.execThermStatusGet dt o s
  | .thermConfigSet dt o => Sys2Proof.Machine.execThermConfigSet dt o s
  | .thermSensorRestore dt o => Sys2Proof.Machine.execThermSensorRestore dt o s
  | .pwrStandby dt o => Sys2Proof.Machine.execPwrStandby dt o s
  | .logStatusGet dt o => Sys2Proof.Machine.execLogStatusGet dt o s
  | .logRead dt o => Sys2Proof.Machine.execLogRead dt o s
  | .logFfRead dt o => Sys2Proof.Machine.execLogFfRead dt o s
  | .logCountersGet dt o => Sys2Proof.Machine.execLogCountersGet dt o s
  | .logMark dt o => Sys2Proof.Machine.execLogMark dt o s
  | .undefinedCommandId dt o => Sys2Proof.Machine.execUndefinedCommandId dt o s
  | .sealedComponentRunning dt => Sys2Proof.Machine.execSealedComponentRunning dt s
  | .standbyShutdown dt => Sys2Proof.Machine.execStandbyShutdown dt s
  | .vbatLowClear dt mv => Sys2Proof.Machine.execVbatLowClear dt mv s
  | .railWarningEnd dt rail mv => Sys2Proof.Machine.execRailWarningEnd dt rail mv s
  | .calendarEpoch dt => Sys2Proof.Machine.execCalendarEpoch dt s
  | .eventReportWindowEnd dt ev source sub => Sys2Proof.Machine.execEventReportWindowEnd dt ev source sub s

end Sys2Proof.Machine
end

