-- ==== Sys2Proof/WellFormed.lean ====
section
/-! DEFINITION. Well-formed commands: operands within what the sender or the outside world can supply. The machine's meanings
are total and give every command a meaning; this predicate says which ones the hardware's surroundings can produce. -/

namespace Sys2Proof

/-- Mailbox windows and registers lie below 0xA000 (Table 2-3). -/
def hostAddress (a : BitVec 16) : Bool := a.toNat < 0xA000

/-- A mailbox window address (Table 2-3). -/
def windowAddress (a : BitVec 16) : Bool := 0x1000 ≤ a.toNat && a.toNat < 0x9000

/-- A list of `n` values, each below a bound. -/
def listed (n bound : Nat) (l : List Nat) : Bool := l.length == n && l.all (· < bound)

/-- A byte string's number fits its length. -/
def Bytes.fits (b : Bytes) : Bool := b.val < 2 ^ (8 * b.len)

/-- The operands of a command lie in their ranges. -/
def Instr.wellFormed : Instr → Bool
  | .hifTimeLoRead _ _ a n | .hifEvtLostRead _ _ a n => hostAddress a && 1 ≤ n
  | .mbWindowWrite _ _ a ws => windowAddress a && !ws.isEmpty
  | .registerWrite _ _ a ws => hostAddress a && !ws.isEmpty
  | .badOp _ o => !(o == 0x02 || o == 0x03 || o == 0x32 || o == 0x6B)
  | .shot _ w0 w1 w2 w3 => [w0, w1, w2, w3].all (fun w => w.length ≤ 256)
  | .photonEvent _ _ _ ages => 1 ≤ ages.length && ages.length ≤ 15
  | .linearisationUpdate _ _ codes => codes.length == 64
  | .referencePassDone _ m => m.length == 1032
  | .csi2Packet _ _ p => p.payload.fits
  | .cellRequest _ _ _ _ _ _ u => u.fits
  | .fieldTick _ x => x.outs.length == 16
  | .thermalSample _ t => t.length == 16
  | .fieldThermalStop _ t => t.length == 4
  | .fieldThermalRestart _ t => t.length == 4
  | .eventReportWindowEnd _ ev _ _ => ev != 0x0101
  | _ => true

end Sys2Proof
end

