-- ==== Sys2Proof/Safety.lean ====
section
/-! DEFINITION. What counts as a safe run, in the terms claims use: what a step answers, when a command of the protocol is accepted, the
invariant of the host port, and the sealed values. -/

namespace Sys2Proof.Machine

open Sys2Proof

/-- A step answers a next state of which P holds. -/
def Answers (x : Host.Outcome State Fault Refusal) (P : State → Prop) : Prop := ∃ u, x = .next u ∧ P u

/-- Two devices that differ at most in the protocol's state, the ring, the queues and the log. -/
structure Device.Keeps (d d' : Device) : Prop where
  time : d'.time = d.time
  fire : d'.fire = d.fire
  rx : d'.rx = d.rx
  hist : d'.hist = d.hist
  ret : d'.ret = d.ret
  cal : d'.cal = d.cal
  cams : d'.cams = d.cams
  core : d'.core = d.core
  field : d'.field = d.field
  bist : d'.bist = d.bist
  sec : d'.sec = d.sec
  power : d'.power = d.power
  ready : d'.ready = d.ready

/-- A port of the ring but for the frames and the credit entries that wait at it for a superframe. -/
def RPort.base (x : RPort) : RPort := { x with x9 := [], grants := [] }

/-- Two devices that differ at most in the queues, the events under way, the windows that limit events and, where an event stream or a
mirror is bound, the frames at the ports: what the end of a step may still change. -/
structure Device.Rests (d d' : Device) : Prop where
  keeps : d.Keeps d'
  ring : { d'.ring with ports := d.ring.ports } = d.ring
  base : ∀ p, (d'.port p).base = (d.port p).base
  ports : d.qs.eventQ = 0xFFFF → d.qs.mirrorQ = 0xFFFF → d'.ring.ports = d.ring.ports
  log : d'.log = d.log
  sessions : d'.wcp.sessions = d.wcp.sessions
  waits : d'.wcp.waits = d.wcp.waits
  replies : d'.wcp.replies = d.wcp.replies
  inFlight : d'.wcp.inFlight = d.wcp.inFlight
  discarded : d'.wcp.discarded = d.wcp.discarded
  masks : d'.wcp.masks = d.wcp.masks
  resetAt : d'.wcp.resetAt = d.wcp.resetAt
  draws : d'.wcp.draws = d.wcp.draws

/-- The parts of the device; the ring's ports are a part of their own. -/
inductive Part
  | time | wcp | fire | rx | hist | ret | cal | ring | ports | qs | cams | core | field | bist | sec | power | log | ready
deriving DecidableEq, Repr

/-- A part is the same in two devices. -/
def Part.same : Part → Device → Device → Prop
  | .time, d, d' => d'.time = d.time
  | .wcp, d, d' => d'.wcp = d.wcp
  | .fire, d, d' => d'.fire = d.fire
  | .rx, d, d' => d'.rx = d.rx
  | .hist, d, d' => d'.hist = d.hist
  | .ret, d, d' => d'.ret = d.ret
  | .cal, d, d' => d'.cal = d.cal
  | .ring, d, d' => { d'.ring with ports := d.ring.ports } = d.ring
  | .ports, d, d' => d'.ring.ports = d.ring.ports
  | .qs, d, d' => d'.qs = d.qs
  | .cams, d, d' => d'.cams = d.cams
  | .core, d, d' => d'.core = d.core
  | .field, d, d' => d'.field = d.field
  | .bist, d, d' => d'.bist = d.bist
  | .sec, d, d' => d'.sec = d.sec
  | .power, d, d' => d'.power = d.power
  | .log, d, d' => d'.log = d.log
  | .ready, d, d' => d'.ready = d.ready

/-- The whole device but the parts named is the same. -/
def Device.OnlyIn (ps : List Part) (d d' : Device) : Prop := ∀ p, p ∉ ps → p.same d d'

/-- The canonical form of a sparse store: keys strictly rising, each above a bound. -/
def keysAbove {α : Type} : Option Nat → Map α → Prop
  | _, [] => True
  | lo, (a, _) :: t => (∀ l, lo = some l → l < a) ∧ keysAbove (some a) t

/-- The parts that reports reach: events and completions, the queues and the frames at the ports, the log. -/
def reports : List Part := [.wcp, .qs, .ports, .log]

/-- No event waits for its unit, and neither an event stream nor a mirror is bound: then a command alone changes the queues. -/
structure Device.Unstreamed (d : Device) : Prop where
  held : d.qs.evBuf = []
  events : d.qs.eventQ = 0xFFFF
  mirror : d.qs.mirrorQ = 0xFFFF

/-- A row leaves the device alone but for the time that passes. -/
def Idles (x : Host.Outcome State Fault Refusal) (d : Device) : Prop := Answers x (fun u => d.Rests u.dev)

/-! The command protocol (R39-R55, R440). -/

/-- A row of the command protocol: the time that passes, where its envelope stands, the command, how its session opens (only
`sys.session.open`) and what follows its response. -/
structure WcpRow where
  dt : Nat
  origin : Origin
  cmd : Cmd
  opens : Env → Device → Device × Bytes := noOpen
  after : Device → Device → Device := fun _ d => d

/-- Who sends an envelope of an open session. -/
def Env.ctx (e : Env) (d : Device) : Ctx :=
  { session := e.session, slot := (d.session e.session).slot, counter := e.counter, path := e.path, auth := true }

/-- Commands are served, and the envelope at the origin carries this one (R39, R41, R44). -/
structure Offered (o : Origin) (c : Cmd) (e : Env) (t : State) : Prop where
  serves : t.dev.serves = true
  there : t.envelope o = some e
  id : e.id = c.id

/-- A well-formed envelope of an open session with a valid tag and a counter above H, while the session has room (R50, R52-R55). -/
structure Authentic (e : Env) (d : Device) : Prop where
  formed : e.malformed = false
  named : e.session ≠ 0xFF
  opened : (d.session e.session).isOpen = true
  tagged : e.tagOk (keyBytes (d.session e.session).key) = true
  unused : (d.session e.session).find e.counter = none
  fresh : (d.session e.session).high.toNat < e.counter
  room : (d.session e.session).pending ≠ 16
  inFlight : e.tooMany = false

/-- The device once an envelope's tag has been computed (R361) and its counter consumed (R55). -/
def Cmd.taken (c : Cmd) (e : Env) (d : Device) : Device := (d.serveOrWait [5]).accept e (c.sealed e.payload)

/-- Every check of R440 passes, and nothing in the sealed domain holds the command back (R388). -/
structure Permitted (c : Cmd) (e : Env) (d : Device) : Prop where
  early : c.early (e.ctx d) e.payload (c.taken e d) = none
  now : (c.sealed e.payload && (c.taken e d).sealedBusy) = false
  late : c.late e.payload (c.taken e d) = none

/-- A command is accepted: offered, authentic and permitted. -/
structure Accepted (o : Origin) (c : Cmd) (e : Env) (t : State) : Prop where
  offered : Offered o c e t
  authentic : Authentic e t.dev
  permitted : Permitted c e t.dev

/-- The state after the response has been delivered and what follows it. -/
def WcpRow.answered (r : WcpRow) (s : State) (e : Env) (x : Device × Bytes) : State :=
  let t := s.elapse r.dt
  let u := State.deliver { t with dev := x.1 } r.origin e.path x.2
  State.settle { u with dev := r.after t.dev u.dev } s.dev

/-- The command of a row as it runs: what it does to the device, its counter consumed (R55), and its answer. -/
def WcpRow.runs (r : WcpRow) (s : State) (e : Env) : Device × Answer :=
  let d := (s.elapse r.dt).dev
  r.cmd.run (e.ctx d) e.payload (r.cmd.taken e d)

/-- The command is turned away as busy. -/
def WcpRow.busy (r : WcpRow) (s : State) (e : Env) : Bool :=
  match (r.runs s e).2 with
  | .done st _ => st == sBusy
  | .pend _ => false

/-- The state after a command of the protocol has run: its response carries the status and result it answers, which the session keeps,
or S_PENDING while it waits, when it changes nothing more than what waits. -/
def WcpRow.Ran (r : WcpRow) (s : State) (e : Env) (u : State) : Prop :=
  let d := (s.elapse r.dt).dev
  let x := r.runs s e
  let answer := fun (st : Nat) (res : Bytes) =>
    response (some (keyBytes (d.session e.session).key)) e.id e.session e.counter st 0 d.time.ns.toNat res
  match x.2 with
  | .done st res => u = r.answered s e
      (x.1.modSession e.session (fun q => q.update e.counter (fun y => { y with status := st, result := res.limit })), answer st res)
  | .pend _ => ∃ d', x.1.Keeps d' ∧ u = r.answered s e (d', answer sPending Bytes.nil)

/-- The rows of the command protocol. -/
def wcpRow? : Instr → Option WcpRow
  | .sysIdentGet dt o => some { dt, origin := o, cmd := cmdIdent }
  | .sysStatusGet dt o => some { dt, origin := o, cmd := cmdStatus }
  | .sysSessionStatus dt o => some { dt, origin := o, cmd := cmdSessionStatus }
  | .sysResultGet dt o => some { dt, origin := o, cmd := cmdResultGet }
  | .sysSessionOpen dt o => some { dt, origin := o, cmd := cmdSessionOpen, opens := Device.sessionOpen }
  | .sysSessionClose dt o => some { dt, origin := o, cmd := cmdSessionClose }
  | .sysPolicySet dt o => some { dt, origin := o, cmd := cmdPolicySet }
  | .sysEventMaskSet dt o => some { dt, origin := o, cmd := cmdEventMaskSet }
  | .sysReset dt o => some { dt, origin := o, cmd := cmdReset, after := Device.resetAfterReply }
  | .scanPlanGet dt o => some { dt, origin := o, cmd := cmdPlanGet }
  | .fireStatusGet dt o => some { dt, origin := o, cmd := cmdFireStatus }
  | .fireDoseGet dt o => some { dt, origin := o, cmd := cmdDoseGet }
  | .scanCalendarGet dt o => some { dt, origin := o, cmd := cmdCalendarGet }
  | .scanPlanWrite dt o => some { dt, origin := o, cmd := cmdPlanWrite }
  | .scanPlanCommit dt o => some { dt, origin := o, cmd := cmdPlanCommit }
  | .scanPlanSelect dt o => some { dt, origin := o, cmd := cmdPlanSelect }
  | .fireEnable dt o => some { dt, origin := o, cmd := cmdFireEnable }
  | .fireDisable dt o => some { dt, origin := o, cmd := cmdFireDisable }
  | .scanTriggerSet dt o => some { dt, origin := o, cmd := cmdTriggerSet }
  | .scanFrameTrigger dt o => some { dt, origin := o, cmd := cmdFrameTrigger }
  | .fireDitherSet dt o => some { dt, origin := o, cmd := cmdDitherSet }
  | .fireEmitterSet dt o => some { dt, origin := o, cmd := cmdEmitterSet }
  | .fireBudgetSet dt o => some { dt, origin := o, cmd := cmdBudgetSet }
  | .fireKillClear dt o => some { dt, origin := o, cmd := cmdKillClear }
  | .fireStripeClear dt o => some { dt, origin := o, cmd := cmdStripeClear }
  | .scanFollowSet dt o => some { dt, origin := o, cmd := cmdFollowSet }
  | .scanCalendarSet dt o => some { dt, origin := o, cmd := cmdCalendarSet }
  | .rxStatusGet dt o => some { dt, origin := o, cmd := cmdRxStatus }
  | .rxLayoutGet dt o => some { dt, origin := o, cmd := cmdLayoutGet }
  | .rxMaskGet dt o => some { dt, origin := o, cmd := cmdMaskGet }
  | .rxSurveyGet dt o => some { dt, origin := o, cmd := cmdSurveyGet }
  | .rxCoincGet dt o => some { dt, origin := o, cmd := cmdCoincGet }
  | .rxLensGet dt o => some { dt, origin := o, cmd := cmdLensGet }
  | .rxConfigSet dt o => some { dt, origin := o, cmd := cmdRxConfigSet }
  | .rxLayoutSet dt o => some { dt, origin := o, cmd := cmdLayoutSet }
  | .rxCoincSet dt o => some { dt, origin := o, cmd := cmdCoincSet }
  | .rxMaskWrite dt o => some { dt, origin := o, cmd := cmdMaskWrite }
  | .rxMaskCommit dt o => some { dt, origin := o, cmd := cmdMaskCommit }
  | .rxWitnessSet dt o => some { dt, origin := o, cmd := cmdWitnessSet }
  | .rxChannelRetire dt o => some { dt, origin := o, cmd := cmdChannelRetire }
  | .rxChannelRestore dt o => some { dt, origin := o, cmd := cmdChannelRestore }
  | .rxVbdSet dt o => some { dt, origin := o, cmd := cmdVbdSet }
  | .rxVbdMeasure dt o => some { dt, origin := o, cmd := cmdVbdMeasure }
  | .rxLensSet dt o => some { dt, origin := o, cmd := cmdLensSet }
  | .histStatusGet dt o => some { dt, origin := o, cmd := cmdHistStatus }
  | .histPlanecfgGet dt o => some { dt, origin := o, cmd := cmdPlanecfgGet }
  | .histGateGet dt o => some { dt, origin := o, cmd := cmdGateGet }
  | .histPlaneRead dt o => some { dt, origin := o, cmd := cmdPlaneRead }
  | .histTrackGet dt o => some { dt, origin := o, cmd := cmdTrackGet }
  | .histPlanecfgSet dt o => some { dt, origin := o, cmd := cmdPlanecfgSet }
  | .histGateSet dt o => some { dt, origin := o, cmd := cmdGateSet }
  | .histExportSet dt o => some { dt, origin := o, cmd := cmdExportSet }
  | .histExportEnable dt o => some { dt, origin := o, cmd := cmdExportEnable }
  | .histExportDisable dt o => some { dt, origin := o, cmd := cmdExportDisable }
  | .histPlaneHold dt o => some { dt, origin := o, cmd := cmdPlaneHold }
  | .histPlaneRelease dt o => some { dt, origin := o, cmd := cmdPlaneRelease }
  | .histPlaneSend dt o => some { dt, origin := o, cmd := cmdPlaneSend }
  | .histImportSet dt o => some { dt, origin := o, cmd := cmdImportSet }
  | .histTrackClear dt o => some { dt, origin := o, cmd := cmdTrackClear }
  | .retStatusGet dt o => some { dt, origin := o, cmd := cmdRetStatus }
  | .retTemplateGet dt o => some { dt, origin := o, cmd := cmdTemplateGet }
  | .zoneMapGet dt o => some { dt, origin := o, cmd := cmdZoneMapGet }
  | .zoneStateGet dt o => some { dt, origin := o, cmd := cmdZoneStateGet }
  | .retConfigGet dt o => some { dt, origin := o, cmd := cmdRetConfigGet }
  | .retConfigSet dt o => some { dt, origin := o, cmd := cmdRetConfigSet }
  | .retTemplateSet dt o => some { dt, origin := o, cmd := cmdTemplateSet }
  | .retPointsSet dt o => some { dt, origin := o, cmd := cmdPointsSet }
  | .retRawSet dt o => some { dt, origin := o, cmd := cmdRawSet }
  | .retWindowLearn dt o => some { dt, origin := o, cmd := cmdWindowLearn }
  | .zoneMapSet dt o => some { dt, origin := o, cmd := cmdZoneMapSet }
  | .calStatusGet dt o => some { dt, origin := o, cmd := cmdCalStatus }
  | .calCoeffGet dt o => some { dt, origin := o, cmd := cmdCalCoeffGet }
  | .calResultGet dt o => some { dt, origin := o, cmd := cmdCalResultGet }
  | .calCoeffWrite dt o => some { dt, origin := o, cmd := cmdCalCoeffWrite }
  | .calCoeffCommit dt o => some { dt, origin := o, cmd := cmdCalCoeffCommit }
  | .calFullStart dt o => some { dt, origin := o, cmd := cmdCalFullStart }
  | .calFullAbort dt o => some { dt, origin := o, cmd := cmdCalFullAbort }
  | .ringStatusGet dt o => some { dt, origin := o, cmd := cmdRingStatus }
  | .ringPortGet dt o => some { dt, origin := o, cmd := cmdRingPort }
  | .ringMembersGet dt o => some { dt, origin := o, cmd := cmdRingMembers }
  | .ringResvGet dt o => some { dt, origin := o, cmd := cmdRingResv }
  | .ringPortSet dt o => some { dt, origin := o, cmd := cmdRingPortSet }
  | .ringPortEnable dt o => some { dt, origin := o, cmd := cmdRingPortEnable }
  | .ringPortDisable dt o => some { dt, origin := o, cmd := cmdRingPortDisable }
  | .ringConfigSet dt o => some { dt, origin := o, cmd := cmdRingConfig }
  | .ringResvSet dt o => some { dt, origin := o, cmd := cmdRingResvSet }
  | .ringResvClear dt o => some { dt, origin := o, cmd := cmdRingResvClear }
  | .ringRouteRebalance dt o => some { dt, origin := o, cmd := cmdRebalance }
  | .qStatusGet dt o => some { dt, origin := o, cmd := cmdQStatus }
  | .qSubsGet dt o => some { dt, origin := o, cmd := cmdQSubs }
  | .qPoolGet dt o => some { dt, origin := o, cmd := cmdQPool }
  | .camStatusGet dt o => some { dt, origin := o, cmd := cmdCamStatus }
  | .qConfigSet dt o => some { dt, origin := o, cmd := cmdQConfig }
  | .qEnable dt o => some { dt, origin := o, cmd := cmdQEnable }
  | .qDisable dt o => some { dt, origin := o, cmd := cmdQDisable }
  | .qSubscribe dt o => some { dt, origin := o, cmd := cmdQSubscribe }
  | .qUnsubscribe dt o => some { dt, origin := o, cmd := cmdQUnsubscribe }
  | .qRead dt o => some { dt, origin := o, cmd := cmdQRead }
  | .streamEventsSet dt o => some { dt, origin := o, cmd := cmdEventsSet }
  | .streamMirrorSet dt o => some { dt, origin := o, cmd := cmdMirrorSet }
  | .camPortSet dt o => some { dt, origin := o, cmd := cmdCamPortSet }
  | .camEnable dt o => some { dt, origin := o, cmd := cmdCamEnable }
  | .camDisable dt o => some { dt, origin := o, cmd := cmdCamDisable }
  | .camFsyncSet dt o => some { dt, origin := o, cmd := cmdFsyncSet }
  | .lampStatusGet dt o => some { dt, origin := o, cmd := cmdLampStatus }
  | .lampBlockGet dt o => some { dt, origin := o, cmd := cmdBlockGet }
  | .lampRulesGet dt o => some { dt, origin := o, cmd := cmdRulesGet }
  | .bridgeStatusGet dt o => some { dt, origin := o, cmd := cmdBridgeStatus }
  | .lampBlockWrite dt o => some { dt, origin := o, cmd := cmdBlockWrite }
  | .lampBlockCommit dt o => some { dt, origin := o, cmd := cmdBlockCommit }
  | .lampRulesSet dt o => some { dt, origin := o, cmd := cmdRulesSet }
  | .lampRequestSet dt o => some { dt, origin := o, cmd := cmdRequestSet }
  | .lampFaultClear dt o => some { dt, origin := o, cmd := cmdFaultClear }
  | .lampRemapSet dt o => some { dt, origin := o, cmd := cmdRemapSet }
  | .lampRemapClear dt o => some { dt, origin := o, cmd := cmdRemapClear }
  | .inStatusGet dt o => some { dt, origin := o, cmd := cmdInStatus }
  | .inConfigGet dt o => some { dt, origin := o, cmd := cmdInConfigGet }
  | .inConfigSet dt o => some { dt, origin := o, cmd := cmdInConfigSet }
  | .adcStatusGet dt o => some { dt, origin := o, cmd := cmdAdcStatus }
  | .adcResultGet dt o => some { dt, origin := o, cmd := cmdAdcResult }
  | .adcSeqGet dt o => some { dt, origin := o, cmd := cmdSeqGet }
  | .adcCalGet dt o => some { dt, origin := o, cmd := cmdAdcCalGet }
  | .adcCaptureGet dt o => some { dt, origin := o, cmd := cmdCaptureGet }
  | .adcConfigSet dt o => some { dt, origin := o, cmd := cmdAdcConfigSet }
  | .adcEnable dt o => some { dt, origin := o, cmd := cmdAdcEnable }
  | .adcDisable dt o => some { dt, origin := o, cmd := cmdAdcDisable }
  | .adcSeqSet dt o => some { dt, origin := o, cmd := cmdSeqSet }
  | .adcSeqEnable dt o => some { dt, origin := o, cmd := cmdSeqEnable }
  | .adcSeqDisable dt o => some { dt, origin := o, cmd := cmdSeqDisable }
  | .adcSeqTrigger dt o => some { dt, origin := o, cmd := cmdSeqTrigger }
  | .adcTimerSet dt o => some { dt, origin := o, cmd := cmdTimerSet }
  | .adcExcSet dt o => some { dt, origin := o, cmd := cmdExcSet }
  | .adcExcEnable dt o => some { dt, origin := o, cmd := cmdExcEnable }
  | .adcExcDisable dt o => some { dt, origin := o, cmd := cmdExcDisable }
  | .adcCalRun dt o => some { dt, origin := o, cmd := cmdCalRun }
  | .adcCalCommit dt o => some { dt, origin := o, cmd := cmdAdcCalCommit }
  | .adcCaptureArm dt o => some { dt, origin := o, cmd := cmdCaptureArm }
  | .bistStatusGet dt o => some { dt, origin := o, cmd := cmdBistStatus }
  | .bistUnusableGet dt o => some { dt, origin := o, cmd := cmdUnusableGet }
  | .bistResultGet dt o => some { dt, origin := o, cmd := cmdBistResult }
  | .bistConfigSet dt o => some { dt, origin := o, cmd := cmdBistConfig }
  | .bistDirectedRun dt o => some { dt, origin := o, cmd := cmdDirectedRun, after := Device.resetAfterReply }
  | .bistUnusableClear dt o => some { dt, origin := o, cmd := cmdUnusableClear }
  | .secStatusGet dt o => some { dt, origin := o, cmd := cmdSecStatus }
  | .fwStatusGet dt o => some { dt, origin := o, cmd := cmdFwStatus }
  | .sealIdentGet dt o => some { dt, origin := o, cmd := cmdSealIdent }
  | .secKeyWrite dt o => some { dt, origin := o, cmd := cmdKeyWrite, after := Device.closeWritten }
  | .lcAdvance dt o => some { dt, origin := o, cmd := cmdAdvance, after := Device.advanceAndReset }
  | .fwStageBegin dt o => some { dt, origin := o, cmd := cmdStageBegin }
  | .fwStageWrite dt o => some { dt, origin := o, cmd := cmdStageWrite }
  | .fwStageVerify dt o => some { dt, origin := o, cmd := cmdStageVerify }
  | .fwSwitch dt o => some { dt, origin := o, cmd := cmdFwSwitch }
  | .fwConfirm dt o => some { dt, origin := o, cmd := cmdFwConfirm }
  | .sealResvSet dt o => some { dt, origin := o, cmd := cmdSealResvSet }
  | .sealResvClear dt o => some { dt, origin := o, cmd := cmdSealResvClear }
  | .pwrStatusGet dt o => some { dt, origin := o, cmd := cmdPwrStatus }
  | .thermStatusGet dt o => some { dt, origin := o, cmd := cmdThermStatus }
  | .thermConfigSet dt o => some { dt, origin := o, cmd := cmdThermConfig }
  | .thermSensorRestore dt o => some { dt, origin := o, cmd := cmdSensorRestore }
  | .pwrStandby dt o => some { dt, origin := o, cmd := cmdStandby, after := Device.standbyAfterReply }
  | .logStatusGet dt o => some { dt, origin := o, cmd := cmdLogStatus }
  | .logRead dt o => some { dt, origin := o, cmd := cmdLogRead }
  | .logFfRead dt o => some { dt, origin := o, cmd := cmdLogFf }
  | .logCountersGet dt o => some { dt, origin := o, cmd := cmdLogCounters }
  | .logMark dt o => some { dt, origin := o, cmd := cmdLogMark }
  | _ => none

/-! The host port (R38-R43, R60). -/

/-- The invariant of the host port: its windows are in canonical form, at most 128 event entries are unread, and only the defined
interrupt enables can be set. -/
structure HostPort.Inv (h : HostPort) : Prop where
  canonical : Mem.wf winDefault h.mem = true
  unread : h.unread ≤ 128
  enables : h.irqEn &&& 0xFFFFC000 = 0

/-! The buffer pool (R252, R255). -/

/-- The invariant of the pool: every cell in use is one of its 32,768, so that no more are in use, each queue stands once, and no cell
holds bytes of two queues. -/
structure Queues.Pool (qs : Queues) : Prop where
  below : ∀ c, c ∈ qs.usedCells → c < 32768
  count : qs.usedCells.length ≤ 32768
  keys : keysAbove none qs.qs
  own : ∀ p q, p ∈ qs.qs → q ∈ qs.qs → p.1 ≠ q.1 → ∀ c, c ∈ p.2.cellList → c ∉ q.2.cellList

/-! The sealed domain (R383). -/

/-- The live sealed parameters held on the C-die: dose budget, lens table, zone maps, rule table, self-test configuration, sealed
reservations. -/
structure Sealed where
  budget : Stored 256
  lens : Stored 18432
  zmaps : Vector (Stored 8320) 16
  rules : Stored 4160
  bist : Stored 64
  resv : Vector (Stored 128) 32

def Device.sealedParams (d : Device) : Sealed :=
  { budget := d.fire.budget, lens := d.rx.lens, zmaps := d.ret.zmaps, rules := d.core.rules, bist := d.bist.cfg, resv := d.sec.resv }

/-- The rows at which the answer to a request for a reservation can reach its node (R237, R238). -/
def answersResv : Instr → Bool
  | .breakMsg .. | .electTimeout .. | .joinReq .. | .leave .. | .linkDelayAveraged .. | .linkFailure .. | .marker .. | .resvAns ..
  | .resvReq .. | .ringPortDisable .. | .startingRetryTimer .. | .superframe .. | .timeServoUpdate .. => true
  | _ => false

/-- The sealed parameters, by their order in Table 13-7, that a row may write: its own, or, where sealed commands that waited are executed
(R388), a life-cycle state is reached (R376) or a boot completes one (R375), any. -/
def sealedOrders : Instr → List Nat
  | .fireBudgetSet .. => [1]
  | .rxLensSet .. => [2]
  | .zoneMapSet .. => [3]
  | .lampRulesSet .. => [5]
  | .bistConfigSet .. => [6]
  | .sealResvClear .. => [7]
  | .aspectEvaluation .. | .sealedComponentRunning .. | .sealedStartTimeout .. | .lcAdvance .. | .boot .. => [1, 2, 3, 5, 6, 7]
  | i => if answersResv i then [7] else []

end Sys2Proof.Machine
end

