-- ==== Sys2Proof/Certificates/Slice0/Obligations.lean ====
section
/-! DEFINITION. The statements about the model for the provers. -/

open Sys2Proof Sys2Proof.Machine

/-- For every command c and state s whose queue is c followed by rest, step s is exec of c on s with the queue rest; on an empty queue step
answers s itself (log entry 4: the model's choice). (derived: 95_what_each_step_holds.md) -/
def Obligations.StepRunsFront : Prop :=
    (∀ (c : Instr) (rest : List Instr) (s : State), s.pending = c :: rest → step s = exec c { s with pending := rest }) ∧
    (∀ s : State, s.pending = [] → step s = .next s)

/-- For every command and state exec answers a next state whose queue is that of the state before, in which no raised event and no interrupt
request waits for the host port. (derived: R59, R60) -/
def Obligations.ExecAnswersNext : Prop :=
    ∀ (c : Instr) (s : State), Answers (exec c s) (fun u => u.pending = s.pending ∧ u.dev.wcp.out = [] ∧ u.dev.wcp.irq = 0)

/-- In the state right after reset the mailboxes are FREE and the windows list nothing, HIF_IRQ_EN is 0x000005FF, READY is clear, no session
is open, no command is pending, and the firing controller, the export function, both ring ports, every camera port, converter, sequence
and output are OFF. The state right after reset satisfies the invariant of the host port. (derived: R38, R43, R439, R60) -/
def Obligations.ResetStands : Prop :=
    (State.reset.host.mb.toList.all (fun m => m == .free) = true ∧ State.reset.host.mem = [] ∧ State.reset.host.irqEn = 0x5FF ∧
    State.reset.dev.ready = false ∧ State.reset.dev.wcp.sessions.toList.all (fun x => !x.isOpen) = true ∧
    State.reset.dev.wcp.waits = [] ∧ State.reset.pending = [] ∧ State.reset.dev.fire.fn.st = .off ∧
    State.reset.dev.hist.exp.st = .off ∧ State.reset.dev.ring.ports.toList.all (fun p => p.fn.st == .off) = true ∧
    State.reset.dev.cams.ports.toList.all (fun p => p.fn.st == .off) = true ∧
    State.reset.dev.field.convs.toList.all (fun c => c.fn.st == .off) = true ∧
    State.reset.dev.field.seqs.toList.all (fun q => q.fn.st == .off) = true ∧
    State.reset.dev.field.outs.toList.all (fun x => x.fn.st == .off) = true) ∧
    (State.reset.host.Inv)

/-- From every state whose host port satisfies its invariant (windows in canonical form, at most 128 unread event entries, only defined
interrupt enables), a step that answers a next state leaves a host port that satisfies it. (derived: R60) -/
def Obligations.HostPortInvariant : Prop :=
    ∀ s t : State, s.host.Inv → step s = .next t → t.host.Inv

/-- For a byte memory in canonical form with any default byte: n bytes written at a read back as the number written modulo 256^n, every byte
outside reads as before, clearing makes exactly the cleared addresses read as the default, and both keep the canonical form.
MB_WINDOW_WRITE, single or quad, of up to 1,024 words from any address of a mailbox window, with the C-die out of reset: the words go to
that address with bits [1:0] taken as zero and, one after another, to addresses 4 higher each that wrap within the window's 4 KiB. While
the mailbox is not BUSY the bytes there take the words and every other byte of the windows is unchanged; while it is BUSY every byte of
the windows is unchanged and WR_BUSY is set in HIF_ERR. An address with bits [1:0] set sets ALIGN. The mailboxes themselves do not
change. (derived: 02_commands.md) -/
def Obligations.WindowMemory : Prop :=
    (∀ (dflt : Byte) (m : Mem) (a n v b : Nat), Mem.wf dflt m = true →
    Mem.readN dflt (Mem.writeN dflt m a n v) a n = v % 256 ^ n ∧
    (b < a ∨ a + n ≤ b → Mem.read dflt (Mem.writeN dflt m a n v) b = Mem.read dflt m b) ∧
    Mem.read dflt (Mem.clear m a n) b = (if a ≤ b ∧ b < a + n then dflt else Mem.read dflt m b) ∧
    Mem.wf dflt (Mem.writeN dflt m a n v) = true ∧ Mem.wf dflt (Mem.clear m a n) = true) ∧
    (∀ (s : State) (dt : Nat) (op : WriteOp) (addr : BitVec 16) (ws : List Word), (s.elapse dt).dev.alive = true → s.host.ignoring = false →
    s.host.Inv → windowAddress addr = true → ws.length ≤ 1024 →
    let first := addr.toNat / 4 * 4
    let place := fun (i : Nat) => first / 4096 * 4096 + (first + 4 * i) % 4096
    let err := if addr.toNat % 4 = 0 then s.host.err else s.host.err ||| .ofNat 32 (2 ^ errAlign)
    Answers (exec (.mbWindowWrite dt op addr ws) s) (fun u =>
      let busy := vget s.host.mb (addr.toNat / 0x1000 - 1) .free = .busy
      (¬ busy → (∀ i, i < ws.length → Mem.readN winDefault u.host.mem (place i) 4 = (ws.getD i 0).toNat) ∧ u.host.err = err ∧
        (∀ a, a < 0x9000 → (∀ i, i < ws.length → a < place i ∨ place i + 4 ≤ a) →
          Mem.read winDefault u.host.mem a = Mem.read winDefault s.host.mem a)) ∧
      (busy → u.host.err = (if ws.isEmpty then err else err ||| .ofNat 32 (2 ^ errWrBusy)) ∧
        (∀ a, a < 0x9000 → Mem.read winDefault u.host.mem a = Mem.read winDefault s.host.mem a)) ∧
      u.host.mb = s.host.mb ∧ u.host.dbRefused = s.host.dbRefused ∧ u.host.irqEn = s.host.irqEn ∧ (s.elapse dt).dev.Keeps u.dev))

/-- HIF_DB_WRITE of any word, with the C-die out of reset: of each bit n set, with READY set and mailbox n FREE, the mailbox becomes BUSY;
of any other set bit, bit n of HIF_DB_REFUSED is set. Mailboxes whose bit is clear or refused keep their state, and refused bits stay
set. The windows below 0x9000, HIF_ERR and HIF_IRQ_EN are unchanged, and everything behind the port but the protocol, the ring, the
queues and the log. HIF_MB_REL_WRITE of any word, with the C-die out of reset: each DONE mailbox whose bit is set becomes FREE, and
every other mailbox keeps its state; HIF_DB_REFUSED, HIF_ERR, HIF_IRQ_EN and every byte of the mailbox windows are unchanged. (derived:
R40, R41, 02_commands.md) -/
def Obligations.MailboxesRungAndReleased : Prop :=
    (∀ (s : State) (dt : Nat) (v : Word), (s.elapse dt).dev.alive = true → s.host.ignoring = false →
    Answers (exec (.hifDbWrite dt v) s) (fun u =>
      (∀ n, n < 8 → let rings := bit v n && s.dev.ready && vget s.host.mb n .busy == .free
        vget u.host.mb n .busy = (if rings then .busy else vget s.host.mb n .busy) ∧
        bit u.host.dbRefused n = (bit s.host.dbRefused n || (bit v n && !rings))) ∧
      u.host.err = s.host.err ∧ u.host.irqEn = s.host.irqEn ∧ u.host.timeHi = s.host.timeHi ∧ u.host.ignoring = false ∧
      (∀ a, a < 0x9000 → Mem.read winDefault u.host.mem a = Mem.read winDefault s.host.mem a) ∧ (s.elapse dt).dev.Keeps u.dev)) ∧
    (∀ (s : State) (dt : Nat) (v : Word), (s.elapse dt).dev.alive = true → s.host.ignoring = false → s.host.Inv →
    Answers (exec (.hifMbRelWrite dt v) s) (fun u =>
      (∀ n, n < 8 → vget u.host.mb n .free =
        (if bit v n = true ∧ vget s.host.mb n .free = .done then .free else vget s.host.mb n .free)) ∧
      u.host.dbRefused = s.host.dbRefused ∧ u.host.err = s.host.err ∧ u.host.irqEn = s.host.irqEn ∧
      (∀ a, a < 0x9000 → Mem.read winDefault u.host.mem a = Mem.read winDefault s.host.mem a) ∧ (s.elapse dt).dev.Keeps u.dev))

/-- HIF_EVT_RD_WRITE of any word, with the C-die out of reset: a value that leaves at most as many unread entries as there are is written,
and no error is set; any other leaves the pointer and sets BAD_RD in HIF_ERR. The pointer is compared where the step itself raises no
event. At most 128 entries are unread afterwards. Mailboxes, HIF_DB_REFUSED and HIF_IRQ_EN are unchanged. HIF_TIME_LO_READ and
HIF_EVT_LOST_READ, single or quad, of up to 1,024 words from any address, with the C-die out of reset: each word returned is that of its
address, which advances by 4 and wraps within its 4 KiB, but for HIF_TIME_HI, which the same burst may have captured. A burst that reads
HIF_TIME_LO puts the high 32 bits of device time into HIF_TIME_HI and any other leaves it; one that reads HIF_EVT_LOST leaves that count
0, where the step itself raises no event. An address with bits [1:0] set sets ALIGN. Mailboxes, HIF_DB_REFUSED, HIF_IRQ_EN and the
windows are unchanged. (derived: 02_commands.md) -/
def Obligations.EventPointerAndCaptures : Prop :=
    (∀ (s : State) (dt : Nat) (v : Word), (s.elapse dt).dev.alive = true → s.host.ignoring = false → s.host.Inv →
    let left := (s.host.evtWr.toNat + 256 - v.toNat % 256) % 256
    Answers (exec (.hifEvtRdWrite dt v) s) (fun u =>
      (left ≤ s.host.unread → u.host.err = s.host.err) ∧
      (s.host.unread < left → u.host.err = s.host.err ||| .ofNat 32 (2 ^ errBadRd)) ∧
      (s.dev.wcp.out = [] → s.dev.Unstreamed →
        u.host.evtRd = (if left ≤ s.host.unread then .ofNat 8 v.toNat else s.host.evtRd) ∧ u.host.evtWr = s.host.evtWr) ∧
      u.host.unread ≤ 128 ∧ u.host.mb = s.host.mb ∧ u.host.dbRefused = s.host.dbRefused ∧ u.host.irqEn = s.host.irqEn ∧
      (s.elapse dt).dev.Keeps u.dev)) ∧
    (∀ (s : State) (dt : Nat) (op : ReadOp) (addr : BitVec 16) (n : Nat) (c : Instr), (s.elapse dt).dev.alive = true → s.host.ignoring = false →
    n ≤ 1024 → c ∈ [Instr.hifTimeLoRead dt op addr n, Instr.hifEvtLostRead dt op addr n] →
    let first := addr.toNat / 4 * 4
    let place := fun (i : Nat) => first / 4096 * 4096 + (first + 4 * i) % 4096
    let t := (s.elapse dt).aligned addr
    Answers (exec c s) (fun u => u.host.lastRead.length = n ∧
      (∀ i, i < n → place i ≠ 0x0114 → u.host.lastRead.getD i 0 = .ofNat 32 (t.hif (place i))) ∧
      ((∃ i, i < n ∧ place i = 0x0110) → u.host.timeHi.toNat = t.dev.time.ns.toNat / 0x100000000) ∧
      ((∀ i, i < n → place i ≠ 0x0110) → u.host.timeHi = s.host.timeHi) ∧
      (s.dev.wcp.out = [] → s.dev.Unstreamed → ∀ i, i < n → place i = 0x0218 → u.host.evtLost = 0) ∧
      u.host.err = t.host.err ∧ u.host.mb = s.host.mb ∧ u.host.dbRefused = s.host.dbRefused ∧ u.host.irqEn = s.host.irqEn ∧
      (∀ a, a < 0x9000 → Mem.read winDefault u.host.mem a = Mem.read winDefault s.host.mem a) ∧ (s.elapse dt).dev.Keeps u.dev))

/-- REGISTER_WRITE, single or quad, with the C-die out of reset: HIF_IRQ_EN takes its defined bits; ones clear bits of HIF_ERR and
HIF_DB_REFUSED; every other address outside the mailbox windows, be it read-only or not listed in Table 2-3, changes no register and,
where the step itself raises no event, no byte of the windows; an address with bits [1:0] set sets ALIGN and otherwise acts as the
aligned one; the words of a burst act one after another at addresses 4 higher each, wrapping within 4 KiB. The mailboxes change only
through HIF_DB and HIF_MB_REL. BAD_OP with an opcode that Table 2-1 does not list sets BAD_OP and the port ignores the transaction;
while it ignores, a register write changes nothing; HOST_CS_N_RELEASE ends that, and sets ABORT exactly when it cuts a written word of a
transaction that was not ignored. (derived: 02_commands.md, R36) -/
def Obligations.RegisterWritesAndSerialFaults : Prop :=
    (∀ (s : State) (dt : Nat) (op : WriteOp) (v : Word), (s.elapse dt).dev.alive = true → s.host.ignoring = false →
    Answers (exec (.registerWrite dt op 0x0108 [v]) s) (fun u => u.host.irqEn = v &&& 0x3FFF ∧ u.host.err = s.host.err ∧ u.host.mb = s.host.mb) ∧
    Answers (exec (.registerWrite dt op 0x010C [v]) s) (fun u => u.host.err = s.host.err &&& ~~~v ∧ u.host.irqEn = s.host.irqEn ∧ u.host.mb = s.host.mb) ∧
    Answers (exec (.registerWrite dt op 0x020C [v]) s) (fun u => u.host.dbRefused = s.host.dbRefused &&& ~~~(v.extractLsb' 0 8) ∧
      u.host.err = s.host.err ∧ u.host.irqEn = s.host.irqEn ∧ u.host.mb = s.host.mb) ∧
    Answers (exec (.registerWrite dt op 0x010F [v]) s) (fun u =>
      u.host.err = (s.host.err ||| .ofNat 32 (2 ^ errAlign)) &&& ~~~v ∧ u.host.irqEn = s.host.irqEn ∧ u.host.mb = s.host.mb) ∧
    (∀ addr : BitVec 16, addr.toNat / 4 * 4 ∉ [0x0104, 0x0108, 0x010C, 0x0200, 0x0204, 0x020C, 0x0214] → windowAddress addr = false →
      Answers (exec (.registerWrite dt op addr [v]) s) (fun u =>
        u.host.err = (if addr.toNat % 4 = 0 then s.host.err else s.host.err ||| .ofNat 32 (2 ^ errAlign)) ∧ u.host.irqEn = s.host.irqEn ∧
        u.host.mb = s.host.mb ∧ u.host.dbRefused = s.host.dbRefused ∧ u.host.timeHi = s.host.timeHi ∧
        (s.dev.wcp.out = [] → s.dev.Unstreamed → u.host.evtRd = s.host.evtRd ∧ u.host.evtWr = s.host.evtWr ∧
          u.host.evtLost = s.host.evtLost ∧ u.host.mem = s.host.mem) ∧ (s.elapse dt).dev.Keeps u.dev)) ∧
    (∀ (addr : BitVec 16) (ws : List Word), exec (.registerWrite dt op addr ws) s =
      .next (State.settle (ws.foldl (fun x w => (x.1.writeAt x.2 w, burstNext x.2)) ((s.elapse dt).aligned addr, addr.toNat / 4 * 4)).1 s.dev))) ∧
    (∀ (s : State) (dt : Nat) (op : Byte) (cut : CutWord), (s.elapse dt).dev.alive = true →
    (s.host.ignoring = false → knownOpcode op = false → Answers (exec (.badOp dt op) s) (fun u =>
      u.host.err = s.host.err ||| .ofNat 32 (2 ^ errBadOp) ∧ u.host.ignoring = true ∧ u.host.mb = s.host.mb ∧ u.host.irqEn = s.host.irqEn)) ∧
    (∀ (w : WriteOp) (addr : BitVec 16) (ws : List Word), s.host.ignoring = true → Answers (exec (.registerWrite dt w addr ws) s) (fun u =>
      u.host.err = s.host.err ∧ u.host.irqEn = s.host.irqEn ∧ u.host.mb = s.host.mb ∧ u.host.dbRefused = s.host.dbRefused)) ∧
    Answers (exec (.hostCsNRelease dt cut) s) (fun u => u.host.ignoring = false ∧
      u.host.err = (if cut = .write ∧ s.host.ignoring = false then s.host.err ||| .ofNat 32 (2 ^ errAbort) else s.host.err) ∧
      u.host.mb = s.host.mb ∧ u.host.irqEn = s.host.irqEn))

/-- For every row of the command protocol but sys.session.open (every query and every change command of the opcode table): where commands
are served, the envelope at the row's origin carries the command, is well formed, belongs to an open session with room, has a valid tag
and a fresh counter, and every check of R440 passes, exec answers the next state in which the counter is consumed, the command's own
effect has taken place on the device, and the response carries the status and result it answers, or S_PENDING. Row by row: with its
command accepted and not turned away as busy, each of the rows of the protocol named in the list, from SYS_IDENT_GET to LOG_MARK,
answers a next state in which the command has run. (derived: R55, R57, R440) -/
def Obligations.AcceptedCommandRuns : Prop :=
    (∀ (i : Instr) (r : WcpRow) (s : State) (e : Env), wcpRow? i = some r → r.cmd.id ≠ 0x0140 → Accepted r.origin r.cmd e (s.elapse r.dt) →
    let d := (s.elapse r.dt).dev
    let x := r.cmd.run (e.ctx d) e.payload (r.cmd.taken e d)
    let key := some (keyBytes (d.session e.session).key)
    (∀ st res, x.2 = .done st res → st ≠ sBusy → exec i s = .next (r.answered s e
      (x.1.modSession e.session (fun q => q.update e.counter (fun y => { y with status := st, result := res.limit })),
        response key e.id e.session e.counter st 0 d.time.ns.toNat res))) ∧
    (∀ k, x.2 = .pend k → Answers (exec i s) (fun u => ∃ d', x.1.Keeps d' ∧ u = r.answered s e
      (d', response key e.id e.session e.counter sPending 0 d.time.ns.toNat Bytes.nil)))) ∧
    (∀ (s : State) (dt : Nat) (o : Origin) (e : Env),
    let rows : List (Instr × WcpRow) := [
        (.sysIdentGet dt o, { dt, origin := o, cmd := cmdIdent }), (.sysStatusGet dt o, { dt, origin := o, cmd := cmdStatus }),
        (.sysSessionStatus dt o, { dt, origin := o, cmd := cmdSessionStatus }),
        (.sysResultGet dt o, { dt, origin := o, cmd := cmdResultGet }),
        (.sysSessionClose dt o, { dt, origin := o, cmd := cmdSessionClose }),
        (.sysPolicySet dt o, { dt, origin := o, cmd := cmdPolicySet }),
        (.sysEventMaskSet dt o, { dt, origin := o, cmd := cmdEventMaskSet }),
        (.sysReset dt o, { dt, origin := o, cmd := cmdReset, after := Device.resetAfterReply }),
        (.scanPlanGet dt o, { dt, origin := o, cmd := cmdPlanGet }), (.fireStatusGet dt o, { dt, origin := o, cmd := cmdFireStatus }),
        (.fireDoseGet dt o, { dt, origin := o, cmd := cmdDoseGet }),
        (.scanCalendarGet dt o, { dt, origin := o, cmd := cmdCalendarGet }),
        (.scanPlanWrite dt o, { dt, origin := o, cmd := cmdPlanWrite }),
        (.scanPlanCommit dt o, { dt, origin := o, cmd := cmdPlanCommit }),
        (.scanPlanSelect dt o, { dt, origin := o, cmd := cmdPlanSelect }),
        (.fireEnable dt o, { dt, origin := o, cmd := cmdFireEnable }), (.fireDisable dt o, { dt, origin := o, cmd := cmdFireDisable }),
        (.scanTriggerSet dt o, { dt, origin := o, cmd := cmdTriggerSet }),
        (.scanFrameTrigger dt o, { dt, origin := o, cmd := cmdFrameTrigger }),
        (.fireDitherSet dt o, { dt, origin := o, cmd := cmdDitherSet }),
        (.fireEmitterSet dt o, { dt, origin := o, cmd := cmdEmitterSet }),
        (.fireBudgetSet dt o, { dt, origin := o, cmd := cmdBudgetSet }),
        (.fireKillClear dt o, { dt, origin := o, cmd := cmdKillClear }),
        (.fireStripeClear dt o, { dt, origin := o, cmd := cmdStripeClear }),
        (.scanFollowSet dt o, { dt, origin := o, cmd := cmdFollowSet }),
        (.scanCalendarSet dt o, { dt, origin := o, cmd := cmdCalendarSet }),
        (.rxStatusGet dt o, { dt, origin := o, cmd := cmdRxStatus }), (.rxLayoutGet dt o, { dt, origin := o, cmd := cmdLayoutGet }),
        (.rxMaskGet dt o, { dt, origin := o, cmd := cmdMaskGet }), (.rxSurveyGet dt o, { dt, origin := o, cmd := cmdSurveyGet }),
        (.rxCoincGet dt o, { dt, origin := o, cmd := cmdCoincGet }), (.rxLensGet dt o, { dt, origin := o, cmd := cmdLensGet }),
        (.rxConfigSet dt o, { dt, origin := o, cmd := cmdRxConfigSet }), (.rxLayoutSet dt o, { dt, origin := o, cmd := cmdLayoutSet }),
        (.rxCoincSet dt o, { dt, origin := o, cmd := cmdCoincSet }), (.rxMaskWrite dt o, { dt, origin := o, cmd := cmdMaskWrite }),
        (.rxMaskCommit dt o, { dt, origin := o, cmd := cmdMaskCommit }),
        (.rxWitnessSet dt o, { dt, origin := o, cmd := cmdWitnessSet }),
        (.rxChannelRetire dt o, { dt, origin := o, cmd := cmdChannelRetire }),
        (.rxChannelRestore dt o, { dt, origin := o, cmd := cmdChannelRestore }),
        (.rxVbdSet dt o, { dt, origin := o, cmd := cmdVbdSet }), (.rxVbdMeasure dt o, { dt, origin := o, cmd := cmdVbdMeasure }),
        (.rxLensSet dt o, { dt, origin := o, cmd := cmdLensSet }), (.histStatusGet dt o, { dt, origin := o, cmd := cmdHistStatus }),
        (.histPlanecfgGet dt o, { dt, origin := o, cmd := cmdPlanecfgGet }),
        (.histGateGet dt o, { dt, origin := o, cmd := cmdGateGet }), (.histPlaneRead dt o, { dt, origin := o, cmd := cmdPlaneRead }),
        (.histTrackGet dt o, { dt, origin := o, cmd := cmdTrackGet }),
        (.histPlanecfgSet dt o, { dt, origin := o, cmd := cmdPlanecfgSet }),
        (.histGateSet dt o, { dt, origin := o, cmd := cmdGateSet }), (.histExportSet dt o, { dt, origin := o, cmd := cmdExportSet }),
        (.histExportEnable dt o, { dt, origin := o, cmd := cmdExportEnable }),
        (.histExportDisable dt o, { dt, origin := o, cmd := cmdExportDisable }),
        (.histPlaneHold dt o, { dt, origin := o, cmd := cmdPlaneHold }),
        (.histPlaneRelease dt o, { dt, origin := o, cmd := cmdPlaneRelease }),
        (.histPlaneSend dt o, { dt, origin := o, cmd := cmdPlaneSend }),
        (.histImportSet dt o, { dt, origin := o, cmd := cmdImportSet }),
        (.histTrackClear dt o, { dt, origin := o, cmd := cmdTrackClear }),
        (.retStatusGet dt o, { dt, origin := o, cmd := cmdRetStatus }),
        (.retTemplateGet dt o, { dt, origin := o, cmd := cmdTemplateGet }),
        (.zoneMapGet dt o, { dt, origin := o, cmd := cmdZoneMapGet }),
        (.zoneStateGet dt o, { dt, origin := o, cmd := cmdZoneStateGet }),
        (.retConfigGet dt o, { dt, origin := o, cmd := cmdRetConfigGet }),
        (.retConfigSet dt o, { dt, origin := o, cmd := cmdRetConfigSet }),
        (.retTemplateSet dt o, { dt, origin := o, cmd := cmdTemplateSet }),
        (.retPointsSet dt o, { dt, origin := o, cmd := cmdPointsSet }), (.retRawSet dt o, { dt, origin := o, cmd := cmdRawSet }),
        (.retWindowLearn dt o, { dt, origin := o, cmd := cmdWindowLearn }),
        (.zoneMapSet dt o, { dt, origin := o, cmd := cmdZoneMapSet }), (.calStatusGet dt o, { dt, origin := o, cmd := cmdCalStatus }),
        (.calCoeffGet dt o, { dt, origin := o, cmd := cmdCalCoeffGet }),
        (.calResultGet dt o, { dt, origin := o, cmd := cmdCalResultGet }),
        (.calCoeffWrite dt o, { dt, origin := o, cmd := cmdCalCoeffWrite }),
        (.calCoeffCommit dt o, { dt, origin := o, cmd := cmdCalCoeffCommit }),
        (.calFullStart dt o, { dt, origin := o, cmd := cmdCalFullStart }),
        (.calFullAbort dt o, { dt, origin := o, cmd := cmdCalFullAbort }),
        (.ringStatusGet dt o, { dt, origin := o, cmd := cmdRingStatus }), (.ringPortGet dt o, { dt, origin := o, cmd := cmdRingPort }),
        (.ringMembersGet dt o, { dt, origin := o, cmd := cmdRingMembers }),
        (.ringResvGet dt o, { dt, origin := o, cmd := cmdRingResv }), (.ringPortSet dt o, { dt, origin := o, cmd := cmdRingPortSet }),
        (.ringPortEnable dt o, { dt, origin := o, cmd := cmdRingPortEnable }),
        (.ringPortDisable dt o, { dt, origin := o, cmd := cmdRingPortDisable }),
        (.ringConfigSet dt o, { dt, origin := o, cmd := cmdRingConfig }),
        (.ringResvSet dt o, { dt, origin := o, cmd := cmdRingResvSet }),
        (.ringResvClear dt o, { dt, origin := o, cmd := cmdRingResvClear }),
        (.ringRouteRebalance dt o, { dt, origin := o, cmd := cmdRebalance }),
        (.qStatusGet dt o, { dt, origin := o, cmd := cmdQStatus }), (.qSubsGet dt o, { dt, origin := o, cmd := cmdQSubs }),
        (.qPoolGet dt o, { dt, origin := o, cmd := cmdQPool }), (.camStatusGet dt o, { dt, origin := o, cmd := cmdCamStatus }),
        (.qConfigSet dt o, { dt, origin := o, cmd := cmdQConfig }), (.qEnable dt o, { dt, origin := o, cmd := cmdQEnable }),
        (.qDisable dt o, { dt, origin := o, cmd := cmdQDisable }), (.qSubscribe dt o, { dt, origin := o, cmd := cmdQSubscribe }),
        (.qUnsubscribe dt o, { dt, origin := o, cmd := cmdQUnsubscribe }), (.qRead dt o, { dt, origin := o, cmd := cmdQRead }),
        (.streamEventsSet dt o, { dt, origin := o, cmd := cmdEventsSet }),
        (.streamMirrorSet dt o, { dt, origin := o, cmd := cmdMirrorSet }),
        (.camPortSet dt o, { dt, origin := o, cmd := cmdCamPortSet }), (.camEnable dt o, { dt, origin := o, cmd := cmdCamEnable }),
        (.camDisable dt o, { dt, origin := o, cmd := cmdCamDisable }), (.camFsyncSet dt o, { dt, origin := o, cmd := cmdFsyncSet }),
        (.lampStatusGet dt o, { dt, origin := o, cmd := cmdLampStatus }),
        (.lampBlockGet dt o, { dt, origin := o, cmd := cmdBlockGet }), (.lampRulesGet dt o, { dt, origin := o, cmd := cmdRulesGet }),
        (.bridgeStatusGet dt o, { dt, origin := o, cmd := cmdBridgeStatus }),
        (.lampBlockWrite dt o, { dt, origin := o, cmd := cmdBlockWrite }),
        (.lampBlockCommit dt o, { dt, origin := o, cmd := cmdBlockCommit }),
        (.lampRulesSet dt o, { dt, origin := o, cmd := cmdRulesSet }),
        (.lampRequestSet dt o, { dt, origin := o, cmd := cmdRequestSet }),
        (.lampFaultClear dt o, { dt, origin := o, cmd := cmdFaultClear }),
        (.lampRemapSet dt o, { dt, origin := o, cmd := cmdRemapSet }),
        (.lampRemapClear dt o, { dt, origin := o, cmd := cmdRemapClear }),
        (.inStatusGet dt o, { dt, origin := o, cmd := cmdInStatus }), (.inConfigGet dt o, { dt, origin := o, cmd := cmdInConfigGet }),
        (.inConfigSet dt o, { dt, origin := o, cmd := cmdInConfigSet }),
        (.adcStatusGet dt o, { dt, origin := o, cmd := cmdAdcStatus }), (.adcResultGet dt o, { dt, origin := o, cmd := cmdAdcResult }),
        (.adcSeqGet dt o, { dt, origin := o, cmd := cmdSeqGet }), (.adcCalGet dt o, { dt, origin := o, cmd := cmdAdcCalGet }),
        (.adcCaptureGet dt o, { dt, origin := o, cmd := cmdCaptureGet }),
        (.adcConfigSet dt o, { dt, origin := o, cmd := cmdAdcConfigSet }), (.adcEnable dt o, { dt, origin := o, cmd := cmdAdcEnable }),
        (.adcDisable dt o, { dt, origin := o, cmd := cmdAdcDisable }), (.adcSeqSet dt o, { dt, origin := o, cmd := cmdSeqSet }),
        (.adcSeqEnable dt o, { dt, origin := o, cmd := cmdSeqEnable }),
        (.adcSeqDisable dt o, { dt, origin := o, cmd := cmdSeqDisable }),
        (.adcSeqTrigger dt o, { dt, origin := o, cmd := cmdSeqTrigger }), (.adcTimerSet dt o, { dt, origin := o, cmd := cmdTimerSet }),
        (.adcExcSet dt o, { dt, origin := o, cmd := cmdExcSet }), (.adcExcEnable dt o, { dt, origin := o, cmd := cmdExcEnable }),
        (.adcExcDisable dt o, { dt, origin := o, cmd := cmdExcDisable }), (.adcCalRun dt o, { dt, origin := o, cmd := cmdCalRun }),
        (.adcCalCommit dt o, { dt, origin := o, cmd := cmdAdcCalCommit }),
        (.adcCaptureArm dt o, { dt, origin := o, cmd := cmdCaptureArm }),
        (.bistStatusGet dt o, { dt, origin := o, cmd := cmdBistStatus }),
        (.bistUnusableGet dt o, { dt, origin := o, cmd := cmdUnusableGet }),
        (.bistResultGet dt o, { dt, origin := o, cmd := cmdBistResult }),
        (.bistConfigSet dt o, { dt, origin := o, cmd := cmdBistConfig }),
        (.bistDirectedRun dt o, { dt, origin := o, cmd := cmdDirectedRun, after := Device.resetAfterReply }),
        (.bistUnusableClear dt o, { dt, origin := o, cmd := cmdUnusableClear }),
        (.secStatusGet dt o, { dt, origin := o, cmd := cmdSecStatus }), (.fwStatusGet dt o, { dt, origin := o, cmd := cmdFwStatus }),
        (.sealIdentGet dt o, { dt, origin := o, cmd := cmdSealIdent }),
        (.secKeyWrite dt o, { dt, origin := o, cmd := cmdKeyWrite, after := Device.closeWritten }),
        (.lcAdvance dt o, { dt, origin := o, cmd := cmdAdvance, after := Device.advanceAndReset }),
        (.fwStageBegin dt o, { dt, origin := o, cmd := cmdStageBegin }),
        (.fwStageWrite dt o, { dt, origin := o, cmd := cmdStageWrite }),
        (.fwStageVerify dt o, { dt, origin := o, cmd := cmdStageVerify }), (.fwSwitch dt o, { dt, origin := o, cmd := cmdFwSwitch }),
        (.fwConfirm dt o, { dt, origin := o, cmd := cmdFwConfirm }), (.sealResvSet dt o, { dt, origin := o, cmd := cmdSealResvSet }),
        (.sealResvClear dt o, { dt, origin := o, cmd := cmdSealResvClear }),
        (.pwrStatusGet dt o, { dt, origin := o, cmd := cmdPwrStatus }),
        (.thermStatusGet dt o, { dt, origin := o, cmd := cmdThermStatus }),
        (.thermConfigSet dt o, { dt, origin := o, cmd := cmdThermConfig }),
        (.thermSensorRestore dt o, { dt, origin := o, cmd := cmdSensorRestore }),
        (.pwrStandby dt o, { dt, origin := o, cmd := cmdStandby, after := Device.standbyAfterReply }),
        (.logStatusGet dt o, { dt, origin := o, cmd := cmdLogStatus }), (.logRead dt o, { dt, origin := o, cmd := cmdLogRead }),
        (.logFfRead dt o, { dt, origin := o, cmd := cmdLogFf }), (.logCountersGet dt o, { dt, origin := o, cmd := cmdLogCounters }),
        (.logMark dt o, { dt, origin := o, cmd := cmdLogMark })]
    ∀ p ∈ rows, Accepted o p.2.cmd e (s.elapse dt) → p.2.busy s e = false → Answers (exec p.1 s) (fun u => p.2.Ran s e u))

/-- For every row of the command protocol with its envelope in a BUSY mailbox, where the command is offered: after the step the mailbox is
DONE, the others are as before, and the window holds the response followed by zeros. (derived: R39) -/
def Obligations.MailboxAnswered : Prop :=
    ∀ (i : Instr) (r : WcpRow) (s : State) (e : Env) (n : Fin 8), wcpRow? i = some r → r.origin = .mailbox n →
    Offered r.origin r.cmd e (s.elapse r.dt) → s.host.Inv →
    let x := (r.cmd.handle r.opens e (s.elapse r.dt).dev).2
    Answers (exec i s) (fun u => u.host.mb = vset s.host.mb n.val .done ∧
      (x.len ≤ 0x1000 → Mem.readN winDefault u.host.mem (0x1000 + 0x1000 * n.val) x.len = x.val % 256 ^ x.len ∧
        (∀ a, 0x1000 + 0x1000 * n.val + x.len ≤ a → a < 0x2000 + 0x1000 * n.val → Mem.read winDefault u.host.mem a = 0)))

/-- For every row of the command protocol and an envelope offered to it: a malformed one is answered S_BAD_PARAM; one of a session number
that is not open S_NO_SESSION; one whose tag does not verify S_BAD_AUTH; a counter not above H and not cached S_STALE. In each case no
part of the device changes but the protocol's own state, the ring, the queues and the log; where a tag is computed, a self-test slice of
the security engine is cut short first (R361). (derived: R50, R55, R361) -/
def Obligations.UnauthenticRefused : Prop :=
    ∀ (i : Instr) (r : WcpRow) (s : State) (e : Env), wcpRow? i = some r → Offered r.origin r.cmd e (s.elapse r.dt) →
    let t := s.elapse r.dt
    let q := t.dev.session e.session
    let served := t.dev.serveOrWait [5]
    let replies := fun (d : Device) (key : Option (List Nat)) (st : Nat) => exec i s = .next (r.answered s e
      (d, response key e.id e.session e.counter st 0 t.dev.time.ns.toNat Bytes.nil)) ∧
      Answers (exec i s) (fun u => d.Keeps u.dev)
    (e.malformed = true → replies t.dev none sBadParam) ∧
    (e.malformed = false → e.session ≠ 0xFF → q.isOpen = false → replies t.dev none sNoSession) ∧
    (e.malformed = false → e.session ≠ 0xFF → q.isOpen = true → e.tagOk (keyBytes q.key) = false → (e.auth || !isQuery e.id || !q.allowUnauth) = true →
      replies served (some (keyBytes q.key)) sBadAuth) ∧
    (e.malformed = false → e.session ≠ 0xFF → q.isOpen = true → e.tagOk (keyBytes q.key) = true → q.find e.counter = none →
      e.counter ≤ q.high.toNat → replies served (some (keyBytes q.key)) sStale)

/-- For every row of the command protocol: an authentic envelope for which one of the checks 1 to 5 of R440 fails is answered with that
check's status, and no part of the device changes but the protocol's own state, the ring, the queues and the log, once a self-test slice
of the security engine has been cut short (R361). For every row of the command protocol and an envelope with a valid tag whose counter
is cached with the same tag: the answer is S_REPLAYED with the original status, time and result, the command is not executed, and no
part of the device changes but the protocol's own state, the ring, the queues and the log, once a self-test slice of the security engine
has been cut short (R361). Cached with another tag it is answered S_STALE. (derived: R440, R55, R361, R56) -/
def Obligations.RefusedAndRepeatedCommands : Prop :=
    (∀ (i : Instr) (r : WcpRow) (s : State) (e : Env) (st : Nat) (res : Bytes), wcpRow? i = some r →
    Offered r.origin r.cmd e (s.elapse r.dt) → Authentic e (s.elapse r.dt).dev →
    let d := (s.elapse r.dt).dev
    r.cmd.early (e.ctx d) e.payload (r.cmd.taken e d) = some (st, res) →
    Answers (exec i s) (fun u => (d.serveOrWait [5]).Keeps u.dev ∧ ∃ d', u = r.answered s e (d', response (some (keyBytes (d.session e.session).key))
      e.id e.session e.counter st 0 d.time.ns.toNat res))) ∧
    (∀ (i : Instr) (r : WcpRow) (s : State) (e : Env) (x : CacheEntry), wcpRow? i = some r →
    Offered r.origin r.cmd e (s.elapse r.dt) → e.malformed = false → e.session ≠ 0xFF → ((s.elapse r.dt).dev.session e.session).isOpen = true →
    e.tagOk (keyBytes ((s.elapse r.dt).dev.session e.session).key) = true → ((s.elapse r.dt).dev.session e.session).find e.counter = some x →
    let t := s.elapse r.dt
    let served := t.dev.serveOrWait [5]
    let key := some (keyBytes (t.dev.session e.session).key)
    (x.tag.toNat = e.tag → exec i s = .next (r.answered s e (served.replayPath e,
      response key e.id e.session e.counter sReplayed x.status x.execTime.toNat x.result))) ∧
    (x.tag.toNat ≠ e.tag → exec i s = .next (r.answered s e (served,
      response key e.id e.session e.counter sStale 0 t.dev.time.ns.toNat Bytes.nil))) ∧
    Answers (exec i s) (fun u => served.Keeps u.dev))

/-- For every query row but sys.result.get, sys.session.status, log.counters.get and the queries of values held as complement pairs: the
firing controller, the receiver, the histogram store, the return processor, calibration, cameras, bridge, field die, self-test,
security, supplies and READY are unchanged, whatever the envelope, but for a self-test slice of the security engine, which a tag cuts
short (R361). (derived: 02_commands.md) -/
def Obligations.QueriesLeaveTheDevice : Prop :=
    ∀ (i : Instr) (r : WcpRow) (s : State) (form : Bytes → Bool) (content : Device → Bytes → Refuse) (get : Device → Bytes → Bytes),
    wcpRow? i = some r → isQuery r.cmd.id = true → r.cmd = Cmd.query r.cmd.id form content get →
    let d := (s.elapse r.dt).dev
    Answers (exec i s) (fun u => d.Keeps u.dev ∨ (d.serveOrWait [5]).Keeps u.dev)

/-- SYS_SESSION_OPEN offered a well-formed envelope with the form of R51, for a slot that opens sessions in the present life-cycle state,
tagged under the slot's key, with a session free: exec answers a next state in which the lowest free session is open for that slot with
H zero, the policy and idle timeout of its payload and no command accepted, and the other sessions are as before, be the command in a
mailbox or the unit of Q0. SESSION_IDLE_TIMEOUT and SESSION_OPEN_TIMEOUT, with the firmware running: a session whose idle timeout has
passed with no command pending, and one opened 10 s ago that has accepted nothing, are closed: their state is erased. Before that time
nothing changes. Every other session stays. (derived: R51, R361, R52) -/
def Obligations.SessionsOpenAndTimeOut : Prop :=
    (∀ (s : State) (dt : Nat) (o : Origin) (e : Env) (k : Nat × KeyCopy) (n : Nat), Offered o cmdSessionOpen e (s.elapse dt) →
    e.malformed = false → openForm e = true → (s.elapse dt).dev.slotOpens (e.payload.byte 0) = true → e.payload.byte 0 ≤ 15 →
    (s.elapse dt).dev.keyCopy (e.payload.byte 0) = some k → e.tagOk (keyBytes k.2.value) = true → (s.elapse dt).dev.freeSession = some n →
    Answers (exec (.sysSessionOpen dt o) s) (fun u => (u.dev.session n).isOpen = true ∧ (u.dev.session n).slot = e.payload.byte 0 ∧
      (u.dev.session n).high = 0 ∧ (u.dev.session n).cache = [] ∧ (u.dev.session n).accepted = false ∧
      (u.dev.session n).allowUnauth = nbit e.payload.val 8 ∧ (u.dev.session n).idle = nfld e.payload.val 31 16 ∧
      (∀ m, m ≠ n → u.dev.session m = s.dev.session m) ∧ ((s.elapse dt).dev.serveOrWait [5]).Keeps u.dev)) ∧
    (∀ (s : State) (dt : Nat) (n : Fin 16), (s.elapse dt).dev.alive = true → s.dev.ready = true →
    let q := s.dev.session n.val
    (q.isOpen = true → q.idle ≠ 0 → q.pending = 0 → q.lastActive + q.idle * second ≤ s.dev.time.clk + dt →
      Answers (exec (.sessionIdleTimeout dt n) s) (fun u => u.dev.session n.val = {} ∧ ∀ m, m ≠ n.val → u.dev.session m = s.dev.session m)) ∧
    (q.isOpen = true → q.accepted = false → q.openedAt + 10 * second ≤ s.dev.time.clk + dt →
      Answers (exec (.sessionOpenTimeout dt n) s) (fun u => u.dev.session n.val = {} ∧ ∀ m, m ≠ n.val → u.dev.session m = s.dev.session m)) ∧
    (s.dev.time.clk + dt < q.lastActive + q.idle * second → Answers (exec (.sessionIdleTimeout dt n) s) (fun u => u.dev.session n.val = q)) ∧
    (s.dev.time.clk + dt < q.openedAt + 10 * second → Answers (exec (.sessionOpenTimeout dt n) s) (fun u => u.dev.session n.val = q)))

/-- With the C-die out of reset, the firing controller ON, no trigger held and no frame running or pending: INTERNAL_TRIGGER once due,
FRAME_SYNC_ASSERT of at least 100 ns, and CALENDAR_INSTANT of a frame not triggered before whose instant lies 2 us after the source took
force, each under its own source, make the frame pending with the trigger's instant; a survey pass and a reference pass end, and a self-
test slice of rows 1, 4 and 6 is served (R361). Nothing else changes but reports. With the C-die out of reset: FRAME_SYNC_ASSERT while
the firing controller is not ON, under a source other than FRAME_SYNC, or shorter than 100 ns; INTERNAL_TRIGGER before its instant or
under another source; CALENDAR_INSTANT under another source: the firing controller keeps its state and no trigger is counted. (derived:
R78, R79, R82, R102, R126, R80) -/
def Obligations.FrameTriggers : Prop :=
    (∀ (s : State) (dt width m at_ : Nat), (s.elapse dt).dev.alive = true → s.dev.fire.fn.st = .on → s.dev.fire.held = none →
    let d := (s.elapse dt).dev
    d.occupied = false →
    let pends := fun (f : Fire) (t : Trig) (u : State) =>
      u.dev.fire = { f with lastTrig := some t.at_, lastAcc := some t.at_, phase := .pending, trig := t } ∧ u.dev.rx = { d.rx with survey := none } ∧
      u.dev.cal = { d.cal with passRun := none } ∧ u.dev.bist = (d.serve [1, 4, 6]).bist ∧ d.OnlyIn (.fire :: .rx :: .cal :: .bist :: reports) u.dev
    (d.fire.trigSrc = 0 → d.fire.internalDue ≤ d.now → Answers (exec (.internalTrigger dt) s) (pends d.fire ⟨d.fire.internalDue, false⟩)) ∧
    (d.fire.trigSrc = 1 → 100 ≤ width → Answers (exec (.frameSyncAssert dt width) s) (pends d.fire ⟨d.now, false⟩)) ∧
    (d.fire.trigSrc = 2 → d.calendarNow = some (m, at_) → d.fire.calM ≠ m + 1 → d.fire.srcAt + 2 * us ≤ at_ →
      Answers (exec (.calendarInstant dt) s) (pends { d.fire with calM := m + 1 } ⟨at_, true⟩))) ∧
    (∀ (s : State) (dt width : Nat), (s.elapse dt).dev.alive = true →
    let d := (s.elapse dt).dev
    ((d.fire.fn.st ≠ .on ∨ d.fire.trigSrc ≠ 1 ∨ width < 100) → Idles (exec (.frameSyncAssert dt width) s) d) ∧
    ((d.fire.fn.st ≠ .on ∨ d.fire.trigSrc ≠ 0 ∨ d.now < d.fire.internalDue) → Idles (exec (.internalTrigger dt) s) d) ∧
    ((d.fire.fn.st ≠ .on ∨ d.fire.trigSrc ≠ 2) → Idles (exec (.calendarInstant dt) s) d))

/-- With the C-die out of reset, the firing controller ON under the FRAME_SYNC source and a frame running or pending, FRAME_SYNC_ASSERT of
at least 100 ns: under SKIP the trigger is counted; under QUEUE1 it is held, and one it replaces is counted; under RESTART it replaces
the trigger of a pending frame, which is counted; it cuts the group of a running frame, which gets FRAME_CUT, its shot queue flushed,
while the trigger is held; in a frame already being cut it is held, and one it replaces is counted; and where no group accumulates the
running frame ends at once, its last group, where its record can still be marked, gets FRAME_CUT (log entry 140: the model's choice in
the last gap), and the trigger makes the next frame pending. Nothing else changes but reports. (derived: R80, R81, R126, R197, R361,
notes/assumptions/140.md) -/
def Obligations.OverlapPolicies : Prop :=
    ∀ (s : State) (dt width : Nat), (s.elapse dt).dev.alive = true → s.dev.fire.fn.st = .on → s.dev.fire.trigSrc = 1 → 100 ≤ width →
    let d := (s.elapse dt).dev
    d.occupied = true →
    let f := d.fire
    let t : Trig := ⟨d.now, false⟩
    let leaves := fun (f' : Fire) => Answers (exec (.frameSyncAssert dt width) s) (fun u => u.dev.fire = f' ∧ d.OnlyIn (.fire :: reports) u.dev)
    (f.trigPol = 0 → leaves { f with counted := f.counted + 1, countedAll := f.countedAll + 1 }) ∧
    (f.trigPol = 1 → f.held = none → leaves { f with lastTrig := some d.now, held := some t }) ∧
    (f.trigPol = 1 → f.held ≠ none →
      leaves { f with lastTrig := some d.now, counted := f.counted + 1, countedAll := f.countedAll + 1, held := some t }) ∧
    (f.trigPol = 2 → f.phase = .pending → Answers (exec (.frameSyncAssert dt width) s) (fun u =>
      u.dev.fire = { f with lastTrig := some d.now, lastAcc := some d.now, counted := f.counted + 1, countedAll := f.countedAll + 1, trig := t } ∧
      d.OnlyIn (.fire :: reports) u.dev)) ∧
    (∀ g, f.trigPol = 2 → f.phase = .running → f.cut = false → f.grp = some g → f.held = none →
      leaves { f with lastTrig := some d.now, held := some t, cut := true, shotQ := [], grp := some { g with flags := setBit g.flags 12 true } }) ∧
    (f.trigPol = 2 → f.phase = .running → f.cut = true → f.held = none → leaves { f with lastTrig := some d.now, held := some t }) ∧
    (f.trigPol = 2 → f.phase = .running → f.cut = true → f.held ≠ none →
      leaves { f with lastTrig := some d.now, counted := f.counted + 1, countedAll := f.countedAll + 1, held := some t }) ∧
    (f.trigPol = 2 → f.phase = .running → f.cut = false → f.grp = none → f.held = none → f.capUntil ≤ d.now → d.sec.switchAt = none →
      Answers (exec (.frameSyncAssert dt width) s) (fun u =>
        u.dev.fire = { f with lastTrig := some d.now, lastAcc := some d.now, phase := .pending, trig := t, shotQ := [], frameEnd := d.now, gapUntil := d.now, heldNow := false } ∧
        u.dev.hist = d.hist.cutLast f.frameNo ∧ u.dev.rx = { d.rx with survey := none } ∧ u.dev.cal.passRun = none ∧
        u.dev.bist = (d.serve [1, 4, 6]).bist ∧ d.OnlyIn (.fire :: .hist :: .rx :: .cal :: .bist :: reports) u.dev))

/-- With the C-die out of reset: ARM_LEAD_EXPIRY without EMIT_FAULT_N, once ARM_LEAD and the wait of R90 have passed in STARTING and no
disable waits, brings the controller ON with no trigger held, nothing counted, frame number 0 and FAULT_STOP clear; before ARM_LEAD has
passed it changes nothing. FIRE_STOP_DONE in STOPPING with no group accumulating brings it OFF, and it may start again 1 ms later.
(derived: R82, R90, R98) -/
def Obligations.FiringStartsAndStops : Prop :=
    ∀ (s : State) (dt : Nat), (s.elapse dt).dev.alive = true →
    let d := (s.elapse dt).dev
    (d.fire.armed d.now = true → d.emitFaultNow = false → d.budgetReady ≤ d.now → d.fire.fn.stopPending = false →
      Answers (exec (.armLeadExpiry dt) s) (fun u =>
      u.dev.fire.fn = { d.fire.fn with st := .on, faultStop := false, restart := false } ∧ u.dev.fire.onAt = d.now ∧
      u.dev.fire.held = none ∧ u.dev.fire.counted = 0 ∧ u.dev.fire.frameNo = 0 ∧ u.dev.fire.phase = .idle ∧
      u.dev.fire.latch = d.fire.latch ∧ u.dev.fire.budget = d.fire.budget ∧
      d.OnlyIn (.fire :: .rx :: .cams :: .ring :: reports) u.dev)) ∧
    (d.fire.armed d.now = false → Idles (exec (.armLeadExpiry dt) s) d) ∧
    (d.fire.fn.st = .stopping → d.fire.grp = none → Answers (exec (.fireStopDone dt) s) (fun u =>
      u.dev.fire.fn.st = .off ∧ u.dev.fire.fn.offUntil = d.now + ms ∧ u.dev.fire.phase = .idle ∧ u.dev.fire.latch = d.fire.latch ∧
      d.OnlyIn (.fire :: .hist :: .ring :: reports) u.dev)) ∧
    (d.fire.fn.st ≠ .stopping → Idles (exec (.fireStopDone dt) s) d)

/-- With the C-die out of reset and the firing controller ON: WITNESS_STRAY_EVENT that completes STUCK_THRESH stray events of its witness
within 4 us latches the kill (unless shutdown-imminent is asserted, when no MRAM is written, R400), brings STOPPING with FAULT_STOP,
flushes the shot queue and releases EMIT_ARM; fewer only enter the window. EMIT_FAULT_N_ASSERT that makes the pin's assertion at least
50 ns long does the same, but latches the kill only with FAULT_KILL set; a shorter one changes nothing but the level of the pin, which
lasts for its width; so does one in a reset, in OFF, in STOPPING, and in STARTING before ARM_LEAD has passed. With the C-die out of
reset: BIAS_FAULT, where none is present and the output has stood more than 250 mV off its target for 1 ms while not slewing, sets the
fault and stops an ON firing controller with FAULT_STOP; BIAS_FAULT_CLEAR, where the output has stood within 100 mV of its target for 10
ms, clears it and leaves the firing controller alone; where its condition is not met neither changes anything. (derived: R95, R96, R97,
R98, R400, R424, R111) -/
def Obligations.FaultsStopFiring : Prop :=
    ((∀ (s : State) (dt width : Nat) (w : Fin 4), (s.elapse dt).dev.alive = true → s.dev.fire.fn.st = .on →
    let d := (s.elapse dt).dev
    let f := d.fire
    let level : Fire := { f with faultAt := if f.faultLevel d.now then f.faultAt else d.now, faultUntil := max f.faultUntil (d.now + width) }
    let l := (d.now :: vget f.stray w.val []).filter (fun t => d.now ≤ t + 4 * us)
    let stops := fun (u : State) => u.dev.fire.fn.st = .stopping ∧ u.dev.fire.fn.faultStop = true ∧ u.dev.fire.fn.restart = false ∧
      u.dev.fire.shotQ = [] ∧ u.dev.fire.armAt = none ∧ u.dev.fire.held = none
    (fld f.emitter 95 88 ≤ l.length → Answers (exec (.witnessStrayEvent dt w) s) (fun u =>
      u.dev.fire.killed = (f.killed || d.power.shut.isNone) ∧ stops u)) ∧
    (l.length < fld f.emitter 95 88 → Answers (exec (.witnessStrayEvent dt w) s) (fun u =>
      u.dev.fire = { f with stray := vset f.stray w.val l } ∧ d.OnlyIn (.fire :: reports) u.dev)) ∧
    (level.faultAt + 50 ≤ level.faultUntil → Answers (exec (.emitFaultNAssert dt width) s) (fun u =>
      u.dev.fire.killed = (f.killed || (bit f.emitter 0 && d.power.shut.isNone)) ∧ stops u)) ∧
    (level.faultUntil < level.faultAt + 50 → Answers (exec (.emitFaultNAssert dt width) s) (fun u =>
      u.dev.fire = level ∧ d.OnlyIn (.fire :: reports) u.dev))) ∧
    (∀ (s : State) (dt width : Nat),
      let d := (s.elapse dt).dev
      let f := d.fire
      (d.alive = false ∨ (f.fn.st ≠ .on ∧ f.armed d.now = false)) → Answers (exec (.emitFaultNAssert dt width) s) (fun u =>
        u.dev.fire = { f with faultAt := if f.faultLevel d.now then f.faultAt else d.now, faultUntil := max f.faultUntil (d.now + width) } ∧
        d.OnlyIn (.fire :: reports) u.dev))) ∧
    (∀ (s : State) (dt held : Nat) (off : Int), (s.elapse dt).dev.alive = true →
    let d := (s.elapse dt).dev
    (d.rx.biasFault = false → d.rx.biasOff off held d.now = true → d.fire.fn.st = .on → Answers (exec (.biasFault dt off held) s) (fun u =>
      u.dev.rx.biasFault = true ∧ u.dev.fire.fn.st = .stopping ∧ u.dev.fire.fn.faultStop = true ∧ u.dev.fire.latch = d.fire.latch)) ∧
    (d.rx.biasFault = true → d.rx.biasNear off held d.now = true → Answers (exec (.biasFaultClear dt off held) s) (fun u =>
      u.dev.rx = { d.rx with biasFault := false } ∧ d.OnlyIn (.rx :: reports) u.dev)) ∧
    (d.rx.biasFault = true ∨ d.rx.biasOff off held d.now = false → Idles (exec (.biasFault dt off held) s) d) ∧
    (d.rx.biasFault = false ∨ d.rx.biasNear off held d.now = false → Idles (exec (.biasFaultClear dt off held) s) d))

/-- DOSE_SUBWINDOW_BOUNDARY with the C-die out of reset: a budget whose complement matches stays in force; one that does not match brings
the safe default into force, in which every sum restarts from zero and the wait of R90 counts from now; the safe default stays until a
budget is written. The stored budget itself does not change. SHOT, once due, with the C-die out of reset and no two slots of the group
on one stripe: one more shot is counted and the dither has advanced eight steps; every slot that fires has a stripe the budget in force
allows, and after the shot the short sum and the long sum of that stripe and the global sum lie within its limits; a slot that does not
fire counts no shot. Energy declared and sums are those of the governor; nothing is said of the light that leaves. (derived: R87, R90,
R91, R85, R88, R89) -/
def Obligations.DoseBudget : Prop :=
    (∀ (s : State) (dt : Nat), (s.elapse dt).dev.alive = true →
    let d := (s.elapse dt).dev
    (d.fire.safeBudget = false → d.fire.budget.ok = true → Answers (exec (.doseSubwindowBoundary dt) s) (fun u =>
      u.dev.fire = d.fire.roll d.govTime)) ∧
    (d.fire.safeBudget = false → d.fire.budget.ok = false → Answers (exec (.doseSubwindowBoundary dt) s) (fun u =>
      u.dev.fire.safeBudget = true ∧ u.dev.fire.budget = d.fire.budget ∧ u.dev.fire.budgetAt = d.now ∧
      (∀ k, u.dev.fire.shortOf k = 0 ∧ u.dev.fire.longOf k = 0) ∧ u.dev.fire.globOf = 0 ∧ u.dev.fire.fn = d.fire.fn)) ∧
    (d.fire.safeBudget = true → Answers (exec (.doseSubwindowBoundary dt) s) (fun u =>
      u.dev.fire = d.fire.roll d.govTime ∧ d.OnlyIn (.fire :: reports) u.dev))) ∧
    (∀ (s : State) (dt : Nat) (w0 w1 w2 w3 : List (Nat × Nat)) (g : Group), (s.elapse dt).dev.alive = true →
    let d := (s.elapse dt).dev
    d.fire.grp = some g → d.fire.shotDue g d.now = true →
    (∀ a b : Fin 4, a ≠ b → g.slots[a].stripe = g.slots[b].stripe → g.slots[a].stripe = idleStripe) →
    Answers (exec (.shot dt w0 w1 w2 w3) s) (fun u => ∃ g' : Group, u.dev.fire.grp = some g' ∧ g'.shots = g.shots + 1 ∧
      u.dev.fire.lfsr = lfsrShot d.fire.lfsr ∧ u.dev.fire.slotClk = d.now ∧ u.dev.fire.budgetNow = d.fire.budgetNow ∧
      ∀ k : Fin 4, g'.slots[k].stripe = g.slots[k].stripe ∧
        (g'.slots[k].firing = false → g'.slots[k].fired = g.slots[k].fired) ∧
        (g'.slots[k].firing = true → g'.slots[k].fired = g.slots[k].fired + 1 ∧
          budAllow d.fire.budgetNow g.slots[k].stripe = true ∧
          u.dev.fire.shortOf g.slots[k].stripe ≤ budShort d.fire.budgetNow ∧
          u.dev.fire.longOf g.slots[k].stripe ≤ budLong d.fire.budgetNow ∧
          u.dev.fire.globOf ≤ budGlobal d.fire.budgetNow * 10000)))

/-- With the C-die out of reset and no trigger held: FRAME_START once due runs the selected plan from its first group, or is counted as held
back while the pair of the next group is not FREE; SHOT_QUEUE_ENQUEUE in a running frame with room takes the next descriptor;
GROUP_START once its gap is over starts the group at the head of the queue on its pair, the bias applied the generator's measured output
(log entry 139: how it slews and ramps is the model's choice), or, while its pair is not FREE, is held back and counted once;
GROUP_ACCUMULATION_END once the last slot is over closes the group. CALENDAR_EPOCH loads the node's seed once (log entry 142: the
model's choice for a calendar that comes late). (derived: R11, R76, R77, R79, R86, R89, R102, R108, R143, notes/assumptions/139.md,
notes/assumptions/142.md) -/
def Obligations.FramesAndGroups : Prop :=
    ∀ (s : State) (dt : Nat) (off : Int), (s.elapse dt).dev.alive = true →
    let d := (s.elapse dt).dev
    let f := d.fire
    (f.held = none → d.frameDue = true → d.pairFree = true → Answers (exec (.frameStart dt) s) (fun u =>
      u.dev.fire.phase = .running ∧ u.dev.fire.running = f.selected ∧ u.dev.fire.cut = false ∧ u.dev.fire.shotQ = [] ∧
      u.dev.fire.enqIdx = 0 ∧ u.dev.fire.firstSlot = some d.now ∧ u.dev.bist.gap = none ∧
      u.dev.fire.frameNo = (if f.firstSlot.isSome then (f.frameNo + 1) % 2 ^ 32 else 0))) ∧
    (f.held = none → d.frameDue = true → d.pairFree = false → f.heldNow = false → Answers (exec (.frameStart dt) s) (fun u =>
      u.dev.fire = { f with heldNow := true, holds := f.holds + 1 } ∧ d.OnlyIn (.fire :: reports) u.dev)) ∧
    (f.phase = .running → f.cut = false → f.fn.st = .on → f.enqIdx < hdrCount (f.header f.running.val) → f.shotQ.length < 64 →
      Answers (exec (.shotQueueEnqueue dt) s) (fun u => u.dev.fire.shotQ.length = f.shotQ.length + 1 ∧
        u.dev.fire.shotQ.take f.shotQ.length = f.shotQ ∧ u.dev.fire.enqIdx = f.enqIdx + 1 ∧ d.OnlyIn (.fire :: reports) u.dev)) ∧
    (∀ q rest, f.fn.st = .on → f.phase = .running → f.cut = false → f.grp = none → f.gapUntil ≤ d.now → f.shotQ = q :: rest →
      d.pairFree = true → Answers (exec (.groupStart dt off) s) (fun u => u.dev.fire.shotQ = rest ∧ u.dev.fire.nextPair = (!f.nextPair) ∧
        u.dev.rx.biasApplied = ({ d.rx with biasTarget := if d.rx.ramp.isSome then u.dev.rx.biasTarget else d.rx.biasTarget } : Rx).biasMeasured off d.now ∧
        ∃ g : Group, u.dev.fire.grp = some g ∧ g.idx = q.idx ∧ g.desc = q.desc ∧ g.pair = f.nextPair ∧
        g.shots = 0 ∧ vget u.dev.hist.pairs f.nextPair.toNat .free = .accumulating)) ∧
    (∀ q rest, f.fn.st = .on → f.phase = .running → f.cut = false → f.grp = none → f.gapUntil ≤ d.now → f.shotQ = q :: rest →
      d.pairFree = false → (f.heldNow = false → Answers (exec (.groupStart dt off) s) (fun u =>
        u.dev.fire = { f with heldNow := true, holds := f.holds + 1 } ∧ d.OnlyIn (.fire :: reports) u.dev)) ∧
      (f.heldNow = true → Idles (exec (.groupStart dt off) s) d)) ∧
    (∀ g, f.grp = some g → f.groupOver g d.now = true → Answers (exec (.groupAccumulationEnd dt) s) (fun u =>
      u.dev.fire.grp = none ∧ vget u.dev.hist.marked g.pair.toNat false = true)) ∧
    (∀ c, f.cal = some c → f.calSeeded = false → fld c 63 0 ≤ d.time.ns.toNat → Answers (exec (.calendarEpoch dt) s) (fun u =>
      let seed := (calEntry c (d.ring.node % 32)).2
      u.dev.fire = { f with calSeeded := true, lfsr := if seed = 0 then f.lfsr else .ofNat 32 seed } ∧ d.OnlyIn (.fire :: reports) u.dev))

/-- PHOTON_EVENT with the C-die out of reset, on an open channel whose slot fires: K_EFF pulses within tau (COINC_WIN) make an event, after
which the detector is silent for tau and the TDC dead for 15.625 ns. With the installed taps its time counts: before 128 ns of the slot
it is a guard event of the shot, at most eight, and counts in its channel's record in the sub-histogram of the shot's parity; from the
emission on, within the window, it is a range event, of which the channel takes at most eight per shot; from 128 ns up to the emission,
after the window, and after the eighth it is lost, but for the silence and the dead time. On a channel that is closed, has no TDC or
whose slot does not fire, with too few pulses within tau, or while the detector is silent, nothing changes; while the TDC is dead only
the silence starts. (The tap table's form is log entry 147's.) (derived: R120, R130, R131, R132, R133, notes/assumptions/147.md) -/
def Obligations.PhotonEvents : Prop :=
    ∀ (s : State) (dt t : Nat) (ages : List Nat) (ch : Fin 1032) (g : Group) (c : ChState), (s.elapse dt).dev.alive = true →
    let d := (s.elapse dt).dev
    d.fire.grp = some g → mget ch.val d.rx.chans = some c →
    let x := vget g.slots (ch.val / 256) {}
    let sh := (mget ch.val d.rx.shot).getD {}
    let win := 8 * coWin g.coinc
    let pulses := (ages.filter (fun a => a ≤ win)).length + 1
    ((x.firing = false ∨ c.kEff = 0 ∨ pulses < c.kEff ∨ t < sh.silent ∨ c.tdc = none) → Idles (exec (.photonEvent dt ch t ages) s) d) ∧
    (x.firing = true → 0 < c.kEff → c.kEff ≤ pulses → sh.silent ≤ t → c.tdc ≠ none → t < sh.dead →
      Answers (exec (.photonEvent dt ch t ages) s) (fun u =>
        mget ch.val u.dev.rx.shot = some { sh with silent := t + win } ∧ d.OnlyIn (.rx :: reports) u.dev)) ∧
    (∀ tdc, x.firing = true → 0 < c.kEff → c.kEff ≤ pulses → sh.silent ≤ t → c.tdc = some tdc → sh.dead ≤ t →
      let at_ := d.rx.tapTime tdc t
      (at_ < 4096 → sh.guard ≤ 8 → Answers (exec (.photonEvent dt ch t ages) s) (fun u =>
        mget ch.val u.dev.rx.shot = some { sh with silent := t + win, dead := t + 500, guard := min 8 (sh.guard + 1) } ∧
        u.dev.hist = (if sh.guard = 8 then d.hist else d.hist.modRec g.pair ch.val (fun r =>
          if d.fire.parity then { r with guardB := r.guardB + 1 } else { r with guardA := r.guardA + 1 })) ∧
        d.OnlyIn (.rx :: .hist :: reports) u.dev)) ∧
      (4096 ≤ at_ → (at_ < x.e ∨ x.e + windowNs (pcFbin g.planecfg) * 32 ≤ at_ ∨ 8 ≤ sh.range) →
        Answers (exec (.photonEvent dt ch t ages) s) (fun u =>
          mget ch.val u.dev.rx.shot = some { sh with silent := t + win, dead := t + 500 } ∧ d.OnlyIn (.rx :: reports) u.dev)) ∧
      (4096 ≤ at_ → x.e ≤ at_ → at_ < x.e + windowNs (pcFbin g.planecfg) * 32 → sh.range < 8 →
        Answers (exec (.photonEvent dt ch t ages) s) (fun u =>
          mget ch.val u.dev.rx.shot = some { sh with silent := t + win, dead := t + 500, range := sh.range + 1 } ∧
          mget ch.val u.dev.hist.x2 = some (((mget ch.val d.hist.x2).getD []) ++ [eventWord g.pair d.fire.parity x.witMiss sh.range (at_ - x.e)]) ∧
          d.OnlyIn (.rx :: .hist :: .ret :: reports) u.dev)))

/-- With the C-die out of reset: a running breakdown measurement ends at the first step of 25 mV, 100 us each, at which 512 of its SPADs
avalanche, with that bias referred to 25 degC and the coefficient in force, stored whatever its value unless shutdown-imminent is
asserted (log entries 145 and 146: the rounding and a value outside 20,000 to 24,000 are the model's choices); T_S on the other side for
1 s makes the hold-off switch due; in a gap with room, no self-test slice of row 1 being due or running in it, a survey pass starts,
targeted channels first, at most four of those a gap, and ends 12 us later counted, a rolling pass advancing by one of 288; 10 s of ON
after its last table a TDC with 65,536 events gets a new table for the next group (its form is log entry 147's); a witness interval of
100 us of device time ends with its counts, outside the blanking of 200 ns from each FIRE edge, and its start, and a count is valid only
for an enabled, usable, undisturbed lamp witness below saturation. Nothing else changes but reports. (derived: R109, R110, R123, R124,
R125, R127, R128, R131, R362, notes/assumptions/145.md, notes/assumptions/146.md, notes/assumptions/147.md) -/
def Obligations.ReceiverUpkeep : Prop :=
    ∀ (s : State) (dt since k : Nat) (est : Int) (cs : List Nat) (tdc : Fin 1032) (w4 w5 w6 w7 : List (Nat × Nat)), (s.elapse dt).dev.alive = true →
    let d := (s.elapse dt).dev
    let r := d.rx
    (r.vbdRun = some (since, est) → cs.findIdx? (fun n => decide (512 ≤ n)) = some k → since + (k + 1) * (100 * us) ≤ d.now → s.dev.ready = true →
      Answers (exec (.rxVbdMeasureDone dt cs) s) (fun u =>
      u.dev.rx = { (if d.power.shut = none then r.setVbd (est - 1000 + 25 * (k : Int) - tcTerm (fld r.vbdNow 63 32) d.ts).toNat (fld r.vbdNow 63 32) else r)
        with vbdRun := none } ∧ d.OnlyIn (.rx :: .fire :: .ring :: .bist :: reports) u.dev)) ∧
    (∀ t, r.crossSince = some t → t + second ≤ d.now → Answers (exec (.holdoffAutoTimer dt) s) (fun u =>
      u.dev.rx = { r with switchDue := true } ∧ d.OnlyIn (.rx :: reports) u.dev)) ∧
    (r.survey = none → d.timingSlice = true → Idles (exec (.surveyPassStart dt) s) d) ∧
    (r.survey = none → d.timingSlice = false → r.gapPasses < d.surveyPasses → d.gapRoom (12 * us) = true → Answers (exec (.surveyPassStart dt) s) (fun u =>
      d.OnlyIn (.rx :: reports) u.dev ∧ u.dev.rx.dyn = r.dyn ∧ u.dev.rx.dynNext = r.dynNext ∧ u.dev.rx.gapPasses = r.gapPasses ∧
      ∃ run, u.dev.rx.survey = some run ∧ run.startedAt = d.now ∧
        run.targets = (if r.targets ≠ [] ∧ r.gapPasses < 4 then (r.targets.take 32).map (fun p => p.1) else []) ∧
        (run.targets = [] → run.spads = (List.range 1024).map (1024 * r.surveyPos + ·)))) ∧
    (∀ run, r.survey = some run → run.startedAt + 12 * us ≤ d.now → Answers (exec (.surveyPassDone dt cs) s) (fun u =>
      d.OnlyIn (.rx :: reports) u.dev ∧ u.dev.rx.survey = none ∧ u.dev.rx.gapPasses = r.gapPasses + 1 ∧ u.dev.rx.dyn = r.dyn ∧
      u.dev.rx.mask = r.mask ∧ u.dev.rx.surveyPos = (if run.targets = [] then (r.surveyPos + 1) % 288 else r.surveyPos))) ∧
    (∀ run, r.survey = some run → d.now < run.startedAt + 12 * us → Idles (exec (.surveyPassDone dt cs) s) d) ∧
    (d.fire.fn.st = .on → (mget tdc.val r.linAt).getD 0 + 10 * second ≤ r.onTime d.now → cs.length = 64 → 65536 ≤ cs.sum →
      Answers (exec (.linearisationUpdate dt tdc cs) s) (fun u => mget tdc.val u.dev.rx.linNext = some (tapTable cs) ∧
        u.dev.rx.lin = r.lin ∧ d.OnlyIn (.rx :: reports) u.dev)) ∧
    (r.witStart + 100 * us ≤ d.time.ns.toNat → Answers (exec (.witnessIntervalEnd dt w4 w5 w6 w7) s) (fun u =>
      u.dev.rx.witTime = .ofNat 32 r.witStart ∧
      (d.time.ns.toNat < r.witStart + 200 * us → u.dev.rx.witStart = r.witStart + 100 * us) ∧ d.OnlyIn (.rx :: reports) u.dev ∧
      ∀ m : Fin 4, u.dev.rx.witCount[m] = r.lampCount m.val (32 * (d.now - (d.time.ns.toNat - r.witStart))) ([w4, w5, w6, w7].getD m.val []) ∧
        (bit u.dev.rx.witValid m.val = true → bit r.wit (8 + m.val) = true ∧ bit r.witDisturbed m.val = false ∧
          u.dev.rx.witCount[m] < 0xFFFF ∧ d.unusable 0 (1028 + m.val) = false))) ∧
    (r.witStart ≤ d.time.ns.toNat → d.time.ns.toNat < r.witStart + 100 * us → Idles (exec (.witnessIntervalEnd dt w4 w5 w6 w7) s) d)

/-- EVENT_WORD_ACCUMULATE with the C-die out of reset, on a channel with a waiting word: the word leaves the queue; where its pair no longer
accumulates it is counted late and no bin changes; where it does, without ZOOM, exactly the bin of its time on its own plane counts one
more. Other channels keep their words. A channel without words changes nothing. With the C-die out of reset: PAIR_HANDOVER hands over a
pair whose group has ended and whose words are in, with the lanes in use at that moment; where no lane is usable it frees the pair once
the group's empty unit has gone, and leaves it where the unit's queue makes it wait; RET_PROCESSING_START takes the oldest handed-over
pair, one at a time; RET_PROCESSING_END frees the pair in processing and counts it processed, at once where the group has no point unit,
else once the unit does not have to wait. (derived: R137, R140, R11, R144, R143, R183, R181, R361) -/
def Obligations.EventWordsAndPairs : Prop :=
    (∀ (s : State) (dt : Nat) (ch : Fin 1024) (w : Word) (rest : List Word), (s.elapse dt).dev.alive = true →
    let d := (s.elapse dt).dev
    let h := d.hist
    let pair := bit w 31
    ((mget ch.val h.x2).getD [] = [] → Idles (exec (.eventWordAccumulate dt ch) s) d) ∧
    (keysAbove none h.x2 → mget ch.val h.x2 = some (w :: rest) → Answers (exec (.eventWordAccumulate dt ch) s) (fun u =>
      mget ch.val u.dev.hist.x2 = (if rest = [] then none else some rest) ∧
      (∀ c, c ≠ ch.val → mget c u.dev.hist.x2 = mget c h.x2) ∧
      (vget h.pairs pair.toNat .free ≠ .accumulating → u.dev.hist.late = h.late + 1 ∧ u.dev.hist.bins = h.bins) ∧
      (∀ g, vget h.pairs pair.toNat .free = .accumulating → vget h.groups pair.toNat none = some g → descZoom g.desc = false →
        u.dev.hist.late = h.late ∧ u.dev.hist.bins = incBin h.bins
          (binKey (2 * pair.toNat + (bit w 30).toNat) ch.val (fld w 15 0 / 2 ^ binShift (pcFbin g.planecfg)))) ∧
      u.dev.hist.pairs = h.pairs ∧ d.OnlyIn (.hist :: reports) u.dev))) ∧
    (∀ (s : State) (dt p : Nat) (g : Group), (s.elapse dt).dev.alive = true → p < 2 →
    let d := (s.elapse dt).dev
    let h := d.hist
    (h.readyPair = some p → vget h.groups p none = some g → d.lanesNow ≠ 0 → Answers (exec (.pairHandover dt) s) (fun u =>
      vget u.dev.hist.pairs p .free = .handed ∧ vget u.dev.hist.marked p true = false ∧
      (∃ g', vget u.dev.hist.groups p none = some g' ∧ g'.handClk = d.now ∧ g'.lanes = d.lanesNow ∧ g'.idx = g.idx ∧ g'.slots = g.slots) ∧
      u.dev.hist.bins = h.bins ∧ u.dev.bist = (d.serve [2, 3]).bist ∧ d.OnlyIn (.hist :: .ret :: .cal :: .bist :: reports) u.dev)) ∧
    (h.readyPair = some p → vget h.groups p none = some g → d.lanesNow = 0 → (d.emptyUnit g).2 ≠ .waits → Answers (exec (.pairHandover dt) s) (fun u =>
      vget u.dev.hist.pairs p .handed = .free ∧ vget u.dev.hist.groups p (some g) = none)) ∧
    (h.readyPair = some p → vget h.groups p none = some g → d.lanesNow = 0 → (d.emptyUnit g).2 = .waits →
      Answers (exec (.pairHandover dt) s) (fun u => d.Keeps u.dev)) ∧
    (h.readyPair = none → Idles (exec (.pairHandover dt) s) d) ∧
    ((∀ q, q < 2 → vget h.pairs q .free ≠ .processing) → h.nextPair = some (p, g) → Answers (exec (.retProcessingStart dt) s) (fun u =>
      vget u.dev.hist.pairs p .free = .processing ∧ u.dev.ret.zoned = false ∧ u.dev.fire = d.fire ∧ u.dev.rx = d.rx ∧ u.dev.cal = d.cal)) ∧
    ((∀ q, q < p → vget h.pairs q .free ≠ .processing) → vget h.pairs p .free = .processing → vget h.groups p none = some g →
      g.pair = (p == 1) → Answers (exec (.retProcessingEnd dt) s) (fun u =>
      let freed := vget u.dev.hist.pairs p .handed = .free ∧ vget u.dev.hist.groups p (some g) = none ∧
        u.dev.ret.processed = d.ret.processed + 1 ∧ u.dev.ret.procTime = d.now - g.handClk
      ((g.calFrame = true ∨ g.points = 0xFFFF) → freed) ∧
      (freed ∨ (u.dev.hist.pairs = h.pairs ∧ u.dev.hist.groups = h.groups ∧ u.dev.ret.zoned = true ∧ u.dev.ret.processed = d.ret.processed)))))

/-- With the C-die out of reset: EXPORT_CHUNK_ENQUEUE to no queue moves on to the next chunk; EXPORT_STOP_TIMEOUT brings a stopping export
OFF once its time is over; PLANE_HOLD_TIMEOUT gives a hold up after 10 s, unless plane 7 is filling for it; IMPORT_CHUNK_DEQUEUE drops a
malformed unit (log entry 101: the model's choice) and stores a chunk of the map under way; IMPORT_SLICE_START takes one of the 16
slices where no pair is handed over or in processing, the slice ends before the next hand-over can come and no self-test slice is
reserved there, and cuts one short that runs there (which requests reach which rows is log entry 170's reading); IMPORT_UNIT_DONE closes
the map after the last. (derived: R154, R155, R157, R159, R184, R361, R362, notes/assumptions/101.md, notes/assumptions/170.md) -/
def Obligations.ExportAndImport : Prop :=
    ∀ (s : State) (dt p since : Nat) (x : ExportUnit) (q : QUnit), (s.elapse dt).dev.alive = true →
    let d := (s.elapse dt).dev
    let h := d.hist
    (h.drains = some 6 → h.p6.unit = some x → h.expSet.queue = 0xFFFF → h.p6.chunk + 1 < h.expSet.chunks →
      Answers (exec (.exportChunkEnqueue dt) s) (fun u => u.dev.hist = { h with p6 := { h.p6 with chunk := h.p6.chunk + 1 } } ∧
        d.OnlyIn (.hist :: reports) u.dev)) ∧
    (h.drains = none → Idles (exec (.exportChunkEnqueue dt) s) d) ∧
    (h.exp.st = .stopping → h.exp.stopBy ≤ d.now → Answers (exec (.exportStopTimeout dt) s) (fun u =>
      u.dev.hist.exp.st = .off ∧ u.dev.hist.exp.offUntil = d.now + 100 * us ∧ u.dev.hist.p6.st ≠ .draining ∧ u.dev.hist.p7.st ≠ .draining)) ∧
    (h.exp.st ≠ .stopping → Idles (exec (.exportStopTimeout dt) s) d) ∧
    (h.hold = some (p, since) → since + 10 * second ≤ d.now → ¬(h.holdTaken = true ∧ h.p7.st = .filling) → Answers (exec (.planeHoldTimeout dt) s) (fun u =>
      u.dev.hist = { h with hold := none, holdTaken := false } ∧ u.dev.wcp.waits.all (fun w => w.kind != .hold) = true)) ∧
    (h.imp.enabled = true → h.imp.owns = true → h.imp.complete = false → h.imp.queue ≠ 0xFFFF →
      (d.queue h.imp.queue).nextFor 33 = some q → chunkOk q.data = false → Answers (exec (.importChunkDequeue dt) s) (fun u =>
      u.dev.hist = h ∧ d.OnlyIn (.ring :: reports) u.dev)) ∧
    (h.imp.enabled = true → h.imp.owns = true → h.imp.complete = false → h.imp.queue ≠ 0xFFFF → h.imp.active = false →
      (d.queue h.imp.queue).nextFor 33 = some q → chunkOk q.data = true → ckSrc (q.data.slice 0 32).val = 0 → h.imp.source = 0xFF →
      Answers (exec (.importChunkDequeue dt) s) (fun u => u.dev.hist.imp.active = true ∧
        u.dev.hist.imp.hdr = .ofNat 256 (q.data.slice 0 32).val ∧ u.dev.hist.imp.got.contains (ckChunk (q.data.slice 0 32).val) = true ∧
        u.dev.hist.pairs = h.pairs)) ∧
    (h.imp.complete = true → h.imp.slices < 16 → d.ret.lanes ≠ 0 → d.nextHandover.all (fun t => decide (d.now + d.sliceTime ≤ t)) = true →
      h.imp.sliceUntil ≤ d.now → d.bist.reservedIn [2, 3] = false →
      vget h.pairs 0 .free = .free → vget h.pairs 1 .free = .free → Answers (exec (.importSliceStart dt) s) (fun u =>
      u.dev.hist = { h with imp := { h.imp with slices := h.imp.slices + 1, sliceUntil := d.now + d.sliceTime } } ∧
      u.dev.bist = (d.serve [2, 3]).bist ∧ d.OnlyIn (.hist :: .bist :: reports) u.dev)) ∧
    (d.bist.reservedIn [2, 3] = true → Idles (exec (.importSliceStart dt) s) d) ∧
    (h.imp.complete = true → 16 ≤ h.imp.slices → h.imp.sliceUntil ≤ d.now → h.imp.points = 0xFFFF → Answers (exec (.importUnitDone dt) s) (fun u =>
      u.dev.hist.imported = h.imported + 1 ∧ u.dev.hist.imp.complete = false ∧ u.dev.hist.imp.active = false ∧
      u.dev.hist.imp.slices = 0 ∧ d.OnlyIn (.hist :: reports) u.dev)) ∧
    (h.imp.complete = false → Idles (exec (.importUnitDone dt) s) d)

/-- With the C-die out of reset: ZONE_BLIND_TIMEOUT makes a zone BLIND once the BLIND_MS of the map of its last valid look have passed since
that look, and leaves every other zone and all OCCUPIED states as they are; WINDOW_LEARN_DONE after 25 frames stores the mean of each
slot as baseline, unless shutdown-imminent is asserted, and completes the command, and before that changes nothing. (Which map counts is
log entry 51's choice, the rounding of the mean log entry 13's.) (derived: R188, R192, R400, notes/assumptions/51.md,
notes/assumptions/13.md) -/
def Obligations.ZonesAndWindow : Prop :=
    ∀ (s : State) (dt t map n : Nat) (z : Fin 64) (sums : List Int), (s.elapse dt).dev.alive = true →
    let d := (s.elapse dt).dev
    let m := (d.ret.zmapNow map).1
    (vget d.ret.lastLook z.val none = some (t, map) → t + zmBlindMs m * ms ≤ d.time.ns.toNat →
      Answers (exec (.zoneBlindTimeout dt z) s) (fun u => nbit (fld u.dev.ret.occ.v 127 64) z.val = true ∧
        (∀ i, i < 64 → i ≠ z.val → nbit (fld u.dev.ret.occ.v 127 64) i = nbit (fld d.ret.occ.v 127 64) i) ∧
        fld u.dev.ret.occ.v 63 0 = fld d.ret.occ.v 63 0 ∧ u.dev.ret.zmaps = d.ret.zmaps ∧
        u.dev.fire = d.fire ∧ u.dev.rx = d.rx ∧ u.dev.hist = d.hist)) ∧
    (vget d.ret.lastLook z.val none = none → Idles (exec (.zoneBlindTimeout dt z) s) d) ∧
    (d.ret.learn = some (n, sums) → 25 ≤ n → d.power.shut = none → Answers (exec (.windowLearnDone dt) s) (fun u => u.dev.ret.learn = none ∧
      (∀ k : Fin 4, (u.dev.ret.baseline[k]).v.toNat % 2 ^ 63 = (roundInt ((sums[k.val]?).getD 0) 25 % 2 ^ 63).toNat ∧ (u.dev.ret.baseline[k]).ok = true) ∧
      u.dev.ret.zmaps = d.ret.zmaps ∧ d.OnlyIn (.ret :: .ring :: .bist :: reports) u.dev)) ∧
    (d.ret.learn = some (n, sums) → 25 ≤ n → d.power.shut ≠ none → Answers (exec (.windowLearnDone dt) s) (fun u =>
      u.dev.ret = { d.ret with learn := none })) ∧
    (d.ret.learn = some (n, sums) → n < 25 → Idles (exec (.windowLearnDone dt) s) d)

/-- With the C-die out of reset, on a port in use: SIGNAL_DETECT in TRAINING notes the signal; TRAINING_COMPLETE then goes to ALIGNING;
MARKER_LOCK on a marker with the pattern goes to LINKED and knows the neighbour; LINK_DELAY_AVERAGED after 256 delays of a node that has
its number makes it MEMBER: at its first link the node is on the ring and steps its time once, if its number came with a step, by its
offset; at a chain's closing link HEAL makes the topology a RING. LINK_FAILURE takes a live link, a MEMBER one too, down to TRAINING
with its queues discarded, and a member raises the generation; STARTING_RETRY_TIMER trains again every second, or stops a port whose
disable waits. In every other state these commands change nothing. (derived: R226, R227, R26, R236) -/
def Obligations.LinkBringUp : Prop :=
    ∀ (s : State) (dt : Nat) (p : Port) (f : BitVec 512), (s.elapse dt).dev.alive = true →
    let d := (s.elapse dt).dev
    let x := d.port (portNo p)
    let at_ := fun (u : State) => (u.dev.port (portNo p)).base
    let other := d.port (1 - portNo p)
    let heal := d.linkEnds (portNo p)
    let averaged := x.link = .linked ∧ d.ring.granted = true ∧ 256 ≤ x.delays.length
    (x.active = true → x.link = .training → Answers (exec (.signalDetect dt p) s) (fun u =>
      at_ u = ({ x with signal := true } : RPort).base ∧ (u.dev.port (1 - portNo p)).base = other.base ∧ d.OnlyIn reports u.dev)) ∧
    ((x.active = false ∨ x.link ≠ .training) → Idles (exec (.signalDetect dt p) s) d) ∧
    (x.active = true → x.link = .training → x.signal = true → Answers (exec (.trainingComplete dt p) s) (fun u =>
      at_ u = ({ x with link := .aligning, failed := false } : RPort).base ∧ (u.dev.port (1 - portNo p)).base = other.base ∧
      d.OnlyIn reports u.dev)) ∧
    ((x.active = false ∨ x.link ≠ .training ∨ x.signal = false) → Idles (exec (.trainingComplete dt p) s) d) ∧
    (x.link = .aligning → markerOk f = true → Answers (exec (.markerLock dt p f) s) (fun u =>
      (at_ u).link = .linked ∧ (at_ u).neighUid = .ofNat 64 (fld f 159 96) ∧ (at_ u).missed = 0 ∧ (at_ u).fn = x.fn ∧
      d.OnlyIn (.ring :: .fire :: reports) u.dev)) ∧
    ((x.link ≠ .aligning ∨ markerOk f = false) → Idles (exec (.markerLock dt p f) s) d) ∧
    (averaged → d.ring.onring = true → x.fn.stopPending = false → Answers (exec (.linkDelayAveraged dt p) s) (fun u =>
      (at_ u).link = .member ∧ u.dev.ring.onring = true ∧ u.dev.time = d.time)) ∧
    (averaged → d.ring.onring = false → x.fn.stopPending = false → Answers (exec (.linkDelayAveraged dt p) s) (fun u =>
      let steps := d.ring.stepFlag && !d.ring.locked && !d.ring.head
      let now96 := ((d.time.ns.toNat * 2 ^ 32 + d.time.frac.toNat : Int) + d.offsetNow (portNo p) * 65536) % 2 ^ 96
      (at_ u).link = .member ∧ u.dev.ring.onring = true ∧ u.dev.time.inc = d.time.inc ∧
      (steps = true → u.dev.time.epoch = d.time.epoch + 1 ∧ u.dev.time.ns = .ofNat 64 (now96.toNat / 2 ^ 32) ∧
        u.dev.time.frac = .ofNat 32 now96.toNat) ∧
      (steps = false → u.dev.time = d.time))) ∧
    (averaged → d.ring.onring = true → d.ring.closed = false → 2 ≤ d.ring.members.length → d.ring.beside heal.1 true = heal.2 →
      d.ring.brkWest = heal.1 → x.fn.stopPending = false → other.fn.stopPending = false →
      Answers (exec (.linkDelayAveraged dt p) s) (fun u => (at_ u).link = .member ∧ u.dev.ring.closed = true ∧ u.dev.ring.brk = none ∧
        u.dev.ring.gen = d.ring.gen + 1 ∧ u.dev.ring.members = d.ring.members)) ∧
    (¬ averaged → Idles (exec (.linkDelayAveraged dt p) s) d) ∧
    (x.live = true → ∀ c, Answers (exec (.linkFailure dt p c) s) (fun u =>
      (at_ u).link = .training ∧ (at_ u).x6 = [] ∧ (at_ u).x8 = [] ∧ (at_ u).failed = true ∧ (at_ u).fn = x.fn ∧
      (x.link = .member → d.ring.onring = true → u.dev.ring.gen = d.ring.gen + 1))) ∧
    (x.live = false → ∀ c, Idles (exec (.linkFailure dt p c) s) d) ∧
    (∀ t, x.fn.st = .starting → x.fn.stopPending = false → x.live = false → x.retryAt = some t → t ≤ d.now →
      Answers (exec (.startingRetryTimer dt p) s) (fun u =>
      at_ u = ({ x with link := .training, signal := false, retryAt := some (d.now + second) } : RPort).base ∧ d.OnlyIn reports u.dev)) ∧
    (∀ t, x.fn.st = .starting → x.fn.stopPending = false → x.live = true → x.retryAt = some t → t ≤ d.now →
      Answers (exec (.startingRetryTimer dt p) s) (fun u =>
      at_ u = ({ x with retryAt := some (d.now + second) } : RPort).base ∧ d.OnlyIn reports u.dev)) ∧
    (∀ t, x.fn.st = .starting → x.fn.stopPending = true → x.retryAt = some t → t ≤ d.now →
      Answers (exec (.startingRetryTimer dt p) s) (fun u => (at_ u).fn.st = .stopping ∧ (at_ u).fn.stopBy = d.now + 2 * ms)) ∧
    ((x.fn.st ≠ .starting ∨ x.retryAt.all (fun t => decide (d.now < t)) = true) → Idles (exec (.startingRetryTimer dt p) s) d)

/-- With the C-die out of reset, on a live port, a member one too: a MARKER in sequence, without BREAK_SEEN and LEAVE, clears the missed
count and records what the neighbour says; one with the pattern but another number than the next counts as missed and is taken all the
same; one without the pattern counts as missed and says nothing; the third in a row that is missed, the second in a row with BREAK_SEEN,
and one with LEAVE take the link down; a TIME_FLIT that answers a stamp of this node adds one link delay, half of the difference of the
two round trips; TIME_SERVO_UPDATE every 256 superframes sets the increment from the offset to the parent, within 250 ppm, the 64th
offset in a row below 1 ns locks, and the eighth in a row above 2 ns unlocks; TIME_HOLDOVER_TIMEOUT one second without a path to a head
clears the lock. (derived: R218, R227, R241, R242, R243, R24) -/
def Obligations.MarkersAndTime : Prop :=
    ∀ (s : State) (dt : Nat) (p : Port) (f : BitVec 512), (s.elapse dt).dev.alive = true →
    let d := (s.elapse dt).dev
    let x := d.port (portNo p)
    let at_ := fun (u : State) => u.dev.port (portNo p)
    let heard := fun (u : State) => (at_ u).link = x.link ∧ (at_ u).rxSf = some (.ofNat 32 (fld f 95 64)) ∧
      (at_ u).neighbour = fld f 167 160 ∧ (at_ u).rxAt = d.time16 ∧ (at_ u).rxFlags = fld f 213 208
    let down := Answers (exec (.marker dt p f) s) (fun u => (at_ u).link = .training ∧ (at_ u).missed = 0 ∧ (at_ u).x8 = [] ∧ (at_ u).fn.st = x.fn.st)
    (∀ n, x.live = true → markerOk f = true → x.rxSf = some n → fld f 95 64 = (n.toNat + 1) % 2 ^ 32 → bit f 212 = false → bit f 211 = false →
      Answers (exec (.marker dt p f) s) (fun u => (at_ u).missed = 0 ∧ (at_ u).breaks = 0 ∧ heard u)) ∧
    (∀ n, x.live = true → markerOk f = true → x.rxSf = some n → fld f 95 64 = (n.toNat + 1) % 2 ^ 32 → bit f 212 = true → x.breaks = 0 →
      bit f 211 = false → Answers (exec (.marker dt p f) s) (fun u => (at_ u).missed = 0 ∧ (at_ u).breaks = 1 ∧ heard u)) ∧
    (∀ n, x.live = true → markerOk f = true → x.rxSf = some n → fld f 95 64 ≠ (n.toNat + 1) % 2 ^ 32 → x.missed < 2 → bit f 212 = false →
      bit f 211 = false → Answers (exec (.marker dt p f) s) (fun u => (at_ u).missed = x.missed + 1 ∧ (at_ u).breaks = 0 ∧ heard u)) ∧
    (x.live = true → markerOk f = false → x.missed < 2 → Answers (exec (.marker dt p f) s) (fun u =>
      (at_ u).base = ({ x with missed := x.missed + 1, breaks := 0 } : RPort).base ∧ d.OnlyIn (.ring :: reports) u.dev)) ∧
    (x.live = true → markerOk f = false → 2 ≤ x.missed → down) ∧
    (∀ n, x.live = true → markerOk f = true → x.rxSf = some n → fld f 95 64 ≠ (n.toNat + 1) % 2 ^ 32 → 2 ≤ x.missed → down) ∧
    (x.live = true → markerOk f = true → bit f 212 = true → 1 ≤ x.breaks → down) ∧
    (x.live = true → markerOk f = true → bit f 211 = true → down) ∧
    (x.live = false → Idles (exec (.marker dt p f) s) d ∧ Idles (exec (.timeFlit dt p f) s) d) ∧
    (∀ t1, x.live = true → mget (fld f 111 80) x.txTimes = some t1 → Answers (exec (.timeFlit dt p f) s) (fun u =>
      let t3 := fld f 63 0 * 65536 + fld f 79 64
      let t2 := fld f 175 112 * 65536 + fld f 191 176
      (at_ u).peerTx = t3 ∧ (at_ u).delays = ((((x.rxAt : Int) - t1) - ((t3 : Int) - t2)) / 2 :: x.delays).take 256 ∧
      (at_ u).delay = meanDelay (at_ u).delays ∧ (at_ u).link = x.link ∧ d.OnlyIn (.ring :: reports) u.dev)) ∧
    (d.ring.onring = true → d.ring.head = false → d.ring.hops ≠ 0xFF → 256 ≤ d.ring.servoSf → d.ring.locked = true →
      (d.offsetNow d.ring.parent).natAbs ≤ 131072 → Answers (exec (.timeServoUpdate dt) s) (fun u =>
      u.dev.ring.offset = d.offsetNow d.ring.parent ∧ u.dev.ring.servoSf = 0 ∧ u.dev.ring.locked = true ∧ u.dev.ring.outLock = 0 ∧
      4294967296 - 1073741 ≤ u.dev.time.inc ∧ u.dev.time.inc ≤ 4294967296 + 1073741 ∧ u.dev.time.ns = d.time.ns ∧
      d.OnlyIn (.time :: .ring :: reports) u.dev)) ∧
    (d.ring.onring = true → d.ring.head = false → d.ring.hops ≠ 0xFF → 256 ≤ d.ring.servoSf → d.ring.locked = false →
      (d.offsetNow d.ring.parent).natAbs < 65536 → Answers (exec (.timeServoUpdate dt) s) (fun u =>
      u.dev.ring.offset = d.offsetNow d.ring.parent ∧ u.dev.ring.servoSf = 0 ∧ u.dev.ring.inLock = d.ring.inLock + 1 ∧
      u.dev.ring.locked = decide (63 ≤ d.ring.inLock) ∧
      4294967296 - 1073741 ≤ u.dev.time.inc ∧ u.dev.time.inc ≤ 4294967296 + 1073741 ∧ u.dev.time.ns = d.time.ns)) ∧
    (d.ring.onring = true → d.ring.head = false → d.ring.hops ≠ 0xFF → 256 ≤ d.ring.servoSf → d.ring.locked = false →
      65536 ≤ (d.offsetNow d.ring.parent).natAbs → d.ring.inLock < 64 → Answers (exec (.timeServoUpdate dt) s) (fun u =>
      u.dev.ring.inLock = 0 ∧ u.dev.ring.locked = false ∧ u.dev.time.ns = d.time.ns)) ∧
    (d.ring.onring = true → d.ring.head = false → d.ring.hops ≠ 0xFF → 256 ≤ d.ring.servoSf → d.ring.locked = true →
      131072 < (d.offsetNow d.ring.parent).natAbs → Answers (exec (.timeServoUpdate dt) s) (fun u =>
      u.dev.ring.outLock = d.ring.outLock + 1 ∧ u.dev.ring.locked = decide (d.ring.outLock < 7) ∧ u.dev.time.ns = d.time.ns)) ∧
    ((d.ring.onring = false ∨ d.ring.head = true) → Idles (exec (.timeServoUpdate dt) s) d) ∧
    (∀ t, d.ring.noPathSince = some t → t + second ≤ d.now → d.ring.locked = true → Answers (exec (.timeHoldoverTimeout dt) s) (fun u =>
      { u.dev.ring with ports := d.ring.ports } = { d.ring with locked := false, inLock := 0 } ∧ d.OnlyIn (.ring :: reports) u.dev))

/-- A message not seen before, on a live port of its type, with the C-die out of reset: JOIN_ACK for this node gives it its number, or sends
it back for a second, and for another node changes nothing of this one's membership, be it granted or refused there; LEAVE takes the
member named off the table of another member; BREAK opens a closed ring at the link named, of two members, HEAL closes a chain; MEMBERS
and CALENDAR chunks are gathered in order and dropped out of order; RESV_REQ at a node that is no head, and RESV_ANS and ALLOWANCE at
the head, change no reservation; an ALLOWANCE sets both allowances of a member; JOIN_REQ leaves the table of a node that is no head
alone, and a full ring refuses; ELECT replaces the best candidate by a better one only, better, without a head in sight, than this node
itself too. Who sees the head is log entry 112, what has been seen before log entry 113. With any message of the Waitik Ring: where the
port is not live, the flit is of another type, or the message has been seen before, its command changes nothing. (derived: R229, R230,
R231, R232, R235, R236, R237, R238, R245, notes/assumptions/112.md, notes/assumptions/113.md, R219) -/
def Obligations.RingMessages : Prop :=
    (∀ (s : State) (dt : Nat) (p : Port) (f : BitVec 512), (s.elapse dt).dev.alive = true →
    let d := (s.elapse dt).dev
    let r := d.ring
    (d.port (portNo p)).live = true → r.seen.contains (topoKey f) = false →
    (fld f 7 0 = 2 → topoBody f 63 0 = Config.uid.toNat → r.head = false → r.granted = false → topoBody f 71 64 ≠ 0xFE →
      Answers (exec (.joinAck dt p f) s) (fun u => u.dev.ring.granted = true ∧ u.dev.ring.node = topoBody f 71 64 % 32 ∧ u.dev.ring.joinAt = none)) ∧
    (fld f 7 0 = 2 → topoBody f 63 0 = Config.uid.toNat → r.head = false → topoBody f 71 64 = 0xFE →
      Answers (exec (.joinAck dt p f) s) (fun u => u.dev.ring.granted = r.granted ∧ u.dev.ring.joinAt = some (d.now + second))) ∧
    (fld f 7 0 = 2 → topoBody f 63 0 ≠ Config.uid.toNat → Answers (exec (.joinAck dt p f) s) (fun u =>
      u.dev.ring.granted = r.granted ∧ u.dev.ring.node = r.node ∧ u.dev.ring.joinAt = r.joinAt ∧ u.dev.ring.members = r.members ∧
      u.dev.ring.head = r.head ∧ d.OnlyIn (.ring :: reports) u.dev)) ∧
    (fld f 7 0 = 3 → r.granted = false → Answers (exec (.leave dt p f) s) (fun u => u.dev.ring.members = r.members ∧ d.OnlyIn (.ring :: reports) u.dev)) ∧
    (fld f 7 0 = 3 → r.granted = true → r.head = false → topoBody f 7 0 ≠ r.node → Answers (exec (.leave dt p f) s) (fun u =>
      ∀ m ∈ u.dev.ring.members, m.node ≠ topoBody f 7 0)) ∧
    (fld f 7 0 = 4 → r.onring = true → r.head = false → r.closed = true → r.brk = none →
      (r.place (topoBody f 7 0)).isSome = true → (r.place (topoBody f 15 8)).isSome = true → Answers (exec (.breakMsg dt p f) s) (fun u =>
      u.dev.ring.closed = false ∧ u.dev.ring.brk = some (topoBody f 7 0, topoBody f 15 8) ∧ u.dev.ring.members = r.members)) ∧
    (fld f 7 0 = 5 → r.onring = true → r.closed = false → Answers (exec (.heal dt p f) s) (fun u =>
      u.dev.ring.closed = true ∧ u.dev.ring.brk = none ∧ u.dev.ring.members = r.members)) ∧
    (fld f 7 0 = 6 → topoBody f 7 0 ≠ 0 → r.memberChunks.length ≠ topoBody f 7 0 → Answers (exec (.members dt p f) s) (fun u =>
      u.dev.ring.memberChunks = [] ∧ u.dev.ring.members = r.members)) ∧
    (fld f 7 0 = 6 → topoBody f 7 0 = 0 → (chunkMembers f).length = 3 → Answers (exec (.members dt p f) s) (fun u =>
      u.dev.ring.memberChunks = [(0, chunkMembers f)] ∧ u.dev.ring.members = r.members ∧ d.OnlyIn (.ring :: reports) u.dev)) ∧
    (fld f 7 0 = 7 → r.head = false → topoBody f 7 0 = 0 → Answers (exec (.calendar dt p f) s) (fun u =>
      u.dev.ring.calChunks = [(0, .ofNat 384 (topoBody f 391 8))] ∧ u.dev.fire.cal = d.fire.cal ∧ d.OnlyIn (.ring :: reports) u.dev)) ∧
    (fld f 7 0 = 7 → (r.head = true ∨ (topoBody f 7 0 ≠ 0 ∧ r.calChunks.length ≠ topoBody f 7 0)) →
      Answers (exec (.calendar dt p f) s) (fun u => u.dev.ring.calChunks = [] ∧ u.dev.fire.cal = d.fire.cal ∧ d.OnlyIn (.ring :: reports) u.dev)) ∧
    (fld f 7 0 = 8 → r.head = false → Answers (exec (.resvReq dt p f) s) (fun u =>
      u.dev.ring.resv = r.resv ∧ u.dev.sec.resv = d.sec.resv ∧ d.OnlyIn (.ring :: reports) u.dev)) ∧
    (fld f 7 0 = 9 → r.head = true → Answers (exec (.resvAns dt p f) s) (fun u =>
      u.dev.ring.resv = r.resv ∧ u.dev.sec.resv = d.sec.resv ∧ d.OnlyIn (.ring :: reports) u.dev)) ∧
    (fld f 7 0 = 10 → r.head = false → r.granted = true → Answers (exec (.allowance dt p f) s) (fun u =>
      u.dev.ring.allowE = topoBody f 31 0 ∧ u.dev.ring.allowW = topoBody f 63 32 ∧ u.dev.ring.resv = r.resv ∧ d.OnlyIn (.ring :: reports) u.dev)) ∧
    (fld f 7 0 = 1 → (r.head = false ∨ r.grantNumber (.ofNat 64 (topoBody f 63 0)) (topoBody f 71 64) = none) →
      Answers (exec (.joinReq dt p f) s) (fun u => u.dev.ring.members = r.members ∧ d.OnlyIn (.ring :: reports) u.dev)) ∧
    (fld f 7 0 = 11 → r.headUid = .ofNat 64 (topoBody f 63 0) → r.head = false →
      let c := (topoBody f 71 64, BitVec.ofNat 64 (topoBody f 63 0))
      Answers (exec (.elect dt p f) s) (fun u => u.dev.ring.best =
          (if (if d.headSeen then r.best else r.bestKnown).all (fun b => better c b) then some c else r.best) ∧
        u.dev.ring.members = r.members ∧ d.OnlyIn (.ring :: reports) u.dev))) ∧
    (∀ (s : State) (dt : Nat) (p : Port) (f : BitVec 512),
    let d := (s.elapse dt).dev
    let stale := fun (type : Nat) => (d.port (portNo p)).live = false ∨ fld f 7 0 ≠ type ∨ d.ring.seen.contains (topoKey f) = true
    (stale 1 → Idles (exec (.joinReq dt p f) s) d) ∧ (stale 2 → Idles (exec (.joinAck dt p f) s) d) ∧
    (stale 3 → Idles (exec (.leave dt p f) s) d) ∧ (stale 4 → Idles (exec (.breakMsg dt p f) s) d) ∧
    (stale 5 → Idles (exec (.heal dt p f) s) d) ∧ (stale 6 → Idles (exec (.members dt p f) s) d) ∧
    (stale 7 → Idles (exec (.calendar dt p f) s) d) ∧ (stale 8 → Idles (exec (.resvReq dt p f) s) d) ∧
    (stale 9 → Idles (exec (.resvAns dt p f) s) d) ∧ (stale 10 → Idles (exec (.allowance dt p f) s) d) ∧
    (stale 11 → Idles (exec (.elect dt p f) s) d))

/-- With the C-die out of reset: HEAD_LOSS_TIMEOUT after 64 superframes without a head starts an election; ELECT_TIMEOUT makes the best
candidate head, as node 0 at the nominal rate; NO_HEAD_REPORT reports once every 10 s that there is no candidate; JOIN_RETRY_TIMER asks
again; NODE_HOLD_EXPIRY frees a number whose time is over; MEMBERS_REPEAT and CALENDAR_REPEAT are due again after 100 ms; DEGRADE_WINDOW
counts its symbols and codewords and sets and clears the degraded state a decade apart; RING_PORT_STOP_DONE brings a stopping port OFF
for at least 10 ms, once its link is dead, its queues are drained or its 2 ms are over, and a live one sends a last marker with LEAVE; a
CREDIT_FLIT entry for this node adds its cells to the credit of the subscriber it names (log entry 59: the model's choice where several
match) or completes its credit reset, one for another node goes on by the shorter way, and on a dead link or without entries nothing
changes. (derived: R228, R229, R230, R231, R232, R245, R246, R264, R265, notes/assumptions/59.md) -/
def Obligations.RingTimers : Prop :=
    ∀ (s : State) (dt : Nat) (p : Port) (f : BitVec 512) (node : Fin 32) (e n bad : Nat), (s.elapse dt).dev.alive = true →
    let d := (s.elapse dt).dev
    let r := d.ring
    let x := d.port (portNo p)
    let at_ := fun (u : State) => u.dev.port (portNo p)
    (d.headSeen = false → 64 ≤ r.sfSinceHead → r.electing = false → (d.port 0).live = true → Answers (exec (.headLossTimeout dt) s) (fun u =>
      u.dev.ring.electing = true ∧ u.dev.ring.sfSinceElect = 0 ∧ u.dev.ring.members = r.members ∧ d.OnlyIn (.ring :: reports) u.dev)) ∧
    (r.electing = true → d.headSeen = false → 64 ≤ r.sfSinceElect → r.headCap ≠ 0 → r.best = some (r.headCap, Config.uid) →
      Answers (exec (.electTimeout dt) s) (fun u => u.dev.ring.head = true ∧ u.dev.ring.granted = true ∧ u.dev.ring.node = 0 ∧
        u.dev.ring.hops = 0 ∧ u.dev.ring.electing = false ∧ u.dev.ring.headUid = Config.uid ∧ u.dev.time.inc = 4294967296)) ∧
    (d.headSeen = false → r.electing = true → r.best = none → r.noHeadAt ≤ d.now → Answers (exec (.noHeadReport dt) s) (fun u =>
      { u.dev.ring with ports := r.ports } = { r with noHeadAt := d.now + 10 * second } ∧ d.OnlyIn (.ring :: reports) u.dev)) ∧
    (∀ t, r.granted = false → d.headSeen = true → r.joinAt = some t → t ≤ d.now → Answers (exec (.joinRetryTimer dt) s) (fun u =>
      u.dev.ring.joinAt = some (d.now + second) ∧ u.dev.ring.members = r.members ∧ d.OnlyIn (.ring :: reports) u.dev)) ∧
    (r.held.any (fun h => h.node == node.val && decide (h.until_ ≤ d.now)) = true → Answers (exec (.nodeHoldExpiry dt node) s) (fun u =>
      (∀ h ∈ u.dev.ring.held, h.node ≠ node.val) ∧ u.dev.ring.members = r.members)) ∧
    (r.head = true → r.membersAt ≤ d.now → Answers (exec (.membersRepeat dt) s) (fun u =>
      u.dev.ring.membersAt = d.now + 100 * ms ∧ u.dev.ring.members = r.members ∧ d.OnlyIn (.ring :: reports) u.dev)) ∧
    (r.head = true → r.calendarAt ≤ d.now → d.fire.cal ≠ none → Answers (exec (.calendarRepeat dt) s) (fun u =>
      u.dev.ring.calendarAt = d.now + 100 * ms ∧ u.dev.ring.members = r.members ∧ d.OnlyIn (.ring :: reports) u.dev)) ∧
    (x.live = true → Answers (exec (.degradeWindow dt p e n bad) s) (fun u => (at_ u).base = ({ x with
      corrected := x.corrected + e, uncorrectable := x.uncorrectable + bad, serExp := ratioExponent e n
      degraded := if x.degraded then ratioAbove e n (fld x.cfg 11 8 + 1) else ratioAbove e n (fld x.cfg 11 8) } : RPort).base ∧
      d.OnlyIn (.ring :: reports) u.dev)) ∧
    (x.fn.st = .stopping → x.live = false → r.onring = false → r.granted = false → Answers (exec (.ringPortStopDone dt p) s) (fun u =>
      (at_ u).fn.st = .off ∧ (at_ u).fn.offUntil = d.now + 10 * ms ∧ (at_ u).x8 = [] ∧ (d.wcp.waits = [] → (at_ u).x9 = []) ∧ u.dev.ring.members = r.members)) ∧
    (x.fn.st = .stopping → x.live = true → ((x.x9 = [] ∧ x.x8 = [] ∧ x.left = 0) ∨ x.fn.stopBy ≤ d.now) →
      Answers (exec (.ringPortStopDone dt p) s) (fun u => (at_ u).fn.st = .off ∧ (at_ u).fn.offUntil = d.now + 10 * ms ∧ (at_ u).link = .down ∧
        (at_ u).x8 = [] ∧ (d.wcp.waits = [] → (at_ u).x9 = []) ∧ bit ((at_ u).window.headD 0) 211 = true)) ∧
    (x.fn.st = .stopping → x.live = true → (x.x9 ≠ [] ∨ x.x8 ≠ [] ∨ x.left ≠ 0) → d.now < x.fn.stopBy →
      Idles (exec (.ringPortStopDone dt p) s) d) ∧
    (x.fn.st ≠ .stopping → Idles (exec (.ringPortStopDone dt p) s) d) ∧
    ((x.live = false ∨ fld f 7 0 = 0) → Idles (exec (.creditFlit dt p f) s) d) ∧
    (x.live = true → fld f 7 0 = 1 → fld f 113 109 = r.node → d.qs.subs = [] → Answers (exec (.creditFlit dt p f) s) (fun u =>
      d.OnlyIn [.qs, .ports, .wcp] u.dev ∧ u.dev.qs.subs = [])) ∧
    (∀ y : Sub, x.live = true → fld f 7 0 = 1 → fld f 113 109 = r.node → d.qs.subs = [y] → y.who < 32 → y.st ≠ .suspended →
      (d.queue y.queue).deliverQ = fld f 127 114 → (d.queue y.queue).cls = 1 → (d.queue y.queue).inbound = false →
      (r.dirTo y.queue y.who y.west).any (fun w => r.portOf w == portNo p) = true → Answers (exec (.creditFlit dt p f) s) (fun u =>
      u.dev.qs.subs.map (fun z => (z.queue, z.who, z.credit, z.reset, z.resetZero)) =
        [if y.resetZero then (y.queue, y.who, fld f 95 64, none, false) else (y.queue, y.who, y.credit + fld f 95 64, y.reset, false)] ∧
      d.OnlyIn [.qs, .ports, .wcp] u.dev)) ∧
    (∀ w, x.live = true → fld f 7 0 = 1 → fld f 113 109 ≠ r.node → fld f 95 64 ≠ 0 → r.shortWest (fld f 113 109) = some w →
      Answers (exec (.creditFlit dt p f) s) (fun u =>
        (∃ g ∈ (u.dev.port (r.portOf w)).grants, g.queue = fld f 127 114 ∧ g.node = fld f 113 109 ∧ fld f 95 64 ≤ g.cells) ∧
        d.OnlyIn [.qs, .ports, .wcp] u.dev ∧ u.dev.qs.subs.length = d.qs.subs.length))

/-- With the C-die out of reset: SUPERFRAME on a live port of a node that is no head and asks for no reservation sends, after the flits of a
frame still running on, the pass-through frames that have room first, and on a member link the frames of X9 after them, those of
reservations first, then messages of the queue manager, then other best-effort ones, each kind within the rate gathered for it; where no
frame is longer than 65 flits, at most 64 of them run on; it counts toward the election; a received frame with a bad header CRC or an
uncorrectable payload is discarded and counted; one that this node sent, or whose hops are used up, is stripped; one for this node, a
member, is taken, where the 64 KiB of its X6 have room, and changes nothing where they have none (log entry 156: the upstream node holds
it); one for others goes on with one hop less and this node's bit clear. (How rates are gathered is log entry 56's, which frames enter
X9 log entry 152's.) (derived: R15, R16, R221, R222, R224, R240, notes/assumptions/56.md, notes/assumptions/152.md,
notes/assumptions/156.md) -/
def Obligations.FramesOnTheRing : Prop :=
    ∀ (s : State) (dt : Nat) (p : Port) (hdr : BitVec 128) (pay : Bytes), (s.elapse dt).dev.alive = true →
    let d := (s.elapse dt).dev
    let r := d.ring
    let x := d.port (portNo p)
    let at_ := fun (u : State) => u.dev.port (portNo p)
    let far := fun (u : State) => u.dev.port (1 - portNo p)
    let good := hcrc hdr.toNat = fld hdr 15 0
    let next := setFld (setFld (setBit hdr (96 + r.node) false) 76 72 (fld hdr 76 72 - 1)) 15 0
      (hcrc (setFld (setBit hdr (96 + r.node) false) 76 72 (fld hdr 76 72 - 1)).toNat)
    (x.active = false → Idles (exec (.superframe dt p) s) d) ∧
    (x.active = true → x.live = true → r.head = false → r.reqs = [] → Answers (exec (.superframe dt p) s) (fun u =>
      (at_ u).link = x.link ∧ u.dev.ring.members = r.members ∧ u.dev.ring.resv = r.resv ∧
      (p = .e ∨ (d.port 0).live = false → u.dev.ring.sfSinceElect = r.sfSinceElect + 1))) ∧
    (x.active = true → x.live = true → r.head = false → r.reqs = [] → 315 ≤ x.left → Answers (exec (.superframe dt p) s) (fun u =>
      (at_ u).left + 315 = x.left ∧ (at_ u).x8 = x.x8 ∧ (at_ u).sent = [])) ∧
    (x.active = true → x.live = true → x.joined = false → r.head = false → r.reqs = [] → x.left < 315 →
      Answers (exec (.superframe dt p) s) (fun u => let t := sendThrough (315 - x.left) x.x8
        (at_ u).sent = t.1 ∧ (at_ u).x8 = t.2.1 ∧ (at_ u).left = t.2.2.2)) ∧
    (x.active = true → x.joined = true → r.head = false → r.reqs = [] → x.left < 315 → Answers (exec (.superframe dt p) s) (fun u =>
      let t := sendThrough (315 - x.left) x.x8
      let rate := d.tokensNow (portNo p)
      let used := fun (l : List TxFrame) => 256 * (l.map (fun f => flits f.frame.data.len)).sum
      (at_ u).x8 = t.2.1 ∧ ∃ l0 l1 l2 : List TxFrame, (at_ u).sent = t.1 ++ (l0 ++ l1 ++ l2).map (fun f => f.frame) ∧
        (∀ f ∈ l0, f.inPass 0 = true) ∧ (∀ f ∈ l1, f.inPass 1 = true) ∧ (∀ f ∈ l2, f.inPass 2 = true) ∧
        (∀ k, used (l0.filter (fun f => f.queue == k)) ≤ sget rate k) ∧ used (l1 ++ l2) ≤ sget rate 16384 ∧
        ((∀ f ∈ (at_ u).sent, flits f.data.len ≤ 65) → (at_ u).left ≤ 64))) ∧
    (x.live = false → Idles (exec (.ringFrameReceive dt p hdr pay false) s) d) ∧
    (x.live = true → Answers (exec (.ringFrameReceive dt p hdr pay true) s) (fun u =>
      (at_ u).base = ({ x with discarded := x.discarded + 1 } : RPort).base ∧ d.OnlyIn (.ring :: reports) u.dev)) ∧
    (x.live = true → ¬ good → Answers (exec (.ringFrameReceive dt p hdr pay false) s) (fun u =>
      (at_ u).base = ({ x with discarded := x.discarded + 1 } : RPort).base ∧ d.OnlyIn (.ring :: reports) u.dev)) ∧
    (x.live = true → good → r.onring = true → ¬(r.granted = true ∧ fld hdr 81 77 = r.node) → fld hdr 76 72 ≠ 0 → bit hdr (96 + r.node) = true →
      65536 < x.received + 16 + fld hdr 71 59 → Idles (exec (.ringFrameReceive dt p hdr pay false) s) d) ∧
    (good → ((r.granted = true ∧ fld hdr 81 77 = r.node) ∨ fld hdr 76 72 = 0) → x.live = true →
      Idles (exec (.ringFrameReceive dt p hdr pay false) s) d) ∧
    (x.live = true → good → r.onring = true → fld hdr 81 77 ≠ r.node → fld hdr 76 72 ≠ 0 → bit hdr (96 + r.node) = true → r.node < 32 →
      x.received + 16 + fld hdr 71 59 ≤ 65536 →
      Answers (exec (.ringFrameReceive dt p hdr pay false) s) (fun u =>
        (at_ u).x6 = x.x6 ++ [⟨hdr, pay.slice 0 (fld hdr 71 59)⟩] ∧ d.OnlyIn (.ring :: reports) u.dev ∧
        (far u).x8 = (d.port (1 - portNo p)).x8 ++
          (if fld next 127 96 = 0 ∨ (d.port (1 - portNo p)).live = false then [] else [⟨next, pay.slice 0 (fld hdr 71 59)⟩])))

/-- RESPONSE_RETRY removes a reply that another node's queue has taken, at whatever instant (log entry 20: the model's choice of who says
so), or, once its time has come, the local queue takes; tries a refused one again 1 ms later and gives it up, counted, after 100 ms;
before its time nothing else changes. UNDEFINED_COMMAND_ID, with an authentic envelope whose identifier is not defined, is answered
S_BAD_PARAM, consumed and cached; a defined identifier it leaves to its own command. EVENT_REPORT_WINDOW_END, when a window is over,
closes one in which nothing was gathered and else reports what was and opens the next. (derived: R45, R46, R55, R57, R257, R361,
notes/assumptions/20.md) -/
def Obligations.RepliesAndReports : Prop :=
    ∀ (s : State) (dt : Nat) (o : Origin) (e : Env) (r : Reply) (rest : List Reply) (ev source : BitVec 16) (sub : Nat) (l : Limit),
    (s.elapse dt).dev.alive = true →
    let t := s.elapse dt
    let d := t.dev
    (s.dev.ready = true → d.wcp.replies = r :: rest → r.node ≠ d.ring.node →
      Answers (exec (.responseRetry dt true) s) (fun u => u.dev.wcp.replies = rest ∧ u.dev.wcp.inFlight = d.wcp.inFlight - r.first.toNat ∧
        u.dev.wcp.discarded = d.wcp.discarded ∧ (r.resets ≠ some .standby → u.dev.power = d.power) ∧ d.OnlyIn (.power :: reports) u.dev) ∧
      (r.nextTry ≤ d.now → r.since + 100 * ms ≤ d.now → Answers (exec (.responseRetry dt false) s) (fun u => u.dev.wcp.replies = rest ∧
        u.dev.wcp.discarded = d.wcp.discarded + 1 ∧ u.dev.wcp.inFlight = d.wcp.inFlight - r.first.toNat ∧ (r.resets ≠ some .standby → u.dev.power = d.power) ∧
        d.OnlyIn (.power :: reports) u.dev)) ∧
      (r.nextTry ≤ d.now → d.now < r.since + 100 * ms → Answers (exec (.responseRetry dt false) s) (fun u =>
        u.dev.wcp.replies = rest ++ [{ r with nextTry := d.now + ms }] ∧ d.OnlyIn (.ring :: reports) u.dev))) ∧
    (s.dev.ready = true → d.wcp.replies = r :: rest → r.node = d.ring.node → r.nextTry ≤ d.now → ∀ b, Answers (exec (.responseRetry dt b) s) (fun u =>
      (u.dev.wcp.replies = rest ∨ (d.now < r.since + 100 * ms ∧ u.dev.wcp.replies = rest ++ [{ r with nextTry := d.now + ms }])) ∧
      d.OnlyIn (.power :: reports) u.dev)) ∧
    (d.wcp.replies = r :: rest → d.now < r.nextTry → Idles (exec (.responseRetry dt false) s) d ∧
      (r.node = d.ring.node → Idles (exec (.responseRetry dt true) s) d)) ∧
    (d.wcp.replies = [] → ∀ b, Idles (exec (.responseRetry dt b) s) d) ∧
    (Offered o (cmdUndefined e.id) e t → definedIds.contains e.id = false → Authentic e d →
      exec (.undefinedCommandId dt o) s = .next (({ dt, origin := o, cmd := cmdUndefined e.id } : WcpRow).answered s e
        (((cmdUndefined e.id).taken e d).modSession e.session (fun q => q.update e.counter (fun y => { y with status := sBadParam, result := Bytes.nil.limit })),
          response (some (keyBytes (d.session e.session).key)) e.id e.session e.counter sBadParam 0 d.time.ns.toNat Bytes.nil))) ∧
    (t.envelope o = some e → definedIds.contains e.id = true → Idles (exec (.undefinedCommandId dt o) s) d) ∧
    (d.wcp.limits.find? (fun x => x.is ev.toNat source.toNat sub) = some l → d.now < l.until_ →
      Idles (exec (.eventReportWindowEnd dt ev source sub) s) d) ∧
    (d.Unstreamed → d.wcp.limits.find? (fun x => x.is ev.toNat source.toNat sub) = some l → l.until_ ≤ d.now →
      Answers (exec (.eventReportWindowEnd dt ev source sub) s) (fun u => d.OnlyIn [.wcp] u.dev ∧ u.dev.wcp.limits =
        (if l.n = 0 then d.wcp.limits.filter (fun x => !x.is ev.toNat source.toNat sub)
         else d.wcp.limits.map (fun x => if x.is ev.toNat source.toNat sub then { l with until_ := d.now + l.len, n := 0, payload := 0, add := 0 } else x)) ∧
        u.dev.wcp.evSeq = (if l.n = 0 then d.wcp.evSeq else d.wcp.evSeq + 1)))

/-- COMMANDED_RESET_TIMER once due, DEVICE_RESET on a cause that leaves the rails up, and RST_N_ASSERT while the C-die runs, reset the
C-die: sessions, waiting commands, queues, ring, histograms and cameras take their reset values and READY is clear; dose budget, latch,
lens table, linearisation tables, zone maps, calibration sets, rule table, keys, fuses, flash, boot record and the field die stay; the
cause is latched unless a shutdown has latched its own; the boot ROM starts, once RST_N is released. RST_N while the C-die does not run
is noted, and 10 ms of it end THERM_LOCK and start a device that the lock alone kept down. RST_N_RELEASE lets the C-die boot, device
time at zero (log entry 34: the model's reading of the instant), and starts a device in standby, whose bias ramp begins 5 ms later. The
output of the bias generator over a reset is log entry 139's choice, what a record being committed does log entry 42's. (derived: R65,
R398, R400, R402, R410, R439, notes/assumptions/34.md, notes/assumptions/139.md, notes/assumptions/42.md) -/
def Obligations.ResetsKeepWhatIsStored : Prop :=
    ∀ (s : State) (dt width : Nat) (cause : Cause),
    let d := (s.elapse dt).dev
    let resets := fun (x : Host.Outcome State Fault Refusal) (c : Cause) (pin : Bool) => Answers x (fun u =>
      u.host = {} ∧ u.dev.ready = false ∧ u.dev.power.core = (if pin then .reset else .boot) ∧
      u.dev.power.cause = (if causeShuts c || d.power.shut.isSome then d.power.cause else c) ∧
      u.dev.wcp.sessions = ({} : Wcp).sessions ∧ u.dev.wcp.waits = [] ∧ u.dev.wcp.resetAt = none ∧ u.dev.qs = {} ∧ u.dev.cams = {} ∧
      u.dev.hist = {} ∧ u.dev.fire = { budget := d.fire.budget, latch := d.fire.latch, faultAt := d.fire.faultAt, faultUntil := d.fire.faultUntil } ∧
      u.dev.rx.lens = d.rx.lens ∧ u.dev.rx.lin = d.rx.lin ∧
      u.dev.ret.zmaps = d.ret.zmaps ∧ u.dev.cal.live = d.cal.live ∧ u.dev.cal.backup = d.cal.backup ∧ u.dev.core.rules = d.core.rules ∧
      u.dev.sec.keys = d.sec.keys ∧ u.dev.sec.fuses = d.sec.fuses ∧ u.dev.sec.lc = d.sec.lc ∧ u.dev.sec.flash = d.sec.flash ∧
      u.dev.sec.boot = d.sec.boot ∧ u.dev.sec.resv = d.sec.resv ∧ u.dev.log.counters = d.bbCommit.log.counters ∧
      { u.dev.field with end_ := d.field.end_ } = d.field)
    (∀ t, d.alive = true → d.wcp.resetAt = some (t, cause) → t ≤ d.now → resets (exec (.commandedResetTimer dt) s) cause d.power.rstPin) ∧
    (∀ t, d.wcp.resetAt = some (t, cause) → d.now < t → Idles (exec (.commandedResetTimer dt) s) d) ∧
    (d.wcp.resetAt = none → Idles (exec (.commandedResetTimer dt) s) d) ∧
    (d.alive = true → causeShuts cause = false → cause ≠ .por → resets (exec (.deviceReset dt cause) s) cause d.power.rstPin) ∧
    ((d.alive = false ∨ causeShuts cause = true ∨ cause = .por) → Idles (exec (.deviceReset dt cause) s) d) ∧
    (d.alive = true → resets (exec (.rstNAssert dt width) s) .rstN true) ∧
    (d.alive = false → Answers (exec (.rstNAssert dt width) s) (fun u => u.dev.power.rstPin = true ∧
      u.dev.power.thermLock = (d.power.thermLock && decide (width < 10 * ms)) ∧
      ((d.power.thermLock = false ∨ width < 10 * ms) → u.dev.power = { d.power with rstPin := true }) ∧
      (d.power.thermLock = true → 10 * ms ≤ width → d.power.core = .off → d.power.thermHold = false → d.power.ovBarred = false →
        9500 ≤ d.power.vbat → d.power.offUntil ≤ d.now → u.dev.power.core = .sequence ∧ u.dev.rx.ramp = some (d.now + 5 * ms)) ∧
      d.OnlyIn (.power :: .rx :: reports) u.dev)) ∧
    (d.power.core = .reset → Answers (exec (.rstNRelease dt) s) (fun u => u.dev.power = { d.power with core := .boot, rstPin := false } ∧
      u.dev.time = { clk := d.time.clk, releasedAt := d.now - 20 * us } ∧ d.OnlyIn (.power :: .time :: reports) u.dev)) ∧
    (d.power.core = .run → Answers (exec (.rstNRelease dt) s) (fun u => u.dev.power = { d.power with rstPin := false } ∧
      d.OnlyIn (.power :: reports) u.dev)) ∧
    (d.power.core = .standby → d.power.rstPin = true → d.power.offUntil ≤ d.now → Answers (exec (.rstNRelease dt) s) (fun u =>
      u.dev.power.core = .sequence ∧ u.dev.power.rstPin = false ∧ u.dev.power.fault = 0 ∧
      u.dev.rx = { d.rx with biasOut := 0, biasTarget := 0, ramp := some (d.now + 5 * ms) } ∧ d.OnlyIn (.power :: .rx :: reports) u.dev))

/-- BOOT, once the boot ROM runs, ends with the C-die running, READY set unless the life-cycle state is SCRAPPED, and, where no general
image starts, in recovery; in any other state it changes nothing. FUNCTION_RESTART before the minimum off time has passed, or with no
start waiting, changes nothing; then a queue that the cells of the RESERVE still carry comes ON, and a start of the firing controller
that is barred is withdrawn (log entry 97: the model's choice). (derived: R21, R254, R375, R381, R382, notes/assumptions/97.md) -/
def Obligations.BootAndRestart : Prop :=
    ∀ (s : State) (dt : Nat) (env : BootEnv) (f : FnId) (q : Fin 16384),
    let d := (s.elapse dt).dev
    (d.power.core = .boot → d.ready = false → Answers (exec (.boot dt env) s) (fun u => u.dev.power.core = .run ∧
      (u.dev.ready = true ∨ u.dev.lc = lcScrapped) ∧ u.dev.time = d.time ∧
      (d.sec.general = none → env.generalStarts = (false, false) → u.dev.sec.general = none))) ∧
    ((d.power.core ≠ .boot ∨ d.ready = true) → Idles (exec (.boot dt env) s) d) ∧
    ((d.getFn f).restartDue d.now = false → Idles (exec (.functionRestart dt f) s) d) ∧
    (d.alive = true → d.Unstreamed → d.wcp.waits = [] → (d.queue q.val).fn.restartDue d.now = true → d.startBarred (.queue q) = false →
      Answers (exec (.functionRestart dt (.queue q)) s) (fun u => u.dev.queue q.val = { d.queue q.val with
        fn := { (d.queue q.val).fn with st := .on, faultStop := false, restart := false } } ∧
        (∀ n, n ≠ q.val → u.dev.queue n = d.queue n) ∧ d.OnlyIn [.wcp, .ports, .qs] u.dev)) ∧
    (d.alive = true → d.fire.fn.restartDue d.now = true → d.startBarred .fire = true → Answers (exec (.functionRestart dt .fire) s) (fun u =>
      u.dev.fire = { d.fire with fn := { d.fire.fn with restart := false } } ∧ d.OnlyIn (.fire :: .ring :: reports) u.dev))

/-- With the C-die out of reset: REFERENCE_PASS_START begins a pass in a gap with room for 15 us once the survey is done, no self-test slice
runs and no timing slice is reserved (R362); REFERENCE_PASS_DONE, 15 us after its start, moves each reference an eighth toward its
measurement and ends the pass; REF_STALE_TIMEOUT marks the references stale after 1 s without a pass while ON; CAL_FULL_DONE, when every
calibration frame is in and none can be cut any more (R209), ends the calibration with its reason and leaves the set in force unless it
was to be applied; the set that a new one replaces becomes the backup, where the device is not shutting down (R400). Otherwise nothing
changes. The pair layout of the stored sets is the model's choice (log entry 176). (derived: R197, R198, R204, R207, R208, R209, R362,
R400, notes/assumptions/176.md) -/
def Obligations.CalibrationRuns : Prop :=
    ∀ (s : State) (dt : Nat) (m : List Int) (f : FullCal), (s.elapse dt).dev.alive = true →
    let d := (s.elapse dt).dev
    let c := d.cal
    (d.rx.survey = none → d.surveyPasses ≤ d.rx.gapPasses → d.bist.run = none → d.timingSlice = false → c.passDone = false → c.passRun = none →
      d.gapRoom (15 * us) = true → Answers (exec (.referencePassStart dt) s) (fun u =>
        u.dev.cal = { c with passRun := some d.now } ∧ d.OnlyIn (.cal :: reports) u.dev)) ∧
    ((d.gapRoom (15 * us) = false ∨ c.passDone = true ∨ c.passRun ≠ none ∨ d.timingSlice = true ∨ d.bist.run ≠ none) → Idles (exec (.referencePassStart dt) s) d) ∧
    (∀ t, c.passRun = some t → t + 15 * us ≤ d.now → Answers (exec (.referencePassDone dt m) s) (fun u =>
      u.dev.cal.lastPass = some d.now ∧ u.dev.cal.stale = false ∧ u.dev.cal.passRun = none ∧ u.dev.cal.passDone = true ∧
      u.dev.cal.live = c.live ∧ d.OnlyIn (.cal :: reports) u.dev ∧ ∀ n, n < 1032 → u.dev.cal.ref[n]? =
        some ((c.ref[n]?).getD 0 + roundInt ((m[n]?).getD ((c.ref[n]?).getD 0) - (c.ref[n]?).getD 0) 8))) ∧
    (∀ t, c.passRun = some t → d.now < t + 15 * us → Idles (exec (.referencePassDone dt m) s) d) ∧
    (d.fire.fn.st = .on → c.stale = false → max (c.lastPass.getD 0) d.fire.onAt + second ≤ d.now →
      Answers (exec (.refStaleTimeout dt) s) (fun u => u.dev.cal = { c with stale := true } ∧ d.OnlyIn (.cal :: reports) u.dev)) ∧
    ((d.fire.fn.st ≠ .on ∨ d.now < d.fire.onAt + second) → Idles (exec (.refStaleTimeout dt) s) d) ∧
    (c.full = some f → fcFrames f.par ≤ f.merged → d.calOpen = false → Answers (exec (.calFullDone dt) s) (fun u =>
      u.dev.cal.full = none ∧ u.dev.cal.work = none ∧ u.dev.cal.reason ≤ 3 ∧ u.dev.cal.ref = c.ref ∧
      ((fcApply f.par = false ∨ u.dev.cal.reason ≠ 0) → u.dev.cal.live = c.live ∧ u.dev.cal.backup = c.backup ∧ u.dev.fire = d.fire) ∧
      (fcApply f.par = true → u.dev.cal.reason = 0 → d.power.shut = none → u.dev.cal.backup = c.backup.put d.calStored.2 ∧
        u.dev.cal.until_ = some d.calNow) ∧
      d.OnlyIn (.cal :: .fire :: .ring :: .bist :: reports) u.dev)) ∧
    (c.full = some f → (f.merged < fcFrames f.par ∨ d.calOpen = true) → Idles (exec (.calFullDone dt) s) d)

/-- With the C-die out of reset, no event stream or mirror bound and no command waiting: CELL_REQUEST of the producer bound to a queue that
is ON and has room writes its unit, behind the stream header where its type has one, and to a queue that is not ON only counts it;
INBOUND_FRAME_APPEND discards and counts a frame for a queue that is not ON, and makes a whole unit of a lone frame;
PARTIAL_UNIT_TIMEOUT discards a partial unit after 10 ms; UNIT_DELIVERED takes the unit from the subscriber, and where a request of the
same cycle has released it already (R256), ends the subscription that waited for it; LEASE_EXPIRY ends a subscription at its unit
boundary; Q_STOP_TIMEOUT discards what is left, its frames in X9 too, and brings the queue OFF for at least 1 ms. Otherwise nothing
changes. With the C-die out of reset and no event stream or mirror bound: CREDIT_TMO_EXPIRY starts a credit reset of an active
subscription without credit for CREDIT_TMO; CREDIT_RESET_SENDER_TIMER sets its credit to zero 2 ms later; RESET taken from Q1 ends the
partial unit of its sender and sets the SEQ expected; RESYNC taken from Q1 starts a reset of the subscription it names;
CREDIT_RESET_RECEIVER_TIMER ends the wait 2 ms after RESET. EVENT_UNIT_CLOSE closes the event unit 1 ms after its first entry. Otherwise
nothing changes. (derived: R252, R253, R255, R256, R258, R259, R260, R261, R263, R264, R265, R269) -/
def Obligations.UnitsSubscribersAndCredits : Prop :=
    (∀ (s : State) (dt : Nat) (q : Fin 16384) (who : Fin 33) (src : Fin 32) (p : Port) (b : Binder) (flags recsize records info : Nat)
    (data : Bytes), (s.elapse dt).dev.alive = true →
    let d := (s.elapse dt).dev
    let x := d.queue q.val
    let at_ := fun (u : State) => u.dev.queue q.val
    let request := exec (.cellRequest dt q flags recsize records info data) s
    let whole := match b.streamType with
      | none => data
      | some type => (d.streamHeader d.time.ns.toNat q.val x.useq flags (32 + data.len) type recsize records info).app data
    let kept := ∀ z ∈ x.units, ∀ w ∈ z.active, w ∉ z.gone
    (x.bound = none ∨ x.inbound = true ∨ data.len = 0 → Idles request d) ∧
    ((d.port (portNo p)).x6 = [] → Idles (exec (.inboundFrameAppend dt p) s) d) ∧
    ((x.partial_ src.val).open_ = false ∨ d.now < (x.partial_ src.val).at_ + 10 * ms → Idles (exec (.partialUnitTimeout dt q src) s) d) ∧
    (x.units.find? (fun y => y.active.contains who.val && y.gone.contains who.val) = none → x.fn.st ≠ .stopping →
      (∀ z, d.qs.sub? q.val who.val = some z → z.st ≠ .ending) → Idles (exec (.unitDelivered dt q who) s) d) ∧
    (d.qs.sub? q.val who.val = none → Idles (exec (.leaseExpiry dt q who) s) d) ∧
    (x.fn.st ≠ .stopping ∨ (x.units ≠ [] ∧ d.now < x.fn.stopBy) → Idles (exec (.qStopTimeout dt q) s) d) ∧
    (d.Unstreamed → d.wcp.waits = [] →
      (x.bound = some b → x.inbound = false → data.len ≠ 0 → x.fn.st ≠ .on → Answers request (fun u =>
        at_ u = { x with useq := x.useq + 1, unsent := x.unsent + 1 } ∧ d.OnlyIn [.qs, .ports, .wcp] u.dev)) ∧
      (x.bound = some b → x.inbound = false → data.len ≠ 0 → kept → x.fn.st = .on → d.qs.activeSubs q.val ≠ [] →
        ceilDiv whole.len 256 ≤ x.maxUnit → x.held + x.newCells whole.len ≤ x.cap → x.held + x.newCells whole.len ≤ x.reserve →
        Answers request (fun u => (∃ y, (at_ u).units = x.units ++ [y] ∧ y.useq = x.useq ∧ y.data = whole ∧
          y.times = List.replicate y.descs.length d.time.ns.toNat ∧ y.src = d.ring.node ∧ y.active = d.qs.activeSubs q.val ∧ y.begun = []) ∧ (at_ u).useq = x.useq + 1 ∧
          (at_ u).fn = x.fn ∧ d.OnlyIn [.qs, .ports, .wcp] u.dev)) ∧
      (∀ f rest, (d.port (portNo p)).x6 = f :: rest → fld f.hdr 95 82 = q.val → x.fn.st ≠ .on →
        Answers (exec (.inboundFrameAppend dt p) s) (fun u => at_ u = { x with discarded := x.discarded + 1 } ∧
          u.dev.port (portNo p) = { d.port (portNo p) with x6 := rest } ∧ d.OnlyIn [.ring, .ports, .qs, .wcp] u.dev)) ∧
      (∀ f rest, (d.port (portNo p)).x6 = f :: rest → fld f.hdr 95 82 = q.val → 16 ≤ q.val → x.fn.st = .on → x.inbound = true → x.cls = 0 →
        x.partials = [] → bit f.hdr 58 = true → bit f.hdr 57 = true → ceilDiv f.data.len 256 ≤ x.maxUnit →
        x.held + x.newCells f.data.len ≤ x.cap → x.held + x.newCells f.data.len ≤ x.reserve →
        Answers (exec (.inboundFrameAppend dt p) s) (fun u => (∃ y, (at_ u).units = x.units ++ [y] ∧ y.data = Bytes.nil.app f.data ∧
          y.useq = x.useq ∧ y.src = fld f.hdr 81 77 ∧ y.seqBase = some (fld f.hdr 53 38)) ∧ (at_ u).useq = x.useq + 1 ∧ (at_ u).drops = x.drops ∧
          d.OnlyIn [.ring, .ports, .qs, .wcp] u.dev)) ∧
      ((x.partial_ src.val).open_ = true → (x.partial_ src.val).src = src.val → (x.partial_ src.val).at_ + 10 * ms ≤ d.now →
        Answers (exec (.partialUnitTimeout dt q src) s) (fun u => ((at_ u).partial_ src.val).open_ = false ∧
          ((at_ u).partial_ src.val).data = Bytes.nil ∧ (at_ u).useq = x.useq + 1 ∧ (at_ u).units = x.units ∧
          (at_ u).drops = vmod x.drops 4 (· + 1) ∧ d.OnlyIn [.ring, .ports, .qs, .wcp] u.dev)) ∧
      (∀ y, x.units.find? (fun y => y.active.contains who.val && y.gone.contains who.val) = some y →
        Answers (exec (.unitDelivered dt q who) s) (fun u => ∀ z ∈ (at_ u).units, z.useq = y.useq → who.val ∉ z.active)) ∧
      (∀ y, x.units.find? (fun y => y.active.contains who.val && y.gone.contains who.val) = none → d.qs.sub? q.val who.val = some y →
        y.st = .ending → x.units.any (fun z => z.partway who.val) = false → x.fn.st ≠ .stopping →
        Answers (exec (.unitDelivered dt q who) s) (fun u => u.dev.qs.sub? q.val who.val = none ∧ (at_ u).units = x.units ∧
          d.OnlyIn [.qs, .ports, .wcp] u.dev)) ∧
      (∀ y t, d.qs.sub? q.val who.val = some y → y.st ≠ .ending → y.lease = some t → t ≤ d.now → x.fn.st ≠ .stopping →
        Answers (exec (.leaseExpiry dt q who) s) (fun u => (at_ u).fn = x.fn ∧ d.OnlyIn [.qs, .ports, .wcp] u.dev ∧
          (x.units.any (fun z => z.partway who.val) = false → u.dev.qs.sub? q.val who.val = none) ∧
          (x.units.any (fun z => z.partway who.val) = true → (u.dev.qs.sub? q.val who.val).map (fun z => z.st) = some .ending))) ∧
      (x.fn.st = .stopping → (x.units = [] ∨ x.fn.stopBy ≤ d.now) → x.fn.faultStop = false → Answers (exec (.qStopTimeout dt q) s) (fun u =>
        (at_ u).fn = { x.fn with st := .off, stopPending := false, offUntil := d.now + ms } ∧ (at_ u).units = [] ∧ (at_ u).partials = [] ∧
        (at_ u).useq = x.useq ∧ (∀ k, k < 2 → ∀ f ∈ (u.dev.port k).x9, f.queue ≠ q.val) ∧ d.OnlyIn [.ring, .ports, .qs, .wcp] u.dev)))) ∧
    (∀ (s : State) (dt : Nat) (q : Fin 16384) (node : Fin 32) (x : Sub) (v : QUnit) (rest : List QUnit), (s.elapse dt).dev.alive = true →
    let d := (s.elapse dt).dev
    let y := d.queue q.val
    let sub := fun (u : State) => u.dev.qs.sub? q.val node.val
    let starts := fun (u : State) => ∃ z, sub u = some z ∧ z.reset = some d.now ∧ z.resetZero = false ∧ z.stallSince = some d.now ∧ z.st = .active
    (d.qs.sub? q.val node.val = none → Idles (exec (.creditTmoExpiry dt q node) s) d ∧ Idles (exec (.creditResetSenderTimer dt q node) s) d) ∧
    (∀ t, d.qs.sub? q.val node.val = some x → x.stallSince = some t → d.now < t + y.creditTmo * ms → Idles (exec (.creditTmoExpiry dt q node) s) d) ∧
    (d.qs.sub? q.val node.val = some x → (x.reset = none ∨ x.resetZero = true) → Idles (exec (.creditResetSenderTimer dt q node) s) d) ∧
    ((y.partial_ node.val).resetAt = none → Idles (exec (.creditResetReceiverTimer dt q node) s) d) ∧
    ((d.queue 1).units = [] → Idles (exec (.q1Reset dt) s) d ∧ Idles (exec (.q1Resync dt) s) d) ∧
    ((d.queue 1).units = v :: rest → v.data.word 0 ≠ 1 → Idles (exec (.q1Reset dt) s) d) ∧
    ((d.queue 1).units = v :: rest → v.data.word 0 ≠ 2 → Idles (exec (.q1Resync dt) s) d) ∧
    ((d.qs.evBuf = [] ∨ d.now < d.qs.evSince + ms) → Idles (exec (.eventUnitClose dt) s) d) ∧
    (d.qs.mirrorQ = 0xFFFF → d.qs.eventQ = q.val → d.qs.evBuf ≠ [] → d.qs.evBuf.length ≤ 64 → d.qs.evSince + ms ≤ d.now → y.fn.st ≠ .on →
      Answers (exec (.eventUnitClose dt) s) (fun u => u.dev.qs.evBuf = [] ∧ u.dev.qs.evLost = 0 ∧ u.dev.qs.evSince = d.now ∧
        u.dev.queue q.val = { y with useq := y.useq + 1, unsent := y.unsent + 1 } ∧ d.OnlyIn [.qs, .ports, .wcp] u.dev)) ∧
    (d.Unstreamed →
      (∀ t, d.qs.sub? q.val node.val = some x → x.st = .active → x.reset = none → x.stallSince = some t → t + y.creditTmo * ms ≤ d.now →
        Answers (exec (.creditTmoExpiry dt q node) s) (fun u => starts u ∧ d.OnlyIn [.ring, .ports, .qs, .wcp] u.dev)) ∧
      (∀ t, d.qs.sub? q.val node.val = some x → x.reset = some t → x.resetZero = false → t + 2 * ms ≤ d.now →
        Answers (exec (.creditResetSenderTimer dt q node) s) (fun u =>
          u.dev.qs = d.qs.modSub q.val node.val (fun z => { z with credit := 0, resetZero := true }) ∧ d.OnlyIn [.qs, .ports, .wcp] u.dev)) ∧
      (∀ t, (y.partial_ node.val).resetAt = some t → t + 2 * ms ≤ d.now → (y.partial_ node.val).src = node.val →
        Answers (exec (.creditResetReceiverTimer dt q node) s) (fun u =>
          (u.dev.queue q.val).partial_ node.val = { y.partial_ node.val with resetAt := none } ∧ (u.dev.queue q.val).units = y.units ∧
          d.OnlyIn [.ring, .ports, .qs, .wcp] u.dev)) ∧
      ((d.queue 1).units = v :: rest → v.data.word 0 = 1 → v.data.word 1 = q.val → 2 ≤ q.val → y.inbound = true → v.src = node.val →
        (y.partial_ node.val).src = node.val → Answers (exec (.q1Reset dt) s) (fun u =>
          let p := (u.dev.queue q.val).partial_ node.val
          p.resetAt = some d.now ∧ p.open_ = false ∧ p.lastSeq = some ((v.data.word 2 + 65535) % 65536) ∧
          (u.dev.queue q.val).units = y.units ∧ d.OnlyIn [.ring, .ports, .qs, .wcp] u.dev)) ∧
      ((d.queue 1).units = v :: rest → v.data.word 0 = 2 → v.src = node.val → q.val ≠ 1 →
        d.qs.subs.filter (fun z => z.who == node.val && z.st != .suspended && z.reset.isNone && (d.queue z.queue).cls == 1 &&
          (d.queue z.queue).deliverQ == v.data.word 1) = [x] → x.queue = q.val → x.st = .active → d.qs.sub? q.val node.val = some x →
        Answers (exec (.q1Resync dt) s) (fun u => starts u ∧ d.OnlyIn [.ring, .ports, .qs, .wcp] u.dev))))

/-- With the C-die out of reset, no event stream or mirror bound and no command waiting: CAM_START_TIMEOUT brings a port ON 1 ms after its
start if no packet has arrived, and else nothing; a packet whose header has no error ends STARTING, one with a header beyond correction
does not; CAM_STOP_TIMEOUT ends STOPPING, a packet in progress discarded under STOP; CSI2_PACKET on a port that is OFF changes nothing,
else it is counted, and a header beyond correction, a virtual channel without a route, an oversize payload, a bad payload CRC under
DROP_CRC and a packet X10 lost are counted under their own reason; a short packet for a queue that is not ON counts as unsent.
CAM_FSYNC_PULSE gives a frame pulse once it is due, nothing before, and a free pulse once one is due that has not been given, but not
within 1 ms before an expected pulse 0; no pulse in mode 0 (which pulse 0 can be foreseen is log entry 122). (derived: R273, R274, R276,
R277, R278, notes/assumptions/122.md) -/
def Obligations.CameraPorts : Prop :=
    ∀ (s : State) (dt : Nat) (p : Fin 4) (k : CsiPacket) (q : Nat) (run : Option (BitVec 32)), (s.elapse dt).dev.alive = true →
    let d := (s.elapse dt).dev
    let c := d.cam p.val
    let z := vget d.cams.sync p.val {}
    let fs := d.cams
    let framed := syMode z.cfg = 1 ∨ (syMode z.cfg = 3 ∧ d.fire.fn.st = .on)
    let near := fun (t : Nat) => syMode z.cfg = 3 ∧ (d.firstPulse z).any (fun x => decide (x ≤ t + ms)) = true
    let long : Bool := 0x10 ≤ csiType k.hdr
    let vc := csiVc k.hdr
    let at_ := fun (u : State) => u.dev.cam p.val
    let gets := fun (x : CamPort) => Answers (exec (.csi2Packet dt p k) s) (fun u => at_ u = x ∧
      (∀ n, n ≠ p.val → u.dev.cam n = d.cam n) ∧ u.dev.cams.sync = fs.sync ∧ d.OnlyIn [.cams, .ports, .qs, .wcp] u.dev)
    (d.now < c.startedAt + ms ∨ c.fn.st ≠ .starting ∨ c.traffic = true → Idles (exec (.camStartTimeout dt p) s) d) ∧
    (d.now < c.fn.stopBy ∨ c.fn.st ≠ .stopping → Idles (exec (.camStopTimeout dt p run) s) d) ∧
    (c.fn.st = .off → Idles (exec (.csi2Packet dt p k) s) d) ∧
    (syMode z.cfg = 0 → Answers (exec (.camFsyncPulse dt p) s) (fun u =>
      u.dev.cams.sync = vset fs.sync p.val { z with high := none } ∧ u.dev.cams.ports = fs.ports ∧ d.OnlyIn (.cams :: reports) u.dev)) ∧
    (∀ t, framed → d.framePulse z = some t → t ≤ d.now → Answers (exec (.camFsyncPulse dt p) s) (fun u =>
      u.dev.cams.sync = vset fs.sync p.val { z with k := z.k + 1, lastAt := some t, high := some (t + syWidth z.cfg * us) } ∧
      u.dev.cams.ports = fs.ports ∧ d.OnlyIn (.cams :: reports) u.dev)) ∧
    (∀ t, framed → d.framePulse z = some t → d.now < t → Idles (exec (.camFsyncPulse dt p) s) d) ∧
    (∀ t g, 2 ≤ syMode z.cfg → ¬ framed → d.freePulse z = some (t, g) → ¬ near t →
      Answers (exec (.camFsyncPulse dt p) s) (fun u =>
      u.dev.cams.sync = vset fs.sync p.val { z with lastAt := some t, lastFree := g, high := some (t + syWidth z.cfg * us) } ∧
      u.dev.cams.ports = fs.ports ∧ d.OnlyIn (.cams :: reports) u.dev)) ∧
    (2 ≤ syMode z.cfg → ¬ framed → (d.freePulse z = none ∨ ∃ t g, d.freePulse z = some (t, g) ∧ near t) →
      Idles (exec (.camFsyncPulse dt p) s) d) ∧
    (d.Unstreamed → d.wcp.waits = [] →
      (c.fn.st = .starting → c.fn.stopPending = false → c.traffic = false → c.startedAt + ms ≤ d.now → Answers (exec (.camStartTimeout dt p) s) (fun u =>
        at_ u = { c with fn := { c.fn with st := .on, faultStop := false, restart := false } } ∧ (∀ n, n ≠ p.val → u.dev.cam n = d.cam n) ∧
        d.OnlyIn [.cams, .ports, .qs, .wcp] u.dev)) ∧
      (c.fn.st = .stopping → c.fn.stopBy ≤ d.now → c.fn.faultStop = false → Answers (exec (.camStopTimeout dt p none) s) (fun u =>
        at_ u = { c with fn := { c.fn with st := .off, stopPending := false, offUntil := d.now + 100 * us } } ∧
        (∀ n, n ≠ p.val → u.dev.cam n = d.cam n) ∧ d.OnlyIn [.cams, .ports, .qs, .wcp] u.dev)) ∧
      (∀ h, c.fn.st = .stopping → c.fn.stopBy ≤ d.now → c.fn.faultStop = false → c.queueOf (csiVc h) = some q →
        Answers (exec (.camStopTimeout dt p (some h)) s) (fun u => (at_ u).fn = { c.fn with st := .off, stopPending := false, offUntil := d.now + 100 * us } ∧
          (u.dev.queue q).useq = (d.queue q).useq + 1 ∧ (u.dev.queue q).drops = vmod (d.queue q).drops 6 (· + 1) ∧
          (u.dev.queue q).units = (d.queue q).units ∧ d.OnlyIn [.cams, .ports, .qs, .wcp] u.dev)) ∧
      (c.fn.st = .starting → c.fn.stopPending = false → k.ecc = .ok → csiType k.hdr ≠ 0 → c.queueOf vc = none →
        gets { c with fn := { c.fn with st := .on, faultStop := false, restart := false }, packets := c.packets + 1, traffic := true, unrouted := c.unrouted + 1 }) ∧
      (c.fn.st = .on ∨ c.fn.st = .starting → k.ecc = .uncorrectable → gets { c with packets := c.packets + 1, traffic := true, badHdr := c.badHdr + 1 }) ∧
      (c.fn.st = .on →
        (k.ecc = .ok → csiType k.hdr ≠ 0 → c.queueOf vc = none → gets { c with packets := c.packets + 1, traffic := true, unrouted := c.unrouted + 1 }) ∧
        (k.ecc = .ok → csiType k.hdr ≠ 0 → c.queueOf vc = some q → k.x10Lost = true → long = false →
          gets { c with packets := c.packets + 1, traffic := true, lost := c.lost + 1 }) ∧
        (k.ecc = .ok → c.queueOf vc = some q → k.x10Lost = false → long = true → bit c.dropRest vc = true →
          gets { c with packets := c.packets + 1, traffic := true, lost := c.lost + 1 }) ∧
        (k.ecc = .ok → c.queueOf vc = some q → k.x10Lost = false → long = true → bit c.dropRest vc = false →
          fld c.cfg 47 32 < csiWc k.hdr →
          gets (({ c with packets := c.packets + 1, traffic := true, oversize := c.oversize + 1 } : CamPort).lose vc true)) ∧
        (k.ecc = .ok → c.queueOf vc = some q → k.x10Lost = false → long = true → bit c.dropRest vc = false →
          csiWc k.hdr ≤ fld c.cfg 47 32 → k.crcOk = false → bit c.cfg 6 = true →
          gets (({ c with packets := c.packets + 1, traffic := true, crcErr := c.crcErr + 1 } : CamPort).lose vc true)) ∧
        (k.ecc = .ok → c.queueOf vc = some q → k.x10Lost = false → 2 ≤ csiType k.hdr → long = false → (d.queue q).fn.st ≠ .on →
          gets { c with packets := c.packets + 1, traffic := true } ∧ Answers (exec (.csi2Packet dt p k) s) (fun u =>
            u.dev.queue q = { d.queue q with useq := (d.queue q).useq + 1, unsent := (d.queue q).unsent + 1 }))))

/-- At either end of the bridge, with that die running: BRIDGE_CYCLE puts its control frame and two bulk frames on the line and counts them;
BULK_FRAME with a bad CRC is counted and discarded, a CHAN 0 message in sequence is acknowledged and kept by the field die as part of a
field block, or taken by the core side as the oldest message of the field die where its bytes are that one's (log entry 158: the model's
layout), one out of sequence is discarded; CHAN0_REPEAT_TIMEOUT has the whole window sent again under its own numbers once the oldest
message has waited 100 us, the oldest in the first bulk slot of the next cycle, and changes nothing before. A control frame with a bad
CRC is counted, and one that fails its complement check is counted on its own and, at the field die, reported to the core side, in a
message not yet sent about the same value where there is one. (derived: R280, R281, R285, R286, R352, notes/assumptions/68.md,
notes/assumptions/158.md) -/
def Obligations.BridgeFrames : Prop :=
    ∀ (s : State) (dt : Nat) (f : BitVec 512) (w : BitVec 8 × Bytes × Nat) (rest : List (BitVec 8 × Bytes × Nat)),
    let d := (s.elapse dt).dev
    let ends := fun (x : Side) (u : Device) => match x with
      | .core => u.core.end_
      | .field => u.field.end_
    let part := fun (x : Side) => match x with
      | .core => Part.core
      | .field => Part.field
    let live := fun (x : Side) => match x with
      | .core => (s.elapse dt).dev.alive = true
      | .field => s.dev.field.running = true
    let type := fun (x : Side) => match x with
      | .core => 0x22
      | .field => 0x12
    let msg : Bytes := .mk' (fld f 31 24) (fld f 479 32)
    (∀ x, live x → let e := ends x d
      (Answers (exec (.bridgeCycle dt x) s) (fun u => (ends x u.dev).fseq = e.fseq + 1 ∧ (ends x u.dev).sentC = e.sentC + 1 ∧
        (ends x u.dev).sentB = e.sentB + 2 ∧ (ends x u.dev).line.length = 3 ∧ (e.win = w :: rest → e.again = rest.length + 1 →
          (ends x u.dev).line[1]? = some (bulk (match x with
            | .core => 0x12
            | .field => 0x22) w.1.toNat 0 w.2.1)) ∧ (ends x u.dev).line.head? = some (match x with
          | .core => d.coreFrame
          | .field => d.fieldFrame) ∧ d.OnlyIn (part x :: reports) u.dev)) ∧
      (crcOk f = false → Answers (exec (.bulkFrame dt x f) s) (fun u => ends x u.dev = { e with crcFail := e.crcFail + 1 } ∧
        d.OnlyIn (part x :: reports) u.dev)) ∧
      (crcOk f = true → fld f 7 0 = type x → fld f 23 16 = 0 → fld f 31 24 ≤ 56 → fld f 31 24 ≠ 0 → fld f 15 8 = (e.ack.toNat + 1) % 256 →
        Answers (exec (.bulkFrame dt x f) s) (fun u => ends x u.dev = { e with
          recvB := e.recvB + 1, ack := .ofNat 8 (fld f 15 8), inbox := if x = .field then e.inbox ++ [msg] else e.inbox } ∧
          (x = .field → d.OnlyIn (.field :: reports) u.dev) ∧
          (∀ m t, x = .core → d.field.msgs = m :: t → u.dev.field.msgs = (if m.enc = msg then t else d.field.msgs)) ∧
          d.OnlyIn (.core :: .field :: .bist :: reports) u.dev)) ∧
      (crcOk f = true → fld f 7 0 = type x → fld f 23 16 = 0 → fld f 31 24 ≤ 56 → fld f 15 8 ≠ (e.ack.toNat + 1) % 256 →
        Answers (exec (.bulkFrame dt x f) s) (fun u => ends x u.dev = { e with recvB := e.recvB + 1 } ∧
          d.OnlyIn (part x :: reports) u.dev)) ∧
      (e.win = w :: rest → e.again ≤ rest.length → w.2.2 + 100 * us ≤ d.now → Answers (exec (.chan0RepeatTimeout dt x) s) (fun u =>
        ends x u.dev = { e with again := rest.length + 1, repeats := e.repeats + (rest.length + 1) } ∧
        d.OnlyIn (part x :: reports) u.dev)) ∧
      ((e.win = [] ∨ (e.win = w :: rest ∧ (d.now < w.2.2 + 100 * us ∨ rest.length < e.again))) → Idles (exec (.chan0RepeatTimeout dt x) s) d)) ∧
    (live .field → crcOk f = false → Answers (exec (.coreToFieldControlFrame dt f) s) (fun u => u.dev.field = { d.field with
      valid := 0, end_ := { d.field.end_ with crcFail := d.field.end_.crcFail + 1 } } ∧ d.OnlyIn (.field :: reports) u.dev)) ∧
    (live .field → crcOk f = true → fld f 7 0 = 0x11 → pair16 f 80 96 = false → Answers (exec (.coreToFieldControlFrame dt f) s) (fun u =>
      u.dev.field.end_.compFail = d.field.end_.compFail + 1 ∧ u.dev.field.end_.recvC = d.field.end_.recvC ∧ u.dev.field.valid = 0 ∧
      (d.field.msgs.all (fun m => (m.failures 9 0 2).isNone) = true → u.dev.field.msgs = d.field.msgs ++ [.integrity 9 0 2 1] ∧
        u.dev.field.end_.out = d.field.end_.out ++ [FieldMsg.enc (.integrity 9 0 2 1)]) ∧
      (∀ n, d.field.msgs = [.integrity 9 0 2 n] → d.field.end_.out = [FieldMsg.enc (.integrity 9 0 2 n)] →
        u.dev.field.msgs = [.integrity 9 0 2 (n + 1)] ∧ u.dev.field.end_.out = [FieldMsg.enc (.integrity 9 0 2 (n + 1))]) ∧
      u.dev.field.applyDue = d.field.applyDue ∧ u.dev.field.wdAt = d.field.wdAt ∧ d.OnlyIn (.field :: reports) u.dev)) ∧
    (live .core → crcOk f = false → Answers (exec (.fieldToCoreControlFrame dt f) s) (fun u => u.dev.core = { d.core with
      end_ := { d.core.end_ with crcFail := d.core.end_.crcFail + 1 } } ∧ d.OnlyIn (.core :: reports) u.dev)) ∧
    (live .core → crcOk f = true → fld f 7 0 = 0x21 → pair16 f 16 32 = false → Answers (exec (.fieldToCoreControlFrame dt f) s) (fun u =>
      u.dev.core = { d.core with end_ := { d.core.end_ with compFail := d.core.end_.compFail + 1 } } ∧
      d.OnlyIn (.core :: .bist :: reports) u.dev))

/-- With the die concerned running: a valid control frame from the core side restarts the watchdog and, with a new CSEQ and outside the safe
states, has its aspect applied at the next tick; in the safe states one without RESUME does not, nor any while safe states are due.
FIELD_WATCHDOG_EXPIRY, once WDT has passed within 3 %, marks the silence, has the safe states taken at the next tick and sets
WIT_UNAVAIL where a witness is used, with no optical evidence left; SAFE_STATE_APPLY then gives every output its safe-state entry,
except where that is HOLD, and sets SAFE; ASPECT_APPLY gives every output its entry of the aspect, clears SAFE and takes the CSEQ.
CORE_SILENCE_TIMEOUT clears FIELD_OK after WDT; a valid field frame restarts it and sets FIELD_OK again, when CSEQ follows the one
echoed and CHAN 0 resumes (log entry 68: the model's choice). Before its time each changes nothing. (derived: R281, R287, R288, R289,
R290, R293, R300, R301, R310, R333, notes/assumptions/68.md) -/
def Obligations.SilenceAndSafeStates : Prop :=
    ∀ (s : State) (dt : Nat) (f : BitVec 512),
    let d := (s.elapse dt).dev
    let x := d.field
    (s.dev.field.running = true → x.silentAt = none → crcOk f = true → fld f 7 0 = 0x11 → pair16 f 80 96 = true →
      (∀ k, k < 16 → cWitEn (x.cfg k) = false) → Answers (exec (.coreToFieldControlFrame dt f) s) (fun u =>
        u.dev.field.valid = x.valid + 1 ∧ u.dev.field.wdAt = d.now ∧ u.dev.field.end_.recvC = x.end_.recvC + 1 ∧ u.dev.field.outs = x.outs ∧
        (fld f 95 88 = x.cseq.toNat → u.dev.field.applyDue = x.applyDue) ∧
        (x.safe = true → bit f 85 = false → u.dev.field.applyDue = x.applyDue) ∧
        (x.safeDue ≠ none → u.dev.field.applyDue = x.applyDue) ∧
        (fld f 95 88 ≠ x.cseq.toNat → x.safe = false → x.safeDue = none → x.applyDue = none →
          ∃ t, u.dev.field.applyDue = some (fld f 95 88, fld f 84 80, t) ∧ d.now < t ∧ t ≤ d.now + 10 * us) ∧
        d.OnlyIn (.field :: .bist :: reports) u.dev)) ∧
    (s.dev.field.running = true → x.silentAt = none → x.wdAt + bWdt x.block * 97 / 100 ≤ d.now → Answers (exec (.fieldWatchdogExpiry dt) s) (fun u =>
      u.dev.field.silentAt = some d.now ∧ u.dev.field.valid = 0 ∧ u.dev.field.safe = x.safe ∧
      (∀ k, k < 16 → cWitEn (x.cfg k) = true → (u.dev.field.out k).witUnavail = true ∧ (u.dev.field.out k).optIsLit = false ∧
        (u.dev.field.out k).optIsDark = false ∧ (u.dev.field.out k).witInt = 0 ∧ (u.dev.field.out k).disagree = false) ∧
      u.dev.field.safeDue = (if x.safe then x.safeDue else some d.nextTick) ∧ d.OnlyIn (.field :: .bist :: reports) u.dev)) ∧
    ((x.silentAt ≠ none ∨ d.now < x.wdAt + bWdt x.block * 97 / 100) → Idles (exec (.fieldWatchdogExpiry dt) s) d) ∧
    (∀ t, s.dev.field.running = true → x.safeDue = some t → t ≤ d.now → Answers (exec (.safeStateApply dt) s) (fun u =>
      u.dev.field.safe = true ∧ u.dev.field.safeDue = none ∧ u.dev.field.applyDue = none ∧ u.dev.field.cseq = x.cseq ∧
      ∀ k, k < 16 → let e := x.entryOf (bSafe x.block) k
        (u.dev.field.out k).source = 1 ∧ (u.dev.field.out k).entry = (if eMode e = 3 then (x.out k).entry else .ofNat 16 e))) ∧
    (∀ t, x.safeDue = some t → d.now < t → Idles (exec (.safeStateApply dt) s) d) ∧
    (x.safeDue = none → Idles (exec (.safeStateApply dt) s) d) ∧
    (∀ c a t, s.dev.field.running = true → x.applyDue = some (c, a, t) → t ≤ d.now → Answers (exec (.aspectApply dt) s) (fun u =>
      u.dev.field.safe = false ∧ u.dev.field.poweron = false ∧ u.dev.field.applyDue = none ∧ u.dev.field.aspect = a ∧
      u.dev.field.cseq = .ofNat 8 c ∧ ∀ k, k < 16 → let e := x.entryOf (bAspect x.block a) k
        (u.dev.field.out k).source = 0 ∧ (u.dev.field.out k).entry = (if eMode e = 3 then (x.out k).entry else .ofNat 16 e))) ∧
    (∀ c a t, x.applyDue = some (c, a, t) → d.now < t → Idles (exec (.aspectApply dt) s) d) ∧
    (x.applyDue = none → Idles (exec (.aspectApply dt) s) d) ∧
    ((s.elapse dt).dev.alive = true → d.core.silentAt = none → d.core.since + d.coreWdt ≤ d.now → Answers (exec (.coreSilenceTimeout dt) s) (fun u =>
      u.dev.core = { d.core with fieldOk := false, silentAt := some d.now, episodes := d.core.episodes + 1 } ∧
      d.OnlyIn (.core :: reports) u.dev)) ∧
    ((s.elapse dt).dev.alive = true → d.core.fieldOk = false → d.core.loaded = true → d.sec.blockDefaultDue = false → crcOk f = true →
      fld f 7 0 = 0x21 → pair16 f 16 32 = true → Answers (exec (.fieldToCoreControlFrame dt f) s) (fun u =>
        u.dev.core.fieldOk = true ∧ u.dev.core.silentAt = none ∧ u.dev.core.since = d.now ∧ u.dev.core.frame = f ∧ u.dev.core.resync = true ∧
        u.dev.core.echo = .ofNat 8 (fld f 31 24) ∧ u.dev.core.end_.recvC = d.core.end_.recvC + 1 ∧ u.dev.core.cmd = d.core.cmd ∧
        u.dev.core.end_.out = d.core.end_.out ∧ u.dev.core.end_.adrift = true ∧ d.OnlyIn (.core :: .bist :: reports) u.dev)) ∧
    ((d.core.silentAt ≠ none ∨ d.now < d.core.since + d.coreWdt) → Idles (exec (.coreSilenceTimeout dt) s) d) ∧
    ((s.elapse dt).dev.alive = true → d.core.fieldOk = true → crcOk f = true → fld f 7 0 = 0x21 → pair16 f 16 32 = true →
      Answers (exec (.fieldToCoreControlFrame dt f) s) (fun u => u.dev.core.since = d.now ∧ u.dev.core.frame = f ∧
        u.dev.core.fieldOk = true ∧ u.dev.core.reported = some (fld f 31 24) ∧ u.dev.core.safeSeen = bit f 21 ∧
        u.dev.core.end_.recvC = d.core.end_.recvC + 1 ∧ u.dev.core.cmd = d.core.cmd ∧ d.OnlyIn (.core :: .bist :: reports) u.dev))

/-- FIELD_TICK before its instant changes nothing; then, with no verdict, remap or storage waiting, each output reads back as present from
40 % of the VFIELD of its group on and, with a converter to supervise with, the loop currents and group voltages, and the next tick is
due 10 us of field time on. ASPECT_EVALUATION without a sealed component changes nothing; else, with no sealed command waiting, it reads
the occupancy, and the first matching rule's aspect is selected once the present selection's HOLD is over or an earlier rule matches; a
selection that differs from the command is sent with the next CSEQ. FIELD_BLOCK_COMMIT_DONE before the whole block is in changes
nothing, and below 9.0 V a commanded commit starts to wait (R405); a block that fails its checks is discarded and the one in force
stays; one that passes is in force, every remap cleared. (derived: R292, R293, R301, R303, R306, R323, R328, R338, R341, R405,
notes/assumptions/13.md, notes/assumptions/160.md) -/
def Obligations.TickAndAspects : Prop :=
    ∀ (s : State) (dt : Nat) (x : FieldSense),
    let d := (s.elapse dt).dev
    let f := d.field
    let b := f.received
    let c := { d.core with occ := .ofNat 64 (fld d.ret.occ.v 63 0), blind := .ofNat 64 (fld d.ret.occ.v 127 64), discards := 0 }
    let m := ({ d with core := c } : Device).ruleSelect c.rules.v
    (d.now < f.tickAt → Idles (exec (.fieldTick dt x) s) d) ∧
    (s.dev.field.running = true → f.tickAt ≤ d.now → (∀ k, k < 16 → (f.out k).attrAt = none) → f.remapDue = [] → d.power.nvmWait = [] →
      Answers (exec (.fieldTick dt x) s) (fun u => u.dev.field.tickAt = d.nextTick ∧ u.dev.field.readback = readbackOf x ∧
        u.dev.field.remaps = f.remaps ∧ u.dev.field.block = f.block ∧
        (f.noSupervision = true → u.dev.field.loops = f.loops ∧ u.dev.field.groups = f.groups) ∧
        (f.noSupervision = false → (vget u.dev.field.loops 0 {}).ua = roundDiv (correct (f.coeffUse 15).1 (rawClamp x.loop0) * 25000) 65536 ∧
          (vget u.dev.field.loops 1 {}).ua = roundDiv (correct (f.coeffUse 16).1 (rawClamp x.loop1) * 25000) 65536 ∧
          (u.dev.field.group 0).mv = rawClamp x.v0 * 75000 / 65536 ∧ (u.dev.field.group 1).mv = rawClamp x.v1 * 75000 / 65536 ∧
          (u.dev.field.group 2).mv = rawClamp x.v2 * 75000 / 65536 ∧ (u.dev.field.group 3).mv = rawClamp x.v3 * 75000 / 65536) ∧
        d.OnlyIn (.field :: .bist :: .power :: reports) u.dev)) ∧
    (d.sec.sealed = none → d.sec.deferred = [] → Idles (exec (.aspectEvaluation dt) s) d) ∧
    ((s.elapse dt).dev.alive = true → d.sec.sealed ≠ none → d.sec.deferred = [] → c.rules.ok = true → d.ret.occ.ok = true → Answers (exec (.aspectEvaluation dt) s) (fun u =>
      u.dev.core.occ = c.occ ∧ u.dev.core.blind = c.blind ∧ u.dev.core.discards = 0 ∧
      (m.1 = c.selRule → m.2.1 = c.sel → u.dev.core.sel = c.sel ∧ u.dev.core.selAt = c.selAt ∧ u.dev.core.selHold = m.2.2) ∧
      (¬(m.1 = c.selRule ∧ m.2.1 = c.sel) → (c.selAt + c.selHold ≤ d.now ∨ m.1 < c.selRule) →
        u.dev.core.sel = m.2.1 ∧ u.dev.core.selRule = m.1 ∧ u.dev.core.selAt = d.now) ∧
      (¬(m.1 = c.selRule ∧ m.2.1 = c.sel) → d.now < c.selAt + c.selHold → c.selRule ≤ m.1 →
        u.dev.core.sel = c.sel ∧ u.dev.core.selRule = c.selRule) ∧
      (c.resync = false → u.dev.core.cmd = (if fld c.cmd.v 4 0 = u.dev.core.sel then c.cmd
        else aspectCmd (fld c.cmd.v 15 8 + 1) u.dev.core.sel)) ∧
      (c.resync = true → c.fieldOk = true → u.dev.core.cmd = aspectCmd (c.echo.toNat + 1) u.dev.core.sel ∧ u.dev.core.resync = false) ∧
      u.dev.field = f)) ∧
    ((f.end_.inbox.length < 26 ∨ (f.nvmOk = false ∧ d.core.commitAt = none)) → Idles (exec (.fieldBlockCommitDone dt) s) d) ∧
    (s.dev.field.running = true → 26 ≤ f.end_.inbox.length → f.nvmOk = false → d.core.commitAt ≠ none → d.nvmWaiting .fieldBlock = false →
      Answers (exec (.fieldBlockCommitDone dt) s) (fun u => u.dev.power.nvmWait = d.power.nvmWait ++ [(.fieldBlock, d.now)] ∧
        d.OnlyIn (.power :: reports) u.dev)) ∧
    (s.dev.field.running = true → 26 ≤ f.end_.inbox.length → f.nvmOk = true → b ≠ Config.blockDefault → blockBadAt b ≠ none →
      Answers (exec (.fieldBlockCommitDone dt) s) (fun u => u.dev.core = { d.core with commitAt := none } ∧
        u.dev.field = { f with end_ := { f.end_ with inbox := f.end_.inbox.drop 26 } } ∧
        d.OnlyIn (.core :: .field :: .ring :: reports) u.dev)) ∧
    (s.dev.field.running = true → 26 ≤ f.end_.inbox.length → f.nvmOk = true → blockBadAt b = none →
      Answers (exec (.fieldBlockCommitDone dt) s) (fun u => u.dev.core.commitAt = none ∧ u.dev.field.block = b ∧
        u.dev.field.blockBad = false ∧ u.dev.field.blockPtr = Pair.of (.ofNat 32 (1 - f.blockPtr.v.toNat % 2)) ∧ u.dev.field.remaps = 0 ∧ u.dev.field.remapNvm = 0 ∧
        u.dev.field.end_.inbox = f.end_.inbox.drop 26 ∧ u.dev.field.safe = f.safe ∧ u.dev.field.aspect = f.aspect))

/-- With the field die running: a SUPERVISION_SAMPLE at no sampling instant of its output changes nothing, one that would carry RECOV is
taken again 1.5 us later, one that is excluded is kept but judged nothing; a clean one adds to the clean interval, and the last of
DARK_N near-zero ones sets DARK (a code beyond full scale counts as full scale); DIAG_SLOT inverts a supervised output in its slot once
a cycle, its evidence following with the tick that ends it; LIT_WHEN_DARK after LIT_MS sets LIT with its evidence, optical only while
counts arrive; CURRENT_LIMIT_TIMEOUT and SWITCH_OVERTEMP switch the group off until it has cooled, and 16 stops within 10 s latch it;
CLEAN_MS_EXPIRY clears the fault bits after CLEAN_MS with 8 clean items, and CROSS with a partner whose evidence is CLEAN_MS old.
Otherwise nothing changes. (derived: R296, R304, R305, R307, R308, R309, R310, R312, R328, R338, notes/assumptions/70.md,
notes/assumptions/157.md) -/
def Obligations.LampFaults : Prop :=
    ∀ (s : State) (dt : Nat) (k : Fin 16) (x : LampSample) (y : DiagSense),
    let d := (s.elapse dt).dev
    let f := d.field
    let o := f.out k.val
    let cfg := f.cfg k.val
    let y0 := f.lampTaken k.val x
    let ua := y0.ua.sum
    let at_ := fun (u : State) => u.dev.field.out k.val
    let gap := f.isLit k.val d.now
    let barred := (f.group (k.val / 4)).uvOff || (!gap && ((f.group (k.val / 4)).sagHold || o.latched || o.overTemp))
    let volt := decide (100 * cLitMs cfg ≤ o.litInt) && d.commandedDark k.val
    let wit := decide (10 * cLitMs cfg ≤ o.witInt) && !o.witUnavail && !gap
    let news := (volt && !o.elecLit) || (wit && !o.optIsLit) || ((volt || wit) && !o.litFault)
    let stopped := fun (u : State) => (at_ u).overTemp = true ∧ (∀ j ∈ f.clan k.val, (u.dev.field.out j).switch = false) ∧
      (15 ≤ (o.stops.filter (fun t => decide (d.now < t + 10 * second))).length → (at_ u).latched = true) ∧ (at_ u).entry = o.entry
    ((leaderOf f.block k.val ≠ k.val ∨ o.switch = false ∨ f.noSupervision = true ∨ d.sampleDue k.val = false) → Idles (exec (.supervisionSample dt k x) s) d) ∧
    ((leaderOf f.block k.val ≠ k.val ∨ bDiag f.block k.val = false ∨ o.diagCyc = some d.diagCycle ∨ d.inSlot k.val = false ∨ barred = true) →
      Idles (exec (.diagSlot dt k y) s) d) ∧
    ((cLitMs cfg = 0 ∨ leaderOf f.block k.val ≠ k.val ∨ news = false) → Idles (exec (.litWhenDark dt k) s) d) ∧
    ((o.switch = false ∨ d.now < o.onAt + cInrush cfg + 20 * ms) → Idles (exec (.currentLimitTimeout dt k) s) d) ∧
    (o.switch = false → Idles (exec (.switchOvertemp dt k) s) d) ∧
    (o.overTemp = false → Idles (exec (.switchCooled dt k) s) d) ∧
    (o.cross = false → (o.cleanN < 8 ∨ d.now < o.cleanAt + bClean f.block) → Idles (exec (.cleanMsExpiry dt k) s) d) ∧
    (s.dev.field.running = true →
      (leaderOf f.block k.val = k.val → o.switch = true → f.noSupervision = false → d.sampleDue k.val = true → d.lampRecov k.val = true →
        Answers (exec (.supervisionSample dt k x) s) (fun u => at_ u = { o with smpAfter := d.now + 1500 } ∧ d.OnlyIn (.field :: reports) u.dev)) ∧
      (leaderOf f.block k.val = k.val → o.switch = true → f.noSupervision = false → d.sampleDue k.val = true → d.lampRecov k.val = false →
        Answers (exec (.supervisionSample dt k x) s) (fun u => (at_ u).smpKey = d.samplingAt k.val ∧
        (at_ u).ua = ua ∧ (at_ u).mv = y0.mv ∧ (at_ u).groupMv = y0.groupMv ∧
        (d.sampleExcluded k.val = true → (at_ u).cls = o.cls ∧ (at_ u).clsN = o.clsN ∧ (at_ u).darkFault = o.darkFault ∧
          (at_ u).cleanN = o.cleanN) ∧
        (d.sampleExcluded k.val = false → cModel cfg ≠ 0 → sampleClass cfg ua y0.groupMv = 0 → (at_ u).cls = 0 ∧
          (at_ u).darkFault = o.darkFault ∧ (at_ u).cleanN = o.cleanN + 1) ∧
        (d.sampleExcluded k.val = false → 2 ≤ cModel cfg → sampleClass cfg ua y0.groupMv = 1 → o.cls = 1 →
          cDarkN cfg ≤ o.clsN + 1 → o.clsN < 15 → o.rbBefore = false → (f.group (k.val / 4)).sagHold = false → o.darkFault = false →
          (at_ u).darkFault = true ∧ (at_ u).darkCause = 1 ∧ (at_ u).elecDark = true ∧ (at_ u).cleanN = 0) ∧
        d.OnlyIn (.field :: .bist :: reports) u.dev)) ∧
      (leaderOf f.block k.val = k.val → bDiag f.block k.val = true → o.diagCyc ≠ some d.diagCycle → d.inSlot k.val = true → barred = false →
        Answers (exec (.diagSlot dt k y) s) (fun u => at_ u = { o with
          diagCyc := some d.diagCycle, diagAt := d.now, diagRun := some ⟨gap, d.now, d.watchers k.val, y⟩,
          gapAt := if gap then d.now + 50 * us else o.gapAt } ∧
          u.dev.field.switchNow k.val = !gap ∧ (∀ j, j ≠ k.val → u.dev.field.out j = f.out j) ∧ d.OnlyIn (.field :: reports) u.dev)) ∧
      (leaderOf f.block k.val = k.val → cLitMs cfg ≠ 0 → news = true →
        Answers (exec (.litWhenDark dt k) s) (fun u => (at_ u).litFault = true ∧ (at_ u).cleanN = 0 ∧
          (at_ u).elecLit = (volt || o.elecLit) ∧ (at_ u).optIsLit = (wit || o.optIsLit) ∧ (at_ u).diagRun = o.diagRun ∧
          (volt = true → (o.litFault = false ∨ o.elecLit = false) → (at_ u).attrAt = some d.now) ∧
          (∀ j, j ≠ k.val → u.dev.field.out j = f.out j) ∧ d.OnlyIn (.field :: .bist :: reports) u.dev)) ∧
      (o.switch = true → o.onAt + cInrush cfg + 20 * ms ≤ d.now → Answers (exec (.currentLimitTimeout dt k) s) stopped) ∧
      (o.switch = true → Answers (exec (.switchOvertemp dt k) s) stopped) ∧
      (o.overTemp = true → Answers (exec (.switchCooled dt k) s) (fun u => (at_ u).overTemp = false ∧ (at_ u).latched = o.latched ∧
        (at_ u).entry = o.entry ∧ (at_ u).stops = o.stops)) ∧
      (o.cross = false → 8 ≤ o.cleanN → o.cleanAt + bClean f.block ≤ d.now → Answers (exec (.cleanMsExpiry dt k) s) (fun u =>
        (at_ u).darkFault = false ∧ (at_ u).litFault = false ∧ (at_ u).shortVf = false ∧ (at_ u).high = false ∧
        (at_ u).latched = o.latched ∧ (∀ j, j ≠ k.val → u.dev.field.out j = f.out j) ∧ d.OnlyIn (.field :: .bist :: reports) u.dev)) ∧
      (∀ j t, j ≠ k.val → j < 16 → o.partners = [(j, t)] → o.cleanN < 8 → t + bClean f.block ≤ d.now → Answers (exec (.cleanMsExpiry dt k) s) (fun u =>
        (at_ u).cross = false ∧ (at_ u).evid = mdel j o.evid ∧ (at_ u).darkFault = o.darkFault ∧
        (u.dev.field.out j).partners = mdel k.val (f.out j).partners ∧ d.OnlyIn (.field :: .bist :: reports) u.dev)))

/-- With the field die running: SAG_BEGIN below SAG_LEVEL sets SAG_HOLD; SAG_END ends it 10 ms after the voltage is back, or after 500 ms;
UV_OFF below 7.0 V switches the outputs of the group off; UV_RECOVERY after 10 ms above 8.0 V begins soft start; SOFT_START_STEP brings
back one lit output each 1 ms. In every other case only the voltage is noted. OUTPUT_STOP_DONE ends STOPPING with 20 us of minimum off
time; PATTERN_PHASE and PWM_PERIOD set the switch to what the entry wants now. (derived: R295, R298, R299, R306) -/
def Obligations.GroupsAndOutputs : Prop :=
    ∀ (s : State) (dt mv : Nat) (g : Fin 4) (k : Fin 16), s.dev.field.running = true →
    let d := (s.elapse dt).dev
    let f := d.field
    let x := f.group g.val
    let o := f.out k.val
    let at_ := fun (u : State) => u.dev.field.group g.val
    let within := fun (u : State) => d.OnlyIn (.field :: .bist :: reports) u.dev
    let noted := fun (a : Host.Outcome State Fault Refusal) => Answers a (fun u => at_ u = { x with mv := mv } ∧ u.dev.field.outs = f.outs ∧ within u)
    let back : Prop := bSag f.block + 500 < mv ∧ x.sagBelow + 10 * ms ≤ d.now
    (mv < bSag f.block → x.low = false → Answers (exec (.sagBegin dt g mv) s) (fun u => (at_ u).sagHold = true ∧ (at_ u).sagAt = d.now ∧
      (at_ u).low = true ∧ (at_ u).mv = mv ∧ (at_ u).epAt ≠ none ∧ u.dev.field.outs = f.outs ∧ within u)) ∧
    ((bSag f.block ≤ mv ∨ x.low = true) → noted (exec (.sagBegin dt g mv) s)) ∧
    (x.sagHold = true → (back ∨ x.sagAt + 500 * ms ≤ d.now) → Answers (exec (.sagEnd dt g mv) s) (fun u => (at_ u).sagHold = false ∧
      (at_ u).mv = mv ∧ (x.uvOff = false → (at_ u).epAt = none) ∧ u.dev.field.outs = f.outs ∧ within u)) ∧
    ((x.sagHold = false ∨ (¬back ∧ d.now < x.sagAt + 500 * ms)) → Answers (exec (.sagEnd dt g mv) s) (fun u =>
      at_ u = { x with mv := mv, low := x.low && decide (mv < bSag f.block) } ∧ u.dev.field.outs = f.outs ∧ within u)) ∧
    (mv < 7000 → x.uvOff = false → Answers (exec (.uvOff dt g mv) s) (fun u => (at_ u).uvOff = true ∧ (at_ u).soft = none ∧ (at_ u).mv = mv ∧
      ∀ i, i < 4 → (u.dev.field.out (4 * g.val + i)).switch = false ∧ (u.dev.field.out (4 * g.val + i)).fn.st ≠ .on)) ∧
    ((7000 ≤ mv ∨ x.uvOff = true) → noted (exec (.uvOff dt g mv) s)) ∧
    (x.uvOff = true → 8000 < mv → x.uvBelow + 10 * ms ≤ d.now → Answers (exec (.uvRecovery dt g mv) s) (fun u => (at_ u).uvOff = false ∧
      (at_ u).soft = some 0 ∧ (at_ u).softAt = d.now ∧ (at_ u).mv = mv ∧ u.dev.field.outs = f.outs ∧ within u)) ∧
    ((x.uvOff = false ∨ mv ≤ 8000 ∨ d.now < x.uvBelow + 10 * ms) → noted (exec (.uvRecovery dt g mv) s)) ∧
    ((x.soft = none ∨ d.now < x.softAt) → Idles (exec (.softStartStep dt g) s) d) ∧
    (∀ j, x.soft = some j → x.softAt ≤ d.now → (∀ i, i < 4 → (f.out (4 * g.val + i)).commanded = false) →
      Answers (exec (.softStartStep dt g) s) (fun u => at_ u = { x with soft := none } ∧ u.dev.field.outs = f.outs ∧ within u)) ∧
    (x.soft = some 0 → x.softAt ≤ d.now → leaderOf f.block (4 * g.val) = 4 * g.val → (f.out (4 * g.val)).commanded = true →
      Answers (exec (.softStartStep dt g) s) (fun u => (at_ u).soft = some 1 ∧ (at_ u).softAt = d.now + ms ∧
        (u.dev.field.out (4 * g.val)).patStart = d.now)) ∧
    (o.fn.st = .stopping → o.fn.faultStop = false → Answers (exec (.outputStopDone dt k) s) (fun u =>
      u.dev.field.out k.val = { o with fn := { o.fn with st := .off, stopPending := false, offUntil := d.now + 20 * us } } ∧
      d.OnlyIn (.field :: .ring :: reports) u.dev)) ∧
    (o.fn.st ≠ .stopping → Idles (exec (.outputStopDone dt k) s) d) ∧
    (eMode o.ent ≠ 2 → Idles (exec (.patternPhase dt k) s) d) ∧
    (o.commanded = false → Idles (exec (.pwmPeriod dt k) s) d) ∧
    (f.clan k.val = [k.val] → o.commanded = true → o.fn.st = .on → f.barred k.val = false →
      (eMode o.ent = 2 → Answers (exec (.patternPhase dt k) s) (fun u => (u.dev.field.out k.val).switch = f.wantsLit k.val d.now ∧
        (u.dev.field.out k.val).fn = o.fn ∧ (∀ j, j ≠ k.val → u.dev.field.out j = f.out j) ∧ within u)) ∧
      Answers (exec (.pwmPeriod dt k) s) (fun u => (u.dev.field.out k.val).switch = f.wantsLit k.val d.now ∧
        (u.dev.field.out k.val).fn = o.fn ∧ (∀ j, j ≠ k.val → u.dev.field.out j = f.out j) ∧ within u))

/-- With the field die running: INPUT_SAMPLE at the instant of its input, once in each sample period, takes over a changed configuration; a
disabled input stays as it is, an enabled one moves its counters, STATE and WIREBREAK by the class of the pin voltage and the current
its sink takes there, and with PERIOD its first rise begins a measurement; other inputs stay. PERIOD_TIMEOUT makes one record with
TIMEOUT; PERIOD_UNIT_CLOSE puts the records gathered into the field FIFO, or counts them lost where they do not fit. Before its time
each changes nothing. (derived: R315, R319, R320, R322, R337, notes/assumptions/69.md) -/
def Obligations.InputsAreFiltered : Prop :=
    ∀ (s : State) (dt mv : Nat) (k : Fin 16),
    let d := (s.elapse dt).dev
    let f := d.field
    let j := f.input k.val
    let i := { j.adopt (inBlock f.inCfg k.val) d.now with sampledAt := some (inPeriodStart j.cfg k.val d.fieldNs) }
    let n := i.count (inClass i.cfg mv (inCurrent i.cfg mv))
    let q := inQueue f.inCfg
    let no := (mget q f.unitNo).getD 0
    let unit := (chunkHeader q true false 0 f.recs.length no (d.fieldNs / us) 0).app (.cat (f.recs.map (fun r => Bytes.mk' 8 r.toNat)))
    let becomes := fun (x : Host.Outcome State Fault Refusal) (v : Input) => Answers x (fun u => u.dev.field.input k.val = v ∧
      (∀ m, m ≠ k.val → u.dev.field.input m = f.input m) ∧ u.dev.field.outs = f.outs ∧ d.OnlyIn (.field :: .bist :: reports) u.dev)
    (d.inDue k.val = false → Idles (exec (.inputSample dt k mv) s) d) ∧
    (s.dev.field.running = true →
      (d.inDue k.val = true → iEn i.cfg = false → becomes (exec (.inputSample dt k mv) s) i) ∧
      (d.inDue k.val = true → iEn i.cfg = true → iPeriod i.cfg = false → becomes (exec (.inputSample dt k mv) s) n) ∧
      (d.inDue k.val = true → iEn i.cfg = true → (n.shown = j.shown ∨ n.shown = false) → becomes (exec (.inputSample dt k mv) s) n) ∧
      (d.inDue k.val = true → iEn i.cfg = true → iPeriod i.cfg = true → j.shown = false → n.shown = true → n.rise = none →
        becomes (exec (.inputSample dt k mv) s) { n with tmoAt := some d.now, rise := some (d.fieldNs / us), sum := 0, n := 0 }) ∧
      (∀ t, j.tmoAt = some t → iPeriod j.cfg = true → t + iTmo j.cfg ≤ d.now → becomes (exec (.periodTimeout dt k) s) { j with
        tmoAt := none, rise := none, sum := 0, n := 0, last := .ofNat 64 (fields [(32, 0), (16, 0), (8, 1), (0, k.val)]), ptmo := true }) ∧
      (f.recs ≠ [] → f.recsAt + 100 * ms ≤ d.now → f.fifoLevel + unit.len ≤ 16384 → Answers (exec (.periodUnitClose dt) s) (fun u =>
        u.dev.field = { f with recs := [], fifo := f.fifo ++ [unit], unitNo := mset q ((no + 1) % 4) f.unitNo } ∧ d.OnlyIn (.field :: reports) u.dev)) ∧
      (f.recs ≠ [] → f.recsAt + 100 * ms ≤ d.now → 16384 < f.fifoLevel + unit.len → Answers (exec (.periodUnitClose dt) s) (fun u =>
        u.dev.field.recs = [] ∧ u.dev.field.fifo = f.fifo ∧ u.dev.field.fifoLost = f.fifoLost + 1 ∧
        d.OnlyIn (.field :: .bist :: reports) u.dev))) ∧
    (j.tmoAt = none → Idles (exec (.periodTimeout dt k) s) d) ∧
    (∀ t, j.tmoAt = some t → (iPeriod j.cfg = false ∨ d.now < t + iTmo j.cfg) → Idles (exec (.periodTimeout dt k) s) d) ∧
    ((f.recs = [] ∨ d.now < f.recsAt + 100 * ms) → Idles (exec (.periodUnitClose dt) s) d)

/-- With the field die running: ADC_TIMER_TICK and ADC_TRIG_ASSERT of at least 100 ns trigger the sequences of that source that are ON, by
their OVERLAP, each trigger stamped with field time to 1 us (log entry 161: the model's rounding), and no other; SEQ_RUN_START begins a
run once it is due, with its coefficients; SEQ_ENTRY_START starts the next chain once its converters and inputs are free; SEQ_ENTRY_DONE
takes its codes, averages and corrects them into the result register, and goes on; SEQ_RUN_END counts the run and starts the held
trigger's, or ends STOPPING. Before its time each changes nothing. (derived: R332, R333, R334, R335, R336, R337, R338, R340, R344, R345,
notes/assumptions/74.md, notes/assumptions/161.md) -/
def Obligations.SequencesRun : Prop :=
    ∀ (s : State) (dt width : Nat) (t : Fin 4) (q : Fin 4) (codes : List Int),
    let d := (s.elapse dt).dev
    let f := d.field
    let x := f.seq q.val
    let tm := vget f.timers t.val (0, 0, 0)
    let tick := lastTick tm.1 tm.2.1 (d.fieldNs / us)
    let at_ := fun (u : State) => u.dev.field.seq q.val
    let within := fun (u : State) => d.OnlyIn (.field :: .bist :: .ring :: reports) u.dev
    let triggers := fun (a : Host.Outcome State Fault Refusal) (m : Nat) => Answers a (fun u => within u ∧
      ((sTrig x.hdr ≠ m ∨ x.fn.st ≠ .on) → at_ u = x) ∧
      (sTrig x.hdr = m → x.fn.st = .on → x.run = none → at_ u = { x with lastTrig := some d.now, run := some { trigAt := d.now, stamp := d.fieldStamp } }) ∧
      (∀ r, sTrig x.hdr = m → x.fn.st = .on → x.run = some r → sOverlap x.hdr = 0 →
        at_ u = { x with countedAll := x.countedAll + 1 }) ∧
      (∀ r, sTrig x.hdr = m → x.fn.st = .on → x.run = some r → sOverlap x.hdr = 1 →
        at_ u = { x with lastTrig := some d.now, held := some (d.now, d.fieldStamp), countedAll := x.countedAll + x.held.isSome.toNat }) ∧
      (∀ r, sTrig x.hdr = m → x.fn.st = .on → x.run = some r → sOverlap x.hdr = 2 → r.cut = true →
        at_ u = { x with countedAll := x.countedAll + 1 }) ∧
      (∀ r, sTrig x.hdr = m → x.fn.st = .on → x.run = some r → sOverlap x.hdr = 2 → r.cut = false →
        at_ u = { x with lastTrig := some d.now, held := some (d.now, d.fieldStamp), run := some { r with cut := true } }))
    (tick ≤ tm.2.2 → Idles (exec (.adcTimerTick dt t) s) d) ∧
    (width < 100 → Idles (exec (.adcTrigAssert dt width) s) d) ∧
    (x.run = none → Idles (exec (.seqRunStart dt q) s) d ∧ Idles (exec (.seqEntryStart dt q) s) d ∧ Idles (exec (.seqEntryDone dt q codes) s) d) ∧
    (x.run = none → x.fn.st ≠ .stopping → Idles (exec (.seqRunEnd dt q) s) d) ∧
    (f.entryDue q.val = none → Idles (exec (.seqEntryStart dt q) s) d) ∧
    (∀ r, x.run = some r →
      ((r.begun = true ∨ r.cut = true ∨ d.now < f.runDue x r d.now) → Idles (exec (.seqRunStart dt q) s) d) ∧
      ((r.chain = 0 ∨ r.deferAt ≠ none ∨ d.now < r.doneAt ∨ codes.length ≠ ((x.chainEntries r).map (fun p => nSamples p.2)).sum) →
        Idles (exec (.seqEntryDone dt q codes) s) d) ∧
      (x.ended r = false → Idles (exec (.seqRunEnd dt q) s) d)) ∧
    (s.dev.field.running = true →
      (tm.2.2 < tick → triggers (exec (.adcTimerTick dt t) s) t.val) ∧
      (100 ≤ width → triggers (exec (.adcTrigAssert dt width) s) 5) ∧
      (∀ r, x.run = some r → r.begun = false → r.cut = false → f.runDue x r d.now ≤ d.now → Answers (exec (.seqRunStart dt q) s) (fun u =>
        at_ u = { x with run := some { r with
          begun := true, readyAt := f.runDue x r d.now, coeffs := (List.range 17).map (fun p => f.coeffUse p) } } ∧ within u)) ∧
      (∀ r due, x.run = some r → f.entryDue q.val = some due → due ≤ d.now → f.convsFree q.val (x.next r) = true →
        f.myTurn q.val d.now due (x.next r) = true → f.inputsFree d.now (x.next r) = true → Answers (exec (.seqEntryStart dt q) s) (fun u =>
        ∃ y, (at_ u).run = some y ∧ y.chain = (x.next r).length ∧
          y.starts = (f.firsts (x.next r)).map (fun i => d.now + i * f.chainSlot (x.next r) / 2) ∧ y.late = d.lateFor x r ∧ y.doneAt = d.now + f.chainTime (x.next r) ∧ y.pos = r.pos ∧
          (f.blanked (sHold x.hdr) d.now = false → y.deferAt = none) ∧
          (f.blanked (sHold x.hdr) d.now = true → x.blankable y = true → y.deferAt = some d.now ∧ y.left = f.chainLen (x.next r)) ∧ within u)) ∧
      (∀ r i e k p s0, x.run = some r → x.chainEntries r = [(i, e)] → r.chain = 1 → r.starts = [s0] → r.deferAt = none → r.doneAt ≤ d.now → codes.length = nSamples e →
        sTrig x.hdr ≠ 9 → nDemod e = false → nOw e = false → (nDest e = 1 ∨ nDest e = 2 ∧ sQen x.hdr = false) → nMux e < 0x30 → pathOf (nMux e) (nRange e) = some p →
        r.coeffs[p]? = some (k, false) → Answers (exec (.seqEntryDone dt q codes) s) (fun u =>
          let w := .ofNat 32 ((average e k codes).code * 2 ^ 16 + i % 64 * 2 ^ 10 + ((average e k codes).flags + f.entryFlags r e s0 d.now))
          (at_ u).run = some { r with
            pos := r.pos + 1, chain := 0, readyAt := r.doneAt, blk := false, words := if nDest e = 2 then mset i w r.words else r.words } ∧
          mget i (at_ u).regs = some (w, .ofNat 64 (d.fieldNs - (d.now - s0))) ∧ (at_ u).runs = x.runs ∧ within u)) ∧
      (∀ r, x.run = some r → x.ended r = true → x.fn.st = .on → x.held = none → sTrig x.hdr ≠ 7 → Answers (exec (.seqRunEnd dt q) s) (fun u =>
        at_ u = { x with run := none, runs := x.runs + 1 } ∧ within u)) ∧
      (∀ r h, x.run = some r → x.ended r = true → x.fn.st = .on → x.held = some h → Answers (exec (.seqRunEnd dt q) s) (fun u =>
        at_ u = { x with run := some { trigAt := h.1, stamp := h.2 }, held := none, runs := x.runs + 1 } ∧ within u)) ∧
      (x.run = none → x.fn.st = .stopping → Answers (exec (.seqRunEnd dt q) s) (fun u =>
        at_ u = { x with fn := { x.fn with st := .off, stopPending := false, offUntil := d.now + 10 * us }, lastTrig := none } ∧ within u)) ∧
      (∀ r, x.run = some r → x.ended r = true → x.fn.st = .stopping → Answers (exec (.seqRunEnd dt q) s) (fun u =>
        at_ u = { x with fn := { x.fn with st := .off, stopPending := false, offUntil := d.now + 10 * us }, lastTrig := none, run := none, held := none, runs := x.runs + 1 } ∧ within u)))

/-- With the field die running: BACKGROUND_CALIBRATION, each 1 ms, tracks offset, gain and skew of a slice in slots of its converter, and
takes it out of use after 10 drifted checks; ADC_START_DONE 50 us after the start brings a converter ON, ADC_STOP_DONE OFF; EXC_HALF
toggles EXC_POL at its instant of field time; BLANK_N_ASSERT of at least 100 ns, BLANK_N_RELEASE, BLANK_HOLD_EXPIRY and BLANK_MAX_EXPIRY
hold back samples not begun 100 ns before and let those left go on; ADC_CAL_RUN_DONE puts the average of 4,096 samples into the shadow
OFFSET; CAPTURE_START, CAPTURE_END and CAPTURE_TIMEOUT run an inrush capture, whose high current range is held, and which ends where
ADC0 and ADC1 are not both ON any more (log entry 192: the model's choice). Before its time each changes nothing. (derived: R325, R327,
R328, R330, R342, R343, R344, R346, R348, R368, notes/assumptions/13.md, notes/assumptions/192.md) -/
def Obligations.ConvertersRun : Prop :=
    ∀ (s : State) (dt width : Nat) (c : Fin 4) (b : Bool) (offset gain skew : Int) (q : Fin 4) (codes : List Int) (samples : List Nat),
    let d := (s.elapse dt).dev
    let f := d.field
    let x := f.conv c.val
    let y := f.seq q.val
    let at_ := fun (u : State) => u.dev.field.conv c.val
    let unit := 2 * c.val + b.toNat
    let drift : Bool := 256 < (offset - Config.adcTestOffset unit).natAbs ||
      (Config.adcTestGain unit).natAbs < 100 * (gain - Config.adcTestGain unit).natAbs
    let n := if drift then (if b then x.driftB else x.driftA) + 1 else 0
    let last := if b then x.bgB else x.bgA
    let mean := roundDiv (codes.map rawClamp).sum 4096
    let g := ((d.takeSlots c.val 2).ranBackground c.val [(0x48, false), (0x49, false)]).field
    let left := fun (r : SeqRun) => f.samplesLeft (y.chainEntries r) r d.now
    let within := fun (u : State) => d.OnlyIn (.field :: .ring :: reports) u.dev
    let gives := fun (a : Host.Outcome State Fault Refusal) (g : Field) => Answers a (fun u => u.dev.field = g ∧ within u)
    ((x.fn.st ≠ .starting ∨ d.now < x.startAt + 50 * us) → Idles (exec (.adcStartDone dt c) s) d) ∧
    (x.fn.st ≠ .stopping → Idles (exec (.adcStopDone dt c) s) d) ∧
    ((f.exc.st = .off ∨ d.fieldNs < f.excNext) → Idles (exec (.excHalf dt) s) d) ∧
    (width < 100 → Idles (exec (.blankNAssert dt width) s) d) ∧
    (f.blankAt = none → Idles (exec (.blankNRelease dt) s) d) ∧
    (f.blankRel = none → Idles (exec (.blankHoldExpiry dt) s) d) ∧
    ((f.calRun = none ∨ codes.length ≠ 4096) → Idles (exec (.adcCalRunDone dt codes) s) d) ∧
    (f.capture = none → Idles (exec (.captureStart dt) s) d ∧ Idles (exec (.captureEnd dt samples) s) d ∧ Idles (exec (.captureTimeout dt) s) d) ∧
    (d.now < last + ms → Idles (exec (.backgroundCalibration dt c b offset gain skew) s) d) ∧
    (s.dev.field.running = true →
      (last + ms ≤ d.now → (n < 10 ∨ (if b then x.usableB else x.usableA) = false) →
        gives (exec (.backgroundCalibration dt c b offset gain skew) s) { g with
          convs := vmod g.convs c.val (fun x => if b then { x with offB := offset, gainB := gain, driftB := n, skew := skew, bgB := d.now }
            else { x with offA := offset, gainA := gain, driftA := n, skew := skew, bgA := d.now }) }) ∧
      (last + ms ≤ d.now → 10 ≤ n → (if b then x.usableB else x.usableA) = true →
        Answers (exec (.backgroundCalibration dt c b offset gain skew) s) (fun u =>
        (if b then (at_ u).usableB else (at_ u).usableA) = false ∧ (if b then (at_ u).usableA = x.usableA else (at_ u).usableB = x.usableB) ∧
        (at_ u).fn = x.fn)) ∧
      (x.fn.st = .starting → x.startAt + 50 * us ≤ d.now → x.fn.stopPending = false → Answers (exec (.adcStartDone dt c) s) (fun u =>
        at_ u = { x with fn := { x.fn with st := .on, faultStop := false, restart := false } } ∧ u.dev.field.seqs = f.seqs ∧ within u)) ∧
      (x.fn.st = .stopping → Answers (exec (.adcStopDone dt c) s) (fun u =>
        at_ u = { x with fn := { x.fn with st := .off, stopPending := false, offUntil := d.now + 20 * us } } ∧ u.dev.field.seqs = f.seqs ∧
        within u)) ∧
      (f.exc.st = .on → f.excNext ≤ d.fieldNs → f.excPos = true → gives (exec (.excHalf dt) s) { f with
        excPos := false, excPin := false, excNext := f.excNext + f.excHalf }) ∧
      (f.exc.st = .on → f.excNext ≤ d.fieldNs → f.excPos = false → Answers (exec (.excHalf dt) s) (fun u =>
        u.dev.field.excPos = true ∧ u.dev.field.excPin = true ∧ u.dev.field.excNext = f.excNext + f.excHalf ∧ u.dev.field.exc = f.exc)) ∧
      (f.exc.st = .starting → f.excNext ≤ d.fieldNs → f.exc.stopPending = false → Answers (exec (.excHalf dt) s) (fun u =>
        u.dev.field.exc = { f.exc with st := .on, faultStop := false, restart := false } ∧ u.dev.field.excPin = true)) ∧
      (f.exc.st = .stopping → f.excNext ≤ d.fieldNs → f.excPos = false → Answers (exec (.excHalf dt) s) (fun u =>
        u.dev.field.exc = { f.exc with st := .off, stopPending := false, offUntil := d.now + ms } ∧ u.dev.field.excPin = f.excPin)) ∧
      (100 ≤ width → Answers (exec (.blankNAssert dt width) s) (fun u => u.dev.field.blankAt = some d.now ∧ u.dev.field.blankRel = none ∧
        (y.run = none → u.dev.field.seq q.val = y) ∧
        (∀ r, y.run = some r → r.chain ≠ 0 → r.deferAt = none → r.blk = false → left r ≠ 0 → y.blankable r = true →
          u.dev.field.seq q.val = { y with run := some { r with deferAt := some d.now, left := left r } }) ∧
        (∀ r, y.run = some r → left r = 0 → u.dev.field.seq q.val = y) ∧ within u)) ∧
      (f.blankAt ≠ none → gives (exec (.blankNRelease dt) s) { f with blankAt := none, blankRel := some d.now }) ∧
      (∀ t r, f.blankRel = some t → y.run = some r → t + sHold y.hdr ≤ d.now → Answers (exec (.blankHoldExpiry dt) s) (fun u =>
        u.dev.field.seq q.val = { y with run := some (d.resumeRun y r) } ∧ within u)) ∧
      (∀ r t, y.run = some r → r.deferAt = some t → t + sMax y.hdr ≤ d.now → Answers (exec (.blankMaxExpiry dt q) s) (fun u =>
        u.dev.field.seq q.val = { y with run := some { (d.resumeRun y r) with blk := true } } ∧ within u)) ∧
      (∀ r, y.run = some r → r.deferAt = none → Idles (exec (.blankMaxExpiry dt q) s) d) ∧
      (∀ path e t, f.calRun = some (path, false, e, t) → codes.length = 4096 → gives (exec (.adcCalRunDone dt codes) s) { f with
        calRun := none, coeffShadow := vmod f.coeffShadow path (fun k => setFld k 31 0 mean) }) ∧
      (∀ path e t, f.calRun = some (path, true, e, t) → codes.length = 4096 → Answers (exec (.adcCalRunDone dt codes) s) (fun u =>
        u.dev.field.calRun = none ∧ (∀ j, j ≠ path → vget u.dev.field.coeffShadow j 0 = vget f.coeffShadow j 0) ∧
        u.dev.field.coeffs = f.coeffs ∧ within u)) ∧
      (∀ z, f.capture = some z → z.startAt ≠ none → z.running = false → f.captureOn = true → Answers (exec (.captureStart dt) s) (fun u =>
        u.dev.field.capture = some { z with running := true } ∧ u.dev.field.convs = f.convs ∧
        (z.out < 16 → (u.dev.field.out z.out).lowRange = false) ∧ within u)) ∧
      (∀ z, f.capture = some z → z.startAt ≠ none → z.running = false → f.captureOn = false →
        gives (exec (.captureStart dt) s) { f with capture := none }) ∧
      (∀ z, f.capture = some z → (z.startAt = none ∨ z.running = true) → Idles (exec (.captureStart dt) s) d) ∧
      (∀ z t, f.capture = some z → z.startAt = some t → z.running = true → samples.length = z.count * z.dec →
        t + z.count * z.dec * 125 / 2 ≤ d.now → gives (exec (.captureEnd dt samples) s) { f with
          capture := none, samples := decimate z.dec samples z.count }) ∧
      (∀ z, f.capture = some z → z.startAt = none → z.armedAt + 10 * second ≤ d.now → gives (exec (.captureTimeout dt) s) { f with
        capture := none }) ∧
      (∀ z, f.capture = some z → z.startAt = none → d.now < z.armedAt + 10 * second → Idles (exec (.captureTimeout dt) s) d))

/-- With the C-die out of reset: SLICE_START begins the slice whose turn it is when the gap has room for it, its unit's state saved (log
entry 177: that state is the model's free value), defers it where a precondition fails, its clocks among them, and ends the gap's run
where it does not fit; SLICE_END of a PASS counts no failure, of a first FAIL of a logic unit has it retested first in the next gap, of
neither is INCOMPLETE, the unit restored from the copy whose CRC matches; SLICE_SERVICE_ABORT and SLICE_PRECONDITION_LOSS stop the
running slice, which is taken again, or, where a compare error had been seen in it, end it as a FAIL; COVER_MAX_EXPIRY and IDLE_GAP act
when due; LOCKSTEP_MISMATCH resets the device; DUPLICATE_MISMATCH stops firing; DIRECTED_RUN_DONE stores the verdicts asked for, but not
once shutdown-imminent is asserted (R400). Otherwise nothing changes. (derived: R354, R355, R356, R358, R360, R361, R363, R364, R365,
R369, R400, notes/assumptions/177.md) -/
def Obligations.SelfTestSlices : Prop :=
    ∀ (s : State) (dt n : Nat) (x : SliceRun) (r : SliceResult) (bus : Bool) (seen : Option Nat) (unit : Nat) (cause : Fin 8) (which : Fin 3) (clocks : Bool) (vs : List DirectedVerdict),
    let d := (s.elapse dt).dev
    let b := d.bist
    let p := d.pickSlice.1
    let keeps := fun (u : State) => d.OnlyIn (.bist :: reports) u.dev
    ((b.run ≠ none ∨ d.gapOpen = false ∨ b.gapStopped = true) → Idles (exec (.sliceStart dt clocks) s) d) ∧
    (b.run = none → Idles (exec (.sliceEnd dt r) s) d ∧ Idles (exec (.sliceServiceAbort dt bus seen) s) d ∧
      Idles (exec (.slicePreconditionLoss dt cause seen) s) d) ∧
    (b.run = some x → x.reserved = true → Idles (exec (.sliceServiceAbort dt true seen) s) d) ∧
    (d.now < b.coverAt + fld b.inForce 47 32 * second → Idles (exec (.coverMaxExpiry dt) s) d) ∧
    ((d.fire.fn.st = .on ∨ d.sec.switchAt ≠ none ∨ d.time.ns.toNat / (40 * ms) = b.idleAt) → Idles (exec (.idleGap dt) s) d) ∧
    (b.directed = none → Idles (exec (.directedRunDone dt vs) s) d) ∧
    (d.alive = false → Idles (exec (.lockstepMismatch dt) s) d) ∧
    (d.alive = true →
      (b.run = none → d.gapOpen = true → b.gapStopped = false → d.pickSlice.2 = some n →
        (clocks = true → d.sliceBarred = none → d.sliceFits n = true → Answers (exec (.sliceStart dt clocks) s) (fun u => u.dev.bist = ({ p with
          run := some ⟨n, d.now, p.reserved.contains n, (mget n p.retest).isSome⟩, spent := p.spent + sliceLen n } : Bist).saveUnit n d.now ∧
          u.dev.rx = { d.rx with witDisturbed := d.rx.witDisturbed ||| u.dev.bist.witTested } ∧ d.OnlyIn (.bist :: .rx :: reports) u.dev)) ∧
        (clocks = true → d.sliceBarred = none → d.sliceFits n = false → Answers (exec (.sliceStart dt clocks) s) (fun u => u.dev.bist = { p with
          waiting := n :: p.waiting, gapStopped := true } ∧ keeps u)) ∧
        ((clocks = false ∨ d.sliceBarred ≠ none) → Answers (exec (.sliceStart dt clocks) s) (fun u => u.dev.bist.run = none ∧ u.dev.bist.waiting = n :: p.waiting ∧
          u.dev.bist.deferred = p.deferred + 1 ∧ keeps u))) ∧
      (b.run = some x → sliceVerdict r = 2 → Answers (exec (.sliceEnd dt r) s) (fun u => u.dev.bist.run = none ∧
        u.dev.bist.later = b.later ++ [x.num] ∧ u.dev.bist.incomplete = b.incomplete + 1 ∧ u.dev.bist.marks = b.marks ∧
        (sliceRow x.num ≠ 6 → sliceRow x.num ≠ 7 → u.dev.bist.restored = b.save.bind (fun z => z.pick) ∧ u.dev.bist.save = none) ∧ keeps u)) ∧
      (b.run = some x → sliceVerdict r = 0 → mget x.num b.retest = none → b.pos < 411 → Answers (exec (.sliceEnd dt r) s) (fun u =>
        u.dev.bist.run = none ∧ u.dev.bist.later = b.later ∧ u.dev.bist.marks = b.marks ∧ u.dev.bist.retest = b.retest ∧ keeps u)) ∧
      (b.run = some x → sliceVerdict r = 1 → sliceMemory x.num = false → mget x.num b.retest = none → b.pos < 411 →
        Answers (exec (.sliceEnd dt r) s) (fun u => u.dev.bist.run = none ∧ u.dev.bist.later = b.later ++ [x.num] ∧
          u.dev.bist.retest = mset x.num (sliceIndex x.num r.unit) b.retest ∧ u.dev.bist.marks = b.marks ∧ keeps u)) ∧
      (b.run = some x → (x.reserved = false ∨ bus = false) → Answers (exec (.sliceServiceAbort dt bus none) s) (fun u =>
        let k := sat 8 (b.abortsOf x.num + 1)
        u.dev.bist.run = none ∧ u.dev.bist.later = b.later ++ [x.num] ∧ u.dev.bist.incomplete = b.incomplete + 1 ∧
        u.dev.bist.aborts = sset b.aborts x.num k ∧ (k = 8 → x.num ∈ u.dev.bist.reserved) ∧ keeps u)) ∧
      (b.run = some x → 2 ≤ cause.val → cause.val ≤ 6 → Answers (exec (.slicePreconditionLoss dt cause none) s) (fun u =>
        u.dev.bist.run = none ∧ u.dev.bist.waiting = x.num :: b.waiting ∧ u.dev.bist.incomplete = b.incomplete + 1 ∧ keeps u)) ∧
      (b.run = some x → (x.reserved = false ∨ bus = false) →
        exec (.sliceServiceAbort dt bus (some unit)) s = exec (.sliceEnd dt ⟨false, false, true, false, unit⟩) s) ∧
      (b.run = some x → 2 ≤ cause.val → cause.val ≤ 6 →
        exec (.slicePreconditionLoss dt cause (some unit)) s = exec (.sliceEnd dt ⟨false, false, true, false, unit⟩) s) ∧
      (b.coverAt + fld b.inForce 47 32 * second ≤ d.now → Answers (exec (.coverMaxExpiry dt) s) (fun u =>
        u.dev.bist = { b with coverAt := d.now } ∧ keeps u)) ∧
      (d.fire.fn.st ≠ .on → d.sec.switchAt = none → d.time.ns.toNat / (40 * ms) ≠ b.idleAt → Answers (exec (.idleGap dt) s) (fun u =>
        u.dev.bist.gap = some d.now ∧ u.dev.bist.idleAt = d.time.ns.toNat / (40 * ms) ∧ u.dev.bist.spent = 0 ∧ u.dev.bist.gapStopped = false ∧
        u.dev.bist.waiting = b.later ++ b.waiting ∧ u.dev.bist.later = [] ∧ u.dev.rx = { d.rx with gapPasses := 0 } ∧
        d.OnlyIn (.bist :: .rx :: .cal :: reports) u.dev)) ∧
      (Answers (exec (.lockstepMismatch dt) s) (fun u => u.dev.ready = false ∧ u.host = {} ∧
        (d.power.shut = none → u.dev.power.cause = .lockstep) ∧ u.dev.power.core = (if d.power.rstPin then .reset else .boot))) ∧
      (d.fire.fn.st = .on → Answers (exec (.duplicateMismatch dt which) s) (fun u => u.dev.fire.fn.st = .stopping ∧
        u.dev.fire.fn.faultStop = true ∧ u.dev.fire.latch = d.fire.latch)) ∧
      (∀ y, b.directed = some y → d.power.shut = none → Answers (exec (.directedRunDone dt vs) s) (fun u => u.dev.bist = { (d.serveOrWait [7]).bist with
        verdicts := vs.filter (fun v => nbit y.1 v.cls), directed := none,
        markedSince := b.markedSince.filter (fun m => !(vs.filter (fun v => nbit y.1 v.cls)).any (fun v => v.cls == m.1 && v.idx == m.2)) } ∧ d.OnlyIn (.bist :: .ring :: reports) u.dev)) ∧
      (b.directed ≠ none → d.power.shut ≠ none → Answers (exec (.directedRunDone dt vs) s) (fun u => u.dev.bist = b ∧
        d.OnlyIn (.ring :: reports) u.dev)))

/-- FIELD_POWER_ON with 6.5 V on a group starts the field die in its power-on safe states, dark where the safe state is HOLD;
FIELD_POWER_LOSS below 5.5 V on every group stops it; FIELD_THERMAL_STOP stops it with a valid sensor at the limit,
FIELD_THERMAL_RESTART lets it start again once every valid sensor is below 150 degC. FIELD_RAM_TEST, 100 us after the last, goes on to
the next region and replaces a failing one by a spare, which its message marks, or, with no spare left, has the field die start anew and
then report it; FIELD_NVM_CHECK, 10 s after the last, brings a failing field block to its safe default and, where all is intact, changes
nothing else of the field die; NVM_COMMIT_WAIT_TIMEOUT drops the first commit of its kind that has waited 1 s, and no other. Otherwise
nothing changes but noted voltages. (derived: R292, R306, R318, R368, R404, R405, R409, notes/assumptions/88.md,
notes/assumptions/89.md) -/
def Obligations.FieldSupply : Prop :=
    ∀ (s : State) (dt v0 v1 v2 v3 : Nat) (temps : List Int) (k : NvmKind),
    let d := (s.elapse dt).dev
    let f := d.field
    let vs := [v0, v1, v2, v3]
    let idle := fun (p : Pair 32) => 1 - p.v.toNat % 2
    let stopped := fun (u : State) => u.dev.field.running = false ∧ u.dev.field.outs = Vector.replicate 16 {} ∧ u.dev.field.fifo = [] ∧
      u.dev.field.blocks = f.blocks ∧ u.dev.power.nvmWait = [] ∧ d.OnlyIn (.field :: .core :: .power :: .ring :: reports) u.dev
    let started := fun (u : State) => u.dev.field.running = true ∧ u.dev.field.hot = false ∧ u.dev.field.blocks = f.blocks ∧
      u.dev.field.block = (if f.blockOk then f.liveBlock.v else Config.blockDefault) ∧ u.dev.field.blockBad = !f.blockOk ∧
      u.dev.field.poweron = true ∧ u.dev.field.inCfg = f.storedInputs ∧
      ∀ i, i < 16 → (u.dev.field.out i).source = 2 ∧ (u.dev.field.input i).cfg = inBlock f.storedInputs i
    let hot := (d.power.validField temps).any (fun t => decide (d.power.fieldLimit ≤ t))
    let cool := (d.power.validField temps).all (fun t => decide (t < 15000))
    let intact := f.blockOk = true ∧ f.inputsOk = true ∧ f.badCoeffs = [] ∧ (vget f.blocks (idle f.blockPtr) ⟨0, 0⟩).ok = true ∧
      (vget f.inCfgs (idle f.inPtr) ⟨0, 0⟩).ok = true ∧
      (vget f.coeffs (idle f.coeffPtr) (Vector.replicate 17 ⟨0, 0⟩)).all (fun p => p.ok) = true
    (f.running = true → Idles (exec (.fieldPowerOn dt v0 v1 v2 v3) s) d) ∧
    (f.running = false → f.hot = false → 6500 ≤ vs.foldl max 0 → Answers (exec (.fieldPowerOn dt v0 v1 v2 v3) s) started) ∧
    (f.running = false → (f.hot = true ∨ vs.foldl max 0 < 6500) → Answers (exec (.fieldPowerOn dt v0 v1 v2 v3) s) (fun u =>
      u.dev.field.running = false ∧ u.dev.field.outs = f.outs ∧ (u.dev.field.group 0).mv = v0 ∧ (u.dev.field.group 1).mv = v1 ∧
      (u.dev.field.group 2).mv = v2 ∧ (u.dev.field.group 3).mv = v3 ∧ d.OnlyIn (.field :: reports) u.dev)) ∧
    (5500 ≤ vs.foldl max 0 → Idles (exec (.fieldPowerLoss dt v0 v1 v2 v3) s) d) ∧
    (vs.foldl max 0 < 5500 → f.running = true → Answers (exec (.fieldPowerLoss dt v0 v1 v2 v3) s) (fun u =>
      stopped u ∧ u.dev.field.hot = false)) ∧
    (hot = false → Idles (exec (.fieldThermalStop dt temps) s) d) ∧
    (s.dev.field.running = true → hot = true → Answers (exec (.fieldThermalStop dt temps) s) (fun u => stopped u ∧ u.dev.field.hot = true)) ∧
    ((f.hot = false ∨ cool = false) → Idles (exec (.fieldThermalRestart dt temps) s) d) ∧
    (f.hot = true → cool = true → 6000 ≤ f.highest → Answers (exec (.fieldThermalRestart dt temps) s) started) ∧
    (f.hot = true → cool = true → f.highest < 6000 → Answers (exec (.fieldThermalRestart dt temps) s) (fun u =>
      u.dev.field = { f with hot := false } ∧ d.OnlyIn (.field :: reports) u.dev)) ∧
    (∀ b, d.now < f.ramAt + 100 * us → Idles (exec (.fieldRamTest dt b) s) d) ∧
    (s.dev.field.running = true → f.ramAt + 100 * us ≤ d.now → Answers (exec (.fieldRamTest dt false) s) (fun u =>
      u.dev.bist = { d.bist with ramPos := (d.bist.ramPos + 1) % 64 } ∧ u.dev.field = { f with ramAt := d.now } ∧
      d.OnlyIn (.bist :: .field :: reports) u.dev)) ∧
    (s.dev.field.running = true → f.ramAt + 100 * us ≤ d.now → d.bist.spareField ≠ 0 → Answers (exec (.fieldRamTest dt true) s) (fun u =>
      u.dev.bist = { d.bist with ramPos := (d.bist.ramPos + 1) % 64, spareField := d.bist.spareField - 1 } ∧
      (∃ m, u.dev.field.msgs = f.msgs ++ [.mark 9 d.bist.ramPos, m] ∧
        u.dev.field.end_.out = f.end_.out ++ [(FieldMsg.mark 9 d.bist.ramPos).enc, m.enc]) ∧
      u.dev.field.outs = f.outs ∧ d.OnlyIn (.bist :: .field :: reports) u.dev)) ∧
    (s.dev.field.running = true → f.ramAt + 100 * us ≤ d.now → d.bist.spareField = 0 → Answers (exec (.fieldRamTest dt true) s) (fun u =>
      started u ∧ ∃ l m, u.dev.field.msgs = l ++ [.mark 9 d.bist.ramPos, m])) ∧
    (d.now < f.nvmAt + 10 * second → Idles (exec (.fieldNvmCheck dt) s) d) ∧
    (s.dev.field.running = true → intact → f.bad = [] → f.nvmAt + 10 * second ≤ d.now → Answers (exec (.fieldNvmCheck dt) s) (fun u =>
      u.dev.field = { f with nvmAt := d.now } ∧ d.OnlyIn (.bist :: .field :: reports) u.dev)) ∧
    (s.dev.field.running = true → f.nvmAt + 10 * second ≤ d.now → f.blockOk = false → f.blockBad = false → Answers (exec (.fieldNvmCheck dt) s) (fun u =>
      u.dev.field.block = Config.blockDefault ∧ u.dev.field.blockBad = true ∧ u.dev.field.blocks = f.blocks ∧ u.dev.field.safe = f.safe)) ∧
    (d.power.nvmWait.find? (fun w => w.1 == k) = none → Idles (exec (.nvmCommitWaitTimeout dt k) s) d) ∧
    (∀ w, d.power.nvmWait.find? (fun w => w.1 == k) = some w → d.now < w.2 + second → Idles (exec (.nvmCommitWaitTimeout dt k) s) d) ∧
    (∀ w, s.dev.field.running = true → d.power.nvmWait.find? (fun w => w.1 == k) = some w → w.2 + second ≤ d.now →
      Answers (exec (.nvmCommitWaitTimeout dt k) s) (fun u =>
        u.dev.power.nvmWait = d.power.nvmWait.eraseP (fun x => x.1 == k) ∧ u.dev.field.block = f.block ∧
        u.dev.field.inCfg = f.inCfg ∧ u.dev.field.coeffs = f.coeffs ∧ u.dev.field.remaps = f.remaps ∧
        (k = .inputs → u.dev.field.inCfgNext = f.inCfgNext.drop 1) ∧ (k = .fieldBlock → u.dev.core.commitAt = none) ∧
        (∀ r, k = .remap → f.remapDue.find? (fun r => !r.auto && r.at_ == w.2) = some r → u.dev.field.remapDue = f.remapDue.erase r) ∧ d.OnlyIn (.field :: .core :: .power :: .ring :: reports) u.dev))

/-- With the C-die out of reset, and the general firmware running for its own rows: FW_ERASE_DONE makes every byte of the inactive slot read
0xFF and no other; FW_VERIFY_DONE ends in VERIFIED, its image in the bank, or in WRITING; SWITCHOVER_START begins a due switchover,
SWITCHOVER_DONE within 8 ms makes the staged image the running one, SWITCHOVER_TIMEOUT resets the device; SEALED_SWITCHOVER stops the
sealed core once no sealed command still runs (R388), SEALED_COMPONENT_RUNNING within 2 ms makes the new one run, SEALED_START_TIMEOUT
the previous one. DEBUG_UNLOCK opens vendor debug in BLANK and RETURN alone, for the right response alone, and stops firing. Otherwise
nothing changes. (derived: R377, R388, R389, R390, R391, R393) -/
def Obligations.Switchovers : Prop :=
    ∀ (s : State) (dt : Nat) (c : Component) (i : Image) (r : BitVec 128) (k : Nat × KeyCopy), (s.elapse dt).dev.alive = true →
    let d := (s.elapse dt).dev
    let x := d.sec
    let n := compNo c
    let lo := slotOff n (d.inactiveSlot n)
    let right : Bool := BitVec.ofNat 128 (Crypto.toNat (Crypto.cmac (keyBytes k.2.value) (uidBytes ++ Crypto.bytesOfNat 16 (Config.nonce d.wcp.draws).toNat))) == r
    let shut : Bool := !((d.lc = lcBlank || d.lc = lcReturn) && !x.fuseFail)
    (d.staging n ≠ .erasing → Idles (exec (.fwEraseDone dt c) s) d) ∧
    (d.staging n ≠ .verifying → Idles (exec (.fwVerifyDone dt c) s) d) ∧
    ((d.generalDue = false ∨ x.switchAt ≠ none ∨ x.sealSwitchAt ≠ none) → Idles (exec (.switchoverStart dt) s) d) ∧
    ((x.switchAt = none ∨ vget x.staged 0 none = none) → Idles (exec (.switchoverDone dt) s) d) ∧
    (∀ t, x.switchAt = some t → t + 8 * ms < d.now → Idles (exec (.switchoverDone dt) s) d) ∧
    (x.switchAt = none → Idles (exec (.switchoverTimeout dt) s) d) ∧
    (∀ t, x.switchAt = some t → d.now < t + 8 * ms → Idles (exec (.switchoverTimeout dt) s) d) ∧
    ((vget x.switchDue 1 false = false ∨ x.sealSwitchAt ≠ none ∨ x.switchAt ≠ none ∨ d.generalDue = true ∨ d.sealedRunning = true) →
      Idles (exec (.sealedSwitchover dt) s) d) ∧
    (x.sealSwitchAt = none → Idles (exec (.sealedStartTimeout dt) s) d ∧ Idles (exec (.sealedComponentRunning dt) s) d) ∧
    (∀ t, x.sealSwitchAt = some t → d.now < t + 2 * ms → Idles (exec (.sealedStartTimeout dt) s) d) ∧
    (∀ t, x.sealSwitchAt = some t → t + 2 * ms < d.now → Idles (exec (.sealedComponentRunning dt) s) d) ∧
    (s.dev.ready = true →
      (d.staging n = .erasing → Mem.wf flashDefault x.flash = true → Answers (exec (.fwEraseDone dt c) s) (fun u => u.dev.staging n = .writing ∧
        (∀ a, lo ≤ a → a < lo + slotSize n → Mem.read flashDefault u.dev.sec.flash a = 0xFF) ∧
        (∀ a, (a < lo ∨ lo + slotSize n ≤ a) → Mem.read flashDefault u.dev.sec.flash a = Mem.read flashDefault x.flash a) ∧
        u.dev.sec.general = x.general ∧ u.dev.sec.boot = x.boot ∧ d.OnlyIn (.sec :: .ring :: reports) u.dev)) ∧
      (d.staging n = .verifying → Answers (exec (.fwVerifyDone dt c) s) (fun u =>
        u.dev.staging n = (if (d.stagedImage n).isSome then .verified else .writing) ∧ vget u.dev.sec.staged n none = d.stagedImage n ∧
        u.dev.sec.flash = x.flash ∧ u.dev.sec.general = x.general ∧ u.dev.sec.sealed = x.sealed ∧
        d.OnlyIn (.sec :: .bist :: .ring :: reports) u.dev)) ∧
      (d.generalDue = true → x.switchAt = none → x.sealSwitchAt = none → Answers (exec (.switchoverStart dt) s) (fun u =>
        u.dev.sec = { x with switchAt := some d.now, switchDue := vset x.switchDue 0 false } ∧ u.dev.bist.gap = none ∧
        u.dev.rx.survey = none ∧ u.dev.cal.full = none ∧ d.OnlyIn (.sec :: .bist :: .rx :: .cal :: .ring :: reports) u.dev)) ∧
      (∀ t, x.switchAt = some t → vget x.staged 0 none = some i → d.now ≤ t + 8 * ms → Answers (exec (.switchoverDone dt) s) (fun u =>
        u.dev.sec.general = some i ∧ u.dev.sec.switchAt = none ∧ u.dev.staging 0 = .idle ∧ u.dev.sec.sealed = x.sealed ∧
        u.dev.sec.flash = x.flash ∧ u.dev.ready = true))) ∧
    (∀ t, x.switchAt = some t → t + 8 * ms ≤ d.now → Answers (exec (.switchoverTimeout dt) s) (fun u => u.dev.ready = false ∧ u.host = {} ∧
      (d.power.shut = none → u.dev.power.cause = .switchFail) ∧ u.dev.sec.flash = x.flash ∧ u.dev.sec.boot = x.boot)) ∧
    (vget x.switchDue 1 false = true → x.sealSwitchAt = none → x.switchAt = none → d.generalDue = false → d.sealedRunning = false →
      Answers (exec (.sealedSwitchover dt) s) (fun u => u.dev.sec = { x with
        sealSwitchAt := some d.now, switchDue := vset x.switchDue 1 false, sealedLast := x.sealed, sealed := none } ∧
        d.OnlyIn (.sec :: .cal :: .ring :: reports) u.dev)) ∧
    (∀ t, x.sealSwitchAt = some t → vget x.staged 1 none = some i → d.now ≤ t + 2 * ms → x.deferred = [] →
      Answers (exec (.sealedComponentRunning dt) s) (fun u => u.dev.sec.sealed = some i ∧ u.dev.sec.sealSwitchAt = none ∧
        u.dev.staging 1 = .idle ∧ u.dev.sec.general = x.general ∧ d.OnlyIn (.sec :: .bist :: .ring :: reports) u.dev)) ∧
    (∀ t, x.sealSwitchAt = some t → t + 2 * ms ≤ d.now → x.deferred = [] → Answers (exec (.sealedStartTimeout dt) s) (fun u =>
      u.dev.sec.sealed = x.sealedLast ∧ u.dev.sec.sealSwitchAt = none ∧ u.dev.staging 1 = .idle ∧ u.dev.sec.boot = x.boot ∧
      d.OnlyIn (.sec :: .ring :: reports) u.dev)) ∧
    (shut = true → Answers (exec (.debugUnlock dt r) s) (fun u => u.dev.sec = x ∧ d.OnlyIn (.bist :: reports) u.dev)) ∧
    (d.keyCopy 15 = some k → right = false → Answers (exec (.debugUnlock dt r) s) (fun u => u.dev.sec = x ∧ d.OnlyIn (.bist :: reports) u.dev)) ∧
    (shut = false → d.keyCopy 15 = some k → right = true → Answers (exec (.debugUnlock dt r) s) (fun u => u.dev.sec = { x with debug := true } ∧
      (d.fire.fn.st = .on → u.dev.fire.fn.st = .stopping) ∧ (d.fire.fn.st = .off → u.dev.fire = d.fire)))

/-- The supply events by their thresholds: VBAT_START and the wakes bring the power-up, the SPAD bias ramping from 5 ms on (R398), held by
the minimum off time and barred by the thermal hold, the lock and an overvoltage; VBAT_LOW_WARNING, VBAT_LOW_CLEAR, RAIL_WARNING and
RAIL_WARNING_END set and clear their flags; VBAT_POWER_FAIL, VBAT_OVERVOLTAGE, RAIL_FAULT, HW_THERMAL_TRIP, STANDBY_SHUTDOWN and
SHUTDOWN_IMMINENT assert shutdown-imminent with their cause, once; POWER_REMOVAL, at whatever instant it is told, leaves the C-die in
reset from 100 us after the assertion, with 10 ms of minimum off time from there; AON_MINIMUM loses the latched causes. A voltage short
of its threshold is only noted. (derived: R396, R397, R398, R399, R400, R402, R410, notes/assumptions/91.md, notes/assumptions/135.md,
notes/assumptions/139.md, notes/assumptions/172.md) -/
def Obligations.CoreSupply : Prop :=
    ∀ (s : State) (dt mv calm width : Nat) (rail : Rail) (cause : Cause) (a b : Int),
    let d := (s.elapse dt).dev
    let p := d.power
    let r := railNo rail
    let q := (d.setRail 0 mv).power
    let within := fun (u : State) => d.OnlyIn (.power :: reports) u.dev
    let gives := fun (x : Host.Outcome State Fault Refusal) (v : Power) => Answers x (fun u => u.dev.power = v ∧ within u)
    let starts := fun (x : Host.Outcome State Fault Refusal) => Answers x (fun u => u.dev.power.core = .sequence ∧
      u.dev.power.startDue = false ∧ u.dev.power.warn = 0 ∧ u.dev.power.fault = 0 ∧ u.dev.rx.biasOut = 0 ∧
      u.dev.rx.ramp = some (d.now + 5 * ms) ∧ d.OnlyIn (.power :: .rx :: reports) u.dev)
    let shuts := fun (x : Host.Outcome State Fault Refusal) (c : Cause) => Answers x (fun u => u.dev.power.shut = some (d.now, c) ∧
      u.dev.power.cause = c ∧ u.dev.power.core = p.core ∧ u.dev.power.counted = d.alive ∧ (d.alive = true → u.dev.log.pend = [] ∧ u.dev.fire.fn.st ≠ .on ∧
      u.dev.fire.armAt = none))
    ((mv < 9500 ∨ p.core ≠ .off ∨ p.thermHold = true ∨ p.thermLock = true ∨ (p.ovBarred = true ∧ (60000 ≤ mv ∨ calm < 11 * ms))) →
      gives (exec (.vbatStart dt mv calm) s) q) ∧
    (9500 ≤ mv → p.core = .off → p.thermHold = false → p.thermLock = false → (p.ovBarred = false ∨ (mv < 60000 ∧ 11 * ms ≤ calm)) →
      p.offUntil ≤ d.now → starts (exec (.vbatStart dt mv calm) s)) ∧
    (9500 ≤ mv → p.core = .off → p.thermHold = false → p.thermLock = false → (p.ovBarred = false ∨ (mv < 60000 ∧ 11 * ms ≤ calm)) →
      d.now < p.offUntil → gives (exec (.vbatStart dt mv calm) s) { q with startDue := true, ovBarred := false }) ∧
    (9000 ≤ mv → gives (exec (.vbatLowWarning dt mv) s) q) ∧
    (mv < 9000 → Answers (exec (.vbatLowWarning dt mv) s) (fun u => u.dev.power.low = true ∧ u.dev.power.vbat = mv ∧
      vget u.dev.power.since 0 none ≠ none ∧ within u)) ∧
    ((mv < 9300 ∨ p.low = false) → gives (exec (.vbatLowClear dt mv) s) q) ∧
    (9300 ≤ mv → p.low = true → Answers (exec (.vbatLowClear dt mv) s) (fun u => u.dev.power.low = false ∧ u.dev.power.vbat = mv ∧
      vget u.dev.power.since 0 none = none ∧ within u)) ∧
    (8500 ≤ mv → gives (exec (.vbatPowerFail dt mv) s) q) ∧ (mv ≤ 63000 → gives (exec (.vbatOvervoltage dt mv) s) q) ∧
    ((d.powered = false ∨ p.shut ≠ none) → gives (exec (.vbatPowerFail dt mv) s) q ∧ gives (exec (.vbatOvervoltage dt mv) s) q) ∧
    ((d.powered = false ∨ p.shut ≠ none ∨ causeShuts cause = false) → Idles (exec (.shutdownImminent dt cause) s) d) ∧
    (d.powered = true → p.shut = none → (mv < 8500 → shuts (exec (.vbatPowerFail dt mv) s) .pfVbat) ∧
      (63000 < mv → shuts (exec (.vbatOvervoltage dt mv) s) .ovVbat) ∧
      (causeShuts cause = true → shuts (exec (.shutdownImminent dt cause) s) cause) ∧
      (r ≠ 0 → railBeyond r mv (railLimit r) = true → shuts (exec (.railFault dt rail mv) s) .rail) ∧
      (16200 ≤ max a b → shuts (exec (.hwThermalTrip dt a b) s) .thermHw ∧ Answers (exec (.hwThermalTrip dt a b) s) (fun u =>
        u.dev.power.thermCount = p.thermCount + 1 ∧ (p.thermLock = true → u.dev.power.thermLock = true)))) ∧
    ((s.elapse dt).dev.alive = true → p.shut = none → ∀ t, d.standbyDue = some t → t ≤ d.now → shuts (exec (.standbyShutdown dt) s) .standby) ∧
    (d.standbyDue = none → Idles (exec (.standbyShutdown dt) s) d) ∧
    (∀ t, d.standbyDue = some t → d.now < t → Idles (exec (.standbyShutdown dt) s) d) ∧
    (max a b < 16200 → gives (exec (.hwThermalTrip dt a b) s) { p with sdC := a, sdP := b }) ∧
    (p.thermHold = true → p.thermLock = false → max a b < 14000 → p.core = .off → 9500 ≤ p.vbat → p.offUntil ≤ d.now →
      starts (exec (.hwThermalRestart dt a b) s) ∧ Answers (exec (.hwThermalRestart dt a b) s) (fun u => u.dev.power.thermHold = false)) ∧
    ((p.thermHold = false ∨ 14000 ≤ max a b) → gives (exec (.hwThermalRestart dt a b) s) { p with sdC := a, sdP := b }) ∧
    (p.thermHold = true → p.thermLock = true → max a b < 14000 → p.core = .off → gives (exec (.hwThermalRestart dt a b) s) { p with
      sdC := a, sdP := b, thermHold := false }) ∧
    (r ≠ 0 → (d.powered = false ∨ railBeyond r mv (railWarn r) = false) → gives (exec (.railWarning dt rail mv) s) (d.setRail r mv).power) ∧
    (r ≠ 0 → d.powered = true → railBeyond r mv (railWarn r) = true → Answers (exec (.railWarning dt rail mv) s) (fun u =>
      bit u.dev.power.warn (r - 1) = true ∧ u.dev.power.shut = p.shut ∧ u.dev.power.core = p.core ∧
      (d.alive = true → u.dev.bist = (d.sliceLoss 3).bist) ∧ d.OnlyIn (.power :: .bist :: reports) u.dev)) ∧
    (r ≠ 0 → railBeyond r mv (railWarn r) = false → bit p.warn (r - 1) = true → Answers (exec (.railWarningEnd dt rail mv) s) (fun u =>
      bit u.dev.power.warn (r - 1) = false ∧ vget u.dev.power.since r none = none ∧ within u)) ∧
    ((d.powered = false ∨ railBeyond r mv (railLimit r) = false) → gives (exec (.railFault dt rail mv) s) (d.setRail r mv).power) ∧
    (p.shut = none → Idles (exec (.powerRemoval dt) s) d) ∧
    (∀ t c, p.shut = some (t, c) → d.now < t + 100 * us → Idles (exec (.powerRemoval dt) s) d) ∧
    (∀ t c, p.shut = some (t, c) → t + 100 * us ≤ d.now → Answers (exec (.powerRemoval dt) s) (fun u => u.host = {} ∧
      u.dev.power.core = (if c = .standby then .standby else .off) ∧ u.dev.power.shut = none ∧ u.dev.power.offUntil = t + 100 * us + 10 * ms ∧
      u.dev.power.cause = p.cause ∧ (p.core = .run ∨ p.core = .boot → u.dev.ready = false) ∧ u.dev.sec.flash = d.sec.flash ∧ u.dev.sec.fuses = d.sec.fuses)) ∧
    (Answers (exec (.aonMinimum dt) s) (fun u => u.host = {} ∧ u.dev.power.core = .off ∧ u.dev.power.shut = none ∧ u.dev.power.cause = .por ∧
      u.dev.power.vbat = 0 ∧ u.dev.ready = false ∧ u.dev.sec.flash = d.sec.flash ∧ u.dev.sec.fuses = d.sec.fuses)) ∧
    (p.startDue = true → p.offUntil ≤ d.now → d.powered = false → starts (exec (.minOffTimeExpiry dt) s)) ∧
    ((p.startDue = false ∨ d.now < p.offUntil ∨ d.powered = true) → Idles (exec (.minOffTimeExpiry dt) s) d) ∧
    (p.core = .standby → ms ≤ width → p.offUntil ≤ d.now → starts (exec (.wakeAssert dt width) s)) ∧
    ((p.core ≠ .standby ∨ width < ms) → Idles (exec (.wakeAssert dt width) s) d)

/-- THERMAL_SAMPLE takes the readings of the sensors that are due on the dies that run, 100 us or 1 ms after their last (R406), leaves every
other sensor and never lowers the step; a reading out of range excludes its sensor; THERM_STEP_DOWN once due lowers it by one.
BB_RECORD_WRITE begins to write the oldest pending record under the next SEQ, one at a time and none after shutdown-imminent;
BB_RECORD_COMMIT appends it with its commit word, over the oldest of 2,048; a sealed change is counted with the write of its record and
takes effect on the digests with its commit (R386); ON_TIME_TICK counts every 60 s. Otherwise nothing changes. (derived: R386, R400,
R406, R407, R408, R411, R412, R416, notes/assumptions/84.md, notes/assumptions/85.md) -/
def Obligations.ThermalAndLog : Prop :=
    ∀ (s : State) (dt : Nat) (temps : List Int),
    let d := (s.elapse dt).dev
    let p := d.power
    let l := d.log
    let counted := ∀ i, i < 10 → d.counterOk i = true
    ((∀ i, i < 16 → p.sampleDue i d.now = false) → Idles (exec (.thermalSample dt temps) s) d) ∧
    Answers (exec (.thermalSample dt temps) s) (fun u => p.step ≤ u.dev.power.step ∧ u.dev.power.core = p.core ∧
      (d.alive = false → u.dev.power.step = p.step) ∧
      (∀ i t, i < 12 → d.alive = true → p.sampleDue i d.now = true → temps[i]? = some t → (u.dev.power.sensor i).reading = t ∧
        (u.dev.power.sensor i).at_ = max 1 d.now ∧ ((t < -5500 ∨ 20000 < t) → (u.dev.power.sensor i).valid = false)) ∧
      (∀ i, i < 12 → (d.alive = false ∨ p.sampleDue i d.now = false) →
        (u.dev.power.sensor i).reading = (p.sensor i).reading ∧ (u.dev.power.sensor i).valid = (p.sensor i).valid)) ∧
    ((p.step = 0 ∨ p.belowSince = none ∨ d.now < p.downAt d.now) → Idles (exec (.thermStepDown dt) s) d) ∧
    ((s.elapse dt).dev.alive = true → p.step ≠ 0 → p.step ≤ 4 → p.belowSince ≠ none → p.downAt d.now ≤ d.now → p.twoFailed = false →
      Answers (exec (.thermStepDown dt) s) (fun u => u.dev.power.step = p.step - 1 ∧ u.dev.power.sensors = p.sensors ∧
        u.dev.fire = d.fire)) ∧
    (l.writing ≠ none → d.wcp.waits = [] → Idles (exec (.bbRecordWrite dt) s) d) ∧
    (∀ x rest, (s.elapse dt).dev.alive = true → s.dev.ready = true → l.writing = none → p.shut = none → l.pend = x :: rest →
      counted → Answers (exec (.bbRecordWrite dt) s) (fun u => u.dev.log.pend = rest ∧ u.dev.log.sealing = x.change ∧
        (x.change = none → u.dev.log.writing = some (d.recordBits x l.nextSeq) ∧ u.dev.log.counters = l.counters) ∧
        (x.change ≠ none → u.dev.log.writing ≠ none ∧ u.dev.log.counters = (d.count cSeal 1).log.counters) ∧
        u.dev.log.writeAt = d.now ∧ u.dev.log.nextSeq = l.nextSeq + 1 ∧ u.dev.log.recs = l.recs ∧
        u.dev.bist = (d.serve [7]).bist ∧ d.OnlyIn (.bist :: .ring :: reports) u.dev)) ∧
    (p.shut ≠ none → d.wcp.waits = [] → Idles (exec (.bbRecordWrite dt) s) d) ∧
    (l.writing = none → Idles (exec (.bbRecordCommit dt) s) d) ∧
    (∀ w, (s.elapse dt).dev.alive = true → l.writing = some w → counted → Answers (exec (.bbRecordCommit dt) s) (fun u => u.dev.log.writing = none ∧
      u.dev.log.recs = (if 2048 ≤ l.recs.length then l.recs.drop 1 else l.recs) ++
        [BitVec.ofNat 4096 ((d.withSealEntry w).toNat % 2 ^ 4032 + recCommit (recSeq (d.withSealEntry w)))] ∧
      u.dev.log.pend = l.pend ∧ u.dev.log.nextSeq = l.nextSeq ∧ u.dev.log.sealing = none ∧
      u.dev.sec.digests = ((l.sealing.map (fun z => z.digests d.sec.digests)).getD d.sec.digests) ∧
      (l.sealing = none → u.dev.sec = d.sec) ∧ d.OnlyIn (.sec :: .ring :: reports) u.dev)) ∧
    (d.now < l.onTimeAt + 60 * second → Idles (exec (.onTimeTick dt) s) d) ∧
    ((s.elapse dt).dev.alive = true → l.onTimeAt + 60 * second ≤ d.now → Answers (exec (.onTimeTick dt) s) (fun u =>
      u.dev.log.onTimeAt = d.now ∧ u.dev.log.counters = (d.count cOnTime 1).log.counters ∧ u.dev.log.recs = l.recs ∧
      d.OnlyIn reports u.dev))

/-- For every row of the command protocol: an authentic envelope that an in-flight bound turns away, or whose execution answers S_BUSY, is
answered S_BUSY; the step is that answer and nothing else: the device is as it was once a self-test slice of the security engine has
been cut short (R361), the session keeps its counter and its cache, and the same envelope, with the same counter and tag, is authentic
still. (R19) -/
def Obligations.BusyConsumesNothing : Prop :=
    ∀ (i : Instr) (r : WcpRow) (s : State) (e : Env), wcpRow? i = some r →
    Offered r.origin r.cmd e (s.elapse r.dt) → e.malformed = false → e.session ≠ 0xFF →
    let d := (s.elapse r.dt).dev
    let q := d.session e.session
    let served := d.serveOrWait [5]
    q.isOpen = true → e.tagOk (keyBytes q.key) = true → q.find e.counter = none → q.high.toNat < e.counter →
    let bounded := q.pending = 16 ∨ e.tooMany = true
    (bounded ∨ (r.cmd.tracked e served).2.1 = sBusy) →
    exec i s = .next (r.answered s e (if bounded then served else served.rightsRead e.id (r.cmd.sealed e.payload),
      response (some (keyBytes q.key)) e.id e.session e.counter sBusy 0 d.time.ns.toNat
        (if bounded then Bytes.nil else (r.cmd.tracked e served).2.2))) ∧
    Answers (exec i s) (fun u => served.Keeps u.dev ∧ u.dev.session e.session = q ∧ e.tagOk (keyBytes (u.dev.session e.session).key) = true ∧
      (u.dev.session e.session).find e.counter = none ∧ (u.dev.session e.session).high.toNat < e.counter)

/-- COMMANDED_RESET_TIMER once due, DEVICE_RESET on a cause that leaves the rails up, RST_N_ASSERT, LOCKSTEP_MISMATCH and SWITCHOVER_TIMEOUT
8 ms into a switchover, each while the C-die runs, POWER_REMOVAL 100 us after a shutdown of a running device, and AON_MINIMUM: every
session is closed, every mailbox is FREE and every byte of the windows reads zero; no command waits and no reply is left. (R43) -/
def Obligations.ResetClosesTheProtocol : Prop :=
    ∀ (s : State) (dt width : Nat) (cause : Cause),
    let d := (s.elapse dt).dev
    let closed := fun (x : Host.Outcome State Fault Refusal) => Answers x (fun u =>
      (∀ n, (u.dev.session n).isOpen = false) ∧ (∀ n : Fin 8, vget u.host.mb n.val .busy = .free) ∧
      (∀ a, Mem.read winDefault u.host.mem a = 0) ∧ u.dev.wcp.waits = [] ∧ u.dev.wcp.replies = [])
    (d.alive = true →
    (∀ t, d.wcp.resetAt = some (t, cause) → t ≤ d.now → closed (exec (.commandedResetTimer dt) s)) ∧
    (causeShuts cause = false → cause ≠ .por → closed (exec (.deviceReset dt cause) s)) ∧
    closed (exec (.rstNAssert dt width) s) ∧ closed (exec (.lockstepMismatch dt) s) ∧
    (∀ t, d.sec.switchAt = some t → t + 8 * ms ≤ d.now → closed (exec (.switchoverTimeout dt) s))) ∧
    (∀ t c, d.power.shut = some (t, c) → t + 100 * us ≤ d.now → d.power.core = .boot ∨ d.power.core = .run → closed (exec (.powerRemoval dt) s)) ∧
    closed (exec (.aonMinimum dt) s)

/-- For each of the restartable functions of the device: enable and disable take the function from state to state and answer exactly as
Table 1-6 lists, with RESTART_PENDING set and cleared as it says, an enable that waits pending on ON, a disable that waits pending on
OFF; the completion of a start brings ON, clears FAULT_STOP and, unless a disable waits behind the start, RESTART_PENDING; the
completion of a stop brings OFF with the minimum off time ahead and, where the stop was a fault stop, ends a pending enable with
S_HW_FAULT (R22); a change of one function leaves every other as it was. (R21) -/
def Obligations.RestartTable : Prop :=
    ∀ (d : Device) (i : FnId) (slow : Bool) (minOff : Nat),
    let f := d.getFn i
    let on := d.enableFn i slow (fun x => x)
    let off := d.disableFn i slow (fun x => x)
    (f.st = .off → f.offUntil ≤ d.now → (on.1).getFn i = { f with st := .starting, restart := false } ∧
      on.2 = if slow then .pend (.fnOn i) else .no sOk) ∧
    (f.st = .off → d.now < f.offUntil → (on.1).getFn i = { f with restart := true } ∧ on.2 = .pend (.fnOn i)) ∧
    (f.st = .starting → f.stopPending = false → (on.1).getFn i = f ∧ on.2 = .no sOk) ∧
    (f.st = .starting → f.stopPending = true → (on.1).getFn i = { f with restart := true } ∧ on.2 = .no sRestartPending) ∧
    (f.st = .on → (on.1).getFn i = f ∧ on.2 = .no sOk) ∧
    (f.st = .stopping → (on.1).getFn i = { f with restart := true } ∧ on.2 = .no sRestartPending) ∧
    (f.st = .off → f.restart = false → (off.1).getFn i = f ∧ off.2 = .no sOk) ∧
    (f.st = .off → f.restart = true → off.2 = .no sOk ∧
      off.1 = (d.putFn i { f with restart := false }).complete (.fnOn i) sBadState Bytes.nil) ∧
    (f.st = .starting → f.stopPending = false → (off.1).getFn i = { f with stopPending := true } ∧ off.2 = .pend (.fnOff i)) ∧
    (f.st = .starting → f.stopPending = true → (off.1).getFn i = { f with restart := false } ∧ off.2 = .no sOk) ∧
    (f.st = .on → (off.1).getFn i = { f with st := .stopping } ∧ off.2 = if slow then .pend (.fnOff i) else .no sOk) ∧
    (f.st = .stopping → (off.1).getFn i = { f with restart := false } ∧ off.2 = .no sOk) ∧
    d.reachOn i = (d.putFn i { f with st := .on, faultStop := false, restart := f.restart && f.stopPending }).complete (.fnOn i) sOk Bytes.nil ∧
    (f.faultStop = false → d.reachOff i minOff =
      (d.putFn i { f with st := .off, stopPending := false, offUntil := d.now + minOff }).complete (.fnOff i) sOk Bytes.nil) ∧
    (f.faultStop = true → d.reachOff i minOff =
      ((d.putFn i { f with st := .off, stopPending := false, offUntil := d.now + minOff }).complete (.fnOff i) sOk Bytes.nil).complete (.fnOn i)
        sHwFault Bytes.nil) ∧
    (∀ x : Fn, (d.putFn i x).getFn i = x) ∧ (∀ (x : Fn) (j : FnId), j ≠ i → (d.putFn i x).getFn j = d.getFn j)

/-- For every command and state: where a kill is latched before a step and not after it, the command was fire.kill.clear and the firing
controller was OFF. A value of the latch whose complement does not agree counts as latched. (derived: R97) -/
def Obligations.KillClearedOnlyByItsCommand : Prop :=
    ∀ (i : Instr) (s t : State), exec i s = .next t → s.dev.fire.killed = true → t.dev.fire.killed = false →
    (∃ dt o, i = .fireKillClear dt o) ∧ s.dev.fire.fn.st = .off

/-- The effects of the firing controller's change commands on a device: fire.enable in OFF with nothing against it starts STARTING with
ARM_LEAD running from now, and is refused S_BAD_STATE while a kill is latched, the plan selected is not committed, vendor debug is open
or ladder step 4 is in force; fire.disable in ON enters STOPPING; fire.kill.clear, refused outside OFF, clears the latch and no stripe
mark; fire.stripe.clear clears the marks named and no other and leaves the latch, each unless shutdown-imminent is asserted, when no
MRAM is written any more (R400), and each cutting short a self-test slice of the MRAM (R361); fire.emitter.set, refused outside OFF,
takes its 16 bytes; fire.budget.set, refused outside OFF, takes its 32 bytes, not after shutdown-imminent, ends the safe default and
restarts the wait; fire.dither.set takes a seed for the next frame; scan.plan.select names the next plan. (derived: R77, R82, R86, R87,
R90, R92, R94, R97, R98, R361, R400) -/
def Obligations.FiringCommandsAct : Prop :=
    ∀ (d : Device) (c : Ctx) (p : Bytes),
    let f := d.fire
    let fireOf := fun (x : Cmd) => (x.run c p d).1.fire
    (f.fn.st = .off → f.fn.offUntil ≤ d.now → (fireOf cmdFireEnable).fn = { f.fn with st := .starting, restart := false } ∧
      (fireOf cmdFireEnable).armAt = some d.now ∧ (fireOf cmdFireEnable).latch = f.latch ∧ (cmdFireEnable.run c p d).2 = .pend (.fnOn .fire)) ∧
    ((f.killed = true ∨ vget f.committed f.selected.val false = false ∨ d.sec.debug = true ∨ 4 ≤ d.power.step) →
      cmdFireEnable.late p d = some (sBadState, Bytes.nil)) ∧
    (f.fn.st = .on → (fireOf cmdFireDisable).fn.st = .stopping ∧ (fireOf cmdFireDisable).latch = f.latch ∧
      (cmdFireDisable.run c p d).2 = .pend (.fnOff .fire)) ∧
    (f.fn.st ≠ .off → cmdKillClear.late p d = some (sBadState, Bytes.nil) ∧ cmdEmitterSet.late p d = some (sBadState, Bytes.nil) ∧
      cmdBudgetSet.late p d = some (sBadState, Bytes.nil)) ∧
    (cmdKillClear.run c p d).2 = .no sOk ∧ (cmdStripeClear.run c p d).2 = .no sOk ∧
    (d.power.shut.isSome = true → (cmdKillClear.run c p d).1 = d ∧ (cmdStripeClear.run c p d).1 = d ∧ (fireOf cmdBudgetSet) = f) ∧
    (d.power.shut = none → (fireOf cmdKillClear).killed = false ∧ (∀ k, k < 48 → (fireOf cmdKillClear).failedStripe k = f.failedStripe k) ∧
      d.OnlyIn (.fire :: .bist :: reports) (cmdKillClear.run c p d).1) ∧
    (p.val < 2 ^ 48 → d.power.shut = none → (fireOf cmdStripeClear).killed = f.killed ∧
      d.OnlyIn (.fire :: .bist :: reports) (cmdStripeClear.run c p d).1 ∧
      ∀ k, k < 48 → (fireOf cmdStripeClear).failedStripe k = (f.failedStripe k && !nbit p.val k)) ∧
    cmdEmitterSet.run c p d = ({ d with fire := { f with emitter := .ofNat 128 p.val } }, .no sOk) ∧
    (d.power.shut = none → (fireOf cmdBudgetSet).budgetNow = .ofNat 256 p.val ∧ (fireOf cmdBudgetSet).budgetAt = d.now ∧ (fireOf cmdBudgetSet).latch = f.latch) ∧
    cmdDitherSet.run c p d = ({ d with fire := { f with seed := .ofNat 32 (p.word 0), seedPending := true } }, .no sOk) ∧
    (p.word 0 < 8 → ((fireOf cmdPlanSelect).selected.val = p.word 0 % 8 ∧ (fireOf cmdPlanSelect).latch = f.latch))

/-- From every state in which each cell in use is one of the 32,768 of the pool, so that no more are in use, each queue stands once and no
cell holds bytes of two queues, a step that answers a next state leaves a state of which the same holds; it holds right after reset.
That a request fails where withdrawn regions leave fewer cells than the RESERVEs is the model's choice (log entry 173). (derived: R252,
R254, R255, R367, notes/assumptions/173.md) -/
def Obligations.PoolInvariant : Prop :=
    State.reset.dev.qs.Pool ∧ (∀ s t : State, s.dev.qs.Pool → step s = .next t → t.dev.qs.Pool)

/-- For every command and state: each live sealed parameter held on the C-die (dose budget, lens table, zone maps, rule table, self-test
configuration, sealed reservations) is as before, but at the row of its own sealed-change command, at the rows where sealed commands
that waited are executed, at LC_ADVANCE and BOOT, which can set the safe defaults of RETURN; and the sealed reservations also at the
rows that bring the answer to a request, there only where seal.resv.set waits for one. No other command, no reset and no event changes
one. (derived: R237, R238, R375, R376, R383, R384, R388, R439) -/
def Obligations.SealedParametersKept : Prop :=
    ∀ (i : Instr) (s t : State), exec i s = .next t →
    let p := s.dev.sealedParams
    let q := t.dev.sealedParams
    (1 ∉ sealedOrders i → q.budget = p.budget) ∧ (2 ∉ sealedOrders i → q.lens = p.lens) ∧ (3 ∉ sealedOrders i → q.zmaps = p.zmaps) ∧
    (5 ∉ sealedOrders i → q.rules = p.rules) ∧ (6 ∉ sealedOrders i → q.bist = p.bist) ∧ (7 ∉ sealedOrders i → q.resv = p.resv) ∧
    (answersResv i = true → q.resv ≠ p.resv → ∃ w ∈ s.dev.wcp.waits, ∃ n, w.kind = .sealResv n)

/-- Each of these rows answers the next state that time and its effect give, settled: those of the host port (HIF_DB_WRITE to BAD_OP) with
the C-die out of reset and no transaction ignored; the rows of the running firmware with the C-die out of reset and READY set; resets
where their cause is there; supply, thermal and field power-on rows in every state. (derived: 00_scope.md, 02_commands.md,
13_security.md, 14_power_thermal_log.md, R36, R400, R404, R439) -/
def Obligations.HostAndSupplyRowsComplete : Prop :=
    ∀ (s : State) (dt : Nat),
    let t := s.elapse dt
    let d := t.dev
    let runs := fun (i : Instr) (x : Device) => exec i s = .next (State.settle { t with dev := x } s.dev)
    let touches := fun (i : Instr) (x : State) => exec i s = .next (State.settle x s.dev)
    let restarts := fun (i : Instr) (x : Device) => exec i s =
      .next { t with host := {}, dev := { x with wcp := { x.wcp with out := [], irq := 0 } } }
    (∀ (v : Word), d.alive = true → s.host.ignoring = false → touches (.hifDbWrite dt v) (t.hostWrite 0x0200 [v])) ∧
    (∀ (v : Word), d.alive = true → s.host.ignoring = false → touches (.hifMbRelWrite dt v) (t.hostWrite 0x0204 [v])) ∧
    (∀ (v : Word), d.alive = true → s.host.ignoring = false → touches (.hifEvtRdWrite dt v) (t.hostWrite 0x0214 [v])) ∧
    (∀ (op : ReadOp) (addr : BitVec 16) (n : Nat), d.alive = true → s.host.ignoring = false →
      touches (.hifTimeLoRead dt op addr n) (t.transaction (readCode op) addr (List.replicate n 0))) ∧
    (∀ (op : ReadOp) (addr : BitVec 16) (n : Nat), d.alive = true → s.host.ignoring = false →
      touches (.hifEvtLostRead dt op addr n) (t.transaction (readCode op) addr (List.replicate n 0))) ∧
    (∀ (op : WriteOp) (addr : BitVec 16) (ws : List Word), d.alive = true → s.host.ignoring = false →
      touches (.mbWindowWrite dt op addr ws) (t.transaction (writeCode op) addr ws)) ∧
    (∀ (op : WriteOp) (addr : BitVec 16) (ws : List Word), d.alive = true → s.host.ignoring = false →
      touches (.registerWrite dt op addr ws) (t.transaction (writeCode op) addr ws)) ∧
    (∀ (cut : CutWord), d.alive = true → exec (.hostCsNRelease dt cut) s = .next (State.settle { t with host := t.host.csRelease cut } s.dev)) ∧
    (∀ (opcode : Byte), d.alive = true → s.host.ignoring = false → knownOpcode opcode = false →
      touches (.badOp dt opcode) (t.transaction opcode 0 [])) ∧
    (∀ (accepted : Bool), d.alive = true → d.ready = true → runs (.responseRetry dt accepted) (d.retryReply accepted)) ∧
    (∀ (n : Fin 16), d.alive = true → d.ready = true → runs (.sessionIdleTimeout dt n) (d.idleTimeout n.val)) ∧
    (∀ (n : Fin 16), d.alive = true → d.ready = true → runs (.sessionOpenTimeout dt n) (d.openTimeout n.val)) ∧
    (∀ t c, d.wcp.resetAt = some (t, c) → d.alive = true → t ≤ d.now → restarts (.commandedResetTimer dt) (d.reboot c)) ∧
    (∀ (cause : Cause), d.alive = true → causeShuts cause = false → cause ≠ .por → restarts (.deviceReset dt cause) (d.reboot cause)) ∧
    (∀ (width : Nat), d.alive = true → restarts (.rstNAssert dt width) ((d.rstAssert width).reboot .rstN)) ∧
    (∀ (width : Nat), d.alive = false → runs (.rstNAssert dt width) (d.rstAssert width)) ∧
    runs (.rstNRelease dt) d.rstRelease ∧
    (∀ (env : BootEnv), d.power.core = .boot → d.ready = false → runs (.boot dt env) (d.boot env)) ∧
    (∀ (width : Nat), runs (.emitFaultNAssert dt width) (d.emitFaultPin width)) ∧
    (∀ (f : FnId), onField f = false → d.alive = true → runs (.functionRestart dt f) (d.restart f)) ∧
    (∀ (f : FnId), onField f = true → d.field.running = true → runs (.functionRestart dt f) (d.restart f)) ∧
    (∀ (counts : List Nat), d.alive = true → d.ready = true → runs (.rxVbdMeasureDone dt counts) (d.vbdDone counts)) ∧
    (d.alive = true → restarts (.lockstepMismatch dt) (d.reboot .lockstep)) ∧
    (d.alive = true → d.ready = true → runs (.switchoverStart dt) d.switchStart) ∧
    (d.alive = true → d.ready = true → runs (.switchoverDone dt) d.switchDone) ∧
    (∀ t, d.sec.switchAt = some t → d.alive = true → t + 8 * ms ≤ d.now → restarts (.switchoverTimeout dt) (d.reboot .switchFail)) ∧
    (∀ (c : Component), d.alive = true → d.ready = true → runs (.fwEraseDone dt c) (d.eraseDone c)) ∧
    (∀ (c : Component), d.alive = true → d.ready = true → runs (.fwVerifyDone dt c) (d.verifyDone c)) ∧
    (∀ (mv : Nat) (calm : Nat), runs (.vbatStart dt mv calm) (d.vbatStart mv calm)) ∧
    (∀ (mv : Nat), runs (.vbatLowWarning dt mv) (d.vbatLow mv)) ∧
    (∀ (mv : Nat), mv < 8500 → runs (.vbatPowerFail dt mv) ((d.setRail 0 mv).shutdown .pfVbat)) ∧
    (∀ (mv : Nat), 63000 < mv → runs (.vbatOvervoltage dt mv) ((d.setRail 0 mv).shutdown .ovVbat)) ∧
    restarts (.aonMinimum dt) d.aonMinimum ∧
    (∀ (rail : Rail) (mv : Nat), runs (.railWarning dt rail mv) (d.railWarning (railNo rail) mv)) ∧
    (∀ (rail : Rail) (mv : Nat), runs (.railFault dt rail mv) (d.railFault (railNo rail) mv)) ∧
    (∀ (cause : Cause), causeShuts cause = true → runs (.shutdownImminent dt cause) (d.shutdown cause)) ∧
    (∀ t c, d.power.shut = some (t, c) → t + 100 * us ≤ d.now → restarts (.powerRemoval dt) (d.removed (t + 100 * us) c)) ∧
    (d.power.startDue = true → d.power.offUntil ≤ d.now → d.powered = false → runs (.minOffTimeExpiry dt) d.powerUp) ∧
    (∀ (width : Nat), d.power.core = .standby → ms ≤ width → runs (.wakeAssert dt width) d.powerUp) ∧
    (∀ (temps : List Int), runs (.thermalSample dt temps) (d.thermSample temps)) ∧
    (∀ (sdC sdP : Int), runs (.hwThermalTrip dt sdC sdP) (d.thermTrip sdC sdP)) ∧
    (∀ (sdC sdP : Int), runs (.hwThermalRestart dt sdC sdP) (d.thermRestart sdC sdP)) ∧
    (∀ (temps : List Int), runs (.fieldThermalRestart dt temps) (d.fieldCool temps)) ∧
    (∀ (v0 v1 v2 v3 : Nat), runs (.fieldPowerOn dt v0 v1 v2 v3) (d.fieldOn [v0, v1, v2, v3])) ∧
    (∀ (v0 v1 v2 v3 : Nat), runs (.fieldPowerLoss dt v0 v1 v2 v3) (d.fieldOff [v0, v1, v2, v3])) ∧
    (d.alive = true → d.ready = true → runs (.bbRecordWrite dt) d.bbWrite) ∧
    (∀ (o : Origin) (e : Env), t.envelope o = some e → definedIds.contains e.id = false → d.serves = true →
      exec (.undefinedCommandId dt o) s = .next (({ dt, origin := o, cmd := cmdUndefined e.id } : WcpRow).answered s e
        ((cmdUndefined e.id).handle noOpen e d))) ∧
    (∀ (mv : Nat), runs (.vbatLowClear dt mv) (d.vbatLowClear mv)) ∧
    (∀ (rail : Rail) (mv : Nat), runs (.railWarningEnd dt rail mv) (d.railWarningEnd (railNo rail) mv))

/-- With the C-die out of reset, each of these rows answers the next state that time and its effect give, settled, whatever its operands.
(derived: 03_firing.md, 04_receiver.md, 05_histograms.md, 06_returns.md, 07_range_calibration.md, 12_selftest.md, 13_security.md,
14_power_thermal_log.md, R439) -/
def Obligations.CoreRowsComplete : Prop :=
    ∀ (s : State) (dt : Nat), (s.elapse dt).dev.alive = true →
    let d := (s.elapse dt).dev
    let runs := fun (i : Instr) (x : Device) => exec i s = .next (State.settle { s.elapse dt with dev := x } s.dev)
    runs (.internalTrigger dt) d.internalTrigger ∧
    (∀ (width : Nat), d.fire.trigSrc = 1 → 100 ≤ width → runs (.frameSyncAssert dt width) (d.trigger ⟨d.now, false⟩)) ∧
    runs (.calendarInstant dt) d.calendarInstant ∧
    (d.promote.frameDue = true → d.promote.pairFree = true → runs (.frameStart dt) d.promote.frameBegin) ∧
    (d.promote.frameDue = true → d.promote.pairFree = false → runs (.frameStart dt) d.promote.holdStart) ∧
    runs (.shotQueueEnqueue dt) d.enqueue ∧
    (∀ (off : Int), runs (.groupStart dt off) (d.groupStart off)) ∧
    (∀ (w0 w1 w2 w3 : List (Nat × Nat)), runs (.shot dt w0 w1 w2 w3) (d.shot [w0, w1, w2, w3])) ∧
    (∀ (w : Fin 4), runs (.witnessStrayEvent dt w) (d.stray w.val d.now)) ∧
    runs (.armLeadExpiry dt) d.armLead ∧
    runs (.doseSubwindowBoundary dt) ((d.modFire (fun f => f.roll d.govTime)).budgetCheck) ∧
    runs (.fireStopDone dt) d.fireStopDone ∧
    (∀ g, d.fire.grp = some g → d.fire.groupOver g d.now = true → runs (.groupAccumulationEnd dt) (d.endGroup g)) ∧
    (∀ (ch : Fin 1032) (t : Nat) (ages : List Nat), runs (.photonEvent dt ch t ages) (d.photon ch.val t ages)) ∧
    (∀ (off : Int) (held : Nat), runs (.biasFault dt off held) (d.biasFaulted off held)) ∧
    (∀ (off : Int) (held : Nat), runs (.biasFaultClear dt off held) (d.biasCleared off held)) ∧
    runs (.holdoffAutoTimer dt) d.holdoffTimer ∧
    runs (.surveyPassStart dt) d.surveyStart ∧
    (∀ (counts : List Nat), runs (.surveyPassDone dt counts) (d.surveyDone counts)) ∧
    (∀ (tdc : Fin 1032) (codes : List Nat), runs (.linearisationUpdate dt tdc codes) (d.linUpdate tdc.val codes)) ∧
    (∀ (w4 w5 w6 w7 : List (Nat × Nat)), runs (.witnessIntervalEnd dt w4 w5 w6 w7) (d.witnessInterval [w4, w5, w6, w7])) ∧
    (∀ (ch : Fin 1024), runs (.eventWordAccumulate dt ch) (d.modHist (fun h => h.takeWord ch.val))) ∧
    runs (.pairHandover dt) d.handover ∧
    runs (.retProcessingStart dt) d.procStart ∧
    runs (.retProcessingEnd dt) d.procEnd ∧
    runs (.exportChunkEnqueue dt) d.exportChunk ∧
    runs (.exportStopTimeout dt) d.exportTimeout ∧
    runs (.planeHoldTimeout dt) d.holdTimeout ∧
    runs (.importChunkDequeue dt) d.importDequeue ∧
    runs (.importSliceStart dt) d.importSlice ∧
    runs (.importUnitDone dt) d.importDone ∧
    (∀ (z : Fin 64), runs (.zoneBlindTimeout dt z) (d.zoneBlind z.val)) ∧
    runs (.windowLearnDone dt) d.learnDone ∧
    runs (.referencePassStart dt) d.refStart ∧
    (∀ (m : List Int), runs (.referencePassDone dt m) (d.refDone m)) ∧
    runs (.refStaleTimeout dt) d.refStale ∧
    runs (.calFullDone dt) d.calFullDone ∧
    runs (.aspectEvaluation dt) (d.evaluate.sealedEnds) ∧
    (∀ (clocks : Bool), runs (.sliceStart dt clocks) (d.sliceStart clocks)) ∧
    (∀ (r : SliceResult), (d.sliceEnd r).2 = false → runs (.sliceEnd dt r) (d.sliceEnd r).1) ∧
    (∀ (bus : Bool) (seen : Option Nat), (d.sliceService bus seen).2 = false →
      runs (.sliceServiceAbort dt bus seen) (d.sliceService bus seen).1) ∧
    (∀ (cause : Fin 8) (seen : Option Nat), (d.slicePrecond cause.val seen).2 = false →
      runs (.slicePreconditionLoss dt cause seen) (d.slicePrecond cause.val seen).1) ∧
    runs (.coverMaxExpiry dt) d.coverMax ∧
    runs (.idleGap dt) d.idleGap ∧
    (∀ (which : Fin 3), runs (.duplicateMismatch dt which) (d.duplicateMismatch which.val)) ∧
    (∀ (verdicts : List DirectedVerdict), runs (.directedRunDone dt verdicts) (d.directedDone verdicts)) ∧
    runs (.sealedSwitchover dt) d.sealStart ∧
    runs (.sealedStartTimeout dt) d.sealFailed ∧
    (∀ (response : BitVec 128), runs (.debugUnlock dt response) (d.debugUnlock response)) ∧
    runs (.thermStepDown dt) d.stepDown ∧
    runs (.bbRecordCommit dt) d.bbCommit ∧
    (d.log.onTimeAt + 60 * second ≤ d.now → runs (.onTimeTick dt) ((d.modLog (fun l => { l with onTimeAt := d.now })).count cOnTime 1)) ∧
    runs (.sealedComponentRunning dt) d.sealRunning ∧
    (∀ t, d.standbyDue = some t → t ≤ d.now →
      runs (.standbyShutdown dt) ((d.modPower (fun p => { p with standbyAt := none })).shutdown .standby)) ∧
    runs (.calendarEpoch dt) d.calendarEpoch ∧
    (∀ (ev : BitVec 16) (source : BitVec 16) (sub : Nat),
      runs (.eventReportWindowEnd dt ev source sub) (d.windowEnd ev.toNat source.toNat sub))

/-- With the C-die out of reset (and, for the field side's rows of the bridge, the field die running), each of these rows answers the next
state that time and its effect give, settled, whatever its operands. (derived: 08_ring.md, 09_streams.md, 10_lamps.md, R439) -/
def Obligations.RingQueueAndCameraRowsComplete : Prop :=
    ∀ (s : State) (dt : Nat), (s.elapse dt).dev.alive = true →
    let d := (s.elapse dt).dev
    let runs := fun (i : Instr) (x : Device) => exec i s = .next (State.settle { s.elapse dt with dev := x } s.dev)
    (∀ (p : Port), runs (.signalDetect dt p) (d.modPort (portNo p) (fun x =>
      if x.active && x.link == .training then { x with signal := true } else x))) ∧
    (∀ (p : Port), runs (.trainingComplete dt p) (d.modPort (portNo p) (fun x =>
      if x.active && x.link == .training && x.signal then { x with link := .aligning, failed := false } else x))) ∧
    (∀ (p : Port) (flit : BitVec 512), runs (.markerLock dt p flit) (d.markerLock (portNo p) flit)) ∧
    (∀ (p : Port), runs (.linkDelayAveraged dt p) (d.delayAveraged (portNo p))) ∧
    runs (.timeServoUpdate dt) d.servoUpdate ∧
    (∀ (p : Port), runs (.superframe dt p) (d.superframe (portNo p))) ∧
    (∀ (p : Port) (flit : BitVec 512), runs (.marker dt p flit) (d.markerSeen (portNo p) flit)) ∧
    (∀ (p : Port) (flit : BitVec 512), runs (.timeFlit dt p flit) (d.timeFlit (portNo p) flit)) ∧
    (∀ (p : Port) (flit : BitVec 512), runs (.creditFlit dt p flit) (d.creditFlit (portNo p) flit)) ∧
    (∀ (p : Port) (flit : BitVec 512), runs (.joinReq dt p flit) (d.topo (portNo p) 1 flit (fun d => d.joinReq (portNo p) flit))) ∧
    (∀ (p : Port) (flit : BitVec 512), runs (.joinAck dt p flit) (d.topo (portNo p) 2 flit (fun d => d.joinAck flit))) ∧
    (∀ (p : Port) (flit : BitVec 512), runs (.leave dt p flit) (d.topo (portNo p) 3 flit (fun d => d.leaveMsg flit))) ∧
    (∀ (p : Port) (flit : BitVec 512), runs (.breakMsg dt p flit) (d.topo (portNo p) 4 flit (fun d => d.breakMsg flit))) ∧
    (∀ (p : Port) (flit : BitVec 512), runs (.heal dt p flit) (d.topo (portNo p) 5 flit (fun d => d.healMsg flit))) ∧
    (∀ (p : Port) (flit : BitVec 512), runs (.members dt p flit) (d.topo (portNo p) 6 flit (fun d => d.membersMsg flit))) ∧
    (∀ (p : Port) (flit : BitVec 512), runs (.calendar dt p flit) (d.topo (portNo p) 7 flit (fun d => d.calendarMsg flit))) ∧
    (∀ (p : Port) (flit : BitVec 512), runs (.resvReq dt p flit) (d.topo (portNo p) 8 flit (fun d => d.resvReq flit))) ∧
    (∀ (p : Port) (flit : BitVec 512), runs (.resvAns dt p flit) (d.topo (portNo p) 9 flit (fun d => d.resvAnsMsg flit))) ∧
    (∀ (p : Port) (flit : BitVec 512), runs (.allowance dt p flit) (d.topo (portNo p) 10 flit (fun d => d.allowanceMsg flit))) ∧
    (∀ (p : Port) (flit : BitVec 512), runs (.elect dt p flit) (d.topo (portNo p) 11 flit (fun d => d.electMsg flit))) ∧
    (∀ (p : Port) (hdr : BitVec 128) (payload : Bytes) (uncorrectable : Bool),
      runs (.ringFrameReceive dt p hdr payload uncorrectable) (d.receiveFrame (portNo p) hdr payload uncorrectable)) ∧
    (∀ (p : Port) (cause : LinkCause), (d.port (portNo p)).live = true →
      runs (.linkFailure dt p cause) (d.linkDown (portNo p) (some (linkCauseNo cause)))) ∧
    (∀ (p : Port), runs (.startingRetryTimer dt p) (d.startRetry (portNo p))) ∧
    (∀ (p : Port) (errors symbols bad : Nat),
      runs (.degradeWindow dt p errors symbols bad) (d.degradeWindow (portNo p) errors symbols bad)) ∧
    runs (.headLossTimeout dt) d.headLoss ∧
    runs (.electTimeout dt) d.electTimeout ∧
    runs (.noHeadReport dt) d.noHead ∧
    runs (.joinRetryTimer dt) d.joinRetry ∧
    (∀ (node : Fin 32), runs (.nodeHoldExpiry dt node) (d.holdExpiry node.val)) ∧
    (d.ring.head = true → d.ring.membersAt ≤ d.now → runs (.membersRepeat dt) d.sendMembers) ∧
    (d.ring.head = true → d.ring.calendarAt ≤ d.now → runs (.calendarRepeat dt) d.sendCalendar) ∧
    runs (.timeHoldoverTimeout dt) d.holdoverEnd ∧
    (∀ (p : Port), runs (.ringPortStopDone dt p) (d.portStopDone (portNo p))) ∧
    (∀ (q : Fin 16384) (flags recsize records info : Nat) (unit : Bytes),
      runs (.cellRequest dt q flags recsize records info unit) (d.cellRequest q.val flags recsize records info unit)) ∧
    (∀ (p : Port), runs (.inboundFrameAppend dt p) (d.frameAppend (portNo p))) ∧
    (∀ (q : Fin 16384) (src : Fin 32), ((d.queue q.val).partial_ src.val).open_ = true →
      ((d.queue q.val).partial_ src.val).at_ + 10 * ms ≤ d.now → runs (.partialUnitTimeout dt q src) (d.dropPartial q.val src.val 4)) ∧
    (∀ (q : Fin 16384) (sub : Fin 33), runs (.unitDelivered dt q sub) (d.delivered q.val sub.val)) ∧
    (∀ (q : Fin 16384) (sub : Fin 33) (x : Sub) (t : Nat), d.qs.sub? q.val sub.val = some x → x.st ≠ .ending → x.lease = some t →
      t ≤ d.now → runs (.leaseExpiry dt q sub) (d.endSub q.val sub.val 1)) ∧
    (∀ (q : Fin 16384), (d.queue q.val).fn.st = .stopping → ((d.queue q.val).units = [] ∨ (d.queue q.val).fn.stopBy ≤ d.now) →
      runs (.qStopTimeout dt q) (d.queueOff q.val)) ∧
    (∀ (q : Fin 16384) (node : Fin 32) (x : Sub) (t : Nat), d.qs.sub? q.val node.val = some x → x.st ≠ .suspended →
      (x.reset = none ∨ x.resetZero = true) → x.stallSince = some t → t + (d.queue q.val).creditTmo * ms ≤ d.now →
      runs (.creditTmoExpiry dt q node) (d.startReset q.val node.val)) ∧
    runs (.q1Reset dt) d.q1Reset ∧
    runs (.q1Resync dt) d.q1Resync ∧
    (∀ (q : Fin 16384) (node : Fin 32) (x : Sub) (t : Nat), d.qs.sub? q.val node.val = some x → x.reset = some t → t + 2 * ms ≤ d.now →
      x.resetZero = false → runs (.creditResetSenderTimer dt q node)
        { d with qs := d.qs.modSub q.val node.val (fun y => { y with credit := 0, resetZero := true }) }) ∧
    (∀ (q : Fin 16384) (node : Fin 32) (t : Nat),
      let x := d.queue q.val
      let y := x.partial_ node.val
      y.resetAt = some t → t + 2 * ms ≤ d.now → runs (.creditResetReceiverTimer dt q node)
        ((d.modQ q.val (fun z => z.setPartial { y with resetAt := none })).grant q.val node.val (x.cap - x.held))) ∧
    (d.qs.evBuf ≠ [] → d.qs.evSince + ms ≤ d.now → runs (.eventUnitClose dt) d.closeEvents) ∧
    (∀ (port : Fin 4) (pkt : CsiPacket), runs (.csi2Packet dt port pkt) (d.csi port.val pkt)) ∧
    (∀ (port : Fin 4), (d.cam port.val).startedAt + ms ≤ d.now → runs (.camStartTimeout dt port) (d.camOn port.val)) ∧
    (∀ (port : Fin 4), (d.cam port.val).fn.st = .stopping → (d.cam port.val).fn.stopBy ≤ d.now →
      runs (.camStopTimeout dt port none) (d.camOff port.val) ∧
      ∀ h, runs (.camStopTimeout dt port (some h)) ((d.camDrop port.val 6 h).camOff port.val)) ∧
    (∀ (out : Fin 4), runs (.camFsyncPulse dt out)
      { d with cams := { d.cams with sync := vmod d.cams.sync out.val (fun x => d.syncPulse x) } }) ∧
    (d.alive = true → runs (.bridgeCycle dt .core) (d.bridgeCycle .core)) ∧
    (d.field.running = true → runs (.bridgeCycle dt .field) (d.bridgeCycle .field)) ∧
    (∀ (frame : BitVec 512), runs (.fieldToCoreControlFrame dt frame) (d.fieldFrameIn frame)) ∧
    (∀ (frame : BitVec 512), d.alive = true → runs (.bulkFrame dt .core frame) (d.bulkFrame .core frame)) ∧
    (∀ (frame : BitVec 512), d.field.running = true → runs (.bulkFrame dt .field frame) (d.bulkFrame .field frame)) ∧
    (d.alive = true → runs (.chan0RepeatTimeout dt .core) (d.chan0Timeout .core)) ∧
    (d.field.running = true → runs (.chan0RepeatTimeout dt .field) (d.chan0Timeout .field)) ∧
    runs (.coreSilenceTimeout dt) d.coreSilent

/-- With the field die's logic running, each of these rows answers the next state that time and its effect give, settled, whatever its
operands. (derived: 10_lamps.md, 11_inputs_adc.md, 12_selftest.md, 14_power_thermal_log.md, R404) -/
def Obligations.FieldRowsComplete : Prop :=
    ∀ (s : State) (dt : Nat), s.dev.field.running = true →
    let d := (s.elapse dt).dev
    let runs := fun (i : Instr) (x : Device) => exec i s = .next (State.settle { s.elapse dt with dev := x } s.dev)
    (∀ (frame : BitVec 512), runs (.coreToFieldControlFrame dt frame) (d.coreFrameIn frame)) ∧
    runs (.fieldWatchdogExpiry dt) d.watchdog ∧
    runs (.safeStateApply dt) d.takeSafe ∧
    (∀ (tick : FieldSense), runs (.fieldTick dt tick) (d.fieldTick tick)) ∧
    runs (.aspectApply dt) d.applyAspect ∧
    (∀ (k : Fin 16) (smp : LampSample), runs (.supervisionSample dt k smp) (d.superviseLamp k.val smp)) ∧
    (∀ (k : Fin 16) (diag : DiagSense), runs (.diagSlot dt k diag) (d.diagSlot k.val diag)) ∧
    (∀ (k : Fin 16), runs (.litWhenDark dt k) (d.litVerdict k.val)) ∧
    (∀ (k : Fin 16), runs (.currentLimitTimeout dt k) (d.limitTimeout k.val)) ∧
    (∀ (k : Fin 16), (d.field.out k.val).switch = true → runs (.switchOvertemp dt k) (d.limitStop k.val 2)) ∧
    (∀ (k : Fin 16), runs (.switchCooled dt k) (d.cooled k.val)) ∧
    (∀ (k : Fin 16), runs (.cleanMsExpiry dt k) (d.cleanExpiry k.val)) ∧
    (∀ (g : Fin 4) (mv : Nat), runs (.sagBegin dt g mv) (d.sagBegin g.val mv)) ∧
    (∀ (g : Fin 4) (mv : Nat), runs (.sagEnd dt g mv) (d.sagEnd g.val mv)) ∧
    (∀ (g : Fin 4) (mv : Nat), runs (.uvOff dt g mv) (d.uvOff g.val mv)) ∧
    (∀ (g : Fin 4) (mv : Nat), runs (.uvRecovery dt g mv) (d.uvRecover g.val mv)) ∧
    (∀ (g : Fin 4), runs (.softStartStep dt g) (d.softStep g.val)) ∧
    (∀ (k : Fin 16), (d.field.out k.val).fn.st = .stopping → runs (.outputStopDone dt k) (d.reachOff (outFn k.val) (20 * us))) ∧
    (∀ (k : Fin 16), eMode (d.field.out k.val).ent = 2 → runs (.patternPhase dt k) (d.drive k.val false)) ∧
    (∀ (k : Fin 16), (d.field.out k.val).commanded = true → runs (.pwmPeriod dt k) (d.drive k.val true)) ∧
    runs (.fieldBlockCommitDone dt) d.commitDone ∧
    (∀ (k : Fin 16) (mv : Nat), runs (.inputSample dt k mv) (d.inSample k.val mv)) ∧
    (∀ (k : Fin 16), runs (.periodTimeout dt k) (d.periodTimeout k.val)) ∧
    (d.field.recsAt + 100 * ms ≤ d.now → runs (.periodUnitClose dt) d.closePeriods) ∧
    (∀ (t : Fin 4), runs (.adcTimerTick dt t) (d.timerTick t.val)) ∧
    (∀ (width : Nat), 100 ≤ width → runs (.adcTrigAssert dt width) (d.seqTriggers (fun h => sTrig h == 5))) ∧
    (∀ (q : Fin 4), runs (.seqRunStart dt q) (d.runStart q.val)) ∧
    (∀ (q : Fin 4), runs (.seqEntryStart dt q) (d.entryStart q.val)) ∧
    (∀ (q : Fin 4) (codes : List Int), runs (.seqEntryDone dt q codes) (d.entryDone q.val codes)) ∧
    (∀ (q : Fin 4), runs (.seqRunEnd dt q) (d.runEnd q.val)) ∧
    (∀ (c : Fin 4) (b : Bool) (offset gain skew : Int),
      runs (.backgroundCalibration dt c b offset gain skew) (d.background c.val b offset gain skew)) ∧
    (∀ (c : Fin 4), runs (.adcStartDone dt c) (d.convOn c.val)) ∧
    (∀ (c : Fin 4), (d.field.conv c.val).fn.st = .stopping →
      runs (.adcStopDone dt c) ((d.reachOff (convFn c.val) convOff).convEvent c.val)) ∧
    runs (.excHalf dt) d.excHalf ∧
    (∀ (width : Nat), runs (.blankNAssert dt width) (d.blankAssert width)) ∧
    (d.field.blankAt ≠ none → runs (.blankNRelease dt) (d.modField (fun f => { f with blankAt := none, blankRel := some d.now }))) ∧
    runs (.blankHoldExpiry dt) d.blankHoldEnd ∧
    (∀ (q : Fin 4), runs (.blankMaxExpiry dt q) (d.blankMax q.val)) ∧
    (∀ (codes : List Int), runs (.adcCalRunDone dt codes) (d.calRunDone codes)) ∧
    runs (.captureStart dt) d.captureStart ∧
    (∀ (codes : List Nat), runs (.captureEnd dt codes) (d.captureEnd codes)) ∧
    runs (.captureTimeout dt) d.captureTimeout ∧
    (∀ (fails : Bool), runs (.fieldRamTest dt fails) (d.ramTest fails)) ∧
    runs (.fieldNvmCheck dt) d.nvmCheck ∧
    (∀ (temps : List Int), runs (.fieldThermalStop dt temps) (d.fieldHot temps)) ∧
    (∀ (k : NvmKind), runs (.nvmCommitWaitTimeout dt k) (d.nvmTimeout k))
end

