-- ==== Sys2Proof/Laws/State.lean ====
section
/-! SUPPORT. Projections of the updates of State: what each update of one part writes, and that it leaves every other part alone. -/

namespace Sys2Proof.Machine

open Sys2Proof

/-- `modFire` writes its own part and no other. -/
@[simp] theorem Device.modFire_parts (d : Device) (f : Fire → Fire) :
    (d.modFire f).wcp = d.wcp ∧ (d.modFire f).time = d.time ∧ (d.modFire f).fire = f d.fire ∧ (d.modFire f).rx = d.rx ∧
    (d.modFire f).hist = d.hist ∧ (d.modFire f).ret = d.ret ∧ (d.modFire f).cal = d.cal ∧ (d.modFire f).ring = d.ring ∧
    (d.modFire f).qs = d.qs ∧ (d.modFire f).cams = d.cams ∧ (d.modFire f).core = d.core ∧ (d.modFire f).field = d.field ∧
    (d.modFire f).bist = d.bist ∧ (d.modFire f).sec = d.sec ∧ (d.modFire f).power = d.power ∧ (d.modFire f).log = d.log ∧
    (d.modFire f).ready = d.ready := by
  simp only [Device.modFire, and_self]

/-- `modRx` writes its own part and no other. -/
@[simp] theorem Device.modRx_parts (d : Device) (f : Rx → Rx) :
    (d.modRx f).wcp = d.wcp ∧ (d.modRx f).time = d.time ∧ (d.modRx f).fire = d.fire ∧ (d.modRx f).rx = f d.rx ∧ (d.modRx f).hist = d.hist ∧
    (d.modRx f).ret = d.ret ∧ (d.modRx f).cal = d.cal ∧ (d.modRx f).ring = d.ring ∧ (d.modRx f).qs = d.qs ∧ (d.modRx f).cams = d.cams ∧
    (d.modRx f).core = d.core ∧ (d.modRx f).field = d.field ∧ (d.modRx f).bist = d.bist ∧ (d.modRx f).sec = d.sec ∧
    (d.modRx f).power = d.power ∧ (d.modRx f).log = d.log ∧ (d.modRx f).ready = d.ready := by
  simp only [Device.modRx, and_self]

/-- `modHist` writes its own part and no other. -/
@[simp] theorem Device.modHist_parts (d : Device) (f : Hist → Hist) :
    (d.modHist f).wcp = d.wcp ∧ (d.modHist f).time = d.time ∧ (d.modHist f).fire = d.fire ∧ (d.modHist f).rx = d.rx ∧
    (d.modHist f).hist = f d.hist ∧ (d.modHist f).ret = d.ret ∧ (d.modHist f).cal = d.cal ∧ (d.modHist f).ring = d.ring ∧
    (d.modHist f).qs = d.qs ∧ (d.modHist f).cams = d.cams ∧ (d.modHist f).core = d.core ∧ (d.modHist f).field = d.field ∧
    (d.modHist f).bist = d.bist ∧ (d.modHist f).sec = d.sec ∧ (d.modHist f).power = d.power ∧ (d.modHist f).log = d.log ∧
    (d.modHist f).ready = d.ready := by
  simp only [Device.modHist, and_self]

/-- `modRet` writes its own part and no other. -/
@[simp] theorem Device.modRet_parts (d : Device) (f : Ret → Ret) :
    (d.modRet f).wcp = d.wcp ∧ (d.modRet f).time = d.time ∧ (d.modRet f).fire = d.fire ∧ (d.modRet f).rx = d.rx ∧
    (d.modRet f).hist = d.hist ∧ (d.modRet f).ret = f d.ret ∧ (d.modRet f).cal = d.cal ∧ (d.modRet f).ring = d.ring ∧
    (d.modRet f).qs = d.qs ∧ (d.modRet f).cams = d.cams ∧ (d.modRet f).core = d.core ∧ (d.modRet f).field = d.field ∧
    (d.modRet f).bist = d.bist ∧ (d.modRet f).sec = d.sec ∧ (d.modRet f).power = d.power ∧ (d.modRet f).log = d.log ∧
    (d.modRet f).ready = d.ready := by
  simp only [Device.modRet, and_self]

/-- `modCal` writes its own part and no other. -/
@[simp] theorem Device.modCal_parts (d : Device) (f : Cal → Cal) :
    (d.modCal f).wcp = d.wcp ∧ (d.modCal f).time = d.time ∧ (d.modCal f).fire = d.fire ∧ (d.modCal f).rx = d.rx ∧
    (d.modCal f).hist = d.hist ∧ (d.modCal f).ret = d.ret ∧ (d.modCal f).cal = f d.cal ∧ (d.modCal f).ring = d.ring ∧
    (d.modCal f).qs = d.qs ∧ (d.modCal f).cams = d.cams ∧ (d.modCal f).core = d.core ∧ (d.modCal f).field = d.field ∧
    (d.modCal f).bist = d.bist ∧ (d.modCal f).sec = d.sec ∧ (d.modCal f).power = d.power ∧ (d.modCal f).log = d.log ∧
    (d.modCal f).ready = d.ready := by
  simp only [Device.modCal, and_self]

/-- `modRing` writes its own part and no other. -/
@[simp] theorem Device.modRing_parts (d : Device) (f : Ring → Ring) :
    (d.modRing f).wcp = d.wcp ∧ (d.modRing f).time = d.time ∧ (d.modRing f).fire = d.fire ∧ (d.modRing f).rx = d.rx ∧
    (d.modRing f).hist = d.hist ∧ (d.modRing f).ret = d.ret ∧ (d.modRing f).cal = d.cal ∧ (d.modRing f).ring = f d.ring ∧
    (d.modRing f).qs = d.qs ∧ (d.modRing f).cams = d.cams ∧ (d.modRing f).core = d.core ∧ (d.modRing f).field = d.field ∧
    (d.modRing f).bist = d.bist ∧ (d.modRing f).sec = d.sec ∧ (d.modRing f).power = d.power ∧ (d.modRing f).log = d.log ∧
    (d.modRing f).ready = d.ready := by
  simp only [Device.modRing, and_self]

/-- `modCore` writes its own part and no other. -/
@[simp] theorem Device.modCore_parts (d : Device) (f : CoreBridge → CoreBridge) :
    (d.modCore f).wcp = d.wcp ∧ (d.modCore f).time = d.time ∧ (d.modCore f).fire = d.fire ∧ (d.modCore f).rx = d.rx ∧
    (d.modCore f).hist = d.hist ∧ (d.modCore f).ret = d.ret ∧ (d.modCore f).cal = d.cal ∧ (d.modCore f).ring = d.ring ∧
    (d.modCore f).qs = d.qs ∧ (d.modCore f).cams = d.cams ∧ (d.modCore f).core = f d.core ∧ (d.modCore f).field = d.field ∧
    (d.modCore f).bist = d.bist ∧ (d.modCore f).sec = d.sec ∧ (d.modCore f).power = d.power ∧ (d.modCore f).log = d.log ∧
    (d.modCore f).ready = d.ready := by
  simp only [Device.modCore, and_self]

/-- `modField` writes its own part and no other. -/
@[simp] theorem Device.modField_parts (d : Device) (f : Field → Field) :
    (d.modField f).wcp = d.wcp ∧ (d.modField f).time = d.time ∧ (d.modField f).fire = d.fire ∧ (d.modField f).rx = d.rx ∧
    (d.modField f).hist = d.hist ∧ (d.modField f).ret = d.ret ∧ (d.modField f).cal = d.cal ∧ (d.modField f).ring = d.ring ∧
    (d.modField f).qs = d.qs ∧ (d.modField f).cams = d.cams ∧ (d.modField f).core = d.core ∧ (d.modField f).field = f d.field ∧
    (d.modField f).bist = d.bist ∧ (d.modField f).sec = d.sec ∧ (d.modField f).power = d.power ∧ (d.modField f).log = d.log ∧
    (d.modField f).ready = d.ready := by
  simp only [Device.modField, and_self]

/-- `modBist` writes its own part and no other. -/
@[simp] theorem Device.modBist_parts (d : Device) (f : Bist → Bist) :
    (d.modBist f).wcp = d.wcp ∧ (d.modBist f).time = d.time ∧ (d.modBist f).fire = d.fire ∧ (d.modBist f).rx = d.rx ∧
    (d.modBist f).hist = d.hist ∧ (d.modBist f).ret = d.ret ∧ (d.modBist f).cal = d.cal ∧ (d.modBist f).ring = d.ring ∧
    (d.modBist f).qs = d.qs ∧ (d.modBist f).cams = d.cams ∧ (d.modBist f).core = d.core ∧ (d.modBist f).field = d.field ∧
    (d.modBist f).bist = f d.bist ∧ (d.modBist f).sec = d.sec ∧ (d.modBist f).power = d.power ∧ (d.modBist f).log = d.log ∧
    (d.modBist f).ready = d.ready := by
  simp only [Device.modBist, and_self]

/-- `modSec` writes its own part and no other. -/
@[simp] theorem Device.modSec_parts (d : Device) (f : Sec → Sec) :
    (d.modSec f).wcp = d.wcp ∧ (d.modSec f).time = d.time ∧ (d.modSec f).fire = d.fire ∧ (d.modSec f).rx = d.rx ∧
    (d.modSec f).hist = d.hist ∧ (d.modSec f).ret = d.ret ∧ (d.modSec f).cal = d.cal ∧ (d.modSec f).ring = d.ring ∧
    (d.modSec f).qs = d.qs ∧ (d.modSec f).cams = d.cams ∧ (d.modSec f).core = d.core ∧ (d.modSec f).field = d.field ∧
    (d.modSec f).bist = d.bist ∧ (d.modSec f).sec = f d.sec ∧ (d.modSec f).power = d.power ∧ (d.modSec f).log = d.log ∧
    (d.modSec f).ready = d.ready := by
  simp only [Device.modSec, and_self]

/-- `modPower` writes its own part and no other. -/
@[simp] theorem Device.modPower_parts (d : Device) (f : Power → Power) :
    (d.modPower f).wcp = d.wcp ∧ (d.modPower f).time = d.time ∧ (d.modPower f).fire = d.fire ∧ (d.modPower f).rx = d.rx ∧
    (d.modPower f).hist = d.hist ∧ (d.modPower f).ret = d.ret ∧ (d.modPower f).cal = d.cal ∧ (d.modPower f).ring = d.ring ∧
    (d.modPower f).qs = d.qs ∧ (d.modPower f).cams = d.cams ∧ (d.modPower f).core = d.core ∧ (d.modPower f).field = d.field ∧
    (d.modPower f).bist = d.bist ∧ (d.modPower f).sec = d.sec ∧ (d.modPower f).power = f d.power ∧ (d.modPower f).log = d.log ∧
    (d.modPower f).ready = d.ready := by
  simp only [Device.modPower, and_self]

/-- `modLog` writes its own part and no other. -/
@[simp] theorem Device.modLog_parts (d : Device) (f : Log → Log) :
    (d.modLog f).wcp = d.wcp ∧ (d.modLog f).time = d.time ∧ (d.modLog f).fire = d.fire ∧ (d.modLog f).rx = d.rx ∧
    (d.modLog f).hist = d.hist ∧ (d.modLog f).ret = d.ret ∧ (d.modLog f).cal = d.cal ∧ (d.modLog f).ring = d.ring ∧
    (d.modLog f).qs = d.qs ∧ (d.modLog f).cams = d.cams ∧ (d.modLog f).core = d.core ∧ (d.modLog f).field = d.field ∧
    (d.modLog f).bist = d.bist ∧ (d.modLog f).sec = d.sec ∧ (d.modLog f).power = d.power ∧ (d.modLog f).log = f d.log ∧
    (d.modLog f).ready = d.ready := by
  simp only [Device.modLog, and_self]

/-- `modQ` leaves every part but `qs` alone. -/
@[simp] theorem Device.modQ_parts (d : Device) (n : Nat) (f : Queue → Queue) :
    (d.modQ n f).wcp = d.wcp ∧ (d.modQ n f).time = d.time ∧ (d.modQ n f).fire = d.fire ∧ (d.modQ n f).rx = d.rx ∧
    (d.modQ n f).hist = d.hist ∧ (d.modQ n f).ret = d.ret ∧ (d.modQ n f).cal = d.cal ∧ (d.modQ n f).ring = d.ring ∧
    (d.modQ n f).cams = d.cams ∧ (d.modQ n f).core = d.core ∧ (d.modQ n f).field = d.field ∧ (d.modQ n f).bist = d.bist ∧
    (d.modQ n f).sec = d.sec ∧ (d.modQ n f).power = d.power ∧ (d.modQ n f).log = d.log ∧ (d.modQ n f).ready = d.ready := by
  exact ⟨rfl, rfl, rfl, rfl, rfl, rfl, rfl, rfl, rfl, rfl, rfl, rfl, rfl, rfl, rfl, rfl⟩

/-- `modPort` leaves every part but `ring` alone. -/
@[simp] theorem Device.modPort_parts (d : Device) (p : Nat) (f : RPort → RPort) :
    (d.modPort p f).wcp = d.wcp ∧ (d.modPort p f).time = d.time ∧ (d.modPort p f).fire = d.fire ∧ (d.modPort p f).rx = d.rx ∧
    (d.modPort p f).hist = d.hist ∧ (d.modPort p f).ret = d.ret ∧ (d.modPort p f).cal = d.cal ∧ (d.modPort p f).qs = d.qs ∧
    (d.modPort p f).cams = d.cams ∧ (d.modPort p f).core = d.core ∧ (d.modPort p f).field = d.field ∧ (d.modPort p f).bist = d.bist ∧
    (d.modPort p f).sec = d.sec ∧ (d.modPort p f).power = d.power ∧ (d.modPort p f).log = d.log ∧ (d.modPort p f).ready = d.ready := by
  exact ⟨rfl, rfl, rfl, rfl, rfl, rfl, rfl, rfl, rfl, rfl, rfl, rfl, rfl, rfl, rfl, rfl⟩

/-- `modSession` leaves every part but `wcp` alone. -/
@[simp] theorem Device.modSession_parts (d : Device) (n : Nat) (f : Session → Session) :
    (d.modSession n f).time = d.time ∧ (d.modSession n f).fire = d.fire ∧ (d.modSession n f).rx = d.rx ∧ (d.modSession n f).hist = d.hist ∧
    (d.modSession n f).ret = d.ret ∧ (d.modSession n f).cal = d.cal ∧ (d.modSession n f).ring = d.ring ∧ (d.modSession n f).qs = d.qs ∧
    (d.modSession n f).cams = d.cams ∧ (d.modSession n f).core = d.core ∧ (d.modSession n f).field = d.field ∧
    (d.modSession n f).bist = d.bist ∧ (d.modSession n f).sec = d.sec ∧ (d.modSession n f).power = d.power ∧
    (d.modSession n f).log = d.log ∧ (d.modSession n f).ready = d.ready := by
  exact ⟨rfl, rfl, rfl, rfl, rfl, rfl, rfl, rfl, rfl, rfl, rfl, rfl, rfl, rfl, rfl, rfl⟩

/-- `modCam` leaves every part but `cams` alone. -/
@[simp] theorem Device.modCam_parts (d : Device) (p : Nat) (f : CamPort → CamPort) :
    (d.modCam p f).wcp = d.wcp ∧ (d.modCam p f).time = d.time ∧ (d.modCam p f).fire = d.fire ∧ (d.modCam p f).rx = d.rx ∧
    (d.modCam p f).hist = d.hist ∧ (d.modCam p f).ret = d.ret ∧ (d.modCam p f).cal = d.cal ∧ (d.modCam p f).ring = d.ring ∧
    (d.modCam p f).qs = d.qs ∧ (d.modCam p f).core = d.core ∧ (d.modCam p f).field = d.field ∧ (d.modCam p f).bist = d.bist ∧
    (d.modCam p f).sec = d.sec ∧ (d.modCam p f).power = d.power ∧ (d.modCam p f).log = d.log ∧ (d.modCam p f).ready = d.ready := by
  exact ⟨rfl, rfl, rfl, rfl, rfl, rfl, rfl, rfl, rfl, rfl, rfl, rfl, rfl, rfl, rfl, rfl⟩

/-- `modOut` leaves every part but `field` alone. -/
@[simp] theorem Device.modOut_parts (d : Device) (k : Nat) (f : Output → Output) :
    (d.modOut k f).wcp = d.wcp ∧ (d.modOut k f).time = d.time ∧ (d.modOut k f).fire = d.fire ∧ (d.modOut k f).rx = d.rx ∧
    (d.modOut k f).hist = d.hist ∧ (d.modOut k f).ret = d.ret ∧ (d.modOut k f).cal = d.cal ∧ (d.modOut k f).ring = d.ring ∧
    (d.modOut k f).qs = d.qs ∧ (d.modOut k f).cams = d.cams ∧ (d.modOut k f).core = d.core ∧ (d.modOut k f).bist = d.bist ∧
    (d.modOut k f).sec = d.sec ∧ (d.modOut k f).power = d.power ∧ (d.modOut k f).log = d.log ∧ (d.modOut k f).ready = d.ready := by
  exact ⟨rfl, rfl, rfl, rfl, rfl, rfl, rfl, rfl, rfl, rfl, rfl, rfl, rfl, rfl, rfl, rfl⟩

/-- `modSeq` leaves every part but `field` alone. -/
@[simp] theorem Device.modSeq_parts (d : Device) (k : Nat) (f : Seq → Seq) :
    (d.modSeq k f).wcp = d.wcp ∧ (d.modSeq k f).time = d.time ∧ (d.modSeq k f).fire = d.fire ∧ (d.modSeq k f).rx = d.rx ∧
    (d.modSeq k f).hist = d.hist ∧ (d.modSeq k f).ret = d.ret ∧ (d.modSeq k f).cal = d.cal ∧ (d.modSeq k f).ring = d.ring ∧
    (d.modSeq k f).qs = d.qs ∧ (d.modSeq k f).cams = d.cams ∧ (d.modSeq k f).core = d.core ∧ (d.modSeq k f).bist = d.bist ∧
    (d.modSeq k f).sec = d.sec ∧ (d.modSeq k f).power = d.power ∧ (d.modSeq k f).log = d.log ∧ (d.modSeq k f).ready = d.ready := by
  exact ⟨rfl, rfl, rfl, rfl, rfl, rfl, rfl, rfl, rfl, rfl, rfl, rfl, rfl, rfl, rfl, rfl⟩

/-- `modConv` leaves every part but `field` alone. -/
@[simp] theorem Device.modConv_parts (d : Device) (k : Nat) (f : Conv → Conv) :
    (d.modConv k f).wcp = d.wcp ∧ (d.modConv k f).time = d.time ∧ (d.modConv k f).fire = d.fire ∧ (d.modConv k f).rx = d.rx ∧
    (d.modConv k f).hist = d.hist ∧ (d.modConv k f).ret = d.ret ∧ (d.modConv k f).cal = d.cal ∧ (d.modConv k f).ring = d.ring ∧
    (d.modConv k f).qs = d.qs ∧ (d.modConv k f).cams = d.cams ∧ (d.modConv k f).core = d.core ∧ (d.modConv k f).bist = d.bist ∧
    (d.modConv k f).sec = d.sec ∧ (d.modConv k f).power = d.power ∧ (d.modConv k f).log = d.log ∧ (d.modConv k f).ready = d.ready := by
  exact ⟨rfl, rfl, rfl, rfl, rfl, rfl, rfl, rfl, rfl, rfl, rfl, rfl, rfl, rfl, rfl, rfl⟩

/-- `modIn` leaves every part but `field` alone. -/
@[simp] theorem Device.modIn_parts (d : Device) (k : Nat) (f : Input → Input) :
    (d.modIn k f).wcp = d.wcp ∧ (d.modIn k f).time = d.time ∧ (d.modIn k f).fire = d.fire ∧ (d.modIn k f).rx = d.rx ∧
    (d.modIn k f).hist = d.hist ∧ (d.modIn k f).ret = d.ret ∧ (d.modIn k f).cal = d.cal ∧ (d.modIn k f).ring = d.ring ∧
    (d.modIn k f).qs = d.qs ∧ (d.modIn k f).cams = d.cams ∧ (d.modIn k f).core = d.core ∧ (d.modIn k f).bist = d.bist ∧
    (d.modIn k f).sec = d.sec ∧ (d.modIn k f).power = d.power ∧ (d.modIn k f).log = d.log ∧ (d.modIn k f).ready = d.ready := by
  exact ⟨rfl, rfl, rfl, rfl, rfl, rfl, rfl, rfl, rfl, rfl, rfl, rfl, rfl, rfl, rfl, rfl⟩

/-- `modGroup` leaves every part but `field` alone. -/
@[simp] theorem Device.modGroup_parts (d : Device) (k : Nat) (f : VGroup → VGroup) :
    (d.modGroup k f).wcp = d.wcp ∧ (d.modGroup k f).time = d.time ∧ (d.modGroup k f).fire = d.fire ∧ (d.modGroup k f).rx = d.rx ∧
    (d.modGroup k f).hist = d.hist ∧ (d.modGroup k f).ret = d.ret ∧ (d.modGroup k f).cal = d.cal ∧ (d.modGroup k f).ring = d.ring ∧
    (d.modGroup k f).qs = d.qs ∧ (d.modGroup k f).cams = d.cams ∧ (d.modGroup k f).core = d.core ∧ (d.modGroup k f).bist = d.bist ∧
    (d.modGroup k f).sec = d.sec ∧ (d.modGroup k f).power = d.power ∧ (d.modGroup k f).log = d.log ∧ (d.modGroup k f).ready = d.ready := by
  exact ⟨rfl, rfl, rfl, rfl, rfl, rfl, rfl, rfl, rfl, rfl, rfl, rfl, rfl, rfl, rfl, rfl⟩

/-! Vectors by number. -/

@[simp] theorem vget_vset_same {α : Type} {n : Nat} (v : Vector α n) (i : Nat) (x d : α) (h : i < n) : vget (vset v i x) i d = x := by
  simp [vget, vset, h]

@[simp] theorem vget_vset_other {α : Type} {n : Nat} (v : Vector α n) (i j : Nat) (x d : α) (h : i ≠ j) :
    vget (vset v i x) j d = vget v j d := by
  by_cases hi : i < n <;> by_cases hj : j < n <;> simp [vget, vset, hi, hj, h]

@[simp] theorem vget_vmod_same {α : Type} {n : Nat} (v : Vector α n) (i : Nat) (f : α → α) (d : α) (h : i < n) :
    vget (vmod v i f) i d = f (vget v i d) := by
  simp [vget, vmod, h]

@[simp] theorem vget_vmod_other {α : Type} {n : Nat} (v : Vector α n) (i j : Nat) (f : α → α) (d : α) (h : i ≠ j) :
    vget (vmod v i f) j d = vget v j d := by
  by_cases hi : i < n <;> by_cases hj : j < n <;> simp [vget, vmod, hi, hj, h]

/-! Time passing. -/

/-- `dt` cycles pass: only the clock changes. -/
@[simp] theorem State.elapse_parts (s : State) (dt : Nat) :
    (s.elapse dt).host = s.host ∧ (s.elapse dt).pending = s.pending ∧ (s.elapse dt).dev.time = s.dev.time.elapse dt ∧
    (s.elapse dt).dev.wcp = s.dev.wcp ∧ (s.elapse dt).dev.fire = s.dev.fire ∧ (s.elapse dt).dev.rx = s.dev.rx ∧
    (s.elapse dt).dev.hist = s.dev.hist ∧ (s.elapse dt).dev.ret = s.dev.ret ∧ (s.elapse dt).dev.cal = s.dev.cal ∧
    (s.elapse dt).dev.ring = s.dev.ring ∧ (s.elapse dt).dev.qs = s.dev.qs ∧ (s.elapse dt).dev.cams = s.dev.cams ∧
    (s.elapse dt).dev.core = s.dev.core ∧ (s.elapse dt).dev.field = s.dev.field ∧ (s.elapse dt).dev.bist = s.dev.bist ∧
    (s.elapse dt).dev.sec = s.dev.sec ∧ (s.elapse dt).dev.power = s.dev.power ∧ (s.elapse dt).dev.log = s.dev.log ∧
    (s.elapse dt).dev.ready = s.dev.ready := by
  exact ⟨rfl, rfl, rfl, rfl, rfl, rfl, rfl, rfl, rfl, rfl, rfl, rfl, rfl, rfl, rfl, rfl, rfl, rfl, rfl⟩

/-- The clock has moved on by `dt` cycles. -/
@[simp] theorem TimeBase.elapse_clk (t : TimeBase) (dt : Nat) : (t.elapse dt).clk = t.clk + dt := rfl

end Sys2Proof.Machine
end

