-- ==== Sys2Proof/Laws/Frames.lean ====
section
/-! SUPPORT. What the operations of events, queues and the command protocol may change: the protocol's own state, the ring, the queues
and the log, and nothing else; and what the end of a step changes. -/

namespace Sys2Proof.Machine

open Sys2Proof

theorem Device.Keeps.refl (d : Device) : d.Keeps d := ⟨rfl, rfl, rfl, rfl, rfl, rfl, rfl, rfl, rfl, rfl, rfl, rfl, rfl⟩

theorem Device.Keeps.trans {a b c : Device} (h : a.Keeps b) (k : b.Keeps c) : a.Keeps c :=
  ⟨k.time.trans h.time, k.fire.trans h.fire, k.rx.trans h.rx, k.hist.trans h.hist, k.ret.trans h.ret, k.cal.trans h.cal,
    k.cams.trans h.cams, k.core.trans h.core, k.field.trans h.field, k.bist.trans h.bist, k.sec.trans h.sec, k.power.trans h.power,
    k.ready.trans h.ready⟩

/-- An update of the protocol's state, the ring, the queues or the log keeps the rest. -/
theorem Device.keeps_update (d : Device) (w : Wcp) (r : Ring) (q : Queues) (l : Log) :
    d.Keeps { d with wcp := w, ring := r, qs := q, log := l } :=
  ⟨rfl, rfl, rfl, rfl, rfl, rfl, rfl, rfl, rfl, rfl, rfl, rfl, rfl⟩

/-- A fold of operations that each keep the rest keeps the rest. -/
theorem Device.keeps_foldl {α : Type} (f : Device → α → Device) (hf : ∀ (d : Device) a, d.Keeps (f d a)) (l : List α) (d : Device) :
    d.Keeps (l.foldl f d) := by
  induction l generalizing d with
  | nil => exact .refl d
  | cons a t ih => exact (hf d a).trans (ih (f d a))

/-! Events and counters. -/

theorem Device.raise_keeps (d : Device) (id source payload : Nat) : d.Keeps (d.raise id source payload) :=
  ⟨rfl, rfl, rfl, rfl, rfl, rfl, rfl, rfl, rfl, rfl, rfl, rfl, rfl⟩

theorem Device.limited_keeps (d : Device) (ev source sub len payload add : Nat) (first : Bool) :
    d.Keeps (d.limited ev source sub len payload add first) := by
  unfold Device.limited
  split <;> exact ⟨rfl, rfl, rfl, rfl, rfl, rfl, rfl, rfl, rfl, rfl, rfl, rfl, rfl⟩

theorem Device.count_keeps (d : Device) (i n : Nat) : d.Keeps (d.count i n) := by
  unfold Device.count
  split <;> exact ⟨rfl, rfl, rfl, rfl, rfl, rfl, rfl, rfl, rfl, rfl, rfl, rfl, rfl⟩

theorem Device.queueRec_keeps (d : Device) (r : PendRec) : d.Keeps (d.queueRec r) := by
  unfold Device.queueRec
  split
  · exact .refl d
  · split
    · exact ⟨rfl, rfl, rfl, rfl, rfl, rfl, rfl, rfl, rfl, rfl, rfl, rfl, rfl⟩
    · split
      · exact (d.count_keeps cLost 1).trans ⟨rfl, rfl, rfl, rfl, rfl, rfl, rfl, rfl, rfl, rfl, rfl, rfl, rfl⟩
      · exact d.count_keeps cLost 1

theorem Device.record_keeps (d : Device) (kind source severity : Nat) (payload : Bytes) :
    d.Keeps (d.record kind source severity payload) := d.queueRec_keeps _

theorem Device.raiseRec_keeps (d : Device) (id source payload kind severity : Nat) (extra : Bytes) :
    d.Keeps (d.raiseRec id source payload kind severity extra) :=
  (d.raise_keeps id source payload).trans (Device.record_keeps _ _ _ _ _)

theorem Device.integrityN_keeps (d : Device) (cls idx act n : Nat) : d.Keeps (d.integrityN cls idx act n) := by
  unfold Device.integrityN
  dsimp only
  split
  · refine .trans ?_ (Device.record_keeps _ _ _ _ _)
    exact (d.limited_keeps _ _ _ _ _ _ _).trans ⟨rfl, rfl, rfl, rfl, rfl, rfl, rfl, rfl, rfl, rfl, rfl, rfl, rfl⟩
  · exact d.limited_keeps _ _ _ _ _ _ _

theorem Device.intact_keeps (d : Device) (cls idx : Nat) : d.Keeps (d.intact cls idx) := by
  unfold Device.intact
  split
  · exact ⟨rfl, rfl, rfl, rfl, rfl, rfl, rfl, rfl, rfl, rfl, rfl, rfl, rfl⟩
  · exact .refl d

theorem Device.checkPair_keeps (d : Device) (ok : Bool) (cls idx act : Nat) : d.Keeps (d.checkPair ok cls idx act) := by
  unfold Device.checkPair
  split
  · exact d.intact_keeps _ _
  · exact d.integrityN_keeps _ _ _ _

theorem Device.counterRead_keeps (d : Device) (i : Nat) : d.Keeps (d.counterRead i) := d.checkPair_keeps _ _ _ _

theorem Device.lcUsed_keeps (d : Device) : d.Keeps d.lcUsed := d.checkPair_keeps _ _ _ _

theorem Device.rightsRead_keeps (d : Device) (id : Nat) (sealed : Bool) : d.Keeps (d.rightsRead id sealed) := by
  unfold Device.rightsRead
  dsimp only
  have h : d.Keeps (if isQuery id || id == 0x0141 || id == 0x0142 then d else d.lcUsed) := by
    cases isQuery id || id == 0x0141 || id == 0x0142
    · exact d.lcUsed_keeps
    · exact .refl d
  cases sealed
  · exact h
  · exact h.trans (Device.counterRead_keeps _ _)

/-! Queues. What they change is close by: the queues themselves, the frames and the grants that wait at the ports, the events under way and
the windows that limit events. -/

/-- Two devices that differ at most there. -/
structure Device.Near (d d' : Device) : Prop where
  keeps : d.Keeps d'
  ring : { d'.ring with ports := d.ring.ports } = d.ring
  base : ∀ p, (d'.port p).base = (d.port p).base
  log : d'.log = d.log
  sessions : d'.wcp.sessions = d.wcp.sessions
  waits : d'.wcp.waits = d.wcp.waits
  replies : d'.wcp.replies = d.wcp.replies
  inFlight : d'.wcp.inFlight = d.wcp.inFlight
  discarded : d'.wcp.discarded = d.wcp.discarded
  masks : d'.wcp.masks = d.wcp.masks
  resetAt : d'.wcp.resetAt = d.wcp.resetAt
  draws : d'.wcp.draws = d.wcp.draws

theorem Device.Near.refl (d : Device) : d.Near d := ⟨⟨rfl, rfl, rfl, rfl, rfl, rfl, rfl, rfl, rfl, rfl, rfl, rfl, rfl⟩, rfl, fun _ => rfl, rfl, rfl, rfl, rfl, rfl, rfl, rfl, rfl, rfl⟩

theorem Device.Near.trans {a b c : Device} (h : a.Near b) (k : b.Near c) : a.Near c :=
  ⟨h.keeps.trans k.keeps, by have := congrArg (fun r : Ring => { r with ports := a.ring.ports }) k.ring; exact this.trans h.ring,
    fun p => (k.base p).trans (h.base p), k.log.trans h.log, k.sessions.trans h.sessions, k.waits.trans h.waits,
    k.replies.trans h.replies, k.inFlight.trans h.inFlight, k.discarded.trans h.discarded, k.masks.trans h.masks,
    k.resetAt.trans h.resetAt, k.draws.trans h.draws⟩

/-- An update of the queues, of the events under way or of the windows that limit events. -/
theorem Device.near_update (d : Device) (q : Queues) (n : Word) (o : List (BitVec 256)) (l : List Limit) (i : Word) :
    d.Near { d with qs := q, wcp := { d.wcp with evSeq := n, out := o, limits := l, irq := i } } := ⟨⟨rfl, rfl, rfl, rfl, rfl, rfl, rfl, rfl, rfl, rfl, rfl, rfl, rfl⟩, rfl, fun _ => rfl, rfl, rfl, rfl, rfl, rfl, rfl, rfl, rfl, rfl⟩

/-- A fold of operations that each stay close stays close. -/
theorem Device.near_foldl {α : Type} (f : Device → α → Device) (hf : ∀ (d : Device) a, d.Near (f d a)) (l : List α) (d : Device) :
    d.Near (l.foldl f d) := by
  induction l generalizing d with
  | nil => exact .refl d
  | cons a t ih => exact (hf d a).trans (ih (f d a))

theorem Device.raise_near (d : Device) (id source payload : Nat) : d.Near (d.raise id source payload) := ⟨⟨rfl, rfl, rfl, rfl, rfl, rfl, rfl, rfl, rfl, rfl, rfl, rfl, rfl⟩, rfl, fun _ => rfl, rfl, rfl, rfl, rfl, rfl, rfl, rfl, rfl, rfl⟩

theorem Device.limited_near (d : Device) (ev source sub len payload add : Nat) (first : Bool) :
    d.Near (d.limited ev source sub len payload add first) := by
  unfold Device.limited
  split <;> exact ⟨⟨rfl, rfl, rfl, rfl, rfl, rfl, rfl, rfl, rfl, rfl, rfl, rfl, rfl⟩, rfl, fun _ => rfl, rfl, rfl, rfl, rfl, rfl, rfl, rfl, rfl, rfl⟩

theorem Device.near_qs (d : Device) (q : Queues) : d.Near { d with qs := q } :=
  ⟨⟨rfl, rfl, rfl, rfl, rfl, rfl, rfl, rfl, rfl, rfl, rfl, rfl, rfl⟩, rfl, fun _ => rfl, rfl, rfl, rfl, rfl, rfl, rfl, rfl, rfl, rfl⟩

theorem Device.modQ_near (d : Device) (n : Nat) (f : Queue → Queue) : d.Near (d.modQ n f) := ⟨⟨rfl, rfl, rfl, rfl, rfl, rfl, rfl, rfl, rfl, rfl, rfl, rfl, rfl⟩, rfl, fun _ => rfl, rfl, rfl, rfl, rfl, rfl, rfl, rfl, rfl, rfl⟩

/-- A port changed in its frames and grants alone. -/
theorem Device.modPort_near (d : Device) (p : Nat) (f : RPort → RPort) (hf : ∀ x, (f x).base = x.base) : d.Near (d.modPort p f) := by
  refine ⟨⟨rfl, rfl, rfl, rfl, rfl, rfl, rfl, rfl, rfl, rfl, rfl, rfl, rfl⟩, rfl, fun k => ?_, rfl, rfl, rfl, rfl, rfl, rfl, rfl, rfl, rfl⟩
  unfold Device.port Device.modPort
  by_cases hp : p < 2
  · by_cases hk : p = k
    · subst hk; simp [hp, hf]
    · simp [hk]
  · simp [vmod, hp]

theorem Device.modRing_keeps (d : Device) (f : Ring → Ring) : d.Keeps (d.modRing f) :=
  ⟨rfl, rfl, rfl, rfl, rfl, rfl, rfl, rfl, rfl, rfl, rfl, rfl, rfl⟩

theorem Device.modPort_keeps (d : Device) (p : Nat) (f : RPort → RPort) : d.Keeps (d.modPort p f) :=
  ⟨rfl, rfl, rfl, rfl, rfl, rfl, rfl, rfl, rfl, rfl, rfl, rfl, rfl⟩

theorem Device.grant_near (d : Device) (queue node cells : Nat) : d.Near (d.grant queue node cells) := by
  unfold Device.grant
  split
  · exact .refl d
  · split
    · exact .refl d
    · exact d.modPort_near _ _ (fun _ => rfl)

theorem Device.take_near (d : Device) (n who useq : Nat) : d.Near (d.take n who useq) := by
  unfold Device.take
  dsimp only
  split
  · refine .trans ?_ (Device.grant_near _ _ _ _)
    exact ⟨⟨rfl, rfl, rfl, rfl, rfl, rfl, rfl, rfl, rfl, rfl, rfl, rfl, rfl⟩, rfl, fun _ => rfl, rfl, rfl, rfl, rfl, rfl, rfl, rfl, rfl, rfl⟩
  · exact ⟨⟨rfl, rfl, rfl, rfl, rfl, rfl, rfl, rfl, rfl, rfl, rfl, rfl, rfl⟩, rfl, fun _ => rfl, rfl, rfl, rfl, rfl, rfl, rfl, rfl, rfl, rfl⟩

theorem Device.releases_near (d : Device) (n : Nat) : d.Near (d.releases n) :=
  Device.near_foldl _ (fun d _ => Device.near_foldl _ (fun d _ => d.take_near _ _ _) _ d) _ d

theorem Device.fillOne_near (d : Device) (p n : Nat) : d.Near (d.fillOne p n).1 := by
  unfold Device.fillOne
  dsimp only
  split
  · exact .refl d
  · split
    · exact .refl d
    · refine .trans ?_ (Device.near_foldl _ ?_ _ _)
      · refine .trans ?_ (Device.modQ_near _ _ _)
        exact (d.modQ_near _ _).trans (Device.modPort_near _ _ _ (fun _ => rfl))
      · exact fun d _ => d.near_qs _

theorem Device.fillQueue_near (d : Device) (p n fuel : Nat) : d.Near (d.fillQueue p n fuel) := by
  induction fuel generalizing d with
  | zero => exact .refl d
  | succ fuel ih =>
    unfold Device.fillQueue
    dsimp only
    split
    · exact (d.fillOne_near p n).trans (ih _)
    · exact d.fillOne_near p n

theorem Device.fillX9_near (d : Device) (p : Nat) : d.Near (d.fillX9 p) := by
  unfold Device.fillX9
  dsimp only
  split
  · exact .refl d
  · exact Device.near_foldl _ (fun d _ => d.fillQueue_near _ _ _) _ d

theorem Device.startsFirst_near (d : Device) (n len : Nat) : d.Near (d.startsFirst n len) := by
  unfold Device.startsFirst
  split
  · exact (d.fillX9_near 0).trans (Device.fillX9_near _ 1)
  · exact .refl d

theorem Device.countDrop_near (d : Device) (n reason useq : Nat) : d.Near (d.countDrop n reason useq) :=
  .trans (d.modQ_near n (fun q => { q with drops := vmod q.drops reason (· + 1) })) (Device.limited_near _ _ _ _ _ _ _ _)

theorem Device.dropUnit_near (d : Device) (n : Nat) (u : QUnit) (reason : Nat) : d.Near (d.dropUnit n u reason) := by
  refine .trans ?_ (Device.countDrop_near _ n reason _)
  exact ⟨⟨rfl, rfl, rfl, rfl, rfl, rfl, rfl, rfl, rfl, rfl, rfl, rfl, rfl⟩, rfl, fun _ => rfl, rfl, rfl, rfl, rfl, rfl, rfl, rfl, rfl, rfl⟩

theorem Device.dropOldest_near (d : Device) (n reason : Nat) : d.Near (d.dropOldest n reason).1 := by
  unfold Device.dropOldest
  split
  · exact .refl d
  · exact d.dropUnit_near n _ reason

theorem Device.findCells_near (d : Device) (n : Nat) (need : Queue → Nat) (fuel : Nat) : d.Near (d.findCells n need fuel).1 := by
  induction fuel generalizing d with
  | zero => exact .refl d
  | succ fuel ih =>
    unfold Device.findCells
    split
    · exact .refl d
    · split
      · dsimp only
        split
        · exact (d.dropOldest_near n _).trans (ih _)
        · exact d.dropOldest_near n _
      · exact .refl d

theorem Device.store_near (d : Device) (n src : Nat) (data : Bytes) : d.Near (d.store n src data) := ⟨⟨rfl, rfl, rfl, rfl, rfl, rfl, rfl, rfl, rfl, rfl, rfl, rfl, rfl⟩, rfl, fun _ => rfl, rfl, rfl, rfl, rfl, rfl, rfl, rfl, rfl, rfl⟩

/-- A unit written, whatever becomes of it. -/
theorem Device.putUnit_near (d : Device) (n src : Nat) (mayWait : Bool) (mk : Nat → Bytes) :
    d.Near (d.putUnit n src mayWait mk).1 := by
  unfold Device.putUnit
  dsimp only
  have found := fun len => ((d.releases_near n).trans (Device.startsFirst_near _ n len)).trans
    (Device.findCells_near _ n (fun q => q.newCells len) (d.queue n).units.length)
  split
  · exact ⟨⟨rfl, rfl, rfl, rfl, rfl, rfl, rfl, rfl, rfl, rfl, rfl, rfl, rfl⟩, rfl, fun _ => rfl, rfl, rfl, rfl, rfl, rfl, rfl, rfl, rfl, rfl⟩
  · split
    · exact (d.modQ_near n _).trans (Device.countDrop_near _ n 2 _)
    · split
      · exact (found _).trans (Device.store_near _ n _ _)
      · split
        · exact ((found _).trans (Device.modQ_near _ n _)).trans (Device.countDrop_near _ n 5 _)
        · split
          · exact found _
          · exact ((found _).trans (Device.modQ_near _ n _)).trans (Device.countDrop_near _ n 2 _)

theorem Device.putStreamAt_near (d : Device) (time n : Nat) (mayWait : Bool) (flags type recsize records info : Nat) (body : Bytes) :
    d.Near (d.putStreamAt time n mayWait flags type recsize records info body).1 := d.putUnit_near _ _ _ _

theorem Device.putStream_near (d : Device) (n : Nat) (mayWait : Bool) (flags type recsize records info : Nat) (body : Bytes) :
    d.Near (d.putStream n mayWait flags type recsize records info body).1 := d.putStreamAt_near _ _ _ _ _ _ _ _ _

theorem Device.closeEvents_near (d : Device) : d.Near d.closeEvents := by
  unfold Device.closeEvents
  dsimp only
  split
  · exact .refl d
  · split
    · exact d.putStream_near _ _ _ _ _ _ _ _
    · exact (d.putStream_near _ _ _ _ _ _ _ _).trans ⟨⟨rfl, rfl, rfl, rfl, rfl, rfl, rfl, rfl, rfl, rfl, rfl, rfl, rfl⟩, rfl, fun _ => rfl, rfl, rfl, rfl, rfl, rfl, rfl, rfl, rfl, rfl⟩

theorem Device.closeFull_near (d : Device) (fuel : Nat) : d.Near (d.closeFull fuel) := by
  induction fuel generalizing d with
  | zero => exact .refl d
  | succ fuel ih =>
    unfold Device.closeFull
    split
    · exact .refl d
    · exact d.closeEvents_near.trans (ih _)

theorem Device.mirrorOut_near (d : Device) (fuel : Nat) : d.Near (d.mirrorOut fuel) := by
  induction fuel generalizing d with
  | zero => exact .refl d
  | succ fuel ih =>
    unfold Device.mirrorOut
    split
    · exact .refl d
    · split
      · exact .refl d
      · dsimp only
        split
        · exact d.putStream_near _ _ _ _ _ _ _ _
        · refine .trans ?_ (ih _)
          exact (d.putStream_near _ _ _ _ _ _ _ _).trans ⟨⟨rfl, rfl, rfl, rfl, rfl, rfl, rfl, rfl, rfl, rfl, rfl, rfl, rfl⟩, rfl, fun _ => rfl, rfl, rfl, rfl, rfl, rfl, rfl, rfl, rfl, rfl⟩

/-- Without an event stream no event unit closes. -/
theorem Device.closeFull_unbound (d : Device) (fuel : Nat) (h : d.qs.eventQ = 0xFFFF) : d.closeFull fuel = d := by
  have hc : d.closeEvents = d := by simp [Device.closeEvents, h]
  induction fuel with
  | zero => rfl
  | succ fuel ih => simp only [Device.closeFull, hc, ih, ite_self]

/-- Without a mirror no record leaves. -/
theorem Device.mirrorOut_unbound (d : Device) (fuel : Nat) (h : d.qs.mirrorQ = 0xFFFF) : d.mirrorOut fuel = d := by
  cases fuel with
  | zero => rfl
  | succ fuel => simp [Device.mirrorOut, h]

theorem Device.putUnit_keeps (d : Device) (n src : Nat) (mayWait : Bool) (mk : Nat → Bytes) :
    d.Keeps (d.putUnit n src mayWait mk).1 := (d.putUnit_near n src mayWait mk).keeps

theorem Device.take_keeps (d : Device) (n who useq : Nat) : d.Keeps (d.take n who useq) := (d.take_near n who useq).keeps

theorem Device.sendMsg_keeps (d : Device) (node queue : Nat) (msg : Bytes) : d.Keeps (d.sendMsg node queue msg).1 := by
  unfold Device.sendMsg
  split
  · exact d.putUnit_keeps _ _ _ _
  · split
    · exact .refl d
    · exact ⟨rfl, rfl, rfl, rfl, rfl, rfl, rfl, rfl, rfl, rfl, rfl, rfl, rfl⟩

/-! The command protocol. -/

theorem Device.modSession_keeps (d : Device) (n : Nat) (f : Session → Session) : d.Keeps (d.modSession n f) :=
  ⟨rfl, rfl, rfl, rfl, rfl, rfl, rfl, rfl, rfl, rfl, rfl, rfl, rfl⟩

theorem Device.closeSession_keeps (d : Device) (n reason : Nat) : d.Keeps (d.closeSession n reason) := by
  unfold Device.closeSession
  split
  · exact ⟨rfl, rfl, rfl, rfl, rfl, rfl, rfl, rfl, rfl, rfl, rfl, rfl, rfl⟩
  · exact .refl d

theorem Device.reply_keeps (d : Device) (node queue : Nat) (body : Bytes) (first : Bool) : d.Keeps (d.reply node queue body first) := by
  unfold Device.reply
  dsimp only
  split <;> exact (d.sendMsg_keeps _ _ _).trans ⟨rfl, rfl, rfl, rfl, rfl, rfl, rfl, rfl, rfl, rfl, rfl, rfl, rfl⟩

theorem Device.finish_keeps (d : Device) (w : Wait) (status : Nat) (result : Bytes) : d.Keeps (d.finish w status result) := by
  unfold Device.finish
  dsimp only
  refine Device.Keeps.trans ?_ (Device.keeps_foldl _ ?_ _ _)
  · exact ⟨rfl, rfl, rfl, rfl, rfl, rfl, rfl, rfl, rfl, rfl, rfl, rfl, rfl⟩
  · intro d p
    cases p
    · exact .refl d
    · exact d.reply_keeps _ _ _ _

theorem Device.complete_keeps (d : Device) (k : WaitKind) (status : Nat) (result : Bytes) : d.Keeps (d.complete k status result) := by
  unfold Device.complete
  dsimp only
  refine .trans ?_ (Device.keeps_foldl _ (fun d w => d.finish_keeps w status result) _ _)
  exact ⟨rfl, rfl, rfl, rfl, rfl, rfl, rfl, rfl, rfl, rfl, rfl, rfl, rfl⟩

theorem Device.accept_keeps (d : Device) (e : Env) (sealed : Bool) : d.Keeps (d.accept e sealed) :=
  (d.rightsRead_keeps _ _).trans (Device.modSession_keeps _ _ _)

theorem Device.replayPath_keeps (d : Device) (e : Env) : d.Keeps (d.replayPath e) :=
  ⟨rfl, rfl, rfl, rfl, rfl, rfl, rfl, rfl, rfl, rfl, rfl, rfl, rfl⟩

theorem State.deliver_keeps (s : State) (o : Origin) (path : Path) (r : Bytes) : s.dev.Keeps (s.deliver o path r).dev := by
  cases o with
  | mailbox n => exact .refl _
  | q0 =>
    cases path with
    | spi => exact .refl _
    | ring node queue =>
      simp only [State.deliver]
      split
      · exact (Device.take_keeps _ _ _ _).trans (Device.reply_keeps _ _ _ _ _)
      · exact Device.reply_keeps _ _ _ _ _

/-! What the end of a step may still change. -/

theorem Device.Rests.refl (d : Device) : d.Rests d :=
  ⟨.refl d, rfl, fun _ => rfl, fun _ _ => rfl, rfl, rfl, rfl, rfl, rfl, rfl, rfl, rfl, rfl⟩

/-- The end of a step changes nothing of the device but the queues, what waits at the ports where an event stream or a mirror is bound, the
events under way and the windows that limit events. -/
theorem State.settle_rests (s : State) (old : Device) : s.dev.Rests (s.settle old).dev := by
  have h := ((s.dev.closeFull_near 17).trans (Device.mirrorOut_near _ 8)).trans (Device.near_update _ ((s.dev.closeFull 17).mirrorOut 8).qs
    ((s.dev.closeFull 17).mirrorOut 8).wcp.evSeq [] ((s.dev.closeFull 17).mirrorOut 8).wcp.limits 0)
  refine ⟨h.keeps, h.ring, h.base, fun he hm => ?_, h.log, h.sessions, h.waits, h.replies, h.inFlight, h.discarded, h.masks, h.resetAt, h.draws⟩
  simp only [State.settle]
  rw [Device.closeFull_unbound _ _ he, Device.mirrorOut_unbound _ _ hm]

/-- The end of a step keeps the rest. -/
theorem State.settle_keeps (s : State) (old : Device) : s.dev.Keeps (s.settle old).dev := (s.settle_rests old).keeps

/-- The end of a step leaves no event and no interrupt request undelivered, and the queue of commands alone. -/
theorem State.settle_done (s : State) (old : Device) :
    (s.settle old).dev.wcp.out = [] ∧ (s.settle old).dev.wcp.irq = 0 ∧ (s.settle old).pending = s.pending := by
  exact ⟨rfl, rfl, rfl⟩

end Sys2Proof.Machine
end

