-- ==== Sys2Proof/Laws/Memory.lean ====
section
/-! SUPPORT. Byte memories: reads after writes, and the canonical form every operation keeps (R43, Table 13-4). -/

namespace Sys2Proof.Machine

open Sys2Proof

/-! Maps with rising keys. -/

theorem keysAbove_weaken {α : Type} {lo lo' : Option Nat} {m : Map α} (h : keysAbove lo m)
    (hl : ∀ a, (∀ l, lo = some l → l < a) → ∀ l, lo' = some l → l < a) : keysAbove lo' m := by
  cases m with
  | nil => trivial
  | cons c t => exact ⟨hl _ h.1, h.2⟩

theorem mget_none_of_above {α : Type} (m : Map α) (k : Nat) (h : keysAbove (some k) m) : mget k m = none := by
  induction m generalizing k with
  | nil => rfl
  | cons c t ih =>
    obtain ⟨a, x⟩ := c
    have hka : k < a := h.1 k rfl
    have hak : a ≠ k := by omega
    simp only [mget, hak, if_false]
    exact ih k (keysAbove_weaken h.2 (fun b hb l hl => by cases hl; have := hb a rfl; omega))

/-- A key's entry after it is written. -/
theorem mget_mset {α : Type} (m : Map α) (k j : Nat) (v : α) : mget j (mset k v m) = if k = j then some v else mget j m := by
  induction m with
  | nil => simp only [mset, mget]
  | cons c t ih =>
    obtain ⟨a, x⟩ := c
    simp only [mset]
    split
    · simp only [mget]
    · split
      · rename_i hk
        subst hk
        simp only [mget]
        split <;> rfl
      · rename_i hlt hne
        simp only [mget, ih]
        by_cases haj : a = j
        · have : ¬ k = j := by omega
          simp [haj, this]
        · simp [haj]

/-- A key's entry after one is removed from a map with rising keys. -/
theorem mget_mdel {α : Type} (m : Map α) (k j : Nat) (h : keysAbove none m) : mget j (mdel k m) = if k = j then none else mget j m := by
  have key : ∀ (m : Map α) (lo : Option Nat), keysAbove lo m → mget j (mdel k m) = if k = j then none else mget j m := by
    intro m
    induction m with
    | nil => intro lo _; simp only [mdel, mget, ite_self]
    | cons c t ih =>
      obtain ⟨a, x⟩ := c
      intro lo hm
      simp only [mdel]
      split
      · rename_i hak
        subst hak
        split
        · rename_i haj
          subst haj
          exact mget_none_of_above t a hm.2
        · rename_i haj
          simp only [mget, haj, if_false]
      · rename_i hak
        simp only [mget, ih _ hm.2]
        by_cases haj : a = j
        · have : ¬ k = j := by omega
          simp [haj, this]
        · simp [haj]
  exact key m none h

theorem mset_above {α : Type} (m : Map α) (k : Nat) (v : α) (lo : Option Nat) (h : keysAbove lo m) (hk : ∀ l, lo = some l → l < k) :
    keysAbove lo (mset k v m) := by
  induction m generalizing lo with
  | nil => exact ⟨hk, trivial⟩
  | cons c t ih =>
    obtain ⟨a, x⟩ := c
    simp only [mset]
    split
    · rename_i hlt
      exact ⟨hk, fun l hl => by cases hl; exact hlt, h.2⟩
    · split
      · rename_i heq
        subst heq
        exact ⟨hk, h.2⟩
      · exact ⟨h.1, ih (some a) h.2 (fun l hl => by cases hl; omega)⟩

theorem mdel_above {α : Type} (m : Map α) (k : Nat) (lo : Option Nat) (h : keysAbove lo m) : keysAbove lo (mdel k m) := by
  induction m generalizing lo with
  | nil => trivial
  | cons c t ih =>
    obtain ⟨a, x⟩ := c
    simp only [mdel]
    split
    · exact keysAbove_weaken h.2 (fun b hb l hl => by have := h.1 l hl; have := hb a rfl; omega)
    · exact ⟨h.1, ih (some a) h.2⟩

/-! Byte memories. -/

theorem Mem.rising_iff (m : Mem) : m.rising = true ↔ keysAbove none m := by
  have key : ∀ (m : Mem) (c : Nat × Byte), Mem.rising (c :: m) = true ↔ keysAbove (some c.1) m := by
    intro m
    induction m with
    | nil => intro c; simp [Mem.rising, keysAbove]
    | cons b t ih =>
      intro c
      obtain ⟨a, x⟩ := b
      simp only [Mem.rising, Bool.and_eq_true, decide_eq_true_eq, ih, keysAbove, Option.some.injEq, forall_eq']
  cases m with
  | nil => simp [Mem.rising, keysAbove]
  | cons c t =>
    rw [key]
    obtain ⟨a, x⟩ := c
    simp [keysAbove]

/-- What the canonical form says. -/
theorem Mem.wf_iff (dflt : Byte) (m : Mem) : Mem.wf dflt m = true ↔ keysAbove none m ∧ ∀ c ∈ m, c.2 ≠ dflt := by
  simp [Mem.wf, Mem.rising_iff]

theorem mem_mset {α : Type} (m : Map α) (k : Nat) (v : α) (c : Nat × α) (h : c ∈ mset k v m) : c = (k, v) ∨ c ∈ m := by
  induction m with
  | nil => simpa [mset] using h
  | cons b t ih =>
    obtain ⟨a, x⟩ := b
    simp only [mset] at h
    split at h
    · simpa using h
    · split at h
      · simp only [List.mem_cons] at h ⊢
        tauto
      · simp only [List.mem_cons] at h ⊢
        rcases h with h | h
        · exact .inr (.inl h)
        · rcases ih h with h | h <;> tauto

theorem mem_mdel {α : Type} (m : Map α) (k : Nat) (c : Nat × α) (h : c ∈ mdel k m) : c ∈ m := by
  induction m with
  | nil => simp [mdel] at h
  | cons b t ih =>
    obtain ⟨a, x⟩ := b
    simp only [mdel] at h
    split at h
    · exact List.mem_cons_of_mem _ h
    · simp only [List.mem_cons] at h ⊢
      exact h.imp id ih

/-- A byte read after one byte is written: the byte written at its address, what stood there elsewhere. -/
theorem Mem.read_write (dflt : Byte) (m : Mem) (a b : Nat) (v : Byte) (h : Mem.wf dflt m = true) :
    Mem.read dflt (Mem.write dflt m a v) b = if a = b then v else Mem.read dflt m b := by
  have hk := ((Mem.wf_iff dflt m).1 h).1
  unfold Mem.read Mem.write
  split
  · rename_i hv
    rw [mget_mdel m a b hk]
    split <;> simp [hv]
  · rw [mget_mset]
    split <;> simp

/-- Writing a byte keeps the canonical form. -/
theorem Mem.write_wf (dflt : Byte) (m : Mem) (a : Nat) (v : Byte) (h : Mem.wf dflt m = true) :
    Mem.wf dflt (Mem.write dflt m a v) = true := by
  obtain ⟨hk, hd⟩ := (Mem.wf_iff dflt m).1 h
  rw [Mem.wf_iff]
  unfold Mem.write
  split
  · exact ⟨mdel_above m a none hk, fun c hc => hd c (mem_mdel m a c hc)⟩
  · rename_i hv
    refine ⟨mset_above m a v none hk (fun l hl => by cases hl), fun c hc => ?_⟩
    rcases mem_mset m a v c hc with rfl | hc
    · exact hv
    · exact hd c hc

/-- Writing bytes keeps the canonical form. -/
theorem Mem.writeN_wf (dflt : Byte) (n a v : Nat) (m : Mem) (h : Mem.wf dflt m = true) :
    Mem.wf dflt (Mem.writeN dflt m a n v) = true := by
  induction n generalizing m a v with
  | zero => exact h
  | succ n ih => exact ih (a + 1) (v / 256) _ (Mem.write_wf dflt m a _ h)

/-- A byte outside the bytes written reads as before. -/
theorem Mem.read_writeN_outside (dflt : Byte) (n a v b : Nat) (m : Mem) (h : Mem.wf dflt m = true) (hb : b < a ∨ a + n ≤ b) :
    Mem.read dflt (Mem.writeN dflt m a n v) b = Mem.read dflt m b := by
  induction n generalizing m a v with
  | zero => rfl
  | succ n ih =>
    have hw := Mem.write_wf dflt m a (.ofNat 8 v) h
    rw [Mem.writeN, ih (a + 1) (v / 256) _ hw (by omega), Mem.read_write dflt m a b _ h, if_neg (by omega)]

/-- The first byte written reads back. -/
theorem Mem.read_writeN_first (dflt : Byte) (n a v : Nat) (m : Mem) (h : Mem.wf dflt m = true) (hn : 0 < n) :
    Mem.read dflt (Mem.writeN dflt m a n v) a = .ofNat 8 v := by
  obtain ⟨n, rfl⟩ : ∃ k, n = k + 1 := ⟨n - 1, by omega⟩
  have hw := Mem.write_wf dflt m a (.ofNat 8 v) h
  rw [Mem.writeN, Mem.read_writeN_outside dflt n (a + 1) _ a _ hw (by omega), Mem.read_write dflt m a a _ h, if_pos rfl]

/-- Bytes written read back as the number written. -/
theorem Mem.readN_writeN (dflt : Byte) (n a v : Nat) (m : Mem) (h : Mem.wf dflt m = true) :
    Mem.readN dflt (Mem.writeN dflt m a n v) a n = v % 256 ^ n := by
  induction n generalizing m a v with
  | zero => simp [Mem.readN, Nat.mod_one]
  | succ n ih =>
    have hw := Mem.write_wf dflt m a (.ofNat 8 v) h
    rw [Mem.readN, Mem.read_writeN_first dflt (n + 1) a v m h (by omega)]
    rw [Mem.writeN, ih (a + 1) (v / 256) _ hw]
    have h1 : v % 256 ^ (n + 1) = v % 256 + 256 * (v / 256 % 256 ^ n) := by
      rw [Nat.pow_succ', Nat.mod_mul]
    rw [h1]
    simp

theorem keysAbove_filter {α : Type} (p : Nat × α → Bool) (m : Map α) (lo : Option Nat) (h : keysAbove lo m) :
    keysAbove lo (m.filter p) := by
  induction m generalizing lo with
  | nil => trivial
  | cons c t ih =>
    obtain ⟨a, x⟩ := c
    simp only [List.filter_cons]
    split
    · exact ⟨h.1, ih (some a) h.2⟩
    · exact ih lo (keysAbove_weaken h.2 (fun b hb l hl => by have := h.1 l hl; have := hb a rfl; omega))

/-- Clearing addresses keeps the canonical form. -/
theorem Mem.clear_wf (dflt : Byte) (m : Mem) (a n : Nat) (h : Mem.wf dflt m = true) : Mem.wf dflt (Mem.clear m a n) = true := by
  obtain ⟨hk, hd⟩ := (Mem.wf_iff dflt m).1 h
  rw [Mem.wf_iff]
  exact ⟨keysAbove_filter _ m none hk, fun c hc => hd c (List.mem_of_mem_filter hc)⟩

/-- A cleared address reads as unlisted ones do, the others as before. -/
theorem Mem.read_clear (dflt : Byte) (m : Mem) (a n b : Nat) (h : Mem.wf dflt m = true) :
    Mem.read dflt (Mem.clear m a n) b = if a ≤ b ∧ b < a + n then dflt else Mem.read dflt m b := by
  have hk := ((Mem.wf_iff dflt m).1 h).1
  have key : ∀ (m : Mem) (lo : Option Nat), keysAbove lo m →
      mget b (Mem.clear m a n) = if a ≤ b ∧ b < a + n then none else mget b m := by
    intro m
    induction m with
    | nil => intro lo _; simp [Mem.clear, mget]
    | cons c t ih =>
      obtain ⟨x, y⟩ := c
      intro lo hm
      have := ih (some x) hm.2
      simp only [Mem.clear] at this ⊢
      simp only [List.filter_cons]
      split
      · rename_i hx
        simp only [mget, this]
        simp only [Bool.or_eq_true, decide_eq_true_eq] at hx
        by_cases hxb : x = b
        · subst hxb
          rw [if_pos rfl, if_neg (by omega), if_pos rfl]
        · simp [hxb]
      · rename_i hx
        simp only [Bool.or_eq_true, decide_eq_true_eq, not_or, Nat.not_lt, Nat.not_le] at hx
        rw [this]
        by_cases hxb : x = b
        · subst hxb
          rw [if_pos ⟨hx.1, hx.2⟩, if_pos ⟨hx.1, hx.2⟩]
        · simp [mget, hxb]
  unfold Mem.read
  rw [key m none hk]
  split <;> rfl

end Sys2Proof.Machine
end

