-- ==== Sys2Proof/Laws/Parts.lean ====
section
/-! SUPPORT. The parts of the device that the operations of events, queues and the command protocol leave alone, one by one, for simp. -/

namespace Sys2Proof.Machine

open Sys2Proof

@[simp] theorem Device.raise_parts (d : Device) (id source payload : Nat) :
    (d.raise id source payload).time = d.time ∧ (d.raise id source payload).fire = d.fire ∧ (d.raise id source payload).rx = d.rx ∧
    (d.raise id source payload).hist = d.hist ∧ (d.raise id source payload).ret = d.ret ∧ (d.raise id source payload).cal = d.cal ∧
    (d.raise id source payload).cams = d.cams ∧ (d.raise id source payload).core = d.core ∧ (d.raise id source payload).field = d.field ∧
    (d.raise id source payload).bist = d.bist ∧ (d.raise id source payload).sec = d.sec ∧ (d.raise id source payload).power = d.power ∧
    (d.raise id source payload).ready = d.ready := by
  have h := d.raise_keeps id source payload
  exact ⟨h.time, h.fire, h.rx, h.hist, h.ret, h.cal, h.cams, h.core, h.field, h.bist, h.sec, h.power, h.ready⟩

@[simp] theorem Device.limited_parts (d : Device) (ev source sub len payload add : Nat) (first : Bool) :
    (d.limited ev source sub len payload add first).time = d.time ∧ (d.limited ev source sub len payload add first).fire = d.fire ∧
    (d.limited ev source sub len payload add first).rx = d.rx ∧ (d.limited ev source sub len payload add first).hist = d.hist ∧
    (d.limited ev source sub len payload add first).ret = d.ret ∧ (d.limited ev source sub len payload add first).cal = d.cal ∧
    (d.limited ev source sub len payload add first).cams = d.cams ∧ (d.limited ev source sub len payload add first).core = d.core ∧
    (d.limited ev source sub len payload add first).field = d.field ∧ (d.limited ev source sub len payload add first).bist = d.bist ∧
    (d.limited ev source sub len payload add first).sec = d.sec ∧ (d.limited ev source sub len payload add first).power = d.power ∧
    (d.limited ev source sub len payload add first).ready = d.ready := by
  have h := d.limited_keeps ev source sub len payload add first
  exact ⟨h.time, h.fire, h.rx, h.hist, h.ret, h.cal, h.cams, h.core, h.field, h.bist, h.sec, h.power, h.ready⟩

@[simp] theorem Device.count_parts (d : Device) (i n : Nat) :
    (d.count i n).time = d.time ∧ (d.count i n).fire = d.fire ∧ (d.count i n).rx = d.rx ∧ (d.count i n).hist = d.hist ∧
    (d.count i n).ret = d.ret ∧ (d.count i n).cal = d.cal ∧ (d.count i n).cams = d.cams ∧ (d.count i n).core = d.core ∧
    (d.count i n).field = d.field ∧ (d.count i n).bist = d.bist ∧ (d.count i n).sec = d.sec ∧ (d.count i n).power = d.power ∧
    (d.count i n).ready = d.ready := by
  have h := d.count_keeps i n
  exact ⟨h.time, h.fire, h.rx, h.hist, h.ret, h.cal, h.cams, h.core, h.field, h.bist, h.sec, h.power, h.ready⟩

@[simp] theorem Device.queueRec_parts (d : Device) (r : PendRec) :
    (d.queueRec r).time = d.time ∧ (d.queueRec r).fire = d.fire ∧ (d.queueRec r).rx = d.rx ∧ (d.queueRec r).hist = d.hist ∧
    (d.queueRec r).ret = d.ret ∧ (d.queueRec r).cal = d.cal ∧ (d.queueRec r).cams = d.cams ∧ (d.queueRec r).core = d.core ∧
    (d.queueRec r).field = d.field ∧ (d.queueRec r).bist = d.bist ∧ (d.queueRec r).sec = d.sec ∧ (d.queueRec r).power = d.power ∧
    (d.queueRec r).ready = d.ready := by
  have h := d.queueRec_keeps r
  exact ⟨h.time, h.fire, h.rx, h.hist, h.ret, h.cal, h.cams, h.core, h.field, h.bist, h.sec, h.power, h.ready⟩

@[simp] theorem Device.record_parts (d : Device) (kind source severity : Nat) (payload : Bytes) :
    (d.record kind source severity payload).time = d.time ∧ (d.record kind source severity payload).fire = d.fire ∧
    (d.record kind source severity payload).rx = d.rx ∧ (d.record kind source severity payload).hist = d.hist ∧
    (d.record kind source severity payload).ret = d.ret ∧ (d.record kind source severity payload).cal = d.cal ∧
    (d.record kind source severity payload).cams = d.cams ∧ (d.record kind source severity payload).core = d.core ∧
    (d.record kind source severity payload).field = d.field ∧ (d.record kind source severity payload).bist = d.bist ∧
    (d.record kind source severity payload).sec = d.sec ∧ (d.record kind source severity payload).power = d.power ∧
    (d.record kind source severity payload).ready = d.ready := by
  have h := d.record_keeps kind source severity payload
  exact ⟨h.time, h.fire, h.rx, h.hist, h.ret, h.cal, h.cams, h.core, h.field, h.bist, h.sec, h.power, h.ready⟩

@[simp] theorem Device.raiseRec_parts (d : Device) (id source payload kind severity : Nat) (extra : Bytes) :
    (d.raiseRec id source payload kind severity extra).time = d.time ∧ (d.raiseRec id source payload kind severity extra).fire = d.fire ∧
    (d.raiseRec id source payload kind severity extra).rx = d.rx ∧ (d.raiseRec id source payload kind severity extra).hist = d.hist ∧
    (d.raiseRec id source payload kind severity extra).ret = d.ret ∧ (d.raiseRec id source payload kind severity extra).cal = d.cal ∧
    (d.raiseRec id source payload kind severity extra).cams = d.cams ∧ (d.raiseRec id source payload kind severity extra).core = d.core ∧
    (d.raiseRec id source payload kind severity extra).field = d.field ∧ (d.raiseRec id source payload kind severity extra).bist = d.bist ∧
    (d.raiseRec id source payload kind severity extra).sec = d.sec ∧ (d.raiseRec id source payload kind severity extra).power = d.power ∧
    (d.raiseRec id source payload kind severity extra).ready = d.ready := by
  have h := d.raiseRec_keeps id source payload kind severity extra
  exact ⟨h.time, h.fire, h.rx, h.hist, h.ret, h.cal, h.cams, h.core, h.field, h.bist, h.sec, h.power, h.ready⟩

@[simp] theorem Device.integrityN_parts (d : Device) (cls idx act n : Nat) :
    (d.integrityN cls idx act n).time = d.time ∧ (d.integrityN cls idx act n).fire = d.fire ∧ (d.integrityN cls idx act n).rx = d.rx ∧
    (d.integrityN cls idx act n).hist = d.hist ∧ (d.integrityN cls idx act n).ret = d.ret ∧ (d.integrityN cls idx act n).cal = d.cal ∧
    (d.integrityN cls idx act n).cams = d.cams ∧ (d.integrityN cls idx act n).core = d.core ∧
    (d.integrityN cls idx act n).field = d.field ∧ (d.integrityN cls idx act n).bist = d.bist ∧
    (d.integrityN cls idx act n).sec = d.sec ∧ (d.integrityN cls idx act n).power = d.power ∧
    (d.integrityN cls idx act n).ready = d.ready := by
  have h := d.integrityN_keeps cls idx act n
  exact ⟨h.time, h.fire, h.rx, h.hist, h.ret, h.cal, h.cams, h.core, h.field, h.bist, h.sec, h.power, h.ready⟩

@[simp] theorem Device.checkPair_parts (d : Device) (ok : Bool) (cls idx act : Nat) :
    (d.checkPair ok cls idx act).time = d.time ∧ (d.checkPair ok cls idx act).fire = d.fire ∧ (d.checkPair ok cls idx act).rx = d.rx ∧
    (d.checkPair ok cls idx act).hist = d.hist ∧ (d.checkPair ok cls idx act).ret = d.ret ∧ (d.checkPair ok cls idx act).cal = d.cal ∧
    (d.checkPair ok cls idx act).cams = d.cams ∧ (d.checkPair ok cls idx act).core = d.core ∧
    (d.checkPair ok cls idx act).field = d.field ∧ (d.checkPair ok cls idx act).bist = d.bist ∧
    (d.checkPair ok cls idx act).sec = d.sec ∧ (d.checkPair ok cls idx act).power = d.power ∧
    (d.checkPair ok cls idx act).ready = d.ready := by
  have h := d.checkPair_keeps ok cls idx act
  exact ⟨h.time, h.fire, h.rx, h.hist, h.ret, h.cal, h.cams, h.core, h.field, h.bist, h.sec, h.power, h.ready⟩

@[simp] theorem Device.counterRead_parts (d : Device) (i : Nat) :
    (d.counterRead i).time = d.time ∧ (d.counterRead i).fire = d.fire ∧ (d.counterRead i).rx = d.rx ∧ (d.counterRead i).hist = d.hist ∧
    (d.counterRead i).ret = d.ret ∧ (d.counterRead i).cal = d.cal ∧ (d.counterRead i).cams = d.cams ∧ (d.counterRead i).core = d.core ∧
    (d.counterRead i).field = d.field ∧ (d.counterRead i).bist = d.bist ∧ (d.counterRead i).sec = d.sec ∧
    (d.counterRead i).power = d.power ∧ (d.counterRead i).ready = d.ready := by
  have h := d.counterRead_keeps i
  exact ⟨h.time, h.fire, h.rx, h.hist, h.ret, h.cal, h.cams, h.core, h.field, h.bist, h.sec, h.power, h.ready⟩

@[simp] theorem Device.lcUsed_parts (d : Device) :
    (d.lcUsed).time = d.time ∧ (d.lcUsed).fire = d.fire ∧ (d.lcUsed).rx = d.rx ∧ (d.lcUsed).hist = d.hist ∧ (d.lcUsed).ret = d.ret ∧
    (d.lcUsed).cal = d.cal ∧ (d.lcUsed).cams = d.cams ∧ (d.lcUsed).core = d.core ∧ (d.lcUsed).field = d.field ∧
    (d.lcUsed).bist = d.bist ∧ (d.lcUsed).sec = d.sec ∧ (d.lcUsed).power = d.power ∧ (d.lcUsed).ready = d.ready := by
  have h := d.lcUsed_keeps
  exact ⟨h.time, h.fire, h.rx, h.hist, h.ret, h.cal, h.cams, h.core, h.field, h.bist, h.sec, h.power, h.ready⟩

@[simp] theorem Device.rightsRead_parts (d : Device) (id : Nat) (sealed : Bool) :
    (d.rightsRead id sealed).time = d.time ∧ (d.rightsRead id sealed).fire = d.fire ∧ (d.rightsRead id sealed).rx = d.rx ∧
    (d.rightsRead id sealed).hist = d.hist ∧ (d.rightsRead id sealed).ret = d.ret ∧ (d.rightsRead id sealed).cal = d.cal ∧
    (d.rightsRead id sealed).cams = d.cams ∧ (d.rightsRead id sealed).core = d.core ∧ (d.rightsRead id sealed).field = d.field ∧
    (d.rightsRead id sealed).bist = d.bist ∧ (d.rightsRead id sealed).sec = d.sec ∧ (d.rightsRead id sealed).power = d.power ∧
    (d.rightsRead id sealed).ready = d.ready := by
  have h := d.rightsRead_keeps id sealed
  exact ⟨h.time, h.fire, h.rx, h.hist, h.ret, h.cal, h.cams, h.core, h.field, h.bist, h.sec, h.power, h.ready⟩

@[simp] theorem Device.countDrop_parts (d : Device) (n reason useq : Nat) :
    (d.countDrop n reason useq).time = d.time ∧ (d.countDrop n reason useq).fire = d.fire ∧ (d.countDrop n reason useq).rx = d.rx ∧
    (d.countDrop n reason useq).hist = d.hist ∧ (d.countDrop n reason useq).ret = d.ret ∧ (d.countDrop n reason useq).cal = d.cal ∧
    (d.countDrop n reason useq).cams = d.cams ∧ (d.countDrop n reason useq).core = d.core ∧ (d.countDrop n reason useq).field = d.field ∧
    (d.countDrop n reason useq).bist = d.bist ∧ (d.countDrop n reason useq).sec = d.sec ∧ (d.countDrop n reason useq).power = d.power ∧
    (d.countDrop n reason useq).ready = d.ready := by
  have h := (d.countDrop_near n reason useq).keeps
  exact ⟨h.time, h.fire, h.rx, h.hist, h.ret, h.cal, h.cams, h.core, h.field, h.bist, h.sec, h.power, h.ready⟩

@[simp] theorem Device.putUnit_parts (d : Device) (n src : Nat) (mayWait : Bool) (mk : Nat → Bytes) :
    (d.putUnit n src mayWait mk).1.time = d.time ∧ (d.putUnit n src mayWait mk).1.fire = d.fire ∧
    (d.putUnit n src mayWait mk).1.rx = d.rx ∧ (d.putUnit n src mayWait mk).1.hist = d.hist ∧ (d.putUnit n src mayWait mk).1.ret = d.ret ∧
    (d.putUnit n src mayWait mk).1.cal = d.cal ∧ (d.putUnit n src mayWait mk).1.cams = d.cams ∧
    (d.putUnit n src mayWait mk).1.core = d.core ∧ (d.putUnit n src mayWait mk).1.field = d.field ∧
    (d.putUnit n src mayWait mk).1.bist = d.bist ∧ (d.putUnit n src mayWait mk).1.sec = d.sec ∧
    (d.putUnit n src mayWait mk).1.power = d.power ∧ (d.putUnit n src mayWait mk).1.ready = d.ready := by
  have h := d.putUnit_keeps n src mayWait mk
  exact ⟨h.time, h.fire, h.rx, h.hist, h.ret, h.cal, h.cams, h.core, h.field, h.bist, h.sec, h.power, h.ready⟩

@[simp] theorem Device.putStream_parts (d : Device) (n : Nat) (mayWait : Bool) (flags type recsize records info : Nat) (body : Bytes) :
    (d.putStream n mayWait flags type recsize records info body).1.time = d.time ∧
    (d.putStream n mayWait flags type recsize records info body).1.fire = d.fire ∧
    (d.putStream n mayWait flags type recsize records info body).1.rx = d.rx ∧
    (d.putStream n mayWait flags type recsize records info body).1.hist = d.hist ∧
    (d.putStream n mayWait flags type recsize records info body).1.ret = d.ret ∧
    (d.putStream n mayWait flags type recsize records info body).1.cal = d.cal ∧
    (d.putStream n mayWait flags type recsize records info body).1.cams = d.cams ∧
    (d.putStream n mayWait flags type recsize records info body).1.core = d.core ∧
    (d.putStream n mayWait flags type recsize records info body).1.field = d.field ∧
    (d.putStream n mayWait flags type recsize records info body).1.bist = d.bist ∧
    (d.putStream n mayWait flags type recsize records info body).1.sec = d.sec ∧
    (d.putStream n mayWait flags type recsize records info body).1.power = d.power ∧
    (d.putStream n mayWait flags type recsize records info body).1.ready = d.ready := by
  have h := (d.putStream_near n mayWait flags type recsize records info body).keeps
  exact ⟨h.time, h.fire, h.rx, h.hist, h.ret, h.cal, h.cams, h.core, h.field, h.bist, h.sec, h.power, h.ready⟩

@[simp] theorem Device.grant_parts (d : Device) (queue node cells : Nat) :
    (d.grant queue node cells).time = d.time ∧ (d.grant queue node cells).fire = d.fire ∧ (d.grant queue node cells).rx = d.rx ∧
    (d.grant queue node cells).hist = d.hist ∧ (d.grant queue node cells).ret = d.ret ∧ (d.grant queue node cells).cal = d.cal ∧
    (d.grant queue node cells).cams = d.cams ∧ (d.grant queue node cells).core = d.core ∧ (d.grant queue node cells).field = d.field ∧
    (d.grant queue node cells).bist = d.bist ∧ (d.grant queue node cells).sec = d.sec ∧ (d.grant queue node cells).power = d.power ∧
    (d.grant queue node cells).ready = d.ready := by
  have h := (d.grant_near queue node cells).keeps
  exact ⟨h.time, h.fire, h.rx, h.hist, h.ret, h.cal, h.cams, h.core, h.field, h.bist, h.sec, h.power, h.ready⟩

@[simp] theorem Device.take_parts (d : Device) (n who useq : Nat) :
    (d.take n who useq).time = d.time ∧ (d.take n who useq).fire = d.fire ∧ (d.take n who useq).rx = d.rx ∧
    (d.take n who useq).hist = d.hist ∧ (d.take n who useq).ret = d.ret ∧ (d.take n who useq).cal = d.cal ∧
    (d.take n who useq).cams = d.cams ∧ (d.take n who useq).core = d.core ∧ (d.take n who useq).field = d.field ∧
    (d.take n who useq).bist = d.bist ∧ (d.take n who useq).sec = d.sec ∧ (d.take n who useq).power = d.power ∧
    (d.take n who useq).ready = d.ready := by
  have h := d.take_keeps n who useq
  exact ⟨h.time, h.fire, h.rx, h.hist, h.ret, h.cal, h.cams, h.core, h.field, h.bist, h.sec, h.power, h.ready⟩

@[simp] theorem Device.sendMsg_parts (d : Device) (node queue : Nat) (msg : Bytes) :
    (d.sendMsg node queue msg).1.time = d.time ∧ (d.sendMsg node queue msg).1.fire = d.fire ∧ (d.sendMsg node queue msg).1.rx = d.rx ∧
    (d.sendMsg node queue msg).1.hist = d.hist ∧ (d.sendMsg node queue msg).1.ret = d.ret ∧ (d.sendMsg node queue msg).1.cal = d.cal ∧
    (d.sendMsg node queue msg).1.cams = d.cams ∧ (d.sendMsg node queue msg).1.core = d.core ∧
    (d.sendMsg node queue msg).1.field = d.field ∧ (d.sendMsg node queue msg).1.bist = d.bist ∧ (d.sendMsg node queue msg).1.sec = d.sec ∧
    (d.sendMsg node queue msg).1.power = d.power ∧ (d.sendMsg node queue msg).1.ready = d.ready := by
  have h := d.sendMsg_keeps node queue msg
  exact ⟨h.time, h.fire, h.rx, h.hist, h.ret, h.cal, h.cams, h.core, h.field, h.bist, h.sec, h.power, h.ready⟩

@[simp] theorem Device.closeSession_parts (d : Device) (n reason : Nat) :
    (d.closeSession n reason).time = d.time ∧ (d.closeSession n reason).fire = d.fire ∧ (d.closeSession n reason).rx = d.rx ∧
    (d.closeSession n reason).hist = d.hist ∧ (d.closeSession n reason).ret = d.ret ∧ (d.closeSession n reason).cal = d.cal ∧
    (d.closeSession n reason).cams = d.cams ∧ (d.closeSession n reason).core = d.core ∧ (d.closeSession n reason).field = d.field ∧
    (d.closeSession n reason).bist = d.bist ∧ (d.closeSession n reason).sec = d.sec ∧ (d.closeSession n reason).power = d.power ∧
    (d.closeSession n reason).ready = d.ready := by
  have h := d.closeSession_keeps n reason
  exact ⟨h.time, h.fire, h.rx, h.hist, h.ret, h.cal, h.cams, h.core, h.field, h.bist, h.sec, h.power, h.ready⟩

@[simp] theorem Device.reply_parts (d : Device) (node queue : Nat) (body : Bytes) (first : Bool) :
    (d.reply node queue body first).time = d.time ∧ (d.reply node queue body first).fire = d.fire ∧
    (d.reply node queue body first).rx = d.rx ∧ (d.reply node queue body first).hist = d.hist ∧
    (d.reply node queue body first).ret = d.ret ∧ (d.reply node queue body first).cal = d.cal ∧
    (d.reply node queue body first).cams = d.cams ∧ (d.reply node queue body first).core = d.core ∧
    (d.reply node queue body first).field = d.field ∧ (d.reply node queue body first).bist = d.bist ∧
    (d.reply node queue body first).sec = d.sec ∧ (d.reply node queue body first).power = d.power ∧
    (d.reply node queue body first).ready = d.ready := by
  have h := d.reply_keeps node queue body first
  exact ⟨h.time, h.fire, h.rx, h.hist, h.ret, h.cal, h.cams, h.core, h.field, h.bist, h.sec, h.power, h.ready⟩

@[simp] theorem Device.finish_parts (d : Device) (w : Wait) (status : Nat) (result : Bytes) :
    (d.finish w status result).time = d.time ∧ (d.finish w status result).fire = d.fire ∧ (d.finish w status result).rx = d.rx ∧
    (d.finish w status result).hist = d.hist ∧ (d.finish w status result).ret = d.ret ∧ (d.finish w status result).cal = d.cal ∧
    (d.finish w status result).cams = d.cams ∧ (d.finish w status result).core = d.core ∧ (d.finish w status result).field = d.field ∧
    (d.finish w status result).bist = d.bist ∧ (d.finish w status result).sec = d.sec ∧ (d.finish w status result).power = d.power ∧
    (d.finish w status result).ready = d.ready := by
  have h := d.finish_keeps w status result
  exact ⟨h.time, h.fire, h.rx, h.hist, h.ret, h.cal, h.cams, h.core, h.field, h.bist, h.sec, h.power, h.ready⟩

@[simp] theorem Device.complete_parts (d : Device) (k : WaitKind) (status : Nat) (result : Bytes) :
    (d.complete k status result).time = d.time ∧ (d.complete k status result).fire = d.fire ∧ (d.complete k status result).rx = d.rx ∧
    (d.complete k status result).hist = d.hist ∧ (d.complete k status result).ret = d.ret ∧ (d.complete k status result).cal = d.cal ∧
    (d.complete k status result).cams = d.cams ∧ (d.complete k status result).core = d.core ∧
    (d.complete k status result).field = d.field ∧ (d.complete k status result).bist = d.bist ∧ (d.complete k status result).sec = d.sec ∧
    (d.complete k status result).power = d.power ∧ (d.complete k status result).ready = d.ready := by
  have h := d.complete_keeps k status result
  exact ⟨h.time, h.fire, h.rx, h.hist, h.ret, h.cal, h.cams, h.core, h.field, h.bist, h.sec, h.power, h.ready⟩

@[simp] theorem Device.accept_parts (d : Device) (e : Env) (sealed : Bool) :
    (d.accept e sealed).time = d.time ∧ (d.accept e sealed).fire = d.fire ∧ (d.accept e sealed).rx = d.rx ∧ (d.accept e sealed).hist = d.hist ∧
    (d.accept e sealed).ret = d.ret ∧ (d.accept e sealed).cal = d.cal ∧ (d.accept e sealed).cams = d.cams ∧ (d.accept e sealed).core = d.core ∧
    (d.accept e sealed).field = d.field ∧ (d.accept e sealed).bist = d.bist ∧ (d.accept e sealed).sec = d.sec ∧ (d.accept e sealed).power = d.power ∧
    (d.accept e sealed).ready = d.ready := by
  have h := d.accept_keeps e sealed
  exact ⟨h.time, h.fire, h.rx, h.hist, h.ret, h.cal, h.cams, h.core, h.field, h.bist, h.sec, h.power, h.ready⟩

@[simp] theorem Device.replayPath_parts (d : Device) (e : Env) :
    (d.replayPath e).time = d.time ∧ (d.replayPath e).fire = d.fire ∧ (d.replayPath e).rx = d.rx ∧ (d.replayPath e).hist = d.hist ∧
    (d.replayPath e).ret = d.ret ∧ (d.replayPath e).cal = d.cal ∧ (d.replayPath e).cams = d.cams ∧ (d.replayPath e).core = d.core ∧
    (d.replayPath e).field = d.field ∧ (d.replayPath e).bist = d.bist ∧ (d.replayPath e).sec = d.sec ∧ (d.replayPath e).power = d.power ∧
    (d.replayPath e).ready = d.ready := by
  have h := d.replayPath_keeps e
  exact ⟨h.time, h.fire, h.rx, h.hist, h.ret, h.cal, h.cams, h.core, h.field, h.bist, h.sec, h.power, h.ready⟩

@[simp] theorem State.deliver_parts (s : State) (o : Origin) (path : Path) (r : Bytes) :
    (s.deliver o path r).dev.time = s.dev.time ∧ (s.deliver o path r).dev.fire = s.dev.fire ∧ (s.deliver o path r).dev.rx = s.dev.rx ∧
    (s.deliver o path r).dev.hist = s.dev.hist ∧ (s.deliver o path r).dev.ret = s.dev.ret ∧ (s.deliver o path r).dev.cal = s.dev.cal ∧
    (s.deliver o path r).dev.cams = s.dev.cams ∧ (s.deliver o path r).dev.core = s.dev.core ∧
    (s.deliver o path r).dev.field = s.dev.field ∧ (s.deliver o path r).dev.bist = s.dev.bist ∧ (s.deliver o path r).dev.sec = s.dev.sec ∧
    (s.deliver o path r).dev.power = s.dev.power ∧ (s.deliver o path r).dev.ready = s.dev.ready := by
  have h := s.deliver_keeps o path r
  exact ⟨h.time, h.fire, h.rx, h.hist, h.ret, h.cal, h.cams, h.core, h.field, h.bist, h.sec, h.power, h.ready⟩

@[simp] theorem State.settle_parts (s : State) (old : Device) :
    (s.settle old).dev.time = s.dev.time ∧ (s.settle old).dev.fire = s.dev.fire ∧ (s.settle old).dev.rx = s.dev.rx ∧
    (s.settle old).dev.hist = s.dev.hist ∧ (s.settle old).dev.ret = s.dev.ret ∧ (s.settle old).dev.cal = s.dev.cal ∧
    (s.settle old).dev.cams = s.dev.cams ∧ (s.settle old).dev.core = s.dev.core ∧ (s.settle old).dev.field = s.dev.field ∧
    (s.settle old).dev.bist = s.dev.bist ∧ (s.settle old).dev.sec = s.dev.sec ∧ (s.settle old).dev.power = s.dev.power ∧
    (s.settle old).dev.ready = s.dev.ready := by
  have h := s.settle_keeps old
  exact ⟨h.time, h.fire, h.rx, h.hist, h.ret, h.cal, h.cams, h.core, h.field, h.bist, h.sec, h.power, h.ready⟩

@[simp] theorem State.settle_rest (s : State) (old : Device) :
    (s.settle old).dev.log = s.dev.log ∧
    (s.settle old).dev.wcp.sessions = s.dev.wcp.sessions ∧ (s.settle old).dev.wcp.waits = s.dev.wcp.waits ∧
    (s.settle old).dev.wcp.replies = s.dev.wcp.replies ∧ (s.settle old).dev.wcp.resetAt = s.dev.wcp.resetAt := by
  have h := s.settle_rests old
  exact ⟨h.log, h.sessions, h.waits, h.replies, h.resetAt⟩

/-- A device is the same as itself. -/
theorem Device.OnlyIn.refl (ps : List Part) (d : Device) : d.OnlyIn ps d := by
  intro p _
  cases p <;> rfl

/-! A running slice cut short reaches self-test, the events and the event stream alone. -/

theorem Device.sliceCut_onlyIn (d : Device) (x : SliceRun) (cause aborts : Nat) (r : Option SliceResult) (put : Bist → Bist) :
    d.OnlyIn [.bist, .wcp, .qs] (d.sliceCut x cause aborts r put) := by
  intro p hp
  unfold Device.sliceCut Device.bistIncomplete Device.limited
  dsimp only
  split <;> cases p <;> first | rfl | (exact absurd (by simp) hp)

theorem Device.sliceAbort_onlyIn (d : Device) (bus : Bool) : d.OnlyIn [.bist, .wcp, .qs] (d.sliceAbort bus) := by
  unfold Device.sliceAbort
  split
  · exact .refl _ d
  · dsimp only
    split
    · exact .refl _ d
    · exact d.sliceCut_onlyIn _ _ _ _ _

theorem Device.sliceLoss_onlyIn (d : Device) (cause : Nat) : d.OnlyIn [.bist, .wcp, .qs] (d.sliceLoss cause) := by
  unfold Device.sliceLoss
  split
  · exact .refl _ d
  · split
    · exact .refl _ d
    · exact d.sliceCut_onlyIn _ _ _ _ _

theorem Device.serveOrWait_onlyIn (d : Device) (rows : List Nat) : d.OnlyIn [.bist, .wcp, .qs] (d.serveOrWait rows) := by
  unfold Device.serveOrWait
  split
  · exact d.sliceAbort_onlyIn true
  · exact .refl _ d

theorem Device.serve_onlyIn (d : Device) (rows : List Nat) : d.OnlyIn [.bist, .wcp, .qs] (d.serve rows) := by
  unfold Device.serve
  split
  · exact d.sliceAbort_onlyIn false
  · exact .refl _ d

end Sys2Proof.Machine
end

