-- ==== Sys2Proof/Laws/Wcp.lean ====
section
/-! SUPPORT. What a row of the command protocol does: one lemma for the shape of every row, and one for each way an envelope is
answered. -/

namespace Sys2Proof.Machine

open Sys2Proof

set_option maxRecDepth 2000 in
/-- Every row of the command protocol has the one shape. -/
theorem exec_wcpRow (i : Instr) (r : WcpRow) (h : wcpRow? i = some r) (s : State) :
    exec i s = wcpRowThen r.dt r.origin r.cmd r.opens r.after s := by
  cases i <;> first | (cases h; rfl) | cases h

/-- A row whose command is not offered only lets time pass (log entry 6). -/
theorem wcpRowThen_idle (r : WcpRow) (s : State)
    (h : ∀ e, (s.elapse r.dt).dev.serves = true → (s.elapse r.dt).envelope r.origin = some e → e.id ≠ r.cmd.id) :
    wcpRowThen r.dt r.origin r.cmd r.opens r.after s = .next (State.settle (s.elapse r.dt) s.dev) := by
  unfold wcpRowThen
  dsimp only
  by_cases hs : (s.elapse r.dt).dev.serves = true
  · cases he : (s.elapse r.dt).envelope r.origin with
    | none => simp [hs]
    | some e => simp [hs, h e hs he]
  · simp [hs]

/-- A command offered is handled and answered. -/
theorem wcpRowThen_offered (r : WcpRow) (s : State) (e : Env) (h : Offered r.origin r.cmd e (s.elapse r.dt)) :
    wcpRowThen r.dt r.origin r.cmd r.opens r.after s =
      .next (r.answered s e (r.cmd.handle r.opens e (s.elapse r.dt).dev)) := by
  unfold wcpRowThen WcpRow.answered
  simp only [h.serves, if_true, h.there, h.id]

/-- A tag asks for the security engine: no session changes with it. -/
theorem Device.serveOrWait_session (d : Device) (rows : List Nat) (n : Nat) : (d.serveOrWait rows).session n = d.session n := by
  unfold Device.serveOrWait Device.sliceAbort Device.sliceCut Device.bistIncomplete Device.limited
  dsimp only
  repeat' split
  all_goals rfl

/-- An authentic envelope reaches execution, and its response carries the outcome. -/
theorem Cmd.handle_authentic (c : Cmd) (opens : Env → Device → Device × Bytes) (e : Env) (d : Device) (h : Authentic e d) :
    c.handle opens e d = ((c.tracked e (d.serveOrWait [5])).1, response (some (keyBytes (d.session e.session).key)) e.id e.session e.counter
      (c.tracked e (d.serveOrWait [5])).2.1 0 d.time.ns.toNat (c.tracked e (d.serveOrWait [5])).2.2) := by
  have ha : e.auth = true := by
    have := h.tagged
    simp only [Env.tagOk, Bool.and_eq_true] at this
    exact this.1
  have hf : ¬ e.counter ≤ (d.session e.session).high.toNat := by have := h.fresh; omega
  unfold Cmd.handle
  simp [h.formed, h.named, h.opened, ha, h.tagged, h.unused, hf, h.room, h.inFlight]

/-- A permitted command runs. -/
theorem Cmd.execute_permitted (c : Cmd) (e : Env) (d : Device) (h : Permitted c e d) :
    c.execute (e.ctx d) e.payload (c.taken e d) = c.run (e.ctx d) e.payload (c.taken e d) := by
  unfold Cmd.execute
  simp only [h.early, h.now, h.late]
  simp

/-- The answer to a command leaves what its handling left, where what follows the response does. -/
theorem WcpRow.answered_keeps (r : WcpRow) (s : State) (e : Env) (x : Device × Bytes) (hx : (s.elapse r.dt).dev.Keeps x.1)
    (ha : ∀ d d' : Device, d'.Keeps (r.after d d')) : (s.elapse r.dt).dev.Keeps (r.answered s e x).dev := by
  unfold WcpRow.answered
  dsimp only
  refine Device.Keeps.trans ?_ (State.settle_keeps _ _)
  refine Device.Keeps.trans ?_ (ha _ _)
  exact hx.trans (State.deliver_keeps { s.elapse r.dt with dev := x.1 } _ _ _)

/-- A reply that waits is the protocol's state alone. -/
theorem Device.modLastReply_keeps (d : Device) (f : Reply → Reply) : d.Keeps (d.modLastReply f) := by
  unfold Device.modLastReply
  split <;> exact ⟨rfl, rfl, rfl, rfl, rfl, rfl, rfl, rfl, rfl, rfl, rfl, rfl, rfl⟩

/-- What follows a waiting reply is the protocol's state alone. -/
theorem Device.afterReply_keeps (d : Device) (c : Cause) : d.Keeps (d.afterReply c) := d.modLastReply_keeps _

/-- A reset that waits for its reply changes the protocol's state alone. -/
theorem Device.resetAfterReply_keeps (d d' : Device) : d'.Keeps (d.resetAfterReply d') := by
  unfold Device.resetAfterReply
  repeat' split
  · obtain ⟨h1, h2, h3, h4, h5, h6, h7, h8, h9, h10, h11, h12, h13⟩ := d'.afterReply_keeps ‹_›
    exact ⟨h1, h2, h3, h4, h5, h6, h7, h8, h9, h10, h11, h12, h13⟩
  all_goals exact .refl d'

/-- Standby that waits for its reply does so too. -/
theorem Device.standbyAfterReply_keeps (d d' : Device) : d'.Keeps (d.standbyAfterReply d') := by
  unfold Device.standbyAfterReply
  repeat' split
  · exact d'.afterReply_keeps _
  all_goals exact .refl d'

/-- What follows the response of a row changes the protocol's state alone, but for the key write and the life-cycle advance. -/
theorem WcpRow.after_keeps (i : Instr) (r : WcpRow) (h : wcpRow? i = some r) (h1 : r.cmd.id ≠ 0x0D40) (h2 : r.cmd.id ≠ 0x0D41)
    (d d' : Device) : d'.Keeps (r.after d d') := by
  cases i <;> first | (cases h; first | exact .refl d' | exact Device.resetAfterReply_keeps d d' | exact Device.standbyAfterReply_keeps d d' | exact absurd rfl h1 | exact absurd rfl h2) | cases h

end Sys2Proof.Machine
end

