-- ==== Sys2Proof/Laws/Host.lean ====
section
/-! SUPPORT. The operations of the host port keep its invariant. -/

namespace Sys2Proof.Machine

open Sys2Proof

/-- Fields of the port the invariant does not speak of may change. -/
theorem HostPort.Inv.same {h h' : HostPort} (k : h.Inv) (hm : h'.mem = h.mem) (hw : h'.evtWr = h.evtWr) (hr : h'.evtRd = h.evtRd)
    (he : h'.irqEn = h.irqEn) : h'.Inv :=
  ⟨hm ▸ k.canonical, by have := k.unread; unfold HostPort.unread at this ⊢; rw [hw, hr]; exact this, he ▸ k.enables⟩

theorem HostPort.irq_inv (h : HostPort) (b : Nat) (k : h.Inv) : (h.irq b).Inv := k.same rfl rfl rfl rfl

theorem HostPort.error_inv (h : HostPort) (b : Nat) (k : h.Inv) : (h.error b).Inv := k.same rfl rfl rfl rfl

/-- One event entering the window keeps at most 128 unread (R60). -/
theorem HostPort.event_inv (h : HostPort) (e : BitVec 256) (k : h.Inv) : (h.event e).Inv := by
  have hu := k.unread
  by_cases hf : h.unread = 128
  · have hm : (h.event e).mem = Mem.writeN winDefault h.mem (0x9000 + 32 * (h.evtWr.toNat % 128)) 32 e.toNat := by
      unfold HostPort.event; rw [if_pos hf]; rfl
    have hw : (h.event e).evtWr = h.evtWr + 1 := by unfold HostPort.event; rw [if_pos hf]; rfl
    have hr : (h.event e).evtRd = h.evtRd + 1 := by unfold HostPort.event; rw [if_pos hf]; rfl
    have he : (h.event e).irqEn = h.irqEn := by unfold HostPort.event; rw [if_pos hf]; rfl
    refine ⟨?_, ?_, he ▸ k.enables⟩
    · rw [hm]; exact Mem.writeN_wf _ _ _ _ _ k.canonical
    · unfold HostPort.unread at hf ⊢
      rw [hw, hr]
      have one : (1 : BitVec 8).toNat = 1 := rfl
      simp only [BitVec.toNat_add, one]
      omega
  · have hm : (h.event e).mem = Mem.writeN winDefault h.mem (0x9000 + 32 * (h.evtWr.toNat % 128)) 32 e.toNat := by
      unfold HostPort.event; rw [if_neg hf]; rfl
    have hw : (h.event e).evtWr = h.evtWr + 1 := by unfold HostPort.event; rw [if_neg hf]; rfl
    have hr : (h.event e).evtRd = h.evtRd := by unfold HostPort.event; rw [if_neg hf]; rfl
    have he : (h.event e).irqEn = h.irqEn := by unfold HostPort.event; rw [if_neg hf]; rfl
    refine ⟨?_, ?_, he ▸ k.enables⟩
    · rw [hm]; exact Mem.writeN_wf _ _ _ _ _ k.canonical
    · unfold HostPort.unread at hf hu ⊢
      rw [hw, hr]
      have one : (1 : BitVec 8).toNat = 1 := rfl
      simp only [BitVec.toNat_add, one]
      omega

/-- Events entering the window keep the invariant. -/
theorem HostPort.events_inv (l : List (BitVec 256)) (h : HostPort) (k : h.Inv) : (l.foldl HostPort.event h).Inv := by
  induction l generalizing h with
  | nil => exact k
  | cons e t ih => exact ih _ (h.event_inv e k)

theorem HostPort.changes_inv (h : HostPort) (old new : Device) (k : h.Inv) : (h.changes old new).Inv := by
  unfold HostPort.changes
  refine k.same ?_ ?_ ?_ ?_ <;> (dsimp only; (repeat' split) <;> rfl)

/-- A response keeps the invariant (R39). -/
theorem HostPort.respond_inv (h : HostPort) (n : Nat) (r : Bytes) (k : h.Inv) : (h.respond n r).Inv := by
  refine ⟨?_, ?_, ?_⟩
  · exact Mem.writeN_wf _ _ _ _ _ (Mem.clear_wf _ _ _ _ k.canonical)
  · exact k.unread
  · exact k.enables

/-- A write of HIF_EVT_RD never enlarges the number unread (R60). -/
theorem HostPort.writeEvtRd_inv (h : HostPort) (v : Nat) (k : h.Inv) : (h.writeEvtRd v).Inv := by
  unfold HostPort.writeEvtRd
  dsimp only
  split
  · rename_i hle
    refine ⟨k.canonical, ?_, k.enables⟩
    have hu := k.unread
    unfold HostPort.unread at hu hle ⊢
    simp only [BitVec.toNat_ofNat]
    omega
  · exact h.error_inv _ k

theorem HostPort.writeWindow_inv (h : HostPort) (a : Nat) (v : Word) (k : h.Inv) : (h.writeWindow a v).Inv := by
  unfold HostPort.writeWindow
  split
  · exact h.error_inv _ k
  · exact ⟨Mem.writeN_wf _ _ _ _ _ k.canonical, k.unread, k.enables⟩

theorem HostPort.releaseMb_inv (h : HostPort) (n : Nat) (k : h.Inv) : (h.releaseMb n).Inv := by
  unfold HostPort.releaseMb
  split
  · exact k.same rfl rfl rfl rfl
  · exact k

theorem HostPort.csRelease_inv (h : HostPort) (cut : CutWord) (k : h.Inv) : (h.csRelease cut).Inv := by
  unfold HostPort.csRelease
  dsimp only
  split <;> exact k.same rfl rfl rfl rfl

theorem State.doorbell_inv (s : State) (n : Nat) (k : s.host.Inv) : (s.doorbell n).host.Inv := by
  unfold State.doorbell
  split <;> exact k.same rfl rfl rfl rfl

theorem State.doorbells_inv (v : Word) (l : List Nat) (s : State) (k : s.host.Inv) :
    (l.foldl (fun s n => if bit v n then s.doorbell n else s) s).host.Inv := by
  induction l generalizing s with
  | nil => exact k
  | cons n t ih =>
    refine ih _ ?_
    dsimp only
    split
    · exact s.doorbell_inv n k
    · exact k

theorem HostPort.releases_inv (v : Word) (l : List Nat) (h : HostPort) (k : h.Inv) :
    (l.foldl (fun h n => if bit v n then h.releaseMb n else h) h).Inv := by
  induction l generalizing h with
  | nil => exact k
  | cons n t ih =>
    refine ih _ ?_
    dsimp only
    split
    · exact h.releaseMb_inv n k
    · exact k

/-- A word written by the host keeps the invariant. -/
theorem State.writeAt_inv (s : State) (a : Nat) (v : Word) (k : s.host.Inv) : (s.writeAt a v).host.Inv := by
  unfold State.writeAt
  (repeat' split)
  · exact k.same rfl rfl rfl rfl
  · refine ⟨k.canonical, k.unread, ?_⟩
    dsimp only
    rw [BitVec.and_assoc]
    simp
  · exact k.same rfl rfl rfl rfl
  · exact s.doorbells_inv v _ k
  · exact HostPort.releases_inv v _ _ k
  · exact k.same rfl rfl rfl rfl
  · exact s.host.writeEvtRd_inv _ k
  · exact s.host.writeWindow_inv _ _ k
  · exact k

theorem State.writeBurst_inv (ws : List Word) (s : State) (a : Nat) (k : s.host.Inv) : (s.writeBurst a ws).host.Inv := by
  induction ws generalizing s a with
  | nil => exact k
  | cons v t ih => exact ih _ _ (s.writeAt_inv a v k)

theorem State.aligned_inv (s : State) (addr : BitVec 16) (k : s.host.Inv) : (s.aligned addr).host.Inv := by
  unfold State.aligned
  split
  · exact k
  · exact s.host.error_inv _ k

/-- Any burst written by the host keeps the invariant. -/
theorem State.hostWrite_inv (s : State) (addr : BitVec 16) (ws : List Word) (k : s.host.Inv) : (s.hostWrite addr ws).host.Inv :=
  State.writeBurst_inv ws _ _ (s.aligned_inv addr k)

theorem State.readAt_inv (s : State) (a : Nat) (k : s.host.Inv) : (s.readAt a).1.host.Inv := by
  unfold State.readAt
  dsimp only
  (repeat' split) <;> first | exact k | exact k.same rfl rfl rfl rfl

theorem State.readBurst_inv (n : Nat) (s : State) (a : Nat) (k : s.host.Inv) : (s.readBurst a n).1.host.Inv := by
  induction n generalizing s a with
  | zero => exact k
  | succ n ih => exact ih _ _ (s.readAt_inv a k)

/-- Any burst read by the host keeps the invariant. -/
theorem State.hostRead_inv (s : State) (addr : BitVec 16) (n : Nat) (k : s.host.Inv) : (s.hostRead addr n).host.Inv :=
  (State.readBurst_inv n _ _ (s.aligned_inv addr k)).same rfl rfl rfl rfl

/-- A response delivered keeps the invariant. -/
theorem State.deliver_inv (s : State) (o : Origin) (path : Path) (r : Bytes) (k : s.host.Inv) : (s.deliver o path r).host.Inv := by
  cases o with
  | mailbox n => exact HostPort.respond_inv _ _ _ k
  | q0 =>
    cases path with
    | spi => exact k
    | ring node queue =>
      unfold State.deliver
      dsimp only
      split <;> exact k

/-- The end of a step keeps the invariant. -/
theorem State.settle_inv (s : State) (old : Device) (k : s.host.Inv) : (s.settle old).host.Inv := by
  have h := HostPort.changes_inv _ old ((s.dev.closeFull 17).mirrorOut 8)
    (HostPort.events_inv ((s.dev.closeFull 17).mirrorOut 8).wcp.out s.host k)
  exact h.same rfl rfl rfl rfl

end Sys2Proof.Machine
end

