-- ==== Sys2Proof/Laws/Rows.lean ====
section
/-! SUPPORT. The shapes of a step: what each answers, that it leaves the queue of commands alone and nothing undelivered, that it keeps the
invariant of the host port, and what its end leaves of the port. -/

namespace Sys2Proof.Machine

open Sys2Proof

/-! The end of a step. -/

theorem HostPort.event_same (h : HostPort) (e : BitVec 256) :
    (h.event e).mb = h.mb ∧ (h.event e).dbRefused = h.dbRefused ∧ (h.event e).err = h.err ∧ (h.event e).irqEn = h.irqEn ∧
    (h.event e).timeHi = h.timeHi ∧ (h.event e).ignoring = h.ignoring ∧ (h.event e).lastRead = h.lastRead := by
  unfold HostPort.event
  dsimp only
  split <;> exact ⟨rfl, rfl, rfl, rfl, rfl, rfl, rfl⟩

theorem HostPort.events_same (l : List (BitVec 256)) (h : HostPort) :
    (l.foldl HostPort.event h).mb = h.mb ∧ (l.foldl HostPort.event h).dbRefused = h.dbRefused ∧
    (l.foldl HostPort.event h).err = h.err ∧ (l.foldl HostPort.event h).irqEn = h.irqEn ∧
    (l.foldl HostPort.event h).timeHi = h.timeHi ∧ (l.foldl HostPort.event h).ignoring = h.ignoring ∧
    (l.foldl HostPort.event h).lastRead = h.lastRead := by
  induction l generalizing h with
  | nil => exact ⟨rfl, rfl, rfl, rfl, rfl, rfl, rfl⟩
  | cons e t ih =>
    rw [List.foldl_cons]
    simpa only [HostPort.event_same] using ih (h.event e)

theorem HostPort.changes_same (h : HostPort) (old new : Device) :
    (h.changes old new).mb = h.mb ∧ (h.changes old new).dbRefused = h.dbRefused ∧ (h.changes old new).err = h.err ∧
    (h.changes old new).irqEn = h.irqEn ∧ (h.changes old new).timeHi = h.timeHi ∧ (h.changes old new).ignoring = h.ignoring ∧
    (h.changes old new).lastRead = h.lastRead ∧ (h.changes old new).mem = h.mem := by
  unfold HostPort.changes
  dsimp only
  (repeat' split) <;> exact ⟨rfl, rfl, rfl, rfl, rfl, rfl, rfl, rfl⟩

/-- The end of a step leaves mailboxes, refused doorbells, errors, enables and captured reads alone. -/
@[simp] theorem State.settle_host (s : State) (old : Device) :
    (s.settle old).host.mb = s.host.mb ∧ (s.settle old).host.dbRefused = s.host.dbRefused ∧ (s.settle old).host.err = s.host.err ∧
    (s.settle old).host.irqEn = s.host.irqEn ∧ (s.settle old).host.timeHi = s.host.timeHi ∧
    (s.settle old).host.ignoring = s.host.ignoring ∧ (s.settle old).host.lastRead = s.host.lastRead := by
  have h := HostPort.changes_same (((s.dev.closeFull 17).mirrorOut 8).wcp.out.foldl HostPort.event s.host) old
    ((s.dev.closeFull 17).mirrorOut 8)
  have k := HostPort.events_same ((s.dev.closeFull 17).mirrorOut 8).wcp.out s.host
  exact ⟨h.1.trans k.1, h.2.1.trans k.2.1, h.2.2.1.trans k.2.2.1, h.2.2.2.1.trans k.2.2.2.1, h.2.2.2.2.1.trans k.2.2.2.2.1,
    h.2.2.2.2.2.1.trans k.2.2.2.2.2.1, h.2.2.2.2.2.2.1.trans k.2.2.2.2.2.2⟩

theorem HostPort.events_read (l : List (BitVec 256)) (h : HostPort) (k : h.Inv) (a : Nat) (ha : a < 0x9000) :
    Mem.read winDefault (l.foldl HostPort.event h).mem a = Mem.read winDefault h.mem a := by
  induction l generalizing h with
  | nil => rfl
  | cons e t ih =>
    rw [List.foldl_cons, ih _ (h.event_inv e k)]
    have hm : (h.event e).mem = Mem.writeN winDefault h.mem (0x9000 + 32 * (h.evtWr.toNat % 128)) 32 e.toNat := by
      unfold HostPort.event
      dsimp only
      split <;> rfl
    rw [hm, Mem.read_writeN_outside _ _ _ _ _ _ k.canonical (by omega)]

/-- The end of a step leaves every byte of the mailbox windows alone. -/
theorem State.settle_read (s : State) (old : Device) (k : s.host.Inv) (a : Nat) (ha : a < 0x9000) :
    Mem.read winDefault (s.settle old).host.mem a = Mem.read winDefault s.host.mem a := by
  have h := HostPort.changes_same (((s.dev.closeFull 17).mirrorOut 8).wcp.out.foldl HostPort.event s.host) old
    ((s.dev.closeFull 17).mirrorOut 8)
  have hm : (s.settle old).host.mem = (((s.dev.closeFull 17).mirrorOut 8).wcp.out.foldl HostPort.event s.host).mem :=
    h.2.2.2.2.2.2.2
  rw [hm]
  exact HostPort.events_read _ _ k a ha

/-! The shapes. -/

/-- What a device event answers. -/
theorem devRow_next (dt : Nat) (f : Device → Device) (s : State) :
    devRow dt f s = .next (State.settle { s.elapse dt with dev := f (s.elapse dt).dev } s.dev) := rfl

/-- What an event of the core side answers while the C-die runs. -/
theorem coreRow_next (dt : Nat) (f : Device → Device) (s : State) (h : (s.elapse dt).dev.alive = true) :
    coreRow dt f s = .next (State.settle { s.elapse dt with dev := f (s.elapse dt).dev } s.dev) := by
  have k : (s.elapse dt).dev.alive = true := h
  simp only [coreRow, devRow, k, if_true]

/-- What an event of the running firmware answers. -/
theorem fwRow_next (dt : Nat) (f : Device → Device) (s : State) (h : (s.elapse dt).dev.alive = true) (hr : s.dev.ready = true) :
    fwRow dt f s = .next (State.settle { s.elapse dt with dev := f (s.elapse dt).dev } s.dev) := by
  have k : ((s.elapse dt).dev.alive && (s.elapse dt).dev.ready) = true := by
    rw [Bool.and_eq_true]; exact ⟨h, hr⟩
  simp only [fwRow, devRow, k, if_true]

/-- What an event of the field die answers while its logic runs. -/
theorem fieldRow_next (dt : Nat) (f : Device → Device) (s : State) (h : s.dev.field.running = true) :
    fieldRow dt f s = .next (State.settle { s.elapse dt with dev := f (s.elapse dt).dev } s.dev) := by
  have k : (s.elapse dt).dev.field.running = true := h
  simp only [fieldRow, devRow, k, if_true]

/-- What a transaction of the host port answers while the C-die runs. -/
theorem hostRow_next (dt : Nat) (f : State → State) (s : State) (h : (s.elapse dt).dev.alive = true) (hi : s.host.ignoring = false) :
    hostRow dt f s = .next (State.settle (f (s.elapse dt)) s.dev) := by
  have k : (s.elapse dt).dev.alive = true := h
  simp [hostRow, k, hi]

/-- A row whose effect is nothing idles. -/
theorem idles_of (s : State) (dt : Nat) (f : Device → Device) (h : f (s.elapse dt).dev = (s.elapse dt).dev) :
    Idles (.next (State.settle { s.elapse dt with dev := f (s.elapse dt).dev } s.dev)) (s.elapse dt).dev :=
  ⟨_, rfl, by rw [h]; exact State.settle_rests (s.elapse dt) _⟩

theorem devRow_idles (dt : Nat) (f : Device → Device) (s : State) (h : f (s.elapse dt).dev = (s.elapse dt).dev) :
    Idles (devRow dt f s) (s.elapse dt).dev := idles_of s dt f h

theorem coreRow_idles (dt : Nat) (f : Device → Device) (s : State) (h : f (s.elapse dt).dev = (s.elapse dt).dev) :
    Idles (coreRow dt f s) (s.elapse dt).dev := devRow_idles _ _ _ (by split <;> first | exact h | rfl)

theorem fwRow_idles (dt : Nat) (f : Device → Device) (s : State) (h : f (s.elapse dt).dev = (s.elapse dt).dev) :
    Idles (fwRow dt f s) (s.elapse dt).dev := devRow_idles _ _ _ (by split <;> first | exact h | rfl)

theorem fieldRow_idles (dt : Nat) (f : Device → Device) (s : State) (h : f (s.elapse dt).dev = (s.elapse dt).dev) :
    Idles (fieldRow dt f s) (s.elapse dt).dev := devRow_idles _ _ _ (by split <;> first | exact h | rfl)

/-- The end of a step keeps a device within the parts named, where the queues and the protocol are among them. -/
theorem State.settle_onlyIn (ps : List Part) (d : Device) (s : State) (old : Device) (hw : .wcp ∈ ps) (hq : .qs ∈ ps) (hp : .ports ∈ ps)
    (h : d.OnlyIn ps s.dev) : d.OnlyIn ps (s.settle old).dev := by
  intro p hn
  have k := h p hn
  have r := State.settle_rests s old
  cases p <;> first | contradiction | skip
  case ring =>
    have e := congrArg (fun x : Ring => { x with ports := d.ring.ports }) r.ring
    exact e.trans k
  all_goals (simp only [Part.same, State.settle_parts, r.log] at k ⊢; exact k)

/-- Without streams the end of a step leaves the device but what was to be told. -/
theorem State.settle_unstreamed (s : State) (old : Device) (h : s.dev.Unstreamed) :
    (s.settle old).dev = { s.dev with wcp := { s.dev.wcp with out := [], irq := 0 } } := by
  have h1 : s.dev.closeFull 17 = s.dev := by simp [Device.closeFull, h.held]
  have h2 : s.dev.mirrorOut 8 = s.dev := by simp [Device.mirrorOut, h.mirror]
  unfold State.settle
  rw [h1, h2]

/-- Raising an event leaves the queues alone where no event stream is bound. -/
theorem Device.raise_unstreamed (d : Device) (id source payload : Nat) (h : d.Unstreamed) : (d.raise id source payload).qs = d.qs := by
  show d.qs.hold _ _ = d.qs
  simp [Queues.hold, h.events]

/-- A row answers a next state that leaves the queue of commands alone and nothing undelivered, and keeps the invariant of the port. -/
structure RowDone (s : State) (x : Host.Outcome State Fault Refusal) : Prop where
  answers : Answers x (fun u => u.pending = s.pending ∧ u.dev.wcp.out = [] ∧ u.dev.wcp.irq = 0)
  port : s.host.Inv → Answers x (fun u => u.host.Inv)

theorem devRow_done (dt : Nat) (f : Device → Device) (s : State) : RowDone s (devRow dt f s) :=
  ⟨⟨_, rfl, rfl, rfl, rfl⟩, fun h => ⟨_, rfl, State.settle_inv _ _ h⟩⟩

theorem coreRow_done (dt : Nat) (f : Device → Device) (s : State) : RowDone s (coreRow dt f s) := devRow_done _ _ _

theorem fwRow_done (dt : Nat) (f : Device → Device) (s : State) : RowDone s (fwRow dt f s) := devRow_done _ _ _

theorem fieldRow_done (dt : Nat) (f : Device → Device) (s : State) : RowDone s (fieldRow dt f s) := devRow_done _ _ _

/-- A host row whose transaction keeps the queue of commands and the invariant. -/
theorem hostRow_done (dt : Nat) (f : State → State) (s : State) (hp : ∀ t : State, (f t).pending = t.pending)
    (hi : ∀ t : State, t.host.Inv → (f t).host.Inv) : RowDone s (hostRow dt f s) := by
  unfold hostRow
  refine ⟨⟨_, rfl, ?_, rfl, rfl⟩, fun h => ⟨_, rfl, State.settle_inv _ _ ?_⟩⟩
  · rw [(State.settle_done _ _).2.2]
    split
    · exact hp _
    · rfl
  · split
    · exact hi _ h
    · exact h

theorem State.deliver_pending (s : State) (o : Origin) (p : Path) (r : Bytes) : (s.deliver o p r).pending = s.pending := by
  cases o with
  | mailbox n => rfl
  | q0 =>
    cases p with
    | spi => rfl
    | ring node queue =>
      unfold State.deliver
      dsimp only
      split <;> rfl

theorem wcpRowThen_done (dt : Nat) (o : Origin) (c : Cmd) (opens : Env → Device → Device × Bytes) (after : Device → Device → Device)
    (s : State) : RowDone s (wcpRowThen dt o c opens after s) := by
  unfold wcpRowThen
  refine ⟨⟨_, rfl, ?_, rfl, rfl⟩, fun h => ⟨_, rfl, State.settle_inv _ _ ?_⟩⟩
  · rw [(State.settle_done _ _).2.2]
    dsimp only
    split
    · rfl
    · split
      · exact State.deliver_pending _ _ _ _
      · rfl
  · dsimp only
    split
    · exact h
    · split
      · exact State.deliver_inv _ _ _ _ h
      · exact h

theorem resetRow_done (dt : Nat) (f : Device → Option Device) (s : State) : RowDone s (resetRow dt f s) := by
  have h0 : ({} : HostPort).Inv := ⟨by decide, by decide, by decide⟩
  unfold resetRow
  dsimp only
  split
  · exact ⟨⟨_, rfl, rfl, rfl, rfl⟩, fun _ => ⟨_, rfl, h0⟩⟩
  · exact ⟨⟨_, rfl, rfl, rfl, rfl⟩, fun h => ⟨_, rfl, State.settle_inv _ _ h⟩⟩

/-- A word written by the host leaves the queue of commands alone. -/
theorem State.writeAt_pending (s : State) (a : Nat) (v : Word) : (s.writeAt a v).pending = s.pending := by
  have bells : ∀ (l : List Nat) (t : State), (l.foldl (fun s n => if bit v n then s.doorbell n else s) t).pending = t.pending := by
    intro l
    induction l with
    | nil => intro t; rfl
    | cons n l ih =>
      intro t
      rw [List.foldl_cons, ih]
      split
      · unfold State.doorbell
        split <;> rfl
      · rfl
  unfold State.writeAt
  (repeat' split) <;> first | rfl | exact bells _ _

theorem State.writeBurst_pending (ws : List Word) (s : State) (a : Nat) : (s.writeBurst a ws).pending = s.pending := by
  induction ws generalizing s a with
  | nil => rfl
  | cons v t ih => exact (ih _ _).trans (s.writeAt_pending a v)

theorem State.aligned_pending (s : State) (addr : BitVec 16) : (s.aligned addr).pending = s.pending := by
  unfold State.aligned
  split <;> rfl

/-- Bursts of the host leave the queue of commands alone. -/
theorem State.hostWrite_pending (s : State) (addr : BitVec 16) (ws : List Word) : (s.hostWrite addr ws).pending = s.pending :=
  (State.writeBurst_pending ws _ _).trans (s.aligned_pending addr)

theorem State.readBurst_pending (n : Nat) (s : State) (a : Nat) : (s.readBurst a n).1.pending = s.pending := by
  induction n generalizing s a with
  | zero => rfl
  | succ n ih =>
    refine (ih _ _).trans ?_
    unfold State.readAt
    dsimp only
    (repeat' split) <;> rfl

theorem State.hostRead_pending (s : State) (addr : BitVec 16) (n : Nat) : (s.hostRead addr n).pending = s.pending :=
  (State.readBurst_pending n _ _).trans (s.aligned_pending addr)

end Sys2Proof.Machine
end

