-- ==== Sys2Proof/Tests/Slice0.lean ====
section
/-! SUPPORT. Tests of the model: terms that WellFormed refuses, states that meet the hypotheses of the statements, and results the
manual gives. -/

namespace Sys2Proof.Tests

set_option Elab.async false

open Sys2Proof Sys2Proof.Machine

/-! Helpers: small states. -/

/-- The device once its firmware runs, both sides powered. -/
def dev0 : Device := { ready := true, power := { core := .run }, field := { running := true } }

/-- A device behind the host port as reset leaves it. -/
def on (d : Device) : State := { dev := d }

def s0 : State := on dev0

/-- dev0 running a general image, with session 0 as given. -/
def dev1s (q : Session) : Device :=
  { dev0 with sec := { general := some ⟨0, 0, 0, 0, 0⟩ }, wcp := { sessions := vset (Vector.replicate 16 {}) 0 q } }

/-- Session 0 is open from slot 1, under the key of zeros. -/
def dev1 : Device := dev1s { isOpen := true, slot := 1 }

/-- An authenticated command header (Table 2-11). -/
def hdr (id session counter plen tag : Nat) : Nat :=
  id + 2 ^ 16 + session * 2 ^ 24 + counter * 2 ^ 32 + plen * 2 ^ 64 + tag * 2 ^ 192

/-- The device with an envelope in mailbox 0, BUSY. -/
def mail (d : Device) (h : Nat) (p : Bytes) : State :=
  { dev := d
    host := { mb := vset (Vector.replicate 8 .free) 0 .busy
              mem := Mem.writeN winDefault (Mem.writeN winDefault [] 0x1000 32 h) 0x1020 p.len p.val } }

/-- A group that has just started, all its slots idle. -/
def grp0 : Group :=
  { plan := 0, idx := 0, desc := 0, pair := false, slots := Vector.replicate 4 {}, flags := 0, startNs := 0, startClk := 0, frame := 0
    frameNs := 0, gen := 0, offset := 0, woff := 0, shots := 0, layout := 0, layoutIdx := 0, coinc := 0, planecfg := 0, template := 0
    trackAge := 0, edgeMargin := 0, zoneMap := 0, zmap := 0, zmapOk := true, ts := 0, cal := 0, ref := [], calFrame := false
    calStep := 0, calBad := false, lens := 0, retCfg := 0, emitDelay := Vector.replicate 4 0, spares := [], points := 0xFFFF, raw := none
    handClk := 0, lanes := 16 }

/-- An import chunk of one channel with one bin (Table 5-7), as a queue holds it for the host. -/
def okUnit : QUnit :=
  { useq := 0, data := ⟨50, 2 ^ 80 + 2 ^ 67 + 2 ^ 49⟩, cells := [0], off := 0, descs := [0], times := [0], src := 3, active := [33], begun := [] }

/-- A latched kill, with fire.kill.clear in mailbox 0. -/
def killS : State :=
  mail { dev1 with fire := { latch := .of (2 ^ 48) } } (hdr 0x024A 0 1 0 16778039627885188417) Bytes.nil

/-- A node on the ring that waits for the head's answer on a sealed reservation of queue 5. -/
def resvS : State :=
  on { dev0 with
    ring := { ports := ⟨#[{ link := .member }, {}], rfl⟩, onring := true, node := 1, reqs := [⟨1, 5, 1, 1000, false, true, false, false, [], 0⟩] }
    wcp := { waits := [⟨.sealResv 5, 0, 1, 0x0440, []⟩] } }

/-- The state a command leaves, or the one it found. -/
def after (i : Instr) (s : State) : State := match exec i s with
  | .next t => t
  | _ => s

/-- A bridge frame with its CRC (R281). -/
def framed (x : Nat) : BitVec 512 := .ofNat 512 (x + Crypto.crc32 60 x * 2 ^ 480)

/-- Fields of a register or header. -/
def fields {n : Nat} (l : List (Nat × Nat)) : BitVec n := .ofNat n (Config.fields l)

/-- A valid field block: the default header, sixteen equal output configurations and patterns, every entry OFF (Tables 10-6 to 10-10). -/
def blockOne : BitVec 11392 :=
  let out := Config.fields [(99, 0x1F), (80, 1), (76, 1), (64, 1), (56, 10), (48, 105), (20, 90), (4, 100)]
  let pattern := Config.fields [(48, 20), (24, 10)]
  .ofNat _ (Config.blockDefault.toNat % 2 ^ 128 + Config.pack 128 (List.replicate 16 out) * 2 ^ 128 +
    Config.pack 64 (List.replicate 16 pattern) * 2 ^ 2176)

theorem beq_succ (x : BitVec 128) : (x == x + 1) = false := by
  simp

/-- A tenth drift in a row, whatever the other figure says (R368). -/
theorem tenth_drift (x : Int) (b : Bool) : 10 ≤ (if (decide (256 < (x + 1000 - x).natAbs) || b) = true then 9 + 1 else 0) := by
  simp

/-! Terms that WellFormed refuses, one for each check, and one it accepts. -/

theorem test_wf_window : (Instr.mbWindowWrite 0 .write 0x0FFC [0]).wellFormed = false := by decide
theorem test_wf_register : (Instr.registerWrite 0 .qwrite 0xA000 [0]).wellFormed = false := by decide
theorem test_wf_opcode : (Instr.badOp 0 0x02).wellFormed = false := by decide
theorem test_wf_shot : (Instr.shot 0 [] (List.replicate 257 (0, 0)) [] []).wellFormed = false := by decide +kernel
theorem test_wf_photon_none : (Instr.photonEvent 0 0 0 []).wellFormed = false := by decide
theorem test_wf_photon_many : (Instr.photonEvent 0 0 0 (List.replicate 16 0)).wellFormed = false := by decide
theorem test_wf_linearisation : (Instr.linearisationUpdate 0 0 []).wellFormed = false := by decide
theorem test_wf_reference : (Instr.referencePassDone 0 [0]).wellFormed = false := by decide
theorem test_wf_packet : (Instr.csi2Packet 0 0 ⟨0, .ok, ⟨1, 256⟩, 0, true, false⟩).wellFormed = false := by decide
theorem test_wf_request : (Instr.cellRequest 0 0 0 0 0 0 ⟨0, 1⟩).wellFormed = false := by decide
theorem test_wf_read : (Instr.hifTimeLoRead 0 .read 0x0110 0).wellFormed = false := by decide
theorem test_wf_tick : (Instr.fieldTick 0 ⟨[], 0, 0, 0, 0, 0, 0⟩).wellFormed = false := by decide
theorem test_wf_sample : (Instr.thermalSample 0 [2500]).wellFormed = false := by decide
theorem test_wf_field_stop : (Instr.fieldThermalStop 0 []).wellFormed = false := by decide
theorem test_wf_field_restart : (Instr.fieldThermalRestart 0 [0, 0, 0, 0, 0]).wellFormed = false := by decide
theorem test_wf_event : (Instr.eventReportWindowEnd 0 0x0101 0 0).wellFormed = false := by decide
theorem test_wf_register_ok : (Instr.registerWrite 0 .write 0x9000 [0]).wellFormed = true := by decide

/-! The step and the queue. -/

/-- Nothing waits: the block idles. -/
theorem test_idle : step s0 = .next s0 := rfl

/-- First in, first out: the front command runs, the second stays (Table 2-4: HIF_IRQ_EN at 0x0108). -/
theorem test_fifo : (match step { s0 with pending := [.registerWrite 0 .write 0x0108 [1], .badOp 0 0] } with
    | .next t => decide (t.host.irqEn = 1 ∧ t.pending = [.badOp 0 0])
    | _ => false) = true := by decide +kernel

/-- The table gives no bits, so no word spells a command. -/
theorem test_no_word (w : Nat) : decodeTableWord 32 w = none := rfl

/-! Results the manual gives. Expected values are the manual's own (the section is named). -/

/-- R38: HIF_IRQ_EN resets to 0x0000_05FF. -/
theorem test_irqen_reset : State.reset.host.irqEn = 0x05FF := by decide

/-- "Placing a tracked gate" (chapter 5): 30.00 m at 250 ps is full bin 800. -/
theorem test_gate_bin : binOfCm 3000 2 = 800 := by decide

/-- "Where channel 300 looks" (chapter 4): stripe 17, layout 0, window 44. -/
theorem test_window_300 : windowOf layout0 17 0 44 = some ([272, 273, 274, 275], [264, 265, 266, 267, 268, 269]) := by decide +kernel

/-- The same window under WOFF 2. -/
theorem test_window_woff : (windowOf layout0 17 2 44).map (·.1) = some [274, 275, 276, 277] := by decide +kernel

/-- The reference mapping gives it azimuth -17.1875 deg and elevation -9.375 deg: in units of 0.002 deg, each entry rounded, the
sums over 4 columns and 6 rows are -34,375 and -28,125. -/
theorem test_direction_300 : (match (windowOf layout0 17 0 44).map (windowDir Config.lensReference) with
    | some (a, 4, e, 6) => decide ((a + 34375).natAbs ≤ 2 ∧ (e + 28125).natAbs ≤ 3)
    | _ => false) = true := by decide +kernel

/-- "Articulation" (R101's example): at offset 5 stripe 3 becomes 8 in slot 0 and stripe 10 becomes 15 in slot 1. -/
theorem test_stripe_quarter : (List.range 4).map (fun s => (firedStripes (fields [(0, 3), (6, 10), (12, 24), (18, 36), (26, 1)]) 5).drop s
    |>.head?.join |>.map (·.1)) = [some 8, some 15, some 29, some 41] := by decide +kernel

/-- "Correcting a range on channel 300" (chapter 7): the 250 ps walk table gives 49.9 ps for intensity 776. -/
def walk250 : BitVec 1056 := fields [(24, 2), (12, 3900), (0, 40), (32, 512), (48, 38), (64, 1024), (80, 61)]

theorem test_walk : (roundRat (walkOf walk250 776).1, (walkOf walk250 776).2) = (798, false) := by decide +kernel

/-- The same section: the range of (200,170 - 270) ps less the walk is 29,957 mm. -/
theorem test_range : rangeMm (16 * 200170 - 16 * 270 - (walkOf walk250 776).1) = 29957 := by decide +kernel

/-- "An articulation angle" (chapter 11): the demodulated excitation and wiper results. -/
theorem test_demod : (demod 59022 6593, demod 34773 30841) = (58982, 34734) := by decide

/-- The same section: code 37,749 is 14,400 uA. -/
theorem test_loop : roundDiv (37749 * 25000) 65536 = 14400 := by decide

/-- "The hottest sensor fails while throttled" (chapter 14): neighbours of TS4 at 138.1, 137.4 and 136.0 degC, OFFSET 2.6 K. -/
def hot : Power :=
  { sensors := (((Vector.replicate 16 {}).set 2 { reading := 13810 }).set 3 { reading := 13740 }).set 7 { reading := 13600 } |>.set 4
      { reading := 6000, valid := false, offset := 260 * 65536 } }

/-- The substitute is 145.7 degC and calls for step 3. -/
theorem test_substitute : (hot.value 4, hot.governing, hot.reaches 14570) = (14570, (14570, 4), 3) := by decide +kernel

/-- FIPS 180-4: SHA-256 of "abc". -/
theorem test_sha : Crypto.toBig (Crypto.sha [0x61, 0x62, 0x63]) =
    0xba7816bf8f01cfea414140de5dae2223b00361a396177a9cb410ff61f20015ad := by decide +kernel

/-- The reflected CRC-32 of "123456789". -/
theorem test_crc : Crypto.crc32 9 0x393837363534333231 = 0xCBF43926 := by decide +kernel

/-- NIST SP 800-38B: AES-256 CMAC of the empty message. -/
theorem test_cmac : Crypto.toBig (Crypto.cmac (Crypto.ofBig 32 0x603deb1015ca71be2b73aef0857d77811f352c073b6108d72d9810a30914dff4) []) =
    0x028962f61b7bf89efc6b551f4667d983 := by decide +kernel

/-! States and operands that meet the hypotheses of each statement. -/

theorem witness_StepRunsFront :
    (let c : Instr := .hostCsNRelease 0 .none
     let rest : List Instr := [.hifTimeLoRead 1 .read 0x0110 1]
     let s : State := { s0 with pending := [.hostCsNRelease 0 .none, .hifTimeLoRead 1 .read 0x0110 1] }
     s.pending = c :: rest) ∧
    (let s : State := s0
     s.pending = []) := by decide +kernel

theorem witness_HostPortInvariant :
    (let s : State := State.reset
     let t : State := State.reset
     s.host.Inv ∧ step s = .next t) := 
  by repeat' (first | decide +kernel | exact rfl | constructor)

theorem witness_WindowMemory :
    (let dflt : Byte := 0
     let m : Mem := []
     let a : Nat := 4
     let n : Nat := 4
     let b : Nat := 8
     Mem.wf dflt m = true ∧ (b < a ∨ a + n ≤ b)) ∧
    (let s : State := s0
     let dt : Nat := 0
     let addr : BitVec 16 := 0x8FFC
     let ws : List Word := [5]
     (s.elapse dt).dev.alive = true ∧ s.host.ignoring = false ∧ s.host.Inv ∧ windowAddress addr = true ∧ ws.length ≤ 1024) := by
  refine ⟨?_, ?_⟩
  · decide +kernel
  · repeat' (first | decide +kernel | exact rfl | constructor)

theorem witness_MailboxesRungAndReleased :
    (let s : State := s0
     let dt : Nat := 0
     (s.elapse dt).dev.alive = true ∧ s.host.ignoring = false ∧ s.host.Inv) := 
  by repeat' (first | decide +kernel | exact rfl | constructor)

theorem witness_EventPointerAndCaptures :
    (let s : State := s0
     let dt : Nat := 0
     (s.elapse dt).dev.alive = true ∧ s.host.ignoring = false ∧ s.host.Inv) ∧
    (let s : State := s0
     let dt : Nat := 0
     let op : ReadOp := .read
     let addr : BitVec 16 := 0x0110
     let n : Nat := 1
     let c : Instr := .hifTimeLoRead 0 .read 0x0110 1
     (s.elapse dt).dev.alive = true ∧ s.host.ignoring = false ∧ n ≤ 1024 ∧ c ∈ [Instr.hifTimeLoRead dt op addr n, Instr.hifEvtLostRead dt
       op addr n]) := 
  by repeat' (first | decide +kernel | exact rfl | constructor)

theorem witness_RegisterWritesAndSerialFaults :
    (let s : State := s0
     let dt : Nat := 0
     let addr : BitVec 16 := 0x0218
     (s.elapse dt).dev.alive = true ∧ s.host.ignoring = false ∧ addr.toNat / 4 * 4 ∉ [0x0104, 0x0108, 0x010C, 0x0200, 0x0204, 0x020C,
       0x0214] ∧ windowAddress addr = false) ∧
    (let s : State := s0
     let dt : Nat := 0
     (s.elapse dt).dev.alive = true ∧ s.host.ignoring = false) ∧
    (let s : State := s0
     let dt : Nat := 0
     let op : Byte := 0xFF
     (s.elapse dt).dev.alive = true ∧ s.host.ignoring = false ∧ knownOpcode op = false) ∧
    (let s : State := { s0 with host := { ignoring := true } }
     let dt : Nat := 0
     (s.elapse dt).dev.alive = true ∧ s.host.ignoring = true) := by decide +kernel

theorem witness_AcceptedCommandRuns :
    (let i : Instr := .fireDitherSet 0 (.mailbox 0)
     let r : WcpRow := { dt := 0, origin := .mailbox 0, cmd := cmdDitherSet }
     let s : State := mail dev1 (hdr 0x0247 0 1 4 1474289643059781074) ⟨4, 7⟩
     let e : Env := ⟨hdr 0x0247 0 1 4 1474289643059781074, ⟨4, 7⟩, .spi, false⟩
     let d := (s.elapse r.dt).dev
     let x := r.cmd.run (e.ctx d) e.payload (r.cmd.taken e d)
     let st := sOk
     let res := Bytes.nil
     wcpRow? i = some r ∧ r.cmd.id ≠ 0x0140 ∧ Accepted r.origin r.cmd e (s.elapse r.dt) ∧ x.2 = .done st res ∧ st ≠ sBusy) ∧
    (let i : Instr := .fireDisable 0 (.mailbox 0)
     let r : WcpRow := { dt := 0, origin := .mailbox 0, cmd := cmdFireDisable }
     let s : State := mail { dev1 with fire := { fn := { st := .on } } } (hdr 0x0244 0 1 0 15418952978294128715) ⟨0, 0⟩
     let e : Env := ⟨hdr 0x0244 0 1 0 15418952978294128715, ⟨0, 0⟩, .spi, false⟩
     let d := (s.elapse r.dt).dev
     let x := r.cmd.run (e.ctx d) e.payload (r.cmd.taken e d)
     let k := .fnOff .fire
     wcpRow? i = some r ∧ r.cmd.id ≠ 0x0140 ∧ Accepted r.origin r.cmd e (s.elapse r.dt) ∧ x.2 = .pend k) ∧
    (let s : State := mail dev1 (hdr 0x0247 0 1 4 1474289643059781074) ⟨4, 7⟩
     let dt : Nat := 0
     let o : Origin := .mailbox 0
     let e : Env := ⟨hdr 0x0247 0 1 4 1474289643059781074, ⟨4, 7⟩, .spi, false⟩
     let rows : List (Instr × WcpRow) := [ (.sysIdentGet dt o, { dt, origin := o, cmd := cmdIdent }), (.sysStatusGet dt o,
         { dt, origin := o, cmd := cmdStatus }), (.sysSessionStatus dt o, { dt, origin := o, cmd := cmdSessionStatus }), (.sysResultGet dt
         o, { dt, origin := o, cmd := cmdResultGet }), (.sysSessionClose dt o, { dt, origin := o, cmd := cmdSessionClose }),
         (.sysPolicySet dt o, { dt, origin := o, cmd := cmdPolicySet }), (.sysEventMaskSet dt o,
         { dt, origin := o, cmd := cmdEventMaskSet }), (.sysReset dt o,
         { dt, origin := o, cmd := cmdReset, after := Device.resetAfterReply }), (.scanPlanGet dt o,
         { dt, origin := o, cmd := cmdPlanGet }), (.fireStatusGet dt o, { dt, origin := o, cmd := cmdFireStatus }), (.fireDoseGet dt o,
         { dt, origin := o, cmd := cmdDoseGet }), (.scanCalendarGet dt o, { dt, origin := o, cmd := cmdCalendarGet }), (.scanPlanWrite dt
         o, { dt, origin := o, cmd := cmdPlanWrite }), (.scanPlanCommit dt o, { dt, origin := o, cmd := cmdPlanCommit }), (.scanPlanSelect
         dt o, { dt, origin := o, cmd := cmdPlanSelect }), (.fireEnable dt o, { dt, origin := o, cmd := cmdFireEnable }), (.fireDisable dt
         o, { dt, origin := o, cmd := cmdFireDisable }), (.scanTriggerSet dt o, { dt, origin := o, cmd := cmdTriggerSet }),
         (.scanFrameTrigger dt o, { dt, origin := o, cmd := cmdFrameTrigger }), (.fireDitherSet dt o,
         { dt, origin := o, cmd := cmdDitherSet }), (.fireEmitterSet dt o, { dt, origin := o, cmd := cmdEmitterSet }), (.fireBudgetSet dt
         o, { dt, origin := o, cmd := cmdBudgetSet }), (.fireKillClear dt o, { dt, origin := o, cmd := cmdKillClear }), (.fireStripeClear
         dt o, { dt, origin := o, cmd := cmdStripeClear }), (.scanFollowSet dt o, { dt, origin := o, cmd := cmdFollowSet }),
         (.scanCalendarSet dt o, { dt, origin := o, cmd := cmdCalendarSet }), (.rxStatusGet dt o,
         { dt, origin := o, cmd := cmdRxStatus }), (.rxLayoutGet dt o, { dt, origin := o, cmd := cmdLayoutGet }), (.rxMaskGet dt o,
         { dt, origin := o, cmd := cmdMaskGet }), (.rxSurveyGet dt o, { dt, origin := o, cmd := cmdSurveyGet }), (.rxCoincGet dt o,
         { dt, origin := o, cmd := cmdCoincGet }), (.rxLensGet dt o, { dt, origin := o, cmd := cmdLensGet }), (.rxConfigSet dt o,
         { dt, origin := o, cmd := cmdRxConfigSet }), (.rxLayoutSet dt o, { dt, origin := o, cmd := cmdLayoutSet }), (.rxCoincSet dt o,
         { dt, origin := o, cmd := cmdCoincSet }), (.rxMaskWrite dt o, { dt, origin := o, cmd := cmdMaskWrite }), (.rxMaskCommit dt o,
         { dt, origin := o, cmd := cmdMaskCommit }), (.rxWitnessSet dt o, { dt, origin := o, cmd := cmdWitnessSet }), (.rxChannelRetire dt
         o, { dt, origin := o, cmd := cmdChannelRetire }), (.rxChannelRestore dt o, { dt, origin := o, cmd := cmdChannelRestore }),
         (.rxVbdSet dt o, { dt, origin := o, cmd := cmdVbdSet }), (.rxVbdMeasure dt o, { dt, origin := o, cmd := cmdVbdMeasure }),
         (.rxLensSet dt o, { dt, origin := o, cmd := cmdLensSet }), (.histStatusGet dt o, { dt, origin := o, cmd := cmdHistStatus }),
         (.histPlanecfgGet dt o, { dt, origin := o, cmd := cmdPlanecfgGet }), (.histGateGet dt o, { dt, origin := o, cmd := cmdGateGet }),
         (.histPlaneRead dt o, { dt, origin := o, cmd := cmdPlaneRead }), (.histTrackGet dt o, { dt, origin := o, cmd := cmdTrackGet }),
         (.histPlanecfgSet dt o, { dt, origin := o, cmd := cmdPlanecfgSet }), (.histGateSet dt o, { dt, origin := o, cmd := cmdGateSet }),
         (.histExportSet dt o, { dt, origin := o, cmd := cmdExportSet }), (.histExportEnable dt o,
         { dt, origin := o, cmd := cmdExportEnable }), (.histExportDisable dt o, { dt, origin := o, cmd := cmdExportDisable }),
         (.histPlaneHold dt o, { dt, origin := o, cmd := cmdPlaneHold }), (.histPlaneRelease dt o,
         { dt, origin := o, cmd := cmdPlaneRelease }), (.histPlaneSend dt o, { dt, origin := o, cmd := cmdPlaneSend }), (.histImportSet dt
         o, { dt, origin := o, cmd := cmdImportSet }), (.histTrackClear dt o, { dt, origin := o, cmd := cmdTrackClear }), (.retStatusGet
         dt o, { dt, origin := o, cmd := cmdRetStatus }), (.retTemplateGet dt o, { dt, origin := o, cmd := cmdTemplateGet }), (.zoneMapGet
         dt o, { dt, origin := o, cmd := cmdZoneMapGet }), (.zoneStateGet dt o, { dt, origin := o, cmd := cmdZoneStateGet }),
         (.retConfigGet dt o, { dt, origin := o, cmd := cmdRetConfigGet }), (.retConfigSet dt o,
         { dt, origin := o, cmd := cmdRetConfigSet }), (.retTemplateSet dt o, { dt, origin := o, cmd := cmdTemplateSet }), (.retPointsSet
         dt o, { dt, origin := o, cmd := cmdPointsSet }), (.retRawSet dt o, { dt, origin := o, cmd := cmdRawSet }), (.retWindowLearn dt o,
         { dt, origin := o, cmd := cmdWindowLearn }), (.zoneMapSet dt o, { dt, origin := o, cmd := cmdZoneMapSet }), (.calStatusGet dt o,
         { dt, origin := o, cmd := cmdCalStatus }), (.calCoeffGet dt o, { dt, origin := o, cmd := cmdCalCoeffGet }), (.calResultGet dt o,
         { dt, origin := o, cmd := cmdCalResultGet }), (.calCoeffWrite dt o, { dt, origin := o, cmd := cmdCalCoeffWrite }),
         (.calCoeffCommit dt o, { dt, origin := o, cmd := cmdCalCoeffCommit }), (.calFullStart dt o,
         { dt, origin := o, cmd := cmdCalFullStart }), (.calFullAbort dt o, { dt, origin := o, cmd := cmdCalFullAbort }), (.ringStatusGet
         dt o, { dt, origin := o, cmd := cmdRingStatus }), (.ringPortGet dt o, { dt, origin := o, cmd := cmdRingPort }), (.ringMembersGet
         dt o, { dt, origin := o, cmd := cmdRingMembers }), (.ringResvGet dt o, { dt, origin := o, cmd := cmdRingResv }), (.ringPortSet dt
         o, { dt, origin := o, cmd := cmdRingPortSet }), (.ringPortEnable dt o, { dt, origin := o, cmd := cmdRingPortEnable }),
         (.ringPortDisable dt o, { dt, origin := o, cmd := cmdRingPortDisable }), (.ringConfigSet dt o,
         { dt, origin := o, cmd := cmdRingConfig }), (.ringResvSet dt o, { dt, origin := o, cmd := cmdRingResvSet }), (.ringResvClear dt
         o, { dt, origin := o, cmd := cmdRingResvClear }), (.ringRouteRebalance dt o, { dt, origin := o, cmd := cmdRebalance }),
         (.qStatusGet dt o, { dt, origin := o, cmd := cmdQStatus }), (.qSubsGet dt o, { dt, origin := o, cmd := cmdQSubs }), (.qPoolGet dt
         o, { dt, origin := o, cmd := cmdQPool }), (.camStatusGet dt o, { dt, origin := o, cmd := cmdCamStatus }), (.qConfigSet dt o,
         { dt, origin := o, cmd := cmdQConfig }), (.qEnable dt o, { dt, origin := o, cmd := cmdQEnable }), (.qDisable dt o,
         { dt, origin := o, cmd := cmdQDisable }), (.qSubscribe dt o, { dt, origin := o, cmd := cmdQSubscribe }), (.qUnsubscribe dt o,
         { dt, origin := o, cmd := cmdQUnsubscribe }), (.qRead dt o, { dt, origin := o, cmd := cmdQRead }), (.streamEventsSet dt o,
         { dt, origin := o, cmd := cmdEventsSet }), (.streamMirrorSet dt o, { dt, origin := o, cmd := cmdMirrorSet }), (.camPortSet dt o,
         { dt, origin := o, cmd := cmdCamPortSet }), (.camEnable dt o, { dt, origin := o, cmd := cmdCamEnable }), (.camDisable dt o,
         { dt, origin := o, cmd := cmdCamDisable }), (.camFsyncSet dt o, { dt, origin := o, cmd := cmdFsyncSet }), (.lampStatusGet dt o,
         { dt, origin := o, cmd := cmdLampStatus }), (.lampBlockGet dt o, { dt, origin := o, cmd := cmdBlockGet }), (.lampRulesGet dt o,
         { dt, origin := o, cmd := cmdRulesGet }), (.bridgeStatusGet dt o, { dt, origin := o, cmd := cmdBridgeStatus }), (.lampBlockWrite
         dt o, { dt, origin := o, cmd := cmdBlockWrite }), (.lampBlockCommit dt o, { dt, origin := o, cmd := cmdBlockCommit }),
         (.lampRulesSet dt o, { dt, origin := o, cmd := cmdRulesSet }), (.lampRequestSet dt o, { dt, origin := o, cmd := cmdRequestSet }),
         (.lampFaultClear dt o, { dt, origin := o, cmd := cmdFaultClear }), (.lampRemapSet dt o, { dt, origin := o, cmd := cmdRemapSet }),
         (.lampRemapClear dt o, { dt, origin := o, cmd := cmdRemapClear }), (.inStatusGet dt o, { dt, origin := o, cmd := cmdInStatus }),
         (.inConfigGet dt o, { dt, origin := o, cmd := cmdInConfigGet }), (.inConfigSet dt o, { dt, origin := o, cmd := cmdInConfigSet }),
         (.adcStatusGet dt o, { dt, origin := o, cmd := cmdAdcStatus }), (.adcResultGet dt o, { dt, origin := o, cmd := cmdAdcResult }),
         (.adcSeqGet dt o, { dt, origin := o, cmd := cmdSeqGet }), (.adcCalGet dt o, { dt, origin := o, cmd := cmdAdcCalGet }),
         (.adcCaptureGet dt o, { dt, origin := o, cmd := cmdCaptureGet }), (.adcConfigSet dt o,
         { dt, origin := o, cmd := cmdAdcConfigSet }), (.adcEnable dt o, { dt, origin := o, cmd := cmdAdcEnable }), (.adcDisable dt o,
         { dt, origin := o, cmd := cmdAdcDisable }), (.adcSeqSet dt o, { dt, origin := o, cmd := cmdSeqSet }), (.adcSeqEnable dt o,
         { dt, origin := o, cmd := cmdSeqEnable }), (.adcSeqDisable dt o, { dt, origin := o, cmd := cmdSeqDisable }), (.adcSeqTrigger dt
         o, { dt, origin := o, cmd := cmdSeqTrigger }), (.adcTimerSet dt o, { dt, origin := o, cmd := cmdTimerSet }), (.adcExcSet dt o,
         { dt, origin := o, cmd := cmdExcSet }), (.adcExcEnable dt o, { dt, origin := o, cmd := cmdExcEnable }), (.adcExcDisable dt o,
         { dt, origin := o, cmd := cmdExcDisable }), (.adcCalRun dt o, { dt, origin := o, cmd := cmdCalRun }), (.adcCalCommit dt o,
         { dt, origin := o, cmd := cmdAdcCalCommit }), (.adcCaptureArm dt o, { dt, origin := o, cmd := cmdCaptureArm }), (.bistStatusGet
         dt o, { dt, origin := o, cmd := cmdBistStatus }), (.bistUnusableGet dt o, { dt, origin := o, cmd := cmdUnusableGet }),
         (.bistResultGet dt o, { dt, origin := o, cmd := cmdBistResult }), (.bistConfigSet dt o,
         { dt, origin := o, cmd := cmdBistConfig }), (.bistDirectedRun dt o,
         { dt, origin := o, cmd := cmdDirectedRun, after := Device.resetAfterReply }), (.bistUnusableClear dt o,
         { dt, origin := o, cmd := cmdUnusableClear }), (.secStatusGet dt o, { dt, origin := o, cmd := cmdSecStatus }), (.fwStatusGet dt
         o, { dt, origin := o, cmd := cmdFwStatus }), (.sealIdentGet dt o, { dt, origin := o, cmd := cmdSealIdent }), (.secKeyWrite dt o,
         { dt, origin := o, cmd := cmdKeyWrite, after := Device.closeWritten }), (.lcAdvance dt o,
         { dt, origin := o, cmd := cmdAdvance, after := Device.advanceAndReset }), (.fwStageBegin dt o,
         { dt, origin := o, cmd := cmdStageBegin }), (.fwStageWrite dt o, { dt, origin := o, cmd := cmdStageWrite }), (.fwStageVerify dt
         o, { dt, origin := o, cmd := cmdStageVerify }), (.fwSwitch dt o, { dt, origin := o, cmd := cmdFwSwitch }), (.fwConfirm dt o,
         { dt, origin := o, cmd := cmdFwConfirm }), (.sealResvSet dt o, { dt, origin := o, cmd := cmdSealResvSet }), (.sealResvClear dt o,
         { dt, origin := o, cmd := cmdSealResvClear }), (.pwrStatusGet dt o, { dt, origin := o, cmd := cmdPwrStatus }), (.thermStatusGet
         dt o, { dt, origin := o, cmd := cmdThermStatus }), (.thermConfigSet dt o, { dt, origin := o, cmd := cmdThermConfig }),
         (.thermSensorRestore dt o, { dt, origin := o, cmd := cmdSensorRestore }), (.pwrStandby dt o,
         { dt, origin := o, cmd := cmdStandby, after := Device.standbyAfterReply }), (.logStatusGet dt o,
         { dt, origin := o, cmd := cmdLogStatus }), (.logRead dt o, { dt, origin := o, cmd := cmdLogRead }), (.logFfRead dt o,
         { dt, origin := o, cmd := cmdLogFf }), (.logCountersGet dt o, { dt, origin := o, cmd := cmdLogCounters }), (.logMark dt o,
         { dt, origin := o, cmd := cmdLogMark })]
     let p := (.fireDitherSet 0 (.mailbox 0), { dt := 0, origin := .mailbox 0, cmd := cmdDitherSet })
     p ∈ rows ∧ Accepted o p.2.cmd e (s.elapse dt) ∧ p.2.busy s e = false) := 
  by repeat' (first | decide +kernel | exact rfl | constructor)

theorem witness_MailboxAnswered :
    (let i : Instr := .fireDitherSet 0 (.mailbox 0)
     let r : WcpRow := { dt := 0, origin := .mailbox 0, cmd := cmdDitherSet }
     let s : State := mail dev1 (hdr 0x0247 0 1 4 1474289643059781074) ⟨4, 7⟩
     let e : Env := ⟨hdr 0x0247 0 1 4 1474289643059781074, ⟨4, 7⟩, .spi, false⟩
     let n : Fin 8 := 0
     wcpRow? i = some r ∧ r.origin = .mailbox n ∧ Offered r.origin r.cmd e (s.elapse r.dt) ∧ s.host.Inv) := 
  by repeat' (first | decide +kernel | exact rfl | constructor)

theorem witness_UnauthenticRefused :
    (let i : Instr := .fireDitherSet 0 (.mailbox 0)
     let r : WcpRow := { dt := 0, origin := .mailbox 0, cmd := cmdDitherSet }
     let s : State := mail dev1 (hdr 0x0247 0 1 4 0 + 2 ^ 23) ⟨4, 7⟩
     let e : Env := ⟨hdr 0x0247 0 1 4 0 + 2 ^ 23, ⟨4, 7⟩, .spi, false⟩
     wcpRow? i = some r ∧ Offered r.origin r.cmd e (s.elapse r.dt) ∧ e.malformed = true) ∧
    (let i : Instr := .fireDitherSet 0 (.mailbox 0)
     let r : WcpRow := { dt := 0, origin := .mailbox 0, cmd := cmdDitherSet }
     let s : State := mail dev0 (hdr 0x0247 0 1 4 1474289643059781074) ⟨4, 7⟩
     let e : Env := ⟨hdr 0x0247 0 1 4 1474289643059781074, ⟨4, 7⟩, .spi, false⟩
     let t := s.elapse r.dt
     let q := t.dev.session e.session
     wcpRow? i = some r ∧ Offered r.origin r.cmd e (s.elapse r.dt) ∧ e.malformed = false ∧ e.session ≠ 0xFF ∧ q.isOpen = false) ∧
    (let i : Instr := .fireDitherSet 0 (.mailbox 0)
     let r : WcpRow := { dt := 0, origin := .mailbox 0, cmd := cmdDitherSet }
     let s : State := mail dev1 (hdr 0x0247 0 1 4 1) ⟨4, 7⟩
     let e : Env := ⟨hdr 0x0247 0 1 4 1, ⟨4, 7⟩, .spi, false⟩
     let t := s.elapse r.dt
     let q := t.dev.session e.session
     wcpRow? i = some r ∧ Offered r.origin r.cmd e (s.elapse r.dt) ∧ e.malformed = false ∧ e.session ≠ 0xFF ∧ q.isOpen = true ∧ e.tagOk
       (keyBytes q.key) = false ∧ (e.auth || !isQuery e.id || !q.allowUnauth) = true) ∧
    (let i : Instr := .fireDitherSet 0 (.mailbox 0)
     let r : WcpRow := { dt := 0, origin := .mailbox 0, cmd := cmdDitherSet }
     let s : State := mail (dev1s { isOpen := true, slot := 1, high := 1 }) (hdr 0x0247 0 1 4 1474289643059781074) ⟨4, 7⟩
     let e : Env := ⟨hdr 0x0247 0 1 4 1474289643059781074, ⟨4, 7⟩, .spi, false⟩
     let t := s.elapse r.dt
     let q := t.dev.session e.session
     wcpRow? i = some r ∧ Offered r.origin r.cmd e (s.elapse r.dt) ∧ e.malformed = false ∧ e.session ≠ 0xFF ∧ q.isOpen = true ∧ e.tagOk
       (keyBytes q.key) = true ∧ q.find e.counter = none ∧ e.counter ≤ q.high.toNat) := 
  by repeat' (first | decide +kernel | exact rfl | constructor)

theorem witness_RefusedAndRepeatedCommands :
    (let i : Instr := .fireDitherSet 0 (.mailbox 0)
     let r : WcpRow := { dt := 0, origin := .mailbox 0, cmd := cmdDitherSet }
     let s : State := mail { dev1 with sec := {} } (hdr 0x0247 0 1 4 1474289643059781074) ⟨4, 7⟩
     let e : Env := ⟨hdr 0x0247 0 1 4 1474289643059781074, ⟨4, 7⟩, .spi, false⟩
     let st : Nat := sBadState
     let res : Bytes := Bytes.nil
     let d := (s.elapse r.dt).dev
     wcpRow? i = some r ∧ Offered r.origin r.cmd e (s.elapse r.dt) ∧ Authentic e (s.elapse r.dt).dev ∧ r.cmd.early (e.ctx d) e.payload
       (r.cmd.taken e d) = some (st, res)) ∧
    (let i : Instr := .fireDitherSet 0 (.mailbox 0)
     let r : WcpRow := { dt := 0, origin := .mailbox 0, cmd := cmdDitherSet }
     let s : State := mail (dev1s
         { isOpen := true, slot := 1, high := 1, cache := [{ counter := 1, tag := 1474289643059781074, cmdId := 0x0247, status := 0, execTime := 0, result := Bytes.nil }] })
         (hdr 0x0247 0 1 4 1474289643059781074) ⟨4, 7⟩
     let e : Env := ⟨hdr 0x0247 0 1 4 1474289643059781074, ⟨4, 7⟩, .spi, false⟩
     let x : CacheEntry := { counter := 1, tag := 1474289643059781074, cmdId := 0x0247, status := 0, execTime := 0, result := Bytes.nil }
     wcpRow? i = some r ∧ Offered r.origin r.cmd e (s.elapse r.dt) ∧ e.malformed = false ∧ e.session ≠ 0xFF ∧ ((s.elapse r.dt).dev.session
       e.session).isOpen = true ∧ e.tagOk (keyBytes ((s.elapse r.dt).dev.session e.session).key) = true ∧ ((s.elapse r.dt).dev.session
       e.session).find e.counter = some x ∧ x.tag.toNat = e.tag) ∧
    (let i : Instr := .fireDitherSet 0 (.mailbox 0)
     let r : WcpRow := { dt := 0, origin := .mailbox 0, cmd := cmdDitherSet }
     let s : State := mail (dev1s
         { isOpen := true, slot := 1, high := 1, cache := [{ counter := 1, tag := 1, cmdId := 0x0247, status := 0, execTime := 0, result := Bytes.nil }] })
         (hdr 0x0247 0 1 4 1474289643059781074) ⟨4, 7⟩
     let e : Env := ⟨hdr 0x0247 0 1 4 1474289643059781074, ⟨4, 7⟩, .spi, false⟩
     let x : CacheEntry := { counter := 1, tag := 1, cmdId := 0x0247, status := 0, execTime := 0, result := Bytes.nil }
     wcpRow? i = some r ∧ Offered r.origin r.cmd e (s.elapse r.dt) ∧ e.malformed = false ∧ e.session ≠ 0xFF ∧ ((s.elapse r.dt).dev.session
       e.session).isOpen = true ∧ e.tagOk (keyBytes ((s.elapse r.dt).dev.session e.session).key) = true ∧ ((s.elapse r.dt).dev.session
       e.session).find e.counter = some x ∧ x.tag.toNat ≠ e.tag) := 
  by repeat' (first | decide +kernel | exact rfl | constructor)

theorem witness_QueriesLeaveTheDevice :
    (let i : Instr := .rxStatusGet 0 (.mailbox 0)
     let r : WcpRow := { dt := 0, origin := .mailbox 0, cmd := cmdRxStatus }
     let form : Bytes → Bool := exactly 0
     let content : Device → Bytes → Refuse := fun _ _ => none
     let get : Device → Bytes → Bytes := fun d _ => d.rxStatus
     wcpRow? i = some r ∧ isQuery r.cmd.id = true ∧ r.cmd = Cmd.query r.cmd.id form content get) := 
  by repeat' (first | decide +kernel | exact rfl | constructor)

theorem witness_SessionsOpenAndTimeOut :
    (let s : State := mail
         { dev0 with sec := { keys := vset (Vector.replicate 16 (Vector.replicate 4 {})) 1 (Vector.replicate 4 { written := true }) } }
         (hdr 0x0140 0xFF 0 32 10723109212623595927) ⟨32, 1⟩
     let dt : Nat := 0
     let o : Origin := .mailbox 0
     let e : Env := ⟨hdr 0x0140 0xFF 0 32 10723109212623595927, ⟨32, 1⟩, .spi, false⟩
     let k : Nat × KeyCopy := (3, { written := true })
     let n : Nat := 0
     Offered o cmdSessionOpen e (s.elapse dt) ∧ e.malformed = false ∧ openForm e = true ∧ (s.elapse dt).dev.slotOpens (e.payload.byte 0) =
       true ∧ e.payload.byte 0 ≤ 15 ∧ (s.elapse dt).dev.keyCopy (e.payload.byte 0) = some k ∧ e.tagOk (keyBytes k.2.value) = true ∧
       (s.elapse dt).dev.freeSession = some n) ∧
    (let s : State := on (dev1s { isOpen := true, idle := 1 })
     let dt : Nat := second
     let n : Fin 16 := 0
     let q := s.dev.session n.val
     (s.elapse dt).dev.alive = true ∧ s.dev.ready = true ∧ q.isOpen = true ∧ q.idle ≠ 0 ∧ q.pending = 0 ∧ q.lastActive + q.idle * second ≤
       s.dev.time.clk + dt) ∧
    (let s : State := on (dev1s { isOpen := true })
     let dt : Nat := 10 * second
     let n : Fin 16 := 0
     let q := s.dev.session n.val
     (s.elapse dt).dev.alive = true ∧ s.dev.ready = true ∧ q.isOpen = true ∧ q.accepted = false ∧ q.openedAt + 10 * second ≤
       s.dev.time.clk + dt) ∧
    (let s : State := on (dev1s { isOpen := true, idle := 1 })
     let dt : Nat := second - 1
     let n : Fin 16 := 0
     let q := s.dev.session n.val
     (s.elapse dt).dev.alive = true ∧ s.dev.ready = true ∧ s.dev.time.clk + dt < q.lastActive + q.idle * second) ∧
    (let s : State := on (dev1s { isOpen := true })
     let dt : Nat := 10 * second - 1
     let n : Fin 16 := 0
     let q := s.dev.session n.val
     (s.elapse dt).dev.alive = true ∧ s.dev.ready = true ∧ s.dev.time.clk + dt < q.openedAt + 10 * second) := by
  refine ⟨?_, ?_, ?_, ?_, ?_⟩
  · repeat' (first | decide +kernel | exact rfl | constructor)
  · decide +kernel
  · decide +kernel
  · decide +kernel
  · decide +kernel

theorem witness_FrameTriggers :
    (let s : State := on { dev0 with fire := { fn := { st := .on } } }
     let dt : Nat := 0
     let d := (s.elapse dt).dev
     (s.elapse dt).dev.alive = true ∧ s.dev.fire.fn.st = .on ∧ s.dev.fire.held = none ∧ d.occupied = false ∧ d.fire.trigSrc = 0 ∧
       d.fire.internalDue ≤ d.now) ∧
    (let s : State := on { dev0 with fire := { fn := { st := .on }, trigSrc := 1 } }
     let dt : Nat := 0
     let width : Nat := 100
     let d := (s.elapse dt).dev
     (s.elapse dt).dev.alive = true ∧ s.dev.fire.fn.st = .on ∧ s.dev.fire.held = none ∧ d.occupied = false ∧ d.fire.trigSrc = 1 ∧ 100 ≤
       width) ∧
    (let s : State := on
         { dev0 with fire := { fn := { st := .on }, trigSrc := 2, cal := some (BitVec.ofNat 2176 (10000000 * 2 ^ 64)) }, time := { ns := 20000000, clk := 20000000 } }
     let dt : Nat := 0
     let m : Nat := 2
     let at_ : Nat := 20000000
     let d := (s.elapse dt).dev
     (s.elapse dt).dev.alive = true ∧ s.dev.fire.fn.st = .on ∧ s.dev.fire.held = none ∧ d.occupied = false ∧ d.fire.trigSrc = 2 ∧
       d.calendarNow = some (m, at_) ∧ d.fire.calM ≠ m + 1 ∧ d.fire.srcAt + 2 * us ≤ at_) ∧
    (let s : State := s0
     let dt : Nat := 0
     let width : Nat := 100
     let d := (s.elapse dt).dev
     (s.elapse dt).dev.alive = true ∧ (d.fire.fn.st ≠ .on ∨ d.fire.trigSrc ≠ 1 ∨ width < 100)) ∧
    (let s : State := s0
     let dt : Nat := 0
     let d := (s.elapse dt).dev
     (s.elapse dt).dev.alive = true ∧ (d.fire.fn.st ≠ .on ∨ d.fire.trigSrc ≠ 0 ∨ d.now < d.fire.internalDue)) ∧
    (let s : State := s0
     let dt : Nat := 0
     let d := (s.elapse dt).dev
     (s.elapse dt).dev.alive = true ∧ (d.fire.fn.st ≠ .on ∨ d.fire.trigSrc ≠ 2)) := by
  refine ⟨?_, ?_, ?_, ?_, ?_, ?_⟩ <;> decide +kernel

theorem witness_OverlapPolicies :
    (let s : State := on { dev0 with fire := { fn := { st := .on }, trigSrc := 1, trigPol := 0, phase := .pending } }
     let dt : Nat := 0
     let width : Nat := 100
     let d := (s.elapse dt).dev
     let f := d.fire
     (s.elapse dt).dev.alive = true ∧ s.dev.fire.fn.st = .on ∧ s.dev.fire.trigSrc = 1 ∧ 100 ≤ width ∧ d.occupied = true ∧ f.trigPol = 0) ∧
    (let s : State := on { dev0 with fire := { fn := { st := .on }, trigSrc := 1, phase := .pending } }
     let dt : Nat := 0
     let width : Nat := 100
     let d := (s.elapse dt).dev
     let f := d.fire
     (s.elapse dt).dev.alive = true ∧ s.dev.fire.fn.st = .on ∧ s.dev.fire.trigSrc = 1 ∧ 100 ≤ width ∧ d.occupied = true ∧ f.trigPol = 1 ∧
       f.held = none) ∧
    (let s : State := on { dev0 with fire := { fn := { st := .on }, trigSrc := 1, phase := .pending, held := some ⟨0, false⟩ } }
     let dt : Nat := 0
     let width : Nat := 100
     let d := (s.elapse dt).dev
     let f := d.fire
     (s.elapse dt).dev.alive = true ∧ s.dev.fire.fn.st = .on ∧ s.dev.fire.trigSrc = 1 ∧ 100 ≤ width ∧ d.occupied = true ∧ f.trigPol = 1 ∧
       f.held ≠ none) ∧
    (let s : State := on { dev0 with fire := { fn := { st := .on }, trigSrc := 1, trigPol := 2, phase := .pending } }
     let dt : Nat := 0
     let width : Nat := 100
     let d := (s.elapse dt).dev
     let f := d.fire
     (s.elapse dt).dev.alive = true ∧ s.dev.fire.fn.st = .on ∧ s.dev.fire.trigSrc = 1 ∧ 100 ≤ width ∧ d.occupied = true ∧ f.trigPol = 2 ∧
       f.phase = .pending) ∧
    (let s : State := on { dev0 with fire := { fn := { st := .on }, trigSrc := 1, trigPol := 2, phase := .running, grp := some grp0 } }
     let dt : Nat := 0
     let width : Nat := 100
     let d := (s.elapse dt).dev
     let f := d.fire
     let g := grp0
     (s.elapse dt).dev.alive = true ∧ s.dev.fire.fn.st = .on ∧ s.dev.fire.trigSrc = 1 ∧ 100 ≤ width ∧ d.occupied = true ∧ f.trigPol = 2 ∧
       f.phase = .running ∧ f.cut = false ∧ f.grp = some g ∧ f.held = none) ∧
    (let s : State := on { dev0 with fire := { fn := { st := .on }, trigSrc := 1, trigPol := 2, phase := .running, cut := true } }
     let dt : Nat := 0
     let width : Nat := 100
     let d := (s.elapse dt).dev
     let f := d.fire
     (s.elapse dt).dev.alive = true ∧ s.dev.fire.fn.st = .on ∧ s.dev.fire.trigSrc = 1 ∧ 100 ≤ width ∧ d.occupied = true ∧ f.trigPol = 2 ∧
       f.phase = .running ∧ f.cut = true ∧ f.held = none) ∧
    (let s : State := on
         { dev0 with fire := { fn := { st := .on }, trigSrc := 1, trigPol := 2, phase := .running, cut := true, held := some ⟨0, false⟩ } }
     let dt : Nat := 0
     let width : Nat := 100
     let d := (s.elapse dt).dev
     let f := d.fire
     (s.elapse dt).dev.alive = true ∧ s.dev.fire.fn.st = .on ∧ s.dev.fire.trigSrc = 1 ∧ 100 ≤ width ∧ d.occupied = true ∧ f.trigPol = 2 ∧
       f.phase = .running ∧ f.cut = true ∧ f.held ≠ none) ∧
    (let s : State := on { dev0 with fire := { fn := { st := .on }, trigSrc := 1, trigPol := 2, phase := .running } }
     let dt : Nat := 0
     let width : Nat := 100
     let d := (s.elapse dt).dev
     let f := d.fire
     (s.elapse dt).dev.alive = true ∧ s.dev.fire.fn.st = .on ∧ s.dev.fire.trigSrc = 1 ∧ 100 ≤ width ∧ d.occupied = true ∧ f.trigPol = 2 ∧
       f.phase = .running ∧ f.cut = false ∧ f.grp = none ∧ f.held = none ∧ f.capUntil ≤ d.now ∧ d.sec.switchAt = none) := by
  refine ⟨?_, ?_, ?_, ?_, ?_, ?_, ?_, ?_⟩ <;> decide +kernel

theorem witness_FiringStartsAndStops :
    (let s : State := on { dev0 with fire := { fn := { st := .starting }, armAt := some 0 } }
     let dt : Nat := 20 * second
     let d := (s.elapse dt).dev
     (s.elapse dt).dev.alive = true ∧ d.fire.armed d.now = true ∧ d.emitFaultNow = false ∧ d.budgetReady ≤ d.now ∧ d.fire.fn.stopPending =
       false) ∧
    (let s : State := s0
     let dt : Nat := 0
     let d := (s.elapse dt).dev
     (s.elapse dt).dev.alive = true ∧ d.fire.armed d.now = false) ∧
    (let s : State := on { dev0 with fire := { fn := { st := .stopping } } }
     let dt : Nat := 0
     let d := (s.elapse dt).dev
     (s.elapse dt).dev.alive = true ∧ d.fire.fn.st = .stopping ∧ d.fire.grp = none) ∧
    (let s : State := s0
     let dt : Nat := 0
     let d := (s.elapse dt).dev
     (s.elapse dt).dev.alive = true ∧ d.fire.fn.st ≠ .stopping) := by decide +kernel

theorem witness_FaultsStopFiring :
    (let s : State := on { dev0 with fire := { fn := { st := .on }, stray := Vector.replicate 4 (List.replicate 63 0) } }
     let dt : Nat := 0
     let w : Fin 4 := 0
     let d := (s.elapse dt).dev
     let f := d.fire
     let l := (d.now :: vget f.stray w.val []).filter (fun t => d.now ≤ t + 4 * us)
     (s.elapse dt).dev.alive = true ∧ s.dev.fire.fn.st = .on ∧ fld f.emitter 95 88 ≤ l.length) ∧
    (let s : State := on { dev0 with fire := { fn := { st := .on } } }
     let dt : Nat := 0
     let w : Fin 4 := 0
     let d := (s.elapse dt).dev
     let f := d.fire
     let l := (d.now :: vget f.stray w.val []).filter (fun t => d.now ≤ t + 4 * us)
     (s.elapse dt).dev.alive = true ∧ s.dev.fire.fn.st = .on ∧ l.length < fld f.emitter 95 88) ∧
    (let s : State := on { dev0 with fire := { fn := { st := .on } } }
     let dt : Nat := 0
     let width : Nat := 50
     let d := (s.elapse dt).dev
     let f := d.fire
     let level : Fire :=
         { f with faultAt := if f.faultLevel d.now then f.faultAt else d.now, faultUntil := max f.faultUntil (d.now + width) }
     (s.elapse dt).dev.alive = true ∧ s.dev.fire.fn.st = .on ∧ level.faultAt + 50 ≤ level.faultUntil) ∧
    (let s : State := on { dev0 with fire := { fn := { st := .on } } }
     let dt : Nat := 0
     let width : Nat := 49
     let d := (s.elapse dt).dev
     let f := d.fire
     let level : Fire :=
         { f with faultAt := if f.faultLevel d.now then f.faultAt else d.now, faultUntil := max f.faultUntil (d.now + width) }
     (s.elapse dt).dev.alive = true ∧ s.dev.fire.fn.st = .on ∧ level.faultUntil < level.faultAt + 50) ∧
    (let s : State := s0
     let dt : Nat := 0
     let d := (s.elapse dt).dev
     let f := d.fire
     (d.alive = false ∨ (f.fn.st ≠ .on ∧ f.armed d.now = false))) ∧
    (let s : State := on
         { dev0 with fire := { fn := { st := .on } }, rx := { biasTarget := 20000, biasApplied := 20000, biasOut := 20000 }, time := { ns := 20000000, clk := 20000000 } }
     let dt : Nat := 0
     let held : Nat := ms
     let off : Int := 300
     let d := (s.elapse dt).dev
     (s.elapse dt).dev.alive = true ∧ d.rx.biasFault = false ∧ d.rx.biasOff off held d.now = true ∧ d.fire.fn.st = .on) ∧
    (let s : State := on
         { dev0 with rx := { biasFault := true, biasTarget := 20000, biasApplied := 20000, biasOut := 20000 }, time := { ns := 20000000, clk := 20000000 } }
     let dt : Nat := 0
     let held : Nat := 10 * ms
     let off : Int := 0
     let d := (s.elapse dt).dev
     (s.elapse dt).dev.alive = true ∧ d.rx.biasFault = true ∧ d.rx.biasNear off held d.now = true) ∧
    (let s : State := on { dev0 with rx := { biasFault := true }, time := { ns := 20000000, clk := 20000000 } }
     let dt : Nat := 0
     let held : Nat := 0
     let off : Int := 0
     let d := (s.elapse dt).dev
     (s.elapse dt).dev.alive = true ∧ (d.rx.biasFault = true ∨ d.rx.biasOff off held d.now = false)) ∧
    (let s : State := s0
     let dt : Nat := 0
     let held : Nat := 0
     let off : Int := 0
     let d := (s.elapse dt).dev
     (s.elapse dt).dev.alive = true ∧ (d.rx.biasFault = false ∨ d.rx.biasNear off held d.now = false)) := by
  refine ⟨?_, ?_, ?_, ?_, ?_, ?_, ?_, ?_, ?_⟩ <;> decide +kernel

theorem witness_DoseBudget :
    (let s : State := s0
     let dt : Nat := 0
     let d := (s.elapse dt).dev
     (s.elapse dt).dev.alive = true ∧ d.fire.safeBudget = false ∧ d.fire.budget.ok = true) ∧
    (let s : State := on { dev0 with fire := { budget := ⟨⟨0, 0⟩, ⟨0, 0⟩, .of 0⟩ } }
     let dt : Nat := 0
     let d := (s.elapse dt).dev
     (s.elapse dt).dev.alive = true ∧ d.fire.safeBudget = false ∧ d.fire.budget.ok = false) ∧
    (let s : State := on { dev0 with fire := { safeBudget := true } }
     let dt : Nat := 0
     let d := (s.elapse dt).dev
     (s.elapse dt).dev.alive = true ∧ d.fire.safeBudget = true) ∧
    (let s : State := on
         { dev0 with fire := { fn := { st := .on }, grp := some ({ grp0 with desc := 0x4000003E800000000, slots := ⟨#[{ stripe := 0 }, {}, {}, {}], rfl⟩ } : Group) } }
     let dt : Nat := 0
     let g : Group := { grp0 with desc := 0x4000003E800000000, slots := ⟨#[{ stripe := 0 }, {}, {}, {}], rfl⟩ }
     let d := (s.elapse dt).dev
     (s.elapse dt).dev.alive = true ∧ d.fire.grp = some g ∧ d.fire.shotDue g d.now = true ∧ (∀ a b : Fin 4, a ≠ b → g.slots[a].stripe =
       g.slots[b].stripe → g.slots[a].stripe = idleStripe)) := by decide +kernel

theorem witness_FramesAndGroups :
    (let s : State := on { dev0 with fire := { fn := { st := .on }, trig := ⟨0, false⟩, phase := .pending } }
     let dt : Nat := 2000
     let d := (s.elapse dt).dev
     let f := d.fire
     (s.elapse dt).dev.alive = true ∧ f.held = none ∧ d.frameDue = true ∧ d.pairFree = true) ∧
    (let s : State := on
         { dev0 with fire := { fn := { st := .on }, trig := ⟨0, false⟩, phase := .pending }, hist := { pairs := Vector.replicate 2 .handed } }
     let dt : Nat := 2000
     let d := (s.elapse dt).dev
     let f := d.fire
     (s.elapse dt).dev.alive = true ∧ f.held = none ∧ d.frameDue = true ∧ d.pairFree = false ∧ f.heldNow = false) ∧
    (let s : State := on { dev0 with fire := { fn := { st := .on }, phase := .running, hdr := Vector.replicate 8 1 } }
     let dt : Nat := 0
     let d := (s.elapse dt).dev
     let f := d.fire
     (s.elapse dt).dev.alive = true ∧ f.phase = .running ∧ f.cut = false ∧ f.fn.st = .on ∧ f.enqIdx < hdrCount (f.header f.running.val) ∧
       f.shotQ.length < 64) ∧
    (let s : State := on { dev0 with fire := { fn := { st := .on }, phase := .running, shotQ := [⟨0, 0, 0, false⟩] } }
     let dt : Nat := 0
     let d := (s.elapse dt).dev
     let f := d.fire
     let q := ⟨0, 0, 0, false⟩
     let rest := []
     (s.elapse dt).dev.alive = true ∧ f.fn.st = .on ∧ f.phase = .running ∧ f.cut = false ∧ f.grp = none ∧ f.gapUntil ≤ d.now ∧ f.shotQ = q
       :: rest ∧ d.pairFree = true) ∧
    (let s : State := on
         { dev0 with fire := { fn := { st := .on }, phase := .running, shotQ := [⟨0, 0, 0, false⟩] }, hist := { pairs := Vector.replicate 2 .handed } }
     let dt : Nat := 0
     let d := (s.elapse dt).dev
     let f := d.fire
     let q := ⟨0, 0, 0, false⟩
     let rest := []
     (s.elapse dt).dev.alive = true ∧ f.fn.st = .on ∧ f.phase = .running ∧ f.cut = false ∧ f.grp = none ∧ f.gapUntil ≤ d.now ∧ f.shotQ = q
       :: rest ∧ d.pairFree = false ∧ f.heldNow = false) ∧
    (let s : State := on
         { dev0 with fire := { fn := { st := .on }, phase := .running, shotQ := [⟨0, 0, 0, false⟩], heldNow := true }, hist := { pairs := Vector.replicate 2 .handed } }
     let dt : Nat := 0
     let d := (s.elapse dt).dev
     let f := d.fire
     let q := ⟨0, 0, 0, false⟩
     let rest := []
     (s.elapse dt).dev.alive = true ∧ f.fn.st = .on ∧ f.phase = .running ∧ f.cut = false ∧ f.grp = none ∧ f.gapUntil ≤ d.now ∧ f.shotQ = q
       :: rest ∧ d.pairFree = false ∧ f.heldNow = true) ∧
    (let s : State := on { dev0 with fire := { fn := { st := .on }, grp := some ({ grp0 with flags := 2 } : Group) } }
     let dt : Nat := 0
     let d := (s.elapse dt).dev
     let f := d.fire
     let g := { grp0 with flags := 2 }
     (s.elapse dt).dev.alive = true ∧ f.grp = some g ∧ f.groupOver g d.now = true) ∧
    (let s : State := on { dev0 with fire := { cal := some 0 } }
     let dt : Nat := 0
     let d := (s.elapse dt).dev
     let f := d.fire
     let c := 0
     (s.elapse dt).dev.alive = true ∧ f.cal = some c ∧ f.calSeeded = false ∧ fld c 63 0 ≤ d.time.ns.toNat) := by
  refine ⟨?_, ?_, ?_, ?_, ?_, ?_, ?_, ?_⟩ <;> decide +kernel

theorem witness_PhotonEvents :
    (let s : State := on
         { dev0 with fire := { grp := some (grp0 : Group) }, rx := { chans := [(0, { enabled := 10, kEff := 2, masked := false, edge := false, replaced := false, hotcap := false, calDefault := false, tdc := some 0, capped := 0 })], shot := [(0, {})] } }
     let dt : Nat := 0
     let t : Nat := 0
     let ages : List Nat := []
     let ch : Fin 1032 := 0
     let g : Group := grp0
     let c : ChState :=
         { enabled := 10, kEff := 2, masked := false, edge := false, replaced := false, hotcap := false, calDefault := false, tdc := some 0, capped := 0 }
     let d := (s.elapse dt).dev
     let x := vget g.slots (ch.val / 256) {}
     let sh := (mget ch.val d.rx.shot).getD {}
     let win := 8 * coWin g.coinc
     let pulses := (ages.filter (fun a => a ≤ win)).length + 1
     (s.elapse dt).dev.alive = true ∧ d.fire.grp = some g ∧ mget ch.val d.rx.chans = some c ∧ (x.firing = false ∨ c.kEff = 0 ∨ pulses <
       c.kEff ∨ t < sh.silent ∨ c.tdc = none)) ∧
    (let s : State := on
         { dev0 with fire := { grp := some ({ grp0 with slots := ⟨#[{ stripe := 0, firing := true, e := 4096 }, {}, {}, {}], rfl⟩ } : Group) }, rx := { chans := [(0, { enabled := 10, kEff := 2, masked := false, edge := false, replaced := false, hotcap := false, calDefault := false, tdc := some 0, capped := 0 })], shot := [(0, { dead := 5000 })] } }
     let dt : Nat := 0
     let t : Nat := 4000
     let ages : List Nat := [0]
     let ch : Fin 1032 := 0
     let g : Group := { grp0 with slots := ⟨#[{ stripe := 0, firing := true, e := 4096 }, {}, {}, {}], rfl⟩ }
     let c : ChState :=
         { enabled := 10, kEff := 2, masked := false, edge := false, replaced := false, hotcap := false, calDefault := false, tdc := some 0, capped := 0 }
     let d := (s.elapse dt).dev
     let x := vget g.slots (ch.val / 256) {}
     let sh := (mget ch.val d.rx.shot).getD {}
     let win := 8 * coWin g.coinc
     let pulses := (ages.filter (fun a => a ≤ win)).length + 1
     (s.elapse dt).dev.alive = true ∧ d.fire.grp = some g ∧ mget ch.val d.rx.chans = some c ∧ x.firing = true ∧ 0 < c.kEff ∧ c.kEff ≤
       pulses ∧ sh.silent ≤ t ∧ c.tdc ≠ none ∧ t < sh.dead) ∧
    (let s : State := on
         { dev0 with fire := { grp := some ({ grp0 with slots := ⟨#[{ stripe := 0, firing := true, e := 4096 }, {}, {}, {}], rfl⟩ } : Group) }, rx := { chans := [(0, { enabled := 10, kEff := 2, masked := false, edge := false, replaced := false, hotcap := false, calDefault := false, tdc := some 0, capped := 0 })], shot := [(0, {})] } }
     let dt : Nat := 0
     let t : Nat := 4000
     let ages : List Nat := [0]
     let ch : Fin 1032 := 0
     let g : Group := { grp0 with slots := ⟨#[{ stripe := 0, firing := true, e := 4096 }, {}, {}, {}], rfl⟩ }
     let c : ChState :=
         { enabled := 10, kEff := 2, masked := false, edge := false, replaced := false, hotcap := false, calDefault := false, tdc := some 0, capped := 0 }
     let d := (s.elapse dt).dev
     let x := vget g.slots (ch.val / 256) {}
     let sh := (mget ch.val d.rx.shot).getD {}
     let win := 8 * coWin g.coinc
     let pulses := (ages.filter (fun a => a ≤ win)).length + 1
     let tdc := 0
     let at_ := d.rx.tapTime tdc t
     (s.elapse dt).dev.alive = true ∧ d.fire.grp = some g ∧ mget ch.val d.rx.chans = some c ∧ x.firing = true ∧ 0 < c.kEff ∧ c.kEff ≤
       pulses ∧ sh.silent ≤ t ∧ c.tdc = some tdc ∧ sh.dead ≤ t ∧ at_ < 4096 ∧ sh.guard ≤ 8) ∧
    (let s : State := on
         { dev0 with fire := { grp := some ({ grp0 with slots := ⟨#[{ stripe := 0, firing := true, e := 4096 }, {}, {}, {}], rfl⟩ } : Group) }, rx := { chans := [(0, { enabled := 10, kEff := 2, masked := false, edge := false, replaced := false, hotcap := false, calDefault := false, tdc := some 0, capped := 0 })], shot := [(0, { range := 8 })] } }
     let dt : Nat := 0
     let t : Nat := 4096
     let ages : List Nat := [0]
     let ch : Fin 1032 := 0
     let g : Group := { grp0 with slots := ⟨#[{ stripe := 0, firing := true, e := 4096 }, {}, {}, {}], rfl⟩ }
     let c : ChState :=
         { enabled := 10, kEff := 2, masked := false, edge := false, replaced := false, hotcap := false, calDefault := false, tdc := some 0, capped := 0 }
     let d := (s.elapse dt).dev
     let x := vget g.slots (ch.val / 256) {}
     let sh := (mget ch.val d.rx.shot).getD {}
     let win := 8 * coWin g.coinc
     let pulses := (ages.filter (fun a => a ≤ win)).length + 1
     let tdc := 0
     let at_ := d.rx.tapTime tdc t
     (s.elapse dt).dev.alive = true ∧ d.fire.grp = some g ∧ mget ch.val d.rx.chans = some c ∧ x.firing = true ∧ 0 < c.kEff ∧ c.kEff ≤
       pulses ∧ sh.silent ≤ t ∧ c.tdc = some tdc ∧ sh.dead ≤ t ∧ 4096 ≤ at_ ∧ (at_ < x.e ∨ x.e + windowNs (pcFbin g.planecfg) * 32 ≤ at_ ∨
       8 ≤ sh.range)) ∧
    (let s : State := on
         { dev0 with fire := { grp := some ({ grp0 with slots := ⟨#[{ stripe := 0, firing := true, e := 4096 }, {}, {}, {}], rfl⟩ } : Group) }, rx := { chans := [(0, { enabled := 10, kEff := 2, masked := false, edge := false, replaced := false, hotcap := false, calDefault := false, tdc := some 0, capped := 0 })], shot := [(0, { range := 7 })] } }
     let dt : Nat := 0
     let t : Nat := 4096
     let ages : List Nat := [0]
     let ch : Fin 1032 := 0
     let g : Group := { grp0 with slots := ⟨#[{ stripe := 0, firing := true, e := 4096 }, {}, {}, {}], rfl⟩ }
     let c : ChState :=
         { enabled := 10, kEff := 2, masked := false, edge := false, replaced := false, hotcap := false, calDefault := false, tdc := some 0, capped := 0 }
     let d := (s.elapse dt).dev
     let x := vget g.slots (ch.val / 256) {}
     let sh := (mget ch.val d.rx.shot).getD {}
     let win := 8 * coWin g.coinc
     let pulses := (ages.filter (fun a => a ≤ win)).length + 1
     let tdc := 0
     let at_ := d.rx.tapTime tdc t
     (s.elapse dt).dev.alive = true ∧ d.fire.grp = some g ∧ mget ch.val d.rx.chans = some c ∧ x.firing = true ∧ 0 < c.kEff ∧ c.kEff ≤
       pulses ∧ sh.silent ≤ t ∧ c.tdc = some tdc ∧ sh.dead ≤ t ∧ 4096 ≤ at_ ∧ x.e ≤ at_ ∧ at_ < x.e + windowNs (pcFbin g.planecfg) * 32 ∧
       sh.range < 8) := by decide +kernel

theorem witness_ReceiverUpkeep :
    (let s : State := on { dev0 with rx := { vbdRun := some (0, 21000) } }
     let dt : Nat := 100 * us
     let since : Nat := 0
     let k : Nat := 0
     let est : Int := 21000
     let cs : List Nat := [512]
     let d := (s.elapse dt).dev
     let r := d.rx
     (s.elapse dt).dev.alive = true ∧ r.vbdRun = some (since, est) ∧ cs.findIdx? (fun n => decide (512 ≤ n)) = some k ∧ since + (k + 1) *
       (100 * us) ≤ d.now ∧ s.dev.ready = true) ∧
    (let s : State := on { dev0 with rx := { crossSince := some 0 } }
     let dt : Nat := second
     let d := (s.elapse dt).dev
     let r := d.rx
     let t := 0
     (s.elapse dt).dev.alive = true ∧ r.crossSince = some t ∧ t + second ≤ d.now) ∧
    (let s : State := on { dev0 with bist := { gap := some 0, reserved := [0], waiting := [0] } }
     let dt : Nat := 0
     let d := (s.elapse dt).dev
     let r := d.rx
     (s.elapse dt).dev.alive = true ∧ r.survey = none ∧ d.timingSlice = true) ∧
    (let s : State := on { dev0 with bist := { gap := some 0 } }
     let dt : Nat := 0
     let d := (s.elapse dt).dev
     let r := d.rx
     (s.elapse dt).dev.alive = true ∧ r.survey = none ∧ d.timingSlice = false ∧ r.gapPasses < d.surveyPasses ∧ d.gapRoom (12 * us) = true) ∧
    (let s : State := on { dev0 with rx := { survey := some { targets := [], spads := [], startedAt := 0 } } }
     let dt : Nat := 12 * us
     let d := (s.elapse dt).dev
     let r := d.rx
     let run := { targets := [], spads := [], startedAt := 0 }
     (s.elapse dt).dev.alive = true ∧ r.survey = some run ∧ run.startedAt + 12 * us ≤ d.now) ∧
    (let s : State := on { dev0 with rx := { survey := some { targets := [], spads := [], startedAt := 0 } } }
     let dt : Nat := 12 * us - 1
     let d := (s.elapse dt).dev
     let r := d.rx
     let run := { targets := [], spads := [], startedAt := 0 }
     (s.elapse dt).dev.alive = true ∧ r.survey = some run ∧ d.now < run.startedAt + 12 * us) ∧
    (let s : State := on { dev0 with fire := { fn := { st := .on } }, rx := { linFrom := some 0 } }
     let dt : Nat := 10 * second
     let cs : List Nat := List.replicate 64 1024
     let tdc : Fin 1032 := 0
     let d := (s.elapse dt).dev
     let r := d.rx
     (s.elapse dt).dev.alive = true ∧ d.fire.fn.st = .on ∧ (mget tdc.val r.linAt).getD 0 + 10 * second ≤ r.onTime d.now ∧ cs.length = 64 ∧
       65536 ≤ cs.sum) ∧
    (let s : State := s0
     let dt : Nat := 100 * us
     let d := (s.elapse dt).dev
     let r := d.rx
     (s.elapse dt).dev.alive = true ∧ r.witStart + 100 * us ≤ d.time.ns.toNat) ∧
    (let s : State := s0
     let dt : Nat := 99 * us
     let d := (s.elapse dt).dev
     let r := d.rx
     (s.elapse dt).dev.alive = true ∧ r.witStart ≤ d.time.ns.toNat ∧ d.time.ns.toNat < r.witStart + 100 * us) := by
  refine ⟨?_, ?_, ?_, ?_, ?_, ?_, ?_, ?_, ?_⟩ <;> decide +kernel

theorem witness_EventWordsAndPairs :
    (let s : State := s0
     let dt : Nat := 0
     let ch : Fin 1024 := 0
     let d := (s.elapse dt).dev
     let h := d.hist
     (s.elapse dt).dev.alive = true ∧ (mget ch.val h.x2).getD [] = []) ∧
    (let s : State := on { dev0 with hist := { x2 := [(0, [5])] } }
     let dt : Nat := 0
     let ch : Fin 1024 := 0
     let w : Word := 5
     let rest : List Word := []
     let d := (s.elapse dt).dev
     let h := d.hist
     (s.elapse dt).dev.alive = true ∧ keysAbove none h.x2 ∧ mget ch.val h.x2 = some (w :: rest)) ∧
    (let s : State := on
         { dev0 with hist := { groups := ⟨#[some grp0, none], rfl⟩, pairs := ⟨#[.accumulating, .free], rfl⟩, marked := ⟨#[true, false], rfl⟩ } }
     let dt : Nat := 0
     let p : Nat := 0
     let g : Group := grp0
     let d := (s.elapse dt).dev
     let h := d.hist
     (s.elapse dt).dev.alive = true ∧ p < 2 ∧ h.readyPair = some p ∧ vget h.groups p none = some g ∧ d.lanesNow ≠ 0) ∧
    (let s : State := on
         { dev0 with hist := { groups := ⟨#[some grp0, none], rfl⟩, pairs := ⟨#[.accumulating, .free], rfl⟩, marked := ⟨#[true, false], rfl⟩ }, bist := { marks := [⟨1, 0, 0⟩, ⟨1, 1, 0⟩, ⟨1, 2, 0⟩, ⟨1, 3, 0⟩, ⟨1, 4, 0⟩, ⟨1, 5, 0⟩, ⟨1, 6, 0⟩, ⟨1, 7, 0⟩, ⟨1, 8, 0⟩, ⟨1, 9, 0⟩, ⟨1, 10, 0⟩, ⟨1, 11, 0⟩, ⟨1, 12, 0⟩, ⟨1, 13, 0⟩, ⟨1, 14, 0⟩, ⟨1, 15, 0⟩] } }
     let dt : Nat := 0
     let p : Nat := 0
     let g : Group := grp0
     let d := (s.elapse dt).dev
     let h := d.hist
     (s.elapse dt).dev.alive = true ∧ p < 2 ∧ h.readyPair = some p ∧ vget h.groups p none = some g ∧ d.lanesNow = 0 ∧ (d.emptyUnit g).2 ≠
       .waits) ∧
    (let s : State := on
         { dev0 with hist := { groups := ⟨#[some { grp0 with points := 20 }, none], rfl⟩, pairs := ⟨#[.accumulating, .free], rfl⟩, marked := ⟨#[true, false], rfl⟩ }, bist := { marks := [⟨1, 0, 0⟩, ⟨1, 1, 0⟩, ⟨1, 2, 0⟩, ⟨1, 3, 0⟩, ⟨1, 4, 0⟩, ⟨1, 5, 0⟩, ⟨1, 6, 0⟩, ⟨1, 7, 0⟩, ⟨1, 8, 0⟩, ⟨1, 9, 0⟩, ⟨1, 10, 0⟩, ⟨1, 11, 0⟩, ⟨1, 12, 0⟩, ⟨1, 13, 0⟩, ⟨1, 14, 0⟩, ⟨1, 15, 0⟩] }, qs := { qs := [(20, { fn := { st := .on }, cfg := fields [(80, 100)] })], subs := [{ queue := 20, who := 32, st := .active, lease := none }] } }
     let dt : Nat := 0
     let p : Nat := 0
     let g : Group := { grp0 with points := 20 }
     let d := (s.elapse dt).dev
     let h := d.hist
     (s.elapse dt).dev.alive = true ∧ p < 2 ∧ h.readyPair = some p ∧ vget h.groups p none = some g ∧ d.lanesNow = 0 ∧ (d.emptyUnit g).2 =
       .waits) ∧
    (let s : State := s0
     let dt : Nat := 0
     let p : Nat := 0
     let d := (s.elapse dt).dev
     let h := d.hist
     (s.elapse dt).dev.alive = true ∧ p < 2 ∧ h.readyPair = none) ∧
    (let s : State := on { dev0 with hist := { groups := ⟨#[some grp0, none], rfl⟩, pairs := ⟨#[.handed, .free], rfl⟩ } }
     let dt : Nat := 0
     let p : Nat := 0
     let g : Group := grp0
     let d := (s.elapse dt).dev
     let h := d.hist
     (s.elapse dt).dev.alive = true ∧ p < 2 ∧ (∀ q, q < 2 → vget h.pairs q .free ≠ .processing) ∧ h.nextPair = some (p, g)) ∧
    (let s : State := on { dev0 with hist := { groups := ⟨#[some grp0, none], rfl⟩, pairs := ⟨#[.processing, .free], rfl⟩ } }
     let dt : Nat := 0
     let p : Nat := 0
     let g : Group := { grp0 with calFrame := false }
     let d := (s.elapse dt).dev
     let h := d.hist
     (s.elapse dt).dev.alive = true ∧ p < 2 ∧ (∀ q, q < p → vget h.pairs q .free ≠ .processing) ∧ vget h.pairs p .free = .processing ∧
       vget h.groups p none = some g ∧ g.pair = (p == 1)) := by
  refine ⟨?_, ?_, ?_, ?_, ?_, ?_, ?_, ?_⟩
  · decide +kernel
  · repeat' (first | decide +kernel | exact rfl | constructor)
  · decide +kernel
  · decide +kernel
  · repeat' (first | decide +kernel | exact rfl | constructor)
  · decide +kernel
  · decide +kernel
  · decide +kernel

theorem witness_ExportAndImport :
    (let s : State := on
         { dev0 with hist := { p6 := { st := .draining, unit := some { startNs := 0, frame := 0, gen := 0, seq := 0, fbin := 0, group := 0, plan := 0, tag := 0, recs := [] } } } }
     let dt : Nat := 0
     let x : ExportUnit := { startNs := 0, frame := 0, gen := 0, seq := 0, fbin := 0, group := 0, plan := 0, tag := 0, recs := [] }
     let d := (s.elapse dt).dev
     let h := d.hist
     (s.elapse dt).dev.alive = true ∧ h.drains = some 6 ∧ h.p6.unit = some x ∧ h.expSet.queue = 0xFFFF ∧ h.p6.chunk + 1 < h.expSet.chunks) ∧
    (let s : State := s0
     let dt : Nat := 0
     let d := (s.elapse dt).dev
     let h := d.hist
     (s.elapse dt).dev.alive = true ∧ h.drains = none) ∧
    (let s : State := on { dev0 with hist := { exp := { st := .stopping } } }
     let dt : Nat := 0
     let d := (s.elapse dt).dev
     let h := d.hist
     (s.elapse dt).dev.alive = true ∧ h.exp.st = .stopping ∧ h.exp.stopBy ≤ d.now) ∧
    (let s : State := s0
     let dt : Nat := 0
     let d := (s.elapse dt).dev
     let h := d.hist
     (s.elapse dt).dev.alive = true ∧ h.exp.st ≠ .stopping) ∧
    (let s : State := on { dev0 with hist := { hold := some (0, 0) } }
     let dt : Nat := 10 * second
     let p : Nat := 0
     let since : Nat := 0
     let d := (s.elapse dt).dev
     let h := d.hist
     (s.elapse dt).dev.alive = true ∧ h.hold = some (p, since) ∧ since + 10 * second ≤ d.now ∧ (¬(h.holdTaken = true ∧ h.p7.st =
       .filling))) ∧
    (let s : State := on
         { dev0 with hist := { imp := { enabled := true, owns := true, queue := 20 } }, qs := { qs := [(20, { units := [{ useq := 0, data := Bytes.nil, cells := [0], off := 0, descs := [0], times := [0], src := 3, active := [33], begun := [] }] })] } }
     let dt : Nat := 0
     let q : QUnit :=
         { useq := 0, data := Bytes.nil, cells := [0], off := 0, descs := [0], times := [0], src := 3, active := [33], begun := [] }
     let d := (s.elapse dt).dev
     let h := d.hist
     (s.elapse dt).dev.alive = true ∧ h.imp.enabled = true ∧ h.imp.owns = true ∧ h.imp.complete = false ∧ h.imp.queue ≠ 0xFFFF ∧ (d.queue
       h.imp.queue).nextFor 33 = some q ∧ chunkOk q.data = false) ∧
    (let s : State := on
         { dev0 with hist := { imp := { enabled := true, owns := true, queue := 20 } }, qs := { qs := [(20, { units := [okUnit] })] } }
     let dt : Nat := 0
     let q : QUnit := okUnit
     let d := (s.elapse dt).dev
     let h := d.hist
     (s.elapse dt).dev.alive = true ∧ h.imp.enabled = true ∧ h.imp.owns = true ∧ h.imp.complete = false ∧ h.imp.queue ≠ 0xFFFF ∧
       h.imp.active = false ∧ (d.queue h.imp.queue).nextFor 33 = some q ∧ chunkOk q.data = true ∧ ckSrc (q.data.slice 0 32).val = 0 ∧
       h.imp.source = 0xFF) ∧
    (let s : State := on { dev0 with hist := { imp := { complete := true } } }
     let dt : Nat := 0
     let d := (s.elapse dt).dev
     let h := d.hist
     (s.elapse dt).dev.alive = true ∧ h.imp.complete = true ∧ h.imp.slices < 16 ∧ d.ret.lanes ≠ 0 ∧ d.nextHandover.all (fun t => decide
       (d.now + d.sliceTime ≤ t)) = true ∧ h.imp.sliceUntil ≤ d.now ∧ d.bist.reservedIn [2, 3] = false ∧ vget h.pairs 0 .free = .free ∧
       vget h.pairs 1 .free = .free) ∧
    (let s : State := on { dev0 with bist := { run := some ⟨8, 0, true, false⟩ } }
     let dt : Nat := 0
     let d := (s.elapse dt).dev
     (s.elapse dt).dev.alive = true ∧ d.bist.reservedIn [2, 3] = true) ∧
    (let s : State := on { dev0 with hist := { imp := { complete := true, slices := 16 } } }
     let dt : Nat := 0
     let d := (s.elapse dt).dev
     let h := d.hist
     (s.elapse dt).dev.alive = true ∧ h.imp.complete = true ∧ 16 ≤ h.imp.slices ∧ h.imp.sliceUntil ≤ d.now ∧ h.imp.points = 0xFFFF) ∧
    (let s : State := s0
     let dt : Nat := 0
     let d := (s.elapse dt).dev
     let h := d.hist
     (s.elapse dt).dev.alive = true ∧ h.imp.complete = false) := by
  refine ⟨?_, ?_, ?_, ?_, ?_, ?_, ?_, ?_, ?_, ?_, ?_⟩ <;> decide +kernel

theorem witness_ZonesAndWindow :
    (let s : State := on
         { dev0 with ret := { zmaps := Vector.replicate 16 (.of (BitVec.ofNat 8320 (2 ^ 128 + 100 * 2 ^ 96))), lastLook := Vector.replicate 64 (some (0, 0)) } }
     let dt : Nat := 100 * ms
     let t : Nat := 0
     let map : Nat := 0
     let z : Fin 64 := 0
     let d := (s.elapse dt).dev
     let m := (d.ret.zmapNow map).1
     (s.elapse dt).dev.alive = true ∧ vget d.ret.lastLook z.val none = some (t, map) ∧ t + zmBlindMs m * ms ≤ d.time.ns.toNat) ∧
    (let s : State := s0
     let dt : Nat := 0
     let z : Fin 64 := 0
     let d := (s.elapse dt).dev
     (s.elapse dt).dev.alive = true ∧ vget d.ret.lastLook z.val none = none) ∧
    (let s : State := on { dev0 with ret := { learn := some (25, [1, 2, 3, 4]) } }
     let dt : Nat := 0
     let n : Nat := 25
     let sums : List Int := [1, 2, 3, 4]
     let d := (s.elapse dt).dev
     (s.elapse dt).dev.alive = true ∧ d.ret.learn = some (n, sums) ∧ 25 ≤ n ∧ d.power.shut = none) ∧
    (let s : State := on { dev0 with ret := { learn := some (25, [1, 2, 3, 4]) }, power := { core := .run, shut := some (0, .standby) } }
     let dt : Nat := 0
     let n : Nat := 25
     let sums : List Int := [1, 2, 3, 4]
     let d := (s.elapse dt).dev
     (s.elapse dt).dev.alive = true ∧ d.ret.learn = some (n, sums) ∧ 25 ≤ n ∧ d.power.shut ≠ none) ∧
    (let s : State := on { dev0 with ret := { learn := some (24, []) } }
     let dt : Nat := 0
     let n : Nat := 24
     let sums : List Int := []
     let d := (s.elapse dt).dev
     (s.elapse dt).dev.alive = true ∧ d.ret.learn = some (n, sums) ∧ n < 25) := by decide +kernel

theorem witness_LinkBringUp :
    (let s : State := s0
     let dt : Nat := 0
     let p : Port := .e
     let d := (s.elapse dt).dev
     let x := d.port (portNo p)
     (s.elapse dt).dev.alive = true ∧ (x.active = false ∨ x.link ≠ .training)) ∧
    (let s : State := on { dev0 with ring := { ports := ⟨#[{ fn := { st := .starting }, link := .training, signal := true }, {}], rfl⟩ } }
     let dt : Nat := 0
     let p : Port := .e
     let d := (s.elapse dt).dev
     let x := d.port (portNo p)
     (s.elapse dt).dev.alive = true ∧ x.active = true ∧ x.link = .training ∧ x.signal = true) ∧
    (let s : State := s0
     let dt : Nat := 0
     let p : Port := .e
     let d := (s.elapse dt).dev
     let x := d.port (portNo p)
     (s.elapse dt).dev.alive = true ∧ (x.active = false ∨ x.link ≠ .training ∨ x.signal = false)) ∧
    (let s : State := on { dev0 with ring := { ports := ⟨#[{ link := .aligning }, {}], rfl⟩ } }
     let dt : Nat := 0
     let p : Port := .e
     let f : BitVec 512 := 0x5A3C96E10F87D24B
     let d := (s.elapse dt).dev
     let x := d.port (portNo p)
     (s.elapse dt).dev.alive = true ∧ x.link = .aligning ∧ markerOk f = true) ∧
    (let s : State := s0
     let dt : Nat := 0
     let p : Port := .e
     let f : BitVec 512 := 0
     let d := (s.elapse dt).dev
     let x := d.port (portNo p)
     (s.elapse dt).dev.alive = true ∧ (x.link ≠ .aligning ∨ markerOk f = false)) ∧
    (let s : State := on
         { dev0 with ring := { ports := ⟨#[{ link := .linked, delays := List.replicate 256 0 }, {}], rfl⟩, granted := true, onring := true, closed := true } }
     let dt : Nat := 0
     let p : Port := .e
     let d := (s.elapse dt).dev
     let x := d.port (portNo p)
     let averaged := x.link = .linked ∧ d.ring.granted = true ∧ 256 ≤ x.delays.length
     (s.elapse dt).dev.alive = true ∧ averaged ∧ d.ring.onring = true ∧ x.fn.stopPending = false) ∧
    (let s : State := on
         { dev0 with ring := { ports := ⟨#[{ link := .linked, delays := List.replicate 256 0 }, {}], rfl⟩, granted := true, stepFlag := true } }
     let dt : Nat := 0
     let p : Port := .e
     let d := (s.elapse dt).dev
     let x := d.port (portNo p)
     let averaged := x.link = .linked ∧ d.ring.granted = true ∧ 256 ≤ x.delays.length
     (s.elapse dt).dev.alive = true ∧ averaged ∧ d.ring.onring = false ∧ x.fn.stopPending = false) ∧
    (let s : State := on
         { dev0 with ring := { ports := ⟨#[{ link := .linked, delays := List.replicate 256 0, neighbour := 1 }, {}], rfl⟩, granted := true, onring := true, members := [⟨0, 0, 0⟩, ⟨1, 1, 0⟩, ⟨2, 2, 0⟩], brk := some (0, 1) } }
     let dt : Nat := 0
     let p : Port := .e
     let d := (s.elapse dt).dev
     let x := d.port (portNo p)
     let other := d.port (1 - portNo p)
     let heal := d.linkEnds (portNo p)
     let averaged := x.link = .linked ∧ d.ring.granted = true ∧ 256 ≤ x.delays.length
     (s.elapse dt).dev.alive = true ∧ averaged ∧ d.ring.onring = true ∧ d.ring.closed = false ∧ 2 ≤ d.ring.members.length ∧ d.ring.beside
       heal.1 true = heal.2 ∧ d.ring.brkWest = heal.1 ∧ x.fn.stopPending = false ∧ other.fn.stopPending = false) ∧
    (let s : State := s0
     let dt : Nat := 0
     let p : Port := .e
     let d := (s.elapse dt).dev
     let x := d.port (portNo p)
     let averaged := x.link = .linked ∧ d.ring.granted = true ∧ 256 ≤ x.delays.length
     (s.elapse dt).dev.alive = true ∧ (¬ averaged)) ∧
    (let s : State := on { dev0 with ring := { ports := ⟨#[{ link := .member }, {}], rfl⟩, onring := true } }
     let dt : Nat := 0
     let p : Port := .e
     let d := (s.elapse dt).dev
     let x := d.port (portNo p)
     (s.elapse dt).dev.alive = true ∧ x.live = true) ∧
    (let s : State := s0
     let dt : Nat := 0
     let p : Port := .e
     let d := (s.elapse dt).dev
     let x := d.port (portNo p)
     (s.elapse dt).dev.alive = true ∧ x.live = false) ∧
    (let s : State := on
         { dev0 with ring := { ports := ⟨#[{ fn := { st := .starting }, link := .training, retryAt := some 0 }, {}], rfl⟩ } }
     let dt : Nat := 0
     let p : Port := .e
     let d := (s.elapse dt).dev
     let x := d.port (portNo p)
     let t := 0
     (s.elapse dt).dev.alive = true ∧ x.fn.st = .starting ∧ x.fn.stopPending = false ∧ x.live = false ∧ x.retryAt = some t ∧ t ≤ d.now) ∧
    (let s : State := on
         { dev0 with ring := { ports := ⟨#[{ fn := { st := .starting }, link := .linked, retryAt := some 0 }, {}], rfl⟩ } }
     let dt : Nat := 0
     let p : Port := .e
     let d := (s.elapse dt).dev
     let x := d.port (portNo p)
     let t := 0
     (s.elapse dt).dev.alive = true ∧ x.fn.st = .starting ∧ x.fn.stopPending = false ∧ x.live = true ∧ x.retryAt = some t ∧ t ≤ d.now) ∧
    (let s : State := on
         { dev0 with ring := { ports := ⟨#[{ fn := { st := .starting, stopPending := true }, link := .linked, retryAt := some 0 }, {}], rfl⟩ } }
     let dt : Nat := 0
     let p : Port := .e
     let d := (s.elapse dt).dev
     let x := d.port (portNo p)
     let t := 0
     (s.elapse dt).dev.alive = true ∧ x.fn.st = .starting ∧ x.fn.stopPending = true ∧ x.retryAt = some t ∧ t ≤ d.now) ∧
    (let s : State := s0
     let dt : Nat := 0
     let p : Port := .e
     let d := (s.elapse dt).dev
     let x := d.port (portNo p)
     (s.elapse dt).dev.alive = true ∧ (x.fn.st ≠ .starting ∨ x.retryAt.all (fun t => decide (d.now < t)) = true)) := by
  refine ⟨?_, ?_, ?_, ?_, ?_, ?_, ?_, ?_, ?_, ?_, ?_, ?_, ?_, ?_, ?_⟩ <;> decide +kernel

theorem witness_MarkersAndTime :
    (let s : State := on { dev0 with ring := { ports := ⟨#[{ link := .linked, rxSf := some 0 }, {}], rfl⟩ } }
     let dt : Nat := 0
     let p : Port := .e
     let f : BitVec 512 := 0x15A3C96E10F87D24B
     let d := (s.elapse dt).dev
     let x := d.port (portNo p)
     let n := 0
     (s.elapse dt).dev.alive = true ∧ x.live = true ∧ markerOk f = true ∧ x.rxSf = some n ∧ fld f 95 64 = (n.toNat + 1) % 2 ^ 32 ∧ bit f
       212 = false ∧ bit f 211 = false) ∧
    (let s : State := on { dev0 with ring := { ports := ⟨#[{ link := .linked, rxSf := some 0 }, {}], rfl⟩ } }
     let dt : Nat := 0
     let p : Port := .e
     let f : BitVec 512 := 0x15A3C96E10F87D24B + 2 ^ 212
     let d := (s.elapse dt).dev
     let x := d.port (portNo p)
     let n := 0
     (s.elapse dt).dev.alive = true ∧ x.live = true ∧ markerOk f = true ∧ x.rxSf = some n ∧ fld f 95 64 = (n.toNat + 1) % 2 ^ 32 ∧ bit f
       212 = true ∧ x.breaks = 0 ∧ bit f 211 = false) ∧
    (let s : State := on { dev0 with ring := { ports := ⟨#[{ link := .linked, rxSf := some 0 }, {}], rfl⟩ } }
     let dt : Nat := 0
     let p : Port := .e
     let f : BitVec 512 := 0x5A3C96E10F87D24B
     let d := (s.elapse dt).dev
     let x := d.port (portNo p)
     let n := 0
     (s.elapse dt).dev.alive = true ∧ x.live = true ∧ markerOk f = true ∧ x.rxSf = some n ∧ fld f 95 64 ≠ (n.toNat + 1) % 2 ^ 32 ∧
       x.missed < 2 ∧ bit f 212 = false ∧ bit f 211 = false) ∧
    (let s : State := on { dev0 with ring := { ports := ⟨#[{ link := .linked, rxSf := some 0 }, {}], rfl⟩ } }
     let dt : Nat := 0
     let p : Port := .e
     let f : BitVec 512 := 0
     let d := (s.elapse dt).dev
     let x := d.port (portNo p)
     (s.elapse dt).dev.alive = true ∧ x.live = true ∧ markerOk f = false ∧ x.missed < 2) ∧
    (let s : State := on { dev0 with ring := { ports := ⟨#[{ link := .linked, rxSf := some 0, missed := 2 }, {}], rfl⟩ } }
     let dt : Nat := 0
     let p : Port := .e
     let f : BitVec 512 := 0
     let d := (s.elapse dt).dev
     let x := d.port (portNo p)
     (s.elapse dt).dev.alive = true ∧ x.live = true ∧ markerOk f = false ∧ 2 ≤ x.missed) ∧
    (let s : State := on { dev0 with ring := { ports := ⟨#[{ link := .linked, rxSf := some 0, missed := 2 }, {}], rfl⟩ } }
     let dt : Nat := 0
     let p : Port := .e
     let f : BitVec 512 := 0x5A3C96E10F87D24B
     let d := (s.elapse dt).dev
     let x := d.port (portNo p)
     let n := 0
     (s.elapse dt).dev.alive = true ∧ x.live = true ∧ markerOk f = true ∧ x.rxSf = some n ∧ fld f 95 64 ≠ (n.toNat + 1) % 2 ^ 32 ∧ 2 ≤
       x.missed) ∧
    (let s : State := on { dev0 with ring := { ports := ⟨#[{ link := .linked, rxSf := some 0, breaks := 1 }, {}], rfl⟩ } }
     let dt : Nat := 0
     let p : Port := .e
     let f : BitVec 512 := 0x15A3C96E10F87D24B + 2 ^ 212
     let d := (s.elapse dt).dev
     let x := d.port (portNo p)
     (s.elapse dt).dev.alive = true ∧ x.live = true ∧ markerOk f = true ∧ bit f 212 = true ∧ 1 ≤ x.breaks) ∧
    (let s : State := on { dev0 with ring := { ports := ⟨#[{ link := .linked, rxSf := some 0 }, {}], rfl⟩ } }
     let dt : Nat := 0
     let p : Port := .e
     let f : BitVec 512 := 0x15A3C96E10F87D24B + 2 ^ 211
     let d := (s.elapse dt).dev
     let x := d.port (portNo p)
     (s.elapse dt).dev.alive = true ∧ x.live = true ∧ markerOk f = true ∧ bit f 211 = true) ∧
    (let s : State := s0
     let dt : Nat := 0
     let p : Port := .e
     let d := (s.elapse dt).dev
     let x := d.port (portNo p)
     (s.elapse dt).dev.alive = true ∧ x.live = false) ∧
    (let s : State := on { dev0 with ring := { ports := ⟨#[{ link := .linked, txTimes := [(0, 5)] }, {}], rfl⟩ } }
     let dt : Nat := 0
     let p : Port := .e
     let f : BitVec 512 := 0
     let d := (s.elapse dt).dev
     let x := d.port (portNo p)
     let t1 := 5
     (s.elapse dt).dev.alive = true ∧ x.live = true ∧ mget (fld f 111 80) x.txTimes = some t1) ∧
    (let s : State := on { dev0 with ring := { onring := true, hops := 1, servoSf := 256, locked := true } }
     let dt : Nat := 0
     let d := (s.elapse dt).dev
     (s.elapse dt).dev.alive = true ∧ d.ring.onring = true ∧ d.ring.head = false ∧ d.ring.hops ≠ 0xFF ∧ 256 ≤ d.ring.servoSf ∧
       d.ring.locked = true ∧ (d.offsetNow d.ring.parent).natAbs ≤ 131072) ∧
    (let s : State := on { dev0 with ring := { onring := true, hops := 1, servoSf := 256, inLock := 63 } }
     let dt : Nat := 0
     let d := (s.elapse dt).dev
     (s.elapse dt).dev.alive = true ∧ d.ring.onring = true ∧ d.ring.head = false ∧ d.ring.hops ≠ 0xFF ∧ 256 ≤ d.ring.servoSf ∧
       d.ring.locked = false ∧ (d.offsetNow d.ring.parent).natAbs < 65536) ∧
    (let s : State := on
         { dev0 with ring := { ports := ⟨#[{ peerTx := 65536 }, {}], rfl⟩, onring := true, hops := 1, servoSf := 256, inLock := 5 } }
     let dt : Nat := 0
     let d := (s.elapse dt).dev
     (s.elapse dt).dev.alive = true ∧ d.ring.onring = true ∧ d.ring.head = false ∧ d.ring.hops ≠ 0xFF ∧ 256 ≤ d.ring.servoSf ∧
       d.ring.locked = false ∧ 65536 ≤ (d.offsetNow d.ring.parent).natAbs ∧ d.ring.inLock < 64) ∧
    (let s : State := on
         { dev0 with ring := { ports := ⟨#[{ peerTx := 131073 }, {}], rfl⟩, onring := true, hops := 1, servoSf := 256, locked := true } }
     let dt : Nat := 0
     let d := (s.elapse dt).dev
     (s.elapse dt).dev.alive = true ∧ d.ring.onring = true ∧ d.ring.head = false ∧ d.ring.hops ≠ 0xFF ∧ 256 ≤ d.ring.servoSf ∧
       d.ring.locked = true ∧ 131072 < (d.offsetNow d.ring.parent).natAbs) ∧
    (let s : State := s0
     let dt : Nat := 0
     let d := (s.elapse dt).dev
     (s.elapse dt).dev.alive = true ∧ (d.ring.onring = false ∨ d.ring.head = true)) ∧
    (let s : State := on { dev0 with ring := { noPathSince := some 0, locked := true } }
     let dt : Nat := second
     let d := (s.elapse dt).dev
     let t := 0
     (s.elapse dt).dev.alive = true ∧ d.ring.noPathSince = some t ∧ t + second ≤ d.now ∧ d.ring.locked = true) := by
  refine ⟨?_, ?_, ?_, ?_, ?_, ?_, ?_, ?_, ?_, ?_, ?_, ?_, ?_, ?_, ?_, ?_⟩ <;> decide +kernel

theorem witness_RingMessages :
    (let s : State := on { dev0 with ring := { ports := ⟨#[{ link := .member }, {}], rfl⟩ } }
     let dt : Nat := 0
     let p : Port := .e
     let f : BitVec 512 := .ofNat 512 (2 + Config.uid.toNat * 2 ^ 40)
     let d := (s.elapse dt).dev
     let r := d.ring
     (s.elapse dt).dev.alive = true ∧ (d.port (portNo p)).live = true ∧ r.seen.contains (topoKey f) = false ∧ fld f 7 0 = 2 ∧ topoBody f
       63 0 = Config.uid.toNat ∧ r.head = false ∧ r.granted = false ∧ topoBody f 71 64 ≠ 0xFE) ∧
    (let s : State := on { dev0 with ring := { ports := ⟨#[{ link := .member }, {}], rfl⟩ } }
     let dt : Nat := 0
     let p : Port := .e
     let f : BitVec 512 := .ofNat 512 (2 + Config.uid.toNat * 2 ^ 40 + 0xFE * 2 ^ 104)
     let d := (s.elapse dt).dev
     let r := d.ring
     (s.elapse dt).dev.alive = true ∧ (d.port (portNo p)).live = true ∧ r.seen.contains (topoKey f) = false ∧ fld f 7 0 = 2 ∧ topoBody f
       63 0 = Config.uid.toNat ∧ r.head = false ∧ topoBody f 71 64 = 0xFE) ∧
    (let s : State := on { dev0 with ring := { ports := ⟨#[{ link := .member }, {}], rfl⟩ } }
     let dt : Nat := 0
     let p : Port := .e
     let f : BitVec 512 := .ofNat 512 (2 + (Config.uid.toNat + 1) % 2 ^ 64 * 2 ^ 40)
     let d := (s.elapse dt).dev
     let r := d.ring
     (s.elapse dt).dev.alive = true ∧ (d.port (portNo p)).live = true ∧ r.seen.contains (topoKey f) = false ∧ fld f 7 0 = 2 ∧ topoBody f
       63 0 ≠ Config.uid.toNat) ∧
    (let s : State := on { dev0 with ring := { ports := ⟨#[{ link := .member }, {}], rfl⟩ } }
     let dt : Nat := 0
     let p : Port := .e
     let f : BitVec 512 := 3
     let d := (s.elapse dt).dev
     let r := d.ring
     (s.elapse dt).dev.alive = true ∧ (d.port (portNo p)).live = true ∧ r.seen.contains (topoKey f) = false ∧ fld f 7 0 = 3 ∧ r.granted =
       false) ∧
    (let s : State := on { dev0 with ring := { ports := ⟨#[{ link := .member }, {}], rfl⟩, granted := true } }
     let dt : Nat := 0
     let p : Port := .e
     let f : BitVec 512 := 3 + 5 * 2 ^ 40
     let d := (s.elapse dt).dev
     let r := d.ring
     (s.elapse dt).dev.alive = true ∧ (d.port (portNo p)).live = true ∧ r.seen.contains (topoKey f) = false ∧ fld f 7 0 = 3 ∧ r.granted =
       true ∧ r.head = false ∧ topoBody f 7 0 ≠ r.node) ∧
    (let s : State := on
         { dev0 with ring := { ports := ⟨#[{ link := .member }, {}], rfl⟩, onring := true, closed := true, members := [⟨0, 0, 0⟩, ⟨1, 1, 0⟩] } }
     let dt : Nat := 0
     let p : Port := .e
     let f : BitVec 512 := 4 + 2 ^ 48
     let d := (s.elapse dt).dev
     let r := d.ring
     (s.elapse dt).dev.alive = true ∧ (d.port (portNo p)).live = true ∧ r.seen.contains (topoKey f) = false ∧ fld f 7 0 = 4 ∧ r.onring =
       true ∧ r.head = false ∧ r.closed = true ∧ r.brk = none ∧ (r.place (topoBody f 7 0)).isSome = true ∧ (r.place (topoBody f 15
       8)).isSome = true) ∧
    (let s : State := on { dev0 with ring := { ports := ⟨#[{ link := .member }, {}], rfl⟩, onring := true } }
     let dt : Nat := 0
     let p : Port := .e
     let f : BitVec 512 := 5
     let d := (s.elapse dt).dev
     let r := d.ring
     (s.elapse dt).dev.alive = true ∧ (d.port (portNo p)).live = true ∧ r.seen.contains (topoKey f) = false ∧ fld f 7 0 = 5 ∧ r.onring =
       true ∧ r.closed = false) ∧
    (let s : State := on { dev0 with ring := { ports := ⟨#[{ link := .member }, {}], rfl⟩ } }
     let dt : Nat := 0
     let p : Port := .e
     let f : BitVec 512 := 6 + 2 ^ 40
     let d := (s.elapse dt).dev
     let r := d.ring
     (s.elapse dt).dev.alive = true ∧ (d.port (portNo p)).live = true ∧ r.seen.contains (topoKey f) = false ∧ fld f 7 0 = 6 ∧ topoBody f 7
       0 ≠ 0 ∧ r.memberChunks.length ≠ topoBody f 7 0) ∧
    (let s : State := on { dev0 with ring := { ports := ⟨#[{ link := .member }, {}], rfl⟩ } }
     let dt : Nat := 0
     let p : Port := .e
     let f : BitVec 512 := 6
     let d := (s.elapse dt).dev
     let r := d.ring
     (s.elapse dt).dev.alive = true ∧ (d.port (portNo p)).live = true ∧ r.seen.contains (topoKey f) = false ∧ fld f 7 0 = 6 ∧ topoBody f 7
       0 = 0 ∧ (chunkMembers f).length = 3) ∧
    (let s : State := on { dev0 with ring := { ports := ⟨#[{ link := .member }, {}], rfl⟩ } }
     let dt : Nat := 0
     let p : Port := .e
     let f : BitVec 512 := 7
     let d := (s.elapse dt).dev
     let r := d.ring
     (s.elapse dt).dev.alive = true ∧ (d.port (portNo p)).live = true ∧ r.seen.contains (topoKey f) = false ∧ fld f 7 0 = 7 ∧ r.head =
       false ∧ topoBody f 7 0 = 0) ∧
    (let s : State := on { dev0 with ring := { ports := ⟨#[{ link := .member }, {}], rfl⟩, head := true } }
     let dt : Nat := 0
     let p : Port := .e
     let f : BitVec 512 := 7
     let d := (s.elapse dt).dev
     let r := d.ring
     (s.elapse dt).dev.alive = true ∧ (d.port (portNo p)).live = true ∧ r.seen.contains (topoKey f) = false ∧ fld f 7 0 = 7 ∧ (r.head =
       true ∨ (topoBody f 7 0 ≠ 0 ∧ r.calChunks.length ≠ topoBody f 7 0))) ∧
    (let s : State := on { dev0 with ring := { ports := ⟨#[{ link := .member }, {}], rfl⟩ } }
     let dt : Nat := 0
     let p : Port := .e
     let f : BitVec 512 := 8
     let d := (s.elapse dt).dev
     let r := d.ring
     (s.elapse dt).dev.alive = true ∧ (d.port (portNo p)).live = true ∧ r.seen.contains (topoKey f) = false ∧ fld f 7 0 = 8 ∧ r.head =
       false) ∧
    (let s : State := on { dev0 with ring := { ports := ⟨#[{ link := .member }, {}], rfl⟩, head := true } }
     let dt : Nat := 0
     let p : Port := .e
     let f : BitVec 512 := 9
     let d := (s.elapse dt).dev
     let r := d.ring
     (s.elapse dt).dev.alive = true ∧ (d.port (portNo p)).live = true ∧ r.seen.contains (topoKey f) = false ∧ fld f 7 0 = 9 ∧ r.head =
       true) ∧
    (let s : State := on { dev0 with ring := { ports := ⟨#[{ link := .member }, {}], rfl⟩, granted := true } }
     let dt : Nat := 0
     let p : Port := .e
     let f : BitVec 512 := 10
     let d := (s.elapse dt).dev
     let r := d.ring
     (s.elapse dt).dev.alive = true ∧ (d.port (portNo p)).live = true ∧ r.seen.contains (topoKey f) = false ∧ fld f 7 0 = 10 ∧ r.head =
       false ∧ r.granted = true) ∧
    (let s : State := on { dev0 with ring := { ports := ⟨#[{ link := .member }, {}], rfl⟩ } }
     let dt : Nat := 0
     let p : Port := .e
     let f : BitVec 512 := 1
     let d := (s.elapse dt).dev
     let r := d.ring
     (s.elapse dt).dev.alive = true ∧ (d.port (portNo p)).live = true ∧ r.seen.contains (topoKey f) = false ∧ fld f 7 0 = 1 ∧ (r.head =
       false ∨ r.grantNumber (.ofNat 64 (topoBody f 63 0)) (topoBody f 71 64) = none)) ∧
    (let s : State := on { dev0 with ring := { ports := ⟨#[{ link := .member }, {}], rfl⟩ } }
     let dt : Nat := 0
     let p : Port := .e
     let f : BitVec 512 := 11
     let d := (s.elapse dt).dev
     let r := d.ring
     (s.elapse dt).dev.alive = true ∧ (d.port (portNo p)).live = true ∧ r.seen.contains (topoKey f) = false ∧ fld f 7 0 = 11 ∧ r.headUid =
       .ofNat 64 (topoBody f 63 0) ∧ r.head = false) ∧
    (let s : State := s0
     let dt : Nat := 0
     let p : Port := .e
     let f : BitVec 512 := 0
     let d := (s.elapse dt).dev
     let stale := fun (type : Nat) => (d.port (portNo p)).live = false ∨ fld f 7 0 ≠ type ∨ d.ring.seen.contains (topoKey f) = true
     stale 1) ∧
    (let s : State := s0
     let dt : Nat := 0
     let p : Port := .e
     let f : BitVec 512 := 0
     let d := (s.elapse dt).dev
     let stale := fun (type : Nat) => (d.port (portNo p)).live = false ∨ fld f 7 0 ≠ type ∨ d.ring.seen.contains (topoKey f) = true
     stale 2) ∧
    (let s : State := s0
     let dt : Nat := 0
     let p : Port := .e
     let f : BitVec 512 := 0
     let d := (s.elapse dt).dev
     let stale := fun (type : Nat) => (d.port (portNo p)).live = false ∨ fld f 7 0 ≠ type ∨ d.ring.seen.contains (topoKey f) = true
     stale 3) ∧
    (let s : State := s0
     let dt : Nat := 0
     let p : Port := .e
     let f : BitVec 512 := 0
     let d := (s.elapse dt).dev
     let stale := fun (type : Nat) => (d.port (portNo p)).live = false ∨ fld f 7 0 ≠ type ∨ d.ring.seen.contains (topoKey f) = true
     stale 4) ∧
    (let s : State := s0
     let dt : Nat := 0
     let p : Port := .e
     let f : BitVec 512 := 0
     let d := (s.elapse dt).dev
     let stale := fun (type : Nat) => (d.port (portNo p)).live = false ∨ fld f 7 0 ≠ type ∨ d.ring.seen.contains (topoKey f) = true
     stale 5) ∧
    (let s : State := s0
     let dt : Nat := 0
     let p : Port := .e
     let f : BitVec 512 := 0
     let d := (s.elapse dt).dev
     let stale := fun (type : Nat) => (d.port (portNo p)).live = false ∨ fld f 7 0 ≠ type ∨ d.ring.seen.contains (topoKey f) = true
     stale 6) ∧
    (let s : State := s0
     let dt : Nat := 0
     let p : Port := .e
     let f : BitVec 512 := 0
     let d := (s.elapse dt).dev
     let stale := fun (type : Nat) => (d.port (portNo p)).live = false ∨ fld f 7 0 ≠ type ∨ d.ring.seen.contains (topoKey f) = true
     stale 7) ∧
    (let s : State := s0
     let dt : Nat := 0
     let p : Port := .e
     let f : BitVec 512 := 0
     let d := (s.elapse dt).dev
     let stale := fun (type : Nat) => (d.port (portNo p)).live = false ∨ fld f 7 0 ≠ type ∨ d.ring.seen.contains (topoKey f) = true
     stale 8) ∧
    (let s : State := s0
     let dt : Nat := 0
     let p : Port := .e
     let f : BitVec 512 := 0
     let d := (s.elapse dt).dev
     let stale := fun (type : Nat) => (d.port (portNo p)).live = false ∨ fld f 7 0 ≠ type ∨ d.ring.seen.contains (topoKey f) = true
     stale 9) ∧
    (let s : State := s0
     let dt : Nat := 0
     let p : Port := .e
     let f : BitVec 512 := 0
     let d := (s.elapse dt).dev
     let stale := fun (type : Nat) => (d.port (portNo p)).live = false ∨ fld f 7 0 ≠ type ∨ d.ring.seen.contains (topoKey f) = true
     stale 10) ∧
    (let s : State := s0
     let dt : Nat := 0
     let p : Port := .e
     let f : BitVec 512 := 0
     let d := (s.elapse dt).dev
     let stale := fun (type : Nat) => (d.port (portNo p)).live = false ∨ fld f 7 0 ≠ type ∨ d.ring.seen.contains (topoKey f) = true
     stale 11) := by
  refine ⟨?_, ?_, ?_, ?_, ?_, ?_, ?_, ?_, ?_, ?_, ?_, ?_, ?_, ?_, ?_, ?_, ?_, ?_, ?_, ?_, ?_, ?_, ?_, ?_, ?_, ?_, ?_⟩ <;> decide +kernel

theorem witness_RingTimers :
    (let s : State := on { dev0 with ring := { ports := ⟨#[{ link := .member }, {}], rfl⟩, sfSinceHead := 64 } }
     let dt : Nat := 0
     let d := (s.elapse dt).dev
     let r := d.ring
     (s.elapse dt).dev.alive = true ∧ d.headSeen = false ∧ 64 ≤ r.sfSinceHead ∧ r.electing = false ∧ (d.port 0).live = true) ∧
    (let s : State := on { dev0 with ring := { electing := true, sfSinceElect := 64, headCap := 1, best := some (1, Config.uid) } }
     let dt : Nat := 0
     let d := (s.elapse dt).dev
     let r := d.ring
     (s.elapse dt).dev.alive = true ∧ r.electing = true ∧ d.headSeen = false ∧ 64 ≤ r.sfSinceElect ∧ r.headCap ≠ 0 ∧ r.best = some
       (r.headCap, Config.uid)) ∧
    (let s : State := on { dev0 with ring := { electing := true } }
     let dt : Nat := 0
     let d := (s.elapse dt).dev
     let r := d.ring
     (s.elapse dt).dev.alive = true ∧ d.headSeen = false ∧ r.electing = true ∧ r.best = none ∧ r.noHeadAt ≤ d.now) ∧
    (let s : State := on { dev0 with ring := { hops := 1, joinAt := some 0 } }
     let dt : Nat := 0
     let d := (s.elapse dt).dev
     let r := d.ring
     let t := 0
     (s.elapse dt).dev.alive = true ∧ r.granted = false ∧ d.headSeen = true ∧ r.joinAt = some t ∧ t ≤ d.now) ∧
    (let s : State := on { dev0 with ring := { held := [⟨0, 3, 0⟩] } }
     let dt : Nat := 0
     let node : Fin 32 := 3
     let d := (s.elapse dt).dev
     let r := d.ring
     (s.elapse dt).dev.alive = true ∧ r.held.any (fun h => h.node == node.val && decide (h.until_ ≤ d.now)) = true) ∧
    (let s : State := on { dev0 with ring := { head := true } }
     let dt : Nat := 0
     let d := (s.elapse dt).dev
     let r := d.ring
     (s.elapse dt).dev.alive = true ∧ r.head = true ∧ r.membersAt ≤ d.now) ∧
    (let s : State := on { dev0 with ring := { head := true }, fire := { cal := some 0 } }
     let dt : Nat := 0
     let d := (s.elapse dt).dev
     let r := d.ring
     (s.elapse dt).dev.alive = true ∧ r.head = true ∧ r.calendarAt ≤ d.now ∧ d.fire.cal ≠ none) ∧
    (let s : State := on { dev0 with ring := { ports := ⟨#[{ fn := { st := .stopping } }, {}], rfl⟩ } }
     let dt : Nat := 0
     let p : Port := .e
     let d := (s.elapse dt).dev
     let r := d.ring
     let x := d.port (portNo p)
     (s.elapse dt).dev.alive = true ∧ x.fn.st = .stopping ∧ x.live = false ∧ r.onring = false ∧ r.granted = false) ∧
    (let s : State := on { dev0 with ring := { ports := ⟨#[{ fn := { st := .stopping }, link := .member }, {}], rfl⟩ } }
     let dt : Nat := 0
     let p : Port := .e
     let d := (s.elapse dt).dev
     let x := d.port (portNo p)
     (s.elapse dt).dev.alive = true ∧ x.fn.st = .stopping ∧ x.live = true ∧ ((x.x9 = [] ∧ x.x8 = [] ∧ x.left = 0) ∨ x.fn.stopBy ≤ d.now)) ∧
    (let s : State := on
         { dev0 with ring := { ports := ⟨#[{ fn := { st := .stopping, stopBy := 9 }, link := .member, left := 1 }, {}], rfl⟩ } }
     let dt : Nat := 0
     let p : Port := .e
     let d := (s.elapse dt).dev
     let x := d.port (portNo p)
     (s.elapse dt).dev.alive = true ∧ x.fn.st = .stopping ∧ x.live = true ∧ (x.x9 ≠ [] ∨ x.x8 ≠ [] ∨ x.left ≠ 0) ∧ d.now < x.fn.stopBy) ∧
    (let s : State := s0
     let dt : Nat := 0
     let p : Port := .e
     let d := (s.elapse dt).dev
     let x := d.port (portNo p)
     (s.elapse dt).dev.alive = true ∧ x.fn.st ≠ .stopping) ∧
    (let s : State := s0
     let dt : Nat := 0
     let p : Port := .e
     let f : BitVec 512 := 0
     let d := (s.elapse dt).dev
     let x := d.port (portNo p)
     (s.elapse dt).dev.alive = true ∧ (x.live = false ∨ fld f 7 0 = 0)) ∧
    (let s : State := on { dev0 with ring := { ports := ⟨#[{ link := .member }, {}], rfl⟩ } }
     let dt : Nat := 0
     let p : Port := .e
     let f : BitVec 512 := 1 + 3 * 2 ^ 114
     let d := (s.elapse dt).dev
     let r := d.ring
     let x := d.port (portNo p)
     (s.elapse dt).dev.alive = true ∧ x.live = true ∧ fld f 7 0 = 1 ∧ fld f 113 109 = r.node ∧ d.qs.subs = []) ∧
    (let s : State := on
         { dev0 with ring := { ports := ⟨#[{ link := .member }, {}], rfl⟩, closed := true, members := [⟨0, 0, 0⟩, ⟨3, 3, 0⟩] }, qs := { qs := [(20, { cfg := 1 })], subs := [{ queue := 20, who := 3, st := .active, lease := none }] } }
     let dt : Nat := 0
     let p : Port := .e
     let f : BitVec 512 := 1 + 5 * 2 ^ 64
     let d := (s.elapse dt).dev
     let r := d.ring
     let x := d.port (portNo p)
     let y : Sub := { queue := 20, who := 3, st := .active, lease := none }
     (s.elapse dt).dev.alive = true ∧ x.live = true ∧ fld f 7 0 = 1 ∧ fld f 113 109 = r.node ∧ d.qs.subs = [y] ∧ y.who < 32 ∧ y.st ≠
       .suspended ∧ (d.queue y.queue).deliverQ = fld f 127 114 ∧ (d.queue y.queue).cls = 1 ∧ (d.queue y.queue).inbound = false ∧ (r.dirTo
       y.queue y.who y.west).any (fun w => r.portOf w == portNo p) = true) ∧
    (let s : State := on
         { dev0 with ring := { ports := ⟨#[{ link := .member }, {}], rfl⟩, closed := true, members := [⟨0, 0, 0⟩, ⟨3, 3, 0⟩] } }
     let dt : Nat := 0
     let p : Port := .e
     let f : BitVec 512 := 1 + 5 * 2 ^ 64 + 3 * 2 ^ 109
     let d := (s.elapse dt).dev
     let r := d.ring
     let x := d.port (portNo p)
     let w := false
     (s.elapse dt).dev.alive = true ∧ x.live = true ∧ fld f 7 0 = 1 ∧ fld f 113 109 ≠ r.node ∧ fld f 95 64 ≠ 0 ∧ r.shortWest (fld f 113
       109) = some w) := by
  refine ⟨?_, ?_, ?_, ?_, ?_, ?_, ?_, ?_, ?_, ?_, ?_, ?_, ?_, ?_, ?_⟩ <;> decide +kernel

theorem witness_FramesOnTheRing :
    (let s : State := s0
     let dt : Nat := 0
     let p : Port := .e
     let d := (s.elapse dt).dev
     let x := d.port (portNo p)
     (s.elapse dt).dev.alive = true ∧ x.active = false) ∧
    (let s : State := on { dev0 with ring := { ports := ⟨#[{ fn := { st := .on }, link := .member, left := 315 }, {}], rfl⟩ } }
     let dt : Nat := 0
     let p : Port := .e
     let d := (s.elapse dt).dev
     let r := d.ring
     let x := d.port (portNo p)
     (s.elapse dt).dev.alive = true ∧ x.active = true ∧ x.live = true ∧ r.head = false ∧ r.reqs = [] ∧ 315 ≤ x.left) ∧
    (let s : State := on { dev0 with ring := { ports := ⟨#[{ fn := { st := .on }, link := .linked }, {}], rfl⟩ } }
     let dt : Nat := 0
     let p : Port := .e
     let d := (s.elapse dt).dev
     let r := d.ring
     let x := d.port (portNo p)
     (s.elapse dt).dev.alive = true ∧ x.active = true ∧ x.live = true ∧ x.joined = false ∧ r.head = false ∧ r.reqs = [] ∧ x.left < 315) ∧
    (let s : State := on { dev0 with ring := { ports := ⟨#[{ fn := { st := .on }, link := .member }, {}], rfl⟩ } }
     let dt : Nat := 0
     let p : Port := .e
     let d := (s.elapse dt).dev
     let r := d.ring
     let x := d.port (portNo p)
     (s.elapse dt).dev.alive = true ∧ x.active = true ∧ x.joined = true ∧ r.head = false ∧ r.reqs = [] ∧ x.left < 315) ∧
    (let s : State := s0
     let dt : Nat := 0
     let p : Port := .e
     let d := (s.elapse dt).dev
     let x := d.port (portNo p)
     (s.elapse dt).dev.alive = true ∧ x.live = false) ∧
    (let s : State := on { dev0 with ring := { ports := ⟨#[{ link := .member }, {}], rfl⟩ } }
     let dt : Nat := 0
     let p : Port := .e
     let hdr : BitVec 128 := 1
     let d := (s.elapse dt).dev
     let x := d.port (portNo p)
     let good := hcrc hdr.toNat = fld hdr 15 0
     (s.elapse dt).dev.alive = true ∧ x.live = true ∧ (¬ good)) ∧
    (let s : State := on { dev0 with ring := { ports := ⟨#[{ link := .member, x6 := [⟨0, ⟨65536, 0⟩⟩] }, {}], rfl⟩, onring := true } }
     let dt : Nat := 0
     let p : Port := .e
     let hdr : BitVec 128 := frameHeader 1 0 5 3 0 false false 0 false 0
     let d := (s.elapse dt).dev
     let r := d.ring
     let x := d.port (portNo p)
     let good := hcrc hdr.toNat = fld hdr 15 0
     (s.elapse dt).dev.alive = true ∧ x.live = true ∧ good ∧ r.onring = true ∧ (¬(r.granted = true ∧ fld hdr 81 77 = r.node)) ∧ fld hdr 76
       72 ≠ 0 ∧ bit hdr (96 + r.node) = true ∧ 65536 < x.received + 16 + fld hdr 71 59) ∧
    (let s : State := on { dev0 with ring := { ports := ⟨#[{ link := .member }, {}], rfl⟩, granted := true } }
     let dt : Nat := 0
     let p : Port := .e
     let hdr : BitVec 128 := frameHeader 1 0 0 1 0 false false 0 false 0
     let d := (s.elapse dt).dev
     let r := d.ring
     let x := d.port (portNo p)
     let good := hcrc hdr.toNat = fld hdr 15 0
     (s.elapse dt).dev.alive = true ∧ good ∧ ((r.granted = true ∧ fld hdr 81 77 = r.node) ∨ fld hdr 76 72 = 0) ∧ x.live = true) ∧
    (let s : State := on { dev0 with ring := { ports := ⟨#[{ link := .member }, {}], rfl⟩, onring := true } }
     let dt : Nat := 0
     let p : Port := .e
     let hdr : BitVec 128 := frameHeader 1 0 5 3 0 false false 0 false 0
     let d := (s.elapse dt).dev
     let r := d.ring
     let x := d.port (portNo p)
     let good := hcrc hdr.toNat = fld hdr 15 0
     (s.elapse dt).dev.alive = true ∧ x.live = true ∧ good ∧ r.onring = true ∧ fld hdr 81 77 ≠ r.node ∧ fld hdr 76 72 ≠ 0 ∧ bit hdr (96 +
       r.node) = true ∧ r.node < 32 ∧ x.received + 16 + fld hdr 71 59 ≤ 65536) := by
  refine ⟨?_, ?_, ?_, ?_, ?_, ?_, ?_, ?_, ?_⟩ <;> decide +kernel

theorem witness_RepliesAndReports :
    (let s : State := on
         { dev0 with wcp := { replies := [{ node := 3, queue := 0, msg := Bytes.nil, since := 0, nextTry := 0, first := true }] } }
     let dt : Nat := 100 * ms
     let r : Reply := { node := 3, queue := 0, msg := Bytes.nil, since := 0, nextTry := 0, first := true }
     let rest : List Reply := []
     let t := s.elapse dt
     let d := t.dev
     (s.elapse dt).dev.alive = true ∧ s.dev.ready = true ∧ d.wcp.replies = r :: rest ∧ r.node ≠ d.ring.node ∧ r.nextTry ≤ d.now ∧ r.since
       + 100 * ms ≤ d.now) ∧
    (let s : State := on
         { dev0 with wcp := { replies := [{ node := 3, queue := 0, msg := Bytes.nil, since := 0, nextTry := 0, first := true }] } }
     let dt : Nat := 0
     let r : Reply := { node := 3, queue := 0, msg := Bytes.nil, since := 0, nextTry := 0, first := true }
     let rest : List Reply := []
     let t := s.elapse dt
     let d := t.dev
     (s.elapse dt).dev.alive = true ∧ s.dev.ready = true ∧ d.wcp.replies = r :: rest ∧ r.node ≠ d.ring.node ∧ r.nextTry ≤ d.now ∧ d.now <
       r.since + 100 * ms) ∧
    (let s : State := on
         { dev0 with wcp := { replies := [{ node := 0, queue := 0, msg := Bytes.nil, since := 0, nextTry := 0, first := true }] } }
     let dt : Nat := 0
     let r : Reply := { node := 0, queue := 0, msg := Bytes.nil, since := 0, nextTry := 0, first := true }
     let rest : List Reply := []
     let t := s.elapse dt
     let d := t.dev
     (s.elapse dt).dev.alive = true ∧ s.dev.ready = true ∧ d.wcp.replies = r :: rest ∧ r.node = d.ring.node ∧ r.nextTry ≤ d.now) ∧
    (let s : State := on
         { dev0 with wcp := { replies := [{ node := 0, queue := 0, msg := Bytes.nil, since := 0, nextTry := 5, first := true }] } }
     let dt : Nat := 0
     let r : Reply := { node := 0, queue := 0, msg := Bytes.nil, since := 0, nextTry := 5, first := true }
     let rest : List Reply := []
     let t := s.elapse dt
     let d := t.dev
     (s.elapse dt).dev.alive = true ∧ d.wcp.replies = r :: rest ∧ d.now < r.nextTry ∧ r.node = d.ring.node) ∧
    (let s : State := s0
     let dt : Nat := 0
     let t := s.elapse dt
     let d := t.dev
     (s.elapse dt).dev.alive = true ∧ d.wcp.replies = []) ∧
    (let s : State := mail dev1 (hdr 0x01FF 0 1 0 371064636247480204) Bytes.nil
     let dt : Nat := 0
     let o : Origin := .mailbox 0
     let e : Env := ⟨hdr 0x01FF 0 1 0 371064636247480204, ⟨0, 0⟩, .spi, false⟩
     let t := s.elapse dt
     let d := t.dev
     (s.elapse dt).dev.alive = true ∧ Offered o (cmdUndefined e.id) e t ∧ definedIds.contains e.id = false ∧ Authentic e d) ∧
    (let s : State := mail dev1 (hdr 0x0247 0 1 4 0) ⟨4, 7⟩
     let dt : Nat := 0
     let o : Origin := .mailbox 0
     let e : Env := ⟨hdr 0x0247 0 1 4 0, ⟨4, 7⟩, .spi, false⟩
     let t := s.elapse dt
     (s.elapse dt).dev.alive = true ∧ t.envelope o = some e ∧ definedIds.contains e.id = true) ∧
    (let s : State := on { dev0 with wcp := { limits := [⟨1, 2, 0, 100, 5, 0, 0, 0⟩] } }
     let dt : Nat := 0
     let ev : BitVec 16 := 1
     let source : BitVec 16 := 2
     let sub : Nat := 0
     let l : Limit := ⟨1, 2, 0, 100, 5, 0, 0, 0⟩
     let t := s.elapse dt
     let d := t.dev
     (s.elapse dt).dev.alive = true ∧ d.wcp.limits.find? (fun x => x.is ev.toNat source.toNat sub) = some l ∧ d.now < l.until_) ∧
    (let s : State := on { dev0 with wcp := { limits := [⟨1, 2, 0, 100, 0, 0, 0, 0⟩] } }
     let dt : Nat := 0
     let ev : BitVec 16 := 1
     let source : BitVec 16 := 2
     let sub : Nat := 0
     let l : Limit := ⟨1, 2, 0, 100, 0, 0, 0, 0⟩
     let t := s.elapse dt
     let d := t.dev
     (s.elapse dt).dev.alive = true ∧ d.Unstreamed ∧ d.wcp.limits.find? (fun x => x.is ev.toNat source.toNat sub) = some l ∧ l.until_ ≤
       d.now) := by
  refine ⟨?_, ?_, ?_, ?_, ?_, ?_, ?_, ?_, ?_⟩
  · decide +kernel
  · decide +kernel
  · decide +kernel
  · decide +kernel
  · decide +kernel
  · repeat' (first | decide +kernel | exact rfl | constructor)
  · decide +kernel
  · decide +kernel
  · repeat' (first | decide +kernel | exact rfl | constructor)

theorem witness_ResetsKeepWhatIsStored :
    (let s : State := on { dev0 with wcp := { resetAt := some (1, .commanded) } }
     let dt : Nat := 1
     let cause : Cause := .commanded
     let d := (s.elapse dt).dev
     let t := 1
     d.alive = true ∧ d.wcp.resetAt = some (t, cause) ∧ t ≤ d.now) ∧
    (let s : State := on { dev0 with wcp := { resetAt := some (1, .commanded) } }
     let dt : Nat := 0
     let cause : Cause := .commanded
     let d := (s.elapse dt).dev
     let t := 1
     d.wcp.resetAt = some (t, cause) ∧ d.now < t) ∧
    (let s : State := s0
     let dt : Nat := 0
     let d := (s.elapse dt).dev
     d.wcp.resetAt = none) ∧
    (let s : State := s0
     let dt : Nat := 0
     let cause : Cause := .lockstep
     let d := (s.elapse dt).dev
     d.alive = true ∧ causeShuts cause = false ∧ cause ≠ .por) ∧
    (let s : State := s0
     let dt : Nat := 0
     let cause : Cause := .por
     let d := (s.elapse dt).dev
     (d.alive = false ∨ causeShuts cause = true ∨ cause = .por)) ∧
    (let s : State := on { dev0 with power := { core := .off } }
     let dt : Nat := 0
     let d := (s.elapse dt).dev
     d.alive = false) ∧
    (let s : State := on { dev0 with power := { core := .reset } }
     let dt : Nat := 0
     let d := (s.elapse dt).dev
     d.power.core = .reset) ∧
    (let s : State := s0
     let dt : Nat := 0
     let d := (s.elapse dt).dev
     d.power.core = .run) ∧
    (let s : State := on { dev0 with power := { core := .standby, rstPin := true } }
     let dt : Nat := 0
     let d := (s.elapse dt).dev
     d.power.core = .standby ∧ d.power.rstPin = true ∧ d.power.offUntil ≤ d.now) := by
  refine ⟨?_, ?_, ?_, ?_, ?_, ?_, ?_, ?_, ?_⟩ <;> decide +kernel

theorem witness_BootAndRestart :
    (let s : State := State.reset
     let dt : Nat := 0
     let d := (s.elapse dt).dev
     d.power.core = .boot ∧ d.ready = false) ∧
    (let s : State := s0
     let dt : Nat := 0
     let d := (s.elapse dt).dev
     (d.power.core ≠ .boot ∨ d.ready = true)) ∧
    (let s : State := s0
     let dt : Nat := 0
     let f : FnId := .fire
     let d := (s.elapse dt).dev
     (d.getFn f).restartDue d.now = false) ∧
    (let s : State := on { dev0 with qs := { qs := [(20, { fn := { restart := true } })] } }
     let dt : Nat := 0
     let q : Fin 16384 := 20
     let d := (s.elapse dt).dev
     d.alive = true ∧ d.Unstreamed ∧ d.wcp.waits = [] ∧ (d.queue q.val).fn.restartDue d.now = true ∧ d.startBarred (.queue q) = false) ∧
    (let s : State := on { dev0 with fire := { fn := { restart := true } } }
     let dt : Nat := 0
     let d := (s.elapse dt).dev
     d.alive = true ∧ d.fire.fn.restartDue d.now = true ∧ d.startBarred .fire = true) := by
  refine ⟨?_, ?_, ?_, ?_, ?_⟩
  · decide +kernel
  · decide +kernel
  · decide +kernel
  · repeat' (first | decide +kernel | exact rfl | constructor)
  · decide +kernel

theorem witness_CalibrationRuns :
    (let s : State := on { dev0 with rx := { gapPasses := 24 }, bist := { gap := some 0 } }
     let dt : Nat := 0
     let d := (s.elapse dt).dev
     let c := d.cal
     (s.elapse dt).dev.alive = true ∧ d.rx.survey = none ∧ d.surveyPasses ≤ d.rx.gapPasses ∧ d.bist.run = none ∧ d.timingSlice = false ∧
       c.passDone = false ∧ c.passRun = none ∧ d.gapRoom (15 * us) = true) ∧
    (let s : State := s0
     let dt : Nat := 0
     let d := (s.elapse dt).dev
     let c := d.cal
     (s.elapse dt).dev.alive = true ∧ (d.gapRoom (15 * us) = false ∨ c.passDone = true ∨ c.passRun ≠ none ∨ d.timingSlice = true ∨
       d.bist.run ≠ none)) ∧
    (let s : State := on { dev0 with cal := { passRun := some 0 } }
     let dt : Nat := 15 * us
     let d := (s.elapse dt).dev
     let c := d.cal
     let t := 0
     (s.elapse dt).dev.alive = true ∧ c.passRun = some t ∧ t + 15 * us ≤ d.now) ∧
    (let s : State := on { dev0 with cal := { passRun := some 0 } }
     let dt : Nat := 15 * us - 1
     let d := (s.elapse dt).dev
     let c := d.cal
     let t := 0
     (s.elapse dt).dev.alive = true ∧ c.passRun = some t ∧ d.now < t + 15 * us) ∧
    (let s : State := on { dev0 with fire := { fn := { st := .on } } }
     let dt : Nat := second
     let d := (s.elapse dt).dev
     let c := d.cal
     (s.elapse dt).dev.alive = true ∧ d.fire.fn.st = .on ∧ c.stale = false ∧ max (c.lastPass.getD 0) d.fire.onAt + second ≤ d.now) ∧
    (let s : State := s0
     let dt : Nat := 0
     let d := (s.elapse dt).dev
     (s.elapse dt).dev.alive = true ∧ (d.fire.fn.st ≠ .on ∨ d.now < d.fire.onAt + second)) ∧
    (let s : State := on { dev0 with cal := { full := some { par := 0, merged := 8 } } }
     let dt : Nat := 0
     let f : FullCal := { par := 0, merged := 8 }
     let d := (s.elapse dt).dev
     let c := d.cal
     (s.elapse dt).dev.alive = true ∧ c.full = some f ∧ fcFrames f.par ≤ f.merged ∧ d.calOpen = false) ∧
    (let s : State := on { dev0 with cal := { full := some { par := 0, merged := 7 } } }
     let dt : Nat := 0
     let f : FullCal := { par := 0, merged := 7 }
     let d := (s.elapse dt).dev
     let c := d.cal
     (s.elapse dt).dev.alive = true ∧ c.full = some f ∧ (f.merged < fcFrames f.par ∨ d.calOpen = true)) := by
  refine ⟨?_, ?_, ?_, ?_, ?_, ?_, ?_, ?_⟩ <;> decide +kernel

theorem witness_UnitsSubscribersAndCredits :
    (let s : State := s0
     let dt : Nat := 0
     let q : Fin 16384 := 0
     let data : Bytes := Bytes.nil
     let d := (s.elapse dt).dev
     let x := d.queue q.val
     (s.elapse dt).dev.alive = true ∧ (x.bound = none ∨ x.inbound = true ∨ data.len = 0)) ∧
    (let s : State := s0
     let dt : Nat := 0
     let p : Port := .e
     let d := (s.elapse dt).dev
     (s.elapse dt).dev.alive = true ∧ (d.port (portNo p)).x6 = []) ∧
    (let s : State := s0
     let dt : Nat := 0
     let q : Fin 16384 := 0
     let src : Fin 32 := 0
     let d := (s.elapse dt).dev
     let x := d.queue q.val
     (s.elapse dt).dev.alive = true ∧ ((x.partial_ src.val).open_ = false ∨ d.now < (x.partial_ src.val).at_ + 10 * ms)) ∧
    (let s : State := s0
     let dt : Nat := 0
     let q : Fin 16384 := 0
     let who : Fin 33 := 0
     let d := (s.elapse dt).dev
     let x := d.queue q.val
     (s.elapse dt).dev.alive = true ∧ x.units.find? (fun y => y.active.contains who.val && y.gone.contains who.val) = none ∧ x.fn.st ≠
       .stopping ∧ (∀ z, d.qs.sub? q.val who.val = some z → z.st ≠ .ending)) ∧
    (let s : State := s0
     let dt : Nat := 0
     let q : Fin 16384 := 0
     let who : Fin 33 := 0
     let d := (s.elapse dt).dev
     (s.elapse dt).dev.alive = true ∧ d.qs.sub? q.val who.val = none) ∧
    (let s : State := s0
     let dt : Nat := 0
     let q : Fin 16384 := 0
     let d := (s.elapse dt).dev
     let x := d.queue q.val
     (s.elapse dt).dev.alive = true ∧ (x.fn.st ≠ .stopping ∨ (x.units ≠ [] ∧ d.now < x.fn.stopBy))) ∧
    (let s : State := on { dev0 with qs := { qs := [(20, { bound := some .points })] } }
     let dt : Nat := 0
     let q : Fin 16384 := 20
     let b : Binder := .points
     let data : Bytes := ⟨1, 0⟩
     let d := (s.elapse dt).dev
     let x := d.queue q.val
     (s.elapse dt).dev.alive = true ∧ d.Unstreamed ∧ d.wcp.waits = [] ∧ x.bound = some b ∧ x.inbound = false ∧ data.len ≠ 0 ∧ x.fn.st ≠
       .on) ∧
    (let s : State := on
         { dev0 with qs := { qs := [(20, { fn := { st := .on }, bound := some .points, cfg := fields [(80, 10), (48, 10), (32, 10)] })], subs := [{ queue := 20, who := 32, st := .active, lease := none }] } }
     let dt : Nat := 0
     let q : Fin 16384 := 20
     let who : Fin 33 := 0
     let b : Binder := .points
     let flags : Nat := 0
     let recsize : Nat := 0
     let records : Nat := 0
     let info : Nat := 0
     let data : Bytes := ⟨2528, 0⟩
     let d := (s.elapse dt).dev
     let x := d.queue q.val
     let whole := match b.streamType with
       | none => data
       | some type => (d.streamHeader d.time.ns.toNat q.val x.useq flags (32 + data.len) type recsize records info).app data
     let kept := ∀ z ∈ x.units, ∀ w ∈ z.active, w ∉ z.gone
     (s.elapse dt).dev.alive = true ∧ d.Unstreamed ∧ d.wcp.waits = [] ∧ x.bound = some b ∧ x.inbound = false ∧ data.len ≠ 0 ∧ kept ∧
       x.fn.st = .on ∧ d.qs.activeSubs q.val ≠ [] ∧ ceilDiv whole.len 256 ≤ x.maxUnit ∧ x.held + x.newCells whole.len ≤ x.cap ∧ x.held +
       x.newCells whole.len ≤ x.reserve) ∧
    (let s : State := on { dev0 with ring := { ports := ⟨#[{ x6 := [⟨fields [(82, 20), (58, 1), (57, 1)], ⟨8, 1⟩⟩] }, {}], rfl⟩ } }
     let dt : Nat := 0
     let q : Fin 16384 := 20
     let p : Port := .e
     let d := (s.elapse dt).dev
     let x := d.queue q.val
     let f := ⟨fields [(82, 20), (58, 1), (57, 1)], ⟨8, 1⟩⟩
     let rest := []
     (s.elapse dt).dev.alive = true ∧ d.Unstreamed ∧ d.wcp.waits = [] ∧ (d.port (portNo p)).x6 = f :: rest ∧ fld f.hdr 95 82 = q.val ∧
       x.fn.st ≠ .on) ∧
    (let s : State := on
         { dev0 with qs := { qs := [(20, { fn := { st := .on }, cfg := fields [(80, 10), (48, 10), (32, 10), (16, 1)] })] }, ring := { ports := ⟨#[{ x6 := [⟨fields [(82, 20), (58, 1), (57, 1)], ⟨8, 1⟩⟩] }, {}], rfl⟩ } }
     let dt : Nat := 0
     let q : Fin 16384 := 20
     let p : Port := .e
     let d := (s.elapse dt).dev
     let x := d.queue q.val
     let f := ⟨fields [(82, 20), (58, 1), (57, 1)], ⟨8, 1⟩⟩
     let rest := []
     (s.elapse dt).dev.alive = true ∧ d.Unstreamed ∧ d.wcp.waits = [] ∧ (d.port (portNo p)).x6 = f :: rest ∧ fld f.hdr 95 82 = q.val ∧ 16
       ≤ q.val ∧ x.fn.st = .on ∧ x.inbound = true ∧ x.cls = 0 ∧ x.partials = [] ∧ bit f.hdr 58 = true ∧ bit f.hdr 57 = true ∧ ceilDiv
       f.data.len 256 ≤ x.maxUnit ∧ x.held + x.newCells f.data.len ≤ x.cap ∧ x.held + x.newCells f.data.len ≤ x.reserve) ∧
    (let s : State := on { dev0 with qs := { qs := [(20, { partials := [⟨3, Bytes.nil, [], 0, [], [], true, none, 0, none⟩] })] } }
     let dt : Nat := 10 * ms
     let q : Fin 16384 := 20
     let src : Fin 32 := 3
     let d := (s.elapse dt).dev
     let x := d.queue q.val
     (s.elapse dt).dev.alive = true ∧ d.Unstreamed ∧ d.wcp.waits = [] ∧ (x.partial_ src.val).open_ = true ∧ (x.partial_ src.val).src =
       src.val ∧ (x.partial_ src.val).at_ + 10 * ms ≤ d.now) ∧
    (let s : State := on
         { dev0 with qs := { qs := [(20, { units := [{ useq := 0, data := ⟨8, 1⟩, cells := [0], off := 0, descs := [0], times := [0], src := 0, active := [5], begun := [], gone := [5] }] })] } }
     let dt : Nat := 0
     let q : Fin 16384 := 20
     let who : Fin 33 := 5
     let src : Fin 32 := 0
     let data : Bytes := Bytes.nil
     let d := (s.elapse dt).dev
     let x := d.queue q.val
     let y :=
         { useq := 0, data := ⟨8, 1⟩, cells := [0], off := 0, descs := [0], times := [0], src := 0, active := [5], begun := [], gone := [5] }
     (s.elapse dt).dev.alive = true ∧ d.Unstreamed ∧ d.wcp.waits = [] ∧ x.units.find? (fun y => y.active.contains who.val &&
       y.gone.contains who.val) = some y) ∧
    (let s : State := on
         { dev0 with qs := { qs := [(20, { fn := { st := .on } })], subs := [{ queue := 20, who := 5, st := .ending, lease := none }] } }
     let dt : Nat := 0
     let q : Fin 16384 := 20
     let who : Fin 33 := 5
     let d := (s.elapse dt).dev
     let x := d.queue q.val
     let y := { queue := 20, who := 5, st := .ending, lease := none }
     (s.elapse dt).dev.alive = true ∧ d.Unstreamed ∧ d.wcp.waits = [] ∧ x.units.find? (fun y => y.active.contains who.val &&
       y.gone.contains who.val) = none ∧ d.qs.sub? q.val who.val = some y ∧ y.st = .ending ∧ x.units.any (fun z => z.partway who.val) =
       false ∧ x.fn.st ≠ .stopping) ∧
    (let s : State := on
         { dev0 with qs := { qs := [(20, { fn := { st := .on } })], subs := [{ queue := 20, who := 5, st := .active, lease := some 0 }] } }
     let dt : Nat := 0
     let q : Fin 16384 := 20
     let who : Fin 33 := 5
     let d := (s.elapse dt).dev
     let x := d.queue q.val
     let y := { queue := 20, who := 5, st := .active, lease := some 0 }
     let t := 0
     (s.elapse dt).dev.alive = true ∧ d.Unstreamed ∧ d.wcp.waits = [] ∧ d.qs.sub? q.val who.val = some y ∧ y.st ≠ .ending ∧ y.lease = some
       t ∧ t ≤ d.now ∧ x.fn.st ≠ .stopping) ∧
    (let s : State := on { dev0 with qs := { qs := [(20, { fn := { st := .stopping } })] } }
     let dt : Nat := 0
     let q : Fin 16384 := 20
     let d := (s.elapse dt).dev
     let x := d.queue q.val
     (s.elapse dt).dev.alive = true ∧ d.Unstreamed ∧ d.wcp.waits = [] ∧ x.fn.st = .stopping ∧ (x.units = [] ∨ x.fn.stopBy ≤ d.now) ∧
       x.fn.faultStop = false) ∧
    (let s : State := s0
     let dt : Nat := 0
     let q : Fin 16384 := 0
     let node : Fin 32 := 0
     let d := (s.elapse dt).dev
     (s.elapse dt).dev.alive = true ∧ d.qs.sub? q.val node.val = none) ∧
    (let s : State := on
         { dev0 with qs := { qs := [(20, { cfg := fields [(64, 5)] })], subs := [{ queue := 20, who := 3, st := .active, lease := none, stallSince := some 0 }] } }
     let dt : Nat := 0
     let q : Fin 16384 := 20
     let node : Fin 32 := 3
     let x : Sub := { queue := 20, who := 3, st := .active, lease := none, stallSince := some 0 }
     let d := (s.elapse dt).dev
     let y := d.queue q.val
     let t := 0
     (s.elapse dt).dev.alive = true ∧ d.qs.sub? q.val node.val = some x ∧ x.stallSince = some t ∧ d.now < t + y.creditTmo * ms) ∧
    (let s : State := on { dev0 with qs := { qs := [(20, { })], subs := [{ queue := 20, who := 3, st := .active, lease := none }] } }
     let dt : Nat := 0
     let q : Fin 16384 := 20
     let node : Fin 32 := 3
     let x : Sub := { queue := 20, who := 3, st := .active, lease := none }
     let d := (s.elapse dt).dev
     (s.elapse dt).dev.alive = true ∧ d.qs.sub? q.val node.val = some x ∧ (x.reset = none ∨ x.resetZero = true)) ∧
    (let s : State := s0
     let dt : Nat := 0
     let q : Fin 16384 := 0
     let node : Fin 32 := 0
     let d := (s.elapse dt).dev
     let y := d.queue q.val
     (s.elapse dt).dev.alive = true ∧ (y.partial_ node.val).resetAt = none) ∧
    (let s : State := s0
     let dt : Nat := 0
     let d := (s.elapse dt).dev
     (s.elapse dt).dev.alive = true ∧ (d.queue 1).units = []) ∧
    (let s : State := on
         { dev0 with qs := { qs := [(1, { units := [{ useq := 0, data := ⟨8, 0⟩, cells := [0], off := 0, descs := [0], times := [0], src := 3, active := [33], begun := [] }] }), (20, { })] } }
     let dt : Nat := 0
     let v : QUnit :=
         { useq := 0, data := ⟨8, 0⟩, cells := [0], off := 0, descs := [0], times := [0], src := 3, active := [33], begun := [] }
     let rest : List QUnit := []
     let d := (s.elapse dt).dev
     (s.elapse dt).dev.alive = true ∧ (d.queue 1).units = v :: rest ∧ v.data.word 0 ≠ 1) ∧
    (let s : State := on
         { dev0 with qs := { qs := [(1, { units := [{ useq := 0, data := ⟨8, 0⟩, cells := [0], off := 0, descs := [0], times := [0], src := 3, active := [33], begun := [] }] }), (20, { })] } }
     let dt : Nat := 0
     let v : QUnit :=
         { useq := 0, data := ⟨8, 0⟩, cells := [0], off := 0, descs := [0], times := [0], src := 3, active := [33], begun := [] }
     let rest : List QUnit := []
     let d := (s.elapse dt).dev
     (s.elapse dt).dev.alive = true ∧ (d.queue 1).units = v :: rest ∧ v.data.word 0 ≠ 2) ∧
    (let s : State := s0
     let dt : Nat := 0
     let d := (s.elapse dt).dev
     (s.elapse dt).dev.alive = true ∧ (d.qs.evBuf = [] ∨ d.now < d.qs.evSince + ms)) ∧
    (let s : State := on { dev0 with qs := { qs := [(20, { })], eventQ := 20, evBuf := [0] } }
     let dt : Nat := ms
     let q : Fin 16384 := 20
     let d := (s.elapse dt).dev
     let y := d.queue q.val
     (s.elapse dt).dev.alive = true ∧ d.qs.mirrorQ = 0xFFFF ∧ d.qs.eventQ = q.val ∧ d.qs.evBuf ≠ [] ∧ d.qs.evBuf.length ≤ 64 ∧
       d.qs.evSince + ms ≤ d.now ∧ y.fn.st ≠ .on) ∧
    (let s : State := on
         { dev0 with qs := { qs := [(20, { })], subs := [{ queue := 20, who := 3, st := .active, lease := none, stallSince := some 0 }] } }
     let dt : Nat := 0
     let q : Fin 16384 := 20
     let node : Fin 32 := 3
     let x : Sub := { queue := 20, who := 3, st := .active, lease := none, stallSince := some 0 }
     let d := (s.elapse dt).dev
     let y := d.queue q.val
     let t := 0
     (s.elapse dt).dev.alive = true ∧ d.Unstreamed ∧ d.qs.sub? q.val node.val = some x ∧ x.st = .active ∧ x.reset = none ∧ x.stallSince =
       some t ∧ t + y.creditTmo * ms ≤ d.now) ∧
    (let s : State := on
         { dev0 with qs := { qs := [(20, { })], subs := [{ queue := 20, who := 3, st := .active, lease := none, reset := some 0 }] } }
     let dt : Nat := 2 * ms
     let q : Fin 16384 := 20
     let node : Fin 32 := 3
     let x : Sub := { queue := 20, who := 3, st := .active, lease := none, reset := some 0 }
     let d := (s.elapse dt).dev
     let t := 0
     (s.elapse dt).dev.alive = true ∧ d.Unstreamed ∧ d.qs.sub? q.val node.val = some x ∧ x.reset = some t ∧ x.resetZero = false ∧ t + 2 *
       ms ≤ d.now) ∧
    (let s : State := on { dev0 with qs := { qs := [(20, { partials := [⟨3, Bytes.nil, [], 0, [], [], false, none, 0, some 0⟩] })] } }
     let dt : Nat := 2 * ms
     let q : Fin 16384 := 20
     let node : Fin 32 := 3
     let d := (s.elapse dt).dev
     let y := d.queue q.val
     let t := 0
     (s.elapse dt).dev.alive = true ∧ d.Unstreamed ∧ (y.partial_ node.val).resetAt = some t ∧ t + 2 * ms ≤ d.now ∧ (y.partial_
       node.val).src = node.val) ∧
    (let s : State := on
         { dev0 with qs := { qs := [(1, { units := [{ useq := 0, data := ⟨8, 1 + 20 * 2 ^ 32⟩, cells := [0], off := 0, descs := [0], times := [0], src := 3, active := [33], begun := [] }] }), (20, { cfg := 2 ^ 16 })] } }
     let dt : Nat := 0
     let q : Fin 16384 := 20
     let node : Fin 32 := 3
     let v : QUnit :=
         { useq := 0, data := ⟨8, 1 + 20 * 2 ^ 32⟩, cells := [0], off := 0, descs := [0], times := [0], src := 3, active := [33], begun := [] }
     let rest : List QUnit := []
     let d := (s.elapse dt).dev
     let y := d.queue q.val
     (s.elapse dt).dev.alive = true ∧ d.Unstreamed ∧ (d.queue 1).units = v :: rest ∧ v.data.word 0 = 1 ∧ v.data.word 1 = q.val ∧ 2 ≤ q.val
       ∧ y.inbound = true ∧ v.src = node.val ∧ (y.partial_ node.val).src = node.val) ∧
    (let s : State := on
         { dev0 with qs := { qs := [(1, { units := [{ useq := 0, data := ⟨8, 2⟩, cells := [0], off := 0, descs := [0], times := [0], src := 3, active := [33], begun := [] }] }), (20, { cfg := 1 })], subs := [{ queue := 20, who := 3, st := .active, lease := none }] } }
     let dt : Nat := 0
     let q : Fin 16384 := 20
     let node : Fin 32 := 3
     let x : Sub := { queue := 20, who := 3, st := .active, lease := none }
     let v : QUnit :=
         { useq := 0, data := ⟨8, 2⟩, cells := [0], off := 0, descs := [0], times := [0], src := 3, active := [33], begun := [] }
     let rest : List QUnit := []
     let d := (s.elapse dt).dev
     (s.elapse dt).dev.alive = true ∧ d.Unstreamed ∧ (d.queue 1).units = v :: rest ∧ v.data.word 0 = 2 ∧ v.src = node.val ∧ q.val ≠ 1 ∧
       d.qs.subs.filter (fun z => z.who == node.val && z.st != .suspended && z.reset.isNone && (d.queue z.queue).cls == 1 && (d.queue
       z.queue).deliverQ == v.data.word 1) = [x] ∧ x.queue = q.val ∧ x.st = .active ∧ d.qs.sub? q.val node.val = some x) := by
  refine ⟨?_, ?_, ?_, ?_, ?_, ?_, ?_, ?_, ?_, ?_, ?_, ?_, ?_, ?_, ?_, ?_, ?_, ?_, ?_, ?_, ?_, ?_, ?_, ?_, ?_, ?_, ?_, ?_, ?_⟩
  · decide +kernel
  · decide +kernel
  · decide +kernel
  · decide +kernel
  · decide +kernel
  · decide +kernel
  · repeat' (first | decide +kernel | exact rfl | constructor)
  · repeat' (first | decide +kernel | exact rfl | constructor)
  · repeat' (first | decide +kernel | exact rfl | constructor)
  · repeat' (first | decide +kernel | exact rfl | constructor)
  · repeat' (first | decide +kernel | exact rfl | constructor)
  · repeat' (first | decide +kernel | exact rfl | constructor)
  · repeat' (first | decide +kernel | exact rfl | constructor)
  · repeat' (first | decide +kernel | exact rfl | constructor)
  · repeat' (first | decide +kernel | exact rfl | constructor)
  · repeat' (first | decide +kernel | exact rfl | constructor)
  · repeat' (first | decide +kernel | exact rfl | constructor)
  · repeat' (first | decide +kernel | exact rfl | constructor)
  · repeat' (first | decide +kernel | exact rfl | constructor)
  · repeat' (first | decide +kernel | exact rfl | constructor)
  · repeat' (first | decide +kernel | exact rfl | constructor)
  · repeat' (first | decide +kernel | exact rfl | constructor)
  · repeat' (first | decide +kernel | exact rfl | constructor)
  · repeat' (first | decide +kernel | exact rfl | constructor)
  · repeat' (first | decide +kernel | exact rfl | constructor)
  · repeat' (first | decide +kernel | exact rfl | constructor)
  · repeat' (first | decide +kernel | exact rfl | constructor)
  · repeat' (first | decide +kernel | exact rfl | constructor)
  · repeat' (first | decide +kernel | exact rfl | constructor)

theorem witness_CameraPorts :
    (let s : State := s0
     let dt : Nat := 0
     let p : Fin 4 := 0
     let d := (s.elapse dt).dev
     let c := d.cam p.val
     (s.elapse dt).dev.alive = true ∧ (d.now < c.startedAt + ms ∨ c.fn.st ≠ .starting ∨ c.traffic = true)) ∧
    (let s : State := s0
     let dt : Nat := 0
     let p : Fin 4 := 0
     let d := (s.elapse dt).dev
     let c := d.cam p.val
     (s.elapse dt).dev.alive = true ∧ (d.now < c.fn.stopBy ∨ c.fn.st ≠ .stopping)) ∧
    (let s : State := s0
     let dt : Nat := 0
     let p : Fin 4 := 0
     let d := (s.elapse dt).dev
     let c := d.cam p.val
     (s.elapse dt).dev.alive = true ∧ c.fn.st = .off) ∧
    (let s : State := s0
     let dt : Nat := 0
     let p : Fin 4 := 0
     let d := (s.elapse dt).dev
     let z := vget d.cams.sync p.val {}
     (s.elapse dt).dev.alive = true ∧ syMode z.cfg = 0) ∧
    (let s : State := on { dev0 with cams := { sync := Vector.replicate 4 { cfg := 4 + 2 ^ 32 } }, fire := { firstSlot := some 0 } }
     let dt : Nat := 0
     let p : Fin 4 := 0
     let d := (s.elapse dt).dev
     let z := vget d.cams.sync p.val {}
     let framed := syMode z.cfg = 1 ∨ (syMode z.cfg = 3 ∧ d.fire.fn.st = .on)
     let t := 0
     (s.elapse dt).dev.alive = true ∧ framed ∧ d.framePulse z = some t ∧ t ≤ d.now) ∧
    (let s : State := on
         { dev0 with cams := { sync := Vector.replicate 4 { cfg := 4 + 2 ^ 32 + 5 * 2 ^ 96 } }, fire := { firstSlot := some 0 } }
     let dt : Nat := 0
     let p : Fin 4 := 0
     let d := (s.elapse dt).dev
     let z := vget d.cams.sync p.val {}
     let framed := syMode z.cfg = 1 ∨ (syMode z.cfg = 3 ∧ d.fire.fn.st = .on)
     let t := 5
     (s.elapse dt).dev.alive = true ∧ framed ∧ d.framePulse z = some t ∧ d.now < t) ∧
    (let s : State := on { dev0 with cams := { sync := Vector.replicate 4 { cfg := 8 + 1000000 * 2 ^ 64 } } }
     let dt : Nat := 0
     let p : Fin 4 := 0
     let d := (s.elapse dt).dev
     let z := vget d.cams.sync p.val {}
     let framed := syMode z.cfg = 1 ∨ (syMode z.cfg = 3 ∧ d.fire.fn.st = .on)
     let near := fun (t : Nat) => syMode z.cfg = 3 ∧ (d.firstPulse z).any (fun x => decide (x ≤ t + ms)) = true
     let t := 0
     let g := some 0
     (s.elapse dt).dev.alive = true ∧ 2 ≤ syMode z.cfg ∧ (¬ framed) ∧ d.freePulse z = some (t, g) ∧ (¬ near t)) ∧
    (let s : State := on { dev0 with cams := { sync := Vector.replicate 4 { cfg := 8 + 1000000 * 2 ^ 64, lastFree := some 0 } } }
     let dt : Nat := 0
     let p : Fin 4 := 0
     let d := (s.elapse dt).dev
     let z := vget d.cams.sync p.val {}
     let framed := syMode z.cfg = 1 ∨ (syMode z.cfg = 3 ∧ d.fire.fn.st = .on)
     let near := fun (t : Nat) => syMode z.cfg = 3 ∧ (d.firstPulse z).any (fun x => decide (x ≤ t + ms)) = true
     (s.elapse dt).dev.alive = true ∧ 2 ≤ syMode z.cfg ∧ (¬ framed) ∧ (d.freePulse z = none ∨ ∃ t g, d.freePulse z = some (t, g) ∧ near t)) ∧
    (let s : State := on { dev0 with cams := { ports := Vector.replicate 4 { fn := { st := .starting } } } }
     let dt : Nat := ms
     let p : Fin 4 := 0
     let d := (s.elapse dt).dev
     let c := d.cam p.val
     (s.elapse dt).dev.alive = true ∧ d.Unstreamed ∧ d.wcp.waits = [] ∧ c.fn.st = .starting ∧ c.fn.stopPending = false ∧ c.traffic = false
       ∧ c.startedAt + ms ≤ d.now) ∧
    (let s : State := on { dev0 with cams := { ports := Vector.replicate 4 { fn := { st := .stopping } } } }
     let dt : Nat := 0
     let p : Fin 4 := 0
     let d := (s.elapse dt).dev
     let c := d.cam p.val
     (s.elapse dt).dev.alive = true ∧ d.Unstreamed ∧ d.wcp.waits = [] ∧ c.fn.st = .stopping ∧ c.fn.stopBy ≤ d.now ∧ c.fn.faultStop = false) ∧
    (let s : State := on
         { dev0 with cams := { ports := Vector.replicate 4 { fn := { st := .stopping }, cfg := 2 ^ 144 + 20 * 2 ^ 130 } } }
     let dt : Nat := 0
     let p : Fin 4 := 0
     let q : Nat := 20
     let d := (s.elapse dt).dev
     let c := d.cam p.val
     let h := 0
     (s.elapse dt).dev.alive = true ∧ d.Unstreamed ∧ d.wcp.waits = [] ∧ c.fn.st = .stopping ∧ c.fn.stopBy ≤ d.now ∧ c.fn.faultStop = false
       ∧ c.queueOf (csiVc h) = some q) ∧
    (let s : State := on { dev0 with cams := { ports := Vector.replicate 4 { fn := { st := .starting } } } }
     let dt : Nat := 0
     let p : Fin 4 := 0
     let k : CsiPacket := ⟨1, .ok, Bytes.nil, 0, true, false⟩
     let d := (s.elapse dt).dev
     let c := d.cam p.val
     let vc := csiVc k.hdr
     (s.elapse dt).dev.alive = true ∧ d.Unstreamed ∧ d.wcp.waits = [] ∧ c.fn.st = .starting ∧ c.fn.stopPending = false ∧ k.ecc = .ok ∧
       csiType k.hdr ≠ 0 ∧ c.queueOf vc = none) ∧
    (let s : State := on { dev0 with cams := { ports := Vector.replicate 4 { fn := { st := .on } } } }
     let dt : Nat := 0
     let p : Fin 4 := 0
     let k : CsiPacket := ⟨0, .uncorrectable, Bytes.nil, 0, true, false⟩
     let d := (s.elapse dt).dev
     let c := d.cam p.val
     (s.elapse dt).dev.alive = true ∧ d.Unstreamed ∧ d.wcp.waits = [] ∧ (c.fn.st = .on ∨ c.fn.st = .starting) ∧ k.ecc = .uncorrectable) ∧
    (let s : State := on { dev0 with cams := { ports := Vector.replicate 4 { fn := { st := .on } } } }
     let dt : Nat := 0
     let p : Fin 4 := 0
     let k : CsiPacket := ⟨1, .ok, Bytes.nil, 0, true, false⟩
     let d := (s.elapse dt).dev
     let c := d.cam p.val
     let vc := csiVc k.hdr
     (s.elapse dt).dev.alive = true ∧ d.Unstreamed ∧ d.wcp.waits = [] ∧ c.fn.st = .on ∧ k.ecc = .ok ∧ csiType k.hdr ≠ 0 ∧ c.queueOf vc =
       none) ∧
    (let s : State := on { dev0 with cams := { ports := Vector.replicate 4 { fn := { st := .on }, cfg := 2 ^ 144 + 20 * 2 ^ 130 } } }
     let dt : Nat := 0
     let p : Fin 4 := 0
     let k : CsiPacket := ⟨1, .ok, Bytes.nil, 0, true, true⟩
     let q : Nat := 20
     let d := (s.elapse dt).dev
     let c := d.cam p.val
     let long : Bool := 0x10 ≤ csiType k.hdr
     let vc := csiVc k.hdr
     (s.elapse dt).dev.alive = true ∧ d.Unstreamed ∧ d.wcp.waits = [] ∧ c.fn.st = .on ∧ k.ecc = .ok ∧ csiType k.hdr ≠ 0 ∧ c.queueOf vc =
       some q ∧ k.x10Lost = true ∧ long = false) ∧
    (let s : State := on
         { dev0 with cams := { ports := Vector.replicate 4 { fn := { st := .on }, cfg := 2 ^ 144 + 20 * 2 ^ 130, dropRest := 1 } } }
     let dt : Nat := 0
     let p : Fin 4 := 0
     let k : CsiPacket := ⟨0x10, .ok, Bytes.nil, 0, true, false⟩
     let q : Nat := 20
     let d := (s.elapse dt).dev
     let c := d.cam p.val
     let long : Bool := 0x10 ≤ csiType k.hdr
     let vc := csiVc k.hdr
     (s.elapse dt).dev.alive = true ∧ d.Unstreamed ∧ d.wcp.waits = [] ∧ c.fn.st = .on ∧ k.ecc = .ok ∧ c.queueOf vc = some q ∧ k.x10Lost =
       false ∧ long = true ∧ bit c.dropRest vc = true) ∧
    (let s : State := on { dev0 with cams := { ports := Vector.replicate 4 { fn := { st := .on }, cfg := 2 ^ 144 + 20 * 2 ^ 130 } } }
     let dt : Nat := 0
     let p : Fin 4 := 0
     let k : CsiPacket := ⟨0x110, .ok, Bytes.nil, 0, true, false⟩
     let q : Nat := 20
     let d := (s.elapse dt).dev
     let c := d.cam p.val
     let long : Bool := 0x10 ≤ csiType k.hdr
     let vc := csiVc k.hdr
     (s.elapse dt).dev.alive = true ∧ d.Unstreamed ∧ d.wcp.waits = [] ∧ c.fn.st = .on ∧ k.ecc = .ok ∧ c.queueOf vc = some q ∧ k.x10Lost =
       false ∧ long = true ∧ bit c.dropRest vc = false ∧ fld c.cfg 47 32 < csiWc k.hdr) ∧
    (let s : State := on
         { dev0 with cams := { ports := Vector.replicate 4 { fn := { st := .on }, cfg := 2 ^ 144 + 20 * 2 ^ 130 + 2 ^ 6 } } }
     let dt : Nat := 0
     let p : Fin 4 := 0
     let k : CsiPacket := ⟨0x10, .ok, Bytes.nil, 0, false, false⟩
     let q : Nat := 20
     let d := (s.elapse dt).dev
     let c := d.cam p.val
     let long : Bool := 0x10 ≤ csiType k.hdr
     let vc := csiVc k.hdr
     (s.elapse dt).dev.alive = true ∧ d.Unstreamed ∧ d.wcp.waits = [] ∧ c.fn.st = .on ∧ k.ecc = .ok ∧ c.queueOf vc = some q ∧ k.x10Lost =
       false ∧ long = true ∧ bit c.dropRest vc = false ∧ csiWc k.hdr ≤ fld c.cfg 47 32 ∧ k.crcOk = false ∧ bit c.cfg 6 = true) ∧
    (let s : State := on { dev0 with cams := { ports := Vector.replicate 4 { fn := { st := .on }, cfg := 2 ^ 144 + 20 * 2 ^ 130 } } }
     let dt : Nat := 0
     let p : Fin 4 := 0
     let k : CsiPacket := ⟨2, .ok, Bytes.nil, 0, true, false⟩
     let q : Nat := 20
     let d := (s.elapse dt).dev
     let c := d.cam p.val
     let long : Bool := 0x10 ≤ csiType k.hdr
     let vc := csiVc k.hdr
     (s.elapse dt).dev.alive = true ∧ d.Unstreamed ∧ d.wcp.waits = [] ∧ c.fn.st = .on ∧ k.ecc = .ok ∧ c.queueOf vc = some q ∧ k.x10Lost =
       false ∧ 2 ≤ csiType k.hdr ∧ long = false ∧ (d.queue q).fn.st ≠ .on) := by
  refine ⟨?_, ?_, ?_, ?_, ?_, ?_, ?_, ?_, ?_, ?_, ?_, ?_, ?_, ?_, ?_, ?_, ?_, ?_, ?_⟩
  · decide +kernel
  · decide +kernel
  · decide +kernel
  · decide +kernel
  · repeat' (first | decide +kernel | exact rfl | constructor)
  · repeat' (first | decide +kernel | exact rfl | constructor)
  · repeat' (first | decide +kernel | exact rfl | constructor)
  · refine ⟨?_, ?_, ?_, Or.inl ?_⟩ <;> decide +kernel
  · repeat' (first | decide +kernel | exact rfl | constructor)
  · repeat' (first | decide +kernel | exact rfl | constructor)
  · repeat' (first | decide +kernel | exact rfl | constructor)
  · repeat' (first | decide +kernel | exact rfl | constructor)
  · repeat' (first | decide +kernel | exact rfl | constructor)
  · repeat' (first | decide +kernel | exact rfl | constructor)
  · repeat' (first | decide +kernel | exact rfl | constructor)
  · repeat' (first | decide +kernel | exact rfl | constructor)
  · repeat' (first | decide +kernel | exact rfl | constructor)
  · repeat' (first | decide +kernel | exact rfl | constructor)
  · repeat' (first | decide +kernel | exact rfl | constructor)

theorem witness_BridgeFrames :
    (let s : State := s0
     let dt : Nat := 0
     let f : BitVec 512 := 0
     let live := fun (x : Side) => match x with | .core => (s.elapse dt).dev.alive = true | .field => s.dev.field.running = true
     let x := Side.core
     live x ∧ crcOk f = false) ∧
    (let s : State := on { dev0 with field := { running := true, msgs := [.integrity 9 0 2 1] } }
     let dt : Nat := 0
     let f : BitVec 512 := framed (0x22 + (FieldMsg.enc (.integrity 9 0 2 1)).len * 2 ^ 24 + (FieldMsg.enc (.integrity 9 0 2 1)).val * 2 ^
         32)
     let d := (s.elapse dt).dev
     let ends := fun (x : Side) (u : Device) => match x with | .core => u.core.end_ | .field => u.field.end_
     let live := fun (x : Side) => match x with | .core => (s.elapse dt).dev.alive = true | .field => s.dev.field.running = true
     let type := fun (x : Side) => match x with | .core => 0x22 | .field => 0x12
     let x := Side.core
     let e := ends x d
     live x ∧ crcOk f = true ∧ fld f 7 0 = type x ∧ fld f 23 16 = 0 ∧ fld f 31 24 ≤ 56 ∧ fld f 31 24 ≠ 0 ∧ fld f 15 8 = (e.ack.toNat + 1)
       % 256) ∧
    (let s : State := s0
     let dt : Nat := 0
     let f : BitVec 512 := framed (0x22 + 2 ^ 8)
     let d := (s.elapse dt).dev
     let ends := fun (x : Side) (u : Device) => match x with | .core => u.core.end_ | .field => u.field.end_
     let live := fun (x : Side) => match x with | .core => (s.elapse dt).dev.alive = true | .field => s.dev.field.running = true
     let type := fun (x : Side) => match x with | .core => 0x22 | .field => 0x12
     let x := Side.core
     let e := ends x d
     live x ∧ crcOk f = true ∧ fld f 7 0 = type x ∧ fld f 23 16 = 0 ∧ fld f 31 24 ≤ 56 ∧ fld f 15 8 ≠ (e.ack.toNat + 1) % 256) ∧
    (let s : State := on { dev0 with core := { end_ := { win := [(0, Bytes.nil, 0)] } } }
     let dt : Nat := 100 * us
     let w : BitVec 8 × Bytes × Nat := (0, Bytes.nil, 0)
     let rest : List (BitVec 8 × Bytes × Nat) := []
     let d := (s.elapse dt).dev
     let ends := fun (x : Side) (u : Device) => match x with | .core => u.core.end_ | .field => u.field.end_
     let live := fun (x : Side) => match x with | .core => (s.elapse dt).dev.alive = true | .field => s.dev.field.running = true
     let x := Side.core
     let e := ends x d
     live x ∧ e.win = w :: rest ∧ e.again ≤ rest.length ∧ w.2.2 + 100 * us ≤ d.now) ∧
    (let s : State := s0
     let dt : Nat := 0
     let w : BitVec 8 × Bytes × Nat := (0, Bytes.nil, 0)
     let rest : List (BitVec 8 × Bytes × Nat) := []
     let d := (s.elapse dt).dev
     let ends := fun (x : Side) (u : Device) => match x with | .core => u.core.end_ | .field => u.field.end_
     let live := fun (x : Side) => match x with | .core => (s.elapse dt).dev.alive = true | .field => s.dev.field.running = true
     let x := Side.field
     let e := ends x d
     live x ∧ (e.win = [] ∨ (e.win = w :: rest ∧ (d.now < w.2.2 + 100 * us ∨ rest.length < e.again)))) ∧
    (let s : State := s0
     let dt : Nat := 0
     let f : BitVec 512 := 0
     let live := fun (x : Side) => match x with | .core => (s.elapse dt).dev.alive = true | .field => s.dev.field.running = true
     live .field ∧ crcOk f = false) ∧
    (let s : State := s0
     let dt : Nat := 0
     let f : BitVec 512 := framed 0x11
     let live := fun (x : Side) => match x with | .core => (s.elapse dt).dev.alive = true | .field => s.dev.field.running = true
     live .field ∧ crcOk f = true ∧ fld f 7 0 = 0x11 ∧ pair16 f 80 96 = false) ∧
    (let s : State := s0
     let dt : Nat := 0
     let f : BitVec 512 := 0
     let live := fun (x : Side) => match x with | .core => (s.elapse dt).dev.alive = true | .field => s.dev.field.running = true
     live .core ∧ crcOk f = false) ∧
    (let s : State := s0
     let dt : Nat := 0
     let f : BitVec 512 := framed 0x21
     let live := fun (x : Side) => match x with | .core => (s.elapse dt).dev.alive = true | .field => s.dev.field.running = true
     live .core ∧ crcOk f = true ∧ fld f 7 0 = 0x21 ∧ pair16 f 16 32 = false) := 
  by repeat' (first | decide +kernel | exact rfl | constructor)

theorem witness_SilenceAndSafeStates :
    (let s : State := s0
     let dt : Nat := 0
     let f : BitVec 512 := framed (0x11 + 65535 * 2 ^ 96)
     let d := (s.elapse dt).dev
     let x := d.field
     s.dev.field.running = true ∧ x.silentAt = none ∧ crcOk f = true ∧ fld f 7 0 = 0x11 ∧ pair16 f 80 96 = true ∧ (∀ k, k < 16 → cWitEn
       (x.cfg k) = false)) ∧
    (let s : State := s0
     let dt : Nat := ms
     let d := (s.elapse dt).dev
     let x := d.field
     s.dev.field.running = true ∧ x.silentAt = none ∧ x.wdAt + bWdt x.block * 97 / 100 ≤ d.now) ∧
    (let s : State := s0
     let dt : Nat := 0
     let d := (s.elapse dt).dev
     let x := d.field
     (x.silentAt ≠ none ∨ d.now < x.wdAt + bWdt x.block * 97 / 100)) ∧
    (let s : State := on { dev0 with field := { running := true, safeDue := some 0 } }
     let dt : Nat := 0
     let d := (s.elapse dt).dev
     let x := d.field
     let t := 0
     s.dev.field.running = true ∧ x.safeDue = some t ∧ t ≤ d.now) ∧
    (let s : State := on { dev0 with field := { running := true, safeDue := some 1 } }
     let dt : Nat := 0
     let d := (s.elapse dt).dev
     let x := d.field
     let t := 1
     x.safeDue = some t ∧ d.now < t) ∧
    (let s : State := s0
     let dt : Nat := 0
     let d := (s.elapse dt).dev
     let x := d.field
     x.safeDue = none) ∧
    (let s : State := on { dev0 with field := { running := true, applyDue := some (1, 2, 0) } }
     let dt : Nat := 0
     let d := (s.elapse dt).dev
     let x := d.field
     let c := 1
     let a := 2
     let t := 0
     s.dev.field.running = true ∧ x.applyDue = some (c, a, t) ∧ t ≤ d.now) ∧
    (let s : State := on { dev0 with field := { running := true, applyDue := some (1, 2, 1) } }
     let dt : Nat := 0
     let d := (s.elapse dt).dev
     let x := d.field
     let c := 1
     let a := 2
     let t := 1
     x.applyDue = some (c, a, t) ∧ d.now < t) ∧
    (let s : State := s0
     let dt : Nat := 0
     let d := (s.elapse dt).dev
     let x := d.field
     x.applyDue = none) ∧
    (let s : State := s0
     let dt : Nat := ms
     let d := (s.elapse dt).dev
     (s.elapse dt).dev.alive = true ∧ d.core.silentAt = none ∧ d.core.since + d.coreWdt ≤ d.now) ∧
    (let s : State := on { dev0 with core := { loaded := true } }
     let dt : Nat := 0
     let f : BitVec 512 := framed (0x21 + 65535 * 2 ^ 32)
     let d := (s.elapse dt).dev
     (s.elapse dt).dev.alive = true ∧ d.core.fieldOk = false ∧ d.core.loaded = true ∧ d.sec.blockDefaultDue = false ∧ crcOk f = true ∧ fld
       f 7 0 = 0x21 ∧ pair16 f 16 32 = true) ∧
    (let s : State := s0
     let dt : Nat := 0
     let d := (s.elapse dt).dev
     (d.core.silentAt ≠ none ∨ d.now < d.core.since + d.coreWdt)) ∧
    (let s : State := on { dev0 with core := { fieldOk := true } }
     let dt : Nat := 0
     let f : BitVec 512 := framed (0x21 + 65535 * 2 ^ 32)
     let d := (s.elapse dt).dev
     (s.elapse dt).dev.alive = true ∧ d.core.fieldOk = true ∧ crcOk f = true ∧ fld f 7 0 = 0x21 ∧ pair16 f 16 32 = true) := by
  refine ⟨?_, ?_, ?_, ?_, ?_, ?_, ?_, ?_, ?_, ?_, ?_, ?_, ?_⟩ <;> decide +kernel

theorem witness_TickAndAspects :
    (let s : State := on { dev0 with field := { running := true, tickAt := 1 } }
     let dt : Nat := 0
     let d := (s.elapse dt).dev
     let f := d.field
     d.now < f.tickAt) ∧
    (let s : State := s0
     let dt : Nat := 0
     let d := (s.elapse dt).dev
     let f := d.field
     s.dev.field.running = true ∧ f.tickAt ≤ d.now ∧ (∀ k, k < 16 → (f.out k).attrAt = none) ∧ f.remapDue = [] ∧ d.power.nvmWait = []) ∧
    (let s : State := s0
     let dt : Nat := 0
     let d := (s.elapse dt).dev
     d.sec.sealed = none ∧ d.sec.deferred = []) ∧
    (let s : State := on { dev0 with sec := { sealed := some ⟨0, 2, 0, 0, 0⟩ } }
     let dt : Nat := 0
     let d := (s.elapse dt).dev
     let c := { d.core with occ := .ofNat 64 (fld d.ret.occ.v 63 0), blind := .ofNat 64 (fld d.ret.occ.v 127 64), discards := 0 }
     (s.elapse dt).dev.alive = true ∧ d.sec.sealed ≠ none ∧ d.sec.deferred = [] ∧ c.rules.ok = true ∧ d.ret.occ.ok = true) ∧
    (let s : State := s0
     let dt : Nat := 0
     let d := (s.elapse dt).dev
     let f := d.field
     (f.end_.inbox.length < 26 ∨ (f.nvmOk = false ∧ d.core.commitAt = none))) ∧
    (let s : State := on
         { dev0 with field := { running := true, end_ := { inbox := List.replicate 26 (Bytes.mk' 56 1) }, groups := Vector.replicate 4 { mv := 8999 } }, core := { commitAt := some 0 } }
     let dt : Nat := 0
     let d := (s.elapse dt).dev
     let f := d.field
     s.dev.field.running = true ∧ 26 ≤ f.end_.inbox.length ∧ f.nvmOk = false ∧ d.core.commitAt ≠ none ∧ d.nvmWaiting .fieldBlock = false) ∧
    (let s : State := on
         { dev0 with field := { running := true, end_ := { inbox := List.replicate 26 (Bytes.mk' 56 1) }, groups := Vector.replicate 4 { mv := 9000 } } }
     let dt : Nat := 0
     let d := (s.elapse dt).dev
     let f := d.field
     let b := f.received
     s.dev.field.running = true ∧ 26 ≤ f.end_.inbox.length ∧ f.nvmOk = true ∧ b ≠ Config.blockDefault ∧ blockBadAt b ≠ none) ∧
    (let s : State := on
         { dev0 with field := { running := true, end_ := { inbox := blockChunks blockOne }, groups := Vector.replicate 4 { mv := 9000 } } }
     let dt : Nat := 0
     let d := (s.elapse dt).dev
     let f := d.field
     let b := f.received
     s.dev.field.running = true ∧ 26 ≤ f.end_.inbox.length ∧ f.nvmOk = true ∧ blockBadAt b = none) := by
  refine ⟨?_, ?_, ?_, ?_, ?_, ?_, ?_, ?_⟩ <;> decide +kernel

theorem witness_LampFaults :
    (let s : State := s0
     let dt : Nat := 0
     let k : Fin 16 := 0
     let d := (s.elapse dt).dev
     let f := d.field
     let o := f.out k.val
     (leaderOf f.block k.val ≠ k.val ∨ o.switch = false ∨ f.noSupervision = true ∨ d.sampleDue k.val = false)) ∧
    (let s : State := s0
     let dt : Nat := 0
     let k : Fin 16 := 0
     let d := (s.elapse dt).dev
     let f := d.field
     let o := f.out k.val
     let gap := f.isLit k.val d.now
     let barred := (f.group (k.val / 4)).uvOff || (!gap && ((f.group (k.val / 4)).sagHold || o.latched || o.overTemp))
     (leaderOf f.block k.val ≠ k.val ∨ bDiag f.block k.val = false ∨ o.diagCyc = some d.diagCycle ∨ d.inSlot k.val = false ∨ barred =
       true)) ∧
    (let s : State := s0
     let dt : Nat := 0
     let k : Fin 16 := 0
     let d := (s.elapse dt).dev
     let f := d.field
     let o := f.out k.val
     let cfg := f.cfg k.val
     let gap := f.isLit k.val d.now
     let volt := decide (100 * cLitMs cfg ≤ o.litInt) && d.commandedDark k.val
     let wit := decide (10 * cLitMs cfg ≤ o.witInt) && !o.witUnavail && !gap
     let news := (volt && !o.elecLit) || (wit && !o.optIsLit) || ((volt || wit) && !o.litFault)
     (cLitMs cfg = 0 ∨ leaderOf f.block k.val ≠ k.val ∨ news = false)) ∧
    (let s : State := s0
     let dt : Nat := 0
     let k : Fin 16 := 0
     let d := (s.elapse dt).dev
     let f := d.field
     let o := f.out k.val
     let cfg := f.cfg k.val
     (o.switch = false ∨ d.now < o.onAt + cInrush cfg + 20 * ms)) ∧
    (let s : State := s0
     let dt : Nat := 0
     let k : Fin 16 := 0
     let d := (s.elapse dt).dev
     let f := d.field
     let o := f.out k.val
     o.switch = false) ∧
    (let s : State := s0
     let dt : Nat := 0
     let k : Fin 16 := 0
     let d := (s.elapse dt).dev
     let f := d.field
     let o := f.out k.val
     o.overTemp = false) ∧
    (let s : State := s0
     let dt : Nat := 0
     let k : Fin 16 := 0
     let d := (s.elapse dt).dev
     let f := d.field
     let o := f.out k.val
     o.cross = false ∧ (o.cleanN < 8 ∨ d.now < o.cleanAt + bClean f.block)) ∧
    (let s : State := on
         { dev0 with field := { running := true, outs := Vector.replicate 16 { switch := true, entry := 0x20FF }, convs := Vector.replicate 4 { ovAt := 1 } } }
     let dt : Nat := 10 * us
     let k : Fin 16 := 0
     let d := (s.elapse dt).dev
     let f := d.field
     let o := f.out k.val
     s.dev.field.running = true ∧ leaderOf f.block k.val = k.val ∧ o.switch = true ∧ f.noSupervision = false ∧ d.sampleDue k.val = true ∧
       d.lampRecov k.val = true) ∧
    (let s : State := on { dev0 with field := { running := true, outs := Vector.replicate 16 { switch := true, entry := 0x20FF } } }
     let dt : Nat := 10 * us
     let k : Fin 16 := 0
     let d := (s.elapse dt).dev
     let f := d.field
     let o := f.out k.val
     s.dev.field.running = true ∧ leaderOf f.block k.val = k.val ∧ o.switch = true ∧ f.noSupervision = false ∧ d.sampleDue k.val = true ∧
       d.lampRecov k.val = false) ∧
    (let s : State := on { dev0 with field := { running := true, block := Config.blockDefault ||| 2 ^ 48 } }
     let dt : Nat := 0
     let k : Fin 16 := 0
     let d := (s.elapse dt).dev
     let f := d.field
     let o := f.out k.val
     let gap := f.isLit k.val d.now
     let barred := (f.group (k.val / 4)).uvOff || (!gap && ((f.group (k.val / 4)).sagHold || o.latched || o.overTemp))
     s.dev.field.running = true ∧ leaderOf f.block k.val = k.val ∧ bDiag f.block k.val = true ∧ o.diagCyc ≠ some d.diagCycle ∧ d.inSlot
       k.val = true ∧ barred = false) ∧
    (let s : State := on
         { dev0 with field := { running := true, outs := Vector.replicate 16 { litInt := 100 }, block := Config.blockDefault ||| 2 ^ 192 } }
     let dt : Nat := 0
     let k : Fin 16 := 0
     let d := (s.elapse dt).dev
     let f := d.field
     let o := f.out k.val
     let cfg := f.cfg k.val
     let gap := f.isLit k.val d.now
     let volt := decide (100 * cLitMs cfg ≤ o.litInt) && d.commandedDark k.val
     let wit := decide (10 * cLitMs cfg ≤ o.witInt) && !o.witUnavail && !gap
     let news := (volt && !o.elecLit) || (wit && !o.optIsLit) || ((volt || wit) && !o.litFault)
     s.dev.field.running = true ∧ leaderOf f.block k.val = k.val ∧ cLitMs cfg ≠ 0 ∧ news = true) ∧
    (let s : State := on { dev0 with field := { running := true, outs := Vector.replicate 16 { switch := true } } }
     let dt : Nat := 20 * ms
     let k : Fin 16 := 0
     let d := (s.elapse dt).dev
     let f := d.field
     let o := f.out k.val
     let cfg := f.cfg k.val
     s.dev.field.running = true ∧ o.switch = true ∧ o.onAt + cInrush cfg + 20 * ms ≤ d.now) ∧
    (let s : State := on { dev0 with field := { running := true, outs := Vector.replicate 16 { overTemp := true } } }
     let dt : Nat := 0
     let k : Fin 16 := 0
     let d := (s.elapse dt).dev
     let f := d.field
     let o := f.out k.val
     s.dev.field.running = true ∧ o.overTemp = true) ∧
    (let s : State := on { dev0 with field := { running := true, outs := Vector.replicate 16 { cleanN := 8 } } }
     let dt : Nat := second
     let k : Fin 16 := 0
     let d := (s.elapse dt).dev
     let f := d.field
     let o := f.out k.val
     s.dev.field.running = true ∧ o.cross = false ∧ 8 ≤ o.cleanN ∧ o.cleanAt + bClean f.block ≤ d.now) ∧
    (let s : State := on { dev0 with field := { running := true, outs := Vector.replicate 16 { partners := [(1, 0)] } } }
     let dt : Nat := second
     let k : Fin 16 := 0
     let d := (s.elapse dt).dev
     let f := d.field
     let o := f.out k.val
     let j := 1
     let t := 0
     s.dev.field.running = true ∧ j ≠ k.val ∧ j < 16 ∧ o.partners = [(j, t)] ∧ o.cleanN < 8 ∧ t + bClean f.block ≤ d.now) := by
  refine ⟨?_, ?_, ?_, ?_, ?_, ?_, ?_, ?_, ?_, ?_, ?_, ?_, ?_, ?_, ?_⟩ <;> decide +kernel

theorem witness_GroupsAndOutputs :
    (let s : State := s0
     let dt : Nat := 0
     let mv : Nat := 0
     let g : Fin 4 := 0
     let d := (s.elapse dt).dev
     let f := d.field
     let x := f.group g.val
     s.dev.field.running = true ∧ mv < bSag f.block ∧ x.low = false) ∧
    (let s : State := s0
     let dt : Nat := 0
     let mv : Nat := 16000
     let g : Fin 4 := 0
     let d := (s.elapse dt).dev
     let f := d.field
     let x := f.group g.val
     s.dev.field.running = true ∧ (bSag f.block ≤ mv ∨ x.low = true)) ∧
    (let s : State := on { dev0 with field := { running := true, groups := Vector.replicate 4 { sagHold := true } } }
     let dt : Nat := 500 * ms
     let mv : Nat := 0
     let g : Fin 4 := 0
     let d := (s.elapse dt).dev
     let f := d.field
     let x := f.group g.val
     let back : Prop := bSag f.block + 500 < mv ∧ x.sagBelow + 10 * ms ≤ d.now
     s.dev.field.running = true ∧ x.sagHold = true ∧ (back ∨ x.sagAt + 500 * ms ≤ d.now)) ∧
    (let s : State := s0
     let dt : Nat := 0
     let mv : Nat := 0
     let g : Fin 4 := 0
     let d := (s.elapse dt).dev
     let f := d.field
     let x := f.group g.val
     let back : Prop := bSag f.block + 500 < mv ∧ x.sagBelow + 10 * ms ≤ d.now
     s.dev.field.running = true ∧ (x.sagHold = false ∨ (¬back ∧ d.now < x.sagAt + 500 * ms))) ∧
    (let s : State := s0
     let dt : Nat := 0
     let mv : Nat := 6999
     let g : Fin 4 := 0
     let d := (s.elapse dt).dev
     let f := d.field
     let x := f.group g.val
     s.dev.field.running = true ∧ mv < 7000 ∧ x.uvOff = false) ∧
    (let s : State := s0
     let dt : Nat := 0
     let mv : Nat := 7000
     let g : Fin 4 := 0
     let d := (s.elapse dt).dev
     let f := d.field
     let x := f.group g.val
     s.dev.field.running = true ∧ (7000 ≤ mv ∨ x.uvOff = true)) ∧
    (let s : State := on { dev0 with field := { running := true, groups := Vector.replicate 4 { uvOff := true } } }
     let dt : Nat := 10 * ms
     let mv : Nat := 8001
     let g : Fin 4 := 0
     let d := (s.elapse dt).dev
     let f := d.field
     let x := f.group g.val
     s.dev.field.running = true ∧ x.uvOff = true ∧ 8000 < mv ∧ x.uvBelow + 10 * ms ≤ d.now) ∧
    (let s : State := s0
     let dt : Nat := 0
     let mv : Nat := 0
     let g : Fin 4 := 0
     let d := (s.elapse dt).dev
     let f := d.field
     let x := f.group g.val
     s.dev.field.running = true ∧ (x.uvOff = false ∨ mv ≤ 8000 ∨ d.now < x.uvBelow + 10 * ms)) ∧
    (let s : State := s0
     let dt : Nat := 0
     let g : Fin 4 := 0
     let d := (s.elapse dt).dev
     let f := d.field
     let x := f.group g.val
     s.dev.field.running = true ∧ (x.soft = none ∨ d.now < x.softAt)) ∧
    (let s : State := on { dev0 with field := { running := true, groups := Vector.replicate 4 { soft := some 0 } } }
     let dt : Nat := 0
     let g : Fin 4 := 0
     let d := (s.elapse dt).dev
     let f := d.field
     let x := f.group g.val
     let j := 0
     s.dev.field.running = true ∧ x.soft = some j ∧ x.softAt ≤ d.now ∧ (∀ i, i < 4 → (f.out (4 * g.val + i)).commanded = false)) ∧
    (let s : State := on
         { dev0 with field := { running := true, groups := Vector.replicate 4 { soft := some 0 }, outs := Vector.replicate 16 { entry := 0x20FF } } }
     let dt : Nat := 0
     let g : Fin 4 := 0
     let d := (s.elapse dt).dev
     let f := d.field
     let x := f.group g.val
     s.dev.field.running = true ∧ x.soft = some 0 ∧ x.softAt ≤ d.now ∧ leaderOf f.block (4 * g.val) = 4 * g.val ∧ (f.out (4 *
       g.val)).commanded = true) ∧
    (let s : State := on { dev0 with field := { running := true, outs := Vector.replicate 16 { fn := { st := .stopping } } } }
     let dt : Nat := 0
     let k : Fin 16 := 0
     let d := (s.elapse dt).dev
     let f := d.field
     let o := f.out k.val
     s.dev.field.running = true ∧ o.fn.st = .stopping ∧ o.fn.faultStop = false) ∧
    (let s : State := s0
     let dt : Nat := 0
     let k : Fin 16 := 0
     let d := (s.elapse dt).dev
     let f := d.field
     let o := f.out k.val
     s.dev.field.running = true ∧ o.fn.st ≠ .stopping) ∧
    (let s : State := s0
     let dt : Nat := 0
     let k : Fin 16 := 0
     let d := (s.elapse dt).dev
     let f := d.field
     let o := f.out k.val
     s.dev.field.running = true ∧ eMode o.ent ≠ 2) ∧
    (let s : State := s0
     let dt : Nat := 0
     let k : Fin 16 := 0
     let d := (s.elapse dt).dev
     let f := d.field
     let o := f.out k.val
     s.dev.field.running = true ∧ o.commanded = false) ∧
    (let s : State := on { dev0 with field := { running := true, outs := Vector.replicate 16 { fn := { st := .on }, entry := 0x40FF } } }
     let dt : Nat := 0
     let k : Fin 16 := 0
     let d := (s.elapse dt).dev
     let f := d.field
     let o := f.out k.val
     s.dev.field.running = true ∧ f.clan k.val = [k.val] ∧ o.commanded = true ∧ o.fn.st = .on ∧ f.barred k.val = false ∧ eMode o.ent = 2) := by
  refine ⟨?_, ?_, ?_, ?_, ?_, ?_, ?_, ?_, ?_, ?_, ?_, ?_, ?_, ?_, ?_, ?_⟩ <;> decide +kernel

theorem witness_InputsAreFiltered :
    (let s : State := s0
     let dt : Nat := 5 * us
     let k : Fin 16 := 0
     let d := (s.elapse dt).dev
     d.inDue k.val = false) ∧
    (let s : State := on { dev0 with field := { running := true, inCfg := 0 } }
     let dt : Nat := 18 * us
     let k : Fin 16 := 0
     let d := (s.elapse dt).dev
     let f := d.field
     let j := f.input k.val
     let i := { j.adopt (inBlock f.inCfg k.val) d.now with sampledAt := some (inPeriodStart j.cfg k.val d.fieldNs) }
     s.dev.field.running = true ∧ d.inDue k.val = true ∧ iEn i.cfg = false) ∧
    (let s : State := s0
     let dt : Nat := 18 * us
     let k : Fin 16 := 0
     let d := (s.elapse dt).dev
     let f := d.field
     let j := f.input k.val
     let i := { j.adopt (inBlock f.inCfg k.val) d.now with sampledAt := some (inPeriodStart j.cfg k.val d.fieldNs) }
     s.dev.field.running = true ∧ d.inDue k.val = true ∧ iEn i.cfg = true ∧ iPeriod i.cfg = false) ∧
    (let s : State := s0
     let dt : Nat := 18 * us
     let mv : Nat := 0
     let k : Fin 16 := 0
     let d := (s.elapse dt).dev
     let f := d.field
     let j := f.input k.val
     let i := { j.adopt (inBlock f.inCfg k.val) d.now with sampledAt := some (inPeriodStart j.cfg k.val d.fieldNs) }
     let n := i.count (inClass i.cfg mv (inCurrent i.cfg mv))
     s.dev.field.running = true ∧ d.inDue k.val = true ∧ iEn i.cfg = true ∧ (n.shown = j.shown ∨ n.shown = false)) ∧
    (let s : State := on
         { dev0 with field := { running := true, inputs := Vector.replicate 16 { cfg := ({} : Input).cfg ||| 2 ^ 10, c := 7 }, inCfg := Config.inputDefault ||| 2 ^ 74 } }
     let dt : Nat := 18 * us
     let mv : Nat := 30000
     let k : Fin 16 := 0
     let d := (s.elapse dt).dev
     let f := d.field
     let j := f.input k.val
     let i := { j.adopt (inBlock f.inCfg k.val) d.now with sampledAt := some (inPeriodStart j.cfg k.val d.fieldNs) }
     let n := i.count (inClass i.cfg mv (inCurrent i.cfg mv))
     s.dev.field.running = true ∧ d.inDue k.val = true ∧ iEn i.cfg = true ∧ iPeriod i.cfg = true ∧ j.shown = false ∧ n.shown = true ∧
       n.rise = none) ∧
    (let s : State := on
         { dev0 with field := { running := true, inputs := Vector.replicate 16 { cfg := ({} : Input).cfg ||| 2 ^ 10, tmoAt := some 0 } } }
     let dt : Nat := second
     let k : Fin 16 := 0
     let d := (s.elapse dt).dev
     let f := d.field
     let j := f.input k.val
     let t := 0
     s.dev.field.running = true ∧ j.tmoAt = some t ∧ iPeriod j.cfg = true ∧ t + iTmo j.cfg ≤ d.now) ∧
    (let s : State := on { dev0 with field := { running := true, recs := [0] } }
     let dt : Nat := 100 * ms
     let d := (s.elapse dt).dev
     let f := d.field
     let q := inQueue f.inCfg
     let no := (mget q f.unitNo).getD 0
     let unit := (chunkHeader q true false 0 f.recs.length no (d.fieldNs / us) 0).app (.cat (f.recs.map (fun r => Bytes.mk' 8 r.toNat)))
     s.dev.field.running = true ∧ f.recs ≠ [] ∧ f.recsAt + 100 * ms ≤ d.now ∧ f.fifoLevel + unit.len ≤ 16384) ∧
    (let s : State := on { dev0 with field := { running := true, recs := [0], fifo := [⟨16384, 0⟩] } }
     let dt : Nat := 100 * ms
     let d := (s.elapse dt).dev
     let f := d.field
     let q := inQueue f.inCfg
     let no := (mget q f.unitNo).getD 0
     let unit := (chunkHeader q true false 0 f.recs.length no (d.fieldNs / us) 0).app (.cat (f.recs.map (fun r => Bytes.mk' 8 r.toNat)))
     s.dev.field.running = true ∧ f.recs ≠ [] ∧ f.recsAt + 100 * ms ≤ d.now ∧ 16384 < f.fifoLevel + unit.len) ∧
    (let s : State := s0
     let dt : Nat := 0
     let k : Fin 16 := 0
     let d := (s.elapse dt).dev
     let f := d.field
     let j := f.input k.val
     j.tmoAt = none) ∧
    (let s : State := on { dev0 with field := { running := true, inputs := Vector.replicate 16 { tmoAt := some 0 } } }
     let dt : Nat := 0
     let k : Fin 16 := 0
     let d := (s.elapse dt).dev
     let f := d.field
     let j := f.input k.val
     let t := 0
     j.tmoAt = some t ∧ (iPeriod j.cfg = false ∨ d.now < t + iTmo j.cfg)) ∧
    (let s : State := s0
     let dt : Nat := 0
     let d := (s.elapse dt).dev
     let f := d.field
     (f.recs = [] ∨ d.now < f.recsAt + 100 * ms)) := by
  refine ⟨?_, ?_, ?_, ?_, ?_, ?_, ?_, ?_, ?_, ?_, ?_⟩ <;> decide +kernel

theorem witness_SequencesRun :
    (let s : State := s0
     let dt : Nat := 0
     let t : Fin 4 := 0
     let d := (s.elapse dt).dev
     let f := d.field
     let tm := vget f.timers t.val (0, 0, 0)
     let tick := lastTick tm.1 tm.2.1 (d.fieldNs / us)
     tick ≤ tm.2.2) ∧
    (let width : Nat := 0
     width < 100) ∧
    (let s : State := s0
     let dt : Nat := 0
     let q : Fin 4 := 0
     let d := (s.elapse dt).dev
     let f := d.field
     let x := f.seq q.val
     x.run = none ∧ x.fn.st ≠ .stopping) ∧
    (let s : State := s0
     let dt : Nat := 0
     let q : Fin 4 := 0
     let d := (s.elapse dt).dev
     let f := d.field
     f.entryDue q.val = none) ∧
    (let s : State := on
         { dev0 with field := { running := true, seqs := ⟨#[{ run := some { trigAt := 0, begun := true } }, {}, {}, {}], rfl⟩ } }
     let dt : Nat := 0
     let q : Fin 4 := 0
     let d := (s.elapse dt).dev
     let f := d.field
     let x := f.seq q.val
     let r := { trigAt := 0, begun := true }
     x.run = some r ∧ (r.begun = true ∨ r.cut = true ∨ d.now < f.runDue x r d.now)) ∧
    (let s : State := on { dev0 with field := { running := true, seqs := ⟨#[{ run := some { trigAt := 0 } }, {}, {}, {}], rfl⟩ } }
     let dt : Nat := 0
     let q : Fin 4 := 0
     let codes : List Int := []
     let d := (s.elapse dt).dev
     let f := d.field
     let x := f.seq q.val
     let r := { trigAt := 0 }
     x.run = some r ∧ (r.chain = 0 ∨ r.deferAt ≠ none ∨ d.now < r.doneAt ∨ codes.length ≠ ((x.chainEntries r).map (fun p => nSamples
       p.2)).sum)) ∧
    (let s : State := on { dev0 with field := { running := true, seqs := ⟨#[{ run := some { trigAt := 0 } }, {}, {}, {}], rfl⟩ } }
     let dt : Nat := 0
     let q : Fin 4 := 0
     let d := (s.elapse dt).dev
     let f := d.field
     let x := f.seq q.val
     let r := { trigAt := 0 }
     x.run = some r ∧ x.ended r = false) ∧
    (let s : State := on { dev0 with field := { running := true, timers := Vector.replicate 4 (10, 0, 0) } }
     let dt : Nat := 20 * us
     let t : Fin 4 := 0
     let d := (s.elapse dt).dev
     let f := d.field
     let tm := vget f.timers t.val (0, 0, 0)
     let tick := lastTick tm.1 tm.2.1 (d.fieldNs / us)
     s.dev.field.running = true ∧ tm.2.2 < tick) ∧
    (let s : State := s0
     let width : Nat := 100
     s.dev.field.running = true ∧ 100 ≤ width) ∧
    (let s : State := on { dev0 with field := { running := true, seqs := ⟨#[{ run := some { trigAt := 0 } }, {}, {}, {}], rfl⟩ } }
     let dt : Nat := 5000
     let q : Fin 4 := 0
     let d := (s.elapse dt).dev
     let f := d.field
     let x := f.seq q.val
     let r := { trigAt := 0 }
     s.dev.field.running = true ∧ x.run = some r ∧ r.begun = false ∧ r.cut = false ∧ f.runDue x r d.now ≤ d.now) ∧
    (let s : State := on
         { dev0 with field := { running := true, seqs := ⟨#[{ entries := [0], run := some { trigAt := 0, begun := true } }, {}, {}, {}], rfl⟩ } }
     let dt : Nat := 0
     let q : Fin 4 := 0
     let d := (s.elapse dt).dev
     let f := d.field
     let x := f.seq q.val
     let r := { trigAt := 0, begun := true }
     let due := 0
     s.dev.field.running = true ∧ x.run = some r ∧ f.entryDue q.val = some due ∧ due ≤ d.now ∧ f.convsFree q.val (x.next r) = true ∧
       f.myTurn q.val d.now due (x.next r) = true ∧ f.inputsFree d.now (x.next r) = true) ∧
    (let s : State := on
         { dev0 with field := { running := true, seqs := ⟨#[{ entries := [2 ^ 49], run := some { trigAt := 0, begun := true, chain := 1, starts := [0], coeffs := [(5, false)] } }, {}, {}, {}], rfl⟩ } }
     let dt : Nat := 0
     let q : Fin 4 := 0
     let codes : List Int := [7]
     let d := (s.elapse dt).dev
     let f := d.field
     let x := f.seq q.val
     let r := { trigAt := 0, begun := true, chain := 1, starts := [0], coeffs := [(5, false)] }
     let i := 0
     let e := 2 ^ 49
     let k := 5
     let p := 0
     let s0 := 0
     s.dev.field.running = true ∧ x.run = some r ∧ x.chainEntries r = [(i, e)] ∧ r.chain = 1 ∧ r.starts = [s0] ∧ r.deferAt = none ∧
       r.doneAt ≤ d.now ∧ codes.length = nSamples e ∧ sTrig x.hdr ≠ 9 ∧ nDemod e = false ∧ nOw e = false ∧ (nDest e = 1 ∨ nDest e = 2 ∧
       sQen x.hdr = false) ∧ nMux e < 0x30 ∧ pathOf (nMux e) (nRange e) = some p ∧ r.coeffs[p]? = some (k, false)) ∧
    (let s : State := on
         { dev0 with field := { running := true, seqs := ⟨#[{ fn := { st := .on }, run := some { trigAt := 0, cut := true } }, {}, {}, {}], rfl⟩ } }
     let dt : Nat := 0
     let q : Fin 4 := 0
     let d := (s.elapse dt).dev
     let f := d.field
     let x := f.seq q.val
     let r := { trigAt := 0, cut := true }
     s.dev.field.running = true ∧ x.run = some r ∧ x.ended r = true ∧ x.fn.st = .on ∧ x.held = none ∧ sTrig x.hdr ≠ 7) ∧
    (let s : State := on
         { dev0 with field := { running := true, seqs := ⟨#[{ fn := { st := .on }, held := some (3, 0), run := some { trigAt := 0, cut := true } }, {}, {}, {}], rfl⟩ } }
     let dt : Nat := 0
     let q : Fin 4 := 0
     let d := (s.elapse dt).dev
     let f := d.field
     let x := f.seq q.val
     let r := { trigAt := 0, cut := true }
     let h := (3, 0)
     s.dev.field.running = true ∧ x.run = some r ∧ x.ended r = true ∧ x.fn.st = .on ∧ x.held = some h) ∧
    (let s : State := on { dev0 with field := { running := true, seqs := ⟨#[{ fn := { st := .stopping } }, {}, {}, {}], rfl⟩ } }
     let dt : Nat := 0
     let q : Fin 4 := 0
     let d := (s.elapse dt).dev
     let f := d.field
     let x := f.seq q.val
     s.dev.field.running = true ∧ x.run = none ∧ x.fn.st = .stopping) ∧
    (let s : State := on
         { dev0 with field := { running := true, seqs := ⟨#[{ fn := { st := .stopping }, run := some { trigAt := 0, cut := true } }, {}, {}, {}], rfl⟩ } }
     let dt : Nat := 0
     let q : Fin 4 := 0
     let d := (s.elapse dt).dev
     let f := d.field
     let x := f.seq q.val
     let r := { trigAt := 0, cut := true }
     s.dev.field.running = true ∧ x.run = some r ∧ x.ended r = true ∧ x.fn.st = .stopping) := by
  refine ⟨?_, ?_, ?_, ?_, ?_, ?_, ?_, ?_, ?_, ?_, ?_, ?_, ?_, ?_, ?_, ?_⟩ <;> decide +kernel

theorem witness_ConvertersRun :
    (let s : State := s0
     let dt : Nat := 0
     let c : Fin 4 := 0
     let d := (s.elapse dt).dev
     let f := d.field
     let x := f.conv c.val
     (x.fn.st ≠ .starting ∨ d.now < x.startAt + 50 * us)) ∧
    (let s : State := s0
     let dt : Nat := 0
     let c : Fin 4 := 0
     let d := (s.elapse dt).dev
     let f := d.field
     let x := f.conv c.val
     x.fn.st ≠ .stopping) ∧
    (let s : State := s0
     let dt : Nat := 0
     let d := (s.elapse dt).dev
     let f := d.field
     (f.exc.st = .off ∨ d.fieldNs < f.excNext)) ∧
    (let width : Nat := 0
     width < 100) ∧
    (let s : State := s0
     let dt : Nat := 0
     let d := (s.elapse dt).dev
     let f := d.field
     f.blankAt = none) ∧
    (let s : State := s0
     let dt : Nat := 0
     let d := (s.elapse dt).dev
     let f := d.field
     f.blankRel = none) ∧
    (let s : State := s0
     let dt : Nat := 0
     let codes : List Int := []
     let d := (s.elapse dt).dev
     let f := d.field
     (f.calRun = none ∨ codes.length ≠ 4096)) ∧
    (let s : State := s0
     let dt : Nat := 0
     let d := (s.elapse dt).dev
     let f := d.field
     f.capture = none) ∧
    (let s : State := s0
     let dt : Nat := 0
     let c : Fin 4 := 0
     let b : Bool := false
     let d := (s.elapse dt).dev
     let f := d.field
     let x := f.conv c.val
     let last := if b then x.bgB else x.bgA
     d.now < last + ms) ∧
    (let s : State := on { dev0 with field := { running := true, convs := Vector.replicate 4 { usableA := false } } }
     let dt : Nat := ms
     let c : Fin 4 := 0
     let b : Bool := false
     let offset : Int := 0
     let gain : Int := 0
     let d := (s.elapse dt).dev
     let f := d.field
     let x := f.conv c.val
     let unit := 2 * c.val + b.toNat
     let drift : Bool := 256 < (offset - Config.adcTestOffset unit).natAbs || (Config.adcTestGain unit).natAbs < 100 * (gain -
         Config.adcTestGain unit).natAbs
     let n := if drift then (if b then x.driftB else x.driftA) + 1 else 0
     let last := if b then x.bgB else x.bgA
     s.dev.field.running = true ∧ last + ms ≤ d.now ∧ (n < 10 ∨ (if b then x.usableB else x.usableA) = false)) ∧
    (let s : State := on { dev0 with field := { running := true, convs := Vector.replicate 4 { driftA := 9 } } }
     let dt : Nat := ms
     let c : Fin 4 := 0
     let b : Bool := false
     let offset : Int := Config.adcTestOffset 0 + 1000
     let gain : Int := 0
     let d := (s.elapse dt).dev
     let f := d.field
     let x := f.conv c.val
     let unit := 2 * c.val + b.toNat
     let drift : Bool := 256 < (offset - Config.adcTestOffset unit).natAbs || (Config.adcTestGain unit).natAbs < 100 * (gain -
         Config.adcTestGain unit).natAbs
     let n := if drift then (if b then x.driftB else x.driftA) + 1 else 0
     let last := if b then x.bgB else x.bgA
     s.dev.field.running = true ∧ last + ms ≤ d.now ∧ 10 ≤ n ∧ (if b then x.usableB else x.usableA) = true) ∧
    (let s : State := on { dev0 with field := { running := true, convs := Vector.replicate 4 { fn := { st := .starting } } } }
     let dt : Nat := 50 * us
     let c : Fin 4 := 0
     let d := (s.elapse dt).dev
     let f := d.field
     let x := f.conv c.val
     s.dev.field.running = true ∧ x.fn.st = .starting ∧ x.startAt + 50 * us ≤ d.now ∧ x.fn.stopPending = false) ∧
    (let s : State := on { dev0 with field := { running := true, convs := Vector.replicate 4 { fn := { st := .stopping } } } }
     let dt : Nat := 0
     let c : Fin 4 := 0
     let d := (s.elapse dt).dev
     let f := d.field
     let x := f.conv c.val
     s.dev.field.running = true ∧ x.fn.st = .stopping) ∧
    (let s : State := on { dev0 with field := { running := true, exc := { st := .on }, excPos := true } }
     let dt : Nat := 0
     let d := (s.elapse dt).dev
     let f := d.field
     s.dev.field.running = true ∧ f.exc.st = .on ∧ f.excNext ≤ d.fieldNs ∧ f.excPos = true) ∧
    (let s : State := on { dev0 with field := { running := true, exc := { st := .on } } }
     let dt : Nat := 0
     let d := (s.elapse dt).dev
     let f := d.field
     s.dev.field.running = true ∧ f.exc.st = .on ∧ f.excNext ≤ d.fieldNs ∧ f.excPos = false) ∧
    (let s : State := on { dev0 with field := { running := true, exc := { st := .starting } } }
     let dt : Nat := 0
     let d := (s.elapse dt).dev
     let f := d.field
     s.dev.field.running = true ∧ f.exc.st = .starting ∧ f.excNext ≤ d.fieldNs ∧ f.exc.stopPending = false) ∧
    (let s : State := on { dev0 with field := { running := true, exc := { st := .stopping } } }
     let dt : Nat := 0
     let d := (s.elapse dt).dev
     let f := d.field
     s.dev.field.running = true ∧ f.exc.st = .stopping ∧ f.excNext ≤ d.fieldNs ∧ f.excPos = false) ∧
    (let s : State := s0
     let width : Nat := 100
     s.dev.field.running = true ∧ 100 ≤ width) ∧
    (let s : State := on { dev0 with field := { running := true, blankAt := some 0 } }
     let dt : Nat := 0
     let d := (s.elapse dt).dev
     let f := d.field
     s.dev.field.running = true ∧ f.blankAt ≠ none) ∧
    (let s : State := on
         { dev0 with field := { running := true, seqs := ⟨#[{ run := some { trigAt := 0 } }, {}, {}, {}], rfl⟩, blankRel := some 0 } }
     let dt : Nat := 0
     let q : Fin 4 := 0
     let d := (s.elapse dt).dev
     let f := d.field
     let y := f.seq q.val
     let t := 0
     let r := { trigAt := 0 }
     s.dev.field.running = true ∧ f.blankRel = some t ∧ y.run = some r ∧ t + sHold y.hdr ≤ d.now) ∧
    (let s : State := on
         { dev0 with field := { running := true, seqs := ⟨#[{ run := some { trigAt := 0, deferAt := some 0 } }, {}, {}, {}], rfl⟩ } }
     let dt : Nat := 0
     let q : Fin 4 := 0
     let d := (s.elapse dt).dev
     let f := d.field
     let y := f.seq q.val
     let r := { trigAt := 0, deferAt := some 0 }
     let t := 0
     s.dev.field.running = true ∧ y.run = some r ∧ r.deferAt = some t ∧ t + sMax y.hdr ≤ d.now) ∧
    (let s : State := on { dev0 with field := { running := true, seqs := ⟨#[{ run := some { trigAt := 0 } }, {}, {}, {}], rfl⟩ } }
     let dt : Nat := 0
     let q : Fin 4 := 0
     let d := (s.elapse dt).dev
     let f := d.field
     let y := f.seq q.val
     let r := { trigAt := 0 }
     s.dev.field.running = true ∧ y.run = some r ∧ r.deferAt = none) ∧
    (let s : State := on { dev0 with field := { running := true, calRun := some (0, false, 5, 0) } }
     let dt : Nat := 0
     let codes : List Int := List.replicate 4096 0
     let d := (s.elapse dt).dev
     let f := d.field
     let path := 0
     let e := 5
     let t := 0
     s.dev.field.running = true ∧ f.calRun = some (path, false, e, t) ∧ codes.length = 4096) ∧
    (let s : State := on { dev0 with field := { running := true, calRun := some (0, true, 5, 0) } }
     let dt : Nat := 0
     let codes : List Int := List.replicate 4096 0
     let d := (s.elapse dt).dev
     let f := d.field
     let path := 0
     let e := 5
     let t := 0
     s.dev.field.running = true ∧ f.calRun = some (path, true, e, t) ∧ codes.length = 4096) ∧
    (let s : State := on
         { dev0 with field := { running := true, capture := some ⟨0, 256, 1, 0, some 0, false⟩, convs := Vector.replicate 4 { fn := { st := .on } } } }
     let dt : Nat := 0
     let d := (s.elapse dt).dev
     let f := d.field
     let z := ⟨0, 256, 1, 0, some 0, false⟩
     s.dev.field.running = true ∧ f.capture = some z ∧ z.startAt ≠ none ∧ z.running = false ∧ f.captureOn = true) ∧
    (let s : State := on { dev0 with field := { running := true, capture := some ⟨0, 256, 1, 0, some 0, false⟩ } }
     let dt : Nat := 0
     let d := (s.elapse dt).dev
     let f := d.field
     let z := ⟨0, 256, 1, 0, some 0, false⟩
     s.dev.field.running = true ∧ f.capture = some z ∧ z.startAt ≠ none ∧ z.running = false ∧ f.captureOn = false) ∧
    (let s : State := on { dev0 with field := { running := true, capture := some ⟨0, 256, 1, 0, none, false⟩ } }
     let dt : Nat := 0
     let d := (s.elapse dt).dev
     let f := d.field
     let z := ⟨0, 256, 1, 0, none, false⟩
     s.dev.field.running = true ∧ f.capture = some z ∧ (z.startAt = none ∨ z.running = true)) ∧
    (let s : State := on { dev0 with field := { running := true, capture := some ⟨0, 256, 1, 0, some 0, true⟩ } }
     let dt : Nat := 16000
     let samples : List Nat := List.replicate 256 9
     let d := (s.elapse dt).dev
     let f := d.field
     let z := ⟨0, 256, 1, 0, some 0, true⟩
     let t := 0
     s.dev.field.running = true ∧ f.capture = some z ∧ z.startAt = some t ∧ z.running = true ∧ samples.length = z.count * z.dec ∧ t +
       z.count * z.dec * 125 / 2 ≤ d.now) ∧
    (let s : State := on { dev0 with field := { running := true, capture := some ⟨0, 256, 1, 0, none, false⟩ } }
     let dt : Nat := 10 * second
     let d := (s.elapse dt).dev
     let f := d.field
     let z := ⟨0, 256, 1, 0, none, false⟩
     s.dev.field.running = true ∧ f.capture = some z ∧ z.startAt = none ∧ z.armedAt + 10 * second ≤ d.now) ∧
    (let s : State := on { dev0 with field := { running := true, capture := some ⟨0, 256, 1, 0, none, false⟩ } }
     let dt : Nat := 0
     let d := (s.elapse dt).dev
     let f := d.field
     let z := ⟨0, 256, 1, 0, none, false⟩
     s.dev.field.running = true ∧ f.capture = some z ∧ z.startAt = none ∧ d.now < z.armedAt + 10 * second) := by
  refine ⟨?_, ?_, ?_, ?_, ?_, ?_, ?_, ?_, ?_, ?_, ?_, ?_, ?_, ?_, ?_, ?_, ?_, ?_, ?_, ?_, ?_, ?_, ?_, ?_, ?_, ?_, ?_, ?_, ?_, ?_⟩
  · decide +kernel
  · decide +kernel
  · decide +kernel
  · decide +kernel
  · decide +kernel
  · decide +kernel
  · decide +kernel
  · decide +kernel
  · decide +kernel
  · exact ⟨by decide +kernel, by decide +kernel, Or.inr (by decide +kernel)⟩
  · refine ⟨by decide +kernel, by decide +kernel, ?_, by decide +kernel⟩
    exact tenth_drift (Config.adcTestOffset 0) _
  · decide +kernel
  · decide +kernel
  · decide +kernel
  · decide +kernel
  · decide +kernel
  · decide +kernel
  · decide +kernel
  · decide +kernel
  · decide +kernel
  · decide +kernel
  · decide +kernel
  · decide +kernel
  · decide +kernel
  · decide +kernel
  · decide +kernel
  · decide +kernel
  · decide +kernel
  · decide +kernel
  · decide +kernel

theorem witness_SelfTestSlices :
    (let s : State := s0
     let dt : Nat := 0
     let d := (s.elapse dt).dev
     let b := d.bist
     (b.run ≠ none ∨ d.gapOpen = false ∨ b.gapStopped = true)) ∧
    (let s : State := s0
     let dt : Nat := 0
     let d := (s.elapse dt).dev
     let b := d.bist
     b.run = none) ∧
    (let s : State := on { dev0 with bist := { run := some { num := 0, startedAt := 0, reserved := true, retest := false } } }
     let dt : Nat := 0
     let x : SliceRun := { num := 0, startedAt := 0, reserved := true, retest := false }
     let d := (s.elapse dt).dev
     let b := d.bist
     b.run = some x ∧ x.reserved = true) ∧
    (let s : State := s0
     let dt : Nat := 0
     let d := (s.elapse dt).dev
     let b := d.bist
     d.now < b.coverAt + fld b.inForce 47 32 * second) ∧
    (let s : State := s0
     let dt : Nat := 0
     let d := (s.elapse dt).dev
     let b := d.bist
     (d.fire.fn.st = .on ∨ d.sec.switchAt ≠ none ∨ d.time.ns.toNat / (40 * ms) = b.idleAt)) ∧
    (let s : State := s0
     let dt : Nat := 0
     let d := (s.elapse dt).dev
     let b := d.bist
     b.directed = none) ∧
    (let s : State := on { dev0 with power := { core := .off } }
     let dt : Nat := 0
     let d := (s.elapse dt).dev
     d.alive = false) ∧
    (let s : State := on { dev0 with bist := { gap := some 0 }, rx := { gapPasses := 24 }, cal := { passDone := true } }
     let dt : Nat := 0
     let n : Nat := 0
     let clocks : Bool := true
     let d := (s.elapse dt).dev
     let b := d.bist
     d.alive = true ∧ b.run = none ∧ d.gapOpen = true ∧ b.gapStopped = false ∧ d.pickSlice.2 = some n ∧ clocks = true ∧ d.sliceBarred =
       none ∧ d.sliceFits n = true) ∧
    (let s : State := on { dev0 with bist := { gap := some 0, spent := 100000 }, rx := { gapPasses := 24 }, cal := { passDone := true } }
     let dt : Nat := 0
     let n : Nat := 0
     let clocks : Bool := true
     let d := (s.elapse dt).dev
     let b := d.bist
     d.alive = true ∧ b.run = none ∧ d.gapOpen = true ∧ b.gapStopped = false ∧ d.pickSlice.2 = some n ∧ clocks = true ∧ d.sliceBarred =
       none ∧ d.sliceFits n = false) ∧
    (let s : State := on
         { dev0 with bist := { gap := some 0 }, rx := { gapPasses := 24 }, cal := { passDone := true }, power := { core := .run, warn := 1 } }
     let dt : Nat := 0
     let n : Nat := 0
     let clocks : Bool := false
     let d := (s.elapse dt).dev
     let b := d.bist
     d.alive = true ∧ b.run = none ∧ d.gapOpen = true ∧ b.gapStopped = false ∧ d.pickSlice.2 = some n ∧ (clocks = false ∨ d.sliceBarred ≠
       none)) ∧
    (let s : State := on { dev0 with bist := { run := some { num := 0, startedAt := 0, reserved := false, retest := false } } }
     let dt : Nat := 0
     let x : SliceRun := { num := 0, startedAt := 0, reserved := false, retest := false }
     let r : SliceResult := ⟨false, false, false, false, 0⟩
     let d := (s.elapse dt).dev
     let b := d.bist
     d.alive = true ∧ b.run = some x ∧ sliceVerdict r = 2) ∧
    (let s : State := on { dev0 with bist := { run := some { num := 0, startedAt := 0, reserved := false, retest := false } } }
     let dt : Nat := 0
     let x : SliceRun := { num := 0, startedAt := 0, reserved := false, retest := false }
     let r : SliceResult := ⟨true, true, false, false, 0⟩
     let d := (s.elapse dt).dev
     let b := d.bist
     d.alive = true ∧ b.run = some x ∧ sliceVerdict r = 0 ∧ mget x.num b.retest = none ∧ b.pos < 411) ∧
    (let s : State := on { dev0 with bist := { run := some { num := 0, startedAt := 0, reserved := false, retest := false } } }
     let dt : Nat := 0
     let x : SliceRun := { num := 0, startedAt := 0, reserved := false, retest := false }
     let r : SliceResult := ⟨true, false, false, false, 0⟩
     let d := (s.elapse dt).dev
     let b := d.bist
     d.alive = true ∧ b.run = some x ∧ sliceVerdict r = 1 ∧ sliceMemory x.num = false ∧ mget x.num b.retest = none ∧ b.pos < 411) ∧
    (let s : State := on { dev0 with bist := { run := some { num := 0, startedAt := 0, reserved := false, retest := false } } }
     let dt : Nat := 0
     let x : SliceRun := { num := 0, startedAt := 0, reserved := false, retest := false }
     let bus : Bool := false
     let d := (s.elapse dt).dev
     let b := d.bist
     d.alive = true ∧ b.run = some x ∧ (x.reserved = false ∨ bus = false)) ∧
    (let s : State := on { dev0 with bist := { run := some { num := 0, startedAt := 0, reserved := false, retest := false } } }
     let dt : Nat := 0
     let x : SliceRun := { num := 0, startedAt := 0, reserved := false, retest := false }
     let cause : Fin 8 := 2
     let d := (s.elapse dt).dev
     let b := d.bist
     d.alive = true ∧ b.run = some x ∧ 2 ≤ cause.val ∧ cause.val ≤ 6) ∧
    (let s : State := s0
     let dt : Nat := 70000 * second
     let d := (s.elapse dt).dev
     let b := d.bist
     d.alive = true ∧ b.coverAt + fld b.inForce 47 32 * second ≤ d.now) ∧
    (let s : State := s0
     let dt : Nat := 40 * ms
     let d := (s.elapse dt).dev
     let b := d.bist
     d.alive = true ∧ d.fire.fn.st ≠ .on ∧ d.sec.switchAt = none ∧ d.time.ns.toNat / (40 * ms) ≠ b.idleAt) ∧
    (let s : State := on { dev0 with fire := { fn := { st := .on } } }
     let dt : Nat := 0
     let d := (s.elapse dt).dev
     d.alive = true ∧ d.fire.fn.st = .on) ∧
    (let s : State := on { dev0 with bist := { directed := some (0, 0) } }
     let dt : Nat := 0
     let d := (s.elapse dt).dev
     let b := d.bist
     let y := (0, 0)
     d.alive = true ∧ b.directed = some y ∧ d.power.shut = none) ∧
    (let s : State := on { dev0 with bist := { directed := some (0, 0) }, power := { core := .run, shut := some (0, .standby) } }
     let dt : Nat := 0
     let d := (s.elapse dt).dev
     let b := d.bist
     d.alive = true ∧ b.directed ≠ none ∧ d.power.shut ≠ none) := by
  refine ⟨?_, ?_, ?_, ?_, ?_, ?_, ?_, ?_, ?_, ?_, ?_, ?_, ?_, ?_, ?_, ?_, ?_, ?_, ?_, ?_⟩ <;> decide +kernel

theorem witness_FieldSupply :
    (let s : State := s0
     let dt : Nat := 0
     let d := (s.elapse dt).dev
     let f := d.field
     f.running = true) ∧
    (let s : State := on { dev0 with field := { } }
     let dt : Nat := 0
     let v0 : Nat := 6500
     let v1 : Nat := 0
     let v2 : Nat := 0
     let v3 : Nat := 0
     let d := (s.elapse dt).dev
     let f := d.field
     let vs := [v0, v1, v2, v3]
     f.running = false ∧ f.hot = false ∧ 6500 ≤ vs.foldl max 0) ∧
    (let s : State := on { dev0 with field := { } }
     let dt : Nat := 0
     let v0 : Nat := 0
     let v1 : Nat := 0
     let v2 : Nat := 0
     let v3 : Nat := 0
     let d := (s.elapse dt).dev
     let f := d.field
     let vs := [v0, v1, v2, v3]
     f.running = false ∧ (f.hot = true ∨ vs.foldl max 0 < 6500)) ∧
    (let v0 : Nat := 5500
     let v1 : Nat := 0
     let v2 : Nat := 0
     let v3 : Nat := 0
     let vs := [v0, v1, v2, v3]
     5500 ≤ vs.foldl max 0) ∧
    (let s : State := s0
     let dt : Nat := 0
     let v0 : Nat := 0
     let v1 : Nat := 0
     let v2 : Nat := 0
     let v3 : Nat := 0
     let d := (s.elapse dt).dev
     let f := d.field
     let vs := [v0, v1, v2, v3]
     vs.foldl max 0 < 5500 ∧ f.running = true) ∧
    (let s : State := s0
     let dt : Nat := 0
     let temps : List Int := []
     let d := (s.elapse dt).dev
     let hot := (d.power.validField temps).any (fun t => decide (d.power.fieldLimit ≤ t))
     hot = false) ∧
    (let s : State := s0
     let dt : Nat := 0
     let temps : List Int := [17000]
     let d := (s.elapse dt).dev
     let hot := (d.power.validField temps).any (fun t => decide (d.power.fieldLimit ≤ t))
     s.dev.field.running = true ∧ hot = true) ∧
    (let s : State := s0
     let dt : Nat := 0
     let temps : List Int := []
     let d := (s.elapse dt).dev
     let f := d.field
     let cool := (d.power.validField temps).all (fun t => decide (t < 15000))
     (f.hot = false ∨ cool = false)) ∧
    (let s : State := on { dev0 with field := { hot := true, groups := Vector.replicate 4 { mv := 6000 } } }
     let dt : Nat := 0
     let temps : List Int := []
     let d := (s.elapse dt).dev
     let f := d.field
     let cool := (d.power.validField temps).all (fun t => decide (t < 15000))
     f.hot = true ∧ cool = true ∧ 6000 ≤ f.highest) ∧
    (let s : State := on { dev0 with field := { hot := true } }
     let dt : Nat := 0
     let temps : List Int := []
     let d := (s.elapse dt).dev
     let f := d.field
     let cool := (d.power.validField temps).all (fun t => decide (t < 15000))
     f.hot = true ∧ cool = true ∧ f.highest < 6000) ∧
    (let s : State := s0
     let dt : Nat := 0
     let d := (s.elapse dt).dev
     let f := d.field
     d.now < f.ramAt + 100 * us) ∧
    (let s : State := s0
     let dt : Nat := 100 * us
     let d := (s.elapse dt).dev
     let f := d.field
     s.dev.field.running = true ∧ f.ramAt + 100 * us ≤ d.now ∧ d.bist.spareField ≠ 0) ∧
    (let s : State := on { dev0 with bist := { spareField := 0 } }
     let dt : Nat := 100 * us
     let d := (s.elapse dt).dev
     let f := d.field
     s.dev.field.running = true ∧ f.ramAt + 100 * us ≤ d.now ∧ d.bist.spareField = 0) ∧
    (let s : State := s0
     let dt : Nat := 0
     let d := (s.elapse dt).dev
     let f := d.field
     d.now < f.nvmAt + 10 * second) ∧
    (let s : State := s0
     let dt : Nat := 10 * second
     let d := (s.elapse dt).dev
     let f := d.field
     let idle := fun (p : Pair 32) => 1 - p.v.toNat % 2
     let intact := f.blockOk = true ∧ f.inputsOk = true ∧ f.badCoeffs = [] ∧ (vget f.blocks (idle f.blockPtr) ⟨0, 0⟩).ok = true ∧ (vget
         f.inCfgs (idle f.inPtr) ⟨0, 0⟩).ok = true ∧ (vget f.coeffs (idle f.coeffPtr) (Vector.replicate 17 ⟨0, 0⟩)).all (fun p => p.ok) =
         true
     s.dev.field.running = true ∧ intact ∧ f.bad = [] ∧ f.nvmAt + 10 * second ≤ d.now) ∧
    (let s : State := on { dev0 with field := { running := true, blockPtr := ⟨0, 0⟩ } }
     let dt : Nat := 10 * second
     let d := (s.elapse dt).dev
     let f := d.field
     s.dev.field.running = true ∧ f.nvmAt + 10 * second ≤ d.now ∧ f.blockOk = false ∧ f.blockBad = false) ∧
    (let s : State := s0
     let dt : Nat := 0
     let k : NvmKind := .inputs
     let d := (s.elapse dt).dev
     d.power.nvmWait.find? (fun w => w.1 == k) = none) ∧
    (let s : State := on { dev0 with power := { core := .run, nvmWait := [(.inputs, 0)] } }
     let dt : Nat := 0
     let k : NvmKind := .inputs
     let d := (s.elapse dt).dev
     let w := (.inputs, 0)
     d.power.nvmWait.find? (fun w => w.1 == k) = some w ∧ d.now < w.2 + second) ∧
    (let s : State := on { dev0 with power := { core := .run, nvmWait := [(.inputs, 0)] } }
     let dt : Nat := second
     let k : NvmKind := .inputs
     let d := (s.elapse dt).dev
     let w := (.inputs, 0)
     s.dev.field.running = true ∧ d.power.nvmWait.find? (fun w => w.1 == k) = some w ∧ w.2 + second ≤ d.now) := by
  refine ⟨?_, ?_, ?_, ?_, ?_, ?_, ?_, ?_, ?_, ?_, ?_, ?_, ?_, ?_, ?_, ?_, ?_, ?_, ?_⟩
  · decide +kernel
  · decide +kernel
  · decide +kernel
  · decide +kernel
  · decide +kernel
  · decide +kernel
  · decide +kernel
  · decide +kernel
  · decide +kernel
  · decide +kernel
  · decide +kernel
  · decide +kernel
  · decide +kernel
  · decide +kernel
  · repeat' (first | decide +kernel | exact rfl | constructor)
  · decide +kernel
  · decide +kernel
  · decide +kernel
  · decide +kernel

theorem witness_Switchovers :
    (let s : State := s0
     let dt : Nat := 0
     let c : Component := .general
     let d := (s.elapse dt).dev
     let n := compNo c
     (s.elapse dt).dev.alive = true ∧ d.staging n ≠ .erasing) ∧
    (let s : State := s0
     let dt : Nat := 0
     let c : Component := .general
     let d := (s.elapse dt).dev
     let n := compNo c
     (s.elapse dt).dev.alive = true ∧ d.staging n ≠ .verifying) ∧
    (let s : State := s0
     let dt : Nat := 0
     let d := (s.elapse dt).dev
     let x := d.sec
     (s.elapse dt).dev.alive = true ∧ (d.generalDue = false ∨ x.switchAt ≠ none ∨ x.sealSwitchAt ≠ none)) ∧
    (let s : State := s0
     let dt : Nat := 0
     let d := (s.elapse dt).dev
     let x := d.sec
     (s.elapse dt).dev.alive = true ∧ (x.switchAt = none ∨ vget x.staged 0 none = none)) ∧
    (let s : State := on { dev0 with sec := { switchAt := some 0 } }
     let dt : Nat := 8 * ms + 1
     let d := (s.elapse dt).dev
     let x := d.sec
     let t := 0
     (s.elapse dt).dev.alive = true ∧ x.switchAt = some t ∧ t + 8 * ms < d.now) ∧
    (let s : State := s0
     let dt : Nat := 0
     let d := (s.elapse dt).dev
     let x := d.sec
     (s.elapse dt).dev.alive = true ∧ x.switchAt = none) ∧
    (let s : State := on { dev0 with sec := { switchAt := some 0 } }
     let dt : Nat := 0
     let d := (s.elapse dt).dev
     let x := d.sec
     let t := 0
     (s.elapse dt).dev.alive = true ∧ x.switchAt = some t ∧ d.now < t + 8 * ms) ∧
    (let s : State := s0
     let dt : Nat := 0
     let d := (s.elapse dt).dev
     let x := d.sec
     (s.elapse dt).dev.alive = true ∧ (vget x.switchDue 1 false = false ∨ x.sealSwitchAt ≠ none ∨ x.switchAt ≠ none ∨ d.generalDue = true
       ∨ d.sealedRunning = true)) ∧
    (let s : State := s0
     let dt : Nat := 0
     let d := (s.elapse dt).dev
     let x := d.sec
     (s.elapse dt).dev.alive = true ∧ x.sealSwitchAt = none) ∧
    (let s : State := on { dev0 with sec := { sealSwitchAt := some 0 } }
     let dt : Nat := 0
     let d := (s.elapse dt).dev
     let x := d.sec
     let t := 0
     (s.elapse dt).dev.alive = true ∧ x.sealSwitchAt = some t ∧ d.now < t + 2 * ms) ∧
    (let s : State := on { dev0 with sec := { sealSwitchAt := some 0 } }
     let dt : Nat := 2 * ms + 1
     let d := (s.elapse dt).dev
     let x := d.sec
     let t := 0
     (s.elapse dt).dev.alive = true ∧ x.sealSwitchAt = some t ∧ t + 2 * ms < d.now) ∧
    (let s : State := on { dev0 with sec := { staging := Vector.replicate 2 .erasing } }
     let dt : Nat := 0
     let c : Component := .general
     let d := (s.elapse dt).dev
     let x := d.sec
     let n := compNo c
     (s.elapse dt).dev.alive = true ∧ s.dev.ready = true ∧ d.staging n = .erasing ∧ Mem.wf flashDefault x.flash = true) ∧
    (let s : State := on { dev0 with sec := { staging := Vector.replicate 2 .verifying } }
     let dt : Nat := 0
     let c : Component := .general
     let d := (s.elapse dt).dev
     let n := compNo c
     (s.elapse dt).dev.alive = true ∧ s.dev.ready = true ∧ d.staging n = .verifying) ∧
    (let s : State := on { dev0 with sec := { switchDue := ⟨#[true, false], rfl⟩ } }
     let dt : Nat := 0
     let d := (s.elapse dt).dev
     let x := d.sec
     (s.elapse dt).dev.alive = true ∧ s.dev.ready = true ∧ d.generalDue = true ∧ x.switchAt = none ∧ x.sealSwitchAt = none) ∧
    (let s : State := on { dev0 with sec := { switchAt := some 0, staged := Vector.replicate 2 (some ⟨0, 2, 0, 0, 0⟩) } }
     let dt : Nat := 8 * ms
     let i : Image := ⟨0, 2, 0, 0, 0⟩
     let d := (s.elapse dt).dev
     let x := d.sec
     let t := 0
     (s.elapse dt).dev.alive = true ∧ s.dev.ready = true ∧ x.switchAt = some t ∧ vget x.staged 0 none = some i ∧ d.now ≤ t + 8 * ms) ∧
    (let s : State := on { dev0 with sec := { switchAt := some 0 } }
     let dt : Nat := 8 * ms
     let d := (s.elapse dt).dev
     let x := d.sec
     let t := 0
     (s.elapse dt).dev.alive = true ∧ x.switchAt = some t ∧ t + 8 * ms ≤ d.now) ∧
    (let s : State := on { dev0 with sec := { switchDue := ⟨#[false, true], rfl⟩ } }
     let dt : Nat := 0
     let d := (s.elapse dt).dev
     let x := d.sec
     (s.elapse dt).dev.alive = true ∧ vget x.switchDue 1 false = true ∧ x.sealSwitchAt = none ∧ x.switchAt = none ∧ d.generalDue = false ∧
       d.sealedRunning = false) ∧
    (let s : State := on { dev0 with sec := { sealSwitchAt := some 0, staged := Vector.replicate 2 (some ⟨0, 2, 0, 0, 0⟩) } }
     let dt : Nat := 2 * ms
     let i : Image := ⟨0, 2, 0, 0, 0⟩
     let d := (s.elapse dt).dev
     let x := d.sec
     let t := 0
     (s.elapse dt).dev.alive = true ∧ x.sealSwitchAt = some t ∧ vget x.staged 1 none = some i ∧ d.now ≤ t + 2 * ms ∧ x.deferred = []) ∧
    (let s : State := on { dev0 with sec := { sealSwitchAt := some 0 } }
     let dt : Nat := 2 * ms
     let d := (s.elapse dt).dev
     let x := d.sec
     let t := 0
     (s.elapse dt).dev.alive = true ∧ x.sealSwitchAt = some t ∧ t + 2 * ms ≤ d.now ∧ x.deferred = []) ∧
    (let s : State := on { dev0 with sec := { lc := ⟨3, ~~~3⟩ } }
     let dt : Nat := 0
     let d := (s.elapse dt).dev
     let x := d.sec
     let shut : Bool := !((d.lc = lcBlank || d.lc = lcReturn) && !x.fuseFail)
     (s.elapse dt).dev.alive = true ∧ shut = true) ∧
    (let s : State := on { dev0 with sec := { keys := Vector.replicate 16 (Vector.replicate 4 { written := true }) } }
     let dt : Nat := 0
     let r : BitVec 128 := .ofNat 128 (Crypto.toNat (Crypto.cmac (keyBytes 0) (uidBytes ++ Crypto.bytesOfNat 16 (Config.nonce 0).toNat)))
         + 1
     let k : Nat × KeyCopy := (3, { written := true })
     let d := (s.elapse dt).dev
     let right : Bool := BitVec.ofNat 128 (Crypto.toNat (Crypto.cmac (keyBytes k.2.value) (uidBytes ++ Crypto.bytesOfNat 16 (Config.nonce
         d.wcp.draws).toNat))) == r
     (s.elapse dt).dev.alive = true ∧ d.keyCopy 15 = some k ∧ right = false) ∧
    (let s : State := on { dev0 with sec := { keys := Vector.replicate 16 (Vector.replicate 4 { written := true }) } }
     let dt : Nat := 0
     let r : BitVec 128 := .ofNat 128 (Crypto.toNat (Crypto.cmac (keyBytes 0) (uidBytes ++ Crypto.bytesOfNat 16 (Config.nonce 0).toNat)))
     let k : Nat × KeyCopy := (3, { written := true })
     let d := (s.elapse dt).dev
     let x := d.sec
     let right : Bool := BitVec.ofNat 128 (Crypto.toNat (Crypto.cmac (keyBytes k.2.value) (uidBytes ++ Crypto.bytesOfNat 16 (Config.nonce
         d.wcp.draws).toNat))) == r
     let shut : Bool := !((d.lc = lcBlank || d.lc = lcReturn) && !x.fuseFail)
     (s.elapse dt).dev.alive = true ∧ shut = false ∧ d.keyCopy 15 = some k ∧ right = true) := by
  refine ⟨?_, ?_, ?_, ?_, ?_, ?_, ?_, ?_, ?_, ?_, ?_, ?_, ?_, ?_, ?_, ?_, ?_, ?_, ?_, ?_, ?_, ?_⟩
  · decide +kernel
  · decide +kernel
  · decide +kernel
  · decide +kernel
  · decide +kernel
  · decide +kernel
  · decide +kernel
  · decide +kernel
  · decide +kernel
  · decide +kernel
  · decide +kernel
  · decide +kernel
  · decide +kernel
  · decide +kernel
  · decide +kernel
  · decide +kernel
  · decide +kernel
  · decide +kernel
  · decide +kernel
  · decide +kernel
  · refine ⟨by decide +kernel, by decide +kernel, ?_⟩
    exact beq_succ _
  · refine ⟨by decide +kernel, by decide +kernel, by decide +kernel, ?_⟩
    exact beq_self_eq_true _

theorem witness_CoreSupply :
    (let s : State := s0
     let dt : Nat := 0
     let mv : Nat := 0
     let calm : Nat := 0
     let d := (s.elapse dt).dev
     let p := d.power
     (mv < 9500 ∨ p.core ≠ .off ∨ p.thermHold = true ∨ p.thermLock = true ∨ (p.ovBarred = true ∧ (60000 ≤ mv ∨ calm < 11 * ms)))) ∧
    (let s : State := on { dev0 with power := { core := .off } }
     let dt : Nat := 0
     let mv : Nat := 9500
     let calm : Nat := 0
     let d := (s.elapse dt).dev
     let p := d.power
     9500 ≤ mv ∧ p.core = .off ∧ p.thermHold = false ∧ p.thermLock = false ∧ (p.ovBarred = false ∨ (mv < 60000 ∧ 11 * ms ≤ calm)) ∧
       p.offUntil ≤ d.now) ∧
    (let s : State := on { dev0 with power := { core := .off, offUntil := 5 } }
     let dt : Nat := 0
     let mv : Nat := 9500
     let calm : Nat := 0
     let d := (s.elapse dt).dev
     let p := d.power
     9500 ≤ mv ∧ p.core = .off ∧ p.thermHold = false ∧ p.thermLock = false ∧ (p.ovBarred = false ∨ (mv < 60000 ∧ 11 * ms ≤ calm)) ∧ d.now
       < p.offUntil) ∧
    (let mv : Nat := 9000
     9000 ≤ mv) ∧
    (let mv : Nat := 8999
     mv < 9000) ∧
    (let s : State := s0
     let dt : Nat := 0
     let mv : Nat := 0
     let d := (s.elapse dt).dev
     let p := d.power
     (mv < 9300 ∨ p.low = false)) ∧
    (let s : State := on { dev0 with power := { core := .run, low := true } }
     let dt : Nat := 0
     let mv : Nat := 9300
     let d := (s.elapse dt).dev
     let p := d.power
     9300 ≤ mv ∧ p.low = true) ∧
    (let mv : Nat := 8500
     8500 ≤ mv) ∧
    (let mv : Nat := 63000
     mv ≤ 63000) ∧
    (let s : State := on { dev0 with power := { core := .off } }
     let dt : Nat := 0
     let d := (s.elapse dt).dev
     let p := d.power
     (d.powered = false ∨ p.shut ≠ none)) ∧
    (let s : State := s0
     let dt : Nat := 0
     let cause : Cause := .por
     let d := (s.elapse dt).dev
     let p := d.power
     (d.powered = false ∨ p.shut ≠ none ∨ causeShuts cause = false)) ∧
    (let s : State := s0
     let dt : Nat := 0
     let mv : Nat := 8499
     let d := (s.elapse dt).dev
     let p := d.power
     d.powered = true ∧ p.shut = none ∧ mv < 8500) ∧
    (let s : State := s0
     let dt : Nat := 0
     let mv : Nat := 63001
     let d := (s.elapse dt).dev
     let p := d.power
     d.powered = true ∧ p.shut = none ∧ 63000 < mv) ∧
    (let s : State := s0
     let dt : Nat := 0
     let cause : Cause := .pfVbat
     let d := (s.elapse dt).dev
     let p := d.power
     d.powered = true ∧ p.shut = none ∧ causeShuts cause = true) ∧
    (let s : State := s0
     let dt : Nat := 0
     let mv : Nat := 5401
     let rail : Rail := .vint
     let d := (s.elapse dt).dev
     let p := d.power
     let r := railNo rail
     d.powered = true ∧ p.shut = none ∧ r ≠ 0 ∧ railBeyond r mv (railLimit r) = true) ∧
    (let s : State := s0
     let dt : Nat := 0
     let a : Int := 16200
     let b : Int := 0
     let d := (s.elapse dt).dev
     let p := d.power
     d.powered = true ∧ p.shut = none ∧ 16200 ≤ max a b) ∧
    (let s : State := on { dev0 with power := { core := .run, standbyAt := some 0 } }
     let dt : Nat := 0
     let d := (s.elapse dt).dev
     let p := d.power
     let t := 0
     (s.elapse dt).dev.alive = true ∧ p.shut = none ∧ d.standbyDue = some t ∧ t ≤ d.now) ∧
    (let s : State := s0
     let dt : Nat := 0
     let d := (s.elapse dt).dev
     d.standbyDue = none) ∧
    (let s : State := on { dev0 with power := { core := .run, standbyAt := some 1 } }
     let dt : Nat := 0
     let d := (s.elapse dt).dev
     let t := 1
     d.standbyDue = some t ∧ d.now < t) ∧
    (let a : Int := 0
     let b : Int := 0
     max a b < 16200) ∧
    (let s : State := on { dev0 with power := { core := .off, thermHold := true } }
     let dt : Nat := 0
     let a : Int := 0
     let b : Int := 0
     let d := (s.elapse dt).dev
     let p := d.power
     p.thermHold = true ∧ p.thermLock = false ∧ max a b < 14000 ∧ p.core = .off ∧ 9500 ≤ p.vbat ∧ p.offUntil ≤ d.now) ∧
    (let s : State := s0
     let dt : Nat := 0
     let a : Int := 0
     let b : Int := 0
     let d := (s.elapse dt).dev
     let p := d.power
     (p.thermHold = false ∨ 14000 ≤ max a b)) ∧
    (let s : State := on { dev0 with power := { core := .off, thermHold := true, thermLock := true } }
     let dt : Nat := 0
     let a : Int := 0
     let b : Int := 0
     let d := (s.elapse dt).dev
     let p := d.power
     p.thermHold = true ∧ p.thermLock = true ∧ max a b < 14000 ∧ p.core = .off) ∧
    (let s : State := s0
     let dt : Nat := 0
     let mv : Nat := 5000
     let rail : Rail := .vint
     let d := (s.elapse dt).dev
     let r := railNo rail
     r ≠ 0 ∧ (d.powered = false ∨ railBeyond r mv (railWarn r) = false)) ∧
    (let s : State := s0
     let dt : Nat := 0
     let mv : Nat := 5151
     let rail : Rail := .vint
     let d := (s.elapse dt).dev
     let r := railNo rail
     r ≠ 0 ∧ d.powered = true ∧ railBeyond r mv (railWarn r) = true) ∧
    (let s : State := on { dev0 with power := { core := .run, warn := 1 } }
     let dt : Nat := 0
     let mv : Nat := 5150
     let rail : Rail := .vint
     let d := (s.elapse dt).dev
     let p := d.power
     let r := railNo rail
     r ≠ 0 ∧ railBeyond r mv (railWarn r) = false ∧ bit p.warn (r - 1) = true) ∧
    (let s : State := s0
     let dt : Nat := 0
     let mv : Nat := 5400
     let rail : Rail := .vint
     let d := (s.elapse dt).dev
     let r := railNo rail
     (d.powered = false ∨ railBeyond r mv (railLimit r) = false)) ∧
    (let s : State := s0
     let dt : Nat := 0
     let d := (s.elapse dt).dev
     let p := d.power
     p.shut = none) ∧
    (let s : State := on { dev0 with power := { core := .run, shut := some (0, .standby) } }
     let dt : Nat := 0
     let d := (s.elapse dt).dev
     let p := d.power
     let t := 0
     let c := .standby
     p.shut = some (t, c) ∧ d.now < t + 100 * us) ∧
    (let s : State := on { dev0 with power := { core := .run, shut := some (0, .standby) } }
     let dt : Nat := 100 * us
     let d := (s.elapse dt).dev
     let p := d.power
     let t := 0
     let c := .standby
     p.shut = some (t, c) ∧ t + 100 * us ≤ d.now) ∧
    (let s : State := on { dev0 with power := { core := .off, startDue := true } }
     let dt : Nat := 0
     let d := (s.elapse dt).dev
     let p := d.power
     p.startDue = true ∧ p.offUntil ≤ d.now ∧ d.powered = false) ∧
    (let s : State := s0
     let dt : Nat := 0
     let d := (s.elapse dt).dev
     let p := d.power
     (p.startDue = false ∨ d.now < p.offUntil ∨ d.powered = true)) ∧
    (let s : State := on { dev0 with power := { core := .standby } }
     let dt : Nat := 0
     let width : Nat := ms
     let d := (s.elapse dt).dev
     let p := d.power
     p.core = .standby ∧ ms ≤ width ∧ p.offUntil ≤ d.now) ∧
    (let s : State := s0
     let dt : Nat := 0
     let width : Nat := 0
     let d := (s.elapse dt).dev
     let p := d.power
     (p.core ≠ .standby ∨ width < ms)) := by
  refine ⟨?_, ?_, ?_, ?_, ?_, ?_, ?_, ?_, ?_, ?_, ?_, ?_, ?_, ?_, ?_, ?_, ?_, ?_, ?_, ?_, ?_, ?_, ?_, ?_, ?_, ?_, ?_, ?_, ?_, ?_, ?_, ?_, ?_, ?_⟩ <;> decide +kernel

theorem witness_ThermalAndLog :
    (let s : State := on { dev0 with power := { core := .run, sensors := Vector.replicate 16 { at_ := 1 } } }
     let dt : Nat := 0
     let d := (s.elapse dt).dev
     let p := d.power
     (∀ i, i < 16 → p.sampleDue i d.now = false)) ∧
    (let s : State := s0
     let dt : Nat := 0
     let d := (s.elapse dt).dev
     let p := d.power
     (p.step = 0 ∨ p.belowSince = none ∨ d.now < p.downAt d.now)) ∧
    (let s : State := on { dev0 with power := { core := .run, step := 1, belowSince := some 0 } }
     let dt : Nat := 20 * second
     let d := (s.elapse dt).dev
     let p := d.power
     (s.elapse dt).dev.alive = true ∧ p.step ≠ 0 ∧ p.step ≤ 4 ∧ p.belowSince ≠ none ∧ p.downAt d.now ≤ d.now ∧ p.twoFailed = false) ∧
    (let s : State := on { dev0 with log := { writing := some 0 } }
     let dt : Nat := 0
     let d := (s.elapse dt).dev
     let l := d.log
     l.writing ≠ none ∧ d.wcp.waits = []) ∧
    (let s : State := on
         { dev0 with log := { pend := [{ kind := 1, source := 0, severity := 0, payload := Bytes.nil, time := 0, tick := 0, late := false }] } }
     let dt : Nat := 0
     let d := (s.elapse dt).dev
     let p := d.power
     let l := d.log
     let counted := ∀ i, i < 10 → d.counterOk i = true
     let x := { kind := 1, source := 0, severity := 0, payload := Bytes.nil, time := 0, tick := 0, late := false }
     let rest := []
     (s.elapse dt).dev.alive = true ∧ s.dev.ready = true ∧ l.writing = none ∧ p.shut = none ∧ l.pend = x :: rest ∧ counted) ∧
    (let s : State := on { dev0 with power := { core := .run, shut := some (0, .standby) } }
     let dt : Nat := 0
     let d := (s.elapse dt).dev
     let p := d.power
     p.shut ≠ none ∧ d.wcp.waits = []) ∧
    (let s : State := s0
     let dt : Nat := 0
     let d := (s.elapse dt).dev
     let l := d.log
     l.writing = none) ∧
    (let s : State := on { dev0 with log := { writing := some 0 } }
     let dt : Nat := 0
     let d := (s.elapse dt).dev
     let l := d.log
     let counted := ∀ i, i < 10 → d.counterOk i = true
     let w := 0
     (s.elapse dt).dev.alive = true ∧ l.writing = some w ∧ counted) ∧
    (let s : State := s0
     let dt : Nat := 0
     let d := (s.elapse dt).dev
     let l := d.log
     d.now < l.onTimeAt + 60 * second) ∧
    (let s : State := s0
     let dt : Nat := 60 * second
     let d := (s.elapse dt).dev
     let l := d.log
     (s.elapse dt).dev.alive = true ∧ l.onTimeAt + 60 * second ≤ d.now) := by
  refine ⟨?_, ?_, ?_, ?_, ?_, ?_, ?_, ?_, ?_, ?_⟩ <;> decide +kernel

theorem witness_BusyConsumesNothing :
    (let i : Instr := .fireDitherSet 0 (.mailbox 0)
     let r : WcpRow := { dt := 0, origin := .mailbox 0, cmd := cmdDitherSet }
     let s : State := mail (dev1s { isOpen := true, slot := 1, pending := 16 }) (hdr 0x0247 0 1 4 1474289643059781074) ⟨4, 7⟩
     let e : Env := ⟨hdr 0x0247 0 1 4 1474289643059781074, ⟨4, 7⟩, .spi, false⟩
     let d := (s.elapse r.dt).dev
     let q := d.session e.session
     let served := d.serveOrWait [5]
     let bounded := q.pending = 16 ∨ e.tooMany = true
     wcpRow? i = some r ∧ Offered r.origin r.cmd e (s.elapse r.dt) ∧ e.malformed = false ∧ e.session ≠ 0xFF ∧ q.isOpen = true ∧ e.tagOk
       (keyBytes q.key) = true ∧ q.find e.counter = none ∧ q.high.toNat < e.counter ∧ (bounded ∨ (r.cmd.tracked e served).2.1 = sBusy)) := 
  by repeat' (first | decide +kernel | exact rfl | constructor)

theorem witness_ResetClosesTheProtocol :
    (let s : State := on { dev0 with wcp := { resetAt := some (1, .commanded) } }
     let dt : Nat := 1
     let cause : Cause := .commanded
     let d := (s.elapse dt).dev
     let t := 1
     d.alive = true ∧ d.wcp.resetAt = some (t, cause) ∧ t ≤ d.now) ∧
    (let s : State := s0
     let dt : Nat := 0
     let cause : Cause := .lockstep
     let d := (s.elapse dt).dev
     d.alive = true ∧ causeShuts cause = false ∧ cause ≠ .por) ∧
    (let s : State := on { dev0 with sec := { switchAt := some 0 } }
     let dt : Nat := 8 * ms
     let d := (s.elapse dt).dev
     let t := 0
     d.alive = true ∧ d.sec.switchAt = some t ∧ t + 8 * ms ≤ d.now) ∧
    (let s : State := on { dev0 with power := { core := .run, shut := some (0, .standby) } }
     let dt : Nat := 100 * us
     let d := (s.elapse dt).dev
     let t := 0
     let c := .standby
     d.power.shut = some (t, c) ∧ t + 100 * us ≤ d.now ∧ (d.power.core = .boot ∨ d.power.core = .run)) := by decide +kernel

theorem witness_RestartTable :
    (let d : Device := dev0
     let i : FnId := .fire
     let f := d.getFn i
     f.st = .off ∧ f.offUntil ≤ d.now) ∧
    (let d : Device := { dev0 with fire := { fn := { offUntil := 1 } } }
     let i : FnId := .fire
     let f := d.getFn i
     f.st = .off ∧ d.now < f.offUntil) ∧
    (let d : Device := { dev0 with fire := { fn := { st := .starting } } }
     let i : FnId := .fire
     let f := d.getFn i
     f.st = .starting ∧ f.stopPending = false) ∧
    (let d : Device := { dev0 with fire := { fn := { st := .starting, stopPending := true } } }
     let i : FnId := .fire
     let f := d.getFn i
     f.st = .starting ∧ f.stopPending = true) ∧
    (let d : Device := { dev0 with fire := { fn := { st := .on } } }
     let i : FnId := .fire
     let f := d.getFn i
     f.st = .on) ∧
    (let d : Device := { dev0 with fire := { fn := { st := .stopping } } }
     let i : FnId := .fire
     let f := d.getFn i
     f.st = .stopping) ∧
    (let d : Device := dev0
     let i : FnId := .fire
     let f := d.getFn i
     f.st = .off ∧ f.restart = false) ∧
    (let d : Device := { dev0 with fire := { fn := { restart := true } } }
     let i : FnId := .fire
     let f := d.getFn i
     f.st = .off ∧ f.restart = true) ∧
    (let d : Device := dev0
     let i : FnId := .fire
     let f := d.getFn i
     f.faultStop = false) ∧
    (let d : Device := { dev0 with fire := { fn := { faultStop := true } } }
     let i : FnId := .fire
     let f := d.getFn i
     f.faultStop = true) ∧
    (let i : FnId := .fire
     let j : FnId := .queue 0
     j ≠ i) := by
  refine ⟨?_, ?_, ?_, ?_, ?_, ?_, ?_, ?_, ?_, ?_, ?_⟩ <;> decide +kernel

theorem witness_KillClearedOnlyByItsCommand :
    (let i : Instr := .fireKillClear 0 (.mailbox 0)
     let s : State := killS
     let t : State := after (.fireKillClear 0 (.mailbox 0)) killS
     exec i s = .next t ∧ s.dev.fire.killed = true ∧ t.dev.fire.killed = false) := 
  by repeat' (first | decide +kernel | exact rfl | constructor)

theorem witness_FiringCommandsAct :
    (let d : Device := dev0
     let f := d.fire
     f.fn.st = .off ∧ f.fn.offUntil ≤ d.now) ∧
    (let d : Device := { dev0 with fire := { latch := .of (2 ^ 48) } }
     let f := d.fire
     (f.killed = true ∨ vget f.committed f.selected.val false = false ∨ d.sec.debug = true ∨ 4 ≤ d.power.step)) ∧
    (let d : Device := { dev0 with fire := { fn := { st := .on } } }
     let f := d.fire
     f.fn.st = .on) ∧
    (let d : Device := { dev0 with fire := { fn := { st := .on } } }
     let f := d.fire
     f.fn.st ≠ .off) ∧
    (let d : Device := { dev0 with power := { core := .run, shut := some (0, .standby) } }
     d.power.shut.isSome = true) ∧
    (let d : Device := dev0
     let k := 47
     d.power.shut = none ∧ k < 48) ∧
    (let d : Device := dev0
     let p : Bytes := ⟨8, 2 ^ 48 - 1⟩
     let k := 47
     p.val < 2 ^ 48 ∧ d.power.shut = none ∧ k < 48) ∧
    (let p : Bytes := ⟨4, 7⟩
     p.word 0 < 8) := by
  refine ⟨?_, ?_, ?_, ?_, ?_, ?_, ?_, ?_⟩ <;> decide +kernel

theorem witness_PoolInvariant :
    (let s : State := State.reset
     let t : State := State.reset
     s.dev.qs.Pool ∧ step s = .next t) := by exact ⟨⟨by decide, by decide, trivial, fun p q h => nomatch h⟩, rfl⟩

theorem witness_SealedParametersKept :
    (let i : Instr := .hostCsNRelease 0 .none
     let s : State := s0
     let t : State := after (.hostCsNRelease 0 .none) s0
     exec i s = .next t ∧ 1 ∉ sealedOrders i) ∧
    (let i : Instr := .hostCsNRelease 0 .none
     let s : State := s0
     let t : State := after (.hostCsNRelease 0 .none) s0
     exec i s = .next t ∧ 2 ∉ sealedOrders i) ∧
    (let i : Instr := .hostCsNRelease 0 .none
     let s : State := s0
     let t : State := after (.hostCsNRelease 0 .none) s0
     exec i s = .next t ∧ 3 ∉ sealedOrders i) ∧
    (let i : Instr := .hostCsNRelease 0 .none
     let s : State := s0
     let t : State := after (.hostCsNRelease 0 .none) s0
     exec i s = .next t ∧ 5 ∉ sealedOrders i) ∧
    (let i : Instr := .hostCsNRelease 0 .none
     let s : State := s0
     let t : State := after (.hostCsNRelease 0 .none) s0
     exec i s = .next t ∧ 6 ∉ sealedOrders i) ∧
    (let i : Instr := .hostCsNRelease 0 .none
     let s : State := s0
     let t : State := after (.hostCsNRelease 0 .none) s0
     exec i s = .next t ∧ 7 ∉ sealedOrders i) ∧
    (let i : Instr := .resvAns 0 .e (9 + 5 * 2 ^ 40)
     let s : State := resvS
     let t : State := after (.resvAns 0 .e (9 + 5 * 2 ^ 40)) resvS
     let p := s.dev.sealedParams
     let q := t.dev.sealedParams
     exec i s = .next t ∧ answersResv i = true ∧ q.resv ≠ p.resv) := 
  by repeat' (first | decide +kernel | exact rfl | constructor)

theorem witness_HostAndSupplyRowsComplete :
    (let s : State := s0
     let dt : Nat := 0
     let t := s.elapse dt
     let d := t.dev
     let opcode : Byte := 0xFF
     d.alive = true ∧ s.host.ignoring = false ∧ knownOpcode opcode = false) ∧
    (let s : State := s0
     let dt : Nat := 0
     let t := s.elapse dt
     let d := t.dev
     d.alive = true ∧ d.ready = true) ∧
    (let s : State := on { dev0 with wcp := { resetAt := some (1, .commanded) } }
     let dt : Nat := 1
     let t := s.elapse dt
     let d := t.dev
     let t := 1
     let c := .commanded
     d.wcp.resetAt = some (t, c) ∧ d.alive = true ∧ t ≤ d.now) ∧
    (let s : State := s0
     let dt : Nat := 0
     let t := s.elapse dt
     let d := t.dev
     let cause : Cause := .lockstep
     d.alive = true ∧ causeShuts cause = false ∧ cause ≠ .por) ∧
    (let s : State := on { dev0 with power := { core := .off } }
     let dt : Nat := 0
     let t := s.elapse dt
     let d := t.dev
     d.alive = false) ∧
    (let s : State := State.reset
     let dt : Nat := 0
     let t := s.elapse dt
     let d := t.dev
     d.power.core = .boot ∧ d.ready = false) ∧
    (let s : State := s0
     let dt : Nat := 0
     let t := s.elapse dt
     let d := t.dev
     let f : FnId := .fire
     onField f = false ∧ d.alive = true) ∧
    (let s : State := s0
     let dt : Nat := 0
     let t := s.elapse dt
     let d := t.dev
     let f : FnId := .adc 0
     onField f = true ∧ d.field.running = true) ∧
    (let s : State := on { dev0 with sec := { switchAt := some 0 } }
     let dt : Nat := 8 * ms
     let t := s.elapse dt
     let d := t.dev
     let t := 0
     d.sec.switchAt = some t ∧ d.alive = true ∧ t + 8 * ms ≤ d.now) ∧
    (let mv : Nat := 8499
     mv < 8500) ∧
    (let mv : Nat := 63001
     63000 < mv) ∧
    (let cause : Cause := .pfVbat
     causeShuts cause = true) ∧
    (let s : State := on { dev0 with power := { core := .run, shut := some (0, .standby) } }
     let dt : Nat := 100 * us
     let t := s.elapse dt
     let d := t.dev
     let t := 0
     let c := .standby
     d.power.shut = some (t, c) ∧ t + 100 * us ≤ d.now) ∧
    (let s : State := on { dev0 with power := { core := .off, startDue := true } }
     let dt : Nat := 0
     let t := s.elapse dt
     let d := t.dev
     d.power.startDue = true ∧ d.power.offUntil ≤ d.now ∧ d.powered = false) ∧
    (let s : State := on { dev0 with power := { core := .standby } }
     let dt : Nat := 0
     let t := s.elapse dt
     let d := t.dev
     let width : Nat := ms
     d.power.core = .standby ∧ ms ≤ width) ∧
    (let s : State := mail dev1 (hdr 0x01FF 0 1 0 0) Bytes.nil
     let dt : Nat := 0
     let t := s.elapse dt
     let d := t.dev
     let o : Origin := .mailbox 0
     let e : Env := ⟨hdr 0x01FF 0 1 0 0, ⟨0, 0⟩, .spi, false⟩
     t.envelope o = some e ∧ definedIds.contains e.id = false ∧ d.serves = true) := by
  refine ⟨?_, ?_, ?_, ?_, ?_, ?_, ?_, ?_, ?_, ?_, ?_, ?_, ?_, ?_, ?_, ?_⟩ <;> decide +kernel

theorem witness_CoreRowsComplete :
    (let s : State := on { dev0 with fire := { fn := { st := .on }, trigSrc := 1 } }
     let dt : Nat := 0
     let d := (s.elapse dt).dev
     let width : Nat := 100
     (s.elapse dt).dev.alive = true ∧ d.fire.trigSrc = 1 ∧ 100 ≤ width) ∧
    (let s : State := on { dev0 with fire := { fn := { st := .on }, trig := ⟨0, false⟩, phase := .pending } }
     let dt : Nat := 2000
     let d := (s.elapse dt).dev
     (s.elapse dt).dev.alive = true ∧ d.promote.frameDue = true ∧ d.promote.pairFree = true) ∧
    (let s : State := on
         { dev0 with fire := { fn := { st := .on }, trig := ⟨0, false⟩, phase := .pending }, hist := { pairs := Vector.replicate 2 .handed } }
     let dt : Nat := 2000
     let d := (s.elapse dt).dev
     (s.elapse dt).dev.alive = true ∧ d.promote.frameDue = true ∧ d.promote.pairFree = false) ∧
    (let s : State := on { dev0 with fire := { fn := { st := .on }, grp := some ({ grp0 with flags := 2 } : Group) } }
     let dt : Nat := 0
     let d := (s.elapse dt).dev
     let g := { grp0 with flags := 2 }
     (s.elapse dt).dev.alive = true ∧ d.fire.grp = some g ∧ d.fire.groupOver g d.now = true) ∧
    (let s : State := s0
     let dt : Nat := 0
     let d := (s.elapse dt).dev
     let r : SliceResult := ⟨0, false, false, false, 0⟩
     (s.elapse dt).dev.alive = true ∧ (d.sliceEnd r).2 = false) ∧
    (let s : State := s0
     let dt : Nat := 0
     let d := (s.elapse dt).dev
     let bus : Bool := false
     let seen : Option Nat := none
     (s.elapse dt).dev.alive = true ∧ (d.sliceService bus seen).2 = false) ∧
    (let s : State := s0
     let dt : Nat := 0
     let d := (s.elapse dt).dev
     let cause : Fin 8 := 2
     let seen : Option Nat := none
     (s.elapse dt).dev.alive = true ∧ (d.slicePrecond cause.val seen).2 = false) ∧
    (let s : State := s0
     let dt : Nat := 60 * second
     let d := (s.elapse dt).dev
     (s.elapse dt).dev.alive = true ∧ d.log.onTimeAt + 60 * second ≤ d.now) ∧
    (let s : State := on { dev0 with power := { core := .run, standbyAt := some 0 } }
     let dt : Nat := 0
     let d := (s.elapse dt).dev
     let t := 0
     (s.elapse dt).dev.alive = true ∧ d.standbyDue = some t ∧ t ≤ d.now) := by
  refine ⟨?_, ?_, ?_, ?_, ?_, ?_, ?_, ?_, ?_⟩ <;> decide +kernel

theorem witness_RingQueueAndCameraRowsComplete :
    (let s : State := on { dev0 with ring := { ports := ⟨#[{ link := .linked }, {}], rfl⟩ } }
     let dt : Nat := 0
     let d := (s.elapse dt).dev
     let p : Port := .e
     (s.elapse dt).dev.alive = true ∧ (d.port (portNo p)).live = true) ∧
    (let s : State := on { dev0 with ring := { head := true } }
     let dt : Nat := 0
     let d := (s.elapse dt).dev
     (s.elapse dt).dev.alive = true ∧ d.ring.head = true ∧ d.ring.membersAt ≤ d.now) ∧
    (let s : State := on { dev0 with ring := { head := true } }
     let dt : Nat := 0
     let d := (s.elapse dt).dev
     (s.elapse dt).dev.alive = true ∧ d.ring.head = true ∧ d.ring.calendarAt ≤ d.now) ∧
    (let s : State := on { dev0 with qs := { qs := [(20, { partials := [⟨3, Bytes.nil, [], 0, [], [], true, none, 0, none⟩] })] } }
     let dt : Nat := 10 * ms
     let d := (s.elapse dt).dev
     let q : Fin 16384 := 20
     let src : Fin 32 := 3
     (s.elapse dt).dev.alive = true ∧ ((d.queue q.val).partial_ src.val).open_ = true ∧ ((d.queue q.val).partial_ src.val).at_ + 10 * ms ≤
       d.now) ∧
    (let s : State := on { dev0 with qs := { qs := [(20, { })], subs := [{ queue := 20, who := 3, st := .active, lease := some 0 }] } }
     let dt : Nat := 0
     let d := (s.elapse dt).dev
     let q : Fin 16384 := 20
     let sub : Fin 33 := 3
     let x : Sub := { queue := 20, who := 3, st := .active, lease := some 0 }
     let t : Nat := 0
     (s.elapse dt).dev.alive = true ∧ d.qs.sub? q.val sub.val = some x ∧ x.st ≠ .ending ∧ x.lease = some t ∧ t ≤ d.now) ∧
    (let s : State := on { dev0 with qs := { qs := [(20, { fn := { st := .stopping } })] } }
     let dt : Nat := 0
     let d := (s.elapse dt).dev
     let q : Fin 16384 := 20
     (s.elapse dt).dev.alive = true ∧ (d.queue q.val).fn.st = .stopping ∧ ((d.queue q.val).units = [] ∨ (d.queue q.val).fn.stopBy ≤ d.now)) ∧
    (let s : State := on
         { dev0 with qs := { qs := [(20, { })], subs := [{ queue := 20, who := 3, st := .active, lease := none, stallSince := some 0 }] } }
     let dt : Nat := 1000 * second
     let d := (s.elapse dt).dev
     let q : Fin 16384 := 20
     let node : Fin 32 := 3
     let x : Sub := { queue := 20, who := 3, st := .active, lease := none, stallSince := some 0 }
     let t : Nat := 0
     (s.elapse dt).dev.alive = true ∧ d.qs.sub? q.val node.val = some x ∧ x.st ≠ .suspended ∧ (x.reset = none ∨ x.resetZero = true) ∧
       x.stallSince = some t ∧ t + (d.queue q.val).creditTmo * ms ≤ d.now) ∧
    (let s : State := on
         { dev0 with qs := { qs := [(20, { })], subs := [{ queue := 20, who := 3, st := .active, lease := none, reset := some 0 }] } }
     let dt : Nat := 2 * ms
     let d := (s.elapse dt).dev
     let q : Fin 16384 := 20
     let node : Fin 32 := 3
     let x : Sub := { queue := 20, who := 3, st := .active, lease := none, reset := some 0 }
     let t : Nat := 0
     (s.elapse dt).dev.alive = true ∧ d.qs.sub? q.val node.val = some x ∧ x.reset = some t ∧ t + 2 * ms ≤ d.now ∧ x.resetZero = false) ∧
    (let s : State := on { dev0 with qs := { qs := [(20, { partials := [⟨3, Bytes.nil, [], 0, [], [], false, none, 0, some 0⟩] })] } }
     let dt : Nat := 2 * ms
     let d := (s.elapse dt).dev
     let q : Fin 16384 := 20
     let node : Fin 32 := 3
     let t : Nat := 0
     let x := d.queue q.val
     let y := x.partial_ node.val
     (s.elapse dt).dev.alive = true ∧ y.resetAt = some t ∧ t + 2 * ms ≤ d.now) ∧
    (let s : State := on { dev0 with qs := { evBuf := [0] } }
     let dt : Nat := ms
     let d := (s.elapse dt).dev
     (s.elapse dt).dev.alive = true ∧ d.qs.evBuf ≠ [] ∧ d.qs.evSince + ms ≤ d.now) ∧
    (let s : State := on { dev0 with cams := { ports := Vector.replicate 4 { fn := { st := .starting } } } }
     let dt : Nat := ms
     let d := (s.elapse dt).dev
     let port : Fin 4 := 0
     (s.elapse dt).dev.alive = true ∧ (d.cam port.val).startedAt + ms ≤ d.now) ∧
    (let s : State := on { dev0 with cams := { ports := Vector.replicate 4 { fn := { st := .stopping } } } }
     let dt : Nat := 0
     let d := (s.elapse dt).dev
     let port : Fin 4 := 0
     (s.elapse dt).dev.alive = true ∧ (d.cam port.val).fn.st = .stopping ∧ (d.cam port.val).fn.stopBy ≤ d.now) ∧
    (let s : State := s0
     let dt : Nat := 0
     let d := (s.elapse dt).dev
     (s.elapse dt).dev.alive = true ∧ d.alive = true) ∧
    (let s : State := s0
     let dt : Nat := 0
     let d := (s.elapse dt).dev
     (s.elapse dt).dev.alive = true ∧ d.field.running = true) := by
  refine ⟨?_, ?_, ?_, ?_, ?_, ?_, ?_, ?_, ?_, ?_, ?_, ?_, ?_, ?_⟩ <;> decide +kernel

theorem witness_FieldRowsComplete :
    (let s : State := on { dev0 with field := { running := true, outs := Vector.replicate 16 { switch := true } } }
     let dt : Nat := 0
     let d := (s.elapse dt).dev
     let k : Fin 16 := 0
     s.dev.field.running = true ∧ (d.field.out k.val).switch = true) ∧
    (let s : State := on { dev0 with field := { running := true, outs := Vector.replicate 16 { fn := { st := .stopping } } } }
     let dt : Nat := 0
     let d := (s.elapse dt).dev
     let k : Fin 16 := 0
     s.dev.field.running = true ∧ (d.field.out k.val).fn.st = .stopping) ∧
    (let s : State := on { dev0 with field := { running := true, outs := Vector.replicate 16 { entry := 0x40FF } } }
     let dt : Nat := 0
     let d := (s.elapse dt).dev
     let k : Fin 16 := 0
     s.dev.field.running = true ∧ eMode (d.field.out k.val).ent = 2) ∧
    (let s : State := on { dev0 with field := { running := true, outs := Vector.replicate 16 { fn := { st := .on }, entry := 0x20FF } } }
     let dt : Nat := 0
     let d := (s.elapse dt).dev
     let k : Fin 16 := 0
     s.dev.field.running = true ∧ (d.field.out k.val).commanded = true) ∧
    (let s : State := s0
     let dt : Nat := 100 * ms
     let d := (s.elapse dt).dev
     s.dev.field.running = true ∧ d.field.recsAt + 100 * ms ≤ d.now) ∧
    (let s : State := s0
     let width : Nat := 100
     s.dev.field.running = true ∧ 100 ≤ width) ∧
    (let s : State := on { dev0 with field := { running := true, convs := Vector.replicate 4 { fn := { st := .stopping } } } }
     let dt : Nat := 0
     let d := (s.elapse dt).dev
     let c : Fin 4 := 0
     s.dev.field.running = true ∧ (d.field.conv c.val).fn.st = .stopping) ∧
    (let s : State := on { dev0 with field := { running := true, blankAt := some 0 } }
     let dt : Nat := 0
     let d := (s.elapse dt).dev
     s.dev.field.running = true ∧ d.field.blankAt ≠ none) := by
  refine ⟨?_, ?_, ?_, ?_, ?_, ?_, ?_, ?_⟩ <;> decide +kernel

end Sys2Proof.Tests
end

section
/-! Rows that complete: with the C-die out of reset (or the field die running) a row answers the settled state of its effect. -/

namespace Sys2Proof.Machine

open Sys2Proof

/-- An event of the core side whose effect is known. -/
theorem coreRow_runs {dt : Nat} {s : State} {f : Device → Device} {x : Device} (h : (s.elapse dt).dev.alive = true)
    (hf : f (s.elapse dt).dev = x) : coreRow dt f s = .next (State.settle { s.elapse dt with dev := x } s.dev) := by
  rw [coreRow_next dt f s h, hf]

/-- A slice's verdict that asks for no reset is an event of the core side. -/
theorem sliceRowEnd_runs {dt : Nat} {s : State} {act : Device → Device × Bool} (h : (s.elapse dt).dev.alive = true)
    (hr : (act (s.elapse dt).dev).2 = false) :
    sliceRowEnd dt act s = .next (State.settle { s.elapse dt with dev := (act (s.elapse dt).dev).1 } s.dev) := by
  unfold sliceRowEnd
  simp only [hr, Bool.and_false, Bool.false_eq_true, if_false]
  exact coreRow_runs h rfl

/-- Settles O58: each row is an event of the core side, whose condition, where it has one, is among the hypotheses. -/
theorem coreRowsComplete : Obligations.CoreRowsComplete := by
  intro s dt h
  dsimp only [exec]
  refine ⟨coreRow_runs h rfl, ?frameSync, coreRow_runs h rfl, ?frameStart, ?frameHeld, coreRow_runs h rfl, fun _ => coreRow_runs h rfl,
    fun _ _ _ _ => coreRow_runs h rfl, fun _ => coreRow_runs h rfl, coreRow_runs h rfl, coreRow_runs h rfl, coreRow_runs h rfl, ?groupEnd,
    fun _ _ _ => coreRow_runs h rfl, fun _ _ => coreRow_runs h rfl, fun _ _ => coreRow_runs h rfl, coreRow_runs h rfl, coreRow_runs h rfl,
    fun _ => coreRow_runs h rfl, fun _ _ => coreRow_runs h rfl, fun _ _ _ _ => coreRow_runs h rfl, fun _ => coreRow_runs h rfl,
    coreRow_runs h rfl, coreRow_runs h rfl, coreRow_runs h rfl, coreRow_runs h rfl, coreRow_runs h rfl, coreRow_runs h rfl,
    coreRow_runs h rfl, coreRow_runs h rfl, coreRow_runs h rfl, fun _ => coreRow_runs h rfl, coreRow_runs h rfl, coreRow_runs h rfl,
    fun _ => coreRow_runs h rfl, coreRow_runs h rfl, coreRow_runs h rfl, coreRow_runs h rfl, fun _ => coreRow_runs h rfl,
    fun _ hr => sliceRowEnd_runs h hr, fun _ _ hr => sliceRowEnd_runs h hr, fun _ _ hr => sliceRowEnd_runs h hr, coreRow_runs h rfl,
    coreRow_runs h rfl, fun _ => coreRow_runs h rfl, fun _ => coreRow_runs h rfl, coreRow_runs h rfl, coreRow_runs h rfl,
    fun _ => coreRow_runs h rfl, coreRow_runs h rfl, coreRow_runs h rfl, ?onTime, coreRow_runs h rfl, ?standby, coreRow_runs h rfl,
    fun _ _ _ => coreRow_runs h rfl⟩
  case frameSync => exact fun _ hsrc hw => coreRow_runs h (by simp only [hsrc, hw, beq_self_eq_true, decide_true, Bool.and_self, if_true])
  case frameStart => exact fun hdue hfree => coreRow_runs h (by simp [hdue, hfree])
  case frameHeld => exact fun hdue hfree => coreRow_runs h (by simp [hdue, hfree])
  case groupEnd => exact fun g hg hover => coreRow_runs h (by simp only [hg, hover, if_true])
  case onTime => exact fun hdue => coreRow_runs h (if_pos hdue)
  case standby => exact fun t ht hdue => coreRow_runs h (by simp [ht, hdue])

/-- Once a packet has arrived, CAM_START_TIMEOUT only lets time pass (R276). -/
theorem camStartTimeout_traffic {dt : Nat} {port : Fin 4} {s : State} (h : (s.elapse dt).dev.alive = true)
    (ht : ((s.elapse dt).dev.cam port.val).traffic = true) :
    exec (.camStartTimeout dt port) s = .next (State.settle (s.elapse dt) s.dev) := by
  dsimp only [exec, execCamStartTimeout]
  exact coreRow_runs (x := (s.elapse dt).dev) h (by simp only [ht, Bool.not_true, Bool.and_false, Bool.false_eq_true, if_false])

/-- A camera port in STARTING at which a packet has arrived, 1 ms later. -/
def startingWithTraffic : State :=
  { dev := { power := { core := .run }, cams := { ports := Vector.replicate 4 { fn := { st := .starting }, traffic := true } } } }

/-- The end of a step leaves the camera ports alone. -/
theorem State.settle_cam (s : State) (old : Device) (p : Nat) : (s.settle old).dev.cam p = s.dev.cam p := by
  simp only [Device.cam, State.settle_parts]

/-- Refutes O59: at CAM_START_TIMEOUT a port that has seen traffic stays in STARTING until a good header (R276), where the statement has
it reach ON. -/
theorem not_ringQueueAndCameraRowsComplete : ¬ Obligations.RingQueueAndCameraRowsComplete := by
  intro h
  obtain ⟨-, -, -, -, -, -, -, -, -, -, -, -, -, -, -, -, -, -, -, -, -, -, -, -, -, -, -, -, -, -, -, -, -, -, -, -, -, -, -, -, -, -, -,
    -, -, -, hstart, -⟩ := h startingWithTraffic ms (by decide)
  have hon := hstart 0 (by decide)
  have hstays := camStartTimeout_traffic (dt := ms) (s := startingWithTraffic) (port := 0) (by decide) rfl
  have hcams := congrArg (fun t : State => (t.dev.cam 0).fn.st) (Host.Outcome.next.inj (hstays.symm.trans hon))
  simp only [State.settle_cam] at hcams
  exact absurd hcams (by decide)
end Sys2Proof.Machine
end

section
/-! Restartable functions: a function reads back as written and leaves the others alone; enables and disables by state (Table 1-6). -/

namespace Sys2Proof.Machine

open Sys2Proof

/-- A queue changed reads back changed, and every other as before. -/
theorem Device.queue_modQ (d : Device) (n m : Nat) (f : Queue → Queue) :
    (d.modQ n f).queue m = if n = m then f (d.queue m) else d.queue m := by
  simp only [Device.queue, Device.modQ, Queues.get, Queues.put, mget_mset]
  split
  · next h => subst h; rfl
  · rfl

@[simp] theorem Device.queue_modQ_same (d : Device) (n : Nat) (f : Queue → Queue) : (d.modQ n f).queue n = f (d.queue n) := by
  simp [d.queue_modQ]

/-- The two ports have two numbers. -/
theorem portNo_lt (p : Port) : portNo p < 2 := by
  cases p <;> decide

theorem portNo_injective {p q : Port} (h : portNo p = portNo q) : p = q := by
  cases p <;> cases q <;> first | rfl | exact absurd h (by decide)

/-- A function written reads back as written. -/
theorem Device.getFn_putFn_same (d : Device) (i : FnId) (x : Fn) : (d.putFn i x).getFn i = x := by
  cases i with
  | fire | hexport | exc => rfl
  | port p => simp only [Device.putFn, Device.getFn, Device.modPort, vget_vmod_same _ _ _ _ (portNo_lt p)]
  | queue n => simp [Device.putFn, Device.getFn]
  | cam n | adc n | seq n | output n => simp [Device.putFn, Device.getFn]

/-- A function written leaves every other as it was. -/
theorem Device.getFn_putFn_other (d : Device) {i j : FnId} (x : Fn) (h : j ≠ i) : (d.putFn i x).getFn j = d.getFn j := by
  cases i <;> cases j
  case port.port p q => 
    have hpq : portNo p ≠ portNo q := fun e => h (congrArg FnId.port (portNo_injective e.symm))
    simp [Device.putFn, Device.getFn, Device.modPort, hpq]
  case queue.queue m n =>
    have hmn : m.val ≠ n.val := fun e => h (congrArg FnId.queue (Fin.ext e.symm))
    simp [Device.putFn, Device.getFn, Device.queue_modQ, hmn]
  case cam.cam m n | adc.adc m n | seq.seq m n | output.output m n =>
    have hmn : m.val ≠ n.val := fun e => h (by rw [Fin.ext e])
    simp [Device.putFn, Device.getFn, hmn]
  case fire.fire | hexport.hexport | exc.exc => exact absurd rfl h
  all_goals rfl

/-! Requests by state (Table 1-6). -/

theorem Fn.enable_off {f : Fn} {now : Nat} (hst : f.st = .off) (hpast : f.offUntil ≤ now) :
    f.enable now = ({ f with st := .starting, restart := false }, .start) := by
  simp only [Fn.enable, hst, Nat.not_lt.mpr hpast, if_false]

theorem Fn.enable_off_early {f : Fn} {now : Nat} (hst : f.st = .off) (hearly : now < f.offUntil) :
    f.enable now = ({ f with restart := true }, .waitOn) := by
  simp only [Fn.enable, hst, hearly, if_true]

theorem Fn.enable_starting {f : Fn} (now : Nat) (hst : f.st = .starting) (hstop : f.stopPending = false) :
    f.enable now = (f, .answer sOk) := by
  simp [Fn.enable, hst, hstop]

theorem Fn.enable_starting_stop {f : Fn} (now : Nat) (hst : f.st = .starting) (hstop : f.stopPending = true) :
    f.enable now = ({ f with restart := true }, .answer sRestartPending) := by
  simp [Fn.enable, hst, hstop]

theorem Fn.enable_on {f : Fn} (now : Nat) (hst : f.st = .on) : f.enable now = (f, .answer sOk) := by
  simp only [Fn.enable, hst]

theorem Fn.enable_stopping {f : Fn} (now : Nat) (hst : f.st = .stopping) :
    f.enable now = ({ f with restart := true }, .answer sRestartPending) := by
  simp only [Fn.enable, hst]

theorem Fn.disable_off {f : Fn} (hst : f.st = .off) (hrestart : f.restart = false) : f.disable = (f, .answer sOk) := by
  simp [Fn.disable, hst, hrestart]

theorem Fn.disable_off_waiting {f : Fn} (hst : f.st = .off) (hrestart : f.restart = true) :
    f.disable = ({ f with restart := false }, .withdrawn) := by
  simp [Fn.disable, hst, hrestart]

theorem Fn.disable_starting {f : Fn} (hst : f.st = .starting) (hstop : f.stopPending = false) :
    f.disable = ({ f with stopPending := true }, .waitOff) := by
  simp [Fn.disable, hst, hstop]

theorem Fn.disable_starting_stop {f : Fn} (hst : f.st = .starting) (hstop : f.stopPending = true) :
    f.disable = ({ f with restart := false }, .answer sOk) := by
  simp [Fn.disable, hst, hstop]

theorem Fn.disable_on {f : Fn} (hst : f.st = .on) : f.disable = ({ f with st := .stopping }, .stop) := by
  simp only [Fn.disable, hst]

theorem Fn.disable_stopping {f : Fn} (hst : f.st = .stopping) : f.disable = ({ f with restart := false }, .answer sOk) := by
  simp only [Fn.disable, hst]

/-- How an enable of a function is answered that comes to an act. -/
def FnAct.enableAnswer (i : FnId) (slow : Bool) : FnAct → Answer
  | .answer st => .no st
  | .start => if slow then .pend (.fnOn i) else .no sOk
  | .waitOn => .pend (.fnOn i)
  | _ => .no sOk

/-- How a disable is answered. -/
def FnAct.disableAnswer (i : FnId) (slow : Bool) : FnAct → Answer
  | .answer st => .no st
  | .stop => if slow then .pend (.fnOff i) else .no sOk
  | .waitOff => .pend (.fnOff i)
  | _ => .no sOk

/-- An enable takes the function to its next state and is answered by its act. -/
theorem Device.enableFn_eq {d : Device} {i : FnId} {x : Fn} {a : FnAct} (slow : Bool) (h : (d.getFn i).enable d.now = (x, a)) :
    (d.enableFn i slow (fun d => d)).1.getFn i = x ∧ (d.enableFn i slow (fun d => d)).2 = a.enableAnswer i slow := by
  unfold Device.enableFn
  rw [h]
  cases a <;> exact ⟨d.getFn_putFn_same i x, rfl⟩

/-- A disable does so too, where no start is withdrawn. -/
theorem Device.disableFn_eq {d : Device} {i : FnId} {x : Fn} {a : FnAct} (slow : Bool) (h : (d.getFn i).disable = (x, a))
    (ha : a ≠ .withdrawn) :
    (d.disableFn i slow (fun d => d)).1.getFn i = x ∧ (d.disableFn i slow (fun d => d)).2 = a.disableAnswer i slow := by
  unfold Device.disableFn
  rw [h]
  cases a
  case withdrawn => exact absurd rfl ha
  all_goals exact ⟨d.getFn_putFn_same i x, rfl⟩

/-- A disable that withdraws a waiting start ends its enables with S_BAD_STATE. -/
theorem Device.disableFn_withdrawn {d : Device} {i : FnId} {x : Fn} (slow : Bool) (h : (d.getFn i).disable = (x, .withdrawn)) :
    d.disableFn i slow (fun d => d) = ((d.putFn i x).complete (.fnOn i) sBadState Bytes.nil, .no sOk) := by
  unfold Device.disableFn
  rw [h]

/-- The completion of a stop: what an enable waits for ends with it after a fault stop (R22). -/
theorem Device.reachOff_eq (d : Device) (i : FnId) (minOff : Nat) :
    d.reachOff i minOff =
      (let off := (d.putFn i { d.getFn i with st := .off, stopPending := false, offUntil := d.now + minOff }).complete (.fnOff i) sOk Bytes.nil
       if (d.getFn i).faultStop then off.complete (.fnOn i) sHwFault Bytes.nil else off) := rfl

/-- Settles O52: the rows of Table 1-6 state by state, then the completions of a start and of a stop. -/
theorem restartTable : Obligations.RestartTable := by
  intro d i slow minOff
  dsimp only
  refine ⟨fun hst hpast => Device.enableFn_eq slow (Fn.enable_off hst hpast),
    fun hst hearly => Device.enableFn_eq slow (Fn.enable_off_early hst hearly),
    fun hst hstop => Device.enableFn_eq slow (Fn.enable_starting _ hst hstop),
    fun hst hstop => Device.enableFn_eq slow (Fn.enable_starting_stop _ hst hstop),
    fun hst => Device.enableFn_eq slow (Fn.enable_on _ hst),
    fun hst => Device.enableFn_eq slow (Fn.enable_stopping _ hst),
    fun hst hrestart => Device.disableFn_eq slow (Fn.disable_off hst hrestart) nofun, ?withdrawn,
    fun hst hstop => Device.disableFn_eq slow (Fn.disable_starting hst hstop) nofun,
    fun hst hstop => Device.disableFn_eq slow (Fn.disable_starting_stop hst hstop) nofun,
    fun hst => Device.disableFn_eq slow (Fn.disable_on hst) nofun,
    fun hst => Device.disableFn_eq slow (Fn.disable_stopping hst) nofun,
    rfl, fun hf => ?off, fun hf => ?faultOff, d.getFn_putFn_same i, fun x j hj => d.getFn_putFn_other x hj⟩
  case withdrawn =>
    intro hst hrestart
    rw [Device.disableFn_withdrawn slow (Fn.disable_off_waiting hst hrestart)]
    exact ⟨rfl, rfl⟩
  case off => simp only [Device.reachOff_eq, hf, Bool.false_eq_true, if_false]
  case faultOff => simp only [Device.reachOff_eq, hf, if_true]

end Sys2Proof.Machine
end

section
/-! Commands turned away as busy (R19): what answering an envelope leaves of the protocol's sessions and of a reset that waits, that
nothing follows an answer that changed nothing, and that a busy command is only answered. -/

namespace Sys2Proof.Machine

open Sys2Proof

/-- Two devices with the same sessions and the same reset waiting. -/
structure Device.SameSessions (d d' : Device) : Prop where
  sessions : d'.wcp.sessions = d.wcp.sessions
  resetAt : d'.wcp.resetAt = d.wcp.resetAt

theorem Device.SameSessions.refl (d : Device) : d.SameSessions d := ⟨rfl, rfl⟩

theorem Device.SameSessions.trans {a b c : Device} (h : a.SameSessions b) (k : b.SameSessions c) : a.SameSessions c :=
  ⟨k.sessions.trans h.sessions, k.resetAt.trans h.resetAt⟩

theorem Device.SameSessions.session {d d' : Device} (h : d.SameSessions d') (n : Nat) : d'.session n = d.session n := by
  simp only [Device.session, h.sessions]

theorem Device.Near.sameSessions {d d' : Device} (h : d.Near d') : d.SameSessions d' := ⟨h.sessions, h.resetAt⟩

theorem Device.limited_sameSessions (d : Device) (ev source sub len payload add : Nat) (first : Bool) :
    d.SameSessions (d.limited ev source sub len payload add first) := (d.limited_near ev source sub len payload add first).sameSessions

/-- A request for a unit under test changes no session and no reset that waits. -/
theorem Device.serveOrWait_sameSessions (d : Device) (rows : List Nat) : d.SameSessions (d.serveOrWait rows) := by
  unfold Device.serveOrWait Device.sliceAbort Device.sliceCut Device.bistIncomplete
  dsimp only
  repeat' split
  all_goals first | exact .refl d | exact ⟨(Device.limited_sameSessions _ _ _ _ _ _ _ _).sessions, (Device.limited_sameSessions _ _ _ _ _ _ _ _).resetAt⟩

/-- A record touches the log alone. -/
theorem Device.queueRec_wcp (d : Device) (r : PendRec) : (d.queueRec r).wcp = d.wcp := by
  unfold Device.queueRec Device.count
  repeat' split
  all_goals rfl

theorem Device.checkPair_sameSessions (d : Device) (ok : Bool) (cls idx act : Nat) : d.SameSessions (d.checkPair ok cls idx act) := by
  unfold Device.checkPair
  split
  · unfold Device.intact
    split <;> exact ⟨rfl, rfl⟩
  · have h := d.limited_sameSessions eIntegrity cls idx second (idx % 4096 * 2 ^ 244 + act * 2 ^ 242) (1 * 2 ^ 210) false
    unfold Device.integrity Device.integrityN
    dsimp only
    split
    · exact ⟨(congrArg Wcp.sessions (Device.queueRec_wcp _ _)).trans h.sessions, (congrArg Wcp.resetAt (Device.queueRec_wcp _ _)).trans h.resetAt⟩
    · exact h

/-- So does the look at a command's rights. -/
theorem Device.rightsRead_sameSessions (d : Device) (id : Nat) (sealed : Bool) : d.SameSessions (d.rightsRead id sealed) := by
  have h : d.SameSessions (if isQuery id || id == 0x0141 || id == 0x0142 then d else d.lcUsed) := by
    split
    · exact .refl d
    · exact d.checkPair_sameSessions _ _ _ _
  cases sealed
  · exact h
  · exact h.trans (Device.checkPair_sameSessions _ _ _ _ _)

theorem Device.sendMsg_sameSessions (d : Device) (node queue : Nat) (msg : Bytes) : d.SameSessions (d.sendMsg node queue msg).1 := by
  unfold Device.sendMsg
  split
  · exact (d.putUnit_near _ _ _ _).sameSessions
  · split <;> exact ⟨rfl, rfl⟩

theorem Device.reply_sameSessions (d : Device) (node queue : Nat) (body : Bytes) (first : Bool) :
    d.SameSessions (d.reply node queue body first) := by
  have h := d.sendMsg_sameSessions node queue (withPrefix 0 d.ring.node body)
  unfold Device.reply
  dsimp only
  split <;> exact ⟨h.sessions, h.resetAt⟩

/-- A response delivered changes no session and no reset that waits. -/
theorem State.deliver_sameSessions (s : State) (o : Origin) (path : Path) (r : Bytes) : s.dev.SameSessions (s.deliver o path r).dev := by
  cases o with
  | mailbox n => exact .refl _
  | q0 =>
    cases path with
    | spi => exact .refl _
    | ring node queue =>
      simp only [State.deliver]
      split
      · exact (Device.take_near _ _ _ _).sameSessions.trans (Device.reply_sameSessions _ _ _ _ _)
      · exact Device.reply_sameSessions _ _ _ _ _

theorem State.settle_sameSessions (s : State) (old : Device) : s.dev.SameSessions (s.settle old).dev :=
  ⟨(s.settle_rests old).sessions, (s.settle_rests old).resetAt⟩

/-! What follows a response. -/

/-- No key has changed, so that no session closes. -/
theorem Device.closeWritten_unchanged (d d' : Device) (h : d'.sec = d.sec) : d.closeWritten d' = d' := by
  have hl : d.rekeyed d' = [] := by simp [Device.rekeyed, h]
  simp [Device.closeWritten, hl]

/-- No reset has come to wait. -/
theorem Device.resetAfterReply_unchanged (d d' : Device) (h : d'.wcp.resetAt = d.wcp.resetAt) : d.resetAfterReply d' = d' := by
  unfold Device.resetAfterReply
  rw [h]
  split
  · next hn hs => simp_all
  · rfl

/-- No standby has come to wait. -/
theorem Device.standbyAfterReply_unchanged (d d' : Device) (h : d'.power = d.power) : d.standbyAfterReply d' = d' := by
  unfold Device.standbyAfterReply
  rw [h]
  split
  · next hn hs => simp_all
  · rfl

/-- No transition of the life cycle has begun. -/
theorem Device.advance_unchanged (d d' : Device) (h : d'.sec = d.sec) : d.advance d' = d' := by
  unfold Device.advance
  rw [h]
  split
  · next hs hn => simp_all
  · rfl

theorem Device.advanceAndReset_unchanged (d d' : Device) (hs : d'.sec = d.sec) (hr : d'.wcp.resetAt = d.wcp.resetAt) :
    d.advanceAndReset d' = d' := by
  rw [Device.advanceAndReset, d.advance_unchanged d' hs, d.resetAfterReply_unchanged d' hr]

/-- Nothing follows the response of a command that left security, supply and the reset that waits as they were. -/
theorem WcpRow.after_unchanged (i : Instr) (r : WcpRow) (h : wcpRow? i = some r) (d d' : Device) (hs : d'.sec = d.sec)
    (hp : d'.power = d.power) (hr : d'.wcp.resetAt = d.wcp.resetAt) : r.after d d' = d' := by
  cases i
  case secKeyWrite => cases h; exact d.closeWritten_unchanged d' hs
  case lcAdvance => cases h; exact d.advanceAndReset_unchanged d' hs hr
  case sysReset | bistDirectedRun => cases h; exact d.resetAfterReply_unchanged d' hr
  case pwrStandby => cases h; exact d.standbyAfterReply_unchanged d' hp
  all_goals first | (cases h; rfl) | cases h

/-! A busy command. -/

/-- The tag of an envelope verifies only where it carries one. -/
theorem Env.auth_of_tagOk {e : Env} {key : List Nat} (h : e.tagOk key = true) : e.auth = true := by
  simp only [Env.tagOk, Bool.and_eq_true] at h
  exact h.1

/-- An authentic envelope beyond an in-flight bound is answered S_BUSY before it is executed (R55, step 5). -/
theorem Cmd.handle_bounded (c : Cmd) (opens : Env → Device → Device × Bytes) (e : Env) (d : Device) (hform : e.malformed = false)
    (hnamed : e.session ≠ 0xFF) (hopen : (d.session e.session).isOpen = true)
    (htag : e.tagOk (keyBytes (d.session e.session).key) = true) (hnew : (d.session e.session).find e.counter = none)
    (hfresh : (d.session e.session).high.toNat < e.counter) (hbound : (d.session e.session).pending = 16 ∨ e.tooMany = true) :
    c.handle opens e d = (d.serveOrWait [5],
      response (some (keyBytes (d.session e.session).key)) e.id e.session e.counter sBusy 0 d.time.ns.toNat Bytes.nil) := by
  have hauth := Env.auth_of_tagOk htag
  have hfull : (decide ((d.session e.session).pending = 16) || e.tooMany) = true := by simpa using hbound
  unfold Cmd.handle
  simp [hform, hnamed, hopen, hauth, htag, hnew, Nat.not_le.mpr hfresh, hfull]

/-- A command whose execution answers S_BUSY has had its rights looked up and nothing more. -/
theorem Cmd.tracked_busy (c : Cmd) (e : Env) (d : Device) (h : (c.tracked e d).2.1 = sBusy) :
    (c.tracked e d).1 = d.rightsRead e.id (c.sealed e.payload) := by
  unfold Cmd.tracked at h ⊢
  dsimp only at h ⊢
  split at h
  · split at h
    · next hst => simp only [hst, if_true]
    · next hst => exact absurd h hst
  · exact absurd (show sPending = sBusy from h) (by decide)

/-- An answer that leaves security and supply alone, and no session and no reset changed, does so at the end of its step: what follows the
response is nothing, and what delivers it keeps the sessions. -/
theorem WcpRow.answered_unchanged (i : Instr) (r : WcpRow) (hi : wcpRow? i = some r) (s : State) (e : Env) (x : Device × Bytes)
    (hs : x.1.sec = (s.elapse r.dt).dev.sec) (hp : x.1.power = (s.elapse r.dt).dev.power) (hx : (s.elapse r.dt).dev.SameSessions x.1) :
    x.1.Keeps (r.answered s e x).dev ∧ x.1.SameSessions (r.answered s e x).dev := by
  let t : State := { s.elapse r.dt with dev := x.1 }
  let u := t.deliver r.origin e.path x.2
  have hk : x.1.Keeps u.dev := t.deliver_keeps _ _ _
  have hu : x.1.SameSessions u.dev := t.deliver_sameSessions _ _ _
  have ha : r.answered s e x = State.settle u s.dev := by
    unfold WcpRow.answered
    dsimp only
    rw [WcpRow.after_unchanged i r hi _ _ (hk.sec.trans hs) (hk.power.trans hp) (hx.trans hu).resetAt]
  rw [ha]
  exact ⟨hk.trans (State.settle_keeps u _), hu.trans (State.settle_sameSessions u _)⟩

/-- Settles O50: a busy command's device is the one its tag's computation left, its rights looked up, and what answers it keeps that. -/
theorem busyConsumesNothing : Obligations.BusyConsumesNothing := by
  intro i r s e hi hoff hform hnamed d q served hopen htag hnew hfresh bounded hbusy
  have hexec : exec i s = .next (r.answered s e (r.cmd.handle r.opens e d)) := by
    rw [exec_wcpRow i r hi, wcpRowThen_offered r s e hoff]
  have hhandle : r.cmd.handle r.opens e d = (if bounded then served else served.rightsRead e.id (r.cmd.sealed e.payload),
      response (some (keyBytes q.key)) e.id e.session e.counter sBusy 0 d.time.ns.toNat
        (if bounded then Bytes.nil else (r.cmd.tracked e served).2.2)) := by
    by_cases hb : bounded
    · rw [if_pos hb, if_pos hb]
      exact r.cmd.handle_bounded r.opens e d hform hnamed hopen htag hnew hfresh hb
    · have hst : (r.cmd.tracked e served).2.1 = sBusy := hbusy.resolve_left hb
      obtain ⟨hroom, hfew⟩ := not_or.mp hb
      rw [if_neg hb, if_neg hb, r.cmd.handle_authentic r.opens e d
        ⟨hform, hnamed, hopen, htag, hnew, hfresh, hroom, Bool.eq_false_iff.mpr hfew⟩, ← hst, r.cmd.tracked_busy e served hst]
  rw [hexec, hhandle]
  refine ⟨rfl, _, rfl, ?_⟩
  generalize hx : (if bounded then served else served.rightsRead e.id (r.cmd.sealed e.payload)) = x
  have honly := Device.serveOrWait_onlyIn d [5]
  have hkeeps : served.Keeps x := by
    rw [← hx]
    split
    · exact .refl _
    · exact served.rightsRead_keeps _ _
  have hsame : d.SameSessions x := by
    refine (d.serveOrWait_sameSessions [5]).trans ?_
    rw [← hx]
    split
    · exact .refl _
    · exact served.rightsRead_sameSessions _ _
  obtain ⟨hk, hu⟩ := WcpRow.answered_unchanged i r hi s e (x, _) (hkeeps.sec.trans (honly .sec (by decide)))
    (hkeeps.power.trans (honly .power (by decide))) hsame
  have hq := (hsame.trans hu).session e.session
  exact ⟨hkeeps.trans hk, hq, by rw [hq]; exact htag, by rw [hq]; exact hnew, by rw [hq]; exact hfresh⟩

end Sys2Proof.Machine
end

section
/-! The boot (Table 13-6): what each of its steps leaves of time, the C-die's state, READY and the general image. -/

namespace Sys2Proof.Machine

open Sys2Proof

/-- Two devices at the same time, with the C-die in the same state, READY as it was and the same general image. -/
structure Device.Steady (d d' : Device) : Prop where
  time : d'.time = d.time
  core : d'.power.core = d.power.core
  ready : d'.ready = d.ready
  general : d'.sec.general = d.sec.general

theorem Device.Steady.refl (d : Device) : d.Steady d := ⟨rfl, rfl, rfl, rfl⟩

theorem Device.Steady.trans {a b c : Device} (h : a.Steady b) (k : b.Steady c) : a.Steady c :=
  ⟨k.time.trans h.time, k.core.trans h.core, k.ready.trans h.ready, k.general.trans h.general⟩

theorem Device.Keeps.steady {d d' : Device} (h : d.Keeps d') : d.Steady d' :=
  ⟨h.time, congrArg Power.core h.power, h.ready, congrArg Sec.general h.sec⟩

theorem Device.OnlyIn.steady {ps : List Part} {d d' : Device} (h : d.OnlyIn ps d') (ht : .time ∉ ps) (hp : .power ∉ ps) (hr : .ready ∉ ps)
    (hs : .sec ∉ ps) : d.Steady d' :=
  ⟨h .time ht, congrArg Power.core (h .power hp), h .ready hr, congrArg Sec.general (h .sec hs)⟩

theorem Device.steady_foldl {α : Type} (f : Device → α → Device) (hf : ∀ (d : Device) a, d.Steady (f d a)) (l : List α) (d : Device) :
    d.Steady (l.foldl f d) := by
  induction l generalizing d with
  | nil => exact .refl d
  | cons a t ih => exact (hf d a).trans (ih (f d a))

theorem Device.Steady.ite {d a b : Device} {c : Prop} [Decidable c] (ha : d.Steady a) (hb : d.Steady b) : d.Steady (if c then a else b) := by
  split
  · exact ha
  · exact hb

/-- A log written, or a parameter of the receiver, the store or self-test, is neither. -/
theorem Device.modLog_steady (d : Device) (f : Log → Log) : d.Steady (d.modLog f) := ⟨rfl, rfl, rfl, rfl⟩

theorem Device.modFire_steady (d : Device) (f : Fire → Fire) : d.Steady (d.modFire f) := ⟨rfl, rfl, rfl, rfl⟩

theorem Device.modRx_steady (d : Device) (f : Rx → Rx) : d.Steady (d.modRx f) := ⟨rfl, rfl, rfl, rfl⟩

theorem Device.modRet_steady (d : Device) (f : Ret → Ret) : d.Steady (d.modRet f) := ⟨rfl, rfl, rfl, rfl⟩

theorem Device.modCal_steady (d : Device) (f : Cal → Cal) : d.Steady (d.modCal f) := ⟨rfl, rfl, rfl, rfl⟩

theorem Device.modCore_steady (d : Device) (f : CoreBridge → CoreBridge) : d.Steady (d.modCore f) := ⟨rfl, rfl, rfl, rfl⟩

theorem Device.modBist_steady (d : Device) (f : Bist → Bist) : d.Steady (d.modBist f) := ⟨rfl, rfl, rfl, rfl⟩

theorem Device.modSec_steady (d : Device) (f : Sec → Sec) (h : ∀ s : Sec, (f s).general = s.general) : d.Steady (d.modSec f) :=
  ⟨rfl, rfl, rfl, h d.sec⟩

theorem Device.modPower_steady (d : Device) (f : Power → Power) (h : ∀ p : Power, (f p).core = p.core) : d.Steady (d.modPower f) :=
  ⟨rfl, h d.power, rfl, rfl⟩

/-! The field die: nothing it does is time, supply or security of the C-die. -/

theorem Device.modField_steady (d : Device) (f : Field → Field) : d.Steady (d.modField f) := ⟨rfl, rfl, rfl, rfl⟩

theorem Device.modOut_steady (d : Device) (k : Nat) (f : Output → Output) : d.Steady (d.modOut k f) := d.modField_steady _

theorem Device.modSeq_steady (d : Device) (k : Nat) (f : Seq → Seq) : d.Steady (d.modSeq k f) := d.modField_steady _

theorem Device.fieldMsg_steady (d : Device) (m : FieldMsg) : d.Steady (d.fieldMsg m) := d.modField_steady _

theorem Device.putFn_steady (d : Device) (i : FnId) (x : Fn) : d.Steady (d.putFn i x) := by
  cases i <;> exact ⟨rfl, rfl, rfl, rfl⟩

theorem Device.modFn_steady (d : Device) (i : FnId) (f : Fn → Fn) : d.Steady (d.modFn i f) := d.putFn_steady i _

theorem Device.reachOn_steady (d : Device) (i : FnId) : d.Steady (d.reachOn i) :=
  (d.modFn_steady i _).trans (Device.complete_keeps _ _ _ _).steady

theorem Device.beginStop_steady (d : Device) (i : FnId) (len : Nat) : d.Steady (d.beginStop i len) := d.modFn_steady i _

theorem Device.enableFn_steady (d : Device) (i : FnId) (slow : Bool) (start : Device → Device) (hs : ∀ d : Device, d.Steady (start d)) :
    d.Steady (d.enableFn i slow start).1 := by
  have hput := d.putFn_steady i ((d.getFn i).enable d.now).1
  unfold Device.enableFn
  dsimp only
  split
  · exact hput
  · exact hput.trans (hs _)
  · exact hput
  · exact hput

theorem Device.seqCount_steady (d : Device) (q : Nat) : d.Steady (d.seqCount q) :=
  (d.modSeq_steady q _).trans (Device.fieldMsg_steady _ _)

theorem Device.seqTrigger_steady (d : Device) (q : Nat) : d.Steady (d.seqTrigger q) := by
  unfold Device.seqTrigger
  dsimp only
  split
  · exact .refl d
  · split
    · exact d.seqCount_steady q
    · split
      · exact d.modSeq_steady q _
      · split
        · exact d.seqCount_steady q
        · split
          · refine .trans ?_ (Device.modSeq_steady _ q _)
            split
            · exact d.seqCount_steady q
            · exact .refl d
          · split
            · exact d.seqCount_steady q
            · exact d.modSeq_steady q _

theorem Device.seqTriggers_steady (d : Device) (p : BitVec 128 → Bool) : d.Steady (d.seqTriggers p) := by
  refine Device.steady_foldl _ (fun d q => ?_) _ d
  split
  · exact d.seqTrigger_steady q
  · exact .refl d

theorem Device.switchOn_steady (d : Device) (k : Nat) (pwm : Bool) : d.Steady (d.switchOn k pwm) := by
  unfold Device.switchOn
  dsimp only
  split
  · exact ((d.modOut_steady k _).trans (Device.modOut_steady _ k _)).trans (Device.modField_steady _ _)
  · exact d.modOut_steady k _

theorem Device.setSwitch_steady (d : Device) (k : Nat) (on pwm : Bool) : d.Steady (d.setSwitch k on pwm) := by
  unfold Device.setSwitch
  split
  · exact .refl d
  · split
    · exact d.switchOn_steady k pwm
    · exact d.modOut_steady k _

theorem Device.setByEntry_steady (d : Device) (k : Nat) (on pwm : Bool) : d.Steady (d.setByEntry k on pwm) := by
  unfold Device.setByEntry
  dsimp only
  split
  · exact .refl d
  · split
    · exact (d.setSwitch_steady k on pwm).trans (Device.seqTriggers_steady _ _)
    · exact d.setSwitch_steady k on pwm

theorem Device.driveFn_steady (d : Device) (k : Nat) : d.Steady (d.driveFn k) := by
  unfold Device.driveFn
  dsimp only
  repeat' split
  · exact d.modFn_steady _ _
  · exact d.modFn_steady _ _
  · exact d.reachOn_steady _
  · exact d.modFn_steady _ _
  · exact .refl d
  · exact d.beginStop_steady _ _

theorem Device.driveOne_steady (d : Device) (k : Nat) (pwm : Bool) : d.Steady (d.driveOne k pwm) :=
  (d.driveFn_steady k).trans (Device.setByEntry_steady _ k _ pwm)

theorem Device.crossEvidence_steady (d : Device) (p k cyc : Nat) : d.Steady (d.crossEvidence p k cyc) := by
  unfold Device.crossEvidence
  lift_lets
  extract_lets prev known noted joined
  have hnoted : d.Steady noted := d.modOut_steady _ _
  have hjoined : d.Steady joined := (hnoted.trans (noted.modOut_steady _ _)).trans (Device.modOut_steady _ _ _)
  exact .ite hjoined (.ite (hjoined.trans (joined.fieldMsg_steady _)) hnoted)

theorem Device.endDiag_steady (d : Device) (k : Nat) (cut : Bool) : d.Steady (d.endDiag k cut) := by
  unfold Device.endDiag
  split
  · exact .refl d
  · split
    · refine .trans ?_ (Device.steady_foldl _ (fun d j => .ite (d.crossEvidence_steady _ _ _) (.refl d)) _ _)
      exact (d.modOut_steady k _).trans (Device.modField_steady _ _)
    · exact .ite (d.modOut_steady k _) (.refl d)

theorem Device.applyAll_steady (d : Device) (safe : Bool) (source : Nat) : d.Steady (d.applyAll safe source) := by
  unfold Device.applyAll
  lift_lets
  extract_lets taken
  have htaken : d.Steady taken :=
    (Device.steady_foldl _ (fun d k => d.endDiag_steady k true) _ d).trans (Device.modField_steady _ _)
  exact htaken.trans (Device.steady_foldl _ (fun d k => d.driveOne_steady k false) _ taken)

theorem Device.applyBlock_steady (d : Device) (b : BitVec 11392) : d.Steady (d.applyBlock b) := by
  unfold Device.applyBlock
  lift_lets
  extract_lets old i switched reborn
  have hreborn : d.Steady reborn := (d.modField_steady _).trans (switched.modField_steady _)
  exact hreborn.trans (reborn.applyAll_steady _ _)

/-! Fuses and the life cycle. -/

theorem Device.serve_steady (d : Device) (rows : List Nat) : d.Steady (d.serve rows) :=
  (d.serve_onlyIn rows).steady (by decide) (by decide) (by decide) (by decide)

theorem Device.blockToDefault_steady (d : Device) : d.Steady d.blockToDefault := by
  unfold Device.blockToDefault
  split
  · exact d.applyBlock_steady _
  · exact ⟨rfl, rfl, rfl, rfl⟩

theorem Device.sealRecord_steady (d : Device) (x : SealPart) : d.Steady (d.sealRecord x) := (d.queueRec_keeps _).steady

theorem Device.sealedToDefault_steady (d : Device) (cmdId slot : Nat) : d.Steady (d.sealedToDefault cmdId slot) := by
  unfold Device.sealedToDefault
  lift_lets
  extract_lets old served budget lens zmaps rules cfg resv used
  have hserved : d.Steady served := d.blockToDefault_steady.trans (Device.serve_steady _ [7])
  have hrules : served.Steady rules :=
    ((served.modFire_steady _).trans (budget.modRx_steady _)).trans ((lens.modRet_steady _).trans (zmaps.modCore_steady _))
  have hresv : rules.Steady resv := (rules.modBist_steady _).trans (cfg.modSec_steady _ (fun _ => rfl))
  exact ((hserved.trans hrules).trans hresv).trans (resv.sealRecord_steady _)

/-- Keys revoked are no image. -/
theorem Sec.revoke_general (slots copies : List Nat) (s : Sec) : (slots.foldl (fun s k => s.revoke k copies) s).general = s.general := by
  induction slots generalizing s with
  | nil => rfl
  | cons k t ih => exact ih (s.revoke k copies)

theorem Device.revokeAll_steady (d : Device) (slots copies : List Nat) : d.Steady (d.revokeAll slots copies) := by
  exact (d.modSec_steady _ (Sec.revoke_general slots copies)).trans (Device.steady_foldl _ (fun d _ => (d.raise_keeps _ _ _).steady) _ _)

theorem Device.lcEffects_steady (d : Device) (target cmdId slot : Nat) : d.Steady (d.lcEffects target cmdId slot) := by
  unfold Device.lcEffects
  split
  · exact ⟨rfl, rfl, rfl, rfl⟩
  · split
    · exact (d.sealedToDefault_steady _ _).trans (Device.revokeAll_steady _ _ _)
    · split
      · exact d.blockToDefault_steady.trans (Device.revokeAll_steady _ _ _)
      · exact .refl d

theorem Device.completeFuses_steady (d : Device) : d.Steady d.completeFuses := by
  refine Device.steady_foldl _ (fun d t => .ite ?_ (.refl d)) _ d
  exact (d.modSec_steady (fun s => s.advance t) (fun _ => rfl)).trans (Device.lcEffects_steady _ t 0 0)

theorem Device.bootFuses_steady (d : Device) (ok : Bool) : d.Steady (d.bootFuses ok) := by
  unfold Device.bootFuses
  lift_lets
  extract_lets done
  have hdone : d.Steady done := d.completeFuses_steady
  exact hdone.trans (done.modSec_steady _ (fun _ => rfl))

theorem Device.bootScan_steady (d : Device) : d.Steady d.bootScan := by
  unfold Device.bootScan
  lift_lets
  extract_lets all top read
  have hread : d.Steady read := (d.counterRead_keeps cRecSeq).steady
  clear_value read
  exact (hread.trans (read.modLog_steady _)).trans (Device.count_keeps _ _ _).steady

theorem Device.bootCounters_steady (d : Device) : d.Steady d.bootCounters := by
  unfold Device.bootCounters
  lift_lets
  extract_lets c lost
  have hlost : d.Steady lost := (d.count_keeps _ _).steady
  clear_value lost
  have hcounted : d.Steady (if lost.power.counted then lost else lost.countShutdown c) :=
    .ite hlost (hlost.trans ((lost.count_keeps _ _).trans (Device.count_keeps _ _ _)).steady)
  exact hcounted.trans (Device.modPower_steady _ _ (fun _ => rfl))

/-! Images. -/

/-- An image loaded changes neither time nor supply nor READY. -/
theorem Device.bootImage_parts (d : Device) (comp : Nat) (p : BootPick) :
    (d.bootImage comp p).time = d.time ∧ (d.bootImage comp p).power = d.power ∧ (d.bootImage comp p).ready = d.ready := by
  unfold Device.bootImage
  dsimp only
  repeat' split
  all_goals exact ⟨rfl, rfl, rfl⟩

/-- Without an image of the general component nothing else is loaded there. -/
theorem Device.bootImage_general (d : Device) (comp : Nat) (p : BootPick) (h : comp ≠ 0 ∨ p.image = none) :
    (d.bootImage comp p).sec.general = d.sec.general := by
  unfold Device.bootImage
  dsimp only
  split
  · split <;> rfl
  · next i hi =>
    have hc : comp ≠ 0 := h.resolve_right (by rw [hi]; exact Option.some_ne_none i)
    simp only [hc, if_false]
    split <;> rfl

/-- Where neither slot starts, there is no image. -/
theorem Device.bootPick_none (d : Device) (comp : Nat) : (d.bootPick comp (false, false)).image = none := by
  have hs : ∀ slot, d.starts comp slot (false, false) = none := fun slot => by simp [Device.starts]
  simp [Device.bootPick, hs]

theorem Device.sealedCheck_steady (d : Device) : d.Steady d.sealedCheck := by
  have hpair : ∀ (d : Device) (ok : Bool) (cls idx act : Nat), d.Steady (d.checkPair ok cls idx act) :=
    fun d ok cls idx act => (d.checkPair_keeps ok cls idx act).steady
  unfold Device.sealedCheck
  lift_lets
  extract_lets budget lens zmaps rules
  have hlens : d.Steady lens := (hpair d _ 1 0 0).trans (hpair budget _ 2 0 0)
  have hzmaps : lens.Steady zmaps := Device.steady_foldl _ (fun d n => hpair d _ 7 n 0) _ lens
  have hrules : zmaps.Steady rules := hpair zmaps _ 11 0 0
  exact ((hlens.trans hzmaps).trans hrules).trans (Device.steady_foldl _ (fun d n => hpair d _ 15 n 0) _ rules)

theorem Device.recoverParam_steady (d : Device) (n : Nat) : d.Steady (d.recoverParam n) := by
  unfold Device.recoverParam
  dsimp only
  split
  · exact .refl d
  · exact d.sealRecord_steady _

theorem Device.sealedStart_steady (d : Device) (p : BootPick) (before : Option Image) : d.Steady (d.sealedStart p before) := by
  unfold Device.sealedStart
  split
  · exact .refl d
  · lift_lets
    extract_lets checked rolled
    have hrolled : d.Steady rolled := .ite (d.sealedCheck_steady.trans (checked.sealRecord_steady _)) d.sealedCheck_steady
    exact hrolled.trans (Device.steady_foldl _ (fun d n => d.recoverParam_steady n) _ rolled)

/-! The general firmware. -/

theorem Device.bootUnmark_steady (d : Device) (u : Nat × Nat) : d.Steady (d.bootUnmark u) := by
  unfold Device.bootUnmark
  dsimp only
  repeat' split
  all_goals exact ⟨rfl, rfl, rfl, rfl⟩

theorem Device.bootMap_steady (d : Device) : d.Steady d.bootMap := by
  unfold Device.bootMap
  lift_lets
  extract_lets b checked marked cleared m spares cells pool
  have hmarked : d.Steady marked := (d.checkPair_keeps _ _ _ _).steady.trans (checked.modBist_steady _)
  have hcleared : marked.Steady cleared := Device.steady_foldl _ (fun d u => d.bootUnmark_steady u) _ marked
  have hspares : cleared.Steady spares := cleared.modBist_steady _
  have hpool : spares.Steady pool := ⟨rfl, rfl, rfl, rfl⟩
  exact (((hmarked.trans hcleared).trans hspares).trans hpool).trans (pool.modRx_steady _)

theorem Device.modPort_steady (d : Device) (p : Nat) (f : RPort → RPort) : d.Steady (d.modPort p f) := (d.modPort_keeps p f).steady

theorem Device.portStart_steady (d : Device) (p : Nat) : d.Steady (d.portStart p) :=
  (d.modPort_steady p _).trans (Device.raise_keeps _ _ _ _).steady

theorem Device.autostart_steady (d : Device) (p : Nat) : d.Steady (d.autostart p) := by
  unfold Device.autostart
  dsimp only
  split
  · exact d.enableFn_steady _ _ _ (fun d => d.portStart_steady p)
  · exact .refl d

theorem Device.pendingEffect_steady (d : Device) (order : Nat) (v : Bool) : d.Steady (d.pendingEffect order v) := ⟨rfl, rfl, rfl, rfl⟩

theorem Device.passBegin_steady (d : Device) : d.Steady d.passBegin := by
  unfold Device.passBegin
  lift_lets
  extract_lets ok begun
  have hbegun : d.Steady begun := (d.checkPair_keeps _ _ _ _).steady.trans (Device.modBist_steady _ _)
  exact .ite (hbegun.trans (begun.pendingEffect_steady 6 false)) hbegun

theorem Device.bootGeneral_steady (d : Device) : d.Steady d.bootGeneral := by
  unfold Device.bootGeneral
  lift_lets
  extract_lets mapped latched ports passed
  have hmapped : d.Steady mapped := (d.modCal_steady _).trans (Device.bootMap_steady _)
  have hlatched : mapped.Steady latched := (mapped.checkPair_keeps _ _ _ _).steady
  have hports : latched.Steady ports := (latched.autostart_steady 0).trans (Device.autostart_steady _ 1)
  have hpassed : ports.Steady passed := ports.passBegin_steady
  exact (((hmapped.trans hlatched).trans hports).trans hpassed).trans (passed.modLog_steady _)

/-! After READY. -/

theorem Device.bootEvents_steady (d : Device) (comp : Nat) (p : BootPick) : d.Steady (d.bootEvents comp p) := by
  refine Device.steady_foldl _ (fun d e => ?_) _ d
  split
  · exact .refl d
  · exact (d.raise_keeps _ _ _).steady

theorem Device.shutdownRecord_steady (d : Device) : d.Steady d.shutdownRecord := by
  unfold Device.shutdownRecord
  dsimp only
  split
  · exact .refl d
  · exact (d.queueRec_keeps _).steady

theorem Device.reportRead_steady (d : Device) : d.Steady d.reportRead :=
  (((d.counterRead_keeps _).trans (Device.counterRead_keeps _ _)).trans (Device.counterRead_keeps _ _)).steady

theorem Device.bootLog_steady (d : Device) : d.Steady d.bootLog := by
  unfold Device.bootLog
  lift_lets
  extract_lets read x
  have hread : d.Steady read := d.reportRead_steady
  clear_value read x
  exact .ite hread ((hread.trans (read.modLog_steady _)).trans (Device.raise_keeps _ _ _ _).steady)

theorem Device.bootReport_steady (d : Device) (g s : BootPick) : d.Steady (d.bootReport g s) := by
  unfold Device.bootReport
  lift_lets
  extract_lets events reported
  have hevents : d.Steady events := (d.bootEvents_steady 0 g).trans (Device.bootEvents_steady _ 1 s)
  clear_value events
  have hrecord : events.Steady events.bootRecord := (events.record_keeps _ _ _ _).steady
  have hreported : events.Steady reported :=
    .ite (events.raise_keeps _ _ _).steady (hrecord.trans (Device.shutdownRecord_steady _))
  clear_value reported
  exact ((hevents.trans hreported).trans reported.bootLog_steady).trans (Device.modPower_steady _ _ (fun _ => rfl))

/-- The boot ends with the C-die running at the time it began, READY unless the life-cycle state is SCRAPPED, and in recovery where no
general image runs or starts. -/
theorem Device.boot_ends (d : Device) (env : BootEnv) :
    (d.boot env).time = d.time ∧ (d.boot env).power.core = .run ∧ ((d.boot env).ready = true ∨ (d.boot env).lc = lcScrapped) ∧
    (d.sec.general = none → env.generalStarts = (false, false) → (d.boot env).sec.general = none) := by
  unfold Device.boot
  lift_lets
  extract_lets fuses counted g loaded sealedPick before sealed running
  have hfuses : d.Steady fuses := (d.bootFuses_steady env.fusesOk).trans (Device.count_keeps _ _ _).steady
  have hcounted : (fuses.modPower (fun p => { p with core := .run })).Steady counted :=
    (Device.bootScan_steady _).trans (Device.bootCounters_steady _)
  have htime : counted.time = d.time := hcounted.time.trans hfuses.time
  have hcore : counted.power.core = .run := hcounted.core
  have hgeneral : counted.sec.general = d.sec.general := hcounted.general.trans hfuses.general
  clear_value fuses counted
  split
  · next hlc => exact ⟨htime, hcore, .inr hlc, fun hn _ => hgeneral.trans hn⟩
  · obtain ⟨hltime, hlpower, -⟩ := counted.bootImage_parts 0 g
    obtain ⟨hstime, hspower, -⟩ := loaded.bootImage_parts 1 sealedPick
    have hsealed : (loaded.bootImage 1 sealedPick).Steady sealed := Device.sealedStart_steady _ _ _
    have hrunning : sealed.Steady running := .ite sealed.bootGeneral_steady (.refl sealed)
    have hend := hsealed.trans hrunning
    have hreport := Device.bootReport_steady { running with ready := true } g sealedPick
    refine ⟨?time, ?core, .inl hreport.ready, fun hn hnone => ?general⟩
    case time => exact hreport.time.trans (hend.time.trans (hstime.trans (hltime.trans htime)))
    case core =>
      exact hreport.core.trans (hend.core.trans ((congrArg Power.core (hspower.trans hlpower)).trans hcore))
    case general =>
      have hpick : g.image = none := by
        show (counted.bootPick 0 env.generalStarts).image = none
        rw [hnone, counted.bootPick_none]
      have hloaded : loaded.sec.general = none := (counted.bootImage_general 0 g (.inr hpick)).trans (hgeneral.trans hn)
      exact hreport.general.trans (hend.general.trans ((loaded.bootImage_general 1 sealedPick (.inl (by decide))).trans hloaded))

end Sys2Proof.Machine
end

section
/-! Restarts (R21, R254): the start of a queue and the withdrawal of a barred start. -/

namespace Sys2Proof.Machine

open Sys2Proof

/-- Where nothing waits for it, a completion changes nothing. -/
theorem Device.complete_noWaits (d : Device) (k : WaitKind) (status : Nat) (result : Bytes) (h : d.wcp.waits = []) :
    d.complete k status result = d := by
  have hw : ({ d with wcp := { d.wcp with waits := [] } } : Device) = d := by rw [← h]
  simp only [Device.complete, h, List.filter_nil, List.foldl_nil]
  exact hw

/-- What a row that keeps everything but the protocol, the ring, the queues and the log has changed. -/
theorem Device.Keeps.onlyIn {d d' : Device} (h : d.Keeps d') : d.OnlyIn (.ring :: reports) d' := by
  intro p hp
  cases p
  case time => exact h.time
  case fire => exact h.fire
  case rx => exact h.rx
  case hist => exact h.hist
  case ret => exact h.ret
  case cal => exact h.cal
  case cams => exact h.cams
  case core => exact h.core
  case field => exact h.field
  case bist => exact h.bist
  case sec => exact h.sec
  case power => exact h.power
  case ready => exact h.ready
  all_goals exact absurd (by decide) hp

theorem Device.OnlyIn.trans {ps : List Part} {a b c : Device} (h : a.OnlyIn ps b) (k : b.OnlyIn ps c) : a.OnlyIn ps c := by
  intro p hp
  have h1 := h p hp
  have h2 := k p hp
  cases p
  case ring =>
    have e := congrArg (fun r : Ring => { r with ports := a.ring.ports }) h2
    exact e.trans h1
  all_goals exact Eq.trans h2 h1

theorem Device.OnlyIn.mono {ps qs : List Part} {d d' : Device} (h : d.OnlyIn ps d') (hs : ps ⊆ qs) : d.OnlyIn qs d' :=
  fun p hp => h p (fun hm => hp (hs hm))

/-- The number of a queue names its function. -/
theorem qFn_val (q : Fin 16384) : qFn q.val = .queue q := congrArg FnId.queue (Fin.ext (Nat.mod_eq_of_lt q.isLt))

/-- A queue's function written binds no stream. -/
theorem Device.Unstreamed.putFn_queue {d : Device} (h : d.Unstreamed) (q : Fin 16384) (x : Fn) : (d.putFn (.queue q) x).Unstreamed :=
  ⟨h.held, h.events, h.mirror⟩

/-- Where nothing waits, a queue reaches ON in its function alone. -/
theorem Device.reachOn_queue (d : Device) (q : Fin 16384) (h : d.wcp.waits = []) :
    d.reachOn (.queue q) = d.putFn (.queue q)
      { (d.queue q.val).fn with st := .on, faultStop := false, restart := (d.queue q.val).fn.restart && (d.queue q.val).fn.stopPending } :=
  Device.complete_noWaits _ _ _ _ h

theorem Device.putFn_queue_onlyIn (d : Device) (q : Fin 16384) (x : Fn) : d.OnlyIn [.wcp, .ports, .qs] (d.putFn (.queue q) x) := by
  intro p hp
  cases p <;> first | rfl | exact absurd (by decide) hp

theorem Device.putFn_fire_onlyIn (d : Device) (x : Fn) : d.OnlyIn (.fire :: .ring :: reports) (d.putFn .fire x) := by
  intro p hp
  cases p <;> first | rfl | exact absurd (by decide) hp

theorem Device.raise_onlyIn (d : Device) (id source payload : Nat) : d.OnlyIn [.wcp, .ports, .qs] (d.raise id source payload) := by
  intro p hp
  cases p <;> first | rfl | exact absurd (by decide) hp

/-- An event raised where no stream is bound leaves the queues alone. -/
theorem Device.queueEvent_queue {d : Device} (h : d.Unstreamed) (n m : Nat) : (d.queueEvent n).queue m = d.queue m :=
  congrArg (fun x : Queues => x.get m) (d.raise_unstreamed _ _ _ h)

/-- A function whose start is not due stays as it is. -/
theorem Device.restart_notDue {d : Device} {f : FnId} (h : (d.getFn f).restartDue d.now = false) : d.restart f = d := by
  simp only [Device.restart, h, Bool.not_false, if_true]

/-- A queue whose start is due and not barred starts. -/
theorem Device.restart_queue {d : Device} {q : Fin 16384} (hdue : (d.queue q.val).fn.restartDue d.now = true)
    (hbar : d.startBarred (.queue q) = false) :
    d.restart (.queue q) = (d.putFn (.queue q) { (d.queue q.val).fn with st := .starting, restart := false }).queueStart q.val := by
  have hdue' : (d.getFn (.queue q)).restartDue d.now = true := hdue
  simp only [Device.restart, hdue', Bool.not_true, Bool.false_eq_true, if_false, hbar]
  rfl

/-- A start of the firing controller that is due and barred is withdrawn. -/
theorem Device.restart_fire_barred {d : Device} (hdue : d.fire.fn.restartDue d.now = true) (hbar : d.startBarred .fire = true) :
    d.restart .fire = (d.putFn .fire { d.fire.fn with restart := false }).complete (.fnOn .fire) sBadState Bytes.nil := by
  have hdue' : (d.getFn .fire).restartDue d.now = true := hdue
  simp only [Device.restart, hdue', Bool.not_true, Bool.false_eq_true, if_false, hbar, if_true]
  rfl

/-- The queue that starts comes ON, and every other stays as it was. -/
theorem Device.restart_queue_on {d : Device} {q : Fin 16384} (hun : d.Unstreamed) (hw : d.wcp.waits = [])
    (hdue : (d.queue q.val).fn.restartDue d.now = true) (hbar : d.startBarred (.queue q) = false) :
    (d.restart (.queue q)).Unstreamed ∧
    (d.restart (.queue q)).queue q.val =
      { d.queue q.val with fn := { (d.queue q.val).fn with st := .on, faultStop := false, restart := false } } ∧
    (∀ n, n ≠ q.val → (d.restart (.queue q)).queue n = d.queue n) ∧ d.OnlyIn [.wcp, .ports, .qs] (d.restart (.queue q)) := by
  let a := d.putFn (.queue q) { (d.queue q.val).fn with st := .starting, restart := false }
  let b := a.putFn (.queue q) { (a.queue q.val).fn with st := .on, faultStop := false, restart := (a.queue q.val).fn.restart && (a.queue q.val).fn.stopPending }
  have hb : b.Unstreamed := (hun.putFn_queue q _).putFn_queue q _
  have hrestart : d.restart (.queue q) = b.queueEvent q.val := by
    rw [Device.restart_queue hdue hbar, Device.queueStart, qFn_val, a.reachOn_queue q hw]
  have hqs : (b.queueEvent q.val).qs = b.qs := b.raise_unstreamed _ _ _ hb
  rw [hrestart]
  refine ⟨⟨hqs ▸ hb.held, hqs ▸ hb.events, hqs ▸ hb.mirror⟩, ?same, fun n hn => ?other, ?only⟩
  case same =>
    rw [Device.queueEvent_queue hb]
    simp [a, b, Device.putFn]
  case other =>
    rw [Device.queueEvent_queue hb]
    simp [a, b, Device.putFn, Device.queue_modQ, hn.symm]
  case only =>
    exact ((d.putFn_queue_onlyIn q _).trans (a.putFn_queue_onlyIn q _)).trans (b.raise_onlyIn _ _ _)

/-- The end of a step leaves the life-cycle state alone. -/
theorem State.settle_lc (s : State) (old : Device) : (s.settle old).dev.lc = s.dev.lc := by
  simp only [Device.lc, State.settle_parts]

/-- Without streams it leaves every queue alone. -/
theorem State.settle_unstreamed_queue (s : State) (old : Device) (h : s.dev.Unstreamed) (n : Nat) :
    (s.settle old).dev.queue n = s.dev.queue n := by
  rw [State.settle_unstreamed s old h]
  rfl

/-- BOOT in the boot ROM boots. -/
theorem execBoot_runs {dt : Nat} {env : BootEnv} {s : State} (hboot : (s.elapse dt).dev.power.core = .boot)
    (hready : (s.elapse dt).dev.ready = false) :
    execBoot dt env s = .next (State.settle { s.elapse dt with dev := (s.elapse dt).dev.boot env } s.dev) := by
  have hgo : ∀ d : Device, d.power.core = .boot → d.ready = false → (if d.power.core = .boot && !d.ready then d.boot env else d) = d.boot env :=
    fun d hb hr => by simp only [hb, hr, decide_true, Bool.not_false, Bool.and_self, if_true]
  rw [execBoot, devRow_next, hgo _ hboot hready]

/-- BOOT in any other state lets time pass. -/
theorem execBoot_idles {dt : Nat} {env : BootEnv} {s : State} (h : (s.elapse dt).dev.power.core ≠ .boot ∨ (s.elapse dt).dev.ready = true) :
    Idles (execBoot dt env s) (s.elapse dt).dev := by
  refine devRow_idles _ _ _ (if_neg ?_)
  simp only [Bool.and_eq_true, decide_eq_true_eq, Bool.not_eq_true', not_and]
  intro hboot hready
  rcases h with hcore | hset
  · exact hcore hboot
  · exact absurd (hset.symm.trans hready) (by decide)

/-- FUNCTION_RESTART of a function whose start is not due lets time pass. -/
theorem execFunctionRestart_idles {dt : Nat} {f : FnId} {s : State}
    (h : ((s.elapse dt).dev.getFn f).restartDue (s.elapse dt).dev.now = false) : Idles (execFunctionRestart dt f s) (s.elapse dt).dev := by
  unfold execFunctionRestart
  split
  · exact fieldRow_idles _ _ _ (Device.restart_notDue h)
  · exact coreRow_idles _ _ _ (Device.restart_notDue h)

/-- FUNCTION_RESTART of a function of the core side. -/
theorem execFunctionRestart_core {dt : Nat} {f : FnId} {s : State} (hf : onField f = false) (h : (s.elapse dt).dev.alive = true) :
    execFunctionRestart dt f s = .next (State.settle { s.elapse dt with dev := (s.elapse dt).dev.restart f } s.dev) := by
  rw [execFunctionRestart, hf]
  exact coreRow_next dt (fun d => d.restart f) s h

/-- Settles O33: the boot by its steps, then the starts by whether they are due and barred. -/
theorem bootAndRestart : Obligations.BootAndRestart := by
  intro s dt env f q d
  dsimp only [exec]
  refine ⟨fun hboot hready => ?boot, fun hnot => execBoot_idles hnot, fun hdue => execFunctionRestart_idles hdue,
    fun halive hun hw hdue hbar => ?queue, fun halive hdue hbar => ?fire⟩
  case boot =>
    obtain ⟨htime, hcore, hready', hgeneral⟩ := d.boot_ends env
    refine ⟨_, execBoot_runs hboot hready, ?_⟩
    generalize d.boot env = x at htime hcore hready' hgeneral ⊢
    have hkeeps := State.settle_keeps { s.elapse dt with dev := x } s.dev
    refine ⟨(congrArg Power.core hkeeps.power).trans hcore, ?_, hkeeps.time.trans htime,
      fun hn hnone => (congrArg Sec.general hkeeps.sec).trans (hgeneral hn hnone)⟩
    exact hready'.imp hkeeps.ready.trans (State.settle_lc _ _).trans
  case queue =>
    obtain ⟨hstill, hsame, hother, honly⟩ := Device.restart_queue_on hun hw hdue hbar
    refine ⟨_, execFunctionRestart_core rfl halive, ?_⟩
    generalize d.restart (.queue q) = x at hstill hsame hother honly ⊢
    have hqueue : ∀ n, (State.settle { s.elapse dt with dev := x } s.dev).dev.queue n = x.queue n :=
      State.settle_unstreamed_queue { s.elapse dt with dev := x } s.dev hstill
    exact ⟨(hqueue _).trans hsame, fun n hn => (hqueue n).trans (hother n hn),
      State.settle_onlyIn _ _ _ _ (by decide) (by decide) (by decide) honly⟩
  case fire =>
    refine ⟨_, execFunctionRestart_core rfl halive, ?_⟩
    rw [Device.restart_fire_barred hdue hbar]
    have hkeeps := (d.putFn .fire { d.fire.fn with restart := false }).complete_keeps (.fnOn .fire) sBadState Bytes.nil
    generalize (d.putFn .fire { d.fire.fn with restart := false }).complete (.fnOn .fire) sBadState Bytes.nil = x at hkeeps ⊢
    have honly : d.OnlyIn (.fire :: .ring :: reports) x :=
      (d.putFn_fire_onlyIn _).trans (hkeeps.onlyIn.mono (List.subset_cons_self _ _))
    exact ⟨(State.settle_keeps _ _).fire.trans hkeeps.fire, State.settle_onlyIn _ _ _ _ (by decide) (by decide) (by decide) honly⟩

end Sys2Proof.Machine
end

section
/-! Frames and groups: what their starts leave of time, the plan, the next pair and the bias (R77-R79, R108). -/

namespace Sys2Proof.Machine

open Sys2Proof

/-- Two devices at the same time, with the same plan running and selected, the same next pair and the same bias. -/
structure Device.Underway (d d' : Device) : Prop where
  time : d'.time = d.time
  running : d'.fire.running = d.fire.running
  selected : d'.fire.selected = d.fire.selected
  nextPair : d'.fire.nextPair = d.fire.nextPair
  biasApplied : d'.rx.biasApplied = d.rx.biasApplied
  biasTarget : d'.rx.biasTarget = d.rx.biasTarget

theorem Device.Underway.refl (d : Device) : d.Underway d := ⟨rfl, rfl, rfl, rfl, rfl, rfl⟩

theorem Device.Underway.trans {a b c : Device} (h : a.Underway b) (k : b.Underway c) : a.Underway c :=
  ⟨k.time.trans h.time, k.running.trans h.running, k.selected.trans h.selected, k.nextPair.trans h.nextPair,
    k.biasApplied.trans h.biasApplied, k.biasTarget.trans h.biasTarget⟩

theorem Device.Underway.ite {d a b : Device} {c : Prop} [Decidable c] (ha : d.Underway a) (hb : d.Underway b) :
    d.Underway (if c then a else b) := by
  split
  · exact ha
  · exact hb

theorem Device.underway_foldl {α : Type} (f : Device → α → Device) (hf : ∀ (d : Device) a, d.Underway (f d a)) (l : List α)
    (d : Device) : d.Underway (l.foldl f d) := by
  induction l generalizing d with
  | nil => exact .refl d
  | cons a t ih => exact (hf d a).trans (ih (f d a))

/-- Where time, firing controller and receiver are the same, so is all that. -/
theorem Device.Underway.of {d d' : Device} (ht : d'.time = d.time) (hf : d'.fire = d.fire) (hr : d'.rx = d.rx) : d.Underway d' :=
  ⟨ht, by rw [hf], by rw [hf], by rw [hf], by rw [hr], by rw [hr]⟩

theorem Device.Keeps.underway {d d' : Device} (h : d.Keeps d') : d.Underway d' := .of h.time h.fire h.rx

theorem Device.OnlyIn.underway {ps : List Part} {d d' : Device} (h : d.OnlyIn ps d') (ht : .time ∉ ps) (hf : .fire ∉ ps)
    (hr : .rx ∉ ps) : d.Underway d' := .of (h .time ht) (h .fire hf) (h .rx hr)

theorem Device.modFire_underway (d : Device) (f : Fire → Fire)
    (h : ∀ x : Fire, (f x).running = x.running ∧ (f x).selected = x.selected ∧ (f x).nextPair = x.nextPair) : d.Underway (d.modFire f) := by
  obtain ⟨hrunning, hselected, hpair⟩ := h d.fire
  exact ⟨rfl, hrunning, hselected, hpair, rfl, rfl⟩

theorem Device.modRx_underway (d : Device) (f : Rx → Rx)
    (h : ∀ x : Rx, (f x).biasApplied = x.biasApplied ∧ (f x).biasTarget = x.biasTarget) : d.Underway (d.modRx f) := by
  obtain ⟨happlied, htarget⟩ := h d.rx
  exact ⟨rfl, rfl, rfl, rfl, happlied, htarget⟩

theorem Device.modRet_underway (d : Device) (f : Ret → Ret) : d.Underway (d.modRet f) := .of rfl rfl rfl

theorem Device.modCal_underway (d : Device) (f : Cal → Cal) : d.Underway (d.modCal f) := .of rfl rfl rfl

theorem Device.modHist_underway (d : Device) (f : Hist → Hist) : d.Underway (d.modHist f) := .of rfl rfl rfl

/-! Triggers. -/

theorem Device.countTrig_underway (d : Device) : d.Underway d.countTrig := ⟨rfl, rfl, rfl, rfl, rfl, rfl⟩

theorem Device.reportTrig_underway (d : Device) : d.Underway d.reportTrig := by
  unfold Device.reportTrig
  lift_lets
  extract_lets e
  exact .ite (.refl d) ((d.raise_keeps 0x0201 0 e).underway.trans (Device.modFire_underway _ _ (fun _ => ⟨rfl, rfl, rfl⟩)))

theorem Device.calHoldCheck_underway (d : Device) : d.Underway d.calHoldCheck := by
  refine .ite (.refl d) (.trans ?_ (Device.raise_keeps _ _ _ _).underway)
  exact d.modFire_underway _ (fun _ => ⟨rfl, rfl, rfl⟩)

theorem Device.applyTrigger_underway (d : Device) (src pol : Nat) : d.Underway (d.applyTrigger src pol) := by
  unfold Device.applyTrigger
  lift_lets
  extract_lets counted
  have hcounted : d.Underway counted := .ite d.countTrig_underway (.refl d)
  clear_value counted
  refine .trans ?_ (Device.calHoldCheck_underway _)
  exact hcounted.trans (counted.modFire_underway _ (fun _ => ⟨rfl, rfl, rfl⟩))

/-! Zone maps. -/

theorem Device.zoneEvents_underway (d : Device) (occ blind frame group : Nat) : d.Underway (d.zoneEvents occ blind frame group) :=
  Device.underway_foldl _ (fun d _ => .ite (.refl d) (d.limited_keeps _ _ _ _ _ _ _).underway) _ d

theorem Device.writeOcc_underway (d : Device) (b : BitVec 768) : d.Underway (d.writeOcc b) := by
  unfold Device.writeOcc
  lift_lets
  extract_lets told written
  have htold : d.Underway told := d.zoneEvents_underway _ _ _ _
  clear_value told
  have hwritten : told.Underway written := told.modRet_underway _
  exact (htold.trans hwritten).trans (.of rfl rfl rfl)

theorem Device.setZones_underway (d : Device) (f : Nat → Nat × Nat → Nat × Nat) : d.Underway (d.setZones f) :=
  .ite (.refl d) (d.writeOcc_underway _)

theorem Device.pendingEffect_underway (d : Device) (order : Nat) (v : Bool) : d.Underway (d.pendingEffect order v) := .of rfl rfl rfl

theorem Device.zmapsStart_underway (d : Device) : d.Underway d.zmapsStart := by
  unfold Device.zmapsStart
  lift_lets
  extract_lets changed rewritten
  have hrewritten : d.Underway rewritten := d.modRet_underway _
  exact .ite (.refl d) ((hrewritten.trans (rewritten.setZones_underway _)).trans (Device.pendingEffect_underway _ _ _))

/-! The parts of a frame start. -/

/-- The plan selected takes over. -/
theorem Device.startPlan_runs (d : Device) (frame : Nat) :
    (d.startPlan frame).time = d.time ∧ (d.startPlan frame).fire.running = d.fire.selected := by
  unfold Device.startPlan
  lift_lets
  extract_lets again switch taken told
  have htold : taken.Keeps told := by
    show taken.Keeps (if switch then _ else _)
    split
    · exact taken.raise_keeps _ _ _
    · exact .refl taken
  have hend := (htold.trans (told.complete_keeps .planSelect sOk Bytes.nil)).underway
  exact ⟨hend.time, hend.running⟩

theorem Device.followFrame_underway (d : Device) (fieldOk : Bool) (ua now : Nat) :
    d.Underway (d.modFire (fun f => f.followFrame fieldOk ua now)) := by
  refine d.modFire_underway _ (fun f => ?_)
  unfold Fire.followFrame
  dsimp only
  split
  · exact ⟨rfl, rfl, rfl⟩
  · split
    · split <;> exact ⟨rfl, rfl, rfl⟩
    · exact ⟨rfl, rfl, rfl⟩

theorem Device.startRx_underway (d : Device) : d.Underway d.startRx := by
  unfold Device.startRx
  lift_lets
  extract_lets taken
  have htaken : d.Underway taken := (d.checkPair_keeps _ _ _ _).underway.trans (Device.modRx_underway _ _ (fun _ => ⟨rfl, rfl⟩))
  exact (htaken.trans (taken.complete_keeps _ _ _).underway).trans (Device.pendingEffect_underway _ _ _)

theorem Device.startCal_underway (d : Device) (changed : Bool) (frame : Nat) : d.Underway (d.startCal changed frame) := by
  unfold Device.startCal
  dsimp only
  split
  · exact (d.modCal_underway _).trans (Device.modCal_underway _ _)
  · exact (d.modCal_underway _).trans (Device.modCal_underway _ _)

theorem Device.frameDyn_underway (d : Device) (layoutOf : BitVec 256 → BitVec 64) (descs : List (BitVec 256)) (offset : Int) (woff : Nat) :
    d.Underway (d.modRx (fun r => r.frameDyn layoutOf descs offset woff)) := ⟨rfl, rfl, rfl, rfl, rfl, rfl⟩

theorem Device.startSpares_underway (d : Device) (layouts : List (BitVec 64)) : d.Underway (d.startSpares layouts) := by
  have hevent : ∀ (d : Device) (code ch : Nat) (self : Bool) (spare : Option Nat), d.Underway (d.channelEvent code ch self spare) :=
    fun d code ch self spare => (d.raise_keeps _ _ _).underway
  unfold Device.startSpares
  lift_lets
  extract_lets r back kept spares chosen retired restored
  have hchosen : d.Underway chosen := ⟨rfl, rfl, rfl, rfl, rfl, rfl⟩
  have hretired : chosen.Underway retired := Device.underway_foldl _ (fun d x => hevent d _ _ _ _) _ chosen
  have hrestored : retired.Underway restored := Device.underway_foldl _ (fun d x => hevent d _ _ _ _) _ retired
  exact ((hchosen.trans hretired).trans hrestored).trans
    (Device.underway_foldl _ (fun d x => .ite (hevent d _ _ _ _) (.refl d)) _ restored)

theorem Device.startTables_underway (d : Device) : d.Underway d.startTables :=
  ((d.modHist_underway _).trans (Device.modRet_underway _ _)).trans (Device.zmapsStart_underway _)

/-- A frame runs the selected plan from its first group, numbered on from the frame before. -/
theorem Device.frameBegin_runs (d : Device) :
    d.frameBegin.fire.phase = .running ∧ d.frameBegin.fire.running = d.fire.selected ∧ d.frameBegin.fire.cut = false ∧
    d.frameBegin.fire.shotQ = [] ∧ d.frameBegin.fire.enqIdx = 0 ∧ d.frameBegin.fire.firstSlot = some d.now ∧
    d.frameBegin.bist.gap = none ∧
    d.frameBegin.fire.frameNo = (if d.fire.firstSlot.isSome then (d.fire.frameNo + 1) % 2 ^ 32 else 0) := by
  unfold Device.frameBegin
  lift_lets
  extract_lets frame reported applied planned seeded followed changed received calibrated descs layoutOf freed tabled cams synced started
  have happlied : d.Underway applied := by
    refine d.reportTrig_underway.trans ?_
    show reported.Underway (match reported.fire.trigNext with
      | some (s, p) => reported.applyTrigger s p
      | none => reported)
    split
    · exact reported.applyTrigger_underway _ _
    · exact .refl reported
  obtain ⟨hptime, hprun⟩ := applied.startPlan_runs frame
  have hseeded : planned.Underway seeded := ⟨rfl, rfl, rfl, rfl, rfl, rfl⟩
  have hfollowed : seeded.Underway followed := seeded.followFrame_underway _ _ _
  have hcalibrated : followed.Underway calibrated := followed.startRx_underway.trans (received.startCal_underway _ _)
  have hfreed : calibrated.Underway freed := calibrated.frameDyn_underway _ _ _ _
  have htabled : freed.Underway tabled := (freed.startSpares_underway _).trans (Device.startTables_underway _)
  have htables := ((hseeded.trans hfollowed).trans hcalibrated).trans (hfreed.trans htabled)
  clear_value tabled
  have hend : planned.Underway synced := htables.trans (.of rfl rfl rfl)
  have hnow : synced.now = d.now := congrArg (fun t => t.clk) (hend.time.trans (hptime.trans happlied.time))
  have hrun : synced.fire.running = d.fire.selected := hend.running.trans (hprun.trans happlied.selected)
  exact ⟨rfl, hrun, rfl, rfl, rfl, congrArg some hnow, rfl, rfl⟩

/-! The parts of a group start. -/

/-- The budget check leaves time, the receiver, the next pair and the plan alone. -/
theorem Device.budgetCheck_parts (d : Device) : d.Underway d.budgetCheck ∧ d.budgetCheck.rx = d.rx := by
  unfold Device.budgetCheck
  lift_lets
  extract_lets e told recorded
  have hkeeps : d.Keeps recorded := (d.integrityN_keeps 1 0 0 1).trans (told.record_keeps _ _ _ _)
  clear_value recorded
  split
  · exact ⟨.refl d, rfl⟩
  · split
    · exact ⟨(d.intact_keeps 1 0).underway, (d.intact_keeps 1 0).rx⟩
    · exact ⟨hkeeps.underway.trans (recorded.modFire_underway _ (fun _ => ⟨rfl, rfl, rfl⟩)), hkeeps.rx⟩

/-- The bias at a group start: what is applied is the measured output, slewed toward the target so far, or, on the ramp to the first
target since a power-up, toward the new one. -/
theorem Device.startBias_applies (d : Device) (off : Int) :
    (d.startBias off).fire = d.fire ∧
    (d.startBias off).rx.biasApplied =
      ({ d.rx with biasTarget := if d.rx.ramp.isSome then (d.startBias off).rx.biasTarget else d.rx.biasTarget } : Rx).biasMeasured off d.now := by
  unfold Device.startBias
  lift_lets
  extract_lets checked v raw target
  have hchecked : d.Keeps checked := d.checkPair_keeps _ _ _ _
  have hnow : checked.now = d.now := congrArg (fun t => t.clk) hchecked.time
  clear_value raw checked
  refine ⟨hchecked.fire, ?_⟩
  show Rx.biasMeasured (if checked.rx.ramp.isSome then { checked.rx with biasTarget := target.toNat } else checked.rx) off checked.now =
    Rx.biasMeasured { d.rx with biasTarget := if d.rx.ramp.isSome then target.toNat else d.rx.biasTarget } off d.now
  rw [hchecked.rx, hnow]
  split <;> rfl

theorem Device.mram_underway (d : Device) (general : Bool) (write : Device → Device) (h : ∀ d : Device, d.Underway (write d)) :
    d.Underway (d.mram general write) := by
  have hserved : d.Underway (if general then d.serveOrWait [7] else d.serve [7]) :=
    .ite ((d.serveOrWait_onlyIn [7]).underway (by decide) (by decide) (by decide))
      ((d.serve_onlyIn [7]).underway (by decide) (by decide) (by decide))
  exact .ite (.refl d) (hserved.trans (h _))

theorem Device.startLin_underway (d : Device) : d.Underway d.startLin := by
  unfold Device.startLin
  lift_lets
  extract_lets next install installed
  have hinstalled : d.Underway installed := by
    refine .ite (.refl d) ((d.mram_underway true install (fun d => ?_)).trans ⟨rfl, rfl, rfl, rfl, rfl, rfl⟩)
    exact d.modRx_underway _ (fun _ => ⟨rfl, rfl⟩)
  exact hinstalled.trans (Device.underway_foldl _ (fun d p => (d.checkPair_keeps _ _ _ _).underway) _ installed)

theorem Device.calCheck_underway (d : Device) : d.Underway d.calCheck := by
  unfold Device.calCheck
  lift_lets
  extract_lets u checked
  have hchecked : d.Underway checked := (d.checkPair_keeps _ _ _ _).underway
  exact hchecked.trans (checked.modCal_underway _)

theorem Device.startMap_underway (d : Device) (i : Nat) : d.Underway (d.startMap i) := by
  unfold Device.startMap
  lift_lets
  extract_lets ok checked
  have hchecked : d.Underway checked := (d.checkPair_keeps _ _ _ _).underway
  clear_value checked
  exact .ite hchecked ((hchecked.trans (checked.modRet_underway _)).trans (Device.setZones_underway _ _))

theorem Device.modFn_hexport_underway (d : Device) (f : Fn → Fn) : d.Underway (d.modFn .hexport f) := .of rfl rfl rfl

theorem Device.histEvent_underway (d : Device) : d.Underway d.histEvent := (d.raise_keeps _ _ _).underway

theorem Device.abandonUnit_underway (d : Device) (p reason : Nat) : d.Underway (d.abandonUnit p reason) := by
  unfold Device.abandonUnit
  lift_lets
  extract_lets seq freed
  have hfreed : d.Underway freed := d.modHist_underway _
  exact .ite hfreed (hfreed.trans (freed.countDrop_near _ _ _).keeps.underway)

theorem Device.exportStop_underway (d : Device) : d.Underway d.exportStop := by
  unfold Device.exportStop
  lift_lets
  extract_lets drop dropped draining
  have hdrop : ∀ (d : Device) p, d.Underway (drop d p) :=
    fun d p => .ite ((d.abandonUnit_underway p 6).trans (Device.modHist_underway _ _)) (.refl d)
  have hdropped : d.Underway dropped := (hdrop d 6).trans (hdrop _ 7)
  clear_value dropped
  exact (hdropped.trans (dropped.modFn_hexport_underway _)).trans (Device.histEvent_underway _)

theorem Device.startExport_underway (d : Device) : d.Underway d.startExport := by
  unfold Device.startExport
  lift_lets
  extract_lets stop on
  have hon : d.Underway on :=
    ((d.modFn_hexport_underway _).trans (Device.complete_keeps _ (.fnOn .hexport) sOk Bytes.nil).underway).trans (Device.histEvent_underway _)
  clear_value on
  exact .ite (.refl d) (.ite (hon.trans ((on.modFn_hexport_underway _).trans (Device.exportStop_underway _))) hon)

theorem Device.hotEvents_underway (d : Device) (l : List (Nat × ChState × Nat)) : d.Underway (d.hotEvents l) := by
  refine Device.underway_foldl _ (fun d x => .ite (.refl d) ?_) _ d
  refine .trans ?_ (Device.raise_keeps _ _ _ _).underway
  exact d.modRx_underway _ (fun _ => ⟨rfl, rfl⟩)

/-- Two devices of which the second has the bias applied that a group start measures in the first, and the same next pair. -/
structure Device.Biased (off : Int) (d d' : Device) : Prop where
  nextPair : d'.fire.nextPair = d.fire.nextPair
  bias : d'.rx.biasApplied =
    ({ d.rx with biasTarget := if d.rx.ramp.isSome then d'.rx.biasTarget else d.rx.biasTarget } : Rx).biasMeasured off d.now

theorem Device.Biased.underway {off : Int} {a b c : Device} (h : a.Biased off b) (k : b.Underway c) : a.Biased off c :=
  ⟨k.nextPair.trans h.nextPair, by rw [k.biasApplied, k.biasTarget]; exact h.bias⟩

/-- The checks of a group start and its bias. -/
theorem Device.startBias_biased (d : Device) (off : Int) (i : Nat) :
    d.Biased off ((((d.modFire (fun f => f.roll d.govTime)).budgetCheck.startBias off).startLin.calCheck).startMap i).startExport := by
  have hrolled : d.Underway (d.modFire (fun f => f.roll d.govTime)) := d.modFire_underway _ (fun _ => ⟨rfl, rfl, rfl⟩)
  have hrx : (d.modFire (fun f => f.roll d.govTime)).rx = d.rx := rfl
  generalize d.modFire (fun f => f.roll d.govTime) = rolled at hrolled hrx ⊢
  obtain ⟨hchecked, hcrx⟩ := rolled.budgetCheck_parts
  have hbudget := hrolled.trans hchecked
  have hnow : rolled.budgetCheck.now = d.now := congrArg (fun t => t.clk) hbudget.time
  obtain ⟨hfire, hbias⟩ := rolled.budgetCheck.startBias_applies off
  rw [hcrx.trans hrx, hnow] at hbias
  have hbiased : d.Biased off (rolled.budgetCheck.startBias off) := ⟨(congrArg Fire.nextPair hfire).trans hbudget.nextPair, hbias⟩
  exact hbiased.underway ((((Device.startLin_underway _).trans (Device.calCheck_underway _)).trans
    (Device.startMap_underway _ i)).trans (Device.startExport_underway _))

/-- A group has started with the descriptor given, on the pair that was next, under the bias measured. -/
structure Device.Opened (q : QueuedGroup) (rest : List QueuedGroup) (off : Int) (d u : Device) : Prop where
  shotQ : u.fire.shotQ = rest
  nextPair : u.fire.nextPair = (!d.fire.nextPair)
  bias : u.rx.biasApplied =
    ({ d.rx with biasTarget := if d.rx.ramp.isSome then u.rx.biasTarget else d.rx.biasTarget } : Rx).biasMeasured off d.now
  grp : ∃ g : Group, u.fire.grp = some g ∧ g.idx = q.idx ∧ g.desc = q.desc ∧ g.pair = d.fire.nextPair ∧ g.shots = 0 ∧
    vget u.hist.pairs d.fire.nextPair.toNat .free = .accumulating

/-- What a group start does once its checks are made: the second part of `Device.groupBegin`. -/
def Device.openQueued (d : Device) (q : QueuedGroup) (rest : List QueuedGroup) : Device :=
  let d := d.modFire (fun f => { f with gen := if f.genGroup then (f.gen + 1) % 65536 else f.gen, genGroup := false })
  let st := d.fire.groupStripes q.desc
  let g := d.newGroup q st.1 st.2.1 st.2.2
  let chans := d.groupStates g.layout g.coinc st.1 g.woff
  let d := d.hotEvents chans
  let d := d.modRx (fun r => { r.nextSlot (32 * (d.now - d.fire.slotClk)) with chans := chans.map (fun x => (x.1, x.2.1)) })
  let d := d.modHist (fun h => h.openGroup g (chans.map (fun x => (x.1, x.2.1))))
  let d := d.modRet (fun r => { r with rawBuf := [], notExported := 0 })
  d.modFire (fun f => { f with
    grp := some g, shotQ := rest, grpIdx := f.grpIdx + 1, frameHeld := f.frameHeld || (f.heldNow && f.grpIdx != 0), heldNow := false
    nextPair := !f.nextPair, slotClk := d.now
    sel := ⟨#[(st.1[0]?).getD 0x3F, (st.1[1]?).getD 0x3F, (st.1[2]?).getD 0x3F, (st.1[3]?).getD 0x3F], rfl⟩ })

theorem Device.groupBegin_eq (d : Device) (q : QueuedGroup) (rest : List QueuedGroup) (off : Int) :
    d.groupBegin q rest off = (((((d.modFire (fun f => f.roll d.govTime)).budgetCheck.startBias off).startLin.calCheck).startMap
      (descZonemap q.desc)).startExport).openQueued q rest := rfl

theorem Device.openQueued_opens {d ready : Device} {off : Int} (h : d.Biased off ready) (q : QueuedGroup) (rest : List QueuedGroup) :
    Device.Opened q rest off d (ready.openQueued q rest) := by
  unfold Device.openQueued
  lift_lets
  extract_lets gened st g chans hot listed opened cleared
  have hgened : d.Biased off gened := h.underway (ready.modFire_underway _ (fun _ => ⟨rfl, rfl, rfl⟩))
  have hhot : d.Biased off hot := hgened.underway (gened.hotEvents_underway chans)
  have hlisted : d.Biased off listed := hhot.underway (hot.modRx_underway _ (fun _ => ⟨rfl, rfl⟩))
  have hcleared : d.Biased off cleared :=
    (hlisted.underway (listed.modHist_underway _)).underway (opened.modRet_underway _)
  have hpair : g.pair = d.fire.nextPair := hgened.nextPair
  have hopen : vget (vset listed.hist.pairs g.pair.toNat .accumulating) d.fire.nextPair.toNat .free = .accumulating := by
    rw [hpair]
    exact vget_vset_same _ _ _ _ (Bool.toNat_lt _)
  clear_value listed
  exact ⟨rfl, congrArg not hcleared.nextPair, hcleared.bias, g, rfl, rfl, rfl, hpair, rfl, hopen⟩

/-! The end of a group. -/

/-- The raw unit leaves the firing controller and the store alone. -/
theorem Device.rawUnit_parts (d : Device) (g : Group) : (d.rawUnit g).fire = d.fire ∧ (d.rawUnit g).hist = d.hist := by
  unfold Device.rawUnit
  split
  · exact ⟨rfl, rfl⟩
  · next q chans limit _ =>
    lift_lets
    extract_lets words hdr r
    have hput : d.Keeps r.1 := d.putUnit_keeps _ _ _ _
    exact ⟨hput.fire, hput.hist⟩

/-- The end of a group closes it and marks its pair. -/
theorem Device.endGroup_marks (d : Device) (g : Group) :
    (d.endGroup g).fire.grp = none ∧ vget (d.endGroup g).hist.marked g.pair.toNat false = true := by
  unfold Device.endGroup
  lift_lets
  extract_lets f whole cut late g' closed hot queued marked ended stopped gapped
  obtain ⟨hfire, hhist⟩ := Device.rawUnit_parts (marked.modFire (fun f => { f.endRuns g' with
    grp := none, gapUntil := if cut then marked.now else marked.now + descGap g'.desc * us })) g'
  have hgrp : ended.fire.grp = none := congrArg Fire.grp hfire
  have hmarked : vget ended.hist.marked g.pair.toNat false = true := by
    have hvec : ended.hist.marked = vset queued.hist.marked g.pair.toNat true := congrArg Hist.marked hhist
    rw [hvec, vget_vset_same _ _ _ _ (Bool.toNat_lt _)]
  clear_value ended
  split
  · split
    · exact ⟨hgrp, hmarked⟩
    · exact ⟨hgrp, hmarked⟩
  · exact ⟨hgrp, hmarked⟩

/-! The rows. -/

/-- A row that writes the firing controller's registers alone. -/
theorem coreRow_modFire {s : State} {dt : Nat} {f : Device → Device} {g : Fire → Fire} (h : (s.elapse dt).dev.alive = true)
    (hf : f (s.elapse dt).dev = (s.elapse dt).dev.modFire g) :
    Answers (coreRow dt f s) (fun u => u.dev.fire = g (s.elapse dt).dev.fire ∧ (s.elapse dt).dev.OnlyIn (.fire :: reports) u.dev) := by
  refine ⟨_, coreRow_next dt f s h, ?_⟩
  rw [hf]
  refine ⟨by rw [(State.settle_keeps _ _).fire]; rfl, State.settle_onlyIn _ _ _ _ (by decide) (by decide) (by decide) ?_⟩
  intro p hp
  cases p <;> first | rfl | exact absurd (by decide) hp

/-- Without a trigger held no trigger takes its turn. -/
theorem Device.promote_none {d : Device} (h : d.fire.held = none) : d.promote = d := by
  simp only [Device.promote, h]

theorem Device.holdStart_counts {d : Device} (h : d.fire.heldNow = false) :
    d.holdStart = d.modFire (fun f => { f with heldNow := true, holds := f.holds + 1 }) := by
  simp only [Device.holdStart, h, Bool.false_eq_true, if_false]

theorem Device.enqueue_takes {d : Device} (hp : d.fire.phase = .running) (hc : d.fire.cut = false) (hon : d.fire.fn.st = .on)
    (hi : d.fire.enqIdx < hdrCount (d.fire.header d.fire.running.val)) (hr : d.fire.shotQ.length < 64) :
    ∃ x : QueuedGroup, d.enqueue = d.modFire (fun f => { f with shotQ := f.shotQ ++ [x], enqIdx := f.enqIdx + 1 }) := by
  refine ⟨⟨d.fire.running, d.fire.enqIdx, (d.enqueueDesc ((d.fire.desc? d.fire.running.val d.fire.enqIdx).getD 0)).1,
    (d.enqueueDesc ((d.fire.desc? d.fire.running.val d.fire.enqIdx).getD 0)).2⟩, ?_⟩
  have hguard : (d.fire.phase == .running && !d.fire.cut && d.fire.fn.st == .on &&
      decide (d.fire.enqIdx < hdrCount (d.fire.header d.fire.running.val)) && decide (d.fire.shotQ.length < 64)) = true := by
    simp [hp, hc, hon, hi, hr]
  unfold Device.enqueue
  dsimp only
  rw [if_pos hguard]
  rfl

/-- With a descriptor queued, its gap over and no group in progress, the next group starts, or is held while its pair is not FREE. -/
theorem Device.groupStart_due {d : Device} {off : Int} {q : QueuedGroup} {rest : List QueuedGroup} (hon : d.fire.fn.st = .on)
    (hp : d.fire.phase = .running) (hc : d.fire.cut = false) (hg : d.fire.grp = none) (hgap : d.fire.gapUntil ≤ d.now)
    (hq : d.fire.shotQ = q :: rest) :
    d.groupStart off = if d.pairFree then d.groupBegin q rest off else d.holdStart := by
  have hguard : (d.fire.fn.st != .on || d.fire.phase != .running || d.fire.cut || d.fire.grp.isSome || decide (d.now < d.fire.gapUntil)) =
      false := by
    simp [hon, hp, hc, hg, Nat.not_lt.mpr hgap]
  unfold Device.groupStart
  dsimp only
  rw [hguard, if_neg Bool.false_ne_true, hq]

theorem Device.calendarEpoch_seeds {d : Device} {c : BitVec 2176} (hcal : d.fire.cal = some c) (hs : d.fire.calSeeded = false)
    (ht : fld c 63 0 ≤ d.time.ns.toNat) :
    d.calendarEpoch = d.modFire (fun f => { f with
      calSeeded := true, lfsr := if (calEntry c (d.ring.node % 32)).2 = 0 then f.lfsr else .ofNat 32 (calEntry c (d.ring.node % 32)).2 }) := by
  have hguard : (d.fire.calSeeded || decide (d.time.ns.toNat < fld c 63 0)) = false := by
    simp [hs, Nat.not_lt.mpr ht]
  unfold Device.calendarEpoch
  rw [hcal]
  dsimp only
  rw [hguard, if_neg Bool.false_ne_true]

/-- A row that does something of which the end of the step changes nothing. -/
theorem coreRow_answers {s : State} {dt : Nat} {f : Device → Device} {x : Device} {P : State → Prop} (h : (s.elapse dt).dev.alive = true)
    (hf : f (s.elapse dt).dev = x)
    (hP : ∀ u : State, u.dev.fire = x.fire → u.dev.rx = x.rx → u.dev.hist = x.hist → u.dev.bist = x.bist → P u) :
    Answers (coreRow dt f s) P := by
  have hkeeps := State.settle_keeps { s.elapse dt with dev := f (s.elapse dt).dev } s.dev
  rw [hf] at hkeeps
  refine ⟨_, coreRow_next dt f s h, ?_⟩
  rw [hf]
  exact hP _ hkeeps.fire hkeeps.rx hkeeps.hist hkeeps.bist

/-- Settles O20: each row under its guards is the one effect above it, and the end of the step keeps what that effect wrote. -/
theorem framesAndGroups : Obligations.FramesAndGroups := by
  unfold Obligations.FramesAndGroups
  intro s dt off halive d f
  refine ⟨?starts, ?frameHeld, ?enqueue, ?opens, ?groupHeld, ?ends, ?epoch⟩ <;> dsimp only [exec]
  case starts =>
    intro hheld hdue hfree
    refine coreRow_answers (x := d.frameBegin) halive ?_ (fun u hfire _ _ hbist => ?_)
    · dsimp only
      rw [Device.promote_none hheld]
      simp only [hdue, hfree, Bool.not_true, Bool.false_eq_true, if_false, if_true, d]
    · rw [hfire, hbist]
      exact d.frameBegin_runs
  case frameHeld =>
    intro hheld hdue hfree hnow
    refine coreRow_modFire (g := fun f => { f with heldNow := true, holds := f.holds + 1 }) halive ?_
    dsimp only
    rw [Device.promote_none hheld, ← Device.holdStart_counts hnow]
    simp only [hdue, hfree, Bool.not_true, Bool.false_eq_true, if_false]
  case enqueue =>
    intro hphase hcut hon hidx hroom
    obtain ⟨x, hx⟩ := Device.enqueue_takes hphase hcut hon hidx hroom
    obtain ⟨u, hu, hfire, honly⟩ := coreRow_modFire (f := Device.enqueue) halive hx
    refine ⟨u, hu, ?_, ?_, ?_, honly⟩ <;> rw [hfire]
    · exact List.length_append
    · exact List.take_left
  case opens =>
    intro q rest hon hphase hcut hgrp hgap hq hfree
    refine coreRow_answers (x := d.groupBegin q rest off) halive ?_ (fun u hfire hrx hhist _ => ?_)
    · rw [Device.groupStart_due hon hphase hcut hgrp hgap hq, if_pos hfree]
    · have hopened := Device.openQueued_opens (d.startBias_biased off (descZonemap q.desc)) q rest
      rw [← d.groupBegin_eq q rest off] at hopened
      obtain ⟨hshotQ, hnext, hbias, g, hg, hidx, hdesc, hpair, hshots, hacc⟩ := hopened
      rw [hfire, hrx, hhist]
      exact ⟨hshotQ, hnext, hbias, g, hg, hidx, hdesc, hpair, hshots, hacc⟩
  case groupHeld =>
    intro q rest hon hphase hcut hgrp hgap hq hfree
    have hheld : d.groupStart off = d.holdStart := by
      rw [Device.groupStart_due hon hphase hcut hgrp hgap hq, hfree, if_neg Bool.false_ne_true]
    refine ⟨fun hnow => ?_, fun hnow => ?_⟩
    · exact coreRow_modFire (g := fun f => { f with heldNow := true, holds := f.holds + 1 }) halive
        (hheld.trans (Device.holdStart_counts hnow))
    · exact coreRow_idles dt _ s (hheld.trans (if_pos hnow))
  case ends =>
    intro g hgrp hover
    refine coreRow_answers (x := d.endGroup g) halive ?_ (fun u hfire _ hhist _ => ?_)
    · rw [hgrp]
      exact if_pos hover
    · rw [hfire, hhist]
      exact d.endGroup_marks g
  case epoch =>
    intro c hcal hseeded htime
    exact coreRow_modFire halive (Device.calendarEpoch_seeds hcal hseeded htime)

end Sys2Proof.Machine
end

section
/-! Every command answers (R59, R60): a step leaves the queue of commands alone and nothing undelivered, and keeps the invariant of the
host port, by the shape of its row. -/

namespace Sys2Proof.Machine

open Sys2Proof

/-! Transactions of the host port. -/

/-- A transaction of Table 2-1 leaves the queue of commands alone. -/
theorem State.transaction_pending (s : State) (op : Byte) (addr : BitVec 16) (ws : List Word) :
    (s.transaction op addr ws).pending = s.pending := by
  unfold State.transaction
  split
  · exact s.hostRead_pending _ _
  · split
    · exact s.hostWrite_pending _ _
    · rfl

/-- A transaction of Table 2-1 keeps the invariant of the port. -/
theorem State.transaction_inv (s : State) (op : Byte) (addr : BitVec 16) (ws : List Word) (k : s.host.Inv) :
    (s.transaction op addr ws).host.Inv := by
  unfold State.transaction
  split
  · exact s.hostRead_inv _ _ k
  · split
    · exact s.hostWrite_inv _ _ k
    · exact k.same rfl rfl rfl rfl

theorem hostRow_transaction_done (dt : Nat) (op : Byte) (addr : BitVec 16) (ws : List Word) (s : State) :
    RowDone s (hostRow dt (fun t => t.transaction op addr ws) s) :=
  hostRow_done dt _ s (fun t => t.transaction_pending op addr ws) (fun t => t.transaction_inv op addr ws)

theorem hostRow_hostWrite_done (dt : Nat) (addr : BitVec 16) (ws : List Word) (s : State) :
    RowDone s (hostRow dt (fun t => t.hostWrite addr ws) s) :=
  hostRow_done dt _ s (fun t => t.hostWrite_pending addr ws) (fun t => t.hostWrite_inv addr ws)

/-! The rows with a shape of their own. -/

theorem execBadOp_done (dt : Nat) (op : Byte) (s : State) : RowDone s (execBadOp dt op s) := by
  refine hostRow_done dt _ s (fun t => ?_) (fun t k => ?_)
  · split
    · rfl
    · exact t.transaction_pending op 0 []
  · split
    · exact k
    · exact t.transaction_inv op 0 [] k

theorem execHostCsNRelease_done (dt : Nat) (cut : CutWord) (s : State) : RowDone s (execHostCsNRelease dt cut s) := by
  refine ⟨⟨_, rfl, ?_, rfl, rfl⟩, fun h => ⟨_, rfl, State.settle_inv _ _ ?_⟩⟩
  · rw [(State.settle_done _ _).2.2]
    split <;> rfl
  · split
    · exact HostPort.csRelease_inv _ cut h
    · exact h

/-- A row that is one of two is done as each is. -/
theorem RowDone.ite {s : State} {c : Prop} [Decidable c] {x y : Host.Outcome State Fault Refusal} (hx : RowDone s x) (hy : RowDone s y) :
    RowDone s (if c then x else y) := by
  split <;> assumption

theorem sliceRowEnd_done (dt : Nat) (act : Device → Device × Bool) (s : State) : RowDone s (sliceRowEnd dt act s) :=
  .ite (resetRow_done _ _ _) (coreRow_done _ _ _)

theorem execUndefinedCommandId_done (dt : Nat) (o : Origin) (s : State) : RowDone s (execUndefinedCommandId dt o s) := by
  unfold execUndefinedCommandId
  dsimp only
  split
  · exact .ite (devRow_done _ _ _) (wcpRowThen_done _ _ _ _ _ _)
  · exact devRow_done _ _ _

/-- Every command is done, by the shape of its row. -/
theorem exec_done (c : Instr) (s : State) : RowDone s (exec c s) := by
  cases hc : wcpRow? c with
  | some r => rw [exec_wcpRow c r hc]; exact wcpRowThen_done _ _ _ _ _ _
  | none =>
    cases c <;> dsimp only [exec]
    case hifDbWrite | hifMbRelWrite | hifEvtRdWrite => exact hostRow_hostWrite_done _ _ _ _
    case hifTimeLoRead | hifEvtLostRead | mbWindowWrite | registerWrite => exact hostRow_transaction_done _ _ _ _ _
    case hostCsNRelease => exact execHostCsNRelease_done _ _ _
    case badOp => exact execBadOp_done _ _ _
    case undefinedCommandId => exact execUndefinedCommandId_done _ _ _
    case rstNAssert => exact .ite (resetRow_done _ _ _) (devRow_done _ _ _)
    case functionRestart => exact .ite (fieldRow_done _ _ _) (coreRow_done _ _ _)
    case sliceEnd | sliceServiceAbort | slicePreconditionLoss => exact sliceRowEnd_done _ _ _
    case bridgeCycle side => cases side <;> exact devRow_done _ _ _
    case chan0RepeatTimeout side => cases side <;> exact devRow_done _ _ _
    case bulkFrame side _ => cases side <;> exact devRow_done _ _ _
    case commandedResetTimer | deviceReset | lockstepMismatch | switchoverTimeout | aonMinimum | powerRemoval => exact resetRow_done _ _ _
    all_goals first | (cases hc; exact devRow_done _ _ _) | cases hc

/-- Settles O4: the command at the front is executed with the queue's rest, and every row keeps the invariant. -/
theorem hostPortInvariant : Obligations.HostPortInvariant := by
  intro s t hinv hstep
  unfold step at hstep
  split at hstep
  · cases hstep
    exact hinv
  · next c rest _ =>
    obtain ⟨u, hu, hport⟩ := (exec_done c { s with pending := rest }).port hinv
    cases hu.symm.trans hstep
    exact hport

/-- Settles O2: by the shape of the command's row. -/
theorem execAnswersNext : Obligations.ExecAnswersNext := fun c s => (exec_done c s).answers

end Sys2Proof.Machine
end

section
/-! The registers of the host port (Table 2-3): bits of a register, bytes beside those written, doorbells and releases, and what the end
of a step leaves of the event window. -/

namespace Sys2Proof.Machine

open Sys2Proof

/-! Bits. -/

/-- A bit of a block is the library's. -/
theorem bit_eq_getLsbD {n : Nat} (b : BitVec n) (i : Nat) : bit b i = b.getLsbD i := by
  rw [bit, BitVec.getLsbD, Nat.testBit_eq_decide_div_mod_eq]
  rfl

/-- A bit set is set, and the others stay. -/
theorem bit_or_twoPow {w : Nat} (b : BitVec w) (k n : Nat) (hn : n < w) :
    bit (b ||| .ofNat w (2 ^ k)) n = (bit b n || decide (k = n)) := by
  simp only [bit_eq_getLsbD, BitVec.getLsbD_or, BitVec.getLsbD_ofNat, hn, decide_true, Bool.true_and, Nat.testBit_two_pow]

/-! Bytes elsewhere, whatever the memory's form. -/

theorem mget_mdel_other {α : Type} (m : Map α) (k j : Nat) (h : k ≠ j) : mget j (mdel k m) = mget j m := by
  induction m with
  | nil => rfl
  | cons c t ih =>
    obtain ⟨a, x⟩ := c
    simp only [mdel]
    split
    · next hak => simp only [mget, hak, h, if_false]
    · simp only [mget, ih]

theorem Mem.read_write_other (dflt : Byte) (m : Mem) (a b : Nat) (v : Byte) (h : a ≠ b) :
    Mem.read dflt (Mem.write dflt m a v) b = Mem.read dflt m b := by
  unfold Mem.read Mem.write
  split
  · rw [mget_mdel_other m a b h]
  · rw [mget_mset, if_neg h]

/-- A byte below those written reads as before. -/
theorem Mem.read_writeN_below (dflt : Byte) (n a v b : Nat) (m : Mem) (h : b < a) :
    Mem.read dflt (Mem.writeN dflt m a n v) b = Mem.read dflt m b := by
  induction n generalizing m a v with
  | zero => rfl
  | succ n ih => rw [Mem.writeN, ih _ _ _ (by omega), Mem.read_write_other dflt m a b _ (by omega)]

theorem Mem.readN_congr (dflt : Byte) (m m' : Mem) (n a : Nat) (h : ∀ b, a ≤ b → b < a + n → Mem.read dflt m' b = Mem.read dflt m b) :
    Mem.readN dflt m' a n = Mem.readN dflt m a n := by
  induction n generalizing a with
  | zero => rfl
  | succ n ih =>
    rw [Mem.readN, Mem.readN, h a (Nat.le_refl a) (by omega), ih (a + 1) (fun b hb hn => h b (by omega) (by omega))]

/-! The end of a step. -/

theorem HostPort.event_mem (h : HostPort) (e : BitVec 256) :
    (h.event e).mem = Mem.writeN winDefault h.mem (0x9000 + 32 * (h.evtWr.toNat % 128)) 32 e.toNat := by
  unfold HostPort.event
  dsimp only
  split <;> rfl

/-- Events leave every byte below their window alone. -/
theorem HostPort.events_read_below (l : List (BitVec 256)) (h : HostPort) (a : Nat) (ha : a < 0x9000) :
    Mem.read winDefault (l.foldl HostPort.event h).mem a = Mem.read winDefault h.mem a := by
  induction l generalizing h with
  | nil => rfl
  | cons e t ih =>
    rw [List.foldl_cons, ih, h.event_mem, Mem.read_writeN_below _ _ _ _ _ _ (by omega)]

/-- The end of a step leaves every byte of the mailbox windows alone, whatever the memory's form. -/
theorem State.settle_read_below (s : State) (old : Device) (a : Nat) (ha : a < 0x9000) :
    Mem.read winDefault (s.settle old).host.mem a = Mem.read winDefault s.host.mem a := by
  have hc := HostPort.changes_same (((s.dev.closeFull 17).mirrorOut 8).wcp.out.foldl HostPort.event s.host) old
    ((s.dev.closeFull 17).mirrorOut 8)
  have hmem : (s.settle old).host.mem = (((s.dev.closeFull 17).mirrorOut 8).wcp.out.foldl HostPort.event s.host).mem :=
    hc.2.2.2.2.2.2.2
  rw [hmem]
  exact HostPort.events_read_below _ _ a ha

theorem HostPort.changes_window (h : HostPort) (old new : Device) :
    (h.changes old new).evtRd = h.evtRd ∧ (h.changes old new).evtWr = h.evtWr ∧ (h.changes old new).evtLost = h.evtLost := by
  unfold HostPort.changes
  dsimp only
  (repeat' split) <;> exact ⟨rfl, rfl, rfl⟩

/-- Where no event is raised and nothing streams, the end of a step leaves the event window and its pointers alone. -/
theorem State.settle_window (s : State) (old : Device) (ho : s.dev.wcp.out = []) (hu : s.dev.Unstreamed) :
    (s.settle old).host.evtRd = s.host.evtRd ∧ (s.settle old).host.evtWr = s.host.evtWr ∧
    (s.settle old).host.evtLost = s.host.evtLost ∧ (s.settle old).host.mem = s.host.mem := by
  have h1 : s.dev.closeFull 17 = s.dev := by simp [Device.closeFull, hu.held]
  have h2 : s.dev.mirrorOut 8 = s.dev := Device.mirrorOut_unbound _ _ hu.mirror
  have hw := s.host.changes_window old s.dev
  have hm := s.host.changes_same old s.dev
  have he : (s.settle old).host = { s.host.changes old s.dev with irqStat := (s.host.changes old s.dev).irqStat ||| s.dev.wcp.irq } := by
    unfold State.settle
    simp only [h1, h2, ho, List.foldl_nil]
  rw [he]
  exact ⟨hw.1, hw.2.1, hw.2.2, hm.2.2.2.2.2.2.2⟩

/-! Doorbells and releases (R40, R41). -/

/-- A doorbell rings at mailbox n: READY is set and the mailbox FREE. -/
def State.rings (s : State) (n : Nat) : Bool := s.dev.ready && vget s.host.mb n .busy == .free

/-- A doorbell touches the mailboxes and the refused doorbells alone. -/
theorem State.doorbell_same (s : State) (n : Nat) :
    ∃ mb dbRefused, s.doorbell n = { s with host := { s.host with mb, dbRefused } } := by
  unfold State.doorbell
  split
  · exact ⟨_, _, rfl⟩
  · exact ⟨s.host.mb, _, rfl⟩

theorem State.doorbell_mb (s : State) (k n : Nat) (hn : n < 8) :
    vget (s.doorbell k).host.mb n .busy = if k = n ∧ s.rings n = true then .busy else vget s.host.mb n .busy := by
  have hr : (s.dev.ready && decide (vget s.host.mb k .busy = .free)) = s.rings k := rfl
  by_cases hk : k = n
  · subst hk
    unfold State.doorbell
    rw [hr]
    by_cases hs : s.rings k = true
    · simp [hs, HostPort.setMb, hn]
    · simp [hs]
  · unfold State.doorbell
    split <;> simp [hk, HostPort.setMb]

theorem State.doorbell_refused (s : State) (k n : Nat) (hn : n < 8) :
    bit (s.doorbell k).host.dbRefused n = (bit s.host.dbRefused n || (decide (k = n) && !s.rings n)) := by
  have hr : (s.dev.ready && decide (vget s.host.mb k .busy = .free)) = s.rings k := rfl
  unfold State.doorbell
  rw [hr]
  cases hs : s.rings k
  · rw [if_neg Bool.false_ne_true]
    dsimp only
    rw [bit_or_twoPow _ _ _ hn]
    by_cases hk : k = n
    · subst hk
      simp [hs]
    · simp [hk]
  · rw [if_pos rfl]
    by_cases hk : k = n
    · subst hk
      simp [hs, HostPort.setMb]
    · simp [hk, HostPort.setMb]

/-- The doorbells of a list of mailboxes, each rung once. -/
def State.doorbells (s : State) (v : Word) (l : List Nat) : State := l.foldl (fun s n => if bit v n then s.doorbell n else s) s

theorem State.doorbells_same (v : Word) (l : List Nat) (s : State) :
    (s.doorbells v l).dev = s.dev ∧ ∃ mb dbRefused, (s.doorbells v l).host = { s.host with mb, dbRefused } := by
  induction l generalizing s with
  | nil => exact ⟨rfl, s.host.mb, s.host.dbRefused, rfl⟩
  | cons k t ih =>
    have hs : s.doorbells v (k :: t) = (if bit v k then s.doorbell k else s).doorbells v t := rfl
    obtain ⟨hdev, mb, dbRefused, hhost⟩ := ih (if bit v k then s.doorbell k else s)
    rw [hs, hdev, hhost]
    split
    · obtain ⟨_, _, hone⟩ := s.doorbell_same k
      rw [hone]
      exact ⟨rfl, mb, dbRefused, rfl⟩
    · exact ⟨rfl, mb, dbRefused, rfl⟩

/-- A mailbox whose bit is not among those written rings as before. -/
theorem State.rings_doorbell_other (s : State) (k n : Nat) (hn : n < 8) (h : k ≠ n) : (s.doorbell k).rings n = s.rings n := by
  unfold State.rings
  obtain ⟨_, _, hone⟩ := s.doorbell_same k
  rw [s.doorbell_mb k n hn, if_neg (fun hc => h hc.1), hone]

theorem State.doorbells_effect (v : Word) (l : List Nat) (hl : l.Nodup) (s : State) (n : Nat) (hn : n < 8) :
    vget (s.doorbells v l).host.mb n .busy =
      (if n ∈ l ∧ (bit v n && s.rings n) = true then .busy else vget s.host.mb n .busy) ∧
    bit (s.doorbells v l).host.dbRefused n = (bit s.host.dbRefused n || (decide (n ∈ l) && (bit v n && !s.rings n))) := by
  induction l generalizing s with
  | nil => simp [State.doorbells]
  | cons k t ih =>
    obtain ⟨hkt, ht⟩ := List.nodup_cons.mp hl
    have hs : (s.doorbells v (k :: t)) = (if bit v k then s.doorbell k else s).doorbells v t := rfl
    rw [hs]
    obtain ⟨hmb, href⟩ := ih ht (if bit v k then s.doorbell k else s)
    rw [hmb, href]
    by_cases hk : k = n
    · subst hk
      cases hb : bit v k
      · simp
      · simp [hkt, s.doorbell_mb k k hn, s.doorbell_refused k k hn]
    · have hmem : n ∈ k :: t ↔ n ∈ t := by simp [Ne.symm hk]
      split
      · rw [s.rings_doorbell_other k n hn hk, s.doorbell_mb k n hn, s.doorbell_refused k n hn]
        simp [hk, hmem]
      · simp [hmem]

/-- The releases of a list of mailboxes. -/
def HostPort.releases (h : HostPort) (v : Word) (l : List Nat) : HostPort := l.foldl (fun h n => if bit v n then h.releaseMb n else h) h

/-- A release touches the mailboxes and their interrupts alone. -/
theorem HostPort.releases_same (v : Word) (l : List Nat) (h : HostPort) :
    ∃ mb irqStat, h.releases v l = { h with mb, irqStat } := by
  induction l generalizing h with
  | nil => exact ⟨h.mb, h.irqStat, rfl⟩
  | cons k t ih =>
    have hs : h.releases v (k :: t) = (if bit v k then h.releaseMb k else h).releases v t := rfl
    obtain ⟨mb, irqStat, hrest⟩ := ih (if bit v k then h.releaseMb k else h)
    refine ⟨mb, irqStat, ?_⟩
    rw [hs, hrest]
    unfold HostPort.releaseMb
    repeat' split
    all_goals rfl

theorem HostPort.releaseMb_mb (h : HostPort) (k n : Nat) (hn : n < 8) :
    vget (h.releaseMb k).mb n .free = if k = n ∧ vget h.mb n .free = .done then .free else vget h.mb n .free := by
  unfold HostPort.releaseMb
  by_cases hk : k = n
  · subst hk
    split
    · next hd => simp [HostPort.setMb, hn, hd]
    · next hd => simp [hd]
  · split <;> simp [hk, HostPort.setMb]

theorem HostPort.releases_effect (v : Word) (l : List Nat) (h : HostPort) (n : Nat) (hn : n < 8) :
    vget (h.releases v l).mb n .free =
      if n ∈ l ∧ bit v n = true ∧ vget h.mb n .free = .done then .free else vget h.mb n .free := by
  induction l generalizing h with
  | nil => simp [HostPort.releases]
  | cons k t ih =>
    have hs : h.releases v (k :: t) = (if bit v k then h.releaseMb k else h).releases v t := rfl
    rw [hs, ih]
    by_cases hk : k = n
    · subst hk
      cases hb : bit v k
      · simp
      · by_cases hd : vget h.mb k .free = .done
        · simp [h.releaseMb_mb k k hn, hd]
        · simp [h.releaseMb_mb k k hn, hd]
    · have hmem : n ∈ k :: t ↔ n ∈ t := by simp [Ne.symm hk]
      split
      · simp [h.releaseMb_mb k n hn, hk, hmem]
      · simp [hmem]

/-! Words written at an aligned register. -/

theorem State.hostWrite_one (s : State) (addr : BitVec 16) (v : Word) (h : addr.toNat % 4 = 0) :
    s.hostWrite addr [v] = s.writeAt addr.toNat v := by
  have ha : addr.toNat / 4 * 4 = addr.toNat := by omega
  rw [State.hostWrite, State.aligned, if_pos h, ha, State.writeBurst, State.writeBurst]

theorem State.hostWrite_doorbells (s : State) (v : Word) : s.hostWrite 0x0200 [v] = s.doorbells v (List.range 8) := by
  rw [s.hostWrite_one _ v (by decide), State.writeAt, if_neg (by decide), if_neg (by decide), if_neg (by decide), if_pos (by decide)]
  rfl

theorem State.hostWrite_releases (s : State) (v : Word) :
    s.hostWrite 0x0204 [v] = { s with host := s.host.releases v (List.range 8) } := by
  rw [s.hostWrite_one _ v (by decide), State.writeAt, if_neg (by decide), if_neg (by decide), if_neg (by decide), if_neg (by decide),
    if_pos (by decide)]
  rfl

/-! The rows. -/

/-- What a step answers has a property that its next state has. -/
theorem Answers.intro {x : Host.Outcome State Fault Refusal} {P : State → Prop} {u : State} (h : x = .next u) (hP : P u) : Answers x P :=
  ⟨u, h, hP⟩

theorem exec_hifDbWrite {s : State} {dt : Nat} (v : Word) (h : (s.elapse dt).dev.alive = true) (hi : s.host.ignoring = false) :
    exec (.hifDbWrite dt v) s = .next (State.settle ((s.elapse dt).doorbells v (List.range 8)) s.dev) := by
  have hrow : exec (.hifDbWrite dt v) s = _ := hostRow_next dt (fun t => t.hostWrite 0x0200 [v]) s h hi
  rw [hrow, State.hostWrite_doorbells]

theorem exec_hifMbRelWrite {s : State} {dt : Nat} (v : Word) (h : (s.elapse dt).dev.alive = true) (hi : s.host.ignoring = false) :
    exec (.hifMbRelWrite dt v) s =
      .next (State.settle { s.elapse dt with host := s.host.releases v (List.range 8) } s.dev) := by
  have hrow : exec (.hifMbRelWrite dt v) s = _ := hostRow_next dt (fun t => t.hostWrite 0x0204 [v]) s h hi
  rw [hrow, State.hostWrite_releases]
  rfl

/-- Settles O6: one bit after another, each mailbox once; the end of the step leaves the port's registers and windows alone. -/
theorem mailboxesRungAndReleased : Obligations.MailboxesRungAndReleased := by
  refine ⟨fun s dt v halive hfree => Answers.intro (exec_hifDbWrite v halive hfree) ?rung,
    fun s dt v halive hfree _ => Answers.intro (exec_hifMbRelWrite v halive hfree) ?released⟩
  case rung =>
    have heffect := State.doorbells_effect v (List.range 8) List.nodup_range (s.elapse dt)
    obtain ⟨hdev, mb, dbRefused, hhost⟩ := State.doorbells_same v (List.range 8) (s.elapse dt)
    generalize (s.elapse dt).doorbells v (List.range 8) = x at heffect hdev hhost
    obtain ⟨hmb, href, herr, hen, htime, hign, -⟩ := State.settle_host x s.dev
    rw [hmb, href, herr, hen, htime, hign]
    refine ⟨fun n hn => ?_, by rw [hhost]; rfl, by rw [hhost]; rfl, by rw [hhost]; rfl, by rw [hhost]; exact hfree,
      fun a ha => by rw [State.settle_read_below _ _ a ha, hhost]; rfl, hdev ▸ State.settle_keeps x s.dev⟩
    obtain ⟨hbusy, hrefused⟩ := heffect n hn
    have hrings : (s.elapse dt).rings n = (s.dev.ready && vget s.host.mb n .busy == .free) := rfl
    rw [hbusy, hrefused, hrings, Bool.and_assoc]
    simp only [List.mem_range.mpr hn, true_and, decide_true, Bool.true_and, Bool.not_and, State.elapse_parts]
    cases bit v n <;> rfl
  case released =>
    have heffect := HostPort.releases_effect v (List.range 8) s.host
    obtain ⟨mb, irqStat, hhost⟩ := HostPort.releases_same v (List.range 8) s.host
    generalize s.host.releases v (List.range 8) = x at heffect hhost
    obtain ⟨hmb, href, herr, hen, -, -, -⟩ := State.settle_host { s.elapse dt with host := x } s.dev
    rw [hmb, href, herr, hen]
    refine ⟨fun n hn => ?_, by rw [hhost], by rw [hhost], by rw [hhost],
      fun a ha => by rw [State.settle_read_below _ _ a ha, hhost], State.settle_keeps { s.elapse dt with host := x } s.dev⟩
    simpa only [List.mem_range.mpr hn, true_and] using heffect n hn

end Sys2Proof.Machine
end

section
/-! Register writes and faults of the serial port (R35, R36, Table 2-3). -/

namespace Sys2Proof.Machine

open Sys2Proof

/-! Transactions. -/

/-- The write opcodes of Table 2-1 write. -/
theorem State.transaction_write (s : State) (op : WriteOp) (addr : BitVec 16) (ws : List Word) :
    s.transaction (writeCode op) addr ws = s.hostWrite addr ws := by
  cases op <;> rfl

/-- An opcode that Table 2-1 does not list sets BAD_OP, and the transaction is ignored. -/
theorem State.transaction_unknown (s : State) {op : Byte} (addr : BitVec 16) (ws : List Word) (h : knownOpcode op = false) :
    s.transaction op addr ws = { s with host := { s.host.error errBadOp with ignoring := true } } := by
  simp only [knownOpcode, Bool.or_eq_false_iff, beq_eq_false_iff_ne, ne_eq] at h
  obtain ⟨⟨⟨h2, h3⟩, h32⟩, h6b⟩ := h
  simp only [State.transaction, h2, h3, h32, h6b, or_self, if_false]

theorem exec_registerWrite {s : State} {dt : Nat} (op : WriteOp) (addr : BitVec 16) (ws : List Word)
    (h : (s.elapse dt).dev.alive = true) (hi : s.host.ignoring = false) :
    exec (.registerWrite dt op addr ws) s = .next (State.settle ((s.elapse dt).hostWrite addr ws) s.dev) := by
  have hrow : exec (.registerWrite dt op addr ws) s = _ := hostRow_next dt (fun t => t.transaction (writeCode op) addr ws) s h hi
  rw [hrow, State.transaction_write]

/-- While the port ignores a transaction its rows only let time pass. -/
theorem hostRow_ignoring (dt : Nat) (f : State → State) (s : State) (h : s.host.ignoring = true) :
    hostRow dt f s = .next (State.settle (s.elapse dt) s.dev) := by
  simp [hostRow, h]

/-- The words of a burst, one after another. -/
theorem State.writeBurst_eq_foldl (ws : List Word) (s : State) (a : Nat) :
    s.writeBurst a ws = (ws.foldl (fun x w => (x.1.writeAt x.2 w, burstNext x.2)) (s, a)).1 := by
  induction ws generalizing s a with
  | nil => rfl
  | cons v t ih => rw [State.writeBurst, ih, List.foldl_cons]

/-- A single word goes to its address with bits [1:0] taken as zero. -/
theorem State.hostWrite_single (s : State) (addr : BitVec 16) (v : Word) :
    s.hostWrite addr [v] = (s.aligned addr).writeAt (addr.toNat / 4 * 4) v := rfl

/-! Words. -/

theorem State.writeAt_enables (s : State) (v : Word) :
    s.writeAt 0x0108 v = { s with host := { s.host with irqEn := v &&& 0x3FFF } } := by
  rw [State.writeAt, if_neg (by decide), if_pos rfl]

theorem State.writeAt_errors (s : State) (v : Word) :
    s.writeAt 0x010C v = { s with host := { s.host with err := s.host.err &&& ~~~v } } := by
  rw [State.writeAt, if_neg (by decide), if_neg (by decide), if_pos rfl]

theorem State.writeAt_refused (s : State) (v : Word) :
    s.writeAt 0x020C v = { s with host := { s.host with dbRefused := s.host.dbRefused &&& ~~~(v.extractLsb' 0 8) } } := by
  rw [State.writeAt, if_neg (by decide), if_neg (by decide), if_neg (by decide), if_neg (by decide), if_neg (by decide), if_pos rfl]

/-- Outside the mailbox windows and the registers a host can write, a word changes nothing. -/
theorem State.writeAt_ignored (s : State) (a : Nat) (v : Word) (hreg : a ∉ [0x0104, 0x0108, 0x010C, 0x0200, 0x0204, 0x020C, 0x0214])
    (hwin : ¬ (0x1000 ≤ a ∧ a < 0x9000)) : s.writeAt a v = s := by
  simp only [List.mem_cons, List.not_mem_nil, or_false, not_or] at hreg
  simp [State.writeAt, hreg, hwin]

/-- Bits [1:0] of an address touch HIF_ERR and its interrupt alone. -/
theorem State.aligned_effect (s : State) (addr : BitVec 16) :
    ∃ irqStat, s.aligned addr = { s with host := { s.host with
      err := if addr.toNat % 4 = 0 then s.host.err else s.host.err ||| .ofNat 32 (2 ^ errAlign), irqStat } } := by
  unfold State.aligned
  split
  · exact ⟨s.host.irqStat, rfl⟩
  · exact ⟨_, rfl⟩

/-- Settles O8: each register by its own equation, then what the end of the step leaves of the port. -/
theorem registerWritesAndSerialFaults : Obligations.RegisterWritesAndSerialFaults := by
  refine ⟨fun s dt op v halive hfree => ?writes, fun s dt op cut halive => ?faults⟩
  case writes =>
    have hset := fun x : State => State.settle_host x s.dev
    have hexec := fun addr ws => exec_registerWrite (s := s) (dt := dt) op addr ws halive hfree
    refine ⟨.intro (hexec _ _) ?enables, .intro (hexec _ _) ?errors, .intro (hexec _ _) ?refused, .intro (hexec _ _) ?unaligned,
      fun addr hreg hwin => .intro (hexec _ _) ?other, fun addr ws => ?burst⟩
    case enables =>
      rw [State.hostWrite_one _ _ _ (by decide), show BitVec.toNat (0x0108 : BitVec 16) = 0x0108 from rfl, State.writeAt_enables]
      simp only [hset, State.elapse_parts, and_self]
    case errors =>
      rw [State.hostWrite_one _ _ _ (by decide), show BitVec.toNat (0x010C : BitVec 16) = 0x010C from rfl, State.writeAt_errors]
      simp only [hset, State.elapse_parts, and_self]
    case refused =>
      rw [State.hostWrite_one _ _ _ (by decide), show BitVec.toNat (0x020C : BitVec 16) = 0x020C from rfl, State.writeAt_refused]
      simp only [hset, State.elapse_parts, and_self]
    case unaligned =>
      obtain ⟨irqStat, hal⟩ := (s.elapse dt).aligned_effect 0x010F
      rw [State.hostWrite_single, hal, show BitVec.toNat (0x010F : BitVec 16) / 4 * 4 = 0x010C from rfl, State.writeAt_errors]
      rw [if_neg (by decide)]
      simp only [hset, State.elapse_parts, and_self]
    case other =>
      have hout : ¬ (0x1000 ≤ addr.toNat / 4 * 4 ∧ addr.toNat / 4 * 4 < 0x9000) := by
        simp only [windowAddress, Bool.and_eq_false_iff, decide_eq_false_iff_not] at hwin
        omega
      obtain ⟨irqStat, hal⟩ := (s.elapse dt).aligned_effect addr
      rw [State.hostWrite_single, State.writeAt_ignored _ _ _ hreg hout, hal]
      simp only [hset, State.elapse_parts, true_and]
      exact ⟨fun ho hu => State.settle_window _ s.dev ho ⟨hu.held, hu.events, hu.mirror⟩, State.settle_keeps _ s.dev⟩
    case burst =>
      rw [hexec, State.hostWrite, State.writeBurst_eq_foldl]
  case faults =>
    refine ⟨fun hfree hop => ?bad, fun w addr ws hign => ?ignored, ?release⟩
    case bad =>
      have hrow : exec (.badOp dt op) s = _ := hostRow_next dt (fun t => if knownOpcode op then t else t.transaction op 0 []) s halive hfree
      refine .intro hrow ?_
      rw [if_neg (by rw [hop]; decide), State.transaction_unknown _ _ _ hop]
      simp only [State.settle_host, HostPort.error, HostPort.irq, State.elapse_parts, and_self]
    case ignored =>
      have hrow : exec (.registerWrite dt w addr ws) s = _ := hostRow_ignoring dt (fun t => t.transaction (writeCode w) addr ws) s hign
      refine .intro hrow ?_
      simp only [State.settle_host, State.elapse_parts, and_self]
    case release =>
      have hrow : exec (.hostCsNRelease dt cut) s = .next (State.settle (if (s.elapse dt).dev.alive then
        { s.elapse dt with host := s.host.csRelease cut } else s.elapse dt) s.dev) := rfl
      refine .intro hrow ?_
      rw [if_pos halive]
      simp only [State.settle_host, HostPort.csRelease]
      cases cut <;> cases s.host.ignoring <;> simp [HostPort.error, HostPort.irq]

end Sys2Proof.Machine
end

section
/-! How the command protocol answers an envelope (R39, R50, R55, R440): the row's step is its answer, and each way an envelope is handled
has its lemma. -/

namespace Sys2Proof.Machine

open Sys2Proof

/-! The answer of a row. -/

/-- A row whose command is offered answers what its handling leaves. -/
theorem exec_offered {i : Instr} {r : WcpRow} {s : State} {e : Env} (hi : wcpRow? i = some r) (h : Offered r.origin r.cmd e (s.elapse r.dt)) :
    exec i s = .next (r.answered s e (r.cmd.handle r.opens e (s.elapse r.dt).dev)) := by
  rw [exec_wcpRow i r hi, wcpRowThen_offered r s e h]

/-- An answer whose device keeps security, supply and the reset that waits keeps it at the end of its step. -/
theorem WcpRow.answered_keeps_device {i : Instr} {r : WcpRow} (hi : wcpRow? i = some r) (s : State) (e : Env) (d : Device) (body : Bytes)
    (hs : d.sec = (s.elapse r.dt).dev.sec) (hp : d.power = (s.elapse r.dt).dev.power)
    (hr : d.wcp.resetAt = (s.elapse r.dt).dev.wcp.resetAt) : d.Keeps (r.answered s e (d, body)).dev := by
  let t : State := { s.elapse r.dt with dev := d }
  have hk : d.Keeps (t.deliver r.origin e.path body).dev := t.deliver_keeps _ _ _
  have hu : d.SameSessions (t.deliver r.origin e.path body).dev := t.deliver_sameSessions _ _ _
  have ha : r.answered s e (d, body) = State.settle (t.deliver r.origin e.path body) s.dev := by
    unfold WcpRow.answered
    dsimp only
    rw [WcpRow.after_unchanged i r hi _ _ (hk.sec.trans hs) (hk.power.trans hp) (hu.resetAt.trans hr)]
  rw [ha]
  exact hk.trans (State.settle_keeps _ _)

/-- A tag's computation leaves security, supply and the reset that waits alone (R361). -/
theorem Device.serveOrWait_quiet (d : Device) (rows : List Nat) :
    (d.serveOrWait rows).sec = d.sec ∧ (d.serveOrWait rows).power = d.power ∧ (d.serveOrWait rows).wcp.resetAt = d.wcp.resetAt :=
  ⟨d.serveOrWait_onlyIn rows .sec (by decide), d.serveOrWait_onlyIn rows .power (by decide), (d.serveOrWait_sameSessions rows).resetAt⟩

/-- A command taken keeps what its tag's computation left. -/
theorem Cmd.taken_keeps (c : Cmd) (e : Env) (d : Device) : (d.serveOrWait [5]).Keeps (c.taken e d) :=
  (d.serveOrWait [5]).accept_keeps e _

theorem Cmd.taken_resetAt (c : Cmd) (e : Env) (d : Device) : (c.taken e d).wcp.resetAt = d.wcp.resetAt :=
  ((d.serveOrWait [5]).rightsRead_sameSessions _ _).resetAt.trans (d.serveOrWait_quiet [5]).2.2

/-! Ways an envelope is handled, in the order of R55. -/

theorem Cmd.handle_malformed (c : Cmd) (opens : Env → Device → Device × Bytes) {e : Env} (d : Device) (h : e.malformed = true) :
    c.handle opens e d = (d, response none e.id e.session e.counter sBadParam 0 d.time.ns.toNat Bytes.nil) := by
  simp only [Cmd.handle, h, if_true]

theorem Cmd.handle_closed (c : Cmd) (opens : Env → Device → Device × Bytes) {e : Env} {d : Device} (hform : e.malformed = false)
    (hnamed : e.session ≠ 0xFF) (hclosed : (d.session e.session).isOpen = false) :
    c.handle opens e d = (d, response none e.id e.session e.counter sNoSession 0 d.time.ns.toNat Bytes.nil) := by
  simp [Cmd.handle, hform, hnamed, hclosed]

theorem Cmd.handle_badTag (c : Cmd) (opens : Env → Device → Device × Bytes) {e : Env} {d : Device} (hform : e.malformed = false)
    (hnamed : e.session ≠ 0xFF) (hopen : (d.session e.session).isOpen = true)
    (htag : e.tagOk (keyBytes (d.session e.session).key) = false)
    (hmust : (e.auth || !isQuery e.id || !(d.session e.session).allowUnauth) = true) :
    c.handle opens e d = (d.serveOrWait [5],
      response (some (keyBytes (d.session e.session).key)) e.id e.session e.counter sBadAuth 0 d.time.ns.toNat Bytes.nil) := by
  have hno : (!e.auth && isQuery e.id && (d.session e.session).allowUnauth) = false := by
    revert hmust
    cases e.auth <;> cases isQuery e.id <;> cases (d.session e.session).allowUnauth <;> decide
  simp [Cmd.handle, hform, hnamed, hopen, htag, hno]

theorem Cmd.handle_stale (c : Cmd) (opens : Env → Device → Device × Bytes) {e : Env} {d : Device} (hform : e.malformed = false)
    (hnamed : e.session ≠ 0xFF) (hopen : (d.session e.session).isOpen = true)
    (htag : e.tagOk (keyBytes (d.session e.session).key) = true) (hnew : (d.session e.session).find e.counter = none)
    (hold : e.counter ≤ (d.session e.session).high.toNat) :
    c.handle opens e d = (d.serveOrWait [5],
      response (some (keyBytes (d.session e.session).key)) e.id e.session e.counter sStale 0 d.time.ns.toNat Bytes.nil) := by
  simp [Cmd.handle, hform, hnamed, hopen, htag, Env.auth_of_tagOk htag, hnew, hold]

/-- A counter that is cached: the same tag is a repeat, another is stale (R56). -/
theorem Cmd.handle_cached (c : Cmd) (opens : Env → Device → Device × Bytes) {e : Env} {d : Device} {x : CacheEntry}
    (hform : e.malformed = false) (hnamed : e.session ≠ 0xFF) (hopen : (d.session e.session).isOpen = true)
    (htag : e.tagOk (keyBytes (d.session e.session).key) = true) (hfind : (d.session e.session).find e.counter = some x) :
    c.handle opens e d = if x.tag.toNat = e.tag then
        ((d.serveOrWait [5]).replayPath e, response (some (keyBytes (d.session e.session).key)) e.id e.session e.counter sReplayed x.status
          x.execTime.toNat x.result)
      else (d.serveOrWait [5],
        response (some (keyBytes (d.session e.session).key)) e.id e.session e.counter sStale 0 d.time.ns.toNat Bytes.nil) := by
  simp [Cmd.handle, hform, hnamed, hopen, htag, Env.auth_of_tagOk htag, hfind]

/-- An authentic command executes on the device that has taken it, and what it answers is tracked. -/
theorem Cmd.tracked_eq (c : Cmd) (e : Env) (d : Device) : c.tracked e (d.serveOrWait [5]) =
    match (c.execute (e.ctx d) e.payload (c.taken e d)).2 with
    | .done st res =>
      if st = sBusy then ((d.serveOrWait [5]).rightsRead e.id (c.sealed e.payload), st, res)
      else ((c.execute (e.ctx d) e.payload (c.taken e d)).1.modSession e.session
        (fun q => q.update e.counter (fun y => { y with status := st, result := res.limit })), st, res)
    | .pend k =>
      let x := (c.execute (e.ctx d) e.payload (c.taken e d)).1.modSession e.session (fun q => { q with pending := q.pending + 1 })
      ({ x with wcp := { x.wcp with waits := x.wcp.waits ++
        [{ kind := k, session := .ofNat 16 e.session, counter := .ofNat 32 e.counter, cmdId := e.id, paths := [e.path] }] } },
        sPending, Bytes.nil) := by
  unfold Cmd.tracked
  rw [d.serveOrWait_session]
  rfl

/-- Settles O11: each kind of envelope by its own handling; what its answer leaves is what the step leaves. -/
theorem unauthenticRefused : Obligations.UnauthenticRefused := by
  intro i r s e hi hoff t q served replies
  have hreplies : ∀ d key st, t.dev.sec = d.sec ∧ t.dev.power = d.power ∧ t.dev.wcp.resetAt = d.wcp.resetAt →
      r.cmd.handle r.opens e t.dev = (d, response key e.id e.session e.counter st 0 t.dev.time.ns.toNat Bytes.nil) → replies d key st := by
    intro d key st ⟨hs, hp, hr⟩ hh
    have hexec := exec_offered hi hoff
    rw [hh] at hexec
    exact ⟨hexec, .intro hexec (WcpRow.answered_keeps_device hi s e d _ hs.symm hp.symm hr.symm)⟩
  obtain ⟨hs, hp, hr⟩ := t.dev.serveOrWait_quiet [5]
  exact ⟨fun hbad => hreplies _ _ _ ⟨rfl, rfl, rfl⟩ (r.cmd.handle_malformed r.opens t.dev hbad),
    fun hform hnamed hclosed => hreplies _ _ _ ⟨rfl, rfl, rfl⟩ (r.cmd.handle_closed r.opens hform hnamed hclosed),
    fun hform hnamed hopen htag hmust => hreplies _ _ _ ⟨hs.symm, hp.symm, hr.symm⟩ (r.cmd.handle_badTag r.opens hform hnamed hopen htag hmust),
    fun hform hnamed hopen htag hnew hold =>
      hreplies _ _ _ ⟨hs.symm, hp.symm, hr.symm⟩ (r.cmd.handle_stale r.opens hform hnamed hopen htag hnew hold)⟩

/-- A command that an early check refuses leaves the device it was taken on, or, refused as busy, the one its rights were read on. -/
theorem Cmd.tracked_early {c : Cmd} {e : Env} {d : Device} {st : Nat} {res : Bytes}
    (h : c.early (e.ctx d) e.payload (c.taken e d) = some (st, res)) :
    (d.serveOrWait [5]).Keeps (c.tracked e (d.serveOrWait [5])).1 ∧ (c.tracked e (d.serveOrWait [5])).1.wcp.resetAt = d.wcp.resetAt ∧
    (c.tracked e (d.serveOrWait [5])).2 = (st, res) := by
  have hx : c.execute (e.ctx d) e.payload (c.taken e d) = (c.taken e d, .done st res) := by simp only [Cmd.execute, h]
  rw [c.tracked_eq e d, hx]
  dsimp only
  split
  · exact ⟨Device.rightsRead_keeps _ _ _,
      ((d.serveOrWait [5]).rightsRead_sameSessions _ _).resetAt.trans (d.serveOrWait_quiet [5]).2.2, rfl⟩
  · exact ⟨(c.taken_keeps e d).trans (Device.modSession_keeps _ _ _), c.taken_resetAt e d, rfl⟩

/-- Settles O12: a refusal keeps the device its command was taken on; a cached counter is a repeat or stale. -/
theorem refusedAndRepeatedCommands : Obligations.RefusedAndRepeatedCommands := by
  refine ⟨?refused, ?cached⟩
  case refused =>
    intro i r s e st res hi hoff hauth d hearly
    obtain ⟨hk, hr, hres⟩ := Cmd.tracked_early hearly
    obtain ⟨hs, hp, -⟩ := d.serveOrWait_quiet [5]
    have hexec := exec_offered hi hoff
    rw [r.cmd.handle_authentic r.opens e d hauth, hres] at hexec
    exact .intro hexec ⟨hk.trans (WcpRow.answered_keeps_device hi s e _ _ (hk.sec.trans hs) (hk.power.trans hp) hr), _, rfl⟩
  case cached =>
    intro i r s e x hi hoff hform hnamed hopen htag hfind t served key
    have hexec := exec_offered hi hoff
    rw [r.cmd.handle_cached r.opens hform hnamed hopen htag hfind] at hexec
    obtain ⟨hs, hp, hr⟩ := t.dev.serveOrWait_quiet [5]
    by_cases htags : x.tag.toNat = e.tag
    · rw [if_pos htags] at hexec
      have hk := served.replayPath_keeps e
      exact ⟨fun _ => hexec, fun hne => absurd htags hne,
        .intro hexec (hk.trans (WcpRow.answered_keeps_device hi s e _ _ (hk.sec.trans hs) (hk.power.trans hp) hr))⟩
    · rw [if_neg htags] at hexec
      exact ⟨fun heq => absurd heq htags, fun _ => hexec, .intro hexec (WcpRow.answered_keeps_device hi s e _ _ hs hp hr)⟩

/-- An accepted command that is not busy answers what its effect answers; one that waits has changed what waits and nothing more. -/
theorem exec_accepted {i : Instr} {r : WcpRow} {s : State} {e : Env} (hi : wcpRow? i = some r)
    (h : Accepted r.origin r.cmd e (s.elapse r.dt)) (hbusy : r.busy s e = false) : Answers (exec i s) (r.Ran s e) := by
  obtain ⟨hoff, hauth, hperm⟩ := h
  have hexec := exec_offered hi hoff
  rw [r.cmd.handle_authentic r.opens e _ hauth, r.cmd.tracked_eq, r.cmd.execute_permitted e _ hperm] at hexec
  refine ⟨_, hexec, ?_⟩
  unfold WcpRow.Ran
  unfold WcpRow.busy at hbusy
  simp only [WcpRow.runs] at hbusy ⊢
  generalize r.cmd.run _ _ _ = x at hbusy ⊢
  obtain ⟨d', answer⟩ := x
  cases answer with
  | done st res =>
    have hnot : st ≠ sBusy := by simpa using hbusy
    dsimp only
    rw [if_neg hnot]
  | pend k =>
    refine ⟨_, ?_, rfl⟩
    exact ⟨rfl, rfl, rfl, rfl, rfl, rfl, rfl, rfl, rfl, rfl, rfl, rfl, rfl⟩

/-- Settles O9: a command accepted and not busy has run; the rows named are rows of the protocol. -/
theorem acceptedCommandRuns : Obligations.AcceptedCommandRuns := by
  refine ⟨fun i r s e hi _ hacc => ⟨?done, ?pends⟩, ?rows⟩
  case done =>
    intro st res hx hst
    have hx' : (r.runs s e).2 = .done st res := hx
    obtain ⟨u, hu, hran⟩ := exec_accepted hi hacc (by rw [WcpRow.busy, hx']; simpa using hst)
    rw [hu]
    unfold WcpRow.Ran at hran
    simp only [hx'] at hran
    rw [hran]
    rfl
  case pends =>
    intro k hx
    have hx' : (r.runs s e).2 = .pend k := hx
    obtain ⟨u, hu, hran⟩ := exec_accepted hi hacc (by rw [WcpRow.busy, hx'])
    unfold WcpRow.Ran at hran
    simp only [hx'] at hran
    exact ⟨u, hu, hran⟩
  case rows =>
    intro s dt o e rows p hp hacc hbusy
    have hrows : ∀ p ∈ rows, (wcpRow? p.1, p.2.dt, p.2.origin) = (some p.2, dt, o) := List.map_inj_left.mp rfl
    obtain ⟨hrow, hdt, horigin⟩ : wcpRow? p.1 = some p.2 ∧ p.2.dt = dt ∧ p.2.origin = o := by
      simpa only [Prod.mk.injEq] using hrows p hp
    subst hdt horigin
    exact exec_accepted hrow hacc hbusy

/-- Settles O10: the response stands in the window, zeros beyond it, and the end of the step leaves both. -/
theorem mailboxAnswered : Obligations.MailboxAnswered := by
  intro i r s e n hi horigin hoff hinv x
  have hexec := exec_offered hi hoff
  have hanswer : r.answered s e (r.cmd.handle r.opens e (s.elapse r.dt).dev) = State.settle
      { s.elapse r.dt with
        host := s.host.respond n.val x
        dev := r.after (s.elapse r.dt).dev (r.cmd.handle r.opens e (s.elapse r.dt).dev).1 } s.dev := by
    unfold WcpRow.answered
    rw [horigin]
    rfl
  rw [hanswer] at hexec
  refine .intro hexec ?_
  have hn := n.isLt
  have hwf : Mem.wf winDefault (Mem.clear s.host.mem (0x1000 + 0x1000 * n.val) 0x1000) = true := Mem.clear_wf _ _ _ _ hinv.canonical
  refine ⟨(State.settle_host _ _).1, fun hlen => ⟨?_, fun a hlo hhi => ?_⟩⟩
  · rw [Mem.readN_congr _ _ _ _ _ (fun b _ hb => State.settle_read_below _ _ b (by omega))]
    exact Mem.readN_writeN _ _ _ _ _ hwf
  · rw [State.settle_read_below _ _ a (by omega)]
    refine (Mem.read_writeN_outside _ _ _ _ _ _ hwf (by omega)).trans ?_
    rw [Mem.read_clear _ _ _ _ _ hinv.canonical, if_pos (by omega)]
    rfl

end Sys2Proof.Machine
end

section
/-! Sessions (R51, R52): the state of a session opened or closed, and what the other sessions keep. -/

namespace Sys2Proof.Machine

open Sys2Proof

/-! Sessions by number. -/

theorem Device.session_modSession_same (d : Device) {n : Nat} (f : Session → Session) (h : n < 16) :
    (d.modSession n f).session n = f (d.session n) := by
  simp [Device.session, Device.modSession, h]

theorem Device.session_modSession_other (d : Device) {n m : Nat} (f : Session → Session) (h : m ≠ n) :
    (d.modSession n f).session m = d.session m := by
  simp [Device.session, Device.modSession, h.symm]

/-- Beyond the sixteen there is no session. -/
theorem Device.session_beyond (d : Device) {n : Nat} (h : 16 ≤ n) : d.session n = {} := by
  simp [Device.session, vget, Nat.not_lt.mpr h]

/-- A session closed is erased. -/
theorem Device.closeSession_same (d : Device) (n reason : Nat) (h : (d.session n).isOpen = true) :
    (d.closeSession n reason).session n = {} := by
  by_cases hn : n < 16
  · simp only [Device.closeSession, h, if_true]
    exact d.session_modSession_same (fun _ => {}) hn
  · exact Device.session_beyond _ (Nat.le_of_not_lt hn)

/-- No other session closes with it. -/
theorem Device.closeSession_other (d : Device) {n m : Nat} (reason : Nat) (h : m ≠ n) :
    (d.closeSession n reason).session m = d.session m := by
  unfold Device.closeSession
  split
  · exact d.session_modSession_other _ h
  · rfl

/-! Opening (R51). -/

/-- Key slots are read from security alone. -/
theorem Device.slotOpens_of_sec {d d' : Device} (h : d'.sec = d.sec) (slot : Nat) :
    d'.slotOpens slot = d.slotOpens slot ∧ d'.keyCopy slot = d.keyCopy slot := by
  have hlc : d'.lc = d.lc := by unfold Device.lc; rw [h]
  have hk : d'.keyCopy slot = d.keyCopy slot := by unfold Device.keyCopy; rw [h, hlc]
  exact ⟨by unfold Device.slotOpens; rw [hk, hlc], hk⟩

theorem Device.freeSession_of_sessions {d d' : Device} (h : d.SameSessions d') : d'.freeSession = d.freeSession := by
  simp only [Device.freeSession, h.session]

/-- What a running slice cut short leaves of self-test depends on self-test alone. -/
theorem Device.serveOrWait_bist {d d' : Device} (h : d'.bist = d.bist) (rows : List Nat) :
    (d'.serveOrWait rows).bist = (d.serveOrWait rows).bist := by
  unfold Device.serveOrWait Device.sliceAbort Device.sliceCut Device.bistIncomplete
  rw [h]
  split
  · split
    · exact h
    · dsimp only
      split
      · exact h
      · simp only [Device.limited_parts, Device.modBist_parts, h]
  · exact h

theorem Device.serveOrWait_keeps {d d' : Device} (h : d.Keeps d') (rows : List Nat) : (d.serveOrWait rows).Keeps (d'.serveOrWait rows) := by
  have hd := d.serveOrWait_onlyIn rows
  have hd' := d'.serveOrWait_onlyIn rows
  have part : ∀ {α : Type} (f : Device → α), f (d'.serveOrWait rows) = f d' → f d' = f d → f (d.serveOrWait rows) = f d →
      f (d'.serveOrWait rows) = f (d.serveOrWait rows) := fun f h1 h2 h3 => (h1.trans h2).trans h3.symm
  exact ⟨part Device.time (hd' .time (by decide)) h.time (hd .time (by decide)),
    part Device.fire (hd' .fire (by decide)) h.fire (hd .fire (by decide)),
    part Device.rx (hd' .rx (by decide)) h.rx (hd .rx (by decide)),
    part Device.hist (hd' .hist (by decide)) h.hist (hd .hist (by decide)),
    part Device.ret (hd' .ret (by decide)) h.ret (hd .ret (by decide)),
    part Device.cal (hd' .cal (by decide)) h.cal (hd .cal (by decide)),
    part Device.cams (hd' .cams (by decide)) h.cams (hd .cams (by decide)),
    part Device.core (hd' .core (by decide)) h.core (hd .core (by decide)),
    part Device.field (hd' .field (by decide)) h.field (hd .field (by decide)),
    Device.serveOrWait_bist h.bist rows,
    part Device.sec (hd' .sec (by decide)) h.sec (hd .sec (by decide)),
    part Device.power (hd' .power (by decide)) h.power (hd .power (by decide)),
    part Device.ready (hd' .ready (by decide)) h.ready (hd .ready (by decide))⟩

/-- The command's form names no session (R50, R51). -/
theorem Env.sessionless_of_open {e : Env} (hid : e.id = 0x0140) (hform : e.malformed = false) : e.session = 0xFF := by
  simp only [Env.malformed, hid, Bool.or_eq_false_iff, beq_self_eq_true, Bool.true_and, bne_eq_false_iff_eq] at hform
  exact hform.2

/-- An envelope that meets every check of R51 opens the lowest free session. -/
theorem Device.sessionOpen_opens {e : Env} {d : Device} {k : Nat × KeyCopy} {n : Nat} (hopen : openForm e = true)
    (hslot : d.slotOpens (e.payload.byte 0) = true) (hle : e.payload.byte 0 ≤ 15) (hkey : d.keyCopy (e.payload.byte 0) = some k)
    (htag : e.tagOk (keyBytes k.2.value) = true) (hfree : d.freeSession = some n) :
    Device.sessionOpen e d = (d.lcUsed.serveOrWait [5]).openSession e n (e.payload.byte 0) k.2 := by
  have hsame : d.SameSessions (d.lcUsed.serveOrWait [5]) :=
    (d.checkPair_sameSessions _ _ _ _).trans (Device.serveOrWait_sameSessions _ _)
  have hsec : (d.lcUsed.serveOrWait [5]).sec = d.sec := (Device.serveOrWait_quiet _ _).1.trans d.lcUsed_keeps.sec
  obtain ⟨hslot', hkey'⟩ := Device.slotOpens_of_sec hsec (e.payload.byte 0)
  rw [hslot] at hslot'
  rw [hkey] at hkey'
  have hfree' : (d.lcUsed.serveOrWait [5]).freeSession = some n := (Device.freeSession_of_sessions hsame).trans hfree
  unfold Device.sessionOpen
  simp [hopen, hslot', Nat.not_lt.mpr hle, hkey', htag, hfree']

/-- What opening a session leaves: the session, the others and everything but the protocol and the log. -/
theorem Device.openSession_effect (d : Device) (e : Env) {n : Nat} (slot : Nat) (k : KeyCopy) (hn : n < 16) :
    (∃ key, ((d.openSession e n slot k).1.session n) = {
      isOpen := true, slot := slot, key := key, allowUnauth := nbit e.payload.val 8, idle := nfld e.payload.val 31 16, openedAt := d.now
      lastActive := d.now }) ∧
    (∀ m, m ≠ n → (d.openSession e n slot k).1.session m = d.session m) ∧ d.Keeps (d.openSession e n slot k).1 := by
  have hk : d.Keeps (d.counterRead cBoot) := d.counterRead_keeps cBoot
  have hs : d.SameSessions (d.counterRead cBoot) := d.checkPair_sameSessions _ _ _ _
  have hnow : (d.counterRead cBoot).now = d.now := congrArg TimeBase.clk hk.time
  refine ⟨?_, fun m hm => ?_, hk.trans ⟨rfl, rfl, rfl, rfl, rfl, rfl, rfl, rfl, rfl, rfl, rfl, rfl, rfl⟩⟩
  · rw [← hnow]
    exact ⟨_, (d.counterRead cBoot).session_modSession_same _ hn⟩
  · exact ((d.counterRead cBoot).session_modSession_other _ hm).trans (hs.session m)

theorem Device.freeSession_lt {d : Device} {n : Nat} (h : d.freeSession = some n) : n < 16 :=
  List.mem_range.mp (List.mem_of_find?_eq_some h)

/-! Timeouts (R52). -/

section
variable {d : Device} {n : Nat}

theorem Device.idleTimeout_due (hopen : (d.session n).isOpen = true) (hidle : (d.session n).idle ≠ 0) (hnone : (d.session n).pending = 0)
    (hdue : (d.session n).lastActive + (d.session n).idle * second ≤ d.now) : d.idleTimeout n = d.closeSession n 1 := by
  simp [Device.idleTimeout, hopen, hidle, hnone, hdue]

theorem Device.idleTimeout_early (h : d.now < (d.session n).lastActive + (d.session n).idle * second) : d.idleTimeout n = d := by
  simp [Device.idleTimeout, Nat.not_le.mpr h]

theorem Device.openTimeout_due (hopen : (d.session n).isOpen = true) (hnone : (d.session n).accepted = false)
    (hdue : (d.session n).openedAt + 10 * second ≤ d.now) : d.openTimeout n = d.closeSession n 2 := by
  simp [Device.openTimeout, hopen, hnone, hdue]

theorem Device.openTimeout_early (h : d.now < (d.session n).openedAt + 10 * second) : d.openTimeout n = d := by
  simp [Device.openTimeout, Nat.not_le.mpr h]

end

/-- A row of the running firmware that closes a session closes it at the end of the step, and no other. -/
theorem fwRow_closes {s : State} {dt n reason : Nat} {f : Device → Device} (h : (s.elapse dt).dev.alive = true) (hr : s.dev.ready = true)
    (hopen : (s.dev.session n).isOpen = true) (hf : f (s.elapse dt).dev = (s.elapse dt).dev.closeSession n reason) :
    Answers (fwRow dt f s) (fun u => u.dev.session n = {} ∧ ∀ m, m ≠ n → u.dev.session m = s.dev.session m) := by
  refine .intro (fwRow_next dt f s h hr) ?_
  have hs := State.settle_sameSessions { s.elapse dt with dev := f (s.elapse dt).dev } s.dev
  rw [hs.session]
  refine ⟨?_, fun m hm => (hs.session m).trans ?_⟩
  · show (f (s.elapse dt).dev).session n = {}
    rw [hf]
    exact Device.closeSession_same _ n reason hopen
  · show (f (s.elapse dt).dev).session m = s.dev.session m
    rw [hf]
    exact Device.closeSession_other _ reason hm

/-- One that changes nothing leaves every session. -/
theorem fwRow_leaves {s : State} {dt n : Nat} {f : Device → Device} (hf : f (s.elapse dt).dev = (s.elapse dt).dev) :
    Answers (fwRow dt f s) (fun u => u.dev.session n = s.dev.session n) := by
  obtain ⟨u, hu, hrests⟩ := fwRow_idles dt f s hf
  have hs : s.dev.SameSessions u.dev := ⟨hrests.sessions, hrests.resetAt⟩
  exact .intro hu (hs.session n)

/-- Settles O14: the opening by the order of R51, the timeouts by their conditions. -/
theorem sessionsOpenAndTimeOut : Obligations.SessionsOpenAndTimeOut := by
  refine ⟨?opens, fun s dt n halive hready => ?timeouts⟩
  case opens =>
    intro s dt o e k n hoff hform hopen hslot hle hkey htag hfree
    let r : WcpRow := { dt, origin := o, cmd := cmdSessionOpen, opens := Device.sessionOpen }
    have hexec : exec (.sysSessionOpen dt o) s = _ := exec_offered (r := r) rfl hoff
    have hhandle : cmdSessionOpen.handle Device.sessionOpen e (s.elapse dt).dev =
        ((s.elapse dt).dev.lcUsed.serveOrWait [5]).openSession e n (e.payload.byte 0) k.2 := by
      rw [← Device.sessionOpen_opens hopen hslot hle hkey htag hfree]
      simp only [Cmd.handle, hform, Bool.false_eq_true, if_false, Env.sessionless_of_open hoff.id hform, if_true, Cmd.sessionless, hoff.id]
      exact if_pos rfl
    obtain ⟨⟨key, hnew⟩, hother, hkeeps⟩ :=
      ((s.elapse dt).dev.lcUsed.serveOrWait [5]).openSession_effect e (e.payload.byte 0) k.2 (Device.freeSession_lt hfree)
    have hbefore : (s.elapse dt).dev.SameSessions ((s.elapse dt).dev.lcUsed.serveOrWait [5]) :=
      (Device.checkPair_sameSessions _ _ _ _ _).trans (Device.serveOrWait_sameSessions _ _)
    have hserved : ((s.elapse dt).dev.serveOrWait [5]).Keeps ((s.elapse dt).dev.lcUsed.serveOrWait [5]) :=
      Device.serveOrWait_keeps (Device.lcUsed_keeps _) _
    rw [show r.cmd.handle r.opens e (s.elapse r.dt).dev = _ from hhandle] at hexec
    refine .intro hexec ?_
    generalize ((s.elapse dt).dev.lcUsed.serveOrWait [5]).openSession e n (e.payload.byte 0) k.2 = x at hnew hother hkeeps
    let t : State := State.deliver { s.elapse dt with dev := x.1 } o e.path x.2
    have hend : x.1.SameSessions (r.answered s e x).dev :=
      (State.deliver_sameSessions _ _ _ _).trans (State.settle_sameSessions t s.dev)
    have hendKeeps : x.1.Keeps (r.answered s e x).dev := (State.deliver_keeps _ _ _ _).trans (State.settle_keeps t s.dev)
    rw [hend.session, hnew]
    exact ⟨rfl, rfl, rfl, rfl, rfl, rfl, rfl, fun m hm => ((hend.session m).trans (hother m hm)).trans (hbefore.session m),
      (hserved.trans hkeeps).trans hendKeeps⟩
  case timeouts =>
    intro q
    dsimp only [exec, execSessionIdleTimeout, execSessionOpenTimeout]
    refine ⟨fun hopen hidle hnone hdue => ?idle, fun hopen hnone hdue => ?unused, fun hearly => ?idleEarly, fun hearly => ?unusedEarly⟩
    case idle => exact fwRow_closes halive hready hopen (Device.idleTimeout_due hopen hidle hnone hdue)
    case unused => exact fwRow_closes halive hready hopen (Device.openTimeout_due hopen hnone hdue)
    case idleEarly => exact fwRow_leaves (Device.idleTimeout_early hearly)
    case unusedEarly => exact fwRow_leaves (Device.openTimeout_early hearly)

end Sys2Proof.Machine
end

section
/-! Replies that wait for another node's queue (R45, R46), undefined commands (R57) and the windows that limit events (R257). -/

namespace Sys2Proof.Machine

open Sys2Proof

/-- Two devices that differ in what reports reach alone, with the same replies waiting, in flight and discarded. -/
structure Device.SameReplies (d d' : Device) : Prop where
  only : d.OnlyIn reports d'
  replies : d'.wcp.replies = d.wcp.replies
  inFlight : d'.wcp.inFlight = d.wcp.inFlight
  discarded : d'.wcp.discarded = d.wcp.discarded

theorem Device.SameReplies.refl (d : Device) : d.SameReplies d := ⟨.refl _ d, rfl, rfl, rfl⟩

theorem Device.SameReplies.trans {a b c : Device} (h : a.SameReplies b) (k : b.SameReplies c) : a.SameReplies c :=
  ⟨h.only.trans k.only, k.replies.trans h.replies, k.inFlight.trans h.inFlight, k.discarded.trans h.discarded⟩

theorem Device.sameReplies_foldl {α : Type} (f : Device → α → Device) (hf : ∀ (d : Device) a, d.SameReplies (f d a)) (l : List α)
    (d : Device) : d.SameReplies (l.foldl f d) := by
  induction l generalizing d with
  | nil => exact .refl d
  | cons a t ih => exact (hf d a).trans (ih (f d a))

/-- What stays close is what reports reach. -/
theorem Device.Near.sameReplies {d d' : Device} (h : d.Near d') : d.SameReplies d' := by
  refine ⟨fun p hp => ?_, h.replies, h.inFlight, h.discarded⟩
  cases p
  case ring => exact h.ring
  case wcp | qs | ports | log => exact absurd (by decide) hp
  all_goals exact h.keeps.onlyIn _ (by decide)

/-- The end of a step is among the reports. -/
theorem State.settle_sameReplies (s : State) (old : Device) : s.dev.SameReplies (s.settle old).dev :=
  ⟨State.settle_onlyIn _ _ s old (by decide) (by decide) (by decide) (.refl _ _), (s.settle_rests old).replies,
    (s.settle_rests old).inFlight, (s.settle_rests old).discarded⟩

theorem Device.closeSession_sameReplies (d : Device) (n reason : Nat) : d.SameReplies (d.closeSession n reason) := by
  unfold Device.closeSession
  split
  · refine ⟨fun p hp => ?_, rfl, rfl, rfl⟩
    cases p <;> first | rfl | exact absurd (by decide) hp
  · exact .refl d

/-! A reply's end (R45, R46). -/

/-- What a reply that has gone leaves: those behind it, one command less in flight, its loss counted, and the supply changed by a standby
that waited for it alone. -/
structure Device.Gone (d : Device) (r : Reply) (rest : List Reply) (lost : Nat) (d' : Device) : Prop where
  replies : d'.wcp.replies = rest
  inFlight : d'.wcp.inFlight = d.wcp.inFlight - r.first.toNat
  discarded : d'.wcp.discarded = d.wcp.discarded + lost
  power : r.resets ≠ some .standby → d'.power = d.power
  only : d.OnlyIn (.power :: reports) d'

theorem Device.replyGone_gone (d : Device) (r : Reply) (rest : List Reply) (lost : Nat) : d.Gone r rest lost (d.replyGone r rest lost) := by
  let a : Device := { d with wcp := { d.wcp with
    replies := rest, discarded := d.wcp.discarded + lost, inFlight := d.wcp.inFlight - r.first.toNat } }
  let b := r.closes.foldl (fun d n => if (d.session n).openedAt ≤ r.since then d.closeSession n 0 else d) a
  have hab : a.SameReplies b := by
    refine Device.sameReplies_foldl _ (fun d n => ?_) r.closes a
    split
    · exact d.closeSession_sameReplies n 0
    · exact .refl d
  have hda : d.OnlyIn reports a := by
    intro p hp
    cases p <;> first | rfl | exact absurd (by decide) hp
  have hdb : d.OnlyIn reports b := hda.trans hab.only
  have hwcp : ∀ {d' : Device}, b.OnlyIn [.power, .wcp] d' → d.OnlyIn (.power :: reports) d' := fun h =>
    (hdb.mono (List.subset_cons_self _ _)).trans (h.mono (by decide))
  have hgone : d.replyGone r rest lost = match r.resets with
    | some .standby => { b with power := { b.power with standbyAt := some (b.now + ms) } }
    | some c => b.scheduleReset ms c
    | none => b := rfl
  rw [hgone]
  split
  · next hr =>
    refine ⟨hab.replies, hab.inFlight, hab.discarded, fun hne => absurd hr hne, hwcp fun p hp => ?_⟩
    cases p <;> first | rfl | exact absurd (by decide) hp
  · refine ⟨hab.replies, hab.inFlight, hab.discarded, fun _ => hdb .power (by decide), hwcp fun p hp => ?_⟩
    cases p <;> first | rfl | exact absurd (by decide) hp
  · exact ⟨hab.replies, hab.inFlight, hab.discarded, fun _ => hdb .power (by decide), hwcp (.refl _ b)⟩

/-- The end of a step keeps what a reply that has gone leaves. -/
theorem Device.Gone.settle {d x : Device} {r : Reply} {rest : List Reply} {lost : Nat} (h : d.Gone r rest lost x) (t : State) (old : Device) :
    d.Gone r rest lost (State.settle { t with dev := x } old).dev := by
  have hs := State.settle_sameReplies { t with dev := x } old
  exact ⟨hs.replies.trans h.replies, hs.inFlight.trans h.inFlight, hs.discarded.trans h.discarded,
    fun hne => (hs.only .power (by decide)).trans (h.power hne), h.only.trans (hs.only.mono (List.subset_cons_self _ _))⟩

/-- A message to this node's own queue stays close. -/
theorem Device.sendMsg_near {d : Device} {node : Nat} (queue : Nat) (msg : Bytes) (h : node = d.ring.node) :
    d.Near (d.sendMsg node queue msg).1 := by
  rw [Device.sendMsg, if_pos h]
  exact d.putUnit_near _ _ _ _

/-- A message to another node touches the ring alone. -/
theorem Device.sendMsg_remote {d : Device} {node : Nat} (queue : Nat) (msg : Bytes) (h : node ≠ d.ring.node) :
    d.OnlyIn [.ring, .ports] (d.sendMsg node queue msg).1 := by
  rw [Device.sendMsg, if_neg h]
  split
  · exact .refl _ d
  · intro p hp
    cases p <;> first | rfl | exact absurd (by decide) hp

/-! The fate of the first reply (R46). -/

section
variable {d : Device} {r : Reply} {rest : List Reply} (hr : d.wcp.replies = r :: rest)
include hr

theorem Device.retryReply_taken (hnode : r.node ≠ d.ring.node) : d.retryReply true = d.replyGone r rest 0 := by
  simp [Device.retryReply, hr, hnode]

theorem Device.retryReply_given_up (hnode : r.node ≠ d.ring.node) (hdue : r.nextTry ≤ d.now) (hlate : r.since + 100 * ms ≤ d.now) :
    d.retryReply false = d.replyGone r rest 1 := by
  simp [Device.retryReply, hr, hnode, Nat.not_lt.mpr hdue, hlate]

theorem Device.retryReply_again (hnode : r.node ≠ d.ring.node) (hdue : r.nextTry ≤ d.now) (hearly : d.now < r.since + 100 * ms) :
    d.retryReply false = (d.sendMsg r.node r.queue r.msg).1.replyAgain r rest := by
  simp [Device.retryReply, hr, hnode, Nat.not_lt.mpr hdue, Nat.not_le.mpr hearly]

theorem Device.retryReply_local (b : Bool) (hnode : r.node = d.ring.node) (hdue : r.nextTry ≤ d.now) :
    d.retryReply b = if (d.sendMsg r.node r.queue r.msg).2 = true then (d.sendMsg r.node r.queue r.msg).1.replyGone r rest 0
      else (d.sendMsg r.node r.queue r.msg).1.replyAgain r rest := by
  simp [Device.retryReply, hr, hnode, Nat.not_lt.mpr hdue]

theorem Device.retryReply_early (b : Bool) (hnode : b = false ∨ r.node = d.ring.node) (hearly : d.now < r.nextTry) :
    d.retryReply b = d := by
  have hno : (decide (r.node ≠ d.ring.node) && b) = false := by rcases hnode with h | h <;> simp [h]
  simp only [Device.retryReply, hr, hno, Bool.false_eq_true, if_false, hearly, if_true]

end

/-- A reply tried again before its 100 ms are over waits behind the others. -/
theorem Device.replyAgain_waits {d : Device} {r : Reply} (rest : List Reply) (h : d.now < r.since + 100 * ms) :
    d.replyAgain r rest = { d with wcp := { d.wcp with replies := rest ++ [{ r with nextTry := d.now + ms }] } } := by
  rw [Device.replyAgain, if_neg (Nat.not_le.mpr h)]

/-- A reply to this node's own queue, once its time has come, has gone or waits behind the others. -/
theorem Device.retryReply_local_effect {d : Device} {r : Reply} {rest : List Reply} (hr : d.wcp.replies = r :: rest) (b : Bool)
    (hnode : r.node = d.ring.node) (hdue : r.nextTry ≤ d.now) :
    ((d.retryReply b).wcp.replies = rest ∨
      (d.now < r.since + 100 * ms ∧ (d.retryReply b).wcp.replies = rest ++ [{ r with nextTry := d.now + ms }])) ∧
    d.OnlyIn (.power :: reports) (d.retryReply b) := by
  rw [Device.retryReply_local hr b hnode hdue]
  have hnear := Device.sendMsg_near r.queue r.msg hnode
  generalize d.sendMsg r.node r.queue r.msg = x at hnear ⊢
  have honly : d.OnlyIn (.power :: reports) x.1 := hnear.sameReplies.only.mono (List.subset_cons_self _ _)
  have hnow : x.1.now = d.now := congrArg TimeBase.clk hnear.keeps.time
  have gone : ∀ lost, (x.1.replyGone r rest lost).wcp.replies = rest ∧ d.OnlyIn (.power :: reports) (x.1.replyGone r rest lost) :=
    fun lost => ⟨(x.1.replyGone_gone r rest lost).replies, honly.trans (x.1.replyGone_gone r rest lost).only⟩
  split
  · exact ⟨.inl (gone 0).1, (gone 0).2⟩
  · by_cases hlate : r.since + 100 * ms ≤ x.1.now
    · rw [Device.replyAgain, if_pos hlate]
      exact ⟨.inl (gone 1).1, (gone 1).2⟩
    · rw [Device.replyAgain_waits rest (Nat.not_le.mp hlate), hnow]
      refine ⟨.inr ⟨hnow ▸ Nat.not_le.mp hlate, rfl⟩, honly.trans fun p hp => ?_⟩
      cases p <;> first | rfl | exact absurd (by decide) hp

/-! Undefined commands (R57). -/

/-- An authentic envelope of an undefined identifier is consumed and cached with S_BAD_PARAM. -/
theorem Cmd.handle_undefined {e : Env} {d : Device} (h : Authentic e d) : (cmdUndefined e.id).handle noOpen e d =
    (((cmdUndefined e.id).taken e d).modSession e.session
      (fun q => q.update e.counter (fun y => { y with status := sBadParam, result := Bytes.nil.limit })),
      response (some (keyBytes (d.session e.session).key)) e.id e.session e.counter sBadParam 0 d.time.ns.toNat Bytes.nil) := by
  have hx : (cmdUndefined e.id).execute (e.ctx d) e.payload ((cmdUndefined e.id).taken e d) =
      ((cmdUndefined e.id).taken e d, .done sBadParam Bytes.nil) := rfl
  rw [Cmd.handle_authentic _ _ _ _ h, Cmd.tracked_eq, hx]
  rfl

/-- UNDEFINED_COMMAND_ID leaves a defined identifier to its own command. -/
theorem execUndefined_defined {dt : Nat} {o : Origin} {s : State} {e : Env} (he : (s.elapse dt).envelope o = some e)
    (hdef : definedIds.contains e.id = true) : exec (.undefinedCommandId dt o) s = devRow dt (fun d => d) s := by
  show execUndefinedCommandId dt o s = _
  simp only [execUndefinedCommandId, he, Option.map_some, hdef, if_true]

/-- One that no command has is handled. -/
theorem execUndefined_offered {dt : Nat} {o : Origin} {s : State} {e : Env} (h : Offered o (cmdUndefined e.id) e (s.elapse dt))
    (hundef : definedIds.contains e.id = false) : exec (.undefinedCommandId dt o) s = .next
      (({ dt, origin := o, cmd := cmdUndefined e.id } : WcpRow).answered s e ((cmdUndefined e.id).handle noOpen e (s.elapse dt).dev)) := by
  have hrow : exec (.undefinedCommandId dt o) s = wcpRow dt o (cmdUndefined e.id) noOpen s := by
    show execUndefinedCommandId dt o s = _
    simp only [execUndefinedCommandId, h.there, Option.map_some, hundef, Bool.false_eq_true, if_false]
  rw [hrow]
  exact wcpRowThen_offered { dt, origin := o, cmd := cmdUndefined e.id } s e h

/-! The end of a window that limits an event (R257). -/

section
variable {d : Device} {ev source sub : Nat} {l : Limit} (hl : d.wcp.limits.find? (fun x => x.is ev source sub) = some l)
include hl

theorem Device.windowEnd_early (h : d.now < l.until_) : d.windowEnd ev source sub = d := by
  simp only [Device.windowEnd, hl, h, if_true]

/-- A window that is over closes empty, or reports what it gathered and opens the next. -/
theorem Device.windowEnd_over (hu : d.Unstreamed) (h : l.until_ ≤ d.now) :
    d.OnlyIn [.wcp] (d.windowEnd ev source sub) ∧ (d.windowEnd ev source sub).Unstreamed ∧
    (d.windowEnd ev source sub).wcp.limits =
      (if l.n = 0 then d.wcp.limits.filter (fun x => !x.is ev source sub)
       else d.wcp.limits.map (fun x => if x.is ev source sub then { l with until_ := d.now + l.len, n := 0, payload := 0, add := 0 } else x)) ∧
    (d.windowEnd ev source sub).wcp.evSeq = (if l.n = 0 then d.wcp.evSeq else d.wcp.evSeq + 1) := by
  by_cases hn : l.n = 0
  · simp only [Device.windowEnd, hl, Nat.not_lt.mpr h, if_false, hn, if_true]
    refine ⟨fun p hp => ?_, ⟨hu.held, hu.events, hu.mirror⟩, trivial, trivial⟩
    cases p <;> first | rfl | exact absurd (by decide) hp
  · simp only [Device.windowEnd, hl, Nat.not_lt.mpr h, if_false, hn]
    have hqs := d.raise_unstreamed ev source (l.payload + l.add) hu
    refine ⟨fun p hp => ?_, ⟨by rw [hqs]; exact hu.held, by rw [hqs]; exact hu.events, by rw [hqs]; exact hu.mirror⟩, rfl, rfl⟩
    cases p <;> first | rfl | exact hqs | exact absurd (by decide) hp

end

/-- Where nothing streams, the end of a step adds to what a row has changed what was to be told, in the protocol's own state. -/
theorem State.settle_unstreamed_onlyIn {d x : Device} (t : State) (old : Device) (hx : x.Unstreamed) (h : d.OnlyIn [.wcp] x) :
    d.OnlyIn [.wcp] (State.settle { t with dev := x } old).dev := by
  rw [State.settle_unstreamed _ old hx]
  refine h.trans fun p hp => ?_
  cases p <;> first | rfl | exact absurd (by decide) hp

/-- Settles O31: each fate of a reply, then the undefined command, then the end of a window. -/
theorem repliesAndReports : Obligations.RepliesAndReports := by
  intro s dt o e r rest ev source sub l halive t d
  have hretry : ∀ b, s.dev.ready = true →
      exec (.responseRetry dt b) s = .next (State.settle { t with dev := d.retryReply b } s.dev) :=
    fun b hready => fwRow_next dt (fun d => d.retryReply b) s halive hready
  have hidle : ∀ b, d.retryReply b = d → Idles (exec (.responseRetry dt b) s) d := fun b h => fwRow_idles dt (fun d => d.retryReply b) s h
  have hwindow : exec (.eventReportWindowEnd dt ev source sub) s =
      .next (State.settle { t with dev := d.windowEnd ev.toNat source.toNat sub } s.dev) :=
    coreRow_next dt (fun d => d.windowEnd ev.toNat source.toNat sub) s halive
  refine ⟨?remote, ?own, ?early, ?none, ?undefined, ?defined, ?running, ?ended⟩
  case remote =>
    intro hready hr hnode
    have hgone := fun lost => (d.replyGone_gone r rest lost).settle t s.dev
    refine ⟨.intro (hretry true hready) ?_, fun hdue hlate => .intro (hretry false hready) ?_,
      fun hdue hearly => .intro (hretry false hready) ?_⟩
    · rw [Device.retryReply_taken hr hnode]
      exact ⟨(hgone 0).replies, (hgone 0).inFlight, (hgone 0).discarded, (hgone 0).power, (hgone 0).only⟩
    · rw [Device.retryReply_given_up hr hnode hdue hlate]
      exact ⟨(hgone 1).replies, (hgone 1).discarded, (hgone 1).inFlight, (hgone 1).power, (hgone 1).only⟩
    · rw [Device.retryReply_again hr hnode hdue hearly]
      have hsent := Device.sendMsg_remote r.queue r.msg hnode
      generalize (d.sendMsg r.node r.queue r.msg).1 = x at hsent ⊢
      have hnow : x.now = d.now := congrArg TimeBase.clk (hsent .time (by decide))
      rw [Device.replyAgain_waits rest (hnow ▸ hearly), hnow]
      have hsettle := State.settle_sameReplies
        { t with dev := { x with wcp := { x.wcp with replies := rest ++ [{ r with nextTry := d.now + ms }] } } } s.dev
      refine ⟨hsettle.replies, ((hsent.mono (by decide)).trans fun p hp => ?_).trans (hsettle.only.mono (by decide))⟩
      cases p <;> first | rfl | exact absurd (by decide) hp
  case own =>
    intro hready hr hnode hdue b
    obtain ⟨hreplies, honly⟩ := Device.retryReply_local_effect hr b hnode hdue
    refine .intro (hretry b hready) ?_
    have hsettle := State.settle_sameReplies { t with dev := d.retryReply b } s.dev
    rw [hsettle.replies]
    exact ⟨hreplies, honly.trans (hsettle.only.mono (List.subset_cons_self _ _))⟩
  case early =>
    exact fun hr hearly => ⟨hidle false (Device.retryReply_early hr false (.inl rfl) hearly),
      fun hnode => hidle true (Device.retryReply_early hr true (.inr hnode) hearly)⟩
  case none => exact fun hnone b => hidle b (by simp only [Device.retryReply, hnone])
  case undefined =>
    intro hoff hundef hauth
    rw [execUndefined_offered hoff hundef, Cmd.handle_undefined hauth]
  case defined =>
    intro he hdef
    rw [execUndefined_defined he hdef]
    exact devRow_idles dt _ s rfl
  case running =>
    exact fun hl hearly => coreRow_idles dt (fun d => d.windowEnd ev.toNat source.toNat sub) s (Device.windowEnd_early hl hearly)
  case ended =>
    intro hu hl hpast
    obtain ⟨honly, hstill, hlimits, hseq⟩ := Device.windowEnd_over hl hu hpast
    refine .intro hwindow ?_
    generalize d.windowEnd ev.toNat source.toNat sub = x at honly hstill hlimits hseq ⊢
    have hend := State.settle_unstreamed { t with dev := x } s.dev hstill
    exact ⟨State.settle_unstreamed_onlyIn t s.dev hstill honly, by rw [hend]; exact hlimits, by rw [hend]; exact hseq⟩

end Sys2Proof.Machine
end

section
/-! Device resets (R43, R400, R439): what a reset of the C-die leaves, that the record it finishes first does not depend on the cause that
is latched, and the rows that reset. -/

namespace Sys2Proof.Machine

open Sys2Proof

/-! The record that is finished first changes the protocol, the ring, the queues, the log and the digests of the sealed values alone. -/

theorem Device.logAppend_keeps (d : Device) (r : BitVec 4096) : d.Keeps (d.logAppend r) :=
  .trans (.trans (d.keeps_update d.wcp d.ring d.qs _) (Device.count_keeps _ _ _)) (Device.count_keeps _ _ _)

theorem Device.firstFault_keeps (d : Device) (r : BitVec 4096) : d.Keeps (d.firstFault r) := by
  unfold Device.firstFault
  dsimp only
  split
  · exact .refl d
  · split
    · exact d.keeps_update d.wcp d.ring d.qs _
    · exact d.count_keeps _ _

theorem Device.completeFirst_keeps (d : Device) (k : WaitKind) (status : Nat) (result : Bytes) :
    d.Keeps (d.completeFirst k status result) := by
  unfold Device.completeFirst
  split
  · exact .trans (d.keeps_update _ d.ring d.qs d.log) (Device.finish_keeps _ _ _ _)
  · exact .refl d

theorem Device.reportRead_keeps (d : Device) : d.Keeps d.reportRead :=
  ((d.counterRead_keeps _).trans (Device.counterRead_keeps _ _)).trans (Device.counterRead_keeps _ _)

theorem Device.logReport_keeps (d : Device) : d.Keeps d.logReport := by
  unfold Device.logReport
  dsimp only
  split
  · exact d.reportRead_keeps
  · exact d.reportRead_keeps.trans (.trans (Device.keeps_update _ _ _ _ _) (Device.raise_keeps _ _ _ _))

/-- A sealed change recorded takes its digests. -/
theorem Device.sealDone_keeps (d : Device) : ∃ x, Device.Keeps { d with sec := { d.sec with digests := x } } d.sealDone := by
  unfold Device.sealDone
  split
  · exact ⟨d.sec.digests, .refl d⟩
  · next x _ =>
    exact ⟨x.digests d.sec.digests, ⟨rfl, rfl, rfl, rfl, rfl, rfl, rfl, rfl, rfl, rfl, rfl, rfl, rfl⟩⟩

/-- Other digests do not matter to what is kept. -/
theorem Device.Keeps.digests {d d' : Device} (h : d.Keeps d') (x : Vector (BitVec 256) 7) :
    Device.Keeps { d with sec := { d.sec with digests := x } } { d' with sec := { d'.sec with digests := x } } :=
  ⟨h.time, h.fire, h.rx, h.hist, h.ret, h.cal, h.cams, h.core, h.field, h.bist, by dsimp only; rw [h.sec], h.power, h.ready⟩

/-- The bits of a record as it commits. -/
def committedBits (w : BitVec 4096) : BitVec 4096 := .ofNat 4096 (w.toNat % 2 ^ 4032 + recCommit (recSeq w))

/-- A record committed: appended, kept as a first fault, its sealed change recorded, a mark that waits for it completed. -/
def Device.recordCommitted (d : Device) (r : BitVec 4096) : Device :=
  let d := ((d.logAppend r).firstFault r).sealDone
  (if recKind r = 0x0011 then d.completeFirst .mark sOk Bytes.nil else d).logReport

theorem Device.bbCommit_idle {d : Device} (h : d.log.writing = none) : d.bbCommit = d := by
  unfold Device.bbCommit
  rw [h]

theorem Device.bbCommit_writing {d : Device} {w : BitVec 4096} (h : d.log.writing = some w) :
    d.bbCommit = d.recordCommitted (committedBits (d.withSealEntry w)) := by
  unfold Device.bbCommit
  rw [h]
  rfl

theorem Device.recordCommitted_keeps (d : Device) (r : BitVec 4096) :
    ∃ x, Device.Keeps { d with sec := { d.sec with digests := x } } (d.recordCommitted r) := by
  obtain ⟨x, hx⟩ := Device.sealDone_keeps ((d.logAppend r).firstFault r)
  refine ⟨x, ((((d.logAppend_keeps r).trans (Device.firstFault_keeps _ r)).digests x).trans hx).trans ?_⟩
  unfold Device.recordCommitted
  dsimp only
  split
  · exact (Device.completeFirst_keeps _ _ _ _).trans (Device.logReport_keeps _)
  · exact Device.logReport_keeps _

theorem Device.bbCommit_keeps (d : Device) : ∃ x, Device.Keeps { d with sec := { d.sec with digests := x } } d.bbCommit := by
  cases h : d.log.writing with
  | none => exact ⟨d.sec.digests, by rw [Device.bbCommit_idle h]; exact .refl d⟩
  | some w => rw [Device.bbCommit_writing h]; exact d.recordCommitted_keeps _

/-! The counters after that record: the cause latched before it does not matter to them. -/

/-- Two devices whose counters go on alike: a record that is lost to a full queue counts, unless shutdown-imminent is asserted. -/
structure Device.CountsAlike (a b : Device) : Prop where
  counters : b.log.counters = a.log.counters
  episodes : b.log.episodes = a.log.episodes
  pending : b.log.pend.length = a.log.pend.length
  shut : b.power.shut = a.power.shut

theorem Device.CountsAlike.of_log {a b : Device} (hlog : b.log = a.log) (hshut : b.power.shut = a.power.shut) : a.CountsAlike b :=
  ⟨by rw [hlog], by rw [hlog], by rw [hlog], hshut⟩

theorem Device.CountsAlike.trans {a b c : Device} (h : a.CountsAlike b) (k : b.CountsAlike c) : a.CountsAlike c :=
  ⟨k.counters.trans h.counters, k.episodes.trans h.episodes, k.pending.trans h.pending, k.shut.trans h.shut⟩

theorem Device.CountsAlike.symm {a b : Device} (h : a.CountsAlike b) : b.CountsAlike a :=
  ⟨h.counters.symm, h.episodes.symm, h.pending.symm, h.shut.symm⟩

theorem Device.count_alike {a b : Device} (h : a.CountsAlike b) (i n : Nat) : (a.count i n).CountsAlike (b.count i n) := by
  obtain ⟨hc, he, hp, hs⟩ := h
  unfold Device.count
  rw [hs]
  split
  · exact ⟨hc, he, hp, hs⟩
  · exact ⟨by dsimp only; rw [hc], he, hp, hs⟩

/-- A record removed from the queue leaves it one shorter. -/
theorem dropNewest_length {l l' : List PendRec} (h : dropNewest l = some l') : l'.length = l.length - 1 := by
  unfold dropNewest at h
  split at h
  · cases h
  · next i hi =>
    obtain rfl := Option.some.inj h
    have hlt : i < l.reverse.length := (List.findIdx?_eq_some_iff_findIdx_eq.mp hi).1
    rw [List.length_reverse, List.length_eraseIdx_of_lt hlt, List.length_reverse]

/-- A record that meets a full queue counts one as lost, be it the record itself or the one it takes the place of. -/
theorem Device.queueRec_full {d : Device} (r : PendRec) (hshut : d.power.shut.isSome = false) (hfull : ¬ d.log.pend.length < 64) :
    (d.count cLost 1).CountsAlike (d.queueRec r) := by
  have hpend : (d.count cLost 1).log.pend = d.log.pend := by unfold Device.count; split <;> rfl
  unfold Device.queueRec
  rw [hshut, if_neg Bool.false_ne_true, if_neg hfull]
  split
  · next l hl =>
    refine ⟨rfl, rfl, ?_, rfl⟩
    simp only [hpend, List.length_append, dropNewest_length hl, List.length_singleton]
    omega
  · exact .of_log rfl rfl

theorem Device.queueRec_alike {a b : Device} (h : a.CountsAlike b) (r r' : PendRec) : (a.queueRec r).CountsAlike (b.queueRec r') := by
  cases hshut : a.power.shut.isSome with
  | true =>
    have hshut' : b.power.shut.isSome = true := by rw [h.shut, hshut]
    simpa only [Device.queueRec, hshut, hshut', if_true] using h
  | false =>
    have hshut' : b.power.shut.isSome = false := by rw [h.shut, hshut]
    by_cases hroom : a.log.pend.length < 64
    · have hroom' : b.log.pend.length < 64 := by rw [h.pending]; exact hroom
      simp only [Device.queueRec, hshut, hshut', hroom, hroom', if_true, if_neg Bool.false_ne_true]
      exact ⟨h.counters, h.episodes, by simp only [List.length_append, h.pending, List.length_singleton], h.shut⟩
    · have hroom' : ¬ b.log.pend.length < 64 := by rw [h.pending]; exact hroom
      exact (Device.queueRec_full r hshut hroom).symm.trans ((Device.count_alike h _ _).trans (Device.queueRec_full r' hshut' hroom'))

theorem Device.limited_alike (d : Device) (ev source sub len payload add : Nat) (first : Bool) :
    d.CountsAlike (d.limited ev source sub len payload add first) :=
  have hnear := d.limited_near ev source sub len payload add first
  .of_log hnear.log (by rw [hnear.keeps.power])

theorem Device.integrityN_alike {a b : Device} (h : a.CountsAlike b) (cls idx act n : Nat) :
    (a.integrityN cls idx act n).CountsAlike (b.integrityN cls idx act n) := by
  have hl := ((a.limited_alike eIntegrity cls idx second (idx % 4096 * 2 ^ 244 + act * 2 ^ 242) (n * 2 ^ 210) false).symm.trans h).trans
    (b.limited_alike eIntegrity cls idx second (idx % 4096 * 2 ^ 244 + act * 2 ^ 242) (n * 2 ^ 210) false)
  unfold Device.integrityN
  rw [h.episodes]
  dsimp only
  generalize a.limited eIntegrity cls idx second _ _ false = x at hl ⊢
  generalize b.limited eIntegrity cls idx second _ _ false = y at hl ⊢
  split
  · refine Device.queueRec_alike ?_ _ _
    exact ⟨hl.counters, congrArg (List.cons (cls, idx)) hl.episodes, hl.pending, hl.shut⟩
  · exact hl

theorem Device.checkPair_alike {a b : Device} (h : a.CountsAlike b) (ok : Bool) (cls idx act : Nat) :
    (a.checkPair ok cls idx act).CountsAlike (b.checkPair ok cls idx act) := by
  cases ok with
  | false => exact Device.integrityN_alike h cls idx act 1
  | true =>
    unfold Device.checkPair Device.intact
    rw [if_pos rfl, if_pos rfl, h.episodes]
    split
    · exact ⟨h.counters, rfl, h.pending, h.shut⟩
    · exact h

theorem Device.counterRead_alike {a b : Device} (h : a.CountsAlike b) (i : Nat) : (a.counterRead i).CountsAlike (b.counterRead i) := by
  unfold Device.counterRead Device.counterOk
  rw [h.counters]
  exact Device.checkPair_alike h _ _ _ _

/-- What a report of the log counts is what its reads count. -/
theorem Device.logReport_counts (d : Device) : d.reportRead.CountsAlike d.logReport := by
  unfold Device.logReport
  generalize d.reportRead = x
  dsimp only
  split
  · exact .of_log rfl rfl
  · have hlog := (Device.raise_near (x.modLog (fun l => { l with
      logSeen := (x.counter cLost, x.counter cTorn, x.counter cFfFull), logAt := x.now })) 0x0F01 0
      (fields [(224, x.counter cLost), (192, x.counter cTorn), (160, x.counter cFfFull)])).log
    exact ⟨by rw [hlog]; rfl, by rw [hlog]; rfl, by rw [hlog]; rfl, rfl⟩

theorem Device.logReport_alike {a b : Device} (h : a.CountsAlike b) : a.logReport.CountsAlike b.logReport :=
  a.logReport_counts.symm.trans ((Device.counterRead_alike (Device.counterRead_alike (Device.counterRead_alike h _) _) _).trans
    b.logReport_counts)

/-! A wait that completes leaves the log alone. -/

theorem Device.sendMsg_log (d : Device) (node queue : Nat) (msg : Bytes) : (d.sendMsg node queue msg).1.log = d.log := by
  unfold Device.sendMsg
  split
  · exact (d.putUnit_near _ _ _ _).log
  · split <;> rfl

theorem Device.reply_log (d : Device) (node queue : Nat) (body : Bytes) (first : Bool) : (d.reply node queue body first).log = d.log := by
  unfold Device.reply
  dsimp only
  split <;> exact d.sendMsg_log _ _ _

theorem Device.log_foldl {α : Type} (f : Device → α → Device) (hf : ∀ (d : Device) a, (f d a).log = d.log) (l : List α) (d : Device) :
    (l.foldl f d).log = d.log := by
  induction l generalizing d with
  | nil => rfl
  | cons a t ih => exact (ih (f d a)).trans (hf d a)

theorem Device.finish_log (d : Device) (w : Wait) (status : Nat) (result : Bytes) : (d.finish w status result).log = d.log := by
  unfold Device.finish
  dsimp only
  refine (Device.log_foldl _ (fun d p => ?_) _ _).trans rfl
  cases p with
  | spi => rfl
  | ring node queue => exact d.reply_log _ _ _ _

theorem Device.completeFirst_alike (d : Device) (k : WaitKind) (status : Nat) (result : Bytes) :
    d.CountsAlike (d.completeFirst k status result) := by
  refine .of_log ?_ (by rw [(d.completeFirst_keeps k status result).power])
  unfold Device.completeFirst
  split
  · exact Device.finish_log _ _ _ _
  · rfl

/-! A change of the supply's state that leaves the assertion of shutdown-imminent alone. -/

theorem Device.count_modPower {g : Power → Power} {d : Device} (hg : (g d.power).shut = d.power.shut) (i n : Nat) :
    (d.modPower g).count i n = (d.count i n).modPower g := by
  unfold Device.count Device.modPower
  dsimp only
  rw [hg]
  split <;> rfl

theorem Device.logAppend_modPower {g : Power → Power} {d : Device} (hg : (g d.power).shut = d.power.shut) (r : BitVec 4096) :
    (d.modPower g).logAppend r = (d.logAppend r).modPower g := by
  let full : Bool := 2048 ≤ d.log.recs.length
  let x := d.modLog (fun l => { l with recs := (if full then l.recs.drop 1 else l.recs) ++ [r], writing := none })
  have hx : ((g (x.count cOverwritten full.toNat).power).shut = (x.count cOverwritten full.toNat).power.shut) := by
    rw [(x.count_keeps _ _).power]; exact hg
  show ((x.modPower g).count cOverwritten full.toNat).count cRecSeq _ = ((x.count cOverwritten full.toNat).count cRecSeq _).modPower g
  rw [Device.count_modPower (d := x) hg, Device.count_modPower hx]

theorem Device.firstFault_modPower {g : Power → Power} {d : Device} (hg : (g d.power).shut = d.power.shut) (r : BitVec 4096) :
    (d.modPower g).firstFault r = (d.firstFault r).modPower g := by
  unfold Device.firstFault
  rw [Device.count_modPower hg]
  unfold Device.modPower
  dsimp only
  rw [hg]
  split
  · rfl
  · split <;> rfl

theorem Device.sealDone_modPower (d : Device) (g : Power → Power) : (d.modPower g).sealDone = d.sealDone.modPower g := by
  unfold Device.sealDone
  show (match d.log.sealing with | none => _ | some x => _) = _
  cases d.log.sealing <;> rfl

theorem Device.withSealEntry_modPower (d : Device) (g : Power → Power) (r : BitVec 4096) :
    (d.modPower g).withSealEntry r = d.withSealEntry r := by
  unfold Device.withSealEntry
  show (match d.log.sealing with | none => _ | some x => _) = _
  cases d.log.sealing <;> rfl

theorem Device.recordCommitted_counters {g : Power → Power} {d : Device} (hg : (g d.power).shut = d.power.shut) (r : BitVec 4096) :
    ((d.modPower g).recordCommitted r).log.counters = (d.recordCommitted r).log.counters := by
  have ha : (d.logAppend r).power = d.power := (d.logAppend_keeps r).power
  unfold Device.recordCommitted
  rw [Device.logAppend_modPower hg, Device.firstFault_modPower (by rw [ha]; exact hg), Device.sealDone_modPower]
  generalize hx : ((d.logAppend r).firstFault r).sealDone = x
  have hpower : x.power = d.power := by
    obtain ⟨_, hk⟩ := Device.sealDone_keeps ((d.logAppend r).firstFault r)
    rw [← hx, hk.power]
    exact (Device.firstFault_keeps _ r).power.trans ha
  have halike : x.CountsAlike (x.modPower g) := .of_log rfl (by rw [← hpower] at hg; exact hg)
  dsimp only
  refine (Device.logReport_alike ?_).counters
  split
  · exact ((x.completeFirst_alike _ _ _).symm.trans halike).trans (Device.completeFirst_alike _ _ _ _)
  · exact halike

/-- The counters after the record that a reset finishes do not depend on the cause that it latches. -/
theorem Device.bbCommit_counters {g : Power → Power} {d : Device} (hg : (g d.power).shut = d.power.shut) :
    (d.modPower g).bbCommit.log.counters = d.bbCommit.log.counters := by
  have hw : (d.modPower g).log.writing = d.log.writing := rfl
  cases h : d.log.writing with
  | none => rw [Device.bbCommit_idle h, Device.bbCommit_idle (hw.trans h)]; rfl
  | some w =>
    rw [Device.bbCommit_writing h, Device.bbCommit_writing (hw.trans h), Device.withSealEntry_modPower]
    exact Device.recordCommitted_counters hg _

end Sys2Proof.Machine
end

section
/-! The rows that reset the device (R43, R65, R398, R400, R410, R439). -/

namespace Sys2Proof.Machine

open Sys2Proof

/-! The shape of a row that may reset. -/

/-- The state after a reset: the host port and what was to be told are lost with the C-die. -/
def State.restarted (s : State) (d : Device) : State :=
  { s with host := {}, dev := { d with wcp := { d.wcp with out := [], irq := 0 } } }

theorem resetRow_restarts {dt : Nat} {act : Device → Option Device} {s : State} {d : Device} (h : act (s.elapse dt).dev = some d) :
    resetRow dt act s = .next ((s.elapse dt).restarted d) := by
  unfold resetRow
  simp only [h]
  rfl

theorem resetRow_idles {dt : Nat} {act : Device → Option Device} {s : State} (h : act (s.elapse dt).dev = none) :
    Idles (resetRow dt act s) (s.elapse dt).dev := by
  unfold resetRow
  simp only [h]
  exact ⟨_, rfl, State.settle_rests _ _⟩

section
variable {s : State} {dt : Nat}

theorem exec_commandedResetTimer {at_ : Nat} {cause : Cause} (h : (s.elapse dt).dev.alive = true)
    (hat : (s.elapse dt).dev.wcp.resetAt = some (at_, cause)) (hdue : at_ ≤ (s.elapse dt).dev.now) :
    exec (.commandedResetTimer dt) s = .next ((s.elapse dt).restarted ((s.elapse dt).dev.reboot cause)) := by
  dsimp only [exec, execCommandedResetTimer]
  exact resetRow_restarts (by simp only [hat, h, hdue, decide_true, Bool.and_self, if_true])

theorem exec_deviceReset {cause : Cause} (h : (s.elapse dt).dev.alive = true) (hshuts : causeShuts cause = false) (hpor : cause ≠ .por) :
    exec (.deviceReset dt cause) s = .next ((s.elapse dt).restarted ((s.elapse dt).dev.reboot cause)) := by
  dsimp only [exec, execDeviceReset]
  exact resetRow_restarts (by simp [h, hshuts, hpor])

theorem exec_commandedResetTimer_idles
    (h : ∀ at_ cause, (s.elapse dt).dev.wcp.resetAt = some (at_, cause) → (s.elapse dt).dev.now < at_) :
    Idles (exec (.commandedResetTimer dt) s) (s.elapse dt).dev := by
  dsimp only [exec, execCommandedResetTimer]
  refine resetRow_idles ?_
  split
  · next at_ cause hat => exact if_neg (by simp [Nat.not_le.mpr (h at_ cause hat)])
  · rfl

theorem exec_deviceReset_idles {cause : Cause} (h : (s.elapse dt).dev.alive = false ∨ causeShuts cause = true ∨ cause = .por) :
    Idles (exec (.deviceReset dt cause) s) (s.elapse dt).dev := by
  dsimp only [exec, execDeviceReset]
  refine resetRow_idles (if_neg ?_)
  rcases h with h | h | h <;> simp [h]

theorem exec_rstNAssert_alive (width : Nat) (h : (s.elapse dt).dev.alive = true) :
    exec (.rstNAssert dt width) s = .next ((s.elapse dt).restarted (((s.elapse dt).dev.rstAssert width).reboot .rstN)) := by
  dsimp only [exec, execRstNAssert]
  rw [if_pos h]
  exact resetRow_restarts rfl

theorem exec_rstNAssert_down (width : Nat) (h : (s.elapse dt).dev.alive = false) :
    exec (.rstNAssert dt width) s = .next (State.settle { s.elapse dt with dev := (s.elapse dt).dev.rstAssert width } s.dev) := by
  dsimp only [exec, execRstNAssert]
  rw [if_neg (by rw [h]; exact Bool.false_ne_true)]
  rfl

theorem exec_lockstepMismatch (h : (s.elapse dt).dev.alive = true) :
    exec (.lockstepMismatch dt) s = .next ((s.elapse dt).restarted ((s.elapse dt).dev.reboot .lockstep)) := by
  dsimp only [exec, execLockstepMismatch]
  exact resetRow_restarts (if_pos h)

theorem exec_switchoverTimeout {at_ : Nat} (h : (s.elapse dt).dev.alive = true) (hat : (s.elapse dt).dev.sec.switchAt = some at_)
    (hdue : at_ + 8 * ms ≤ (s.elapse dt).dev.now) :
    exec (.switchoverTimeout dt) s = .next ((s.elapse dt).restarted ((s.elapse dt).dev.reboot .switchFail)) := by
  dsimp only [exec, execSwitchoverTimeout]
  exact resetRow_restarts (by simp only [hat, h, hdue, decide_true, Bool.and_self, if_true])

theorem exec_powerRemoval {at_ : Nat} {cause : Cause} (hat : (s.elapse dt).dev.power.shut = some (at_, cause))
    (hdue : at_ + 100 * us ≤ (s.elapse dt).dev.now) :
    exec (.powerRemoval dt) s = .next ((s.elapse dt).restarted ((s.elapse dt).dev.removed (at_ + 100 * us) cause)) := by
  dsimp only [exec, execPowerRemoval]
  exact resetRow_restarts (by simp only [hat, hdue, if_true])

theorem exec_aonMinimum : exec (.aonMinimum dt) s = .next ((s.elapse dt).restarted (s.elapse dt).dev.aonMinimum) := rfl

end

/-! The protocol after a reset (R43). -/

/-- The protocol's state holds its reset values, but for the numbers drawn. -/
def Device.ProtocolReset (d : Device) : Prop := d.wcp = { draws := d.wcp.draws }

theorem Device.cleared_protocolReset (d : Device) : d.cleared.ProtocolReset := rfl

theorem Device.reboot_protocolReset (d : Device) (cause : Cause) : (d.reboot cause).ProtocolReset := rfl

theorem Device.aonMinimum_protocolReset (d : Device) : d.aonMinimum.ProtocolReset := rfl

theorem Device.removed_protocolReset {d : Device} (at_ : Nat) (cause : Cause) (h : d.power.core = .boot ∨ d.power.core = .run) :
    (d.removed at_ cause).ProtocolReset := by
  have hdie : (decide (d.power.core = .boot) || decide (d.power.core = .run)) = true := by simpa using h
  unfold Device.removed
  rw [if_pos hdie]
  rfl

theorem State.restarted_wcp (s : State) {d : Device} (h : d.ProtocolReset) : (s.restarted d).dev.wcp = { draws := d.wcp.draws } := by
  show { d.wcp with out := [], irq := 0 } = _
  rw [h]

/-- After a reset no session is open, every mailbox is FREE and every byte of the windows reads zero (R43). -/
theorem State.restarted_closed (s : State) {d : Device} (h : d.ProtocolReset) :
    (∀ n, ((s.restarted d).dev.session n).isOpen = false) ∧ (∀ n : Fin 8, vget (s.restarted d).host.mb n.val .busy = .free) ∧
    (∀ a, Mem.read winDefault (s.restarted d).host.mem a = 0) ∧ (s.restarted d).dev.wcp.waits = [] ∧
    (s.restarted d).dev.wcp.replies = [] := by
  have hwcp := s.restarted_wcp h
  have hfree : ∀ n : Fin 8, vget ({} : HostPort).mb n.val .busy = .free := by decide
  refine ⟨fun n => ?_, hfree, fun _ => rfl, by rw [hwcp], by rw [hwcp]⟩
  have hclosed : ∀ k, k < 16 → (vget ({} : Wcp).sessions k {}).isOpen = false := by decide
  unfold Device.session
  rw [hwcp]
  by_cases hn : n < 16
  · exact hclosed n hn
  · simp [vget, hn]

/-- Settles O51: every row that resets leaves the protocol's reset values. -/
theorem resetClosesTheProtocol : Obligations.ResetClosesTheProtocol := by
  intro s dt width cause d closed
  refine ⟨fun h => ⟨?timer, ?reset, ?pin, ?lockstep, ?switchover⟩, ?removal, ?minimum⟩
  case timer => exact fun t hat hdue => .intro (exec_commandedResetTimer h hat hdue) (State.restarted_closed _ (Device.reboot_protocolReset _ _))
  case reset => exact fun hs hp => .intro (exec_deviceReset h hs hp) (State.restarted_closed _ (Device.reboot_protocolReset _ _))
  case pin => exact .intro (exec_rstNAssert_alive width h) (State.restarted_closed _ (Device.reboot_protocolReset _ _))
  case lockstep => exact .intro (exec_lockstepMismatch h) (State.restarted_closed _ (Device.reboot_protocolReset _ _))
  case switchover =>
    exact fun t hat hdue => .intro (exec_switchoverTimeout h hat hdue) (State.restarted_closed _ (Device.reboot_protocolReset _ _))
  case removal =>
    exact fun t c hat hdue hcore => .intro (exec_powerRemoval hat hdue) (State.restarted_closed _ (Device.removed_protocolReset _ _ hcore))
  case minimum => exact .intro exec_aonMinimum (State.restarted_closed _ (Device.aonMinimum_protocolReset _))

/-! What a reset that leaves the rails up keeps (R439). -/

/-- A device whose C-die was reset: what is held in MRAM and on the field die is that of the device before, the rest has its reset
values. -/
structure Device.Restarted (d d' : Device) : Prop where
  ready : d'.ready = false
  protocol : d'.ProtocolReset
  queues : d'.qs = {}
  cameras : d'.cams = {}
  histograms : d'.hist = {}
  fire : d'.fire = { budget := d.fire.budget, latch := d.fire.latch, faultAt := d.fire.faultAt, faultUntil := d.fire.faultUntil }
  lens : d'.rx.lens = d.rx.lens
  lin : d'.rx.lin = d.rx.lin
  zmaps : d'.ret.zmaps = d.ret.zmaps
  live : d'.cal.live = d.cal.live
  backup : d'.cal.backup = d.cal.backup
  rules : d'.core.rules = d.core.rules
  keys : d'.sec.keys = d.sec.keys
  fuses : d'.sec.fuses = d.sec.fuses
  lc : d'.sec.lc = d.sec.lc
  flash : d'.sec.flash = d.sec.flash
  boot : d'.sec.boot = d.sec.boot
  resv : d'.sec.resv = d.sec.resv
  counters : d'.log.counters = d.bbCommit.log.counters
  field : { d'.field with end_ := d.field.end_ } = d.field

theorem Device.cleared_restarted (d : Device) : d.Restarted d.cleared := by
  obtain ⟨x, hk⟩ := d.bbCommit_keeps
  constructor
  case fire => exact congrArg Fire.cleared hk.fire
  case lens => exact (congrArg Rx.lens hk.rx :)
  case lin => exact (congrArg Rx.lin hk.rx :)
  case zmaps => exact (congrArg Ret.zmaps hk.ret :)
  case live => exact (congrArg Cal.live hk.cal :)
  case backup => exact (congrArg Cal.backup hk.cal :)
  case rules => exact (congrArg CoreBridge.rules hk.core :)
  case keys => exact (congrArg Sec.keys hk.sec :)
  case fuses => exact (congrArg Sec.fuses hk.sec :)
  case lc => exact (congrArg Sec.lc hk.sec :)
  case flash => exact (congrArg Sec.flash hk.sec :)
  case boot => exact (congrArg Sec.boot hk.sec :)
  case resv => exact (congrArg Sec.resv hk.sec :)
  case field => exact (congrArg (fun f : Field => { f with end_ := d.field.end_ }) hk.field :)
  all_goals rfl

theorem Device.cleared_power (d : Device) : d.cleared.power = d.power.cleared := by
  obtain ⟨x, hk⟩ := d.bbCommit_keeps
  exact congrArg Power.cleared hk.power

/-- What is kept over a reset is kept whatever the supply's state, as long as shutdown-imminent is the same. -/
theorem Device.Restarted.of_modPower {d d' : Device} {g : Power → Power} (hg : (g d.power).shut = d.power.shut)
    (h : (d.modPower g).Restarted d') : d.Restarted d' :=
  { h with counters := h.counters.trans (Device.bbCommit_counters hg) }

theorem Device.Restarted.modPower {d d' : Device} (h : d.Restarted d') (g : Power → Power) : d.Restarted (d'.modPower g) :=
  { h with }

theorem Device.reboot_restarted (d : Device) (cause : Cause) : d.Restarted (d.reboot cause) := by
  unfold Device.reboot
  dsimp only
  split
  · exact (Device.cleared_restarted _).of_modPower rfl |>.modPower _
  · exact d.cleared_restarted.modPower _

/-- The cause latched is a shutdown's own where there is one. -/
theorem Device.reboot_power (d : Device) (cause : Cause) :
    (d.reboot cause).power.core = (if d.power.rstPin then .reset else .boot) ∧
    (d.reboot cause).power.cause = (if causeShuts cause || d.power.shut.isSome then d.power.cause else cause) := by
  unfold Device.reboot
  dsimp only
  cases hs : causeShuts cause <;> cases hp : d.power.shut
  all_goals
    simp only [Device.modPower, Device.cleared_power]
    exact ⟨rfl, rfl⟩

/-! RST_N while the C-die does not run, and its release. -/

/-- A start changes the supply's state and the bias generator. -/
theorem Device.powerUp_onlyIn (d : Device) : d.OnlyIn (.power :: .rx :: reports) d.powerUp := by
  intro p hp
  unfold Device.powerUp
  split <;> cases p <;> first | rfl | exact absurd (by decide) hp

/-- A start that need not wait brings the rails up in sequence, and the bias ramp begins 5 ms later (Table 14-3). -/
theorem Device.powerUp_now {d : Device} (h : d.power.offUntil ≤ d.now) :
    d.powerUp.power.core = .sequence ∧ d.powerUp.power.rstPin = d.power.rstPin ∧ d.powerUp.power.fault = 0 ∧
    d.powerUp.rx = { d.rx with biasOut := 0, biasTarget := 0, ramp := some (d.now + 5 * ms) } := by
  unfold Device.powerUp
  rw [if_neg (Nat.not_lt.mpr h)]
  exact ⟨rfl, rfl, rfl, rfl⟩

theorem Device.powerUp_pin (d : Device) : d.powerUp.power.rstPin = d.power.rstPin ∧ d.powerUp.power.thermLock = d.power.thermLock := by
  unfold Device.powerUp
  split <;> exact ⟨rfl, rfl⟩

/-- The pin is noted, and 10 ms of it end the lock. -/
def Power.pinned (p : Power) (width : Nat) : Power := { p with rstPin := true, thermLock := p.thermLock && width < 10 * ms }

/-- RST_N starts the device that the lock alone kept down, and is otherwise only noted. -/
theorem Device.rstAssert_eq (d : Device) (width : Nat) : d.rstAssert width =
    if d.power.thermLock = true ∧ 10 * ms ≤ width ∧ d.power.core = .off ∧ d.power.thermHold = false ∧ d.power.ovBarred = false ∧
      9500 ≤ d.power.vbat then (d.modPower (·.pinned width)).powerUp else d.modPower (·.pinned width) := by
  unfold Device.rstAssert
  dsimp only
  congr 1
  simp [and_assoc]

/-- While the C-die runs RST_N is only noted. -/
theorem Device.rstAssert_alive {d : Device} (width : Nat) (h : d.alive = true) : d.rstAssert width = d.modPower (·.pinned width) := by
  rw [Device.rstAssert_eq, if_neg]
  rintro ⟨-, -, hoff, -⟩
  simp [Device.alive, hoff] at h

theorem Device.modPower_onlyIn (d : Device) (g : Power → Power) : d.OnlyIn (.power :: .rx :: reports) (d.modPower g) := by
  intro p hp
  cases p <;> first | rfl | exact absurd (by decide) hp

theorem Device.rstAssert_effect (d : Device) (width : Nat) :
    (d.rstAssert width).power.rstPin = true ∧
    (d.rstAssert width).power.thermLock = (d.power.thermLock && decide (width < 10 * ms)) ∧
    d.OnlyIn (.power :: .rx :: reports) (d.rstAssert width) := by
  rw [Device.rstAssert_eq]
  split
  · exact ⟨(Device.powerUp_pin _).1, (Device.powerUp_pin _).2, (d.modPower_onlyIn _).trans (Device.powerUp_onlyIn _)⟩
  · exact ⟨rfl, rfl, d.modPower_onlyIn _⟩

/-- The release lets the C-die boot, and device time counts from 20 us before (R398). -/
theorem Device.rstRelease_reset {d : Device} (h : d.power.core = .reset) :
    d.rstRelease = { d.modPower (fun p => { p with rstPin := false, core := .boot }) with
      time := { clk := d.time.clk, releasedAt := d.now - 20 * us } } := by
  unfold Device.rstRelease
  simp [h, Device.modPower, Device.now]

theorem Device.rstRelease_run {d : Device} (h : d.power.core = .run) :
    d.rstRelease = d.modPower (fun p => { p with rstPin := false }) := by
  unfold Device.rstRelease
  simp [h]

theorem Device.rstRelease_standby {d : Device} (h : d.power.core = .standby) (hpin : d.power.rstPin = true) :
    d.rstRelease = (d.modPower (fun p => { p with rstPin := false })).powerUp := by
  unfold Device.rstRelease
  simp [h, hpin]

/-- A device event that stays within the supply, the bias generator and the reports answers a state that does. -/
theorem State.settle_devRow {ps : List Part} {d x : Device} (s : State) (old : Device) (h : d.OnlyIn ps x) (hr : reports ⊆ ps) :
    d.OnlyIn ps (State.settle { s with dev := x } old).dev :=
  State.settle_onlyIn ps d _ _ (hr (by decide)) (hr (by decide)) (hr (by decide)) h

/-- Settles O32: a reset clears the C-die after the record it finishes, which the latched cause does not touch; RST_N and its release
are device events by the state of the core. -/
theorem resetsKeepWhatIsStored : Obligations.ResetsKeepWhatIsStored := by
  intro s dt width cause d resets
  have restarts : ∀ {x : Host.Outcome State Fault Refusal} {c : Cause} {pin : Bool} {d' : Device},
      x = .next ((s.elapse dt).restarted d') → d.Restarted d' → d'.power.core = (if pin then .reset else .boot) →
      d'.power.cause = (if causeShuts c || d.power.shut.isSome then d.power.cause else c) → resets x c pin := by
    intro x c pin d' hx h hcore hcause
    refine .intro hx ?_
    have hwcp := (s.elapse dt).restarted_wcp h.protocol
    refine ⟨rfl, h.ready, hcore, hcause, ?_, ?_, ?_, h.queues, h.cameras, h.histograms, h.fire, h.lens, h.lin, h.zmaps, h.live,
      h.backup, h.rules, h.keys, h.fuses, h.lc, h.flash, h.boot, h.resv, h.counters, h.field⟩ <;> rw [hwcp]
  have reboots : ∀ {x : Host.Outcome State Fault Refusal} (c : Cause), x = .next ((s.elapse dt).restarted (d.reboot c)) →
      resets x c d.power.rstPin := fun c hx =>
    restarts hx (d.reboot_restarted c) (d.reboot_power c).1 (d.reboot_power c).2
  refine ⟨fun t h hat hdue => reboots cause (exec_commandedResetTimer h hat hdue), ?early, ?unset,
    fun h hs hp => reboots cause (exec_deviceReset h hs hp), ?barred, fun h => ?pin, fun h => ?down, fun h => ?release, fun h => ?run,
    fun h hpin hoff => ?standby⟩
  case early => exact fun t hat hearly => exec_commandedResetTimer_idles (fun t' c hat' => by
    obtain ⟨rfl, -⟩ := Prod.mk.inj (Option.some.inj (hat.symm.trans hat'))
    exact hearly)
  case unset => exact fun hat => exec_commandedResetTimer_idles (fun _ _ hat' => nomatch hat.symm.trans hat')
  case barred => exact fun h => exec_deviceReset_idles h
  case pin =>
    have hx := exec_rstNAssert_alive width h
    rw [Device.rstAssert_alive width h] at hx
    exact restarts hx (.of_modPower rfl (Device.reboot_restarted _ _)) (Device.reboot_power _ _).1 (Device.reboot_power _ _).2
  case down =>
    have hx := exec_rstNAssert_down width h
    obtain ⟨hpin, hlock, honly⟩ := d.rstAssert_effect width
    refine .intro hx ⟨?_, ?_, ?_, ?_, State.settle_devRow _ _ honly (by decide)⟩ <;> simp only [State.settle_parts]
    · exact hpin
    · exact hlock
    · intro hno
      rw [Device.rstAssert_eq, if_neg]
      · show d.power.pinned width = _
        have hstays : (d.power.thermLock && decide (width < 10 * ms)) = d.power.thermLock := by
          rcases hno with hno | hno <;> simp [hno]
        unfold Power.pinned
        rw [hstays]
      · rintro ⟨hlocked, hlong, -⟩
        rcases hno with hno | hno
        · exact absurd (hno.symm.trans hlocked) Bool.false_ne_true
        · exact absurd hlong (Nat.not_le.mpr hno)
    · intro hlocked hlong hoff hhold hbar hvbat hpast
      rw [Device.rstAssert_eq, if_pos ⟨hlocked, hlong, hoff, hhold, hbar, hvbat⟩]
      obtain ⟨hcore, -, -, hrx⟩ := Device.powerUp_now (d := d.modPower (·.pinned width)) hpast
      exact ⟨hcore, by rw [hrx]; rfl⟩
  case release =>
    refine .intro (devRow_next dt Device.rstRelease s) ?_
    rw [show (s.elapse dt).dev.rstRelease = _ from Device.rstRelease_reset h]
    refine ⟨?_, ?_, State.settle_devRow _ _ ?_ (by decide)⟩
    · simp only [State.settle_parts]; rfl
    · simp only [State.settle_parts]; rfl
    · intro p hp
      cases p <;> first | rfl | exact absurd (by decide) hp
  case run =>
    refine .intro (devRow_next dt Device.rstRelease s) ?_
    rw [show (s.elapse dt).dev.rstRelease = _ from Device.rstRelease_run h]
    refine ⟨?_, State.settle_devRow _ _ ?_ (by decide)⟩
    · simp only [State.settle_parts]; rfl
    · intro p hp
      cases p <;> first | rfl | exact absurd (by decide) hp
  case standby =>
    refine .intro (devRow_next dt Device.rstRelease s) ?_
    rw [show (s.elapse dt).dev.rstRelease = _ from Device.rstRelease_standby h hpin]
    obtain ⟨hcore, hpin', hfault, hrx⟩ := Device.powerUp_now (d := d.modPower (fun p => { p with rstPin := false })) hoff
    refine ⟨?_, ?_, ?_, ?_, State.settle_devRow _ _ ((d.modPower_onlyIn _).trans (Device.powerUp_onlyIn _)) (by decide)⟩ <;>
      simp only [State.settle_parts]
    · exact hcore
    · exact hpin'
    · exact hfault
    · exact hrx

end Sys2Proof.Machine
end

section
/-! The state right after reset (R38, R43, R439). -/

namespace Sys2Proof.Machine

open Sys2Proof

/-- Settles O3: the reset values stand in the state itself. -/
theorem resetStands : Obligations.ResetStands := by
  unfold Obligations.ResetStands
  refine ⟨⟨by decide, rfl, rfl, rfl, by decide, rfl, rfl, rfl, rfl, by decide, by decide, by decide, by decide, by decide⟩, ?_⟩
  exact ⟨by decide, by decide, by decide⟩

end Sys2Proof.Machine
end

section
/-! The rows of the host port, of the resets, of the boot and of the supply complete: each is an event of its own shape, whose condition is
among the hypotheses. -/

namespace Sys2Proof.Machine

open Sys2Proof

/-- A device event whose effect is known. -/
theorem devRow_runs {dt : Nat} {s : State} {f : Device → Device} {x : Device} (hf : f (s.elapse dt).dev = x) :
    devRow dt f s = .next (State.settle { s.elapse dt with dev := x } s.dev) := by
  rw [devRow_next, hf]

/-- An event of the running firmware whose effect is known. -/
theorem fwRow_runs {dt : Nat} {s : State} {f : Device → Device} {x : Device} (h : (s.elapse dt).dev.alive = true)
    (hr : (s.elapse dt).dev.ready = true) (hf : f (s.elapse dt).dev = x) :
    fwRow dt f s = .next (State.settle { s.elapse dt with dev := x } s.dev) := by
  rw [fwRow_next dt f s h hr, hf]

/-- A transaction of the host port whose effect is known. -/
theorem hostRow_runs {dt : Nat} {s : State} {f : State → State} {x : State} (h : (s.elapse dt).dev.alive = true)
    (hi : s.host.ignoring = false) (hf : f (s.elapse dt) = x) : hostRow dt f s = .next (State.settle x s.dev) := by
  rw [hostRow_next dt f s h hi, hf]

/-- Settles O57: host rows, events of the firmware, resets and events of the supply, each by the shape of its row. -/
theorem hostAndSupplyRowsComplete : Obligations.HostAndSupplyRowsComplete := by
  intro s dt
  dsimp only [exec]
  refine ⟨fun _ h hi => hostRow_runs h hi rfl, fun _ h hi => hostRow_runs h hi rfl, fun _ h hi => hostRow_runs h hi rfl,
    fun _ _ _ h hi => hostRow_runs h hi rfl, fun _ _ _ h hi => hostRow_runs h hi rfl, fun _ _ _ h hi => hostRow_runs h hi rfl,
    fun _ _ _ h hi => hostRow_runs h hi rfl, ?release, fun _ h hi hop => hostRow_runs h hi (by rw [hop, if_neg Bool.false_ne_true]),
    fun _ h hr => fwRow_runs h hr rfl, fun _ h hr => fwRow_runs h hr rfl, fun _ h hr => fwRow_runs h hr rfl,
    fun _ _ hat h hdue => exec_commandedResetTimer h hat hdue, fun _ h hs hp => exec_deviceReset h hs hp,
    fun width h => exec_rstNAssert_alive width h, fun width h => exec_rstNAssert_down width h, devRow_runs rfl,
    fun _ hboot hready => execBoot_runs hboot hready, fun _ => devRow_runs rfl, fun _ hf h => execFunctionRestart_core hf h, ?fieldFn,
    fun _ h hr => fwRow_runs h hr rfl, fun h => exec_lockstepMismatch h, fun h hr => fwRow_runs h hr rfl, fun h hr => fwRow_runs h hr rfl,
    fun _ hat h hdue => exec_switchoverTimeout h hat hdue, fun _ h hr => fwRow_runs h hr rfl, fun _ h hr => fwRow_runs h hr rfl,
    fun _ _ => devRow_runs rfl, fun _ => devRow_runs rfl, fun _ hlow => devRow_runs (if_pos hlow), fun _ hhigh => devRow_runs (if_pos hhigh),
    exec_aonMinimum, fun _ _ => devRow_runs rfl, fun _ _ => devRow_runs rfl, fun _ hs => devRow_runs (if_pos hs),
    fun _ _ hat hdue => exec_powerRemoval hat hdue, ?expiry, ?wake, fun _ => devRow_runs rfl, fun _ _ => devRow_runs rfl,
    fun _ _ => devRow_runs rfl, fun _ => devRow_runs rfl, fun _ _ _ _ => devRow_runs rfl, fun _ _ _ _ => devRow_runs rfl,
    fun h hr => fwRow_runs h hr rfl, fun _ _ he hundef hserves => execUndefined_offered ⟨hserves, he, rfl⟩ hundef,
    fun _ => devRow_runs rfl, fun _ _ => devRow_runs rfl⟩
  case release => exact fun cut h => by rw [execHostCsNRelease, if_pos h]
  case fieldFn =>
    intro f hf hrun
    rw [execFunctionRestart, if_pos hf]
    exact fieldRow_next dt (fun d => d.restart f) s hrun
  case expiry => exact fun hdue hpast hdown => devRow_runs (if_pos (by rw [hdue, decide_eq_true hpast, hdown]; rfl))
  case wake => exact fun _ hstandby hlong => devRow_runs (if_pos (by rw [decide_eq_true hstandby, decide_eq_true hlong]; rfl))

end Sys2Proof.Machine
end

section
/-! Events, slices, cells, the command protocol and the functions leave the kill latch alone (R97). -/

namespace Sys2Proof.Machine

open Sys2Proof

/-! The latch through a choice and through a fold. -/

@[simp] theorem Device.latch_ite (c : Prop) [Decidable c] (a b : Device) :
    (if c then a else b).fire.latch = if c then a.fire.latch else b.fire.latch :=
  apply_ite (fun x : Device => x.fire.latch) c a b

@[simp] theorem Device.latch_foldl {α : Type} (f : Device → α → Device) (hf : ∀ d a, (f d a).fire.latch = d.fire.latch) (l : List α)
    (d : Device) : (l.foldl f d).fire.latch = d.fire.latch := by
  induction l generalizing d with
  | nil => rfl
  | cons a t ih => exact (ih _).trans (hf d a)

/-- The same of a fold that carries a value beside the device. -/
@[simp] theorem Device.latch_foldl_fst {α β : Type} (f : Device × β → α → Device × β) (hf : ∀ x a, (f x a).1.fire.latch = x.1.fire.latch)
    (l : List α) (x : Device × β) : (l.foldl f x).1.fire.latch = x.1.fire.latch := by
  induction l generalizing x with
  | nil => rfl
  | cons a t ih => exact (ih _).trans (hf x a)

theorem Fire.foldl_latch {α : Type} (f : Fire → α → Fire) (hf : ∀ x a, (f x a).latch = x.latch) (l : List α) (x : Fire) :
    (l.foldl f x).latch = x.latch := by
  induction l generalizing x with
  | nil => rfl
  | cons a t ih => exact (ih _).trans (hf x a)

variable (d : Device)

@[simp] theorem Device.raiseAt_latch (time : BitVec 64) (id source payload : Nat) : (d.raiseAt time id source payload).fire.latch = d.fire.latch := by
  simp [Device.raiseAt]

@[simp] theorem Device.irq_latch (b : Nat) : (d.irq b).fire.latch = d.fire.latch := by simp [Device.irq]

@[simp] theorem Device.windowEnd_latch (ev source sub : Nat) : (d.windowEnd ev source sub).fire.latch = d.fire.latch := by
  unfold Device.windowEnd
  split <;> simp

@[simp] theorem Device.countShutdown_latch (c : Cause) : (d.countShutdown c).fire.latch = d.fire.latch := by simp [Device.countShutdown]

@[simp] theorem Device.raiseRecAt_latch (time : BitVec 64) (id source payload kind severity : Nat) (extra : Bytes) :
    (d.raiseRecAt time id source payload kind severity extra).fire.latch = d.fire.latch := by
  simp [Device.raiseRecAt]

@[simp] theorem Device.integrity_latch (cls idx act : Nat) : (d.integrity cls idx act).fire.latch = d.fire.latch := by simp [Device.integrity]
@[simp] theorem Device.intact_latch (cls idx : Nat) : (d.intact cls idx).fire.latch = d.fire.latch := by simp [Device.intact]

@[simp] theorem Device.sliceCut_latch (x : SliceRun) (cause aborts : Nat) (r : Option SliceResult) (put : Bist → Bist) :
    (d.sliceCut x cause aborts r put).fire.latch = d.fire.latch := by
  simp [Device.sliceCut, Device.bistIncomplete]

@[simp] theorem Device.sliceAbort_latch (bus : Bool) : (d.sliceAbort bus).fire.latch = d.fire.latch := by
  unfold Device.sliceAbort
  split <;> simp

@[simp] theorem Device.sliceLoss_latch (cause : Nat) : (d.sliceLoss cause).fire.latch = d.fire.latch := by
  unfold Device.sliceLoss
  split <;> simp

@[simp] theorem Device.serve_latch (rows : List Nat) : (d.serve rows).fire.latch = d.fire.latch := by simp [Device.serve]
@[simp] theorem Device.serveOrWait_latch (rows : List Nat) : (d.serveOrWait rows).fire.latch = d.fire.latch := by simp [Device.serveOrWait]

@[simp] theorem Device.mram_latch (general : Bool) (write : Device → Device) (h : ∀ d, (write d).fire.latch = d.fire.latch) :
    (d.mram general write).fire.latch = d.fire.latch := by
  unfold Device.mram
  split
  · rfl
  · rw [h]; split <;> simp

@[simp] theorem Device.serveBank_latch (b : Nat) (waits : Bool) : (d.serveBank b waits).fire.latch = d.fire.latch := by simp [Device.serveBank]

@[simp] theorem Device.fillOne_latch (p n : Nat) : (d.fillOne p n).1.fire.latch = d.fire.latch := by
  unfold Device.fillOne
  dsimp only
  (repeat' split) <;> simp

@[simp] theorem Device.fillQueue_latch (p n k : Nat) : (d.fillQueue p n k).fire.latch = d.fire.latch := by
  simp [(d.fillQueue_near p n k).keeps.fire]

@[simp] theorem Device.fillX9_latch (p : Nat) : (d.fillX9 p).fire.latch = d.fire.latch := by simp [Device.fillX9]

@[simp] theorem Device.dropUnit_latch (n : Nat) (u : QUnit) (reason : Nat) : (d.dropUnit n u reason).fire.latch = d.fire.latch := by
  simp [Device.dropUnit]

@[simp] theorem Device.dropOldest_latch (n reason : Nat) : (d.dropOldest n reason).1.fire.latch = d.fire.latch := by
  unfold Device.dropOldest
  split <;> simp

@[simp] theorem Device.releases_latch (n : Nat) : (d.releases n).fire.latch = d.fire.latch := by simp [Device.releases]
@[simp] theorem Device.startsFirst_latch (n len : Nat) : (d.startsFirst n len).fire.latch = d.fire.latch := by simp [Device.startsFirst]

@[simp] theorem Device.findCells_latch (n : Nat) (need : Queue → Nat) (k : Nat) : (d.findCells n need k).1.fire.latch = d.fire.latch := by
  simp [(d.findCells_near n need k).keeps.fire]

@[simp] theorem Device.store_latch (n src : Nat) (data : Bytes) : (d.store n src data).fire.latch = d.fire.latch := by simp [Device.store]

@[simp] theorem Device.putStreamAt_latch (time n : Nat) (mayWait : Bool) (flags type recsize records info : Nat) (body : Bytes) :
    (d.putStreamAt time n mayWait flags type recsize records info body).1.fire.latch = d.fire.latch := by
  simp [Device.putStreamAt]

@[simp] theorem Device.closeEvents_latch : (d.closeEvents).fire.latch = d.fire.latch := by simp [Device.closeEvents]

@[simp] theorem Device.closeFull_latch (k : Nat) : (d.closeFull k).fire.latch = d.fire.latch := by
  simp [(d.closeFull_near k).keeps.fire]

@[simp] theorem Device.bind_latch (b : Binder) (old new : Nat) : (d.bind b old new).fire.latch = d.fire.latch := by simp [Device.bind]

@[simp] theorem Device.modLastReply_latch (f : Reply → Reply) : (d.modLastReply f).fire.latch = d.fire.latch := by
  unfold Device.modLastReply
  split <;> simp

@[simp] theorem Device.scheduleReset_latch (len : Nat) (cause : Cause) : (d.scheduleReset len cause).fire.latch = d.fire.latch := by
  simp [Device.scheduleReset]

@[simp] theorem Device.completeFirst_latch (k : WaitKind) (status : Nat) (result : Bytes) :
    (d.completeFirst k status result).fire.latch = d.fire.latch := by
  unfold Device.completeFirst
  split <;> simp

@[simp] theorem Device.mirrorOut_latch (k : Nat) : (d.mirrorOut k).fire.latch = d.fire.latch := by
  simp [(d.mirrorOut_near k).keeps.fire]

@[simp] theorem Device.putFn_latch (i : FnId) (f : Fn) : (d.putFn i f).fire.latch = d.fire.latch := by
  unfold Device.putFn
  split <;> simp

@[simp] theorem Device.modFn_latch (i : FnId) (f : Fn → Fn) : (d.modFn i f).fire.latch = d.fire.latch := by simp [Device.modFn]
@[simp] theorem Device.reachOn_latch (i : FnId) : (d.reachOn i).fire.latch = d.fire.latch := by simp [Device.reachOn]
@[simp] theorem Device.reachOff_latch (i : FnId) (minOff : Nat) : (d.reachOff i minOff).fire.latch = d.fire.latch := by simp [Device.reachOff]
@[simp] theorem Device.beginStop_latch (i : FnId) (len : Nat) : (d.beginStop i len).fire.latch = d.fire.latch := by simp [Device.beginStop]

@[simp] theorem Device.faultStop_latch (i : FnId) (len : Nat) : (d.faultStop i len).fire.latch = d.fire.latch := by
  unfold Device.faultStop
  split <;> simp

@[simp] theorem Device.enableFn_latch (i : FnId) (slow : Bool) (start : Device → Device) (h : ∀ d, (start d).fire.latch = d.fire.latch) :
    (d.enableFn i slow start).1.fire.latch = d.fire.latch := by
  unfold Device.enableFn
  dsimp only
  split <;> simp [h]

@[simp] theorem Device.disableFn_latch (i : FnId) (slow : Bool) (stop : Device → Device) (h : ∀ d, (stop d).fire.latch = d.fire.latch) :
    (d.disableFn i slow stop).1.fire.latch = d.fire.latch := by
  unfold Device.disableFn
  dsimp only
  split <;> simp [h]

end Sys2Proof.Machine
end

section
/-! Sealed parameters, plans, the receiver, histograms, returns and the calibration leave the kill latch alone (R97). -/

namespace Sys2Proof.Machine

open Sys2Proof

variable (d : Device)

@[simp] theorem Device.replyGone_latch (r : Reply) (rest : List Reply) (lost : Nat) : (d.replyGone r rest lost).fire.latch = d.fire.latch := by
  unfold Device.replyGone
  split <;> simp

@[simp] theorem Device.retryReply_latch (accepted : Bool) : (d.retryReply accepted).fire.latch = d.fire.latch := by
  unfold Device.retryReply
  split <;> simp [Device.replyAgain]

@[simp] theorem Device.sessionOpen_latch (e : Env) (d : Device) : (d.sessionOpen e).1.fire.latch = d.fire.latch := by
  unfold Device.sessionOpen
  dsimp only
  (repeat' split) <;> simp [Device.openSession]

@[simp] theorem Device.afterReply_latch (cause : Cause) : (d.afterReply cause).fire.latch = d.fire.latch := by simp [Device.afterReply]

@[simp] theorem Device.resetAfterReply_latch (old new : Device) : (old.resetAfterReply new).fire.latch = new.fire.latch := by
  simp [(Device.resetAfterReply_keeps old new).fire]

@[simp] theorem Device.sealRecord_latch (x : SealPart) : (d.sealRecord x).fire.latch = d.fire.latch := by simp [Device.sealRecord]

@[simp] theorem Device.sealChange_latch (c : Ctx) (cmdId order old : Nat) : (d.sealChange c cmdId order old).fire.latch = d.fire.latch := by
  simp [Device.sealChange]

@[simp] theorem Device.pendingEffect_latch (order : Nat) (v : Bool) : (d.pendingEffect order v).fire.latch = d.fire.latch := by
  simp [Device.pendingEffect]

@[simp] theorem Device.recoverParam_latch (order : Nat) : (d.recoverParam order).fire.latch = d.fire.latch := by simp [Device.recoverParam]

@[simp] theorem Device.commitPlan_latch (plan : Nat) : (d.commitPlan plan).1.fire.latch = d.fire.latch := by
  unfold Device.commitPlan
  split <;> simp

@[simp] theorem Device.dirty_latch : (d.dirty).fire.latch = d.fire.latch := by simp [Device.dirty]
@[simp] theorem Device.dirtyGroup_latch : (d.dirtyGroup).fire.latch = d.fire.latch := by simp [Device.dirtyGroup]

@[simp] theorem Device.vbdDone_latch (counts : List Nat) : (d.vbdDone counts).fire.latch = d.fire.latch := by
  unfold Device.vbdDone
  split <;> simp

@[simp] theorem Device.holdoffTimer_latch : (d.holdoffTimer).fire.latch = d.fire.latch := by
  unfold Device.holdoffTimer
  split <;> simp

@[simp] theorem Device.surveyDone_latch (counts : List Nat) : (d.surveyDone counts).fire.latch = d.fire.latch := by
  unfold Device.surveyDone
  split <;> simp

@[simp] theorem Device.abandonUnit_latch (p reason : Nat) : (d.abandonUnit p reason).fire.latch = d.fire.latch := by simp [Device.abandonUnit]
@[simp] theorem Device.histEvent_latch : (d.histEvent).fire.latch = d.fire.latch := by simp [Device.histEvent]
@[simp] theorem Device.exportStart_latch : (d.exportStart).fire.latch = d.fire.latch := by simp [Device.exportStart]
@[simp] theorem Device.exportStop_latch : (d.exportStop).fire.latch = d.fire.latch := by simp [Device.exportStop]
@[simp] theorem Device.exportOff_latch : (d.exportOff).fire.latch = d.fire.latch := by simp [Device.exportOff]

@[simp] theorem Device.holdTimeout_latch : (d.holdTimeout).fire.latch = d.fire.latch := by
  unfold Device.holdTimeout
  split <;> simp

@[simp] theorem Device.writeOcc_latch (b : BitVec 768) : (d.writeOcc b).fire.latch = d.fire.latch := by simp [Device.writeOcc, Device.zoneEvents]
@[simp] theorem Device.setZones_latch (f : Nat → Nat × Nat → Nat × Nat) : (d.setZones f).fire.latch = d.fire.latch := by simp [Device.setZones]

@[simp] theorem Device.lookZone_latch (m : BitVec 8320) (map z : Nat) (l : Option (Bool × Nat)) (p : Nat × Nat) :
    (d.lookZone m map z l p).1.fire.latch = d.fire.latch := by
  unfold Device.lookZone
  split <;> simp

@[simp] theorem Device.zoneWatch_latch (m : BitVec 8320) (ok : Bool) (map : Nat) (offset : Int) (frame group : Nat) (chans : List ZoneChan) :
    (d.zoneWatch m ok map offset frame group chans).fire.latch = d.fire.latch := by
  unfold Device.zoneWatch
  split
  · rfl
  · simp

@[simp] theorem Device.zoneBlind_latch (z : Nat) : (d.zoneBlind z).fire.latch = d.fire.latch := by
  unfold Device.zoneBlind
  split <;> simp

@[simp] theorem Device.zmapsStart_latch : d.zmapsStart.fire.latch = d.fire.latch := by
  unfold Device.zmapsStart
  split
  · rfl
  · lift_lets
    extract_lets changed loaded
    exact (Device.pendingEffect_latch _ 3 false).trans (loaded.setZones_latch _)

@[simp] theorem Device.windowSlot_latch (s : Nat) : (d.windowSlot s).fire.latch = d.fire.latch := by
  unfold Device.windowSlot
  dsimp only
  (repeat' split) <;> simp

@[simp] theorem Device.learnDone_latch : (d.learnDone).fire.latch = d.fire.latch := by
  unfold Device.learnDone
  split <;> simp

@[simp] theorem Device.calEvent_latch (applied : Bool) (reason : Nat) : (d.calEvent applied reason).fire.latch = d.fire.latch := by
  simp [Device.calEvent]

@[simp] theorem Device.refDone_latch (m : List Int) : (d.refDone m).fire.latch = d.fire.latch := by
  unfold Device.refDone
  split <;> simp

@[simp] theorem Device.commitSet_latch (v : BitVec 37888) : (d.commitSet v).fire.latch = d.fire.latch := by simp [Device.commitSet]
@[simp] theorem Device.calAbort_latch : (d.calAbort).fire.latch = d.fire.latch := by simp [Device.calAbort]

@[simp] theorem Device.calGroup_latch (g : Group) (seen : List CalSeen) : (d.calGroup g seen).fire.latch = d.fire.latch := by
  unfold Device.calGroup
  split <;> simp

@[simp] theorem Device.calFullDone_latch : (d.calFullDone).fire.latch = d.fire.latch := by
  unfold Device.calFullDone
  split <;> simp [Device.calFinish]

@[simp] theorem Device.notExported_latch : (d.notExported).fire.latch = d.fire.latch := by simp [Device.notExported]

@[simp] theorem Device.takePlane_latch (g : Group) : (d.takePlane g).fire.latch = d.fire.latch := by
  unfold Device.takePlane
  (repeat' split) <;> simp

@[simp] theorem Device.emptyUnit_latch (g : Group) : (d.emptyUnit g).1.fire.latch = d.fire.latch := by
  unfold Device.emptyUnit
  split <;> simp

@[simp] theorem Device.handover_latch : (d.handover).fire.latch = d.fire.latch := by
  unfold Device.handover
  (repeat' split) <;> simp [Device.rateHandover, Device.trackDelays]

@[simp] theorem Device.captureHold_latch (g : Group) (exports : Bool) : (d.captureHold g exports).fire.latch = d.fire.latch := by
  unfold Device.captureHold
  split <;> simp

@[simp] theorem Device.procStart_latch : (d.procStart).fire.latch = d.fire.latch := by
  unfold Device.procStart
  (repeat' split) <;> simp

@[simp] theorem Device.procEnd_latch : (d.procEnd).fire.latch = d.fire.latch := by
  unfold Device.procEnd
  (repeat' split) <;> simp [Device.procFinish, Device.windowGroup, Device.windowFrame, Device.closePlane]

@[simp] theorem Device.exportChunk_latch : (d.exportChunk).fire.latch = d.fire.latch := by
  unfold Device.exportChunk
  dsimp only
  (repeat' split) <;> simp [Device.drained]

@[simp] theorem Device.importEvent_latch (reason : Nat) : (d.importEvent reason).fire.latch = d.fire.latch := by simp [Device.importEvent]

@[simp] theorem Device.importDequeue_latch : (d.importDequeue).fire.latch = d.fire.latch := by
  unfold Device.importDequeue
  dsimp only
  (repeat' split) <;> simp

@[simp] theorem Device.importDone_latch : (d.importDone).fire.latch = d.fire.latch := by
  unfold Device.importDone
  dsimp only
  (repeat' split) <;> simp

end Sys2Proof.Machine
end

section
/-! Triggers, starts and stops, frames and groups leave the kill latch alone (R97). -/

namespace Sys2Proof.Machine

open Sys2Proof

@[simp] theorem Fire.roll_latch (f : Fire) (gov : Nat) : (f.roll gov).latch = f.latch := rfl

@[simp] theorem Fire.followFrame_latch (f : Fire) (fieldOk : Bool) (ua now : Nat) : (f.followFrame fieldOk ua now).latch = f.latch := by
  unfold Fire.followFrame
  dsimp only
  (repeat' split) <;> rfl

variable (d : Device)

@[simp] theorem Device.modFire_latch (f : Fire → Fire) (h : ∀ x, (f x).latch = x.latch) : (d.modFire f).fire.latch = d.fire.latch := h _
@[simp] theorem Device.fireEvent_latch : (d.fireEvent).fire.latch = d.fire.latch := by simp [Device.fireEvent]
@[simp] theorem Device.countTrig_latch : (d.countTrig).fire.latch = d.fire.latch := by simp [Device.countTrig]
@[simp] theorem Device.acceptTrig_latch (t : Trig) : (d.acceptTrig t).fire.latch = d.fire.latch := by simp [Device.acceptTrig]

@[simp] theorem Device.promote_latch : (d.promote).fire.latch = d.fire.latch := by
  unfold Device.promote
  split <;> simp

@[simp] theorem Device.holdTrig_latch (t : Trig) : (d.holdTrig t).fire.latch = d.fire.latch := by simp [Device.holdTrig]

@[simp] theorem Device.restartTrig_latch (t : Trig) : (d.restartTrig t).fire.latch = d.fire.latch := by
  unfold Device.restartTrig
  (repeat' split) <;> simp [Device.endFrameNow]

@[simp] theorem Device.trigger_latch (t : Trig) : (d.trigger t).fire.latch = d.fire.latch := by simp [Device.trigger]
@[simp] theorem Device.reportTrig_latch : (d.reportTrig).fire.latch = d.fire.latch := by simp [Device.reportTrig]
@[simp] theorem Device.calHoldCheck_latch : (d.calHoldCheck).fire.latch = d.fire.latch := by simp [Device.calHoldCheck]
@[simp] theorem Device.applyTrigger_latch (src pol : Nat) : (d.applyTrigger src pol).fire.latch = d.fire.latch := by simp [Device.applyTrigger]
@[simp] theorem Device.internalTrigger_latch : (d.internalTrigger).fire.latch = d.fire.latch := by simp [Device.internalTrigger]

@[simp] theorem Device.calendarInstant_latch : (d.calendarInstant).fire.latch = d.fire.latch := by
  unfold Device.calendarInstant
  split <;> simp

@[simp] theorem Device.calendarEpoch_latch : (d.calendarEpoch).fire.latch = d.fire.latch := by
  unfold Device.calendarEpoch
  split <;> simp

@[simp] theorem Device.setCalendar_latch (c : BitVec 2176) : (d.setCalendar c).fire.latch = d.fire.latch := by simp [Device.setCalendar]

@[simp] theorem Device.rawUnit_latch (g : Group) : (d.rawUnit g).fire.latch = d.fire.latch := by
  unfold Device.rawUnit
  split <;> simp

@[simp] theorem Device.openGap_latch : (d.openGap).fire.latch = d.fire.latch := by simp [Device.openGap]

@[simp] theorem Device.endGroup_latch (g : Group) : (d.endGroup g).fire.latch = d.fire.latch := by
  unfold Device.endGroup
  lift_lets
  extract_lets f whole cut late g' closed hot queued marked ended stopped gapped
  have hended : ended.fire.latch = d.fire.latch := by simp [ended, marked, queued, closed, Fire.endRuns]
  clear_value ended
  split
  · split <;> simp [gapped, stopped, hended]
  · exact hended

@[simp] theorem Device.enterStopping_latch : (d.enterStopping).fire.latch = d.fire.latch := by
  unfold Device.enterStopping
  dsimp only
  (repeat' split) <;> simp

@[simp] theorem Device.fireFaultStop_latch : (d.fireFaultStop).fire.latch = d.fire.latch := by simp [Device.fireFaultStop]
@[simp] theorem Device.fireStart_latch : (d.fireStart).fire.latch = d.fire.latch := by simp [Device.fireStart]
@[simp] theorem Device.enterOn_latch : (d.enterOn).fire.latch = d.fire.latch := by simp [Device.enterOn]

@[simp] theorem Device.cancelEdges_latch (t : Nat) : (d.cancelEdges t).fire.latch = d.fire.latch := by
  unfold Device.cancelEdges
  split
  · rfl
  · lift_lets
    extract_lets f off slots freed gone
    have hfreed : freed.latch = f.latch := by
      refine Fire.foldl_latch _ (fun x s => ?_) off f
      rfl
    exact hfreed

@[simp] theorem Device.startExport_latch : (d.startExport).fire.latch = d.fire.latch := by simp [Device.startExport]

@[simp] theorem Device.fireStopDone_latch : (d.fireStopDone).fire.latch = d.fire.latch := by
  unfold Device.fireStopDone
  (repeat' split) <;> simp [Device.fireOff]

@[simp] theorem Device.emitterRecord_latch (id source payload slot stripe misses : Nat) :
    (d.emitterRecord id source payload slot stripe misses).fire.latch = d.fire.latch := by
  simp [Device.emitterRecord]

@[simp] theorem Device.budgetCheck_latch : d.budgetCheck.fire.latch = d.fire.latch := by
  unfold Device.budgetCheck
  (repeat' split) <;> simp [Fire.restartSums]

@[simp] theorem Device.biasEvent_latch (applied : Nat) (began : Bool) : (d.biasEvent applied began).fire.latch = d.fire.latch := by
  simp [Device.biasEvent]

@[simp] theorem Device.holdStart_latch : (d.holdStart).fire.latch = d.fire.latch := by simp [Device.holdStart]
@[simp] theorem Device.startPlan_latch (frame : Nat) : (d.startPlan frame).fire.latch = d.fire.latch := by simp [Device.startPlan]
@[simp] theorem Device.startRx_latch : (d.startRx).fire.latch = d.fire.latch := by simp [Device.startRx]

@[simp] theorem Device.startCal_latch (changed : Bool) (frame : Nat) : (d.startCal changed frame).fire.latch = d.fire.latch := by
  unfold Device.startCal
  dsimp only
  (repeat' split) <;> simp

@[simp] theorem Device.channelEvent_latch (code ch : Nat) (bySelfTest : Bool) (spare : Option Nat) :
    (d.channelEvent code ch bySelfTest spare).fire.latch = d.fire.latch := by
  simp [Device.channelEvent]

@[simp] theorem Device.startSpares_latch (layouts : List (BitVec 64)) : (d.startSpares layouts).fire.latch = d.fire.latch := by
  simp [Device.startSpares]

@[simp] theorem Device.startTables_latch : (d.startTables).fire.latch = d.fire.latch := by simp [Device.startTables]

@[simp] theorem Device.frameBegin_latch : d.frameBegin.fire.latch = d.fire.latch := by
  unfold Device.frameBegin
  lift_lets
  extract_lets frame reported applied planned seeded followed changed received calibrated descs layoutOf freed tabled cams synced started
  have happlied : applied.fire.latch = d.fire.latch := by
    simp only [applied]
    split <;> simp [reported]
  have hfollowed : followed.fire.latch = d.fire.latch := by simp [followed, seeded, planned, happlied]
  clear_value followed
  simp [started, synced, tabled, freed, calibrated, received, hfollowed, Fire.startFrame]

@[simp] theorem Device.groupStart_latch (off : Int) : (d.groupStart off).fire.latch = d.fire.latch := by
  unfold Device.groupStart
  dsimp only
  (repeat' split) <;> simp [Device.groupBegin, Device.calCheck, Device.startBias, Device.startLin, Device.startMap, Device.hotEvents]

@[simp] theorem Device.doseEvent_latch (f : Fire) (g : Group) (s : Nat) : (d.doseEvent f g s).fire.latch = d.fire.latch := by simp [Device.doseEvent]

@[simp] theorem Device.tap_latch (g : Group) (ch : Nat) (w : Word) : (d.tap g ch w).fire.latch = d.fire.latch := by
  unfold Device.tap
  split <;> simp

@[simp] theorem Device.accepted_latch (g : Group) (x : SlotRun) (ch t : Nat) (sh : ChShot) : (d.accepted g x ch t sh).fire.latch = d.fire.latch := by
  simp [Device.accepted]

@[simp] theorem Device.photon_latch (ch t : Nat) (ages : List Nat) : (d.photon ch t ages).fire.latch = d.fire.latch := by
  unfold Device.photon
  (repeat' split) <;> simp

end Sys2Proof.Machine
end

section
/-! The ring, the queues and the cameras leave the kill latch alone (R97). -/

namespace Sys2Proof.Machine

open Sys2Proof

variable (d : Device)

@[simp] theorem Device.subEvent_latch (n who code cause : Nat) : (d.subEvent n who code cause).fire.latch = d.fire.latch := by simp [Device.subEvent]
@[simp] theorem Device.queueEvent_latch (n : Nat) : (d.queueEvent n).fire.latch = d.fire.latch := by simp [Device.queueEvent]
@[simp] theorem Device.dropSub_latch (n who cause : Nat) : (d.dropSub n who cause).fire.latch = d.fire.latch := by simp [Device.dropSub]
@[simp] theorem Device.queueOff_latch (n : Nat) : (d.queueOff n).fire.latch = d.fire.latch := by simp [Device.queueOff]
@[simp] theorem Device.queueSettle_latch (n : Nat) : (d.queueSettle n).fire.latch = d.fire.latch := by simp [Device.queueSettle]
@[simp] theorem Device.abandon_latch (n who : Nat) (f : QUnit → Bool) : (d.abandon n who f).fire.latch = d.fire.latch := by simp [Device.abandon]

@[simp] theorem Device.subSettle_latch (n who : Nat) : (d.subSettle n who).fire.latch = d.fire.latch := by
  unfold Device.subSettle
  split <;> simp

@[simp] theorem Device.endSub_latch (n who cause : Nat) : (d.endSub n who cause).fire.latch = d.fire.latch := by
  unfold Device.endSub
  split <;> simp

@[simp] theorem Device.taken_latch (n who useq : Nat) : (d.taken n who useq).fire.latch = d.fire.latch := by simp [Device.taken]

@[simp] theorem Device.sendQ1_latch (node type queue seq : Nat) : (d.sendQ1 node type queue seq).fire.latch = d.fire.latch := by
  unfold Device.sendQ1
  split <;> simp

@[simp] theorem Device.unsend_latch (n who : Nat) (started : Bool) : (d.unsend n who started).fire.latch = d.fire.latch := by
  unfold Device.unsend
  dsimp only
  (repeat' split) <;> simp

@[simp] theorem Device.pullBack_latch (p : Nat) (out : TxFrame → Bool) : (d.pullBack p out).fire.latch = d.fire.latch := by simp [Device.pullBack]
@[simp] theorem Device.startReset_latch (n who : Nat) : (d.startReset n who).fire.latch = d.fire.latch := by simp [Device.startReset]
@[simp] theorem Device.resetIfReliable_latch (n who : Nat) : (d.resetIfReliable n who).fire.latch = d.fire.latch := by simp [Device.resetIfReliable]
@[simp] theorem Device.suspendNode_latch (node : Nat) : (d.suspendNode node).fire.latch = d.fire.latch := by simp [Device.suspendNode]
@[simp] theorem Device.resumeNode_latch (node : Nat) : (d.resumeNode node).fire.latch = d.fire.latch := by simp [Device.resumeNode]
@[simp] theorem Device.portEvent_latch (p : Nat) : (d.portEvent p).fire.latch = d.fire.latch := by simp [Device.portEvent]
@[simp] theorem Device.linkEvent_latch (p code cause : Nat) : (d.linkEvent p code cause).fire.latch = d.fire.latch := by simp [Device.linkEvent]
@[simp] theorem Device.sendOn_latch (p : Nat) (f : BitVec 512) : (d.sendOn p f).fire.latch = d.fire.latch := by simp [Device.sendOn]
@[simp] theorem Device.noteTopo_latch (k : Nat × Nat) : (d.noteTopo k).fire.latch = d.fire.latch := by simp [Device.noteTopo]
@[simp] theorem Device.flood_latch (type body : Nat) : (d.flood type body).fire.latch = d.fire.latch := by simp [Device.flood]

@[simp] theorem Device.topo_latch (p type : Nat) (f : BitVec 512) (act : Device → Device) (h : ∀ d, (act d).fire.latch = d.fire.latch) :
    (d.topo p type f act).fire.latch = d.fire.latch := by
  unfold Device.topo
  split
  · rfl
  · simp [h]

@[simp] theorem Device.resvEvent_latch (code : Nat) (v : Resv) : (d.resvEvent code v).fire.latch = d.fire.latch := by simp [Device.resvEvent]
@[simp] theorem Device.unreserve_latch (q : Nat) : (d.unreserve q).fire.latch = d.fire.latch := by simp [Device.unreserve]

@[simp] theorem Device.resvOutcome_latch (queue status : Nat) (west : Bool) : (d.resvOutcome queue status west).fire.latch = d.fire.latch := by
  unfold Device.resvOutcome
  dsimp only
  (repeat' split) <;> simp [Device.commitSealedResv]

@[simp] theorem Device.resvAnswer_latch (v : Resv) (status : Nat) (west : Bool) : (d.resvAnswer v status west).fire.latch = d.fire.latch := by
  simp [Device.resvAnswer]

@[simp] theorem Device.sendAllowances_latch : (d.sendAllowances).fire.latch = d.fire.latch := by simp [Device.sendAllowances]
@[simp] theorem Device.withdrawResv_latch (v : Resv) : (d.withdrawResv v).fire.latch = d.fire.latch := by simp [Device.withdrawResv]
@[simp] theorem Device.decideResv_latch (v : Resv) : (d.decideResv v).fire.latch = d.fire.latch := by simp [Device.decideResv]
@[simp] theorem Device.requestResv_latch (v : Resv) : (d.requestResv v).fire.latch = d.fire.latch := by simp [Device.requestResv]
@[simp] theorem Device.askAgain_latch : (d.askAgain).fire.latch = d.fire.latch := by simp [Device.askAgain]
@[simp] theorem Device.requestAll_latch : (d.requestAll).fire.latch = d.fire.latch := by simp [Device.requestAll]
@[simp] theorem Device.readmit_latch (old : Ring) : (d.readmit old).fire.latch = d.fire.latch := by simp [Device.readmit]

@[simp] theorem Device.recountHops_latch : (d.recountHops).fire.latch = d.fire.latch := by
  unfold Device.recountHops
  dsimp only
  (repeat' split) <;> simp

@[simp] theorem Device.joinEvent_latch (node : Nat) (uid : BitVec 64) (stepped : Bool) (epoch : Nat) :
    (d.joinEvent node uid stepped epoch).fire.latch = d.fire.latch := by
  simp [Device.joinEvent]

@[simp] theorem Device.leaveEvent_latch (node : Nat) (uid : BitVec 64) (cause : Nat) : (d.leaveEvent node uid cause).fire.latch = d.fire.latch := by
  simp [Device.leaveEvent]

@[simp] theorem Device.sendMembers_latch : (d.sendMembers).fire.latch = d.fire.latch := by simp [Device.sendMembers]

@[simp] theorem Device.sendCalendar_latch : (d.sendCalendar).fire.latch = d.fire.latch := by
  unfold Device.sendCalendar
  split <;> simp

@[simp] theorem Device.memberGone_latch (node cause : Nat) : (d.memberGone node cause).fire.latch = d.fire.latch := by
  unfold Device.memberGone
  split <;> simp

@[simp] theorem Device.memberCome_latch (m : Member) (stepped : Bool) (epoch : Nat) : (d.memberCome m stepped epoch).fire.latch = d.fire.latch := by
  simp [Device.memberCome]

@[simp] theorem Device.leaveRing_latch : (d.leaveRing).fire.latch = d.fire.latch := by simp [Device.leaveRing]
@[simp] theorem Device.sendJoin_latch : (d.sendJoin).fire.latch = d.fire.latch := by simp [Device.sendJoin]
@[simp] theorem Device.freeRun_latch : (d.freeRun).fire.latch = d.fire.latch := by simp [Device.freeRun]
@[simp] theorem Device.mergeLeave_latch : (d.mergeLeave).fire.latch = d.fire.latch := by simp [Device.mergeLeave]

@[simp] theorem Device.portOn_latch (p : Nat) (stop : Device → Device) (h : ∀ d, (stop d).fire.latch = d.fire.latch) :
    (d.portOn p stop).fire.latch = d.fire.latch := by
  unfold Device.portOn
  split <;> simp [h]

@[simp] theorem Device.wrapEvent_latch (wrap : Bool) (w e : Nat) : (d.wrapEvent wrap w e).fire.latch = d.fire.latch := by simp [Device.wrapEvent]
@[simp] theorem Device.applyBreak_latch (w e : Nat) : (d.applyBreak w e).fire.latch = d.fire.latch := by simp [Device.applyBreak, Device.reroute]
@[simp] theorem Device.declareBreak_latch (p : Nat) : (d.declareBreak p).fire.latch = d.fire.latch := by simp [Device.declareBreak]
@[simp] theorem Device.portStop_latch (p : Nat) : (d.portStop p).fire.latch = d.fire.latch := by simp [Device.portStop]
@[simp] theorem Device.leaveIfAlone_latch : (d.leaveIfAlone).fire.latch = d.fire.latch := by simp [Device.leaveIfAlone]

@[simp] theorem Device.linkDown_latch (p : Nat) (cause : Option Nat) : (d.linkDown p cause).fire.latch = d.fire.latch := by
  unfold Device.linkDown
  split <;> simp [Device.regrant]

@[simp] theorem Device.sendWindow_latch (p : Nat) : (d.sendWindow p).fire.latch = d.fire.latch := by simp [Device.sendWindow]
@[simp] theorem Device.lookAround_latch (p : Nat) : (d.lookAround p).fire.latch = d.fire.latch := by simp [Device.lookAround]

@[simp] theorem Device.floodElect_latch : (d.floodElect).fire.latch = d.fire.latch := by
  unfold Device.floodElect
  split <;> simp

@[simp] theorem Device.markerLock_latch (p : Nat) (f : BitVec 512) : (d.markerLock p f).fire.latch = d.fire.latch := by simp [Device.markerLock]
@[simp] theorem Device.portsOn_latch : (d.portsOn).fire.latch = d.fire.latch := by simp [Device.portsOn, Device.joinDone]

@[simp] theorem Device.timeFlit_latch (p : Nat) (f : BitVec 512) : (d.timeFlit p f).fire.latch = d.fire.latch := by
  unfold Device.timeFlit
  dsimp only
  (repeat' split) <;> simp

@[simp] theorem Device.ringTimeEvent_latch (locked : Bool) (offset : Int) : (d.ringTimeEvent locked offset).fire.latch = d.fire.latch := by
  simp [Device.ringTimeEvent]

@[simp] theorem Device.holdoverEnd_latch : (d.holdoverEnd).fire.latch = d.fire.latch := by
  unfold Device.holdoverEnd
  split <;> simp

@[simp] theorem Device.takeGrant_latch (p queue cells : Nat) : (d.takeGrant p queue cells).fire.latch = d.fire.latch := by
  unfold Device.takeGrant
  dsimp only
  (repeat' split) <;> simp

@[simp] theorem Device.creditFlit_latch (p : Nat) (f : BitVec 512) : (d.creditFlit p f).fire.latch = d.fire.latch := by simp [Device.creditFlit]

@[simp] theorem Device.joinReq_latch (p : Nat) (f : BitVec 512) : (d.joinReq p f).fire.latch = d.fire.latch := by
  unfold Device.joinReq
  dsimp only
  (repeat' split) <;> simp

@[simp] theorem Device.joinAck_latch (f : BitVec 512) : (d.joinAck f).fire.latch = d.fire.latch := by simp [Device.joinAck]
@[simp] theorem Device.breakMsg_latch (f : BitVec 512) : (d.breakMsg f).fire.latch = d.fire.latch := by simp [Device.breakMsg]

@[simp] theorem Device.tableArrived_latch (t : List Member) : (d.tableArrived t).fire.latch = d.fire.latch := by
  unfold Device.tableArrived
  split <;> simp

@[simp] theorem Device.calendarMsg_latch (f : BitVec 512) : (d.calendarMsg f).fire.latch = d.fire.latch := by
  unfold Device.calendarMsg
  extract_lets k had all c taken
  have htaken : taken.fire.latch = d.fire.latch := rfl
  split
  · rfl
  · split
    · rfl
    · split
      · exact htaken
      · exact (taken.setCalendar_latch c).trans htaken

@[simp] theorem Device.resvReq_latch (f : BitVec 512) : (d.resvReq f).fire.latch = d.fire.latch := by simp [Device.resvReq]
@[simp] theorem Device.electTimeout_latch : (d.electTimeout).fire.latch = d.fire.latch := by simp [Device.electTimeout, Device.becomeHead]

@[simp] theorem Device.degradeWindow_latch (p errors symbols bad : Nat) : (d.degradeWindow p errors symbols bad).fire.latch = d.fire.latch := by
  simp [Device.degradeWindow]

@[simp] theorem Device.portStart_latch (p : Nat) : (d.portStart p).fire.latch = d.fire.latch := by simp [Device.portStart]

@[simp] theorem Device.releaseResv_latch (q : Nat) : (d.releaseResv q).fire.latch = d.fire.latch := by
  unfold Device.releaseResv
  split <;> simp

@[simp] theorem Device.rebalance_latch (q : Nat) : (d.rebalance q).fire.latch = d.fire.latch := by
  unfold Device.rebalance
  dsimp only
  (repeat' split) <;> simp

@[simp] theorem Device.frameLeaves_latch (f : TxFrame) : (d.frameLeaves f).fire.latch = d.fire.latch := by
  refine Device.latch_foldl _ (fun d w => ?_) _ _
  dsimp only
  (repeat' split) <;> simp

@[simp] theorem Sending.step_latch (pass : Nat) (s : Sending) (f : TxFrame) : (s.step pass f).d.fire.latch = s.d.fire.latch := by
  unfold Sending.step
  lift_lets
  extract_lets key id n enters may lack stays
  split
  · rfl
  · split
    · exact s.d.frameLeaves_latch f
    · refine Device.latch_foldl _ (fun d w => ?_) lack s.d
      rfl

@[simp] theorem Sending.pass_latch (s : Sending) (l : List TxFrame) (pass : Nat) : (s.pass l pass).d.fire.latch = s.d.fire.latch := by
  have hfold : ∀ (l : List TxFrame) (x : Sending), (l.foldl (fun s f => s.step pass f) x).d.fire.latch = x.d.fire.latch := by
    intro l
    induction l with
    | nil => exact fun _ => rfl
    | cons f t ih => exact fun x => (ih _).trans (x.step_latch pass f)
  exact hfold l _

@[simp] theorem Device.sendFrames_latch (p : Nat) : (d.sendFrames p).fire.latch = d.fire.latch := by
  unfold Device.sendFrames
  dsimp only
  (repeat' split) <;> simp [Sending.pass_latch]

@[simp] theorem Device.superframe_latch (p : Nat) : (d.superframe p).fire.latch = d.fire.latch := by simp [Device.superframe, Device.askLate]

@[simp] theorem Device.cellRequest_latch (n flags recsize records info : Nat) (unit : Bytes) :
    (d.cellRequest n flags recsize records info unit).fire.latch = d.fire.latch := by
  unfold Device.cellRequest
  (repeat' split) <;> simp

@[simp] theorem Device.dropPartial_latch (n src reason : Nat) : (d.dropPartial n src reason).fire.latch = d.fire.latch := by simp [Device.dropPartial]

@[simp] theorem Device.frameAppend_latch (p : Nat) : (d.frameAppend p).fire.latch = d.fire.latch := by
  unfold Device.frameAppend
  split <;> simp [Device.appendFrame, Device.refuseQ0, Device.growCells, Device.completeUnit, Device.arriveQ0]

@[simp] theorem Device.delivered_latch (n who : Nat) : (d.delivered n who).fire.latch = d.fire.latch := by
  unfold Device.delivered
  split <;> simp

theorem Device.q1Take_latch (d x : Device) (type n seq src : Nat) (h : d.q1Take type = some (n, seq, src, x)) : x.fire.latch = d.fire.latch := by
  unfold Device.q1Take at h
  split at h
  · exact absurd h nofun
  · split at h
    · cases h; simp
    · exact absurd h nofun

@[simp] theorem Device.q1Reset_latch : d.q1Reset.fire.latch = d.fire.latch := by
  unfold Device.q1Reset
  split
  · rfl
  · next n seq src x h =>
    rw [← Device.q1Take_latch _ _ _ _ _ _ h]
    dsimp only
    (repeat' split) <;> simp

@[simp] theorem Device.q1Resync_latch : d.q1Resync.fire.latch = d.fire.latch := by
  unfold Device.q1Resync
  split
  · rfl
  · next n seq src x h =>
    rw [← Device.q1Take_latch _ _ _ _ _ _ h]
    simp

@[simp] theorem Device.queueStart_latch (n : Nat) : (d.queueStart n).fire.latch = d.fire.latch := by simp [Device.queueStart]

@[simp] theorem Device.hostMissed_latch (n : Nat) : (d.hostMissed n).2.fire.latch = d.fire.latch := by
  unfold Device.hostMissed
  split <;> simp

@[simp] theorem Device.readQueue_latch (n : Nat) : (d.readQueue n).1.fire.latch = d.fire.latch := by
  unfold Device.readQueue
  dsimp only
  (repeat' split) <;> simp

@[simp] theorem Device.camEvent_latch (p : Nat) : (d.camEvent p).fire.latch = d.fire.latch := by simp [Device.camEvent]
@[simp] theorem Device.camErr_latch (p low : Nat) : (d.camErr p low).fire.latch = d.fire.latch := by simp [Device.camErr]
@[simp] theorem Device.camStart_latch (p : Nat) : (d.camStart p).fire.latch = d.fire.latch := by simp [Device.camStart]
@[simp] theorem Device.camStop_latch (p : Nat) : (d.camStop p).fire.latch = d.fire.latch := by simp [Device.camStop]
@[simp] theorem Device.camOn_latch (p : Nat) : (d.camOn p).fire.latch = d.fire.latch := by simp [Device.camOn]
@[simp] theorem Device.camOff_latch (p : Nat) : (d.camOff p).fire.latch = d.fire.latch := by simp [Device.camOff]

@[simp] theorem Device.camDrop_latch (p reason : Nat) (h : BitVec 32) : (d.camDrop p reason h).fire.latch = d.fire.latch := by
  unfold Device.camDrop
  split <;> simp

@[simp] theorem Device.packet_latch (p : Nat) (pkt : CsiPacket) : (d.packet p pkt).fire.latch = d.fire.latch := by
  unfold Device.packet
  dsimp only
  (repeat' split) <;> simp [Device.camUnit]

@[simp] theorem Device.csi_latch (p : Nat) (pkt : CsiPacket) : (d.csi p pkt).fire.latch = d.fire.latch := by
  unfold Device.csi
  (repeat' split) <;> simp

end Sys2Proof.Machine
end

section
/-! The field die leaves the kill latch alone (R97). -/

namespace Sys2Proof.Machine

open Sys2Proof

variable (d : Device)

@[simp] theorem Device.lostUnit_latch (queue reason : Nat) : (d.lostUnit queue reason).fire.latch = d.fire.latch := by simp [Device.lostUnit]
@[simp] theorem Device.addMark_latch (cls idx : Nat) : (d.addMark cls idx).fire.latch = d.fire.latch := by simp [Device.addMark]

@[simp] theorem Device.tell_latch (m : FieldMsg) : (d.tell m).fire.latch = d.fire.latch := by
  unfold Device.tell
  split <;> simp [Device.tellSilence]

@[simp] theorem Device.fieldMsg_latch (m : FieldMsg) : (d.fieldMsg m).fire.latch = d.fire.latch := by simp [Device.fieldMsg]

@[simp] theorem Device.deliver_latch (p : Bytes) : (d.deliver p).fire.latch = d.fire.latch := by
  unfold Device.deliver
  split <;> simp

@[simp] theorem Device.fieldEvent_latch (id source payload : Nat) : (d.fieldEvent id source payload).fire.latch = d.fire.latch := by
  simp [Device.fieldEvent]

@[simp] theorem Device.fieldRec_latch (id source payload kind severity : Nat) (extra : Bytes) :
    (d.fieldRec id source payload kind severity extra).fire.latch = d.fire.latch := by
  simp [Device.fieldRec]

@[simp] theorem Device.fieldLimited_latch (id source sub len payload add : Nat) :
    (d.fieldLimited id source sub len payload add).fire.latch = d.fire.latch := by
  simp [Device.fieldLimited]

@[simp] theorem Device.fieldIntegrity_latch (cls idx act : Nat) : (d.fieldIntegrity cls idx act).fire.latch = d.fire.latch := by
  unfold Device.fieldIntegrity
  dsimp only
  (repeat' split) <;> simp

@[simp] theorem Device.fieldIntact_latch (cls idx : Nat) : (d.fieldIntact cls idx).fire.latch = d.fire.latch := by simp [Device.fieldIntact]

@[simp] theorem Device.fieldChecked_latch (ok : Bool) (cls idx : Nat) : (d.fieldChecked ok cls idx).fire.latch = d.fire.latch := by
  simp [Device.fieldChecked]

@[simp] theorem Device.seqTrigger_latch (q : Nat) : (d.seqTrigger q).fire.latch = d.fire.latch := by
  unfold Device.seqTrigger
  dsimp only
  (repeat' split) <;> simp [Device.seqCount]

@[simp] theorem Device.seqTriggers_latch (p : BitVec 128 → Bool) : (d.seqTriggers p).fire.latch = d.fire.latch := by simp [Device.seqTriggers]

@[simp] theorem Device.ranBackground_latch (c : Nat) (l : List (Nat × Bool)) : (d.ranBackground c l).fire.latch = d.fire.latch := by
  simp [Device.ranBackground]

@[simp] theorem Device.takeSlots_latch (c n : Nat) : (d.takeSlots c n).fire.latch = d.fire.latch := by simp [Device.takeSlots]

@[simp] theorem Device.endDiag_latch (k : Nat) (cut : Bool) : (d.endDiag k cut).fire.latch = d.fire.latch := by
  unfold Device.endDiag
  split <;> simp [Device.diagEvidence, Device.crossEvidence]

@[simp] theorem Device.endDiags_latch (cut : Bool) : (d.endDiags cut).fire.latch = d.fire.latch := by simp [Device.endDiags]

@[simp] theorem Device.setSwitch_latch (k : Nat) (on pwm : Bool) : (d.setSwitch k on pwm).fire.latch = d.fire.latch := by
  simp [Device.setSwitch, Device.switchOn, Device.switchOff]

@[simp] theorem Device.driveFn_latch (k : Nat) : (d.driveFn k).fire.latch = d.fire.latch := by
  unfold Device.driveFn
  dsimp only
  (repeat' split) <;> simp

@[simp] theorem Device.driveOne_latch (k : Nat) (pwm : Bool) : (d.driveOne k pwm).fire.latch = d.fire.latch := by
  simp [Device.driveOne, Device.setByEntry]

@[simp] theorem Device.drive_latch (k : Nat) (pwm : Bool) : (d.drive k pwm).fire.latch = d.fire.latch := by simp [Device.drive]
@[simp] theorem Device.applyAll_latch (safe : Bool) (source : Nat) : (d.applyAll safe source).fire.latch = d.fire.latch := by simp [Device.applyAll]
@[simp] theorem Device.autoRemap_latch (k : Nat) : (d.autoRemap k).fire.latch = d.fire.latch := by simp [Device.autoRemap]
@[simp] theorem Device.foundDark_latch (k cause : Nat) : (d.foundDark k cause).fire.latch = d.fire.latch := by simp [Device.foundDark]
@[simp] theorem Device.foundShort_latch (k : Nat) (on : Bool) : (d.foundShort k on).fire.latch = d.fire.latch := by simp [Device.foundShort]
@[simp] theorem Device.outStop_latch (k : Nat) : (d.outStop k).fire.latch = d.fire.latch := by simp [Device.outStop]
@[simp] theorem Device.limitStop_latch (k reason : Nat) : (d.limitStop k reason).fire.latch = d.fire.latch := by simp [Device.limitStop]

@[simp] theorem Device.modEnd_latch (s : Side) (g : BridgeEnd → BridgeEnd) : (d.modEnd s g).fire.latch = d.fire.latch := by
  unfold Device.modEnd
  split <;> simp

@[simp] theorem Device.storeReady_latch : (d.storeReady).fire.latch = d.fire.latch := by
  unfold Device.storeReady
  split <;> simp [Device.storeChunk]

@[simp] theorem Device.endChunk_latch : (d.endChunk).fire.latch = d.fire.latch := by simp [Device.endChunk]
@[simp] theorem Device.chunkStart_latch (p : Bytes) : (d.chunkStart p).fire.latch = d.fire.latch := by simp [Device.chunkStart]

@[simp] theorem Device.bulkSlot_latch (s : Side) : (d.bulkSlot s).fire.latch = d.fire.latch := by
  unfold Device.bulkSlot
  split <;> simp

@[simp] theorem Device.bridgeCycle_latch (s : Side) : (d.bridgeCycle s).fire.latch = d.fire.latch := by
  unfold Device.bridgeCycle
  split <;> simp

@[simp] theorem Device.chan0_latch (s : Side) (fseq : Nat) (p : Bytes) : (d.chan0 s fseq p).fire.latch = d.fire.latch := by
  unfold Device.chan0
  split <;> simp

@[simp] theorem Device.bulkFrame_latch (s : Side) (f : BitVec 512) : (d.bulkFrame s f).fire.latch = d.fire.latch := by
  unfold Device.bulkFrame
  split <;> simp [Device.chan1, Device.chunkData, Device.chunkGap]

@[simp] theorem Device.compareAt_latch (k : Nat) : (d.compareAt k).fire.latch = d.fire.latch := by simp [Device.compareAt]

@[simp] theorem Device.fieldSilenceEnds_latch : (d.fieldSilenceEnds).fire.latch = d.fire.latch := by
  unfold Device.fieldSilenceEnds
  split <;> simp

@[simp] theorem Device.takeSafe_latch : (d.takeSafe).fire.latch = d.fire.latch := by
  unfold Device.takeSafe
  split <;> simp

@[simp] theorem Device.applyAspect_latch : (d.applyAspect).fire.latch = d.fire.latch := by
  unfold Device.applyAspect
  split <;> simp

@[simp] theorem Device.coreSilenceEnds_latch : (d.coreSilenceEnds).fire.latch = d.fire.latch := by
  unfold Device.coreSilenceEnds
  split <;> simp

@[simp] theorem Device.coreResume_latch (ack : Nat) (anew : Bool) : (d.coreResume ack anew).fire.latch = d.fire.latch := by simp [Device.coreResume]
@[simp] theorem Device.diagSlot_latch (p : Nat) (x : DiagSense) : (d.diagSlot p x).fire.latch = d.fire.latch := by simp [Device.diagSlot]

@[simp] theorem Device.sagEpisode_latch (g mv : Nat) (uv : Bool) : (d.sagEpisode g mv uv).fire.latch = d.fire.latch := by
  unfold Device.sagEpisode
  split <;> simp

@[simp] theorem Device.sagClose_latch (g : Nat) : (d.sagClose g).fire.latch = d.fire.latch := by
  unfold Device.sagClose
  dsimp only
  (repeat' split) <;> simp

@[simp] theorem Device.sagBegin_latch (g mv : Nat) : (d.sagBegin g mv).fire.latch = d.fire.latch := by simp [Device.sagBegin]
@[simp] theorem Device.sagEnd_latch (g mv : Nat) : (d.sagEnd g mv).fire.latch = d.fire.latch := by simp [Device.sagEnd]
@[simp] theorem Device.uvOff_latch (g mv : Nat) : (d.uvOff g mv).fire.latch = d.fire.latch := by simp [Device.uvOff]

@[simp] theorem Device.softStep_latch (g : Nat) : (d.softStep g).fire.latch = d.fire.latch := by
  unfold Device.softStep
  dsimp only
  (repeat' split) <;> simp

@[simp] theorem Device.nvmWaits_latch (k : NvmKind) : (d.nvmWaits k).fire.latch = d.fire.latch := by simp [Device.nvmWaits]
@[simp] theorem Device.nvmDone_latch (k : NvmKind) : (d.nvmDone k).fire.latch = d.fire.latch := by simp [Device.nvmDone]
@[simp] theorem Device.applyBlock_latch (b : BitVec 11392) : (d.applyBlock b).fire.latch = d.fire.latch := by simp [Device.applyBlock]
@[simp] theorem Device.blockWaits_latch : (d.blockWaits).fire.latch = d.fire.latch := by simp [Device.blockWaits]

@[simp] theorem Device.askRemap_latch (k : Nat) (set : Bool) : (d.askRemap k set).1.fire.latch = d.fire.latch := by
  unfold Device.askRemap
  dsimp only
  (repeat' split) <;> simp

@[simp] theorem Device.offerUnit_latch (queue : Nat) (period cut : Bool) (seq count time : Nat) (body : Bytes) :
    (d.offerUnit queue period cut seq count time body).fire.latch = d.fire.latch := by
  simp [Device.offerUnit]

@[simp] theorem Device.closePeriods_latch : (d.closePeriods).fire.latch = d.fire.latch := by simp [Device.closePeriods]
@[simp] theorem Device.storeInputs_latch (c : BitVec 1088) : (d.storeInputs c).fire.latch = d.fire.latch := by simp [Device.storeInputs]

@[simp] theorem Device.periodRecord_latch (k mean edges : Nat) (timeout : Bool) :
    (d.periodRecord k mean edges timeout).fire.latch = d.fire.latch := by
  simp [Device.periodRecord]

@[simp] theorem Device.inRise_latch (k : Nat) : (d.inRise k).fire.latch = d.fire.latch := by
  unfold Device.inRise
  dsimp only
  (repeat' split) <;> simp

@[simp] theorem Device.periodTimeout_latch (k : Nat) : (d.periodTimeout k).fire.latch = d.fire.latch := by
  unfold Device.periodTimeout
  dsimp only
  (repeat' split) <;> simp

@[simp] theorem Device.adcEvent_latch (i : FnId) (source minOff : Nat) : (d.adcEvent i source minOff).fire.latch = d.fire.latch := by
  simp [Device.adcEvent]

@[simp] theorem Device.convEvent_latch (c : Nat) : (d.convEvent c).fire.latch = d.fire.latch := by simp [Device.convEvent]
@[simp] theorem Device.seqEvent_latch (q : Nat) : (d.seqEvent q).fire.latch = d.fire.latch := by simp [Device.seqEvent]
@[simp] theorem Device.excEvent_latch : (d.excEvent).fire.latch = d.fire.latch := by simp [Device.excEvent]
@[simp] theorem Device.seqFault_latch (q : Nat) : (d.seqFault q).fire.latch = d.fire.latch := by simp [Device.seqFault]
@[simp] theorem Device.sliceOut_latch (c : Nat) (b : Bool) : (d.sliceOut c b).fire.latch = d.fire.latch := by simp [Device.sliceOut]

@[simp] theorem Device.background_latch (c : Nat) (b : Bool) (offset gain skew : Int) :
    (d.background c b offset gain skew).fire.latch = d.fire.latch := by
  unfold Device.background
  extract_lets x unit dg drift n checked
  have hchecked : checked.fire.latch = d.fire.latch := by simp [checked]
  clear_value checked n
  generalize (if b then x.bgB else x.bgA) = last, (if b then x.usableB else x.usableA) = usable
  split
  · rfl
  · split
    · exact (checked.sliceOut_latch c b).trans hchecked
    · exact hchecked

@[simp] theorem Device.convStart_latch (c : Nat) : (d.convStart c).fire.latch = d.fire.latch := by simp [Device.convStart]
@[simp] theorem Device.captureAbort_latch : (d.captureAbort).fire.latch = d.fire.latch := by simp [Device.captureAbort]
@[simp] theorem Device.convStop_latch (c : Nat) : (d.convStop c).fire.latch = d.fire.latch := by simp [Device.convStop]

@[simp] theorem Device.calRunDone_latch (codes : List Int) : (d.calRunDone codes).fire.latch = d.fire.latch := by
  unfold Device.calRunDone
  split <;> simp [Device.setShadow]

@[simp] theorem Device.storeCoeffs_latch : (d.storeCoeffs).fire.latch = d.fire.latch := by simp [Device.storeCoeffs]

@[simp] theorem Device.captureStart_latch : (d.captureStart).fire.latch = d.fire.latch := by
  unfold Device.captureStart
  split <;> simp

@[simp] theorem Device.captureEnd_latch (codes : List Nat) : (d.captureEnd codes).fire.latch = d.fire.latch := by
  unfold Device.captureEnd
  split <;> simp

@[simp] theorem Device.captureTimeout_latch : (d.captureTimeout).fire.latch = d.fire.latch := by
  unfold Device.captureTimeout
  split <;> simp

@[simp] theorem Device.excStart_latch : (d.excStart).fire.latch = d.fire.latch := by simp [Device.excStart]
@[simp] theorem Device.excStop_latch : (d.excStop).fire.latch = d.fire.latch := by simp [Device.excStop]
@[simp] theorem Device.excHalf_latch : (d.excHalf).fire.latch = d.fire.latch := by simp [Device.excHalf, Device.excPositive]

@[simp] theorem Device.blankHoldEnd_latch : d.blankHoldEnd.fire.latch = d.fire.latch := by
  unfold Device.blankHoldEnd
  split
  · rfl
  · extract_lets resumed
    have hresumed : resumed.fire.latch = d.fire.latch := by simp [resumed]
    clear_value resumed
    split
    · exact hresumed
    · exact hresumed

@[simp] theorem Device.pullOn_latch (q : Nat) : (d.pullOn q).fire.latch = d.fire.latch := by
  unfold Device.pullOn
  dsimp only
  (repeat' split) <;> simp

@[simp] theorem Device.pullOff_latch (q : Nat) : (d.pullOff q).fire.latch = d.fire.latch := by simp [Device.pullOff]

@[simp] theorem Device.runStart_latch (q : Nat) : (d.runStart q).fire.latch = d.fire.latch := by
  unfold Device.runStart
  dsimp only
  (repeat' split) <;> simp

@[simp] theorem Device.entryStart_latch (q : Nat) : (d.entryStart q).fire.latch = d.fire.latch := by
  unfold Device.entryStart
  dsimp only
  (repeat' split) <;> simp

@[simp] theorem Device.keepResult_latch (q i : Nat) (e : BitVec 64) (t : Taken) (time : Nat) :
    (d.keepResult q i e t time).fire.latch = d.fire.latch := by
  unfold Device.keepResult
  split <;> simp [Device.openWire, Device.putResult]

@[simp] theorem Device.entryDone_latch (q : Nat) (codes : List Int) : (d.entryDone q codes).fire.latch = d.fire.latch := by
  unfold Device.entryDone
  dsimp only
  (repeat' split) <;> simp [Device.entryResult, Device.overranged]

@[simp] theorem Device.runEnd_latch (q : Nat) : (d.runEnd q).fire.latch = d.fire.latch := by
  unfold Device.runEnd
  dsimp only
  (repeat' split) <;> simp [Device.runUnit, Device.seqOffNow]

@[simp] theorem Device.seqStart_latch (q : Nat) : (d.seqStart q).fire.latch = d.fire.latch := by simp [Device.seqStart]

/-- One output after a full diagnostic cycle (R309), the body of its readback stage. -/
theorem Device.cycleEnd_latch (k : Nat) :
    (match (d.field.out k).attrAt with
      | some t =>
        if d.now < t + 10 * ms then d
        else
          let x := d.modOut k (fun o => { o with attrAt := none })
          if (d.field.out k).persisted then x.foundShort k false else x
      | none => d).fire.latch = d.fire.latch := by
  dsimp only
  (repeat' split) <;> simp

@[simp] theorem Device.readbacks_latch (rb : BitVec 16) : (d.readbacks rb).fire.latch = d.fire.latch := by
  unfold Device.readbacks
  extract_lets read counted
  have hcounted : counted.fire.latch = d.fire.latch := by simp [counted, read]
  refine (Device.latch_foldl _ ?cycle _ _).trans hcounted
  case cycle =>
    intro d k
    exact d.cycleEnd_latch k

@[simp] theorem Device.storeRemaps_latch : (d.storeRemaps).fire.latch = d.fire.latch := by simp [Device.storeRemaps]

@[simp] theorem Device.fieldTick_latch (x : FieldSense) : (d.fieldTick x).fire.latch = d.fire.latch := by
  simp [Device.fieldTick, Device.loopSample, Device.groupSample, Device.remapTick, Device.doRemap, Device.nvmRelease]

end Sys2Proof.Machine
end

section
/-! The log, resets, the supply, self-test, security and the boot leave the kill latch alone (R97). -/

namespace Sys2Proof.Machine

open Sys2Proof

variable (d : Device)

@[simp] theorem Device.reportRead_latch : (d.reportRead).fire.latch = d.fire.latch := by simp [Device.reportRead]
@[simp] theorem Device.logReport_latch : (d.logReport).fire.latch = d.fire.latch := by simp [Device.logReport]

@[simp] theorem Device.bbWrite_latch : (d.bbWrite).fire.latch = d.fire.latch := by
  unfold Device.bbWrite
  dsimp only
  (repeat' split) <;> simp [Device.markCheck]

@[simp] theorem Device.logAppend_latch (r : BitVec 4096) : (d.logAppend r).fire.latch = d.fire.latch := by simp [Device.logAppend]
@[simp] theorem Device.firstFault_latch (r : BitVec 4096) : (d.firstFault r).fire.latch = d.fire.latch := by simp [Device.firstFault]

@[simp] theorem Device.sealDone_latch : (d.sealDone).fire.latch = d.fire.latch := by
  unfold Device.sealDone
  split <;> simp

@[simp] theorem Device.bbCommit_latch : d.bbCommit.fire.latch = d.fire.latch := by
  obtain ⟨x, h⟩ := d.bbCommit_keeps
  exact congrArg Fire.latch h.fire

@[simp] theorem Device.sensorEvent_latch (i : Nat) (excluded : Bool) (rule : Nat) : (d.sensorEvent i excluded rule).fire.latch = d.fire.latch := by
  simp [Device.sensorEvent]

@[simp] theorem Device.setStep_latch (new : Nat) (predict : Bool) : (d.setStep new predict).fire.latch = d.fire.latch := by simp [Device.setStep]

@[simp] theorem Device.cleared_latch : d.cleared.fire.latch = d.fire.latch := by
  simp [Device.cleared, Fire.cleared]

@[simp] theorem Device.reboot_latch (cause : Cause) : (d.reboot cause).fire.latch = d.fire.latch := by simp [Device.reboot]
@[simp] theorem Device.powerUp_latch : (d.powerUp).fire.latch = d.fire.latch := by simp [Device.powerUp, Device.biasStart]
@[simp] theorem Device.fieldWaits_latch : (d.fieldWaits).fire.latch = d.fire.latch := by simp [Device.fieldWaits]

@[simp] theorem Device.fieldPowerOn_latch : (d.fieldPowerOn).fire.latch = d.fire.latch := by
  simp [Device.fieldPowerOn, Device.dropSeqs, Device.powerOnChecks, Device.powerOnSags]

@[simp] theorem Device.fieldDown_latch : (d.fieldDown).fire.latch = d.fire.latch := by simp [Device.fieldDown]
@[simp] theorem Device.setGroups_latch (vs : List Nat) : (d.setGroups vs).fire.latch = d.fire.latch := by simp [Device.setGroups]

@[simp] theorem Device.nvmTimeout_latch (k : NvmKind) : (d.nvmTimeout k).fire.latch = d.fire.latch := by
  unfold Device.nvmTimeout
  dsimp only
  (repeat' split) <;> simp [Device.nvmFirst]

@[simp] theorem Device.sliceStart_latch (clocks : Bool) : (d.sliceStart clocks).fire.latch = d.fire.latch := by
  unfold Device.sliceStart
  dsimp only
  (repeat' split) <;> simp

@[simp] theorem Device.dropHeld_latch (n : Nat) (held : List Nat → List Nat → Bool) : (d.dropHeld n held).fire.latch = d.fire.latch := by
  simp [Device.dropHeld]

@[simp] theorem Device.freeCell_latch (c : Nat) : (d.freeCell c).fire.latch = d.fire.latch := by
  unfold Device.freeCell
  split <;> simp

@[simp] theorem Device.freeDesc_latch (x : Nat) : (d.freeDesc x).fire.latch = d.fire.latch := by
  unfold Device.freeDesc
  split <;> simp

@[simp] theorem Device.withdrawRegion_latch (idx : Nat) : (d.withdrawRegion idx).1.fire.latch = d.fire.latch := by
  unfold Device.withdrawRegion
  (repeat' split) <;> simp

@[simp] theorem Device.bistFail_latch (cls idx code : Nat) (w : Word) (rec_ : Bool) : (d.bistFail cls idx code w rec_).fire.latch = d.fire.latch := by
  simp [Device.bistFail]

@[simp] theorem Device.passBegin_latch : (d.passBegin).fire.latch = d.fire.latch := by simp [Device.passBegin]
@[simp] theorem Device.passEnd_latch : (d.passEnd).fire.latch = d.fire.latch := by simp [Device.passEnd]
@[simp] theorem Device.idleGap_latch : (d.idleGap).fire.latch = d.fire.latch := by simp [Device.idleGap]

@[simp] theorem Device.duplicateMismatch_latch (which : Nat) : (d.duplicateMismatch which).fire.latch = d.fire.latch := by
  simp [Device.duplicateMismatch]

@[simp] theorem Device.directedDone_latch (vs : List DirectedVerdict) : (d.directedDone vs).fire.latch = d.fire.latch := by
  unfold Device.directedDone
  split <;> simp

@[simp] theorem Device.leaveMarker_latch (p : Nat) : (d.leaveMarker p).fire.latch = d.fire.latch := by simp [Device.leaveMarker]
@[simp] theorem Device.shutdown_latch (cause : Cause) : (d.shutdown cause).fire.latch = d.fire.latch := by simp [Device.shutdown]
@[simp] theorem Device.setRail_latch (r mv : Nat) : (d.setRail r mv).fire.latch = d.fire.latch := by simp [Device.setRail]
@[simp] theorem Device.supplyEvent_latch (r kind mv : Nat) : (d.supplyEvent r kind mv).fire.latch = d.fire.latch := by simp [Device.supplyEvent]
@[simp] theorem Device.episode_latch (r mv : Nat) : (d.episode r mv).fire.latch = d.fire.latch := by simp [Device.episode]

@[simp] theorem Device.episodeEnd_latch (r kind mv : Nat) : (d.episodeEnd r kind mv).fire.latch = d.fire.latch := by
  unfold Device.episodeEnd
  split <;> simp

@[simp] theorem Device.vbatStart_latch (mv calm : Nat) : (d.vbatStart mv calm).fire.latch = d.fire.latch := by simp [Device.vbatStart]
@[simp] theorem Device.vbatLowClear_latch (mv : Nat) : (d.vbatLowClear mv).fire.latch = d.fire.latch := by simp [Device.vbatLowClear]
@[simp] theorem Device.aonMinimum_latch : (d.aonMinimum).fire.latch = d.fire.latch := by simp [Device.aonMinimum]
@[simp] theorem Device.railWarning_latch (r mv : Nat) : (d.railWarning r mv).fire.latch = d.fire.latch := by simp [Device.railWarning]
@[simp] theorem Device.railWarningEnd_latch (r mv : Nat) : (d.railWarningEnd r mv).fire.latch = d.fire.latch := by simp [Device.railWarningEnd]
@[simp] theorem Device.railFault_latch (r mv : Nat) : (d.railFault r mv).fire.latch = d.fire.latch := by simp [Device.railFault]

@[simp] theorem Device.standbyAfterReply_latch (old new : Device) : (old.standbyAfterReply new).fire.latch = new.fire.latch := by
  simp [(Device.standbyAfterReply_keeps old new).fire]

@[simp] theorem Device.closeWritten_latch (old new : Device) : (old.closeWritten new).fire.latch = new.fire.latch := by
  unfold Device.closeWritten
  dsimp only
  (repeat' split) <;> simp

@[simp] theorem Device.blockToDefault_latch : (d.blockToDefault).fire.latch = d.fire.latch := by simp [Device.blockToDefault]

@[simp] theorem Device.sealedToDefault_latch (cmdId slot : Nat) : (d.sealedToDefault cmdId slot).fire.latch = d.fire.latch := by
  unfold Device.sealedToDefault
  lift_lets
  extract_lets old blocked budgeted lensed zoned ruled tested reserved used
  have hblocked : blocked.fire.latch = d.fire.latch := by simp [blocked]
  clear_value blocked
  rw [Device.sealRecord_latch]
  exact hblocked

@[simp] theorem Device.lcEffects_latch (target cmdId slot : Nat) : (d.lcEffects target cmdId slot).fire.latch = d.fire.latch := by
  simp [Device.lcEffects, Device.revokeAll]

@[simp] theorem Device.advance_latch (old new : Device) : (old.advance new).fire.latch = new.fire.latch := by
  unfold Device.advance
  split <;> simp

@[simp] theorem Device.advanceAndReset_latch (old new : Device) : (old.advanceAndReset new).fire.latch = new.fire.latch := by
  simp [Device.advanceAndReset]

@[simp] theorem Device.debugUnlock_latch (response : BitVec 128) : (d.debugUnlock response).fire.latch = d.fire.latch := by
  unfold Device.debugUnlock
  dsimp only
  (repeat' split) <;> simp

@[simp] theorem Device.modBoot_latch (f : BootRec → BootRec) : (d.modBoot f).fire.latch = d.fire.latch := by simp [Device.modBoot]

@[simp] theorem Device.fwEvent_latch (comp kind version slot : Nat) : (d.fwEvent comp kind version slot).fire.latch = d.fire.latch := by
  simp [Device.fwEvent]

@[simp] theorem Device.setStaging_latch (comp : Nat) (st : Staging) (img : Option Image) : (d.setStaging comp st img).fire.latch = d.fire.latch := by
  simp [Device.setStaging]

@[simp] theorem Device.verifyDone_latch (c : Component) : (d.verifyDone c).fire.latch = d.fire.latch := by
  unfold Device.verifyDone
  dsimp only
  (repeat' split) <;> simp

@[simp] theorem Device.switchDone_latch : (d.switchDone).fire.latch = d.fire.latch := by
  unfold Device.switchDone
  split <;> simp [Device.afterSwitch]

@[simp] theorem Device.bootImage_latch (comp : Nat) (p : BootPick) : (d.bootImage comp p).fire.latch = d.fire.latch := by
  unfold Device.bootImage
  (repeat' split) <;> simp

@[simp] theorem Device.boot_latch (env : BootEnv) : (d.boot env).fire.latch = d.fire.latch := by
  simp [Device.boot, Device.bootFuses, Device.completeFuses, Device.bootScan, Device.bootCounters, Device.sealedStart, Device.sealedCheck,
    Device.bootGeneral, Device.bootCal, Device.bootMap, Device.bootUnmark, Device.autostart, Device.bootReport, Device.bootRecord,
    Device.shutdownRecord, Device.bootLog, Device.bootEvents]

@[simp] theorem Device.withdrawStart_latch (f : FnId) : (d.withdrawStart f).fire.latch = d.fire.latch := by
  unfold Device.withdrawStart
  rw [(Device.complete_keeps _ _ _ _).fire, Device.modFn_latch]

@[simp] theorem Device.startOf_latch (x1 : FnId) : (d.startOf x1).fire.latch = d.fire.latch := by
  unfold Device.startOf
  split <;> simp

@[simp] theorem Device.restart_latch (f : FnId) : (d.restart f).fire.latch = d.fire.latch := by
  unfold Device.restart
  (repeat' split) <;> simp

end Sys2Proof.Machine
end

section
/-! Commands leave the kill latch alone, but fire.kill.clear and fire.stripe.clear (R94, R97). -/

namespace Sys2Proof.Machine

open Sys2Proof

theorem wcpRow?_latch {i : Instr} {r : WcpRow} (h : wcpRow? i = some r) (hkill : ∀ dt o, i ≠ .fireKillClear dt o)
    (hstripe : ∀ dt o, i ≠ .fireStripeClear dt o) (c : Ctx) (p : Bytes) (d : Device) : (r.cmd.run c p d).1.fire.latch = d.fire.latch := by
  cases i <;> cases h
  case sysSessionStatus | sysResultGet | sysSessionOpen | sysPolicySet | sysEventMaskSet | sysReset | scanPlanGet | fireStatusGet |
      fireDoseGet | scanCalendarGet | scanPlanSelect | fireDitherSet | fireEmitterSet | scanFollowSet | rxStatusGet | rxLayoutGet |
      rxMaskGet | rxSurveyGet | rxCoincGet | rxLensGet | rxConfigSet | rxLayoutSet | rxCoincSet | rxMaskWrite | rxWitnessSet |
      rxChannelRetire | rxVbdMeasure | histStatusGet | histPlanecfgGet | histGateGet | histPlaneRead | histTrackGet | histPlanecfgSet |
      histGateSet | histPlaneSend | histTrackClear | retStatusGet | retTemplateGet | zoneMapGet | zoneStateGet | retConfigGet |
      retConfigSet | retTemplateSet | retWindowLearn | calStatusGet | calCoeffGet | calResultGet | calCoeffWrite | calFullStart |
      ringStatusGet | ringPortGet | ringMembersGet | ringResvGet | ringConfigSet | qStatusGet | qSubsGet | qPoolGet | camStatusGet |
      qConfigSet | camFsyncSet | lampStatusGet | lampBlockGet | lampRulesGet | bridgeStatusGet | lampBlockWrite | lampRequestSet |
      inStatusGet | inConfigGet | adcStatusGet | adcResultGet | adcSeqGet | adcCalGet | adcCaptureGet | adcConfigSet | adcTimerSet |
      adcExcSet | adcCalRun | adcCaptureArm | bistStatusGet | bistUnusableGet | bistResultGet | fwStatusGet | fwStageVerify | fwSwitch |
      pwrStatusGet | thermStatusGet | thermConfigSet | pwrStandby | logStatusGet | logRead | logFfRead => rfl
  case sysIdentGet | sysStatusGet | scanPlanCommit | fireEnable | fireDisable | scanTriggerSet | scanFrameTrigger | fireBudgetSet |
      scanCalendarSet =>
    simp [cmdIdent, cmdStatus, cmdPlanCommit, cmdFireEnable, cmdFireDisable, cmdTriggerSet, cmdFrameTrigger, cmdBudgetSet,
      Device.writeBudget, Fire.restartSums, cmdCalendarSet]
  case rxChannelRestore | rxVbdSet | rxLensSet | histExportSet | histExportEnable | histExportDisable | histPlaneHold | histPlaneRelease |
      histImportSet | retPointsSet | retRawSet | zoneMapSet | calCoeffCommit | calFullAbort =>
    simp [cmdChannelRestore, cmdVbdSet, cmdLensSet, cmdExportSet, cmdExportEnable, cmdExportDisable, cmdPlaneHold, cmdPlaneRelease,
      cmdImportSet, cmdPointsSet, cmdRawSet, cmdZoneMapSet, cmdCalCoeffCommit, cmdCalFullAbort]
  case ringPortSet | ringPortEnable | ringPortDisable | ringResvSet | ringResvClear | ringRouteRebalance | qEnable | qDisable |
      qUnsubscribe | qRead | camPortSet | camEnable | camDisable =>
    simp [cmdRingPortSet, cmdRingPortEnable, cmdRingPortDisable, cmdRingResvSet, cmdRingResvClear, cmdRebalance, cmdQEnable, cmdQDisable,
      Device.queueStop, cmdQUnsubscribe, cmdQRead, cmdCamPortSet, cmdCamEnable, cmdCamDisable]
  case lampBlockCommit | lampRulesSet | lampFaultClear | lampRemapSet | adcEnable | adcDisable | adcSeqSet | adcSeqEnable | adcSeqDisable
      | adcSeqTrigger | adcExcEnable | adcExcDisable =>
    simp [cmdBlockCommit, cmdRulesSet, cmdFaultClear, Device.clearLatched, cmdRemapSet, cmdAdcEnable, cmdAdcDisable, cmdSeqSet,
      cmdSeqEnable, cmdSeqDisable, Device.seqStop, cmdSeqTrigger, cmdExcEnable, cmdExcDisable]
  case streamEventsSet | streamMirrorSet | bistConfigSet | bistUnusableClear | secStatusGet | sealIdentGet | lcAdvance | fwStageBegin |
      fwStageWrite | fwConfirm | sealResvSet | sealResvClear | logMark =>
    simp [cmdEventsSet, cmdMirrorSet, cmdBistConfig, cmdUnusableClear, cmdSecStatus, cmdSealIdent, cmdAdvance, cmdStageBegin,
      cmdStageWrite, cmdFwConfirm, cmdSealResvSet, cmdSealResvClear, cmdLogMark]
  case sysSessionClose | rxMaskCommit | qSubscribe | lampRemapClear | inConfigSet | adcCalCommit | bistDirectedRun | secKeyWrite |
      thermSensorRestore =>
    dsimp only [cmdSessionClose, cmdMaskCommit, cmdQSubscribe, cmdRemapClear, cmdInConfigSet, cmdAdcCalCommit, cmdDirectedRun,
      cmdKeyWrite, cmdSensorRestore]
    split <;> simp [Device.writeKey]
  case scanPlanWrite =>
    dsimp only [cmdPlanWrite, Fire.writePlan]
    split <;> rfl
  case logCountersGet =>
    dsimp only [cmdLogCounters]
    refine Device.latch_foldl _ (fun d i => ?_) _ d
    exact congrArg Fire.latch (d.checkPair_keeps ..).fire
  case fireKillClear dt o => exact absurd rfl (hkill dt o)
  case fireStripeClear dt o => exact absurd rfl (hstripe dt o)

end Sys2Proof.Machine
end

section
/-! What writes the kill latch keeps a kill (R95-R97, R367), and a shot in its parts (R88). -/

namespace Sys2Proof.Machine

open Sys2Proof

/-! A bit replaced. -/

theorem bit_eq_testBit {n : Nat} (b : BitVec n) (i : Nat) : bit b i = b.toNat.testBit i := by
  rw [bit_eq_getLsbD, BitVec.getLsbD]

/-- A number cut at one of its bits, and what another value of that bit changes. -/
theorem testBit_replace (h l i j : Nat) (v : Bool) (hl : l < 2 ^ i) :
    (2 ^ i * (2 * h + v.toNat) + l).testBit j = if j = i then v else (2 ^ i * (2 * h) + l).testBit j := by
  simp only [Nat.testBit_two_pow_mul_add _ hl]
  by_cases hij : j < i
  · simp [hij, Nat.ne_of_lt hij]
  · obtain ⟨k, rfl⟩ := Nat.exists_eq_add_of_le (Nat.le_of_not_lt hij)
    cases k with
    | zero => cases v <;> simp
    | succ k =>
      have hdiv : (2 * h + v.toNat) / 2 = h := by cases v <;> simp; omega
      simp [Nat.testBit_succ, hdiv]

/-- A bit replaced, and the others as they were. -/
theorem bit_setBit {n : Nat} (b : BitVec n) (i j : Nat) (v : Bool) (hj : j < n) : bit (setBit b i v) j = if j = i then v else bit b j := by
  let h := b.toNat / 2 ^ i / 2
  let l := b.toNat % 2 ^ i
  have hl : l < 2 ^ i := Nat.mod_lt _ (Nat.two_pow_pos i)
  have hfld : fld b i i = (bit b i).toNat := by
    unfold fld bit
    rcases Nat.mod_two_eq_zero_or_one (b.toNat / 2 ^ i) with h | h <;> simp [h]
  have hcut : b.toNat = 2 ^ i * (2 * h + (bit b i).toNat) + l := by
    rw [← hfld, fld, Nat.sub_self, Nat.zero_add, Nat.pow_one, Nat.div_add_mod, Nat.div_add_mod]
  have hput : b.toNat - fld b i i * 2 ^ i + v.toNat % 2 ^ (i - i + 1) * 2 ^ i = 2 ^ i * (2 * h + v.toNat) + l := by
    have hv : v.toNat % 2 ^ (i - i + 1) = v.toNat := by rw [Nat.sub_self]; cases v <;> rfl
    rw [hfld, hv]
    generalize b.toNat = x, (bit b i).toNat = c, v.toNat = w, 2 ^ i = p at *
    subst hcut
    have hmul : ∀ w, p * (2 * h + w) = p * (2 * h) + w * p := fun w => by ring
    rw [hmul, hmul]
    omega
  have hbit := testBit_replace h l i j (bit b i) hl
  rw [← hcut] at hbit
  rw [bit_eq_testBit, setBit, setFld, hput, BitVec.toNat_ofNat, Nat.testBit_mod_two_pow, testBit_replace h l i j v hl, bit_eq_testBit b j, hbit]
  simp only [hj, decide_true, Bool.true_and]
  split <;> rfl

theorem Pair.ok_of {n : Nat} (v : BitVec n) : (Pair.of v).ok = true := beq_self_eq_true _

theorem Stored.live_put {n : Nat} (x : Stored n) (v : BitVec n) : (x.put v).live = .of v := by
  unfold Stored.put Stored.live
  split <;> simp only [Pair.ok_of, if_true] <;> rfl

/-- The value last written is the one in use. -/
@[simp] theorem Stored.use_put {n : Nat} (x : Stored n) (v d : BitVec n) : (x.put v).use d = v := by
  rw [Stored.use, Stored.live_put, Pair.use, if_pos (Pair.ok_of v)]
  rfl

/-! The latch in use. -/

@[simp] theorem Fire.latchNow_setLatch (f : Fire) (v : BitVec 64) : (f.setLatch v).latchNow = v := Stored.use_put _ _ _

theorem Fire.killed_congr {f g : Fire} (h : g.latch = f.latch) : g.killed = f.killed := by
  rw [Fire.killed, Fire.latchNow, h]
  rfl

/-- A bit of the latch set, any other as it was. -/
theorem Fire.killed_setLatch_mark (f : Fire) (k : Nat) : (f.setLatch (setBit f.latchNow k true)).killed = (f.killed || decide (48 = k)) := by
  rw [Fire.killed, Fire.latchNow_setLatch, bit_setBit _ _ _ _ (by decide)]
  by_cases h : 48 = k <;> simp [h, Fire.killed]

theorem Fire.killed_setLatch_or (f : Fire) (m : BitVec 64) : (f.setLatch (f.latchNow ||| m)).killed = (f.killed || bit m 48) := by
  simp only [Fire.killed, Fire.latchNow_setLatch, bit_eq_getLsbD, BitVec.getLsbD_or]

/-- Marks of stripes cleared leave the kill alone: they are 48 bits. -/
theorem Fire.killed_setLatch_clear (f : Fire) {v : Nat} (h : v < 2 ^ 48) : (f.setLatch (f.latchNow &&& ~~~(.ofNat 64 v))).killed = f.killed := by
  have hv : v.testBit 48 = false := Nat.testBit_lt_two_pow h
  have hbit : (BitVec.ofNat 64 v).getLsbD 48 = false := by rw [BitVec.getLsbD_ofNat, hv, Bool.and_false]
  simp only [Fire.killed, Fire.latchNow_setLatch, bit_eq_getLsbD, BitVec.getLsbD_and, BitVec.getLsbD_not, hbit, Bool.not_false,
    Nat.reduceLT, decide_true, Bool.and_true]

/-! Kills kept. -/

/-- A kill latched in the one device is latched in the other. -/
def Device.KeepsKill (d d' : Device) : Prop := d.fire.killed = true → d'.fire.killed = true

theorem Device.KeepsKill.refl (d : Device) : d.KeepsKill d := id

theorem Device.KeepsKill.trans {a b c : Device} (h : a.KeepsKill b) (k : b.KeepsKill c) : a.KeepsKill c := k ∘ h

theorem Device.KeepsKill.of_killed {d d' : Device} (h : d'.fire.killed = d.fire.killed) : d.KeepsKill d' := h.trans

theorem Device.KeepsKill.of_latch {d d' : Device} (h : d'.fire.latch = d.fire.latch) : d.KeepsKill d' := .of_killed (Fire.killed_congr h)

theorem Device.KeepsKill.ite {d x y : Device} {c : Prop} [Decidable c] (hx : d.KeepsKill x) (hy : d.KeepsKill y) :
    d.KeepsKill (if c then x else y) := by
  split <;> assumption

theorem Device.KeepsKill.foldl {α : Type} {f : Device → α → Device} (hf : ∀ (d : Device) a, d.KeepsKill (f d a)) (l : List α) (d : Device) :
    d.KeepsKill (l.foldl f d) := by
  induction l generalizing d with
  | nil => exact .refl d
  | cons a t ih => exact (hf d a).trans (ih _)

theorem Device.mram_keepsKill (d : Device) (general : Bool) {write : Device → Device} (h : ∀ x : Device, x.KeepsKill (write x)) :
    d.KeepsKill (d.mram general write) := by
  unfold Device.mram
  split
  · exact .refl d
  · refine .trans (.of_latch ?_) (h _)
    simp

/-! What writes the latch keeps a kill: the firing controller. -/

theorem Device.latchKill_keepsKill (d : Device) : d.KeepsKill d.latchKill :=
  d.mram_keepsKill false fun d h => (d.fire.killed_setLatch_mark 48).trans (by simp)

theorem Device.emitFault_keepsKill (d : Device) : d.KeepsKill d.emitFault := by
  unfold Device.emitFault
  extract_lets cancelled latched
  have hcancelled : d.KeepsKill cancelled := .of_latch (by simp [cancelled])
  have hlatched : cancelled.KeepsKill latched := .ite cancelled.latchKill_keepsKill (.refl _)
  exact hcancelled.trans (hlatched.trans (.of_latch (by simp)))

theorem Device.armLead_keepsKill (d : Device) : d.KeepsKill d.armLead := by
  unfold Device.armLead
  exact .ite (.refl d) (.ite d.emitFault_keepsKill (.ite (.of_latch (by simp)) (.refl d)))

theorem Device.emitFaultPin_keepsKill (d : Device) (width : Nat) : d.KeepsKill (d.emitFaultPin width) := by
  unfold Device.emitFaultPin
  extract_lets pin
  have hpin : d.KeepsKill pin := .of_latch rfl
  exact hpin.trans (.ite pin.emitFault_keepsKill (.refl pin))

theorem Device.stray_keepsKill (d : Device) (w at_ : Nat) : d.KeepsKill (d.stray w at_) := by
  unfold Device.stray
  extract_lets l listed first time stripe latched
  have hlisted : d.KeepsKill listed := .of_latch rfl
  refine hlisted.trans (.ite (.refl _) ?_)
  have hlatched : listed.KeepsKill latched := .trans (.of_latch (by simp)) (Device.latchKill_keepsKill _)
  exact hlatched.trans (.of_latch (by simp [Device.emitterRecord]))

theorem Device.darkEvent_keepsKill (d : Device) (g : Group) (s : Nat) : d.KeepsKill (d.darkEvent g s) := by
  unfold Device.darkEvent
  extract_lets x run failed counted marked payload
  have hcounted : d.KeepsKill counted := .of_latch rfl
  have hmarked : counted.KeepsKill marked :=
    .ite (counted.mram_keepsKill false fun d h => (d.fire.killed_setLatch_mark x.stripe).trans (by simp [h])) (.refl _)
  exact hcounted.trans (hmarked.trans (.of_latch (by simp [Device.emitterRecord])))

/-! A shot in its parts. -/

/-- The sums with every slot charged that fires in a shot (R88). -/
def Fire.chargeSlots (f : Fire) (g : Group) (ok : List Bool) : Fire :=
  (List.range 4).foldl (fun f s => if (ok[s]?).getD false then f.charge (vget g.slots s {}).stripe (descEnergy g.desc s) else f) f

/-- The dither code of the next shot, as far as a group's descriptor lets it through (R85). -/
def Fire.shotDither (f : Fire) (g : Group) : Nat := Nat.land (ditherCode (lfsrShot f.lfsr)) (descMask g.desc)

/-- A group after its next shot, the sums of `f` moved on to its instant. -/
def Fire.shotGroup (f : Fire) (g : Group) (ws : List (List Nat)) : Group :=
  g.shot f.emitter (f.shotDither g) (ditherParity (ditherCode (lfsrShot f.lfsr))) (f.govern g) ws

/-- The firing controller once a shot is commanded and charged, the sums of `f` moved on to its instant. -/
def Fire.shoot (f : Fire) (g : Group) (now : Nat) (ws : List (List Nat)) : Fire :=
  { f.chargeSlots g (f.govern g) with
    grp := some (f.shotGroup g ws), lfsr := lfsrShot f.lfsr, slotClk := now, dither := f.shotDither g
    parity := ditherParity (ditherCode (lfsrShot f.lfsr)), selUntil := selTimes f.emitter g now (f.shotDither g) }

/-- The witness pulses of a shot on W0-W3, and the rest of each for the next one (R127). -/
def Device.shotSeen (d : Device) (ps : List (List (Nat × Nat))) : List (List Nat × WitTail) :=
  ps.zipIdx.map (fun p => d.rx.fireWitness p.2 (32 * d.now) p.1)

/-- What a shot reports, and the stray events of its witnesses (R89, R94, R95): `f` as the governor tested it, the group before and
after. -/
def Device.shotEvents (d : Device) (f : Fire) (g g' : Group) (ws : List (List Nat)) : Device :=
  let newly := fun (p : SlotRun → Bool) => (List.range 4).filter (fun s => p (vget g'.slots s {}) && !p (vget g.slots s {}))
  let d := (newly (fun x => x.dosed)).foldl (fun d s => d.doseEvent f g' s) d
  let d := (newly (fun x => x.dark)).foldl (fun d s => d.darkEvent g' s) d
  ws.zipIdx.foldl (fun d p => (strayEvents f.emitter (fireEdge f.emitter (f.shotDither g) p.2) (((f.govern g)[p.2]?).getD false) p.1).foldl
    (fun d t => d.stray p.2 (d.now + t / 32)) d) d

theorem Device.shot_due {d : Device} {g : Group} (hg : d.fire.grp = some g) (hdue : d.fire.shotDue g d.now = true)
    (ps : List (List (Nat × Nat))) : ∃ rx : Rx, d.shot ps =
      ({ d with fire := (d.fire.roll d.govTime).shoot g d.now ((d.shotSeen ps).map (fun x => x.1)), rx } : Device).shotEvents
        (d.fire.roll d.govTime) g ((d.fire.roll d.govTime).shotGroup g ((d.shotSeen ps).map (fun x => x.1)))
        ((d.shotSeen ps).map (fun x => x.1)) := by
  unfold Device.shot
  split
  · next h => rw [hg] at h; cases h
  · next g' h =>
    rw [hg] at h
    cases h
    rw [hdue, Bool.not_true, if_neg Bool.false_ne_true]
    lift_lets
    extract_lets f lfsr c dither parity ok seen ws fires g' charged edges len begun moved newly dosed dark
    have hcharged : (d.fire.roll d.govTime).chargeSlots g ((d.fire.roll d.govTime).govern g) = charged := rfl
    clear_value charged
    have hbegun : begun = { d with fire := (d.fire.roll d.govTime).shoot g d.now ((d.shotSeen ps).map (fun x => x.1)) } := by
      unfold Fire.shoot
      rw [hcharged]
      rfl
    have hmoved : ∃ rx : Rx, moved = { begun with rx } := ⟨_, rfl⟩
    clear_value moved begun
    obtain ⟨rx, rfl⟩ := hmoved
    subst hbegun
    exact ⟨rx, rfl⟩

theorem Device.shot_idle {d : Device} (h : ∀ g, d.fire.grp = some g → d.fire.shotDue g d.now = false) (ps : List (List (Nat × Nat))) :
    d.shot ps = d := by
  unfold Device.shot
  split
  · rfl
  · next g hg => rw [h g hg, Bool.not_false, if_pos rfl]

@[simp] theorem Fire.chargeSlots_latch (f : Fire) (g : Group) (ok : List Bool) : (f.chargeSlots g ok).latch = f.latch := by
  refine Fire.foldl_latch _ (fun x s => ?_) _ _
  split <;> rfl

@[simp] theorem Fire.shoot_latch (f : Fire) (g : Group) (now : Nat) (ws : List (List Nat)) : (f.shoot g now ws).latch = f.latch := by
  have h := f.chargeSlots_latch g (f.govern g)
  unfold Fire.shoot
  generalize f.chargeSlots g (f.govern g) = c at h ⊢
  exact h

theorem Device.shotEvents_keepsKill (d : Device) (f : Fire) (g g' : Group) (ws : List (List Nat)) : d.KeepsKill (d.shotEvents f g g' ws) := by
  unfold Device.shotEvents
  extract_lets newly dosed dark
  have hdosed : d.KeepsKill dosed := .of_latch (by simp [dosed])
  have hdark : dosed.KeepsKill dark := .foldl (fun d s => d.darkEvent_keepsKill g' s) _ _
  exact hdosed.trans (hdark.trans (.foldl (fun d p => .foldl (fun d t => d.stray_keepsKill _ _) _ _) _ _))

theorem Device.shot_keepsKill (d : Device) (ps : List (List (Nat × Nat))) : d.KeepsKill (d.shot ps) := by
  by_cases h : ∃ g, d.fire.grp = some g ∧ d.fire.shotDue g d.now = true
  · obtain ⟨g, hg, hdue⟩ := h
    obtain ⟨rx, hshot⟩ := d.shot_due hg hdue ps
    rw [hshot]
    refine Device.KeepsKill.trans ?_ (Device.shotEvents_keepsKill _ _ _ _ _)
    refine .of_latch ?_
    dsimp only
    rw [Fire.shoot_latch, Fire.roll_latch]
  · rw [d.shot_idle (fun g hg => eq_false_of_ne_true fun hdue => h ⟨g, hg, hdue⟩)]
    exact .refl d

/-! What writes the latch keeps a kill: self-test. -/

theorem Device.markUnit_keepsKill (d : Device) (cls idx : Nat) : d.KeepsKill (d.markUnit cls idx).1 := by
  unfold Device.markUnit
  split
  · exact .refl d
  · extract_lets marked
    have hmarked : d.KeepsKill marked := .of_latch (by simp [marked])
    refine hmarked.trans ?_
    split
    · split
      · exact .of_latch (by simp)
      · split
        · exact marked.mram_keepsKill true fun d h => (d.fire.killed_setLatch_or _).trans (by simp [h])
        · exact .refl _
    · exact .of_latch (by simp)
    · exact .of_latch (by simp)
    · exact .of_latch (by simp)
    · exact .refl _

theorem Device.slicePass_keepsKill (d : Device) (n : Nat) (w : Word) : d.KeepsKill (d.slicePass n w).1 := by
  unfold Device.slicePass
  split
  · exact .refl d
  · extract_lets cls key ns old counted r
    have hcounted : d.KeepsKill counted := .of_latch rfl
    refine hcounted.trans ?_
    split
    · exact (counted.markUnit_keepsKill cls _).trans (.of_latch (Device.bistFail_latch ..))
    · exact .of_latch (by simp)

theorem Device.sliceFail_keepsKill (d : Device) (n unit : Nat) (w : Word) : d.KeepsKill (d.sliceFail n unit w).1 := by
  unfold Device.sliceFail
  extract_lets cls
  split
  · lift_lets
    extract_lets r
    have hr : (d.modBist (fun b => { b with retest := mdel n b.retest })).KeepsKill r.1 := Device.markUnit_keepsKill _ _ _
    have hd : d.KeepsKill r.1 := .trans (.of_latch rfl) hr
    exact hd.trans (.of_latch (Device.bistFail_latch ..))
  · exact .of_latch (by simp)

theorem Device.sliceEnd_keepsKill (d : Device) (r : SliceResult) : d.KeepsKill (d.sliceEnd r).1 := by
  unfold Device.sliceEnd
  split
  · exact .refl d
  · extract_lets n v idx w ended y
    split
    · exact .of_latch (by simp)
    · have hended : d.KeepsKill ended := .of_latch rfl
      have hy : ended.KeepsKill y.1 := by
        simp only [y]
        split
        · exact ended.slicePass_keepsKill _ _
        · exact ended.sliceFail_keepsKill _ _ _
      exact hended.trans (hy.trans (.of_latch (by simp)))

theorem Device.sliceStopped_keepsKill (d : Device) (seen : Option Nat) {stop : Device} (h : d.KeepsKill stop) :
    d.KeepsKill (d.sliceStopped seen stop).1 := by
  cases seen with
  | none => exact h
  | some u => exact d.sliceEnd_keepsKill _

theorem Device.sliceService_keepsKill (d : Device) (bus : Bool) (seen : Option Nat) : d.KeepsKill (d.sliceService bus seen).1 := by
  unfold Device.sliceService
  split
  · exact .refl d
  · exact d.sliceStopped_keepsKill seen (.of_latch (by simp))

theorem Device.slicePrecond_keepsKill (d : Device) (cause : Nat) (seen : Option Nat) : d.KeepsKill (d.slicePrecond cause seen).1 := by
  unfold Device.slicePrecond
  split
  · exact .refl d
  · exact d.sliceStopped_keepsKill seen (.of_latch (by simp))

end Sys2Proof.Machine
end

section
/-! The command protocol keeps a kill that the command keeps (R97, R440). -/

namespace Sys2Proof.Machine

open Sys2Proof

/-! The protocol keeps a kill that its command's effect keeps. -/

/-- Where its checks pass, on a device with the firing controller `f`, a command's effect keeps a kill. -/
def Cmd.KeepsKill (c : Cmd) (f : Fire) : Prop :=
  ∀ ctx p (d : Device), d.fire = f → c.late p d = none → d.KeepsKill (c.run ctx p d).1

section
variable {c : Cmd} {f : Fire} (hc : c.KeepsKill f)
include hc

theorem Cmd.execute_keepsKill (ctx : Ctx) (p : Bytes) {d : Device} (hd : d.fire = f) : d.KeepsKill (c.execute ctx p d).1 := by
  unfold Cmd.execute
  split
  · exact .refl d
  · split
    · exact .of_latch rfl
    · split
      · exact .refl d
      · next hlate => exact hc ctx p d hd hlate

theorem Cmd.tracked_keepsKill (e : Env) {d : Device} (hd : d.fire = f) : d.KeepsKill (c.tracked e d).1 := by
  have haccept : (d.accept e (c.sealed e.payload)).fire = d.fire := (d.accept_keeps e _).fire
  unfold Cmd.tracked
  extract_lets ctx r
  have hr : d.KeepsKill r.1 :=
    .trans (.of_latch (congrArg Fire.latch haccept)) (Cmd.execute_keepsKill hc ctx e.payload (haccept.trans hd))
  split
  · split
    · exact .of_latch (congrArg Fire.latch (d.rightsRead_keeps ..).fire)
    · exact hr.trans (.of_latch (by simp))
  · exact hr.trans (.of_latch rfl)

theorem Cmd.untracked_keepsKill (e : Env) {d : Device} (hd : d.fire = f) : d.KeepsKill (c.untracked e d).1 := by
  unfold Cmd.untracked
  extract_lets ctx r
  split
  · exact Cmd.execute_keepsKill hc ctx e.payload hd
  · exact .refl d

theorem Cmd.sessionless_keepsKill {opens : Env → Device → Device × Bytes} (ho : ∀ e d, (opens e d).1.fire.latch = d.fire.latch) (e : Env)
    {d : Device} (hd : d.fire = f) : d.KeepsKill (c.sessionless opens e d).1 := by
  unfold Cmd.sessionless
  split
  · exact .of_latch (ho e d)
  · split
    · exact Cmd.untracked_keepsKill hc e hd
    · exact .refl d

theorem Cmd.handle_keepsKill {opens : Env → Device → Device × Bytes} (ho : ∀ e d, (opens e d).1.fire.latch = d.fire.latch) (e : Env)
    {d : Device} (hd : d.fire = f) : d.KeepsKill (c.handle opens e d).1 := by
  have hserve : (d.serveOrWait [5]).fire = d.fire := d.serveOrWait_onlyIn [5] .fire (by decide)
  unfold Cmd.handle
  extract_lets now plain s key tagged queried served handled
  have hserved : d.KeepsKill served := .of_latch (congrArg Fire.latch hserve)
  split
  · exact .refl d
  · split
    · exact Cmd.sessionless_keepsKill hc ho e hd
    · split
      · exact .refl d
      · split
        · exact Cmd.untracked_keepsKill hc e hd
        · split
          · exact hserved
          · split
            · split
              · exact hserved.trans (.of_latch rfl)
              · exact hserved
            · split
              · exact hserved
              · split
                · exact hserved
                · exact hserved.trans (Cmd.tracked_keepsKill hc e (hserve.trans hd))

end

/-! Rows keep a kill. -/

/-- Where a row answers a next state, it keeps a kill latched. -/
def RowKeepsKill (s : State) (x : Host.Outcome State Fault Refusal) : Prop := ∀ t, x = .next t → s.dev.KeepsKill t.dev

theorem RowKeepsKill.ite {s : State} {c : Prop} [Decidable c] {x y : Host.Outcome State Fault Refusal} (hx : RowKeepsKill s x)
    (hy : RowKeepsKill s y) : RowKeepsKill s (if c then x else y) := by
  split <;> assumption

/-- The end of a step keeps a kill that the row's effect keeps. -/
theorem State.settle_keepsKill {s : State} {u : State} (old : Device) (h : s.dev.KeepsKill u.dev) :
    RowKeepsKill s (.next (u.settle old)) := by
  intro t ht
  cases ht
  exact h.trans (.of_latch (congrArg Fire.latch (u.settle_keeps old).fire))

section
variable {dt : Nat} {s : State} {f : Device → Device}

theorem devRow_keepsKill (hf : ∀ d : Device, d.KeepsKill (f d)) : RowKeepsKill s (devRow dt f s) :=
  State.settle_keepsKill _ (hf (s.elapse dt).dev)

theorem coreRow_keepsKill (hf : ∀ d : Device, d.KeepsKill (f d)) : RowKeepsKill s (coreRow dt f s) :=
  devRow_keepsKill fun d => .ite (hf d) (.refl d)

theorem fwRow_keepsKill (hf : ∀ d : Device, d.KeepsKill (f d)) : RowKeepsKill s (fwRow dt f s) :=
  devRow_keepsKill fun d => .ite (hf d) (.refl d)

theorem fieldRow_keepsKill (hf : ∀ d : Device, d.KeepsKill (f d)) : RowKeepsKill s (fieldRow dt f s) :=
  devRow_keepsKill fun d => .ite (hf d) (.refl d)

theorem topoRow_latch {p : Port} {type : Nat} {flit : BitVec 512} (hf : ∀ d, (f d).fire.latch = d.fire.latch) :
    RowKeepsKill s (topoRow dt p type flit f s) :=
  coreRow_keepsKill fun d => .of_latch (d.topo_latch _ _ _ _ hf)

/-- A host-port transaction leaves the device alone. -/
theorem hostRow_keepsKill {g : State → State} (hg : ∀ t, (g t).dev = t.dev) : RowKeepsKill s (hostRow dt g s) := by
  refine State.settle_keepsKill _ (.of_latch ?_)
  split
  · rw [hg]
    rfl
  · rfl

/-- A reset keeps a kill that its device keeps. -/
theorem resetRow_keepsKill {act : Device → Option Device} (hact : ∀ d x : Device, act d = some x → d.KeepsKill x) :
    RowKeepsKill s (resetRow dt act s) := by
  unfold resetRow
  dsimp only
  split
  · next d hd =>
    intro t ht
    cases ht
    exact hact (s.elapse dt).dev d hd
  · exact State.settle_keepsKill _ (.of_latch rfl)

theorem sliceRowEnd_keepsKill {act : Device → Device × Bool} (hact : ∀ d : Device, d.KeepsKill (act d).1) :
    RowKeepsKill s (sliceRowEnd dt act s) := by
  have hend : s.dev.KeepsKill (act (s.elapse dt).dev).1 := hact (s.elapse dt).dev
  unfold sliceRowEnd
  extract_lets x
  split
  · unfold resetRow
    intro t ht
    cases ht
    exact hend.trans (.of_latch (by simp [x]))
  · refine State.settle_keepsKill _ ?_
    dsimp only
    split
    · exact hend
    · exact .of_latch rfl

/-- The response's delivery leaves the kill latch alone. -/
theorem State.deliver_latch (s : State) (o : Origin) (path : Path) (r : Bytes) : (s.deliver o path r).dev.fire.latch = s.dev.fire.latch := by
  unfold State.deliver
  split
  · rfl
  · split <;> simp
  · rfl

theorem wcpRowThen_keepsKill {o : Origin} {c : Cmd} {opens : Env → Device → Device × Bytes} {after : Device → Device → Device}
    (hc : c.KeepsKill s.dev.fire) (ho : ∀ e d, (opens e d).1.fire.latch = d.fire.latch)
    (ha : ∀ old new, (after old new).fire.latch = new.fire.latch) : RowKeepsKill s (wcpRowThen dt o c opens after s) := by
  refine State.settle_keepsKill _ ?_
  dsimp only
  split
  · exact .of_latch rfl
  · next e _ =>
    split
    · have hhandle : (s.elapse dt).dev.KeepsKill (c.handle opens e (s.elapse dt).dev).1 := Cmd.handle_keepsKill hc ho e rfl
      exact Device.KeepsKill.trans hhandle (.of_latch ((ha _ _).trans (State.deliver_latch ..)))
    · exact .of_latch rfl

end

end Sys2Proof.Machine
end

section
/-! Every row keeps a kill latched, but fire.kill.clear in OFF (R97). -/

namespace Sys2Proof.Machine

open Sys2Proof

/-! Sealed commands that waited (R388). -/

theorem Cmd.KeepsKill.of_latch {c : Cmd} (h : ∀ ctx p d, (c.run ctx p d).1.fire.latch = d.fire.latch) (f : Fire) : c.KeepsKill f :=
  fun ctx p d _ _ => .of_latch (h ctx p d)

/-- A sealed-change command leaves the kill latch alone, as its row's command does. -/
theorem sealedCmds_latch : ∀ c ∈ sealedCmds, ∀ ctx p d, (c.run ctx p d).1.fire.latch = d.fire.latch := by
  have hrow : ∀ (i : Instr) (r : WcpRow), wcpRow? i = some r → (∀ dt o, i ≠ .fireKillClear dt o) →
      (∀ dt o, i ≠ .fireStripeClear dt o) → ∀ ctx p d, (r.cmd.run ctx p d).1.fire.latch = d.fire.latch := fun i r => wcpRow?_latch
  intro c hc
  simp only [sealedCmds, List.mem_cons, List.not_mem_nil, or_false] at hc
  rcases hc with rfl | rfl | rfl | rfl | rfl | rfl | rfl | rfl | rfl | rfl | rfl | rfl | rfl | rfl | rfl
  · exact hrow (.fireBudgetSet 0 .q0) _ rfl nofun nofun
  · exact hrow (.rxLensSet 0 .q0) _ rfl nofun nofun
  · exact hrow (.zoneMapSet 0 .q0) _ rfl nofun nofun
  · exact hrow (.lampBlockWrite 0 .q0) _ rfl nofun nofun
  · exact hrow (.lampBlockCommit 0 .q0) _ rfl nofun nofun
  · exact hrow (.lampRulesSet 0 .q0) _ rfl nofun nofun
  · exact hrow (.bistConfigSet 0 .q0) _ rfl nofun nofun
  · exact hrow (.secKeyWrite 0 .q0) _ rfl nofun nofun
  · exact hrow (.fwStageBegin 0 .q0) _ rfl nofun nofun
  · exact hrow (.fwStageWrite 0 .q0) _ rfl nofun nofun
  · exact hrow (.fwStageVerify 0 .q0) _ rfl nofun nofun
  · exact hrow (.fwSwitch 0 .q0) _ rfl nofun nofun
  · exact hrow (.fwConfirm 0 .q0) _ rfl nofun nofun
  · exact hrow (.sealResvSet 0 .q0) _ rfl nofun nofun
  · exact hrow (.sealResvClear 0 .q0) _ rfl nofun nofun

theorem Device.runDeferred_keepsKill (d : Device) (x : Deferred) : d.KeepsKill (d.runDeferred x) := by
  unfold Device.runDeferred
  split
  · next c w hc _ =>
    have hmem : c ∈ sealedCmds := List.mem_of_find?_eq_some hc
    extract_lets ctx r
    have hr : d.KeepsKill r.1 :=
      .trans (.of_latch (congrArg Fire.latch (d.checkPair_keeps ..).fire))
        (Cmd.execute_keepsKill (.of_latch (sealedCmds_latch c hmem) _) ctx x.payload (d := d.lcUsed) rfl)
    split
    · refine hr.trans (.of_latch ((Device.closeWritten_latch ..).trans ?_))
      exact congrArg Fire.latch (Device.finish_keeps _ w _ _).fire
    · exact hr.trans (.of_latch rfl)
  · exact .refl d

theorem Device.runAllDeferred_keepsKill (l : List Deferred) (d : Device) : d.KeepsKill (d.runAllDeferred l) := by
  induction l generalizing d with
  | nil => exact .refl d
  | cons x t ih =>
    unfold Device.runAllDeferred
    exact .ite (.of_latch rfl) ((d.runDeferred_keepsKill x).trans (ih _))

theorem Device.sealedEnds_keepsKill (d : Device) : d.KeepsKill d.sealedEnds := by
  unfold Device.sealedEnds
  exact .ite (.refl d) (Device.runAllDeferred_keepsKill _ (d.modSec _))

/-- A device whose latch stands, before the waiting commands run. -/
theorem Device.KeepsKill.sealedEnds {d x : Device} (h : x.fire.latch = d.fire.latch) : d.KeepsKill x.sealedEnds :=
  .trans (.of_latch h) x.sealedEnds_keepsKill

theorem Device.sealRunning_keepsKill (d : Device) : d.KeepsKill d.sealRunning := by
  unfold Device.sealRunning
  split
  · exact .ite (.refl d) (.sealedEnds (by simp))
  · exact .refl d

theorem Device.sealFailed_keepsKill (d : Device) : d.KeepsKill d.sealFailed := by
  unfold Device.sealFailed
  split
  · exact .refl d
  · exact .ite (.refl d) (.sealedEnds (by simp))

/-! The commands that write the latch. -/

theorem cmdStripeClear_keepsKill (f : Fire) : cmdStripeClear.KeepsKill f := by
  intro ctx p d _ hlate
  have hp : p.val < 2 ^ 48 := by
    by_contra hp
    have hbad : cmdStripeClear.late p d = some (sBadParam, Bytes.nil) := by
      simp only [Cmd.late, cmdStripeClear, refuse, decide_eq_true (Nat.le_of_not_lt hp), if_true]
    exact absurd (hbad.symm.trans hlate) nofun
  exact d.mram_keepsKill true fun x => .of_killed (x.fire.killed_setLatch_clear hp)

/-- Outside OFF the clearing of the kill is refused. -/
theorem cmdKillClear_keepsKill {f : Fire} (h : f.fn.st ≠ .off) : cmdKillClear.KeepsKill f := by
  intro ctx p d hd hlate
  have hbad : cmdKillClear.late p d = some (sBadState, Bytes.nil) := by
    simp [Cmd.late, cmdKillClear, refuse, Fire.isOff, hd, h]
  exact absurd (hbad.symm.trans hlate) nofun

theorem cmdUndefined_keepsKill (id : Nat) (f : Fire) : (cmdUndefined id).KeepsKill f := .of_latch (fun _ _ _ => rfl) f

/-- Every command's effect keeps a kill, but fire.kill.clear in OFF. -/
theorem wcpRow?_keepsKill {i : Instr} {r : WcpRow} (h : wcpRow? i = some r) (f : Fire)
    (hi : ∀ dt o, i = .fireKillClear dt o → f.fn.st ≠ .off) : r.cmd.KeepsKill f := by
  by_cases hkill : ∃ dt o, i = .fireKillClear dt o
  · obtain ⟨dt, o, rfl⟩ := hkill
    cases h
    exact cmdKillClear_keepsKill (hi dt o rfl)
  · by_cases hstripe : ∃ dt o, i = .fireStripeClear dt o
    · obtain ⟨dt, o, rfl⟩ := hstripe
      cases h
      exact cmdStripeClear_keepsKill f
    · exact .of_latch (wcpRow?_latch h (fun dt o hk => hkill ⟨dt, o, hk⟩) (fun dt o hs => hstripe ⟨dt, o, hs⟩)) f

theorem WcpRow.opens_latch {i : Instr} {r : WcpRow} (h : wcpRow? i = some r) (e : Env) (d : Device) :
    (r.opens e d).1.fire.latch = d.fire.latch := by
  cases i <;> cases h
  case sysSessionOpen => exact d.sessionOpen_latch e
  all_goals rfl

theorem WcpRow.after_latch {i : Instr} {r : WcpRow} (h : wcpRow? i = some r) (old new : Device) :
    (r.after old new).fire.latch = new.fire.latch := by
  cases i <;> cases h
  case sysReset | bistDirectedRun => exact Device.resetAfterReply_latch old new
  case secKeyWrite => exact Device.closeWritten_latch old new
  case lcAdvance => exact Device.advanceAndReset_latch old new
  case pwrStandby => exact Device.standbyAfterReply_latch old new
  all_goals rfl

/-! The host port's transactions and the rows with a shape of their own. -/

theorem State.aligned_dev (s : State) (addr : BitVec 16) : (s.aligned addr).dev = s.dev := by
  unfold State.aligned
  split <;> rfl

theorem State.writeAt_dev (s : State) (a : Nat) (v : Word) : (s.writeAt a v).dev = s.dev := by
  unfold State.writeAt
  by_cases hbell : a = 0x0200
  · subst hbell
    exact (s.doorbells_same v (List.range 8)).1
  · rw [if_neg hbell]
    (repeat' split) <;> rfl

theorem State.writeBurst_dev (ws : List Word) (s : State) (a : Nat) : (s.writeBurst a ws).dev = s.dev := by
  induction ws generalizing s a with
  | nil => rfl
  | cons v t ih => exact (ih _ _).trans (s.writeAt_dev a v)

theorem State.hostWrite_dev (s : State) (addr : BitVec 16) (ws : List Word) : (s.hostWrite addr ws).dev = s.dev :=
  (State.writeBurst_dev ws _ _).trans (s.aligned_dev addr)

theorem State.readAt_dev (s : State) (a : Nat) : (s.readAt a).1.dev = s.dev := by
  unfold State.readAt
  dsimp only
  (repeat' split) <;> rfl

theorem State.readBurst_dev (n : Nat) (s : State) (a : Nat) : (s.readBurst a n).1.dev = s.dev := by
  induction n generalizing s a with
  | zero => rfl
  | succ n ih => exact (ih _ _).trans (s.readAt_dev a)

theorem State.hostRead_dev (s : State) (addr : BitVec 16) (n : Nat) : (s.hostRead addr n).dev = s.dev :=
  (State.readBurst_dev n _ _).trans (s.aligned_dev addr)

/-- A transaction of Table 2-1 changes the host port alone. -/
theorem State.transaction_dev (s : State) (op : Byte) (addr : BitVec 16) (ws : List Word) : (s.transaction op addr ws).dev = s.dev := by
  unfold State.transaction
  split
  · exact s.hostRead_dev _ _
  · split
    · exact s.hostWrite_dev _ _
    · rfl

theorem execHostCsNRelease_keepsKill (dt : Nat) (cut : CutWord) (s : State) : RowKeepsKill s (execHostCsNRelease dt cut s) := by
  refine State.settle_keepsKill _ (.of_latch ?_)
  split <;> rfl

theorem execBadOp_keepsKill (dt : Nat) (op : Byte) (s : State) : RowKeepsKill s (execBadOp dt op s) := by
  refine hostRow_keepsKill fun t => ?_
  split
  · rfl
  · exact t.transaction_dev _ _ _

theorem execUndefinedCommandId_keepsKill (dt : Nat) (o : Origin) (s : State) : RowKeepsKill s (execUndefinedCommandId dt o s) := by
  unfold execUndefinedCommandId
  dsimp only
  split
  · exact .ite (devRow_keepsKill .refl)
      (wcpRowThen_keepsKill (cmdUndefined_keepsKill _ _) (fun _ _ => rfl) (fun _ _ => rfl))
  · exact devRow_keepsKill .refl

/-- A device that a guard brings, its latch as before. -/
theorem Device.KeepsKill.of_guarded {c : Prop} [Decidable c] {d x y : Device} (h : (if c then some y else none) = some x)
    (hy : y.fire.latch = d.fire.latch) : d.KeepsKill x := by
  split at h
  · cases h
    exact .of_latch hy
  · cases h

/-- What a row does keeps a kill latched, but where the row is fire.kill.clear in OFF. -/
theorem exec_keepsKill (c : Instr) (s : State) (hc : ∀ dt o, c = .fireKillClear dt o → s.dev.fire.fn.st ≠ .off) :
    RowKeepsKill s (exec c s) := by
  cases hr : wcpRow? c with
  | some r =>
    rw [exec_wcpRow c r hr]
    exact wcpRowThen_keepsKill (wcpRow?_keepsKill hr _ hc) (WcpRow.opens_latch hr) (WcpRow.after_latch hr)
  | none =>
    cases c <;> dsimp only [exec]
    case hifDbWrite | hifMbRelWrite | hifEvtRdWrite => exact hostRow_keepsKill fun t => t.hostWrite_dev _ _
    case hifTimeLoRead | hifEvtLostRead | mbWindowWrite | registerWrite => exact hostRow_keepsKill fun t => t.transaction_dev _ _ _
    case hostCsNRelease => exact execHostCsNRelease_keepsKill _ _ _
    case badOp => exact execBadOp_keepsKill _ _ _
    case undefinedCommandId => exact execUndefinedCommandId_keepsKill _ _ _
    case commandedResetTimer | switchoverTimeout | powerRemoval =>
      refine resetRow_keepsKill fun d x h => ?_
      split at h
      · exact .of_guarded h (by simp [Device.removed])
      · cases h
    case deviceReset | lockstepMismatch =>
      exact resetRow_keepsKill fun d x h => .of_guarded h (by simp)
    case aonMinimum =>
      refine resetRow_keepsKill fun d x h => ?_
      cases h
      exact .of_latch (by simp)
    case rstNAssert =>
      refine .ite (resetRow_keepsKill fun d x h => ?_) (devRow_keepsKill fun d => .of_latch (by simp [Device.rstAssert]))
      cases h
      exact .of_latch (by simp [Device.rstAssert])
    case functionRestart => exact .ite (fieldRow_keepsKill fun d => .of_latch (by simp)) (coreRow_keepsKill fun d => .of_latch (by simp))
    case sliceEnd => exact sliceRowEnd_keepsKill fun d => d.sliceEnd_keepsKill _
    case sliceServiceAbort => exact sliceRowEnd_keepsKill fun d => d.sliceService_keepsKill _ _
    case slicePreconditionLoss => exact sliceRowEnd_keepsKill fun d => d.slicePrecond_keepsKill _ _
    case bridgeCycle side =>
      cases side
      · exact coreRow_keepsKill fun d => .of_latch (by simp)
      · exact fieldRow_keepsKill fun d => .of_latch (by simp)
    case chan0RepeatTimeout side =>
      cases side
      · exact coreRow_keepsKill fun d => .of_latch (by simp [Device.chan0Timeout])
      · exact fieldRow_keepsKill fun d => .of_latch (by simp [Device.chan0Timeout])
    case bulkFrame side _ =>
      cases side
      · exact coreRow_keepsKill fun d => .of_latch (by simp)
      · exact fieldRow_keepsKill fun d => .of_latch (by simp)
    case leaseExpiry | creditTmoExpiry | creditResetSenderTimer =>
      refine coreRow_keepsKill fun d => .of_latch ?_
      split
      · split <;> simp
      · rfl
    case camStopTimeout =>
      refine coreRow_keepsKill fun d => .ite (.of_latch ?_) (.refl d)
      rw [Device.camOff_latch]
      split <;> simp
    case onTimeTick | camStartTimeout => exact coreRow_keepsKill fun d => .ite (.of_latch (by simp)) (.refl d)
    case periodUnitClose => exact fieldRow_keepsKill fun d => .ite (.of_latch (by simp)) (.refl d)
    case armLeadExpiry => exact coreRow_keepsKill Device.armLead_keepsKill
    case emitFaultNAssert => exact devRow_keepsKill fun d => d.emitFaultPin_keepsKill _
    case witnessStrayEvent => exact coreRow_keepsKill fun d => d.stray_keepsKill _ _
    case shot => exact coreRow_keepsKill fun d => d.shot_keepsKill _
    case aspectEvaluation =>
      exact coreRow_keepsKill fun d => .sealedEnds (by simp [Device.evaluate, Device.sendAspect, Device.readOcc, Device.reselect])
    case sealedComponentRunning => exact coreRow_keepsKill Device.sealRunning_keepsKill
    case sealedStartTimeout => exact coreRow_keepsKill Device.sealFailed_keepsKill
    case eventReportWindowEnd =>
      exact coreRow_keepsKill fun d => .of_latch (by simp)
    case responseRetry | sessionIdleTimeout | sessionOpenTimeout =>
      exact fwRow_keepsKill fun d => .of_latch (by simp [Device.idleTimeout, Device.openTimeout])
    case holdoffAutoTimer | surveyPassStart | surveyPassDone | linearisationUpdate | witnessIntervalEnd | exportStopTimeout | planeHoldTimeout |
        eventWordAccumulate | zoneBlindTimeout | windowLearnDone | referencePassStart | referencePassDone | refStaleTimeout | calFullDone |
        pairHandover | retProcessingStart | retProcessingEnd | exportChunkEnqueue | importChunkDequeue | importSliceStart | importUnitDone =>
      exact coreRow_keepsKill fun d => .of_latch (by simp [Device.surveyStart, Device.linUpdate, Device.witnessInterval, Device.exportTimeout,
        Device.refStart, Device.refStale, Device.importSlice])
    case rxVbdMeasureDone =>
      exact fwRow_keepsKill fun d => .of_latch (by simp)
    case internalTrigger | frameSyncAssert | calendarInstant | calendarEpoch | fireStopDone | doseSubwindowBoundary | biasFault | biasFaultClear |
        frameStart | shotQueueEnqueue | groupStart | photonEvent =>
      exact coreRow_keepsKill fun d => .of_latch (by simp [Device.biasFaulted, Device.biasCleared, Device.enqueue])
    case groupAccumulationEnd =>
      refine coreRow_keepsKill fun d => .of_latch ?_
      (repeat' split) <;> simp
    case signalDetect | markerLock | linkDelayAveraged | marker | timeFlit | timeServoUpdate | timeHoldoverTimeout | creditFlit | headLossTimeout
        | electTimeout | noHeadReport | linkFailure | startingRetryTimer | degradeWindow | joinRetryTimer | nodeHoldExpiry | membersRepeat |
        calendarRepeat | ringPortStopDone | superframe | ringFrameReceive | trainingComplete =>
      exact coreRow_keepsKill fun d => .of_latch (by simp [Device.delayAveraged, Device.healAt, Device.stepTime, Device.markerSeen,
        Device.servoUpdate, Device.headLoss, Device.noHead, Device.startRetry, Device.joinRetry, Device.holdExpiry, Device.endNode,
        Device.portStopDone, Device.receiveFrame])
    case joinReq | joinAck | leave | breakMsg | heal | members | calendar | resvReq | resvAns | allowance | elect =>
      exact topoRow_latch fun d => by simp [Device.leaveMsg, Device.healMsg, Device.membersMsg, Device.resvAnsMsg, Device.allowanceMsg,
        Device.electMsg]
    case cellRequest | inboundFrameAppend | partialUnitTimeout | unitDelivered | qStopTimeout | q1Reset | q1Resync | creditResetReceiverTimer |
        eventUnitClose | csi2Packet | camFsyncPulse =>
      exact coreRow_keepsKill fun d => .of_latch (by simp)
    case fieldToCoreControlFrame | coreSilenceTimeout =>
      exact coreRow_keepsKill fun d => .of_latch (by simp [Device.fieldFrameIn, Device.fieldFrameValid, Device.reportAspect, Device.contactStarts,
        Device.coreSilent])
    case coreToFieldControlFrame | fieldWatchdogExpiry | safeStateApply | aspectApply | supervisionSample | diagSlot | litWhenDark |
        currentLimitTimeout | switchOvertemp | switchCooled | cleanMsExpiry | sagBegin | sagEnd | uvOff | uvRecovery | softStartStep |
        outputStopDone | patternPhase | pwmPeriod | fieldBlockCommitDone | inputSample | periodTimeout | backgroundCalibration | adcStartDone |
        adcStopDone | adcCalRunDone | captureStart | captureEnd | captureTimeout | excHalf | blankNAssert | blankNRelease | blankHoldExpiry |
        blankMaxExpiry | adcTimerTick | adcTrigAssert | seqRunStart | seqEntryStart | seqEntryDone | seqRunEnd | fieldTick =>
      exact fieldRow_keepsKill fun d => .of_latch (by simp [Device.coreFrameIn, Device.coreFrameValid, Device.takeCommand, Device.setFieldTime,
        Device.opticalOne, Device.watchdog, Device.superviseLamp, Device.judge, Device.sampleVerdict, Device.checkShare, Device.litVerdict,
        Device.limitTimeout, Device.cooled, Device.cleanExpiry, Device.clearClean, Device.clearCross, Device.uvRecover, Device.commitDone,
        Device.blockCommitted, Device.inSample, Device.inChanges, Device.convOn, Device.blankAssert, Device.blankMax, Device.timerTick])
    case bbRecordCommit | thermStepDown | sliceStart | coverMaxExpiry | idleGap | duplicateMismatch | directedRunDone | debugUnlock |
        sealedSwitchover =>
      exact coreRow_keepsKill fun d => .of_latch (by simp [Device.stepDown, Device.coverMax, Device.sealStart])
    case standbyShutdown =>
      refine coreRow_keepsKill fun d => .of_latch ?_
      (repeat' split) <;> simp
    case thermalSample | rstNRelease | fieldPowerOn | fieldPowerLoss | fieldThermalRestart | shutdownImminent | vbatStart | vbatLowWarning |
        vbatLowClear | vbatPowerFail | vbatOvervoltage | minOffTimeExpiry | railWarning | railWarningEnd | railFault | wakeAssert | hwThermalTrip
        | hwThermalRestart | boot =>
      exact devRow_keepsKill fun d => .of_latch (by simp [Device.thermSample, Device.takeReadings, Device.ladder, Device.rstRelease,
        Device.fieldOn, Device.fieldOff, Device.fieldCool, Device.vbatLow, Device.thermTrip, Device.thermRestart])
    case fieldThermalStop | nvmCommitWaitTimeout | fieldRamTest | fieldNvmCheck =>
      exact fieldRow_keepsKill fun d => .of_latch (by simp [Device.fieldHot, Device.ramTest, Device.nvmCheck, Device.nvmRead])
    case bbRecordWrite | fwEraseDone | fwVerifyDone | switchoverStart | switchoverDone =>
      exact fwRow_keepsKill fun d => .of_latch (by simp [Device.eraseDone, Device.switchStart])
    all_goals cases hr

/-- Settles O53: every row but fire.kill.clear's in OFF keeps a kill latched; where it was latched before and is not after, the row is
that one. -/
theorem killClearedOnlyByItsCommand : Obligations.KillClearedOnlyByItsCommand := by
  unfold Obligations.KillClearedOnlyByItsCommand
  intro i s t hstep hbefore hafter
  by_contra hno
  have hkeeps : RowKeepsKill s (exec i s) := exec_keepsKill i s fun dt o hi hoff => hno ⟨⟨dt, o, hi⟩, hoff⟩
  exact absurd (hkeeps t hstep hbefore) (by rw [hafter]; exact Bool.false_ne_true)

end Sys2Proof.Machine
end

section
/-! Frame triggers by source (R78-R82, R102) and by overlap policy (R80, R81). -/

namespace Sys2Proof.Machine

open Sys2Proof

/-! Rows and what settling leaves. -/

/-- A row of the core side leaves its effect's device but for what the end of a step writes. -/
theorem coreRow_ends {ps : List Part} {dt : Nat} {s : State} {f : Device → Device} {x : Device} (halive : (s.elapse dt).dev.alive = true)
    (hf : f (s.elapse dt).dev = x) (honly : (s.elapse dt).dev.OnlyIn ps x) (hreports : reports ⊆ ps) :
    Answers (coreRow dt f s) (fun u => x.Keeps u.dev ∧ (s.elapse dt).dev.OnlyIn ps u.dev) :=
  ⟨_, coreRow_runs halive hf, State.settle_keeps { s.elapse dt with dev := x } s.dev,
    State.settle_onlyIn ps _ { s.elapse dt with dev := x } s.dev (hreports (by decide)) (hreports (by decide)) (hreports (by decide)) honly⟩

theorem Answers.imp {x : Host.Outcome State Fault Refusal} {P Q : State → Prop} (h : Answers x P) (hPQ : ∀ u, P u → Q u) : Answers x Q := by
  obtain ⟨u, hu, hp⟩ := h
  exact ⟨u, hu, hPQ u hp⟩

/-! Triggers (R79, R80). -/

/-- What a running slice of the rows leaves of self-test depends on self-test alone. -/
theorem Device.serve_bist {d d' : Device} (h : d'.bist = d.bist) (rows : List Nat) : (d'.serve rows).bist = (d.serve rows).bist := by
  unfold Device.serve Device.sliceAbort Device.sliceCut Device.bistIncomplete
  rw [h]
  split
  · split
    · exact h
    · simp only [Bool.and_false, Bool.false_eq_true, if_false, Device.limited_parts, Device.modBist_parts, h]
  · exact h

/-- The device `x`, from `d`, with a frame pending under the trigger `t`: `f` is the firing controller when the trigger came. -/
structure Device.Pends (d : Device) (f : Fire) (t : Trig) (x : Device) : Prop where
  fire : x.fire = { f with lastAcc := some t.at_, phase := .pending, trig := t }
  rx : x.rx = { d.rx with survey := none }
  cal : x.cal = { d.cal with passRun := none }
  bist : x.bist = (d.serve [1, 4, 6]).bist
  only : d.OnlyIn (.fire :: .rx :: .cal :: .bist :: reports) x

theorem Device.acceptTrig_pends (d : Device) (f : Fire) (t : Trig) : d.Pends f t (({ d with fire := f } : Device).acceptTrig t) := by
  have honly := ({ d with fire := f } : Device).serve_onlyIn [1, 4, 6]
  have hfire : (({ d with fire := f } : Device).serve [1, 4, 6]).fire = f := honly .fire (by decide)
  have hrx : (({ d with fire := f } : Device).serve [1, 4, 6]).rx = d.rx := honly .rx (by decide)
  have hcal : (({ d with fire := f } : Device).serve [1, 4, 6]).cal = d.cal := honly .cal (by decide)
  have hbist : (({ d with fire := f } : Device).serve [1, 4, 6]).bist = (d.serve [1, 4, 6]).bist :=
    Device.serve_bist (d := d) (d' := { d with fire := f }) rfl _
  unfold Device.acceptTrig
  generalize ({ d with fire := f } : Device).serve [1, 4, 6] = served at *
  refine ⟨?_, ?_, ?_, hbist, ?_⟩
  · simp only [Device.modCal, Device.modRx, Device.modFire, hfire]
  · simp only [Device.modCal, Device.modRx, Device.modFire, hrx]
  · simp only [Device.modCal, Device.modRx, Device.modFire, hcal]
  · intro p hp
    cases p
    case time => exact honly .time (by decide)
    case hist => exact honly .hist (by decide)
    case ret => exact honly .ret (by decide)
    case ring => exact honly .ring (by decide)
    case cams => exact honly .cams (by decide)
    case core => exact honly .core (by decide)
    case field => exact honly .field (by decide)
    case sec => exact honly .sec (by decide)
    case power => exact honly .power (by decide)
    case ready => exact honly .ready (by decide)
    all_goals exact absurd (by decide) hp

/-- A trigger with nothing in its way makes its frame pending. -/
theorem Device.trigger_free {d : Device} (t : Trig) (hon : d.fire.fn.st = .on) (hheld : d.fire.held = none) (hfree : d.occupied = false) :
    d.trigger t = (d.modFire (fun f => { f with lastTrig := some t.at_ })).acceptTrig t := by
  unfold Device.trigger
  rw [if_neg (by rw [hon]; decide), Device.promote_none hheld]
  dsimp only
  rw [hfree]
  rfl

theorem Device.trigger_pends {d : Device} (f : Fire) (t : Trig) (hon : f.fn.st = .on) (hheld : f.held = none)
    (hfree : ({ d with fire := f } : Device).occupied = false) :
    d.Pends { f with lastTrig := some t.at_ } t (({ d with fire := f } : Device).trigger t) := by
  rw [Device.trigger_free t hon hheld hfree]
  exact d.acceptTrig_pends { f with lastTrig := some t.at_ } t

theorem Device.trigger_off {d : Device} (h : d.fire.fn.st ≠ .on) (t : Trig) : d.trigger t = d := by
  unfold Device.trigger
  rw [if_pos (by simpa using h)]

/-- A row whose effect makes a frame pending. -/
theorem coreRow_pends {dt : Nat} {s : State} {g : Device → Device} {f : Fire} {t : Trig} (halive : (s.elapse dt).dev.alive = true)
    (h : (s.elapse dt).dev.Pends { f with lastTrig := some t.at_ } t (g (s.elapse dt).dev)) :
    Answers (coreRow dt g s) (fun u =>
      u.dev.fire = { f with lastTrig := some t.at_, lastAcc := some t.at_, phase := .pending, trig := t } ∧
      u.dev.rx = { (s.elapse dt).dev.rx with survey := none } ∧ u.dev.cal = { (s.elapse dt).dev.cal with passRun := none } ∧
      u.dev.bist = ((s.elapse dt).dev.serve [1, 4, 6]).bist ∧ (s.elapse dt).dev.OnlyIn (.fire :: .rx :: .cal :: .bist :: reports) u.dev) := by
  refine (coreRow_ends halive rfl h.only (by decide)).imp fun u ⟨hkeeps, honly⟩ => ?_
  exact ⟨hkeeps.fire.trans h.fire, hkeeps.rx.trans h.rx, hkeeps.cal.trans h.cal, hkeeps.bist.trans h.bist, honly⟩

/-- Each source's row triggers on its own condition alone. -/
theorem Device.internalTrigger_idle {d : Device} (h : d.fire.fn.st ≠ .on ∨ d.fire.trigSrc ≠ 0 ∨ d.now < d.fire.internalDue) :
    d.internalTrigger = d := by
  refine if_neg fun hdue => ?_
  simp only [Bool.and_eq_true, beq_iff_eq, decide_eq_true_eq] at hdue
  obtain ⟨⟨hon, hsrc⟩, hnow⟩ := hdue
  exact h.elim (· hon) (·.elim (· hsrc) (fun hearly => absurd hnow (Nat.not_le.mpr hearly)))

theorem Device.calendarInstant_idle {d : Device} (h : d.fire.fn.st ≠ .on ∨ d.fire.trigSrc ≠ 2) : d.calendarInstant = d := by
  unfold Device.calendarInstant
  split
  · rfl
  · refine if_neg fun hdue => ?_
    simp only [Bool.and_eq_true, beq_iff_eq] at hdue
    obtain ⟨⟨⟨hon, hsrc⟩, _⟩, _⟩ := hdue
    exact h.elim (· hon) (· hsrc)

/-- Settles O15: each source's row triggers on its condition alone, and a trigger with nothing in its way makes its frame pending. -/
theorem frameTriggers : Obligations.FrameTriggers := by
  unfold Obligations.FrameTriggers
  refine ⟨?pends, ?idles⟩
  case pends =>
    intro s dt width m at_ halive hon hheld d hfree pends
    refine ⟨fun hsrc hdue => ?_, fun hsrc hwidth => ?_, fun hsrc hnow hnew hlate => ?_⟩ <;> dsimp only [exec]
    · refine coreRow_pends (f := d.fire) halive ?_
      have hrow : d.internalTrigger = d.trigger ⟨d.fire.internalDue, false⟩ :=
        if_pos (by simp [show d.fire.fn.st = .on from hon, hsrc, hdue])
      rw [hrow]
      exact Device.trigger_pends d.fire _ hon hheld hfree
    · refine coreRow_pends (f := d.fire) halive ?_
      rw [if_pos (by simp [show s.dev.fire.trigSrc = 1 from hsrc, hwidth])]
      exact Device.trigger_pends d.fire _ hon hheld hfree
    · refine coreRow_pends (f := { d.fire with calM := m + 1 }) halive ?_
      have hrow : d.calendarInstant = (d.modFire (fun f => { f with calM := m + 1 })).trigger ⟨at_, true⟩ := by
        unfold Device.calendarInstant
        rw [hnow]
        exact if_pos (by simp [show d.fire.fn.st = .on from hon, hsrc, hnew, hlate])
      rw [hrow]
      exact Device.trigger_pends { d.fire with calM := m + 1 } _ hon hheld hfree
  case idles =>
    intro s dt width halive d
    refine ⟨fun h => ?_, fun h => ?_, fun h => ?_⟩ <;> dsimp only [exec]
    · refine coreRow_idles dt _ s ?_
      by_cases hsync : ((s.elapse dt).dev.fire.trigSrc == 1 && decide (100 ≤ width)) = true
      · have hoff : d.fire.fn.st ≠ .on := by
          simp only [Bool.and_eq_true, beq_iff_eq, decide_eq_true_eq] at hsync
          obtain ⟨hsrc, hwidth⟩ := hsync
          exact h.resolve_right (fun h => h.elim (· hsrc) (fun hshort => absurd hwidth (Nat.not_le.mpr hshort)))
        rw [if_pos hsync]
        exact Device.trigger_off hoff _
      · exact if_neg hsync
    · exact coreRow_idles dt _ s (Device.internalTrigger_idle h)
    · exact coreRow_idles dt _ s (Device.calendarInstant_idle h)

/-! Triggers while a frame runs or is pending (R80). -/

theorem Device.promote_occupied {d : Device} (h : d.occupied = true) : d.promote = d := by
  unfold Device.promote
  split
  · rfl
  · rw [h, Bool.or_true, if_pos rfl]

/-- The instant of a trigger noted as the latest one. -/
def Device.noteTrig (d : Device) (t : Trig) : Device := d.modFire (fun f => { f with lastTrig := some t.at_ })

theorem Device.noteTrig_onlyIn (d : Device) (t : Trig) : d.OnlyIn [.fire] (d.noteTrig t) := by
  intro p hp
  cases p <;> first | rfl | exact absurd (by decide) hp

theorem Device.trigger_occupied {d : Device} (t : Trig) (hon : d.fire.fn.st = .on) (hsrc : d.fire.trigSrc = 1) (hocc : d.occupied = true) :
    d.trigger t =
      if d.fire.trigPol = 0 then d.countTrig
      else if d.fire.trigPol = 1 then (d.noteTrig t).holdTrig t
      else (d.noteTrig t).restartTrig t := by
  unfold Device.trigger
  rw [if_neg (by rw [hon]; decide), Device.promote_occupied hocc]
  dsimp only
  rw [hocc, if_neg (show ¬(!true) = true by decide), if_neg (show ¬d.fire.trigSrc = 0 by rw [hsrc]; decide)]
  rfl

theorem Device.holdTrig_first {d : Device} (h : d.fire.held = none) (t : Trig) :
    d.holdTrig t = d.modFire (fun f => { f with held := some t }) := by
  unfold Device.holdTrig
  rw [h]
  rfl

theorem Device.holdTrig_replaces {d : Device} (h : d.fire.held ≠ none) (t : Trig) :
    d.holdTrig t = d.modFire (fun f => { f with counted := f.counted + 1, countedAll := f.countedAll + 1, held := some t }) := by
  unfold Device.holdTrig
  rw [if_pos (Option.isSome_iff_ne_none.mpr h)]
  rfl

theorem Device.restartTrig_pending {d : Device} (h : d.fire.phase = .pending) (t : Trig) :
    d.restartTrig t = (d.countTrig).modFire (fun f => { f with trig := t, lastAcc := some t.at_ }) := by
  unfold Device.restartTrig
  rw [h]
  rfl

theorem Device.restartTrig_cut {d : Device} (hrun : d.fire.phase = .running) (hcut : d.fire.cut = true) (t : Trig) :
    d.restartTrig t = d.holdTrig t := by
  unfold Device.restartTrig
  rw [hrun, hcut]
  rfl

theorem Device.restartTrig_group {d : Device} {g : Group} (hrun : d.fire.phase = .running) (hcut : d.fire.cut = false)
    (hg : d.fire.grp = some g) (t : Trig) : d.restartTrig t =
      (d.holdTrig t).modFire (fun f => { f with cut := true, shotQ := [], grp := some { g with flags := setBit g.flags 12 true } }) := by
  unfold Device.restartTrig
  rw [hrun, hcut, hg]
  rfl

/-- A frame that no group accumulates in ends, and nothing else stands in the trigger's way. -/
theorem Device.restartTrig_gap {d : Device} (hrun : d.fire.phase = .running) (hcut : d.fire.cut = false) (hg : d.fire.grp = none)
    (hheld : d.fire.held = none) (hcap : d.fire.capUntil ≤ d.now) (hswitch : d.sec.switchAt = none) (t : Trig) :
    d.restartTrig t = d.endFrameNow.acceptTrig t := by
  have hin : d.fire.inFrame d.now = true := by rw [Fire.inFrame, hrun]; rfl
  have hended : d.endFrameNow.occupied = false := by
    have hframe : (FramePhase.idle != FramePhase.idle || decide (d.now < d.now)) = false := by simp
    have hcapped : decide (d.now < d.fire.capUntil) = false := decide_eq_false (Nat.not_lt.mpr hcap)
    change ((FramePhase.idle != .idle || decide (d.now < d.now)) || decide (d.now < d.fire.capUntil) || d.sec.switchAt.isSome) = false
    rw [hframe, hcapped, hswitch]
    rfl
  have hnone : d.endFrameNow.fire.held = none := hheld
  unfold Device.restartTrig
  rw [hrun, hcut, hg]
  dsimp only
  rw [hin, if_pos rfl, hended, hnone]
  rfl

/-- What ending a frame in a gap leaves (R80, log entry 140). -/
theorem Device.endFrameNow_onlyIn (d : Device) : d.OnlyIn [.fire, .hist, .cal] d.endFrameNow := by
  intro p hp
  cases p <;> first | rfl | exact absurd (by decide) hp

/-- Settles O16: by policy and by what runs, with what each makes of the trigger. -/
theorem overlapPolicies : Obligations.OverlapPolicies := by
  unfold Obligations.OverlapPolicies
  intro s dt width halive hon hsrc hwidth d hocc f t leaves
  have hrow : exec (.frameSyncAssert dt width) s = coreRow dt (fun d =>
      if d.fire.trigSrc == 1 && decide (100 ≤ width) then d.trigger ⟨d.now, false⟩ else d) s := rfl
  have hdue : (f.trigSrc == 1 && decide (100 ≤ width)) = true := by simp [show f.trigSrc = 1 from hsrc, hwidth]
  have htrigger := Device.trigger_occupied (d := d) t hon hsrc hocc
  have hleaves : ∀ f' : Fire, d.trigger t = d.modFire (fun _ => f') → leaves f' := fun f' h =>
    coreRow_modFire (g := fun _ => f') halive ((if_pos hdue).trans h)
  have hqueue : f.trigPol = 1 → d.trigger t = (d.noteTrig t).holdTrig t := fun hpol => by
    rw [htrigger, if_neg (by rw [hpol]; decide), if_pos hpol]
  have hrestart : f.trigPol = 2 → d.trigger t = (d.noteTrig t).restartTrig t := fun hpol => by
    rw [htrigger, if_neg (by rw [hpol]; decide), if_neg (by rw [hpol]; decide)]
  have hfirst : f.held = none → (d.noteTrig t).holdTrig t = d.modFire (fun _ => { f with lastTrig := some d.now, held := some t }) :=
    fun hheld => Device.holdTrig_first (d := d.noteTrig t) hheld t
  have hreplaces : f.held ≠ none → (d.noteTrig t).holdTrig t = d.modFire (fun _ =>
      { f with lastTrig := some d.now, counted := f.counted + 1, countedAll := f.countedAll + 1, held := some t }) :=
    fun hheld => Device.holdTrig_replaces (d := d.noteTrig t) hheld t
  refine ⟨fun hpol => ?skip, fun hpol hheld => ?first, fun hpol hheld => ?replaces, fun hpol hphase => ?pending,
    fun g hpol hrun hcut hg hheld => ?cuts, fun hpol hrun hcut hheld => ?cutFirst, fun hpol hrun hcut hheld => ?cutReplaces,
    fun hpol hrun hcut hg hheld hcap hswitch => ?gap⟩
  case skip => exact hleaves _ (htrigger.trans (if_pos hpol))
  case first => exact hleaves _ ((hqueue hpol).trans (hfirst hheld))
  case replaces => exact hleaves _ ((hqueue hpol).trans (hreplaces hheld))
  case pending => exact hleaves _ ((hrestart hpol).trans (Device.restartTrig_pending (d := d.noteTrig t) hphase t))
  case cuts =>
    have hcuts := Device.restartTrig_group (d := d.noteTrig t) hrun hcut hg t
    rw [hfirst hheld] at hcuts
    exact hleaves _ ((hrestart hpol).trans hcuts)
  case cutFirst =>
    exact hleaves _ ((hrestart hpol).trans ((Device.restartTrig_cut (d := d.noteTrig t) hrun hcut t).trans (hfirst hheld)))
  case cutReplaces =>
    exact hleaves _ ((hrestart hpol).trans ((Device.restartTrig_cut (d := d.noteTrig t) hrun hcut t).trans (hreplaces hheld)))
  case gap =>
    have hgap := (hrestart hpol).trans (Device.restartTrig_gap (d := d.noteTrig t) hrun hcut hg hheld hcap hswitch t)
    generalize hended : (d.noteTrig t).endFrameNow = ended at hgap
    have honly : d.OnlyIn [.fire, .hist, .cal] ended := by
      rw [← hended]
      exact ((d.noteTrig_onlyIn t).mono (by decide)).trans (Device.endFrameNow_onlyIn (d.noteTrig t))
    have hbist : ended.bist = d.bist := honly .bist (by decide)
    have hpends := ended.acceptTrig_pends ended.fire t
    have hall : d.OnlyIn (.fire :: .hist :: .rx :: .cal :: .bist :: reports) (ended.acceptTrig t) :=
      (honly.mono (by decide)).trans (hpends.only.mono (by decide))
    refine (coreRow_ends halive ((if_pos hdue).trans hgap) hall (by decide)).imp fun u ⟨hkeeps, hu⟩ => ⟨?_, ?_, ?_, ?_, ?_, hu⟩
    · rw [hkeeps.fire, hpends.fire, ← hended]
      rfl
    · rw [hkeeps.hist, hpends.only .hist (by decide), ← hended]
      rfl
    · rw [hkeeps.rx, hpends.rx, honly .rx (by decide)]
    · rw [hkeeps.cal, hpends.cal]
    · rw [hkeeps.bist, hpends.bist, Device.serve_bist hbist]

end Sys2Proof.Machine
end

section
/-! Firing starts and stops (R90, R98). -/

namespace Sys2Proof.Machine

open Sys2Proof

/-! The start of a histogram stream reaches the histogram store and reports alone (R154). -/

theorem Device.modHist_onlyIn (d : Device) (f : Hist → Hist) : d.OnlyIn [.hist] (d.modHist f) := by
  intro p hp
  cases p <;> first | rfl | exact absurd (by decide) hp

theorem Device.modFn_hexport_onlyIn (d : Device) (f : Fn → Fn) : d.OnlyIn [.hist] (d.modFn .hexport f) := by
  intro p hp
  cases p <;> first | rfl | exact absurd (by decide) hp

theorem Device.abandonUnit_onlyIn (d : Device) (p reason : Nat) : d.OnlyIn (.hist :: .ring :: reports) (d.abandonUnit p reason) := by
  unfold Device.abandonUnit
  lift_lets
  extract_lets seq freed
  have hfreed : d.OnlyIn (.hist :: .ring :: reports) freed := (d.modHist_onlyIn _).mono (by decide)
  split
  · exact hfreed
  · exact hfreed.trans ((Device.countDrop_near _ _ _ _).keeps.onlyIn.mono (by decide))

theorem Device.exportStop_onlyIn (d : Device) : d.OnlyIn (.hist :: .ring :: reports) d.exportStop := by
  unfold Device.exportStop
  lift_lets
  extract_lets drop dropped draining
  have hdrop : ∀ (x : Device) p, x.OnlyIn (.hist :: .ring :: reports) (drop x p) := by
    intro x p
    simp only [drop]
    split
    · exact (x.abandonUnit_onlyIn p 6).trans ((Device.modHist_onlyIn _ _).mono (by decide))
    · exact .refl _ x
  have hdropped : d.OnlyIn (.hist :: .ring :: reports) dropped := (hdrop d 6).trans (hdrop _ 7)
  have hstop : dropped.OnlyIn (.hist :: .ring :: reports) (dropped.beginStop .hexport (if draining then 100 * ms else 0)) :=
    (dropped.modFn_hexport_onlyIn _).mono (by decide)
  exact hdropped.trans (hstop.trans ((Device.raise_keeps _ _ _ _).onlyIn.mono (by decide)))

theorem Device.startExport_onlyIn (d : Device) : d.OnlyIn (.hist :: .ring :: reports) d.startExport := by
  unfold Device.startExport
  split
  · exact .refl _ d
  · lift_lets
    extract_lets stop on
    have hreach : d.OnlyIn (.hist :: .ring :: reports) (d.reachOn .hexport) :=
      ((d.modFn_hexport_onlyIn _).mono (by decide)).trans ((Device.complete_keeps _ _ _ _).onlyIn.mono (by decide))
    have hon : d.OnlyIn (.hist :: .ring :: reports) on := hreach.trans ((Device.raise_keeps _ _ _ _).onlyIn.mono (by decide))
    split
    · exact hon.trans (((on.modFn_hexport_onlyIn _).mono (by decide)).trans (Device.exportStop_onlyIn _))
    · exact hon

/-! ON (R82, R98). -/

/-- E_CAL_HOLD's check writes its own mark of the firing controller alone. -/
theorem Device.calHoldCheck_fire (d : Device) : ∃ h, d.calHoldCheck.fire = { d.fire with calHold := h } := by
  unfold Device.calHoldCheck
  dsimp only
  split
  · exact ⟨d.fire.calHold, rfl⟩
  · exact ⟨_, rfl⟩

theorem Device.modFire_onlyIn (d : Device) (f : Fire → Fire) : d.OnlyIn [.fire] (d.modFire f) := by
  intro p hp
  cases p <;> first | rfl | exact absurd (by decide) hp

theorem Device.calHoldCheck_onlyIn (d : Device) : d.OnlyIn (.fire :: .ring :: reports) d.calHoldCheck := by
  unfold Device.calHoldCheck
  dsimp only
  split
  · exact .refl _ d
  · exact ((d.modFire_onlyIn _).mono (by decide)).trans ((Device.raise_keeps _ _ _ _).onlyIn.mono (by decide))

/-- The firing controller as ON finds it (R82), before its function's state. -/
def Fire.fresh (f : Fire) (now : Nat) : Fire :=
  { f with
    onAt := now, srcAt := now, firstSlot := none, intervals := [], lastTrig := none, lastAcc := none, nextPair := false, frameNo := 0
    counted := 0, calM := 0, held := none, phase := .idle, cut := false, frameEnd := now, capUntil := now
    gapUntil := now, heldNow := false }

/-- ON without a disable waiting: the controller afresh, its function ON. -/
theorem Device.enterOn_starts {d : Device} (h : d.fire.fn.stopPending = false) :
    (∃ c, d.enterOn.fire =
      { d.fire.fresh d.now with fn := { d.fire.fn with st := .on, faultStop := false, restart := false }, calHold := c }) ∧
    d.OnlyIn (.fire :: .rx :: .cams :: .ring :: reports) d.enterOn := by
  unfold Device.enterOn
  extract_lets stop freshened cams synced reached
  have hkeeps : (synced.modRx (fun r => r.onStarts synced.now)).modFn .fire
      (fun f => { f with st := .on, faultStop := false, restart := f.restart && f.stopPending }) |>.Keeps
      (((synced.modRx (fun r => r.onStarts synced.now)).reachOn .fire).fireEvent) :=
    (Device.complete_keeps _ _ _ _).trans (Device.raise_keeps _ _ _ _)
  have hfire : (((synced.modRx (fun r => r.onStarts synced.now)).reachOn .fire).fireEvent).fire =
      { d.fire.fresh d.now with fn := { d.fire.fn with st := .on, faultStop := false, restart := false } } := by
    refine hkeeps.fire.trans ?_
    have hrestart : (d.fire.fn.restart && d.fire.fn.stopPending) = false := by rw [h, Bool.and_false]
    change { d.fire.fresh d.now with
      fn := { d.fire.fn with st := .on, faultStop := false, restart := d.fire.fn.restart && d.fire.fn.stopPending } } = _
    rw [hrestart]
  have honly : d.OnlyIn (.fire :: .rx :: .cams :: .ring :: reports)
      (((synced.modRx (fun r => r.onStarts synced.now)).reachOn .fire).fireEvent) := by
    refine Device.OnlyIn.trans ?_ (hkeeps.onlyIn.mono (by decide))
    intro p hp
    cases p <;> first | rfl | exact absurd (by decide) hp
  rw [if_neg (show ¬stop = true by rw [show stop = false from h]; decide)]
  obtain ⟨c, hc⟩ := Device.calHoldCheck_fire (((synced.modRx (fun r => r.onStarts synced.now)).reachOn .fire).fireEvent)
  refine ⟨⟨c, hc.trans (by rw [hfire])⟩, honly.trans ((Device.calHoldCheck_onlyIn _).mono (by decide))⟩

theorem Device.armLead_starts {d : Device} (harmed : d.fire.armed d.now = true) (hfault : d.emitFaultNow = false)
    (hready : d.budgetReady ≤ d.now) : d.armLead = d.enterOn := by
  unfold Device.armLead
  rw [harmed, hfault, if_neg (by decide), if_neg (by decide), if_pos hready]

/-! OFF (R98). -/

/-- STOPPING ends with no group open. -/
theorem Device.fireStopDone_ends {d : Device} (hst : d.fire.fn.st = .stopping) (hgrp : d.fire.grp = none) :
    d.fireStopDone.fire = { d.fire with fn := { d.fire.fn with st := .off, stopPending := false, offUntil := d.now + ms }, phase := .idle } ∧
    d.OnlyIn (.fire :: .hist :: .ring :: reports) d.fireStopDone := by
  have hend : d.fireStopDone = (d.modFire (fun f => { f with phase := .idle })).fireOff := by
    unfold Device.fireStopDone
    rw [if_neg (by rw [hst]; decide), hgrp]
  have hoff : ∀ x : Device, (x.modFn .fire (fun f => { f with st := .off, stopPending := false, offUntil := x.now + ms })).Keeps
      (x.reachOff .fire ms).fireEvent := by
    intro x
    unfold Device.reachOff
    extract_lets fault off done
    have hdone : off.Keeps done := Device.complete_keeps _ _ _ _
    refine .trans ?_ (Device.raise_keeps _ _ _ _)
    split
    · exact hdone.trans (Device.complete_keeps _ _ _ _)
    · exact hdone
  have hkeeps := hoff (d.modFire (fun f => { f with phase := .idle }))
  have hexport := Device.startExport_onlyIn ((d.modFire (fun f => { f with phase := .idle })).reachOff .fire ms).fireEvent
  rw [hend]
  unfold Device.fireOff
  refine ⟨(hexport .fire (by decide)).trans hkeeps.fire, ?_⟩
  refine Device.OnlyIn.trans ?_ (hexport.mono (by decide))
  refine Device.OnlyIn.trans ?_ (hkeeps.onlyIn.mono (by decide))
  intro p hp
  cases p <;> first | rfl | exact absurd (by decide) hp

/-- Settles O17: what ARM_LEAD's end and STOPPING's end come to. -/
theorem firingStartsAndStops : Obligations.FiringStartsAndStops := by
  unfold Obligations.FiringStartsAndStops
  intro s dt halive d
  refine ⟨fun harmed hfault hready hstop => ?on, fun harmed => ?early, fun hst hgrp => ?off, fun hst => ?idle⟩ <;> dsimp only [exec]
  case on =>
    obtain ⟨⟨c, hfire⟩, honly⟩ := Device.enterOn_starts hstop
    refine (coreRow_ends halive (Device.armLead_starts harmed hfault hready) honly (by decide)).imp fun u ⟨hkeeps, hu⟩ => ?_
    rw [hkeeps.fire, hfire]
    exact ⟨rfl, rfl, rfl, rfl, rfl, rfl, rfl, rfl, hu⟩
  case early => exact coreRow_idles dt _ s (if_pos (by rw [show (s.elapse dt).dev.fire.armed _ = false from harmed]; rfl))
  case off =>
    obtain ⟨hfire, honly⟩ := Device.fireStopDone_ends hst hgrp
    refine (coreRow_ends halive rfl honly (by decide)).imp fun u ⟨hkeeps, hu⟩ => ?_
    rw [hkeeps.fire, hfire]
    exact ⟨rfl, rfl, rfl, rfl, hu⟩
  case idle => exact coreRow_idles dt _ s (if_pos (bne_iff_ne.mpr hst))

end Sys2Proof.Machine
end

section
/-! Entering STOPPING (R22, R98). -/

namespace Sys2Proof.Machine

open Sys2Proof

/-- Two states of the firing controller with the same emitter block, dither, budget and sums, and the same shots in the group in
progress: what the dose of R88 rests on. -/
structure Fire.SameDose (f f' : Fire) : Prop where
  emitter : f'.emitter = f.emitter
  lfsr : f'.lfsr = f.lfsr
  slotClk : f'.slotClk = f.slotClk
  budget : f'.budget = f.budget
  safeBudget : f'.safeBudget = f.safeBudget
  shortSum : f'.shortSum = f.shortSum
  longSum : f'.longSum = f.longSum
  globSum : f'.globSum = f.globSum
  grp : f'.grp.map (fun g => (g.slots, g.shots)) = f.grp.map (fun g => (g.slots, g.shots))

theorem Fire.SameDose.refl (f : Fire) : f.SameDose f := ⟨rfl, rfl, rfl, rfl, rfl, rfl, rfl, rfl, rfl⟩

theorem Fire.SameDose.trans {a b c : Fire} (h : a.SameDose b) (k : b.SameDose c) : a.SameDose c :=
  ⟨k.emitter.trans h.emitter, k.lfsr.trans h.lfsr, k.slotClk.trans h.slotClk, k.budget.trans h.budget, k.safeBudget.trans h.safeBudget,
    k.shortSum.trans h.shortSum, k.longSum.trans h.longSum, k.globSum.trans h.globSum, k.grp.trans h.grp⟩

/-- Nothing of the function, the group, the dose or the bias fault differs: triggers alone may. -/
structure Device.SameFiring (d x : Device) : Prop where
  fn : x.fire.fn = d.fire.fn
  dose : d.fire.SameDose x.fire
  grp : x.fire.grp = d.fire.grp
  bias : x.rx.biasFault = d.rx.biasFault

theorem Device.SameFiring.trans {a b c : Device} (h : a.SameFiring b) (k : b.SameFiring c) : a.SameFiring c :=
  ⟨k.fn.trans h.fn, h.dose.trans k.dose, k.grp.trans h.grp, k.bias.trans h.bias⟩

theorem Device.SameFiring.of_eq {d x : Device} (hfire : x.fire = d.fire) (hrx : x.rx = d.rx) : d.SameFiring x := by
  refine ⟨?_, ?_, ?_, ?_⟩ <;> simp only [hfire, hrx, Fire.SameDose.refl]

theorem Device.reportTrig_sameFiring (d : Device) : d.SameFiring d.reportTrig := by
  unfold Device.reportTrig
  split
  · exact .of_eq rfl rfl
  · exact ⟨rfl, ⟨rfl, rfl, rfl, rfl, rfl, rfl, rfl, rfl, rfl⟩, rfl, rfl⟩

theorem Device.calHoldCheck_sameFiring (d : Device) : d.SameFiring d.calHoldCheck := by
  have hrx : d.calHoldCheck.rx = d.rx := d.calHoldCheck_onlyIn .rx (by decide)
  obtain ⟨h, hfire⟩ := d.calHoldCheck_fire
  refine ⟨?_, ?_, ?_, ?_⟩ <;> simp only [hfire, hrx]
  exact ⟨rfl, rfl, rfl, rfl, rfl, rfl, rfl, rfl, rfl⟩

theorem Device.applyTrigger_sameFiring (d : Device) (src pol : Nat) : d.SameFiring (d.applyTrigger src pol) := by
  unfold Device.applyTrigger
  extract_lets counted
  have hcounted : d.SameFiring counted := by
    simp only [counted]
    split
    · exact ⟨rfl, ⟨rfl, rfl, rfl, rfl, rfl, rfl, rfl, rfl, rfl⟩, rfl, rfl⟩
    · exact .of_eq rfl rfl
  refine hcounted.trans (.trans ?_ (Device.calHoldCheck_sameFiring _))
  exact ⟨rfl, ⟨rfl, rfl, rfl, rfl, rfl, rfl, rfl, rfl, rfl⟩, rfl, rfl⟩

/-- A calibration that stops touches calibration alone. -/
theorem Device.calAbort_onlyIn (d : Device) : d.OnlyIn (.cal :: .ring :: reports) d.calAbort := by
  unfold Device.calAbort
  split
  · exact .refl _ d
  · extract_lets aborted
    have haborted : d.OnlyIn (.cal :: .ring :: reports) aborted := by
      intro p hp
      cases p <;> first | rfl | exact absurd (by decide) hp
    have hcompleted := (aborted.complete_keeps .calFull sOk (fullResult (csRev aborted.calNow.2) 0 0 0 0 0 4)).onlyIn
    exact haborted.trans ((hcompleted.mono (by decide)).trans ((Device.raise_keeps _ _ _ _).onlyIn.mono (by decide)))

/-- What entering STOPPING leaves: the function and the dose as they are; no trigger held, the shot queue empty and EMIT_ARM released. -/
structure Device.Stops (d x : Device) : Prop where
  fn : x.fire.fn = d.fire.fn
  dose : d.fire.SameDose x.fire
  bias : x.rx.biasFault = d.rx.biasFault
  held : x.fire.held = none
  shotQ : x.fire.shotQ = []
  armAt : x.fire.armAt = none

theorem Device.enterStopping_stops (d : Device) : d.Stops d.enterStopping := by
  unfold Device.enterStopping
  extract_lets reported applied running reselected ended stopped
  have happlied : d.SameFiring applied := by
    refine d.reportTrig_sameFiring.trans ?_
    simp only [applied]
    split
    · exact Device.applyTrigger_sameFiring _ _ _
    · exact .of_eq rfl rfl
  have hstopped : d.Stops stopped := by
    have hgrp : stopped.fire.grp.map (fun g => (g.slots, g.shots)) = applied.fire.grp.map (fun g => (g.slots, g.shots)) := by
      change (applied.fire.grp.map _).map _ = _
      rw [Option.map_map]
      rfl
    have hdose : applied.fire.SameDose stopped.fire := ⟨rfl, rfl, rfl, rfl, rfl, rfl, rfl, rfl, hgrp⟩
    exact ⟨happlied.fn, happlied.dose.trans hdose, happlied.bias, rfl, rfl, rfl⟩
  have hend : stopped.OnlyIn (.cal :: .ring :: reports) (stopped.complete .planSelect sOk Bytes.nil).calAbort.fireEvent :=
    ((stopped.complete_keeps _ _ _).onlyIn.mono (by decide)).trans
      ((Device.calAbort_onlyIn _).trans ((Device.raise_keeps _ _ _ _).onlyIn.mono (by decide)))
  have hfire : ((stopped.complete .planSelect sOk Bytes.nil).calAbort.fireEvent).fire = stopped.fire := hend .fire (by decide)
  have hrx : ((stopped.complete .planSelect sOk Bytes.nil).calAbort.fireEvent).rx = stopped.rx := hend .rx (by decide)
  refine ⟨?_, ?_, ?_, ?_, ?_, ?_⟩
  · rw [hfire, hstopped.fn]
  · rw [hfire]; exact hstopped.dose
  · rw [hrx, hstopped.bias]
  · rw [hfire, hstopped.held]
  · rw [hfire, hstopped.shotQ]
  · rw [hfire, hstopped.armAt]

/-- What a fault stop writes beside the function's own state is its function alone. -/
theorem Device.faultStop_sameDose (d : Device) (len : Nat) : d.fire.SameDose (d.faultStop .fire len).fire := by
  unfold Device.faultStop
  split
  · split
    · rw [(Device.complete_keeps _ _ _ _).fire]
      exact ⟨rfl, rfl, rfl, rfl, rfl, rfl, rfl, rfl, rfl⟩
    · exact .refl _
  · exact ⟨rfl, rfl, rfl, rfl, rfl, rfl, rfl, rfl, rfl⟩
  · exact ⟨rfl, rfl, rfl, rfl, rfl, rfl, rfl, rfl, rfl⟩

theorem Device.fireFaultStop_sameDose (d : Device) : d.fire.SameDose d.fireFaultStop.fire := by
  unfold Device.fireFaultStop
  extract_lets live stopped
  have hstopped : d.fire.SameDose stopped.fire := d.faultStop_sameDose _
  split
  · exact hstopped.trans stopped.enterStopping_stops.dose
  · exact hstopped

/-- A fault stop has begun: STOPPING by fault with no enable waiting, nothing held or queued, EMIT_ARM released. -/
structure Fire.FaultStopped (f : Fire) : Prop where
  st : f.fn.st = .stopping
  faultStop : f.fn.faultStop = true
  restart : f.fn.restart = false
  shotQ : f.shotQ = []
  armAt : f.armAt = none
  held : f.held = none

theorem Device.fireFaultStop_on {d : Device} (hon : d.fire.fn.st = .on) :
    d.fireFaultStop.fire.FaultStopped ∧ d.fireFaultStop.rx.biasFault = d.rx.biasFault := by
  have hstop : d.faultStop .fire d.fire.stopLen =
      (d.beginStop .fire d.fire.stopLen).modFn .fire (fun f => { f with restart := false, faultStop := true }) := by
    unfold Device.faultStop
    rw [show (d.getFn .fire).st = .on from hon]
  unfold Device.fireFaultStop
  dsimp only
  rw [hon, if_pos (by decide), hstop]
  obtain ⟨hfn, _, hbias, hheld, hshotQ, harmAt⟩ := Device.enterStopping_stops
    ((d.beginStop .fire d.fire.stopLen).modFn .fire (fun f => { f with restart := false, faultStop := true }))
  exact ⟨⟨congrArg Fn.st hfn, congrArg Fn.faultStop hfn, congrArg Fn.restart hfn, hshotQ, harmAt, hheld⟩, hbias⟩

end Sys2Proof.Machine
end

section
/-! The commands of the firing controller (R77-R98). -/

namespace Sys2Proof.Machine

open Sys2Proof

/-- A write of MRAM that shutdown-imminent does not stop: past a slice of row 7, which it cuts short or waits for. -/
theorem Device.mram_open {d : Device} (h : d.power.shut = none) (general : Bool) (write : Device → Device) :
    d.mram general write = write (if general then d.serveOrWait [7] else d.serve [7]) := by
  unfold Device.mram
  rw [h, Option.isSome_none, if_neg Bool.false_ne_true]

theorem Device.mram_shut {d : Device} (h : d.power.shut.isSome = true) (general : Bool) (write : Device → Device) :
    d.mram general write = d := by
  unfold Device.mram
  rw [h, if_pos rfl]

/-- A marks' bit after fire.stripe.clear names some of the 48 stripes. -/
theorem Fire.failedStripe_setLatch_clear (f : Fire) (v : Nat) {k : Nat} (hk : k < 48) :
    (f.setLatch (f.latchNow &&& ~~~(.ofNat 64 v))).failedStripe k = (f.failedStripe k && !nbit v k) := by
  have hk' : k < 64 := by omega
  have hv : nbit v k = v.testBit k := by rw [nbit, Nat.testBit_eq_decide_div_mod_eq]; rfl
  simp only [Fire.failedStripe, Fire.latchNow_setLatch, bit_eq_getLsbD, BitVec.getLsbD_and, BitVec.getLsbD_not, BitVec.getLsbD_ofNat, hk',
    decide_true, Bool.true_and, hv]

theorem Fire.failedStripe_setLatch_setBit (f : Fire) (i : Nat) (v : Bool) {k : Nat} (hk : k < 48) (hi : k ≠ i) :
    (f.setLatch (setBit f.latchNow i v)).failedStripe k = f.failedStripe k := by
  rw [Fire.failedStripe, Fire.latchNow_setLatch, bit_setBit _ _ _ _ (by omega), if_neg hi]
  rfl

theorem Fire.killed_setLatch_setBit_false (f : Fire) : (f.setLatch (setBit f.latchNow 48 false)).killed = false := by
  rw [Fire.killed, Fire.latchNow_setLatch, bit_setBit _ _ _ _ (by decide), if_pos rfl]

/-- A failed check of the present state refuses a command. -/
theorem Cmd.late_state {c : Cmd} {p : Bytes} {d : Device} {b : Bool} {st : Nat} (hc : c.state d p = refuse b st) (hb : b = true) :
    c.late p d = some (st, Bytes.nil) := by
  unfold Cmd.late
  rw [hc, hb]
  rfl

/-! fire.enable and fire.disable (R98). -/

theorem cmdFireEnable_starts {d : Device} (hst : d.fire.fn.st = .off) (hpast : d.fire.fn.offUntil ≤ d.now) (c : Ctx) (p : Bytes) :
    cmdFireEnable.run c p d =
      ((d.putFn .fire { d.fire.fn with st := .starting, restart := false }).fireStart, .pend (.fnOn .fire)) := by
  have henable : (d.getFn .fire).enable d.now = ({ d.fire.fn with st := .starting, restart := false }, .start) := Fn.enable_off hst hpast
  show d.enableFn .fire true Device.fireStart = _
  unfold Device.enableFn
  rw [henable]
  rfl

theorem cmdFireDisable_stops {d : Device} (hst : d.fire.fn.st = .on) (c : Ctx) (p : Bytes) :
    cmdFireDisable.run c p d = (((d.putFn .fire { d.fire.fn with st := .stopping }).beginStop .fire d.fire.stopLen).enterStopping,
      .pend (.fnOff .fire)) := by
  have hdisable : (d.getFn .fire).disable = ({ d.fire.fn with st := .stopping }, .stop) := Fn.disable_on hst
  have hrun : cmdFireDisable.run c p d = d.disableFn .fire true (fun d => (d.beginStop .fire d.fire.stopLen).enterStopping) := rfl
  rw [hrun, Device.disableFn, hdisable]
  rfl

/-- What fire.enable is refused for. -/
theorem Device.fireBarred_of {d : Device} (h : d.fire.killed = true ∨ vget d.fire.committed d.fire.selected.val false = false ∨
    d.sec.debug = true ∨ 4 ≤ d.power.step) : d.fireBarred = true := by
  unfold Device.fireBarred
  rcases h with h | h | h | h <;> simp [h]

/-! fire.kill.clear, fire.stripe.clear and fire.budget.set write MRAM (R90, R94, R97). -/

/-- What fire.kill.clear writes, and what fire.stripe.clear does. -/
def Device.killCleared (d : Device) : Device := { d with fire := d.fire.setLatch (setBit d.fire.latchNow 48 false) }

def Device.stripesCleared (d : Device) (v : Nat) : Device :=
  { d with
    fire := { d.fire.setLatch (d.fire.latchNow &&& ~~~(BitVec.ofNat 64 v)) with
      darkRun := (List.range 48).foldl (fun r k => if nbit v k then vset r k 0 else r) d.fire.darkRun } }

theorem cmdKillClear_run (c : Ctx) (p : Bytes) (d : Device) : cmdKillClear.run c p d = (d.mram true Device.killCleared, .no sOk) := rfl

theorem cmdStripeClear_run (c : Ctx) (p : Bytes) (d : Device) :
    cmdStripeClear.run c p d = (d.mram true (fun d => d.stripesCleared p.val), .no sOk) := rfl

theorem cmdBudgetSet_fire (c : Ctx) (p : Bytes) (d : Device) :
    (cmdBudgetSet.run c p d).1.fire = (d.mram false (fun d => d.writeBudget (.ofNat 256 p.val))).fire :=
  (Device.queueRec_keeps _ _).fire

theorem Device.killCleared_onlyIn (d : Device) : d.OnlyIn [.fire] d.killCleared := by
  intro p hp
  cases p <;> first | rfl | exact absurd (by decide) hp

theorem Device.stripesCleared_onlyIn (d : Device) (v : Nat) : d.OnlyIn [.fire] (d.stripesCleared v) := by
  intro p hp
  cases p <;> first | rfl | exact absurd (by decide) hp

/-- Settles O54: each command's effect, written out. -/
theorem firingCommandsAct : Obligations.FiringCommandsAct := by
  unfold Obligations.FiringCommandsAct
  intro d c p f fireOf
  have hserved : d.OnlyIn (.fire :: .bist :: reports) (d.serveOrWait [7]) := (d.serveOrWait_onlyIn [7]).mono (by decide)
  have hfire : (d.serveOrWait [7]).fire = d.fire := d.serveOrWait_onlyIn [7] .fire (by decide)
  refine ⟨fun hst hpast => ?enable, fun hbarred => ?barred, fun hst => ?disable, fun hst => ?notOff, rfl, rfl, fun hshut => ?shut,
    fun hshut => ?kill, fun hp hshut => ?stripe, rfl, fun hshut => ?budget, rfl, fun hp => ?plan⟩
  case enable =>
    dsimp only [fireOf]
    rw [cmdFireEnable_starts hst hpast]
    exact ⟨rfl, rfl, rfl, rfl⟩
  case barred => exact Cmd.late_state rfl (Device.fireBarred_of hbarred)
  case disable =>
    dsimp only [fireOf]
    rw [cmdFireDisable_stops hst]
    exact ⟨congrArg Fn.st (Device.enterStopping_stops _).fn, Device.enterStopping_latch _, rfl⟩
  case notOff =>
    have hoff : (!d.fire.isOff) = true := by simpa [Fire.isOff] using hst
    exact ⟨Cmd.late_state rfl hoff, Cmd.late_state rfl hoff, Cmd.late_state rfl hoff⟩
  case shut =>
    dsimp only [fireOf]
    rw [cmdKillClear_run, cmdStripeClear_run, cmdBudgetSet_fire]
    simp only [d.mram_shut hshut, true_and]
    rfl
  case kill =>
    dsimp only [fireOf]
    rw [cmdKillClear_run, d.mram_open hshut, if_pos rfl]
    refine ⟨Fire.killed_setLatch_setBit_false _, fun k hk => ?_, hserved.trans ((Device.killCleared_onlyIn _).mono (by decide))⟩
    exact (Fire.failedStripe_setLatch_setBit _ 48 false hk (by omega)).trans (by rw [hfire])
  case stripe =>
    dsimp only [fireOf]
    rw [cmdStripeClear_run, d.mram_open hshut, if_pos rfl]
    refine ⟨?_, hserved.trans ((Device.stripesCleared_onlyIn _ _).mono (by decide)), fun k hk => ?_⟩
    · exact (Fire.killed_setLatch_clear _ hp).trans (by rw [hfire])
    · exact (Fire.failedStripe_setLatch_clear _ _ hk).trans (by rw [hfire])
  case budget =>
    have hkept : (d.serve [7]).fire = d.fire := d.serve_onlyIn [7] .fire (by decide)
    have htime : (d.serve [7]).time = d.time := d.serve_onlyIn [7] .time (by decide)
    dsimp only [fireOf]
    rw [cmdBudgetSet_fire, d.mram_open hshut, if_neg (by decide)]
    refine ⟨?_, ?_, ?_⟩
    · exact Stored.use_put _ _ _
    · show (d.serve [7]).time.clk = d.time.clk
      rw [htime]
    · show (d.serve [7]).fire.latch = d.fire.latch
      rw [hkept]
  case plan => exact ⟨rfl, rfl⟩

end Sys2Proof.Machine
end

section
/-! Stray events, EMIT_FAULT_N and bias faults (R95-R98, R111). -/

namespace Sys2Proof.Machine

open Sys2Proof

/-! What latches the kill: the latch, and the group's shots (R95, R96). -/

/-- The kill is latched unless shutdown-imminent is asserted; the latch alone of the firing controller changes. -/
theorem Device.latchKill_killed (d : Device) : d.latchKill.fire.killed = (d.fire.killed || d.power.shut.isNone) := by
  unfold Device.latchKill
  cases hshut : d.power.shut with
  | none =>
    have hfire : (d.serve [7]).fire = d.fire := d.serve_onlyIn [7] .fire (by decide)
    rw [d.mram_open hshut, if_neg (by decide)]
    refine (Fire.killed_setLatch_mark _ 48).trans ?_
    rw [hfire, decide_eq_true rfl]
    rfl
  | some t =>
    rw [d.mram_shut (by rw [hshut]; rfl), Option.isNone_some, Bool.or_false]

/-- A write of the latch to MRAM changes nothing else of the firing controller. -/
theorem Device.mram_setLatch_fire (d : Device) (v : Fire → BitVec 64) :
    ∃ l, (d.mram false (fun d => d.modFire (fun f => f.setLatch (v f)))).fire = { d.fire with latch := l } := by
  unfold Device.mram
  split
  · exact ⟨d.fire.latch, rfl⟩
  · rw [if_neg (by decide)]
    have hfire : (d.serve [7]).fire = d.fire := d.serve_onlyIn [7] .fire (by decide)
    exact ⟨_, by simp only [Device.modFire, hfire]; rfl⟩

/-- Energies taken out of the sums change the sums alone. -/
theorem Fire.uncharge_foldl {α : Type} (k e : α → Nat) (l : List α) (f : Fire) : ∃ ss ls gs,
    l.foldl (fun f s => f.uncharge (k s) (e s)) f = { f with shortSum := ss, longSum := ls, globSum := gs } := by
  induction l generalizing f with
  | nil => exact ⟨_, _, _, rfl⟩
  | cons s l ih => exact ih (f.uncharge (k s) (e s))

theorem Device.cancelEdges_fire (d : Device) (t : Nat) : ∃ ss ls gs g,
    (d.cancelEdges t).fire = { d.fire with shortSum := ss, longSum := ls, globSum := gs, grp := g } := by
  unfold Device.cancelEdges
  split
  · exact ⟨_, _, _, _, rfl⟩
  · next g hg =>
    lift_lets
    extract_lets f off slots charged gone
    obtain ⟨ss, ls, gs, hcharged⟩ := Fire.uncharge_foldl (fun s => (vget g.slots s {}).stripe) (fun s => descEnergy g.desc s) off d.fire
    exact ⟨ss, ls, gs, _, congrArg (fun f : Fire => { f with grp := some { g with slots } }) hcharged⟩

theorem Device.cancelEdges_onlyIn (d : Device) (t : Nat) : d.OnlyIn [.fire, .rx] (d.cancelEdges t) := by
  unfold Device.cancelEdges
  split
  · exact .refl _ d
  · intro p hp
    cases p <;> first | rfl | exact absurd (by decide) hp

/-! Firing stops by a fault, with the kill latched or as it was. -/

/-- The firing controller from `f` stopped by a fault, the kill latched where `kill` says so. -/
structure Fire.StoppedBy (kill : Bool) (f x : Fire) : Prop where
  stopped : x.FaultStopped
  killed : x.killed = (f.killed || kill)

theorem Device.fireFaultStop_stoppedBy {d x : Device} {kill : Bool} (hon : x.fire.fn.st = .on) (hkilled : x.fire.killed = (d.fire.killed || kill)) :
    d.fire.StoppedBy kill x.fireFaultStop.fire :=
  ⟨(Device.fireFaultStop_on hon).1, (Fire.killed_congr x.fireFaultStop_latch).trans hkilled⟩

theorem Device.cancelEdges_killed (d : Device) (t : Nat) : (d.cancelEdges t).fire.killed = d.fire.killed := Fire.killed_congr (d.cancelEdges_latch t)

theorem Device.cancelEdges_fn (d : Device) (t : Nat) : (d.cancelEdges t).fire.fn = d.fire.fn := by
  obtain ⟨_, _, _, _, h⟩ := d.cancelEdges_fire t
  rw [h]

theorem Device.latchKill_fn (d : Device) : d.latchKill.fire.fn = d.fire.fn := by
  obtain ⟨l, h⟩ := d.mram_setLatch_fire (fun f => setBit f.latchNow 48 true)
  have hlatched : d.latchKill.fire = { d.fire with latch := l } := h
  rw [hlatched]

/-- The stray events of a witness within 4 us of one more (R95). -/
def Fire.strayWindow (f : Fire) (w at_ : Nat) : List Nat := (at_ :: vget f.stray w []).filter (fun t => at_ ≤ t + 4 * us)

theorem Device.stray_few {d : Device} {w at_ : Nat} (h : (d.fire.strayWindow w at_).length < fld d.fire.emitter 95 88) :
    d.stray w at_ = d.modFire (fun f => { f with stray := vset f.stray w (d.fire.strayWindow w at_) }) := if_pos h

/-- What a witness's last stray event does: its list cleared, edges taken back, the kill latched and firing stopped. -/
theorem Device.stray_full {d : Device} {w at_ : Nat} (h : fld d.fire.emitter 95 88 ≤ (d.fire.strayWindow w at_).length) :
    ∃ payload stripe n, d.stray w at_ =
      ((((d.modFire (fun f => { f with stray := vset f.stray w (d.fire.strayWindow w at_) })).cancelEdges at_).modFire
        (fun f => { f with stray := vset f.stray w [] })).latchKill.emitterRecord 0x0204 w payload w stripe n).fireFaultStop :=
  ⟨_, _, _, if_neg (Nat.not_lt.mpr h)⟩

/-- A record of emitter supervision leaves the firing controller alone. -/
theorem Device.emitterRecord_fire (d : Device) (id source payload slot stripe misses : Nat) :
    (d.emitterRecord id source payload slot stripe misses).fire = d.fire := (d.raiseRec_keeps _ _ _ _ _ _).fire

theorem Device.stray_stops {d : Device} {w at_ : Nat} (hon : d.fire.fn.st = .on)
    (h : fld d.fire.emitter 95 88 ≤ (d.fire.strayWindow w at_).length) : d.fire.StoppedBy d.power.shut.isNone (d.stray w at_).fire := by
  obtain ⟨payload, stripe, n, hstray⟩ := Device.stray_full h
  rw [hstray]
  generalize hlisted : d.modFire (fun f => { f with stray := vset f.stray w (d.fire.strayWindow w at_) }) = listed
  generalize hcleared : (listed.cancelEdges at_).modFire (fun f => { f with stray := vset f.stray w [] }) = cleared
  have hfn : cleared.fire.fn = d.fire.fn := by
    rw [← hcleared]
    exact (listed.cancelEdges_fn at_).trans (by rw [← hlisted]; rfl)
  have hkilled : cleared.fire.killed = d.fire.killed := by
    rw [← hcleared]
    exact (listed.cancelEdges_killed at_).trans (by rw [← hlisted]; rfl)
  have hpower : cleared.power = d.power := by
    rw [← hcleared]
    exact (listed.cancelEdges_onlyIn at_ .power (by decide)).trans (by rw [← hlisted]; rfl)
  refine Device.fireFaultStop_stoppedBy ?_ ?_
  · rw [Device.emitterRecord_fire, cleared.latchKill_fn, hfn, hon]
  · rw [Device.emitterRecord_fire, cleared.latchKill_killed, hkilled, hpower]

/-- EMIT_FAULT_N acted on while ON latches the kill where FAULT_KILL says so. -/
theorem Device.emitFault_stops {d : Device} (hon : d.fire.fn.st = .on) :
    d.fire.StoppedBy (bit d.fire.emitter 0 && d.power.shut.isNone) d.emitFault.fire := by
  unfold Device.emitFault
  extract_lets cancelled latched
  have hfn : cancelled.fire.fn = d.fire.fn := d.cancelEdges_fn _
  have hkilled : cancelled.fire.killed = d.fire.killed := d.cancelEdges_killed _
  have hpower : cancelled.power = d.power := d.cancelEdges_onlyIn _ .power (by decide)
  have hemitter : cancelled.fire.emitter = d.fire.emitter := by
    obtain ⟨_, _, _, _, h⟩ := d.cancelEdges_fire (d.now + 200)
    rw [show cancelled.fire = _ from h]
  refine Device.fireFaultStop_stoppedBy ?_ ?_
  · show latched.fire.fn.st = .on
    simp only [latched]
    split
    · rw [cancelled.latchKill_fn, hfn, hon]
    · rw [hfn, hon]
  · show latched.fire.killed = _
    simp only [latched, hemitter]
    split
    · next hbit => rw [cancelled.latchKill_killed, hkilled, hpower, hbit, Bool.true_and]
    · next hbit => rw [hkilled, Bool.eq_false_iff.mpr hbit, Bool.false_and, Bool.or_false]

/-! The level of EMIT_FAULT_N (R96, R424). -/

/-- The pin's level with one more assertion. -/
def Fire.withFault (f : Fire) (now width : Nat) : Fire :=
  { f with faultAt := if f.faultLevel now then f.faultAt else now, faultUntil := max f.faultUntil (now + width) }

theorem Device.emitFaultPin_eq (d : Device) (width : Nat) : d.emitFaultPin width =
    if d.alive && (d.modFire (fun f => f.withFault d.now width)).emitFaultNow && (d.fire.fn.st == .on || d.fire.armed d.now)
    then (d.modFire (fun f => f.withFault d.now width)).emitFault else d.modFire (fun f => f.withFault d.now width) := rfl

/-- An assertion of 50 ns and more is present at once: it has begun by now and ends after now. -/
theorem Device.emitFaultNow_iff (d : Device) (width : Nat) : (d.modFire (fun f => f.withFault d.now width)).emitFaultNow = true ↔
    (d.fire.withFault d.now width).faultAt + 50 ≤ (d.fire.withFault d.now width).faultUntil := by
  show (decide (d.now < max d.fire.faultUntil (d.now + width)) && decide ((if d.fire.faultLevel d.now then d.fire.faultAt else d.now) + 50 ≤
    max d.fire.faultUntil (d.now + width))) = true ↔ (if d.fire.faultLevel d.now then d.fire.faultAt else d.now) + 50 ≤
    max d.fire.faultUntil (d.now + width)
  rw [Bool.and_eq_true, decide_eq_true_iff, decide_eq_true_iff, and_iff_right_iff_imp]
  intro h
  by_cases hlevel : d.fire.faultLevel d.now = true
  · exact lt_of_lt_of_le (of_decide_eq_true hlevel) (le_max_left _ _)
  · rw [if_neg hlevel] at h
    omega

/-- A row of the device leaves its effect's device but for what the end of a step writes. -/
theorem devRow_ends {ps : List Part} {dt : Nat} {s : State} {f : Device → Device} {x : Device} (hf : f (s.elapse dt).dev = x)
    (honly : (s.elapse dt).dev.OnlyIn ps x) (hreports : reports ⊆ ps) :
    Answers (devRow dt f s) (fun u => x.Keeps u.dev ∧ (s.elapse dt).dev.OnlyIn ps u.dev) :=
  ⟨_, devRow_runs hf, State.settle_keeps { s.elapse dt with dev := x } s.dev,
    State.settle_onlyIn ps _ { s.elapse dt with dev := x } s.dev (hreports (by decide)) (hreports (by decide)) (hreports (by decide)) honly⟩

theorem devRow_keeps {dt : Nat} {s : State} {f : Device → Device} {x : Device} (hf : f (s.elapse dt).dev = x) :
    Answers (devRow dt f s) (fun u => x.Keeps u.dev) := ⟨_, devRow_runs hf, State.settle_keeps { s.elapse dt with dev := x } s.dev⟩

theorem coreRow_keeps {dt : Nat} {s : State} {f : Device → Device} {x : Device} (halive : (s.elapse dt).dev.alive = true)
    (hf : f (s.elapse dt).dev = x) : Answers (coreRow dt f s) (fun u => x.Keeps u.dev) :=
  ⟨_, coreRow_runs halive hf, State.settle_keeps { s.elapse dt with dev := x } s.dev⟩

/-- A row that changes the firing controller alone. -/
theorem devRow_modFire {dt : Nat} {s : State} {f : Device → Device} {x : Fire}
    (hf : f (s.elapse dt).dev = { (s.elapse dt).dev with fire := x }) :
    Answers (devRow dt f s) (fun u => u.dev.fire = x ∧ (s.elapse dt).dev.OnlyIn (.fire :: reports) u.dev) :=
  (devRow_ends hf (((s.elapse dt).dev.modFire_onlyIn (fun _ => x)).mono (by decide)) (by decide)).imp
    fun _ ⟨hkeeps, honly⟩ => ⟨hkeeps.fire, honly⟩

/-! The bias generator's fault (R111). -/

theorem Device.biasFaulted_idle {d : Device} {off : Int} {held : Nat} (h : d.rx.biasFault = true ∨ d.rx.biasOff off held d.now = false) :
    d.biasFaulted off held = d := if_pos (by rcases h with h | h <;> simp [h])

theorem Device.biasCleared_idle {d : Device} {off : Int} {held : Nat} (h : d.rx.biasFault = false ∨ d.rx.biasNear off held d.now = false) :
    d.biasCleared off held = d := if_pos (by rcases h with h | h <;> simp [h])

theorem Device.biasFaulted_due {d : Device} {off : Int} {held : Nat} (hnone : d.rx.biasFault = false)
    (hoff : d.rx.biasOff off held d.now = true) : d.biasFaulted off held =
      ((d.modRx (fun r => { r with biasFault := true })).biasEvent (d.rx.biasMeasured off d.now) true).fireFaultStop :=
  if_neg (by simp [hnone, hoff])

theorem Device.biasCleared_due {d : Device} {off : Int} {held : Nat} (hfault : d.rx.biasFault = true)
    (hnear : d.rx.biasNear off held d.now = true) : d.biasCleared off held =
      (d.modRx (fun r => { r with biasFault := false })).biasEvent (d.rx.biasMeasured off d.now) false :=
  if_neg (by simp [hfault, hnear])

/-- Settles O18: each fault stops firing where its condition is met, and changes nothing but its own record where not. -/
theorem faultsStopFiring : Obligations.FaultsStopFiring := by
  unfold Obligations.FaultsStopFiring
  refine ⟨⟨?kill, ?level⟩, ?bias⟩
  case kill =>
    intro s dt width w halive hon d f level l stops
    have hstops : ∀ {kill : Bool} {f' : Fire} {x : Device}, f'.killed = f.killed → f'.StoppedBy kill x.fire → ∀ u : State, x.Keeps u.dev →
        u.dev.fire.killed = (f.killed || kill) ∧ stops u := by
      intro kill f' x hf' ⟨⟨hst, hfault, hrestart, hshotQ, harmAt, hheld⟩, hkilled⟩ u hkeeps
      dsimp only [stops]
      rw [hkeeps.fire, ← hf']
      exact ⟨hkilled, hst, hfault, hrestart, hshotQ, harmAt, hheld⟩
    have hacts : d.emitFaultPin width = if (d.modFire (fun f => f.withFault d.now width)).emitFaultNow
        then (d.modFire (fun f => f.withFault d.now width)).emitFault else d.modFire (fun f => f.withFault d.now width) := by
      rw [d.emitFaultPin_eq, show d.alive = true from halive, show d.fire.fn.st = .on from hon]
      simp only [Bool.true_and, beq_self_eq_true, Bool.true_or, Bool.and_true]
    refine ⟨fun hfull => ?_, fun hfew => ?_, fun hlong => ?_, fun hshort => ?_⟩ <;> dsimp only [exec]
    · exact (coreRow_keeps halive rfl).imp (hstops rfl (Device.stray_stops (d := d) hon hfull))
    · exact coreRow_modFire (f := fun d => d.stray w.val d.now) (g := fun f => { f with stray := vset f.stray w.val l }) halive
        (Device.stray_few hfew)
    · exact (devRow_keeps (hacts.trans (if_pos ((d.emitFaultNow_iff width).mpr hlong)))).imp
        (hstops (f' := f.withFault d.now width) rfl (Device.emitFault_stops (d := d.modFire (fun f => f.withFault d.now width)) hon))
    · refine devRow_modFire (f := fun d => d.emitFaultPin width) ?_
      exact hacts.trans (if_neg (fun h => absurd ((d.emitFaultNow_iff width).mp h) (Nat.not_le.mpr hshort)))
  case level =>
    intro s dt width d f hidle
    refine devRow_modFire (f := fun d => d.emitFaultPin width) ?_
    refine (d.emitFaultPin_eq width).trans (if_neg ?_)
    rcases hidle with h | ⟨hst, harmed⟩
    · simp [h]
    · simp [show d.fire.fn.st ≠ .on from hst, show d.fire.armed d.now = false from harmed]
  case bias =>
    intro s dt held off halive d
    refine ⟨fun hnone hoff hon => ?_, fun hfault hnear => ?_, fun h => ?_, fun h => ?_⟩ <;> dsimp only [exec]
    · obtain ⟨⟨hst, hfault, _⟩, hbias⟩ := Device.fireFaultStop_on
        (d := (d.modRx (fun r => { r with biasFault := true })).biasEvent (d.rx.biasMeasured off d.now) true) hon
      refine (coreRow_keeps halive (Device.biasFaulted_due hnone hoff)).imp fun u hkeeps => ?_
      rw [hkeeps.rx, hkeeps.fire]
      exact ⟨hbias, hst, hfault, Device.fireFaultStop_latch _⟩
    · refine (coreRow_ends halive (Device.biasCleared_due hfault hnear) (ps := .rx :: reports) ?_ (by decide)).imp fun u ⟨hkeeps, honly⟩ =>
        ⟨hkeeps.rx, honly⟩
      intro p hp
      cases p <;> first | rfl | exact absurd (by decide) hp
    · exact coreRow_idles dt _ s (Device.biasFaulted_idle h)
    · exact coreRow_idles dt _ s (Device.biasCleared_idle h)

end Sys2Proof.Machine
end

section
/-! The dose governor (R85-R91). -/

namespace Sys2Proof.Machine

open Sys2Proof

/-! The budget check (R91). -/

theorem Device.budgetCheck_safe {d : Device} (h : d.fire.safeBudget = true) : d.budgetCheck = d := if_pos h

theorem Device.budgetCheck_matches {d : Device} (hsafe : d.fire.safeBudget = false) (hok : d.fire.budget.ok = true) :
    d.budgetCheck = d.intact 1 0 := by
  unfold Device.budgetCheck
  rw [hsafe, hok, if_neg (by decide), if_pos rfl]

/-- A budget whose complement does not match gives way to the safe default, its sums from zero. -/
theorem Device.budgetCheck_fails {d : Device} (hsafe : d.fire.safeBudget = false) (hok : d.fire.budget.ok = false) :
    d.budgetCheck.fire = Fire.restartSums { d.fire with safeBudget := true, budgetAt := d.now } d.govTime := by
  unfold Device.budgetCheck
  rw [hsafe, hok, if_neg (by decide), if_neg (by decide)]
  extract_lets e told recorded
  have hkeeps : d.Keeps recorded := (d.integrityN_keeps 1 0 0 1).trans (told.record_keeps _ _ _ _)
  clear_value recorded
  show Fire.restartSums { recorded.fire with safeBudget := true, budgetAt := recorded.time.clk } (recorded.time.clk - recorded.time.releasedAt) = _
  rw [hkeeps.fire, hkeeps.time]
  rfl

theorem Fire.restartSums_empty (f : Fire) (gov : Nat) :
    (∀ k, (f.restartSums gov).shortOf k = 0 ∧ (f.restartSums gov).longOf k = 0) ∧ (f.restartSums gov).globOf = 0 := by
  have hempty : ∀ k, (vget (Vector.replicate 48 ([] : List Nat)) k []).sum = 0 := by
    intro k
    unfold vget
    split <;> simp
  exact ⟨fun k => ⟨hempty k, hempty k⟩, rfl⟩

/-! Charges and their sums (R88). -/

theorem addHead_sum (e : Nat) (l : List Nat) : (addHead e l).sum = l.sum + e := by
  cases l with
  | nil => simp [addHead]
  | cons x t => simp only [addHead, List.sum_cons]; omega

theorem dropHead_sum_le (e : Nat) (l : List Nat) : (dropHead e l).sum ≤ l.sum := by
  induction l with
  | nil => exact le_refl _
  | cons x t ih =>
    unfold dropHead
    split <;> simp only [List.sum_cons] <;> omega

/-- A sum after its list at `k` is changed by `h`. -/
theorem sum_vmod_le {n : Nat} (v : Vector (List Nat) n) (k j : Nat) {h : List Nat → List Nat} {e : Nat} (hh : ∀ l, (h l).sum ≤ l.sum + e) :
    (vget (vmod v k h) j []).sum ≤ (vget v j []).sum + if k = j then e else 0 := by
  by_cases hkj : k = j
  · subst hkj
    rw [if_pos rfl]
    by_cases hk : k < n
    · rw [vget_vmod_same _ _ _ _ hk]
      exact hh _
    · rw [vmod, dif_neg hk]
      omega
  · rw [vget_vmod_other _ _ _ _ _ hkj]
    omega

theorem Fire.charge_short_le (f : Fire) (k e j : Nat) : (f.charge k e).shortOf j ≤ f.shortOf j + if k = j then e else 0 :=
  sum_vmod_le _ _ _ fun l => (addHead_sum e l).le

theorem Fire.charge_long_le (f : Fire) (k e j : Nat) : (f.charge k e).longOf j ≤ f.longOf j + if k = j then e else 0 :=
  sum_vmod_le _ _ _ fun l => (addHead_sum e l).le

/-- No sum of `f'` is above that of `f`. -/
structure Fire.Lighter (f f' : Fire) : Prop where
  short : ∀ k, f'.shortOf k ≤ f.shortOf k
  long : ∀ k, f'.longOf k ≤ f.longOf k
  glob : f'.globOf ≤ f.globOf

theorem Fire.uncharge_lighter (f : Fire) (k e : Nat) : f.Lighter (f.uncharge k e) := by
  refine ⟨fun j => ?_, fun j => ?_, dropHead_sum_le e _⟩
  · exact (sum_vmod_le (e := 0) _ _ _ (dropHead_sum_le e)).trans (by split <;> exact le_refl _)
  · exact (sum_vmod_le (e := 0) _ _ _ (dropHead_sum_le e)).trans (by split <;> exact le_refl _)

theorem Fire.uncharge_foldl_lighter {α : Type} (k e : α → Nat) (l : List α) (f : Fire) :
    f.Lighter (l.foldl (fun f s => f.uncharge (k s) (e s)) f) := by
  induction l generalizing f with
  | nil => exact ⟨fun _ => le_refl _, fun _ => le_refl _, le_refl _⟩
  | cons s l ih =>
    have hs := f.uncharge_lighter (k s) (e s)
    have hl := ih (f.uncharge (k s) (e s))
    exact ⟨fun j => (hl.short j).trans (hs.short j), fun j => (hl.long j).trans (hs.long j), hl.glob.trans hs.glob⟩

/-- The slots of `l` charged in turn, where no other one fires on the stripe of `k`: a sum of that stripe takes at most `k`'s energy. -/
theorem Fire.foldl_charge_le {sum : Fire → Nat} {ok : Nat → Bool} {stripe energy : Nat → Nat} {k : Nat}
    (hsum : ∀ (f : Fire) (q e : Nat), sum (f.charge q e) ≤ sum f + if q = stripe k then e else 0) (l : List Nat) (hl : l.Nodup)
    (hother : ∀ s ∈ l, s ≠ k → ok s = true → stripe s ≠ stripe k) (f : Fire) :
    sum (l.foldl (fun f s => if ok s then f.charge (stripe s) (energy s) else f) f) ≤ sum f + if k ∈ l then energy k else 0 := by
  induction l generalizing f with
  | nil => simp
  | cons s l ih =>
    obtain ⟨hs, hl⟩ := List.nodup_cons.mp hl
    have htail := ih hl (fun r hr => hother r (List.mem_cons_of_mem _ hr)) (if ok s then f.charge (stripe s) (energy s) else f)
    refine htail.trans ?_
    by_cases hsk : s = k
    · subst hsk
      have hhead := hsum f (stripe s) (energy s)
      rw [if_pos rfl] at hhead
      simp only [hs, if_false, List.mem_cons, true_or, if_true]
      split <;> omega
    · simp only [List.mem_cons, show ¬k = s from fun h => hsk h.symm, false_or]
      refine Nat.add_le_add_right ?_ _
      split
      · next hok => exact (hsum f _ _).trans (by rw [if_neg (hother s List.mem_cons_self hsk hok)]; exact le_refl _)
      · exact le_refl _

theorem Fire.foldl_charge_glob (ok : Nat → Bool) (stripe energy : Nat → Nat) (l : List Nat) (f : Fire) :
    (l.foldl (fun f s => if ok s then f.charge (stripe s) (energy s) else f) f).globOf =
      f.globOf + (l.map (fun s => if ok s then energy s else 0)).sum := by
  induction l generalizing f with
  | nil => rfl
  | cons s l ih =>
    rw [List.foldl_cons, ih, List.map_cons, List.sum_cons, ← Nat.add_assoc]
    congr 1
    split
    · exact addHead_sum _ _
    · rfl

/-! What the governor lets fire (R88). -/

/-- The energies of the slots that `ok` names, in their order. -/
theorem sum_zipIdx_eq (ok : List Bool) (energy : Nat → Nat) :
    (ok.zipIdx.map (fun p => if p.1 then energy p.2 else 0)).sum =
      ((List.range ok.length).map (fun s => if (ok[s]?).getD false then energy s else 0)).sum := by
  congr 1
  refine List.ext_getElem (by simp) fun i hi _ => ?_
  have hlen : i < ok.length := by simpa using hi
  simp [hlen]

/-- The governor's tests of each slot alone. -/
def Fire.slotTests (f : Fire) (g : Group) : List Bool :=
  g.slots.toList.zipIdx.map (fun p => p.1.commanded &&
    (let t := f.doseTests p.1.stripe (descEnergy g.desc p.2); t.1 && t.2.1 && t.2.2))

theorem Fire.slotTests_getElem {f : Fire} {g : Group} {k : Nat} (h : ((f.slotTests g)[k]?).getD false = true) (hk : k < 4) :
    let x := g.slots[k]
    x.stripe ≠ idleStripe ∧ budAllow f.budgetNow x.stripe = true ∧ f.shortOf x.stripe + descEnergy g.desc k ≤ budShort f.budgetNow ∧
      f.longOf x.stripe + descEnergy g.desc k ≤ budLong f.budgetNow := by
  intro x
  have hk' : ((f.slotTests g)[k]?).getD false = (x.commanded &&
      (let t := f.doseTests x.stripe (descEnergy g.desc k); t.1 && t.2.1 && t.2.2)) := by
    simp [Fire.slotTests, hk, x]
  rw [hk'] at h
  simp only [SlotRun.commanded, Fire.doseTests, Bool.and_eq_true, bne_iff_ne, decide_eq_true_eq] at h
  obtain ⟨⟨hstripe, _⟩, ⟨hallow, hshort⟩, hlong⟩ := h
  exact ⟨hstripe, hallow, hshort, hlong⟩

/-- A slot fires only where its own tests pass and the energies of all that pass fit the global limit. -/
theorem Fire.govern_getElem {f : Fire} {g : Group} {k : Nat} (h : ((f.govern g)[k]?).getD false = true) :
    f.govern g = f.slotTests g ∧ f.globOf + ((List.range 4).map (fun s => if ((f.govern g)[s]?).getD false then descEnergy g.desc s else 0)).sum ≤
      budGlobal f.budgetNow * 10000 := by
  have hgovern : f.govern g = if budGlobal f.budgetNow * 10000 <
      f.globOf + ((f.slotTests g).zipIdx.map (fun p => if p.1 then descEnergy g.desc p.2 else 0)).sum
      then (f.slotTests g).map (fun _ => false) else f.slotTests g := rfl
  by_cases hglob : budGlobal f.budgetNow * 10000 <
      f.globOf + ((f.slotTests g).zipIdx.map (fun p => if p.1 then descEnergy g.desc p.2 else 0)).sum
  · rw [hgovern, if_pos hglob, List.getElem?_map] at h
    cases hx : (f.slotTests g)[k]? <;> simp [hx] at h
  · rw [if_neg hglob] at hgovern
    have hlen : (f.slotTests g).length = 4 := by simp [Fire.slotTests]
    rw [sum_zipIdx_eq, hlen] at hglob
    rw [hgovern]
    exact ⟨rfl, Nat.not_lt.mp hglob⟩

/-- A slot that fires: its stripe is allowed, and once all are charged its sums and the global one lie within the limits. -/
theorem Fire.chargeSlots_within {f : Fire} {g : Group} {k : Nat} (hk : k < 4)
    (hstripes : ∀ a b : Fin 4, a ≠ b → g.slots[a].stripe = g.slots[b].stripe → g.slots[a].stripe = idleStripe)
    (h : ((f.govern g)[k]?).getD false = true) :
    let x := f.chargeSlots g (f.govern g)
    budAllow f.budgetNow g.slots[k].stripe = true ∧ x.shortOf g.slots[k].stripe ≤ budShort f.budgetNow ∧
      x.longOf g.slots[k].stripe ≤ budLong f.budgetNow ∧ x.globOf ≤ budGlobal f.budgetNow * 10000 := by
  intro x
  obtain ⟨hgovern, hglob⟩ := Fire.govern_getElem h
  obtain ⟨hlive, hallow, hshort, hlong⟩ := Fire.slotTests_getElem (hgovern ▸ h) hk
  have hget : ∀ s, (hs : s < 4) → (vget g.slots s {}).stripe = g.slots[s].stripe := fun s hs => by rw [vget, dif_pos hs]
  have hother : ∀ s ∈ List.range 4, s ≠ k → ((f.govern g)[s]?).getD false = true →
      (vget g.slots s {}).stripe ≠ (vget g.slots k {}).stripe := by
    intro s hs hsk _ heq
    have hs : s < 4 := List.mem_range.mp hs
    rw [hget s hs, hget k hk] at heq
    exact hlive (heq ▸ hstripes ⟨s, hs⟩ ⟨k, hk⟩ (fun e => hsk (congrArg Fin.val e)) heq)
  have hmem : k ∈ List.range 4 := List.mem_range.mpr hk
  have hle : ∀ {sum : Fire → Nat},
      (∀ (f : Fire) (q e : Nat), sum (f.charge q e) ≤ sum f + if q = (vget g.slots k {}).stripe then e else 0) →
      sum x ≤ sum f + descEnergy g.desc k := by
    intro sum hsum
    refine (Fire.foldl_charge_le (ok := fun s => ((f.govern g)[s]?).getD false) (stripe := fun s => (vget g.slots s {}).stripe)
      (energy := fun s => descEnergy g.desc s) hsum (List.range 4) List.nodup_range hother f).trans ?_
    rw [if_pos hmem]
  have hshortLe := hle (sum := fun f => f.shortOf (vget g.slots k {}).stripe) (fun f q e => f.charge_short_le q e _)
  have hlongLe := hle (sum := fun f => f.longOf (vget g.slots k {}).stripe) (fun f q e => f.charge_long_le q e _)
  rw [hget k hk] at hshortLe hlongLe
  refine ⟨hallow, hshortLe.trans hshort, hlongLe.trans hlong, ?_⟩
  exact (Fire.foldl_charge_glob (fun s => ((f.govern g)[s]?).getD false) _ _ _ f).le.trans hglob

/-! The group after a shot. -/

/-- Each slot of a list changed once. -/
theorem vget_foldl_vmod {α : Type} {n : Nat} (h : Nat → α → α) (l : List Nat) (hl : l.Nodup) (v : Vector α n) (k : Nat) (hk : k < n)
    (d : α) : vget (l.foldl (fun v s => vmod v s (h s)) v) k d = if k ∈ l then h k (vget v k d) else vget v k d := by
  induction l generalizing v with
  | nil => simp
  | cons s l ih =>
    obtain ⟨hs, hl⟩ := List.nodup_cons.mp hl
    rw [List.foldl_cons, ih hl]
    by_cases hsk : s = k
    · subst hsk
      simp [hs, hk]
    · simp [vget_vmod_other _ _ _ _ _ hsk, show ¬k = s from fun e => hsk e.symm]

/-- A slot `y` after a shot, from `x` before it, with the budget `b` in force and the sums of `f`. -/
structure SlotRun.Shot (b : BitVec 256) (f : Fire) (x y : SlotRun) : Prop where
  stripe : y.stripe = x.stripe
  still : y.firing = false → y.fired = x.fired
  fired : y.firing = true → y.fired = x.fired + 1 ∧ budAllow b x.stripe = true ∧ f.shortOf x.stripe ≤ budShort b ∧
    f.longOf x.stripe ≤ budLong b ∧ f.globOf ≤ budGlobal b * 10000

theorem SlotRun.Shot.lighter {b : BitVec 256} {f f' : Fire} {x y : SlotRun} (h : SlotRun.Shot b f x y) (hf : f.Lighter f') :
    SlotRun.Shot b f' x y := by
  refine ⟨h.stripe, h.still, fun hfiring => ?_⟩
  obtain ⟨hfired, hallow, hshort, hlong, hglob⟩ := h.fired hfiring
  exact ⟨hfired, hallow, (hf.short _).trans hshort, (hf.long _).trans hlong, hf.glob.trans hglob⟩

/-- A slot whose edge is taken back fires no longer, and counts no shot. -/
theorem SlotRun.Shot.unfire {b : BitVec 256} {f : Fire} {x y : SlotRun} (h : SlotRun.Shot b f x y) (hfiring : y.firing = true) (edge : Nat)
    (parity : Bool) : SlotRun.Shot b f x (y.unfire edge parity) := by
  refine ⟨h.stripe, fun _ => ?_, fun hf => absurd hf Bool.false_ne_true⟩
  show y.fired - 1 = x.fired
  rw [(h.fired hfiring).1, Nat.add_sub_cancel]

/-- The firing controller after the shot of the group `g` at `now`, `f0` as the governor tested it. -/
def Fire.AfterShot (f0 : Fire) (g : Group) (now : Nat) (f : Fire) : Prop :=
  ∃ g', f.grp = some g' ∧ g'.shots = g.shots + 1 ∧ f.lfsr = lfsrShot f0.lfsr ∧ f.slotClk = now ∧ f.budgetNow = f0.budgetNow ∧
    ∀ k : Fin 4, SlotRun.Shot f0.budgetNow f g.slots[k] g'.slots[k]

/-- What a shot makes of a slot that is not firing yet, but that it may go dark. -/
def SlotRun.after (x : SlotRun) (emitter : BitVec 128) (edge : Nat) (delay : Int) (parity fires : Bool) (hits : List Nat) : SlotRun :=
  if fires then x.fire emitter edge delay parity hits else if x.commanded then { x with dosed := true } else x

theorem SlotRun.after_eq {x : SlotRun} (hx : x.firing = false) (emitter : BitVec 128) (edge : Nat) (delay : Int) (parity fires : Bool)
    (hits : List Nat) :
    let y := x.after emitter edge delay parity fires hits
    y.stripe = x.stripe ∧ y.firing = fires ∧ y.fired = if fires then x.fired + 1 else x.fired := by
  intro y
  cases fires with
  | true => exact ⟨rfl, rfl, rfl⟩
  | false =>
    simp only [y, SlotRun.after, Bool.false_eq_true, if_false]
    split <;> exact ⟨rfl, hx, rfl⟩

/-- A slot of a group after a shot, in which it may have gone dark. -/
theorem Group.shot_slots (g : Group) (emitter : BitVec 128) (dither : Nat) (parity : Bool) (ok : List Bool) (ws : List (List Nat)) (k : Fin 4) :
    ∃ edge delay hits dark, (g.shot emitter dither parity ok ws).slots[k] =
      { SlotRun.after { g.slots[k] with firing := false } emitter edge delay parity ((ok[k.val]?).getD false) hits with dark } := by
  unfold Group.shot
  extract_lets idle fired darkM slots dosed dark flags
  have hfired : fired = (List.range 4).foldl (fun v s => vmod v s (fun x => x.after emitter (fireEdge emitter dither s) (vget g.emitDelay s 0)
      parity ((ok[s]?).getD false) ((ws[s]?).getD []))) idle := by
    simp only [fired]
    congr 1
    funext v s
    unfold SlotRun.after
    split <;> rfl
  have hslot := vget_foldl_vmod (fun s x => SlotRun.after x emitter (fireEdge emitter dither s) (vget g.emitDelay s 0) parity
    ((ok[s]?).getD false) ((ws[s]?).getD [])) (List.range 4) List.nodup_range idle k.val k.isLt {}
  rw [← hfired, if_pos (List.mem_range.mpr k.isLt), vget, dif_pos k.isLt, vget, dif_pos k.isLt] at hslot
  have hidle : idle[k.val] = { g.slots[k] with firing := false } := Vector.getElem_map _ _
  have hdark : slots[k] = if !fired[k.val].dark && fired[k.val].firing && darkM ≤ (fired[k.val].recent.filter id).length
      then { fired[k.val] with dark := true } else fired[k.val] := Vector.getElem_map _ _
  refine ⟨fireEdge emitter dither k.val, vget g.emitDelay k.val 0, (ws[k.val]?).getD [], slots[k].dark, ?_⟩
  rw [hidle] at hslot
  rw [← hslot]
  show slots[k] = { fired[k.val] with dark := slots[k].dark }
  rw [hdark]
  split <;> rfl

/-- Charging changes the sums alone. -/
theorem Fire.chargeSlots_fire (f : Fire) (g : Group) (ok : List Bool) : ∃ ss ls gs,
    f.chargeSlots g ok = { f with shortSum := ss, longSum := ls, globSum := gs } := by
  unfold Fire.chargeSlots
  generalize List.range 4 = l
  induction l generalizing f with
  | nil => exact ⟨_, _, _, rfl⟩
  | cons s l ih =>
    rw [List.foldl_cons]
    split
    · exact ih (f.charge _ _)
    · exact ih f

/-- The shot itself: what the governor lets fire fires, within the budget. -/
theorem Fire.shoot_afterShot {f : Fire} {g : Group} (hstripes : ∀ a b : Fin 4, a ≠ b → g.slots[a].stripe = g.slots[b].stripe →
    g.slots[a].stripe = idleStripe) (now : Nat) (ws : List (List Nat)) : f.AfterShot g now (f.shoot g now ws) := by
  have hwithin : ∀ k : Fin 4, ((f.govern g)[k.val]?).getD false = true → _ := fun k => Fire.chargeSlots_within k.isLt hstripes
  have hslots : ∀ k : Fin 4, ∃ edge delay hits dark, (f.shotGroup g ws).slots[k] = { SlotRun.after { g.slots[k] with firing := false }
      f.emitter edge delay (ditherParity (ditherCode (lfsrShot f.lfsr))) (((f.govern g)[k.val]?).getD false) hits with dark } :=
    g.shot_slots _ _ _ _ _
  obtain ⟨ss, ls, gs, hcharged⟩ := f.chargeSlots_fire g (f.govern g)
  unfold Fire.shoot
  rw [hcharged] at hwithin ⊢
  refine ⟨f.shotGroup g ws, rfl, rfl, rfl, rfl, rfl, fun k => ?_⟩
  obtain ⟨edge, delay, hits, dark, hslot⟩ := hslots k
  obtain ⟨hstripe, hfiring, hfired⟩ := SlotRun.after_eq (x := { g.slots[k] with firing := false }) rfl f.emitter edge delay
    (ditherParity (ditherCode (lfsrShot f.lfsr))) (((f.govern g)[k.val]?).getD false) hits
  rw [hslot]
  refine ⟨hstripe, fun hstill => ?_, fun hfires => ?_⟩
  · have hnot : ((f.govern g)[k.val]?).getD false = false := hfiring.symm.trans hstill
    exact hfired.trans (by rw [hnot]; rfl)
  · have hok : ((f.govern g)[k.val]?).getD false = true := hfiring.symm.trans hfires
    exact ⟨hfired.trans (by rw [hok]; rfl), hwithin k hok⟩

/-! What follows the shot: reports, dark slots and stray events (R89, R94, R95). -/

theorem Fire.AfterShot.same {f0 : Fire} {g : Group} {now : Nat} {f f' : Fire} (h : f0.AfterShot g now f) (hf : f.SameDose f') :
    f0.AfterShot g now f' := by
  obtain ⟨g', hg, hshots, hlfsr, hclk, hbudget, hslots⟩ := h
  have hlighter : f.Lighter f' := by
    refine ⟨fun k => ?_, fun k => ?_, ?_⟩
    · rw [Fire.shortOf, hf.shortSum]; exact le_refl _
    · rw [Fire.longOf, hf.longSum]; exact le_refl _
    · rw [Fire.globOf, hf.globSum]; exact le_refl _
  have hgrp := hf.grp
  rw [hg, Option.map_some, Option.map_eq_some_iff] at hgrp
  obtain ⟨g'', hg'', heq⟩ := hgrp
  obtain ⟨hs, hn⟩ := Prod.ext_iff.mp heq
  refine ⟨g'', hg'', hn.trans hshots, hf.lfsr.trans hlfsr, hf.slotClk.trans hclk, ?_, fun k => ?_⟩
  · rw [Fire.budgetNow, hf.budget, hf.safeBudget]
    exact hbudget
  · rw [show g''.slots = g'.slots from hs]
    exact (hslots k).lighter hlighter

/-- Edges taken back: their slots fire no longer, and no sum rises. -/
theorem Fire.AfterShot.cancelEdges {f0 : Fire} {g : Group} {now : Nat} {d : Device} (h : f0.AfterShot g now d.fire) (t : Nat) :
    f0.AfterShot g now (d.cancelEdges t).fire := by
  obtain ⟨g', hg, hshots, hlfsr, hclk, hbudget, hslots⟩ := h
  unfold Device.cancelEdges
  split
  case h_1 hnone => exact absurd (hg.symm.trans hnone) (by simp)
  case h_2 g'' hg'' =>
    obtain rfl : g' = g'' := Option.some.inj (hg.symm.trans hg'')
    lift_lets
    extract_lets f off slots uncharged gone
    obtain ⟨ss, ls, gs, huncharged⟩ := Fire.uncharge_foldl (fun s => (vget g'.slots s {}).stripe) (fun s => descEnergy g'.desc s) off d.fire
    have hlighter := Fire.uncharge_foldl_lighter (fun s => (vget g'.slots s {}).stripe) (fun s => descEnergy g'.desc s) off d.fire
    rw [huncharged] at hlighter
    change f0.AfterShot g now { uncharged with grp := some { g' with slots } }
    rw [show uncharged = _ from huncharged]
    refine ⟨{ g' with slots }, rfl, hshots, hlfsr, hclk, hbudget, fun k => ?_⟩
    have hoff : k.val ∈ off → g'.slots[k].firing = true := fun hk => by
      obtain ⟨_, hk⟩ := List.mem_filter.mp hk
      have hfiring := (Bool.and_eq_true _ _ ▸ hk).1
      rwa [vget, dif_pos k.isLt] at hfiring
    have hslot : slots[k] = if k.val ∈ off then g'.slots[k].unfire (fireEdge f.emitter f.dither k.val) f.parity else g'.slots[k] := by
      have h := vget_foldl_vmod (fun s (x : SlotRun) => x.unfire (fireEdge f.emitter f.dither s) f.parity) off
        (List.nodup_range.filter _) g'.slots k.val k.isLt {}
      rwa [vget, dif_pos k.isLt, vget, dif_pos k.isLt] at h
    show SlotRun.Shot _ _ _ slots[k]
    rw [hslot]
    by_cases hmem : k.val ∈ off
    · rw [if_pos hmem]
      exact ((hslots k).unfire (hoff hmem) _ _).lighter ⟨hlighter.short, hlighter.long, hlighter.glob⟩
    · rw [if_neg hmem]
      exact (hslots k).lighter ⟨hlighter.short, hlighter.long, hlighter.glob⟩

theorem Device.latchKill_sameDose (d : Device) : d.fire.SameDose d.latchKill.fire := by
  obtain ⟨l, h⟩ := d.mram_setLatch_fire (fun f => setBit f.latchNow 48 true)
  rw [show d.latchKill.fire = { d.fire with latch := l } from h]
  exact ⟨rfl, rfl, rfl, rfl, rfl, rfl, rfl, rfl, rfl⟩

theorem Device.darkEvent_sameDose (d : Device) (g : Group) (s : Nat) : d.fire.SameDose (d.darkEvent g s).fire := by
  unfold Device.darkEvent
  extract_lets x run failed counted marked payload
  have hcounted : d.fire.SameDose counted.fire := ⟨rfl, rfl, rfl, rfl, rfl, rfl, rfl, rfl, rfl⟩
  have hmarked : counted.fire.SameDose marked.fire := by
    simp only [marked]
    split
    · obtain ⟨l, h⟩ := counted.mram_setLatch_fire (fun f => setBit f.latchNow x.stripe true)
      rw [h]
      exact ⟨rfl, rfl, rfl, rfl, rfl, rfl, rfl, rfl, rfl⟩
    · exact .refl _
  refine hcounted.trans (hmarked.trans ?_)
  split
  · rw [Device.emitterRecord_fire]
    exact .refl _
  · exact .refl _

theorem Fire.AfterShot.stray {f0 : Fire} {g : Group} {now : Nat} {d : Device} (h : f0.AfterShot g now d.fire) (w at_ : Nat) :
    f0.AfterShot g now (d.stray w at_).fire := by
  have hlist : ∀ (x : Device) l, x.fire.SameDose (x.modFire (fun f => { f with stray := vset f.stray w l })).fire := fun x l =>
    ⟨rfl, rfl, rfl, rfl, rfl, rfl, rfl, rfl, rfl⟩
  by_cases hfew : (d.fire.strayWindow w at_).length < fld d.fire.emitter 95 88
  · rw [Device.stray_few hfew]
    exact h.same (hlist d _)
  · obtain ⟨payload, stripe, n, hstray⟩ := Device.stray_full (Nat.not_lt.mp hfew)
    rw [hstray]
    refine Fire.AfterShot.same ?_ (Device.fireFaultStop_sameDose _)
    rw [Device.emitterRecord_fire]
    exact (((h.same (hlist d _)).cancelEdges at_).same (hlist _ _)).same (Device.latchKill_sameDose _)

theorem Fire.AfterShot.foldl {α : Type} {f0 : Fire} {g : Group} {now : Nat} {act : Device → α → Device}
    (hact : ∀ (d : Device) a, f0.AfterShot g now d.fire → f0.AfterShot g now (act d a).fire) (l : List α) (d : Device)
    (h : f0.AfterShot g now d.fire) : f0.AfterShot g now (l.foldl act d).fire := by
  induction l generalizing d with
  | nil => exact h
  | cons a l ih => exact ih (act d a) (hact d a h)

theorem Fire.AfterShot.shotEvents {f0 : Fire} {g : Group} {now : Nat} {d : Device} (h : f0.AfterShot g now d.fire) (f : Fire)
    (g0 g1 : Group) (ws : List (List Nat)) : f0.AfterShot g now (d.shotEvents f g0 g1 ws).fire := by
  unfold Device.shotEvents
  extract_lets newly dosed dark
  have hdosed : f0.AfterShot g now dosed.fire := 
    .foldl (act := fun d s => d.doseEvent f g1 s) (fun _ _ hd => hd) _ d h
  have hdark : f0.AfterShot g now dark.fire := .foldl (fun d s hd => hd.same (d.darkEvent_sameDose g1 s)) _ dosed hdosed
  exact .foldl (fun d p hd => .foldl (fun d t hd => hd.stray _ _) _ d hd) _ dark hdark

theorem Device.shot_afterShot {d : Device} {g : Group} (hg : d.fire.grp = some g) (hdue : d.fire.shotDue g d.now = true)
    (hstripes : ∀ a b : Fin 4, a ≠ b → g.slots[a].stripe = g.slots[b].stripe → g.slots[a].stripe = idleStripe)
    (ps : List (List (Nat × Nat))) : (d.fire.roll d.govTime).AfterShot g d.now (d.shot ps).fire := by
  obtain ⟨rx, hshot⟩ := d.shot_due hg hdue ps
  rw [hshot]
  exact Fire.AfterShot.shotEvents (Fire.shoot_afterShot hstripes d.now _) _ _ _ _

/-- Settles O19: the budget check keeps a budget that matches and brings the safe default for one that does not; a shot fires what the
governor's tests allow, and what follows it takes edges back or leaves the dose alone. -/
theorem doseBudget : Obligations.DoseBudget := by
  unfold Obligations.DoseBudget
  refine ⟨?check, ?shot⟩
  case check =>
    intro s dt halive d
    refine ⟨fun hsafe hok => ?_, fun hsafe hok => ?_, fun hsafe => ?_⟩ <;> dsimp only [exec]
    · refine (coreRow_keeps halive (Device.budgetCheck_matches (d := d.modFire (fun f => f.roll d.govTime)) hsafe hok)).imp fun u hkeeps => ?_
      exact hkeeps.fire.trans (Device.intact_keeps _ _ _).fire
    · refine (coreRow_keeps halive rfl).imp fun u hkeeps => ?_
      rw [hkeeps.fire, Device.budgetCheck_fails (d := d.modFire (fun f => f.roll d.govTime)) hsafe hok]
      obtain ⟨hsums, hglob⟩ := Fire.restartSums_empty
        { (d.fire.roll d.govTime) with safeBudget := true, budgetAt := d.now } d.govTime
      exact ⟨rfl, rfl, rfl, hsums, hglob, rfl⟩
    · exact coreRow_modFire (g := fun f => f.roll d.govTime) halive (Device.budgetCheck_safe hsafe)
  case shot =>
    intro s dt w0 w1 w2 w3 g halive d hg hdue hstripes
    dsimp only [exec]
    refine (coreRow_keeps halive rfl).imp fun u hkeeps => ?_
    rw [hkeeps.fire]
    obtain ⟨g', hg', hshots, hlfsr, hclk, hbudget, hslots⟩ := Device.shot_afterShot hg hdue hstripes [w0, w1, w2, w3]
    refine ⟨g', hg', hshots, hlfsr, hclk, hbudget, fun k => ?_⟩
    exact ⟨(hslots k).stripe, (hslots k).still, (hslots k).fired⟩

end Sys2Proof.Machine
end

section
/-! Photon events (R120, R130-R133). -/

namespace Sys2Proof.Machine

open Sys2Proof

/-! Rows that change the receiver. -/

theorem Device.modRx_onlyIn (d : Device) (f : Rx → Rx) : d.OnlyIn [.rx] (d.modRx f) := by
  intro p hp
  cases p <;> first | rfl | exact absurd (by decide) hp

/-- A row that changes the receiver alone. -/
theorem coreRow_modRx {s : State} {dt : Nat} {f : Device → Device} {g : Rx → Rx} (halive : (s.elapse dt).dev.alive = true)
    (hf : f (s.elapse dt).dev = (s.elapse dt).dev.modRx g) :
    Answers (coreRow dt f s) (fun u => u.dev.rx = g (s.elapse dt).dev.rx ∧ (s.elapse dt).dev.OnlyIn (.rx :: reports) u.dev) :=
  (coreRow_ends halive hf (((s.elapse dt).dev.modRx_onlyIn g).mono (by decide)) (by decide)).imp
    fun _ ⟨hkeeps, honly⟩ => ⟨hkeeps.rx, honly⟩

/-! A pulse at a channel's detector (R120, R130). -/

/-- What a channel has seen in the present shot. -/
def Device.chShot (d : Device) (ch : Nat) : ChShot := (mget ch d.rx.shot).getD {}

def Device.putChShot (d : Device) (ch : Nat) (sh : ChShot) : Device := d.modRx (fun r => { r with shot := mset ch sh r.shot })

@[simp] theorem Device.putChShot_shot (d : Device) (ch : Nat) (sh : ChShot) : mget ch (d.putChShot ch sh).rx.shot = some sh :=
  (mget_mset _ _ _ _).trans (if_pos rfl)

/-- A pulse with which an open channel of a firing slot makes an event (R120). -/
structure Device.Detects (d : Device) (ch t : Nat) (ages : List Nat) (g : Group) (c : ChState) : Prop where
  group : d.fire.grp = some g
  channel : mget ch d.rx.chans = some c
  firing : (vget g.slots (ch / 256) {}).firing = true
  isOpen : 0 < c.kEff
  enough : c.kEff ≤ (ages.filter (fun a => a ≤ 8 * coWin g.coinc)).length + 1
  heard : (d.chShot ch).silent ≤ t

/-- The channel once the detector has emitted an event at `t`: silent for tau. -/
def Device.silenced (d : Device) (ch t : Nat) (g : Group) : ChShot := { d.chShot ch with silent := t + 8 * coWin g.coinc }

/-- The channel once the TDC has timed that event: dead for 15.625 ns (R130). -/
def Device.timed (d : Device) (ch t : Nat) (g : Group) : ChShot := { d.silenced ch t g with dead := t + 500 }

theorem Device.photon_undetected {d : Device} {ch t : Nat} {ages : List Nat} {g : Group} {c : ChState} (hg : d.fire.grp = some g)
    (hc : mget ch d.rx.chans = some c)
    (h : (vget g.slots (ch / 256) {}).firing = false ∨ c.kEff = 0 ∨
      (ages.filter (fun a => a ≤ 8 * coWin g.coinc)).length + 1 < c.kEff ∨ t < (d.chShot ch).silent ∨ c.tdc = none) :
    d.photon ch t ages = d := by
  unfold Device.photon
  rw [hg, hc]
  dsimp only
  split
  · rfl
  · next hdetects =>
    rcases h with h | h | h | h | htdc
    case inr.inr.inr.inr => rw [htdc]
    all_goals exact absurd (by simp [h, show (mget ch d.rx.shot).getD {} = d.chShot ch from rfl]) hdetects

section
variable {d : Device} {ch t : Nat} {ages : List Nat} {g : Group} {c : ChState}

/-- An event of the detector silences it, and goes to the TDC unless that is dead (R130). -/
theorem Device.Detects.photon {tdc : Nat} (h : d.Detects ch t ages g c) (htdc : c.tdc = some tdc) : d.photon ch t ages =
    if t < (d.chShot ch).dead then d.putChShot ch (d.silenced ch t g)
    else d.accepted g (vget g.slots (ch / 256) {}) ch (d.rx.tapTime tdc t) (d.timed ch t g) := by
  obtain ⟨hg, hc, hfiring, hopen, henough, hheard⟩ := h
  have hdetects : (!(vget g.slots (ch / 256) {}).firing || decide (c.kEff = 0) ||
      decide ((ages.filter (fun a => a ≤ 8 * coWin g.coinc)).length + 1 < c.kEff) || decide (t < (d.chShot ch).silent)) = false := by
    simp only [hfiring, Nat.ne_of_gt hopen, Nat.not_lt.mpr henough, Nat.not_lt.mpr hheard, Bool.not_true, decide_false, Bool.or_false]
  unfold Device.photon
  rw [hg, hc]
  dsimp only
  rw [show (mget ch d.rx.shot).getD {} = d.chShot ch from rfl, hdetects, if_neg Bool.false_ne_true, htdc]
  rfl

end

/-! An event the TDC accepts (R132, R133). -/

section
variable {d : Device} {g : Group} {x : SlotRun} {ch t : Nat} {sh : ChShot}

/-- The record of a channel with one more event in the guard window of a shot of this parity (R132). -/
def SideRec.addGuard (r : SideRec) (parity : Bool) : SideRec :=
  if parity then { r with guardB := r.guardB + 1 } else { r with guardA := r.guardA + 1 }

theorem Device.accepted_guard (ht : t < 4096) (hroom : sh.guard < 8) : d.accepted g x ch t sh =
    (d.putChShot ch { sh with guard := sh.guard + 1 }).modHist (fun h => h.modRec g.pair ch (fun r => r.addGuard d.fire.parity)) := by
  unfold Device.accepted
  rw [if_pos ht, if_neg (Nat.not_le.mpr hroom)]
  rfl

theorem Device.accepted_guardFull (ht : t < 4096) (hfull : 8 ≤ sh.guard) : d.accepted g x ch t sh = d.putChShot ch sh := by
  unfold Device.accepted
  rw [if_pos ht, if_pos hfull]
  rfl

theorem Device.accepted_lost (ht : 4096 ≤ t) (hlost : t < x.e ∨ x.e + windowNs (pcFbin g.planecfg) * 32 ≤ t ∨ 8 ≤ sh.range) :
    d.accepted g x ch t sh = d.putChShot ch sh := by
  unfold Device.accepted
  rw [if_neg (Nat.not_lt.mpr ht), if_pos (by simpa only [Bool.or_eq_true, decide_eq_true_iff, or_assoc] using hlost)]
  rfl

theorem Device.tap_onlyIn (d : Device) (g : Group) (ch : Nat) (w : Word) : d.OnlyIn [.ret] (d.tap g ch w) := by
  intro p hp
  unfold Device.tap
  (repeat' split) <;> cases p <;> first | rfl | exact absurd (by decide) hp

/-- A channel that has had its eighth range event of a shot is noted as capped (R133). -/
def Device.noteCap (d : Device) (ch range : Nat) : Device :=
  if range = 7 then
    d.modRx (fun r => { r with chans := match mget ch r.chans with
      | some c => mset ch { c with capped := c.capped + 1 } r.chans
      | none => r.chans })
  else d

theorem Device.noteCap_onlyIn (d : Device) (ch range : Nat) : d.OnlyIn [.rx] (d.noteCap ch range) := by
  unfold Device.noteCap
  split
  · exact d.modRx_onlyIn _
  · exact .refl _ d

@[simp] theorem Device.noteCap_shot (d : Device) (ch range : Nat) : (d.noteCap ch range).rx.shot = d.rx.shot := by
  unfold Device.noteCap
  split <;> rfl

/-- A channel's word queued for accumulation, and counted in its record. -/
def Hist.addEvent (h : Hist) (pair : Bool) (ch : Nat) (w : Word) : Hist :=
  { (h.modRec pair ch (fun r => { r with events := r.events + 1 })) with x2 := mset ch (((mget ch h.x2).getD []) ++ [w]) h.x2 }

@[simp] theorem Hist.addEvent_x2 (h : Hist) (pair : Bool) (ch : Nat) (w : Word) :
    mget ch (h.addEvent pair ch w).x2 = some (((mget ch h.x2).getD []) ++ [w]) :=
  (mget_mset _ _ _ _).trans (if_pos rfl)

theorem Device.accepted_range (ht : 4096 ≤ t) (hafter : x.e ≤ t) (hwithin : t < x.e + windowNs (pcFbin g.planecfg) * 32)
    (hroom : sh.range < 8) : d.accepted g x ch t sh =
      (((d.putChShot ch { sh with range := sh.range + 1 }).noteCap ch sh.range).modHist
        (fun h => h.addEvent g.pair ch (eventWord g.pair d.fire.parity x.witMiss sh.range (t - x.e)))).tap g ch
          (eventWord g.pair d.fire.parity x.witMiss sh.range (t - x.e)) := by
  have hrange : (decide (t < x.e) || decide (x.e + windowNs (pcFbin g.planecfg) * 32 ≤ t) || decide (8 ≤ sh.range)) = false := by
    simp only [Nat.not_lt.mpr hafter, Nat.not_le.mpr hwithin, Nat.not_le.mpr hroom, decide_false, Bool.or_false]
  unfold Device.accepted
  rw [if_neg (Nat.not_lt.mpr ht), hrange, if_neg Bool.false_ne_true]
  rfl

theorem Device.accepted_range_onlyIn (ht : 4096 ≤ t) (hafter : x.e ≤ t) (hwithin : t < x.e + windowNs (pcFbin g.planecfg) * 32)
    (hroom : sh.range < 8) : d.OnlyIn [.rx, .hist, .ret] (d.accepted g x ch t sh) := by
  rw [Device.accepted_range ht hafter hwithin hroom]
  exact ((((d.modRx_onlyIn _).trans (Device.noteCap_onlyIn _ _ _)).mono (by decide)).trans
    ((Device.modHist_onlyIn _ _).mono (by decide))).trans ((Device.tap_onlyIn _ _ _ _).mono (by decide))

theorem Device.accepted_range_shot (ht : 4096 ≤ t) (hafter : x.e ≤ t) (hwithin : t < x.e + windowNs (pcFbin g.planecfg) * 32)
    (hroom : sh.range < 8) : mget ch (d.accepted g x ch t sh).rx.shot = some { sh with range := sh.range + 1 } := by
  rw [Device.accepted_range ht hafter hwithin hroom, Device.tap_onlyIn _ g ch _ .rx (by decide)]
  simp only [Device.modHist_parts, Device.noteCap_shot, Device.putChShot_shot]

theorem Device.accepted_range_word (ht : 4096 ≤ t) (hafter : x.e ≤ t) (hwithin : t < x.e + windowNs (pcFbin g.planecfg) * 32)
    (hroom : sh.range < 8) : mget ch (d.accepted g x ch t sh).hist.x2 =
      some (((mget ch d.hist.x2).getD []) ++ [eventWord g.pair d.fire.parity x.witMiss sh.range (t - x.e)]) := by
  rw [Device.accepted_range ht hafter hwithin hroom, Device.tap_onlyIn _ g ch _ .hist (by decide)]
  simp only [Device.modHist_parts, Hist.addEvent_x2]
  rw [Device.noteCap_onlyIn _ ch _ .hist (by decide)]
  rfl

end

/-- A row that leaves of its channel's shot what `sh` says. -/
theorem coreRow_putChShot {s : State} {dt ch : Nat} {f : Device → Device} {sh : ChShot} (halive : (s.elapse dt).dev.alive = true)
    (hf : f (s.elapse dt).dev = (s.elapse dt).dev.putChShot ch sh) :
    Answers (coreRow dt f s) (fun u => mget ch u.dev.rx.shot = some sh ∧ (s.elapse dt).dev.OnlyIn (.rx :: reports) u.dev) :=
  (coreRow_modRx halive hf).imp fun _ ⟨hrx, honly⟩ => ⟨by rw [hrx]; exact Device.putChShot_shot _ _ _, honly⟩

/-- Settles O21: a pulse is not detected, falls on a dead TDC, or is timed; one that is timed falls in the guard window, is lost, or falls
in the range window. -/
theorem photonEvents : Obligations.PhotonEvents := by
  unfold Obligations.PhotonEvents
  intro s dt t ages ch g c halive d hg hc x sh win pulses
  dsimp only [exec]
  refine ⟨fun hidle => coreRow_idles dt _ s (Device.photon_undetected hg hc hidle), fun hfiring hopen henough hheard htdc hdead => ?dead,
    fun tdc hfiring hopen henough hheard htdc halert => ?timed⟩
  case dead =>
    obtain ⟨tdc, htdc⟩ := Option.ne_none_iff_exists'.mp htdc
    have hdetects : d.Detects ch.val t ages g c := ⟨hg, hc, hfiring, hopen, henough, hheard⟩
    exact coreRow_putChShot halive ((hdetects.photon htdc).trans (if_pos hdead))
  case timed =>
    have hdetects : d.Detects ch.val t ages g c := ⟨hg, hc, hfiring, hopen, henough, hheard⟩
    have hphoton := (hdetects.photon htdc).trans (if_neg (Nat.not_lt.mpr halert))
    refine ⟨fun hguard hmost => ?guard, fun hlate hlost => ?lost, fun hlate hafter hwithin hroom => ?range⟩
    case guard =>
      rcases Nat.lt_or_eq_of_le hmost with hroom | hfull
      · refine (coreRow_ends halive (hphoton.trans (Device.accepted_guard hguard hroom)) (ps := .rx :: .hist :: reports) ?_
          (by decide)).imp fun u ⟨hkeeps, honly⟩ => ?_
        · exact ((d.modRx_onlyIn _).mono (by decide)).trans ((Device.modHist_onlyIn _ _).mono (by decide))
        · rw [hkeeps.rx, hkeeps.hist, if_neg (Nat.ne_of_lt hroom), Nat.min_eq_right hroom]
          exact ⟨Device.putChShot_shot _ _ _, rfl, honly⟩
      · refine (coreRow_ends halive (hphoton.trans (Device.accepted_guardFull hguard (Nat.le_of_eq hfull.symm)))
          (ps := .rx :: .hist :: reports) ((d.modRx_onlyIn _).mono (by decide)) (by decide)).imp fun u ⟨hkeeps, honly⟩ => ?_
        have hkept : min 8 (sh.guard + 1) = sh.guard := by omega
        rw [hkeeps.rx, hkeeps.hist, if_pos hfull, hkept]
        exact ⟨Device.putChShot_shot _ _ _, rfl, honly⟩
    case lost => exact coreRow_putChShot halive (hphoton.trans (Device.accepted_lost hlate hlost))
    case range =>
      have hfree : (d.timed ch.val t g).range < 8 := hroom
      have honly := Device.accepted_range_onlyIn (d := d) (ch := ch.val) hlate hafter hwithin hfree
      refine (coreRow_ends halive hphoton (ps := .rx :: .hist :: .ret :: reports) (honly.mono (by decide)) (by decide)).imp
        fun u ⟨hkeeps, honly⟩ => ?_
      rw [hkeeps.rx, hkeeps.hist]
      exact ⟨Device.accepted_range_shot hlate hafter hwithin hfree, Device.accepted_range_word hlate hafter hwithin hfree, honly⟩

end Sys2Proof.Machine
end

section
/-! The receiver's upkeep: breakdown measurement (R109), hold-off (R110), survey (R123-R125), linearisation (R131) and lamp witnesses
(R127, R128). -/

namespace Sys2Proof.Machine

open Sys2Proof

/-! Breakdown measurement and hold-off. -/

/-- A row of the firmware leaves its effect's device but for what the end of a step writes. -/
theorem fwRow_ends {ps : List Part} {dt : Nat} {s : State} {f : Device → Device} {x : Device} (halive : (s.elapse dt).dev.alive = true)
    (hready : s.dev.ready = true) (hf : f (s.elapse dt).dev = x) (honly : (s.elapse dt).dev.OnlyIn ps x) (hreports : reports ⊆ ps) :
    Answers (fwRow dt f s) (fun u => x.Keeps u.dev ∧ (s.elapse dt).dev.OnlyIn ps u.dev) :=
  ⟨_, fwRow_runs halive hready hf, State.settle_keeps { s.elapse dt with dev := x } s.dev,
    State.settle_devRow (s.elapse dt) s.dev honly hreports⟩

/-- A write of MRAM to the receiver is made unless shutdown-imminent is asserted (R400). -/
theorem Device.mram_modRx_rx (d : Device) (general : Bool) (f : Rx → Rx) :
    (d.mram general (fun d => d.modRx f)).rx = if d.power.shut = none then f d.rx else d.rx := by
  cases hshut : d.power.shut with
  | none =>
    rw [Device.mram_open hshut, if_pos rfl]
    cases general
    · exact congrArg f (d.serve_onlyIn [7] .rx (by decide))
    · exact congrArg f (d.serveOrWait_onlyIn [7] .rx (by decide))
  | some x => rw [Device.mram_shut (by rw [hshut]; rfl), if_neg (by simp)]

theorem Device.mram_modRx_onlyIn (d : Device) (general : Bool) (f : Rx → Rx) :
    d.OnlyIn [.rx, .bist, .wcp, .qs] (d.mram general (fun d => d.modRx f)) := by
  unfold Device.mram
  split
  · exact .refl _ d
  · refine Device.OnlyIn.trans ?_ ((Device.modRx_onlyIn _ f).mono (by decide))
    cases general
    · exact (d.serve_onlyIn [7]).mono (by decide)
    · exact (d.serveOrWait_onlyIn [7]).mono (by decide)

theorem Device.dirtyGroup_onlyIn (d : Device) : d.OnlyIn [.fire] d.dirtyGroup := by
  intro p hp
  cases p <;> first | rfl | exact absurd (by decide) hp

/-- The coefficients a measurement that ends at step `k` writes: the bias found there, referred to 25 degC (R109). -/
def Device.vbdFound (d : Device) (est : Int) (k : Nat) (r : Rx) : Rx :=
  r.setVbd (est - 1000 + 25 * (k : Int) - tcTerm (fld d.rx.vbdNow 63 32) d.ts).toNat (fld d.rx.vbdNow 63 32)

section
variable {d : Device} {cs : List Nat} {since k : Nat} {est : Int}

theorem Device.vbdDone_measured (hrun : d.rx.vbdRun = some (since, est)) (hk : vbdStep cs = some k)
    (hdue : since + (k + 1) * (100 * us) ≤ d.now) : d.vbdDone cs =
      (((d.modRx (fun r => { r with vbdRun := none })).mram true (fun x => x.modRx (d.vbdFound est k))).dirtyGroup).complete
        .vbdMeasure sOk Bytes.nil := by
  unfold Device.vbdDone
  rw [hrun, hk]
  exact if_neg (Nat.not_lt.mpr hdue)

theorem Device.vbdDone_rx (hrun : d.rx.vbdRun = some (since, est)) (hk : vbdStep cs = some k)
    (hdue : since + (k + 1) * (100 * us) ≤ d.now) :
    (d.vbdDone cs).rx = { (if d.power.shut = none then d.vbdFound est k d.rx else d.rx) with vbdRun := none } := by
  rw [Device.vbdDone_measured hrun hk hdue, (Device.complete_keeps _ _ _ _).rx]
  refine (Device.mram_modRx_rx _ _ _).trans ?_
  by_cases hshut : d.power.shut = none
  · rw [if_pos hshut]
    exact if_pos hshut
  · rw [if_neg hshut]
    exact if_neg hshut

theorem Device.vbdDone_onlyIn (hrun : d.rx.vbdRun = some (since, est)) (hk : vbdStep cs = some k)
    (hdue : since + (k + 1) * (100 * us) ≤ d.now) : d.OnlyIn (.rx :: .fire :: .ring :: .bist :: reports) (d.vbdDone cs) := by
  rw [Device.vbdDone_measured hrun hk hdue]
  have hrx := (d.modRx_onlyIn (fun r => { r with vbdRun := none })).mono (qs := .rx :: .fire :: .ring :: .bist :: reports) (by decide)
  have hmram := hrx.trans ((Device.mram_modRx_onlyIn _ true (d.vbdFound est k)).mono (by decide))
  exact (hmram.trans ((Device.dirtyGroup_onlyIn _).mono (by decide))).trans ((Device.complete_keeps _ _ _ _).onlyIn.mono (by decide))

end

theorem Device.holdoffTimer_due {d : Device} {t : Nat} (hcross : d.rx.crossSince = some t) (hdue : t + second ≤ d.now) :
    d.holdoffTimer = d.modRx (fun r => { r with switchDue := true }) := by
  unfold Device.holdoffTimer
  rw [hcross]
  exact if_pos hdue

/-! Survey passes. -/

/-- The pass that starts now (R123, R124): of up to 32 queued channels in the gap's first four passes, else of the next 1,024 SPADs. -/
def Device.nextPass (d : Device) : SurveyRun :=
  if d.rx.targets ≠ [] ∧ d.rx.gapPasses < 4 then
    ⟨(d.rx.targets.take 32).map (fun p => p.1), ((d.rx.targets.take 32).flatMap (fun p => p.2)).eraseDups, d.now⟩
  else ⟨[], (List.range 1024).map (1024 * d.rx.surveyPos + ·), d.now⟩

theorem Device.surveyStart_barred {d : Device} (h : d.timingSlice = true) : d.surveyStart = d := by
  unfold Device.surveyStart
  rw [if_pos (by simp [h])]

theorem Device.surveyStart_runs {d : Device} (hnone : d.rx.survey = none) (hslice : d.timingSlice = false)
    (hleft : d.rx.gapPasses < d.surveyPasses) (hroom : d.gapRoom (12 * us) = true) :
    d.surveyStart = d.modRx (fun r => { r with survey := some d.nextPass }) := by
  unfold Device.surveyStart Device.nextPass
  rw [if_neg (by simp [hnone, hslice, Nat.not_le.mpr hleft, hroom])]
  by_cases htargets : d.rx.targets ≠ [] ∧ d.rx.gapPasses < 4
  · rw [if_pos htargets, if_pos (by simpa using htargets)]
  · rw [if_neg htargets, if_neg (by simpa using htargets), Device.modRx, Device.modRx]

theorem Device.nextPass_startedAt (d : Device) : d.nextPass.startedAt = d.now := by
  unfold Device.nextPass
  split <;> rfl

theorem Device.nextPass_targets (d : Device) : d.nextPass.targets =
    if d.rx.targets ≠ [] ∧ d.rx.gapPasses < 4 then (d.rx.targets.take 32).map (fun p => p.1) else [] := by
  unfold Device.nextPass
  split <;> rfl

/-- A pass without targets is a rolling one. -/
theorem Device.nextPass_rolling {d : Device} (h : d.nextPass.targets = []) :
    d.nextPass.spads = (List.range 1024).map (1024 * d.rx.surveyPos + ·) := by
  rw [Device.nextPass_targets] at h
  have hrolling : ¬(d.rx.targets ≠ [] ∧ d.rx.gapPasses < 4) := fun htargets => by
    rw [if_pos htargets] at h
    exact htargets.1 (by simpa using h)
  unfold Device.nextPass
  rw [if_neg hrolling]

/-- Two receivers that differ at most in the survey's counts and in what the next frame is to disable. -/
def Rx.SameButCounts (r r' : Rx) : Prop :=
  ∃ counts dynNext dynFresh, r' = { r with counts := counts, dynNext := dynNext, dynFresh := dynFresh }

theorem Rx.surveyCount_same (r : Rx) (i n : Nat) : r.SameButCounts (r.surveyCount i n) := by
  unfold Rx.surveyCount
  split
  · exact ⟨_, _, _, rfl⟩
  · exact ⟨_, _, _, rfl⟩

theorem Rx.surveyCounts_same (l : List (Nat × Nat)) (r : Rx) : r.SameButCounts (l.foldl (fun r p => r.surveyCount p.1 p.2) r) := by
  induction l generalizing r with
  | nil => exact ⟨_, _, _, rfl⟩
  | cons p l ih =>
    obtain ⟨_, _, _, hcount⟩ := r.surveyCount_same p.1 p.2
    obtain ⟨c, n, f, hrest⟩ := ih (r.surveyCount p.1 p.2)
    exact ⟨c, n, f, by rw [List.foldl_cons, hrest, hcount]⟩

/-- The receiver once a pass has ended, its counts taken and the pass counted (R125). -/
def Rx.passEnded (r : Rx) (run : SurveyRun) (cs : List Nat) : Rx :=
  let r := (run.spads.zip cs).foldl (fun r p => r.surveyCount p.1 p.2) r
  { r with
    survey := none, gapPasses := r.gapPasses + 1
    passCounts := if run.targets.isEmpty then (run.spads.zip cs).foldl (fun m p => sset m p.1 p.2) r.passCounts else r.passCounts
    targets := r.targets.filter (fun p => !run.targets.contains p.1)
    surveyPos := if run.targets.isEmpty then (r.surveyPos + 1) % 288 else r.surveyPos }

theorem Device.surveyDone_due {d : Device} {run : SurveyRun} {cs : List Nat} (hrun : d.rx.survey = some run)
    (hdue : run.startedAt + 12 * us ≤ d.now) : d.surveyDone cs = d.modRx (fun r => r.passEnded run cs) := by
  unfold Device.surveyDone
  rw [hrun]
  exact if_neg (Nat.not_lt.mpr hdue)

theorem Device.surveyDone_early {d : Device} {run : SurveyRun} {cs : List Nat} (hrun : d.rx.survey = some run)
    (hearly : d.now < run.startedAt + 12 * us) : d.surveyDone cs = d := by
  unfold Device.surveyDone
  rw [hrun]
  exact if_pos hearly

/-- A pass that has ended is counted, moves a rolling survey on, and disables nothing yet. -/
theorem Rx.passEnded_spec (r : Rx) (run : SurveyRun) (cs : List Nat) :
    (r.passEnded run cs).survey = none ∧ (r.passEnded run cs).gapPasses = r.gapPasses + 1 ∧ (r.passEnded run cs).dyn = r.dyn ∧
    (r.passEnded run cs).mask = r.mask ∧
    (r.passEnded run cs).surveyPos = if run.targets = [] then (r.surveyPos + 1) % 288 else r.surveyPos := by
  obtain ⟨_, _, _, hcounts⟩ := Rx.surveyCounts_same (run.spads.zip cs) r
  unfold Rx.passEnded
  simp only [hcounts, List.isEmpty_iff, and_self]

/-! Linearisation. -/

theorem Device.linUpdate_due {d : Device} {tdc : Nat} {cs : List Nat} (hon : d.fire.fn.st = .on)
    (hdue : (mget tdc d.rx.linAt).getD 0 + 10 * second ≤ d.rx.onTime d.now) (hlen : cs.length = 64) (hsum : 65536 ≤ cs.sum) :
    d.linUpdate tdc cs = d.modRx (fun r => { r with
      linNext := mset tdc (tapTable cs) r.linNext, linAt := mset tdc (d.rx.onTime d.now) r.linAt }) := by
  unfold Device.linUpdate
  dsimp only
  rw [if_pos (by simp [hon, hdue, hlen, hsum])]

/-! Lamp witnesses. -/

/-- The flags of the numbers below `n`, as a number. -/
def flagBits (n : Nat) (v : Nat → Bool) : Nat := fields ((List.range n).map (fun m => (m, (v m).toNat)))

theorem flagBits_succ (n : Nat) (v : Nat → Bool) : flagBits (n + 1) v = 2 ^ n * (v n).toNat + flagBits n v := by
  simp only [flagBits, fields, List.range_succ, List.map_append, List.map_cons, List.map_nil, List.foldl_append, List.foldl_cons,
    List.foldl_nil]
  ring

theorem flagBits_lt (n : Nat) (v : Nat → Bool) : flagBits n v < 2 ^ n := by
  induction n with
  | zero => exact Nat.one_pos
  | succ n ih =>
    rw [flagBits_succ, Nat.pow_succ]
    cases v n <;> simp only [Bool.toNat_false, Bool.toNat_true] <;> omega

theorem testBit_flagBits {n m : Nat} (v : Nat → Bool) (hm : m < n) : (flagBits n v).testBit m = v m := by
  induction n with
  | zero => exact absurd hm (Nat.not_lt_zero m)
  | succ n ih =>
    rw [flagBits_succ, Nat.testBit_two_pow_mul_add _ (flagBits_lt n v)]
    rcases Nat.lt_succ_iff_lt_or_eq.mp hm with hlt | rfl
    · rw [if_pos hlt, ih hlt]
    · rw [if_neg (Nat.lt_irrefl m), Nat.sub_self]
      cases v m <;> rfl

/-- A block of flags holds each of them. -/
theorem bit_ofNat_flagBits {n m : Nat} (v : Nat → Bool) (hm : m < n) : bit (BitVec.ofNat n (flagBits n v)) m = v m := by
  rw [bit_eq_getLsbD, BitVec.getLsbD_ofNat, testBit_flagBits v hm, decide_eq_true hm, Bool.true_and]

theorem Device.witnessInterval_due {d : Device} {ws : List (List (Nat × Nat))} (hdue : d.rx.witStart + 100 * us ≤ d.time.ns.toNat) :
    d.witnessInterval ws =
      d.modRx (fun r => r.witnessEnd d.bist.witTested (fun i => d.unusable 0 i) d.now d.time.ns.toNat ws) := by
  unfold Device.witnessInterval
  dsimp only
  rw [if_neg (by omega), if_neg (by omega)]

theorem Device.witnessInterval_early {d : Device} {ws : List (List (Nat × Nat))} (hbegun : d.rx.witStart ≤ d.time.ns.toNat)
    (hearly : d.time.ns.toNat < d.rx.witStart + 100 * us) : d.witnessInterval ws = d := by
  unfold Device.witnessInterval
  dsimp only
  rw [if_neg (by omega), if_pos hearly]

section
variable (r : Rx) (tested : BitVec 4) (unusable : Nat → Bool) (now ns : Nat) (ws : List (List (Nat × Nat)))

theorem Rx.witnessEnd_count (m : Fin 4) : (r.witnessEnd tested unusable now ns ws).witCount[m] =
    r.lampCount m.val (32 * (now - (ns - r.witStart))) (ws.getD m.val []) := by
  match m with
  | 0 | 1 | 2 | 3 => rfl

/-- A count is valid for an enabled, usable witness that nothing has disturbed, below saturation (R128). -/
theorem Rx.witnessEnd_valid {m : Fin 4} (h : bit (r.witnessEnd tested unusable now ns ws).witValid m.val = true) :
    bit r.wit (8 + m.val) = true ∧ bit r.witDisturbed m.val = false ∧
    (r.witnessEnd tested unusable now ns ws).witCount[m] < 0xFFFF ∧ unusable (1028 + m.val) = false := by
  have hvalid := (bit_ofNat_flagBits (fun m => bit r.wit (8 + m) && !bit (r.witDisturbed ||| tested ||| r.witSpares) m &&
    decide (r.lampCount m (32 * (now - (ns - r.witStart))) (ws.getD m []) < 0xFFFF) && !unusable (1028 + m)) m.isLt).symm.trans h
  simp only [Bool.and_eq_true, Bool.not_eq_true', decide_eq_true_eq] at hvalid
  obtain ⟨⟨⟨hon, hclear⟩, hbelow⟩, husable⟩ := hvalid
  simp only [bit_eq_getLsbD, BitVec.getLsbD_or, Bool.or_eq_false_iff] at hclear
  exact ⟨hon, (bit_eq_getLsbD _ _).trans hclear.1.1, by rwa [Rx.witnessEnd_count], husable⟩

end

/-- Settles O22: each row under its guards is one change of the receiver, which the end of the step keeps. -/
theorem receiverUpkeep : Obligations.ReceiverUpkeep := by
  unfold Obligations.ReceiverUpkeep
  intro s dt since k est cs tdc w4 w5 w6 w7 halive d r
  dsimp only [exec]
  refine ⟨fun hrun hk hdue hready => ?measured, fun t hcross hdue => coreRow_modRx halive (Device.holdoffTimer_due hcross hdue),
    fun _ hslice => coreRow_idles dt _ s (Device.surveyStart_barred hslice), fun hnone hslice hleft hroom => ?passStarts,
    fun run hrun hdue => ?passEnds, fun run hrun hearly => coreRow_idles dt _ s (Device.surveyDone_early hrun hearly),
    fun hon hdue hlen hsum => ?linearised, fun hdue => ?witnessed,
    fun hbegun hearly => coreRow_idles dt _ s (Device.witnessInterval_early hbegun hearly)⟩
  case measured =>
    refine (fwRow_ends halive hready rfl (Device.vbdDone_onlyIn hrun hk hdue) (by decide)).imp fun u ⟨hkeeps, honly⟩ => ?_
    exact ⟨hkeeps.rx.trans (Device.vbdDone_rx hrun hk hdue), honly⟩
  case passStarts =>
    refine (coreRow_modRx halive (Device.surveyStart_runs hnone hslice hleft hroom)).imp fun u ⟨hrx, honly⟩ => ?_
    rw [hrx]
    exact ⟨honly, rfl, rfl, rfl, d.nextPass, rfl, d.nextPass_startedAt, d.nextPass_targets, Device.nextPass_rolling⟩
  case passEnds =>
    refine (coreRow_modRx halive (Device.surveyDone_due hrun hdue)).imp fun u ⟨hrx, honly⟩ => ?_
    rw [hrx]
    exact ⟨honly, r.passEnded_spec run cs⟩
  case linearised =>
    refine (coreRow_modRx halive (Device.linUpdate_due hon hdue hlen hsum)).imp fun u ⟨hrx, honly⟩ => ?_
    rw [hrx]
    exact ⟨(mget_mset _ _ _ _).trans (if_pos rfl), rfl, honly⟩
  case witnessed =>
    refine (coreRow_modRx halive (Device.witnessInterval_due hdue)).imp fun u ⟨hrx, honly⟩ => ?_
    rw [hrx]
    exact ⟨rfl, fun hnext => if_pos hnext, honly, fun m => ⟨Rx.witnessEnd_count .., Rx.witnessEnd_valid _ _ _ _ _ _⟩⟩

end Sys2Proof.Machine
end

section
/-! Event words counted into the pairs (R140, R143). -/

namespace Sys2Proof.Machine

open Sys2Proof

/-! Rows of the histogram store. -/

/-- A row that changes the histogram store alone. -/
theorem coreRow_modHist {s : State} {dt : Nat} {f : Device → Device} {g : Hist → Hist} (halive : (s.elapse dt).dev.alive = true)
    (hf : f (s.elapse dt).dev = (s.elapse dt).dev.modHist g) :
    Answers (coreRow dt f s) (fun u => u.dev.hist = g (s.elapse dt).dev.hist ∧ (s.elapse dt).dev.OnlyIn (.hist :: reports) u.dev) :=
  (coreRow_ends halive hf (((s.elapse dt).dev.modHist_onlyIn g).mono (by decide)) (by decide)).imp
    fun _ ⟨hkeeps, honly⟩ => ⟨hkeeps.hist, honly⟩

/-- A row's effect but for what the end of a step may still change. -/
theorem coreRow_rests {dt : Nat} {s : State} {f : Device → Device} {x : Device} (halive : (s.elapse dt).dev.alive = true)
    (hf : f (s.elapse dt).dev = x) : Answers (coreRow dt f s) (fun u => x.Rests u.dev) :=
  ⟨_, coreRow_runs halive hf, State.settle_rests { s.elapse dt with dev := x } s.dev⟩

/-! The word that leaves its queue. -/

/-- A channel's X2 queue left with the words `rest`. -/
def Hist.leaveWords (h : Hist) (ch : Nat) (rest : List Word) : Hist :=
  { h with x2 := if rest.isEmpty then mdel ch h.x2 else mset ch rest h.x2 }

theorem Hist.leaveWords_same {h : Hist} (hkeys : keysAbove none h.x2) (ch : Nat) (rest : List Word) :
    mget ch (h.leaveWords ch rest).x2 = if rest = [] then none else some rest := by
  cases rest with
  | nil => exact (mget_mdel _ _ _ hkeys).trans (if_pos rfl)
  | cons w rest => exact (mget_mset _ _ _ _).trans (if_pos rfl)

theorem Hist.leaveWords_other (h : Hist) {ch c : Nat} (hne : ch ≠ c) (rest : List Word) :
    mget c (h.leaveWords ch rest).x2 = mget c h.x2 := by
  cases rest with
  | nil => exact mget_mdel_other _ _ _ hne
  | cons w rest => exact (mget_mset _ _ _ _).trans (if_neg hne)

theorem Hist.takeWord_empty {h : Hist} {ch : Nat} (hnone : (mget ch h.x2).getD [] = []) : h.takeWord ch = h := by
  unfold Hist.takeWord
  rw [hnone]

theorem Hist.takeWord_oldest {h : Hist} {ch : Nat} {w : Word} {rest : List Word} (hw : mget ch h.x2 = some (w :: rest)) :
    h.takeWord ch = (h.leaveWords ch rest).accumulate ch w := by
  unfold Hist.takeWord
  rw [hw]
  rfl

/-! The word counted. -/

section
variable {h : Hist} {w : Word} {g : Group}

/-- A word counts into the bins of its pair, or as late. -/
theorem Hist.accumulate_writes (h : Hist) (ch : Nat) (w : Word) : ∃ bins late, h.accumulate ch w = { h with bins := bins, late := late } := by
  unfold Hist.accumulate
  dsimp only
  split
  · exact ⟨_, h.late, rfl⟩
  · exact ⟨h.bins, _, rfl⟩

/-- A word whose pair accumulates no longer is late (R143). -/
theorem Hist.accumulate_late (ch : Nat) (hpair : vget h.pairs (bit w 31).toNat .free ≠ .accumulating) :
    h.accumulate ch w = { h with late := h.late + 1 } := by
  unfold Hist.accumulate
  dsimp only
  split
  · next hacc _ => exact absurd hacc hpair
  · rfl

/-- Without ZOOM a word counts in one bin: that of its time, on the plane of its pair and sub-histogram (R137, R140). -/
theorem Hist.accumulate_counts (ch : Nat) (hpair : vget h.pairs (bit w 31).toNat .free = .accumulating)
    (hgroup : vget h.groups (bit w 31).toNat none = some g) (hzoom : descZoom g.desc = false) :
    h.accumulate ch w = { h with
      bins := incBin h.bins (binKey (2 * (bit w 31).toNat + (bit w 30).toNat) ch (fld w 15 0 / 2 ^ binShift (pcFbin g.planecfg))) } := by
  unfold Hist.accumulate
  dsimp only
  rw [hpair, hgroup]
  dsimp only
  rw [hzoom]
  rfl

end

end Sys2Proof.Machine
end

section
/-! Pairs handed over (R143, R183). -/

namespace Sys2Proof.Machine

open Sys2Proof

/-! What a hand-over brings into force: the lanes and rate of now, and the tracked delays. -/

/-- A slice that gives way marks no unit. -/
theorem Device.serve_marks (d : Device) (rows : List Nat) : (d.serve rows).bist.marks = d.bist.marks := by
  unfold Device.serve Device.sliceAbort Device.sliceCut Device.bistIncomplete
  split
  · split
    · rfl
    · dsimp only
      split
      · rfl
      · simp only [Device.limited_parts, Device.modBist_parts]
        unfold Bist.restore
        split <;> rfl
  · rfl

theorem Device.lanesNow_congr {d x : Device} (h : x.bist.marks = d.bist.marks) : x.lanesNow = d.lanesNow := by
  unfold Device.lanesNow Device.unusable
  rw [h]

theorem Device.rateHandover_ret (d : Device) : d.rateHandover.ret = { d.ret with lanes := d.lanesNow, f10 := d.f10Now } := by
  unfold Device.rateHandover
  dsimp only
  split
  · next hsame =>
    obtain ⟨hlanes, hf10⟩ := hsame
    rw [hlanes, hf10]
  · rfl

theorem Device.modRet_onlyIn (d : Device) (f : Ret → Ret) : d.OnlyIn [.ret] (d.modRet f) := by
  intro p hp
  cases p <;> first | rfl | exact absurd (by decide) hp

theorem Device.modCal_onlyIn (d : Device) (f : Cal → Cal) : d.OnlyIn [.cal] (d.modCal f) := by
  intro p hp
  cases p <;> first | rfl | exact absurd (by decide) hp

theorem Device.rateHandover_onlyIn (d : Device) : d.OnlyIn (.ret :: reports) d.rateHandover := by
  unfold Device.rateHandover
  dsimp only
  split
  · exact .refl _ d
  · exact ((d.modRet_onlyIn _).mono (by decide)).trans ((Device.raise_onlyIn _ _ _ _).mono (by decide))

/-- The device at a group's hand-over: the return processor asked for, its rate of now in force, the group's delays tracked. -/
def Device.rated (d : Device) (g : Group) : Device := (d.serve [2, 3]).rateHandover.trackDelays g

theorem Device.trackDelays_onlyIn (d : Device) (g : Group) : d.OnlyIn [.cal] (d.trackDelays g) := d.modCal_onlyIn _

theorem Device.rated_onlyIn (d : Device) (g : Group) : d.OnlyIn (.ret :: .cal :: .bist :: reports) (d.rated g) :=
  (((d.serve_onlyIn [2, 3]).mono (by decide)).trans ((Device.rateHandover_onlyIn _).mono (by decide))).trans
    ((Device.trackDelays_onlyIn _ g).mono (by decide))

theorem Device.rated_bist (d : Device) (g : Group) : (d.rated g).bist = (d.serve [2, 3]).bist :=
  (d.serve [2, 3]).rateHandover_onlyIn .bist (by decide)

theorem Device.rated_lanes (d : Device) (g : Group) : (d.rated g).ret.lanes = d.lanesNow :=
  (congrArg Ret.lanes (d.serve [2, 3]).rateHandover_ret).trans (Device.lanesNow_congr (d.serve_marks [2, 3]))

/-! The pair. -/

/-- The group with the instant of its hand-over and the lanes from then on. -/
def Group.handedAt (g : Group) (clk lanes : Nat) : Group := { g with handClk := clk, lanes }

/-- Pair `p` handed over with its group. -/
def Hist.handPair (h : Hist) (p : Nat) (g : Group) : Hist :=
  { h with pairs := vset h.pairs p .handed, groups := vset h.groups p (some g), marked := vset h.marked p false }

theorem Hist.releasePair_frees (h : Hist) {p : Nat} (hp : p < 2) :
    vget (h.releasePair p).pairs p .handed = .free ∧ ∀ g, vget (h.releasePair p).groups p g = none :=
  ⟨vget_vset_same _ _ _ _ hp, fun _ => vget_vset_same _ _ _ _ hp⟩

theorem Device.notExported_keeps (d : Device) : d.Keeps d.notExported := by
  unfold Device.notExported
  split
  · exact .refl d
  · exact (d.countDrop_near _ _ _).keeps

theorem Device.emptyUnit_keeps (d : Device) (g : Group) : d.Keeps (d.emptyUnit g).1 := by
  unfold Device.emptyUnit
  split
  · exact .refl d
  · exact (d.putStream_near _ _ _ _ _ _ _ _).keeps

section
variable {d : Device} {p : Nat} {g : Group}

theorem Device.handover_none (h : d.hist.readyPair = none) : d.handover = d := by
  unfold Device.handover
  rw [h]

theorem Device.handover_hands (hready : d.hist.readyPair = some p) (hgroup : vget d.hist.groups p none = some g) (hlanes : d.lanesNow ≠ 0) :
    d.handover = (d.rated g).modHist (fun h => h.handPair p (g.handedAt (d.rated g).now (d.rated g).ret.lanes)) := by
  unfold Device.handover
  rw [hready]
  dsimp only
  rw [hgroup]
  dsimp only
  rw [if_neg (by simp [hlanes])]
  exact if_neg (by rw [← Device.rated, Device.rated_lanes]; exact hlanes)

/-- With no lane the empty unit stands for the group, whose pair is freed (R183). -/
theorem Device.handover_frees (hready : d.hist.readyPair = some p) (hgroup : vget d.hist.groups p none = some g) (hlanes : d.lanesNow = 0)
    (hgone : (d.emptyUnit g).2 ≠ .waits) : d.handover.hist = d.hist.releasePair p := by
  have hnone : (d.rated g).ret.lanes = 0 := (d.rated_lanes g).trans hlanes
  have hhist : (d.rated g).hist = d.hist := d.rated_onlyIn g .hist (by decide)
  unfold Device.handover
  rw [hready]
  dsimp only
  rw [hgroup]
  dsimp only
  rw [if_neg (by simp [hgone]), ← Device.rated, if_pos hnone, (Device.emptyUnit_keeps _ _).hist, ← hhist]
  split
  · exact congrArg (fun h => h.releasePair p) (d.rated g).notExported_keeps.hist
  · rfl

/-- With no lane and no room for the empty unit the pair stays (R255). -/
theorem Device.handover_waits (hready : d.hist.readyPair = some p) (hgroup : vget d.hist.groups p none = some g) (hlanes : d.lanesNow = 0)
    (hwaits : (d.emptyUnit g).2 = .waits) : d.handover = (d.emptyUnit g).1 := by
  unfold Device.handover
  rw [hready]
  dsimp only
  rw [hgroup]
  exact if_pos (by simp [hlanes, hwaits])

end

end Sys2Proof.Machine
end

section
/-! Pairs processed (R11, R144, R181), and the planes their groups fill (R152-R157). -/

namespace Sys2Proof.Machine

open Sys2Proof

/-! Export planes: filling and draining them leaves the pairs alone. -/

@[simp] theorem Hist.setPlane_pairs (h : Hist) (p : Nat) (x : XPlane) : (h.setPlane p x).pairs = h.pairs := by
  unfold Hist.setPlane
  split <;> rfl

@[simp] theorem Hist.nextDrain_pairs (h : Hist) : h.nextDrain.pairs = h.pairs := by
  unfold Hist.nextDrain
  split
  · rfl
  · dsimp only
    split
    · rfl
    · exact h.setPlane_pairs _ _

/-- Two devices with the same pairs, that differ in the store and in what filling its planes reports. -/
structure Device.FillsPlanes (d x : Device) : Prop where
  pairs : x.hist.pairs = d.hist.pairs
  only : d.OnlyIn (.hist :: .bist :: .ring :: reports) x

theorem Device.FillsPlanes.refl (d : Device) : d.FillsPlanes d := ⟨rfl, .refl _ d⟩

theorem Device.FillsPlanes.trans {a b c : Device} (h : a.FillsPlanes b) (k : b.FillsPlanes c) : a.FillsPlanes c :=
  ⟨k.pairs.trans h.pairs, h.only.trans k.only⟩

theorem Device.Keeps.fillsPlanes {d x : Device} (h : d.Keeps x) : d.FillsPlanes x :=
  ⟨congrArg Hist.pairs h.hist, h.onlyIn.mono (by decide)⟩

theorem Device.modHist_fillsPlanes {d : Device} {f : Hist → Hist} (h : (f d.hist).pairs = d.hist.pairs) : d.FillsPlanes (d.modHist f) :=
  ⟨h, (d.modHist_onlyIn f).mono (by decide)⟩

theorem Device.serveBank_onlyIn (d : Device) (b : Nat) (waits : Bool) : d.OnlyIn [.bist, .wcp, .qs] (d.serveBank b waits) := by
  unfold Device.serveBank
  split
  · exact d.sliceAbort_onlyIn waits
  · exact .refl _ d

theorem Device.serveBank_fillsPlanes (d : Device) (b : Nat) (waits : Bool) : d.FillsPlanes (d.serveBank b waits) :=
  ⟨congrArg Hist.pairs (d.serveBank_onlyIn b waits .hist (by decide)), (d.serveBank_onlyIn b waits).mono (by decide)⟩

/-- A unit abandoned: its plane is FREE and clear, and it is counted. -/
theorem Device.abandonUnit_hist (d : Device) (p reason : Nat) : (d.abandonUnit p reason).hist =
    { (Hist.setPlane { d.hist with bins := clearPlane d.hist.bins p } p {}) with abandoned := d.hist.abandoned + 1 } := by
  unfold Device.abandonUnit
  dsimp only
  split
  · rfl
  · exact (Device.countDrop_near _ _ _ _).keeps.hist

theorem Device.abandonUnit_fillsPlanes (d : Device) (p reason : Nat) : d.FillsPlanes (d.abandonUnit p reason) :=
  ⟨by rw [d.abandonUnit_hist]; exact Hist.setPlane_pairs _ _ _, (d.abandonUnit_onlyIn p reason).mono (by decide)⟩

theorem Device.captureHold_fillsPlanes (d : Device) (g : Group) (exports : Bool) : d.FillsPlanes (d.captureHold g exports) := by
  unfold Device.captureHold
  split
  · split
    · exact (d.serveBank_fillsPlanes 3 false).trans (Device.modHist_fillsPlanes rfl)
    · exact .refl d
  · exact .refl d

theorem Device.takePlane_fillsPlanes (d : Device) (g : Group) : d.FillsPlanes (d.takePlane g) := by
  unfold Device.takePlane
  split
  · exact (d.serveBank_fillsPlanes _ false).trans (Device.modHist_fillsPlanes (Hist.setPlane_pairs _ _ _))
  · split
    · exact (d.abandonUnit_fillsPlanes _ 3).trans
        (Device.modHist_fillsPlanes ((Hist.nextDrain_pairs _).trans (Hist.setPlane_pairs _ _ _)))
    · exact (Device.modHist_fillsPlanes (Hist.nextDrain_pairs _)).trans (Device.notExported_keeps _).fillsPlanes

/-! A pair's processing starts. -/

/-- Pair `p` goes into processing. -/
def Device.beginPair (d : Device) (p : Nat) : Device :=
  (d.modHist (fun h => { h with pairs := vset h.pairs p .processing })).modRet (fun r => { r with zoned := false })

/-- A group of a pair that starts goes to the planes that a waiting hold or its own descriptor asks for (R152, R157). -/
def Device.feedPlanes (d : Device) (g : Group) (exports : Bool) : Device :=
  let d := d.captureHold g exports
  if !exports then d else if 2 ≤ d.power.step then d.notExported else d.takePlane g

theorem Device.feedPlanes_fillsPlanes (d : Device) (g : Group) (exports : Bool) : d.FillsPlanes (d.feedPlanes g exports) := by
  refine (d.captureHold_fillsPlanes g exports).trans ?_
  unfold Device.feedPlanes
  dsimp only
  split
  · exact .refl _
  · split
    · exact (Device.notExported_keeps _).fillsPlanes
    · exact Device.takePlane_fillsPlanes _ g

theorem Device.procStart_begins {d : Device} {p : Nat} {g : Group} (hnone : ∀ q, q < 2 → vget d.hist.pairs q .free ≠ .processing)
    (hnext : d.hist.nextPair = some (p, g)) :
    d.procStart = (d.beginPair p).feedPlanes g (!g.calFrame && descExport g.desc && d.hist.exp.st == .on) := by
  unfold Device.procStart
  rw [if_neg (by simpa [Nat.lt_succ_iff] using hnone), hnext]
  rfl

/-! A pair's processing ends: what comes before the pair is freed leaves the count of processed groups alone. -/

/-- Two devices at the same time, with the same store and the same number of groups processed. -/
structure Device.SameBatch (d x : Device) : Prop where
  time : x.time = d.time
  hist : x.hist = d.hist
  processed : x.ret.processed = d.ret.processed

theorem Device.SameBatch.refl (d : Device) : d.SameBatch d := ⟨rfl, rfl, rfl⟩

theorem Device.SameBatch.trans {a b c : Device} (h : a.SameBatch b) (k : b.SameBatch c) : a.SameBatch c :=
  ⟨k.time.trans h.time, k.hist.trans h.hist, k.processed.trans h.processed⟩

theorem Device.SameBatch.ite {d a b : Device} {c : Prop} [Decidable c] (ha : d.SameBatch a) (hb : d.SameBatch b) :
    d.SameBatch (if c then a else b) := by
  split
  · exact ha
  · exact hb

theorem Device.sameBatch_foldl {α : Type} (f : Device → α → Device) (hf : ∀ (d : Device) a, d.SameBatch (f d a)) (l : List α) (d : Device) :
    d.SameBatch (l.foldl f d) := by
  induction l generalizing d with
  | nil => exact .refl d
  | cons a t ih => exact (hf d a).trans (ih (f d a))

theorem Device.Keeps.sameBatch {d x : Device} (h : d.Keeps x) : d.SameBatch x := ⟨h.time, h.hist, congrArg Ret.processed h.ret⟩

theorem Device.modRet_sameBatch (d : Device) (f : Ret → Ret) (h : (f d.ret).processed = d.ret.processed) : d.SameBatch (d.modRet f) :=
  ⟨rfl, rfl, h⟩

theorem Device.zoneEvents_keeps (d : Device) (occ blind frame group : Nat) : d.Keeps (d.zoneEvents occ blind frame group) := by
  refine Device.keeps_foldl _ (fun d z => ?_) _ d
  dsimp only
  split
  · exact .refl d
  · exact d.limited_keeps _ _ _ _ _ _ _

theorem Device.writeOcc_sameBatch (d : Device) (b : BitVec 768) : d.SameBatch (d.writeOcc b) :=
  (d.zoneEvents_keeps _ _ _ _).sameBatch.trans ⟨rfl, rfl, rfl⟩

theorem Device.lookZone_sameBatch (d : Device) (m : BitVec 8320) (map z : Nat) (l : Option (Bool × Nat)) (p : Nat × Nat) :
    d.SameBatch (d.lookZone m map z l p).1 := by
  unfold Device.lookZone
  split
  · exact ⟨rfl, rfl, rfl⟩
  · exact .refl d

/-- The zones looked at one after the other. -/
theorem Device.lookZones_sameBatch (m : BitVec 8320) (map : Nat) (l : List (Option (Bool × Nat) × Nat)) (acc : Device × (Nat × Nat)) :
    acc.1.SameBatch (l.foldl (fun (acc : Device × (Nat × Nat)) x => acc.1.lookZone m map x.2 x.1 acc.2) acc).1 := by
  induction l generalizing acc with
  | nil => exact .refl acc.1
  | cons x l ih => exact (acc.1.lookZone_sameBatch m map x.2 x.1 acc.2).trans (ih _)

theorem Device.zoneWatch_sameBatch (d : Device) (m : BitVec 8320) (ok : Bool) (map : Nat) (offset : Int) (frame group : Nat)
    (chans : List ZoneChan) : d.SameBatch (d.zoneWatch m ok map offset frame group chans) := by
  unfold Device.zoneWatch
  split
  · exact .refl d
  · exact (Device.lookZones_sameBatch m map _ (d, _)).trans (Device.writeOcc_sameBatch _ _)

theorem Device.windowSlot_sameBatch (d : Device) (s : Nat) : d.SameBatch (d.windowSlot s) := by
  unfold Device.windowSlot
  split
  · exact .refl d
  · next fig _ =>
    extract_lets noted checked
    have hchecked : d.SameBatch checked :=
      (⟨rfl, rfl, rfl⟩ : d.SameBatch noted).trans (noted.checkPair_keeps _ _ _ _).sameBatch
    clear_value checked
    split
    · exact hchecked
    · next base _ =>
      extract_lets lim most high low alarm
      have halarm : ∀ on, d.SameBatch (alarm on) := fun on => hchecked.trans ⟨rfl, rfl, rfl⟩
      exact .ite (halarm true) (.ite (halarm false) (hchecked.trans ⟨rfl, rfl, rfl⟩))

theorem Device.windowFrame_sameBatch (d : Device) : d.SameBatch d.windowFrame := by
  unfold Device.windowFrame
  split
  · exact .refl d
  · exact (Device.sameBatch_foldl _ Device.windowSlot_sameBatch _ d).trans (Device.modRet_sameBatch _ _ rfl)

theorem Device.windowGroup_sameBatch (d : Device) (frame : Nat) (sums : List Int) (fired : List Nat) (last : Bool) :
    d.SameBatch (d.windowGroup frame sums fired last) := by
  unfold Device.windowGroup
  lift_lets
  extract_lets ended summed
  have hsummed : d.SameBatch summed :=
    (Device.SameBatch.ite (.refl d) d.windowFrame_sameBatch : d.SameBatch ended).trans (ended.modRet_sameBatch _ rfl)
  exact .ite (hsummed.trans summed.windowFrame_sameBatch) hsummed

theorem Device.calGroup_onlyIn (d : Device) (g : Group) (seen : List CalSeen) : d.OnlyIn [.cal] (d.calGroup g seen) := by
  unfold Device.calGroup
  split
  · exact .refl _ d
  · dsimp only
    repeat' split
    all_goals first | exact .refl _ d | exact d.modCal_onlyIn _

theorem Device.closePlane_onlyIn (d : Device) (g : Group) (p : Nat) : d.OnlyIn (.hist :: .ring :: reports) (d.closePlane g p) := by
  unfold Device.closePlane
  split
  · exact .refl _ d
  · lift_lets
    extract_lets recs held filled
    have hfilled : d.OnlyIn (.hist :: .ring :: reports) filled := (d.modHist_onlyIn _).mono (by decide)
    have hmod : ∀ f : Hist → Hist, filled.OnlyIn (.hist :: .ring :: reports) (filled.modHist f) :=
      fun f => (filled.modHist_onlyIn f).mono (by decide)
    split
    · exact (hfilled.trans (hmod _)).trans ((Device.complete_keeps _ _ _ _).onlyIn.mono (by decide))
    · exact hfilled.trans (hmod _)

/-- Device `x` is `d` with pair `p` freed, its group `g` counted as processed. -/
def Device.Freed (d : Device) (p : Nat) (g : Group) (x : Device) : Prop :=
  vget x.hist.pairs p .handed = .free ∧ vget x.hist.groups p (some g) = none ∧
  x.ret.processed = d.ret.processed + 1 ∧ x.ret.procTime = d.now - g.handClk

section
variable {d : Device} {p : Nat} {g : Group}

/-- The end of a group's processing frees its pair, whatever its planes, the window monitor and calibration made of it (R144). -/
theorem Device.procFinish_frees (hp : p < 2) (hpair : g.pair.toNat = p) (l : List ChanOut) (ghosts : Nat) :
    d.Freed p g (d.procFinish g l ghosts) := by
  unfold Device.procFinish
  lift_lets
  extract_lets closed watched calibrated counted stored
  have hclosed : d.OnlyIn (.hist :: .ring :: reports) closed := (d.closePlane_onlyIn g 6).trans (Device.closePlane_onlyIn _ g 7)
  have hwatched : closed.SameBatch watched := closed.windowGroup_sameBatch _ _ _ _
  have hcalibrated : watched.OnlyIn [.cal] calibrated := by
    simp only [calibrated]
    split
    · exact watched.calGroup_onlyIn g _
    · exact .refl _ watched
  have htime : calibrated.time = d.time :=
    (hcalibrated .time (by decide)).trans (hwatched.time.trans (hclosed .time (by decide)))
  have hprocessed : calibrated.ret.processed = d.ret.processed :=
    (congrArg Ret.processed (hcalibrated .ret (by decide))).trans
      (hwatched.processed.trans (congrArg Ret.processed (hclosed .ret (by decide))))
  obtain ⟨hfree, hgone⟩ := Hist.releasePair_frees
    { stored.hist with track := l.foldl (fun t c => trackAfter t g c) stored.hist.track } hp
  have hnow : calibrated.now = d.now := congrArg TimeBase.clk htime
  clear_value calibrated
  rw [hpair]
  exact ⟨hfree, hgone _, congrArg (· + 1) hprocessed, congrArg (· - g.handClk) hnow⟩

theorem Device.Freed.of_sameBatch {a x : Device} (h : d.SameBatch a) (k : a.Freed p g x) : d.Freed p g x := by
  obtain ⟨hfree, hgone, hprocessed, htime⟩ := k
  exact ⟨hfree, hgone, by rw [hprocessed, h.processed], by rw [htime, Device.now, h.time]; rfl⟩

/-- Device `x` is `d` with the pair in processing left where it is: zone watch has seen its group, whose unit waits (R181). -/
def Device.Stalled (d x : Device) : Prop := x.hist = d.hist ∧ x.ret.zoned = true ∧ x.ret.processed = d.ret.processed

/-- The group of the pair in processing seen by zone watch, unless it is a calibration frame's or has been seen. -/
def Device.zoneSeen (d : Device) (g : Group) (l : List ChanOut) : Device :=
  if g.calFrame || d.ret.zoned then d else d.zoneWatch g.zmap g.zmapOk g.zoneMap g.offset g.frame g.idx (zoneChans g l)

theorem Device.zoneSeen_sameBatch (d : Device) (g : Group) (l : List ChanOut) : d.SameBatch (d.zoneSeen g l) :=
  .ite (.refl d) (d.zoneWatch_sameBatch _ _ _ _ _ _ _)

/-- The group's point unit written to its queue (R180, R181). -/
def Device.putPoints (d : Device) (g : Group) (l : List ChanOut) : Device × Put :=
  d.putStream g.points true 0 1 16 (d.pointUnit g l).1 (fields [(0, g.idx % 256), (8, g.frame % 2 ^ 24)]) (d.pointUnit g l).2

theorem Device.putPoints_sameBatch (d : Device) (g : Group) (l : List ChanOut) : d.SameBatch (d.putPoints g l).1 :=
  (d.putStream_near _ _ _ _ _ _ _ _).keeps.sameBatch

/-- The end of processing of a group whose returns are `r`. -/
def Device.finishGroup (d : Device) (g : Group) (r : List ChanOut × Nat) : Device :=
  if g.calFrame || g.points = 0xFFFF then (d.zoneSeen g r.1).procFinish g r.1 r.2
  else if ((d.zoneSeen g r.1).putPoints g r.1).2 = .waits then
    ((d.zoneSeen g r.1).putPoints g r.1).1.modRet (fun x => { x with zoned := true })
  else ((d.zoneSeen g r.1).putPoints g r.1).1.procFinish g r.1 r.2

theorem Device.procEnd_finishes (hp : p < 2) (hfirst : ∀ q, q < p → vget d.hist.pairs q .free ≠ .processing)
    (hproc : vget d.hist.pairs p .free = .processing) (hgroup : vget d.hist.groups p none = some g) :
    d.procEnd = d.finishGroup g (d.groupReturns g) := by
  have hfind : (List.range 2).find? (fun p => vget d.hist.pairs p .free == .processing) = some p :=
    List.find?_range_eq_some.mpr ⟨by rw [hproc]; rfl, List.mem_range.mpr hp, fun q hq => by simpa using hfirst q hq⟩
  unfold Device.procEnd
  rw [hfind]
  dsimp only
  rw [hgroup]
  rfl

/-- A group is finished at once where it has no point unit, else where its unit need not wait. -/
theorem Device.finishGroup_ends (hp : p < 2) (hpair : g.pair.toNat = p) (r : List ChanOut × Nat) :
    ((g.calFrame = true ∨ g.points = 0xFFFF) → d.Freed p g (d.finishGroup g r)) ∧
    (d.Freed p g (d.finishGroup g r) ∨ d.Stalled (d.finishGroup g r)) := by
  have hseen := d.zoneSeen_sameBatch g r.1
  have hput := hseen.trans ((d.zoneSeen g r.1).putPoints_sameBatch g r.1)
  unfold Device.finishGroup
  split
  · have hfreed := (Device.procFinish_frees hp hpair r.1 r.2).of_sameBatch hseen
    exact ⟨fun _ => hfreed, .inl hfreed⟩
  · next hunit =>
    refine ⟨fun hnone => absurd (by simpa using hnone) hunit, ?_⟩
    split
    · exact .inr ⟨hput.hist, rfl, hput.processed⟩
    · exact .inl ((Device.procFinish_frees hp hpair r.1 r.2).of_sameBatch hput)

end

/-- The number of a pair. -/
theorem toNat_beq_one {p : Nat} (hp : p < 2) : (p == 1).toNat = p := by
  interval_cases p <;> rfl

/-- Settles O23: a word counts in the bin of its time or as late; a pair is handed over, processed and freed in turn, each row under its
guards. -/
theorem eventWordsAndPairs : Obligations.EventWordsAndPairs := by
  unfold Obligations.EventWordsAndPairs
  refine ⟨?words, ?pairs⟩
  case words =>
    intro s dt ch w rest halive d h pair
    dsimp only [exec]
    refine ⟨fun hnone => coreRow_idles dt _ s (congrArg (fun x => { d with hist := x }) (Hist.takeWord_empty hnone)), fun hkeys hw => ?_⟩
    refine (coreRow_modHist halive rfl).imp fun u ⟨hhist, honly⟩ => ?_
    rw [hhist, Hist.takeWord_oldest hw]
    obtain ⟨bins, late, hwrites⟩ := Hist.accumulate_writes (h.leaveWords ch.val rest) ch.val w
    refine ⟨?_, fun c hc => ?_, fun hpair => ?_, fun g hpair hgroup hzoom => ?_, ?_, honly⟩
    · rw [hwrites]
      exact Hist.leaveWords_same hkeys ch.val rest
    · rw [hwrites]
      exact h.leaveWords_other hc.symm rest
    · rw [Hist.accumulate_late (h := h.leaveWords ch.val rest) ch.val hpair]
      exact ⟨rfl, rfl⟩
    · rw [Hist.accumulate_counts (h := h.leaveWords ch.val rest) ch.val hpair hgroup hzoom]
      exact ⟨rfl, rfl⟩
    · rw [hwrites]
      rfl
  case pairs =>
    intro s dt p g halive hp d h
    dsimp only [exec]
    refine ⟨fun hready hgroup hlanes => ?hands, fun hready hgroup hlanes hgone => ?frees, fun hready hgroup hlanes hwaits => ?waits,
      fun hnone => coreRow_idles dt _ s (Device.handover_none hnone), fun hnone hnext => ?starts,
      fun hfirst hproc hgroup hpair => ?ends⟩
    case hands =>
      refine (coreRow_ends (ps := .hist :: .ret :: .cal :: .bist :: reports) halive (Device.handover_hands hready hgroup hlanes) ?_
        (by decide)).imp fun u ⟨hkeeps, honly⟩ => ?_
      · exact ((d.rated_onlyIn g).mono (by decide)).trans ((Device.modHist_onlyIn _ _).mono (by decide))
      · have hhist : (d.rated g).hist = h := d.rated_onlyIn g .hist (by decide)
        have hnow : (d.rated g).now = d.now := congrArg (fun t => t.clk) (d.rated_onlyIn g .time (by decide))
        rw [hkeeps.hist, hkeeps.bist]
        exact ⟨vget_vset_same _ _ _ _ hp, vget_vset_same _ _ _ _ hp, ⟨_, vget_vset_same _ _ _ _ hp, hnow, d.rated_lanes g, rfl, rfl⟩,
          (congrArg Hist.bins hhist : (d.rated g).hist.bins = h.bins), d.rated_bist g, honly⟩
    case frees =>
      refine (coreRow_keeps halive rfl).imp fun u hkeeps => ?_
      rw [hkeeps.hist, Device.handover_frees hready hgroup hlanes hgone]
      obtain ⟨hfree, hnone⟩ := h.releasePair_frees hp
      exact ⟨hfree, hnone _⟩
    case waits =>
      exact (coreRow_keeps halive (Device.handover_waits hready hgroup hlanes hwaits)).imp fun u hkeeps => (d.emptyUnit_keeps g).trans hkeeps
    case starts =>
      refine (coreRow_keeps halive (Device.procStart_begins hnone hnext)).imp fun u hkeeps => ?_
      have hfills := (d.beginPair p).feedPlanes_fillsPlanes g (!g.calFrame && descExport g.desc && h.exp.st == .on)
      refine ⟨?_, ?_, hkeeps.fire.trans (hfills.only .fire (by decide)), hkeeps.rx.trans (hfills.only .rx (by decide)),
        hkeeps.cal.trans (hfills.only .cal (by decide))⟩
      · rw [(congrArg Hist.pairs hkeeps.hist).trans hfills.pairs]
        exact vget_vset_same _ _ _ _ hp
      · exact congrArg Ret.zoned (hkeeps.ret.trans (hfills.only .ret (by decide)))
    case ends =>
      have hnumber : g.pair.toNat = p := (congrArg Bool.toNat hpair).trans (toNat_beq_one hp)
      obtain ⟨hunsent, hsent⟩ := Device.finishGroup_ends (d := d) hp hnumber (d.groupReturns g)
      refine (coreRow_keeps halive (Device.procEnd_finishes hp hfirst hproc hgroup)).imp fun u hkeeps => ?_
      rw [hkeeps.hist, hkeeps.ret]
      refine ⟨hunsent, hsent.imp id fun ⟨hhist, hzoned, hprocessed⟩ => ?_⟩
      exact ⟨congrArg Hist.pairs hhist, congrArg Hist.groups hhist, hzoned, hprocessed⟩

end Sys2Proof.Machine
end

section
/-! Export planes drained and held (R152-R157). -/

namespace Sys2Proof.Machine

open Sys2Proof

/-! The next chunk. -/

theorem Device.exportChunk_none {d : Device} (h : d.hist.drains = none) : d.exportChunk = d := by
  unfold Device.exportChunk
  rw [h]

/-- A chunk that goes to no queue, and is not the last, only moves the unit on. -/
theorem Device.exportChunk_unqueued {d : Device} {x : ExportUnit} (hdrains : d.hist.drains = some 6) (hunit : d.hist.p6.unit = some x)
    (hqueue : d.hist.expSet.queue = 0xFFFF) (hmore : d.hist.p6.chunk + 1 < d.hist.expSet.chunks) :
    d.exportChunk = d.modHist (fun h => { h with p6 := { h.p6 with chunk := d.hist.p6.chunk + 1 } }) := by
  have hplane : (d.hist.plane 6).unit = some x := hunit
  unfold Device.exportChunk
  rw [hdrains]
  dsimp only
  rw [hplane]
  dsimp only
  rw [if_pos hqueue, if_neg (show Put.unsent ≠ .waits by decide)]
  exact if_pos hmore

/-! STOPPING ends (R154). -/

theorem Hist.claimP7_exp (h : Hist) : h.claimP7.exp = h.exp := by
  unfold Hist.claimP7
  repeat' split
  all_goals rfl

theorem Hist.claimP7_p6 (h : Hist) : h.claimP7.p6 = h.p6 := by
  unfold Hist.claimP7
  repeat' split
  all_goals rfl

/-- Plane 7 stays as it is or goes to import. -/
theorem Hist.claimP7_notDraining {h : Hist} (hp7 : h.p7.st ≠ .draining) : h.claimP7.p7.st ≠ .draining := by
  unfold Hist.claimP7
  split
  · exact hp7
  · split
    · exact hp7
    · split
      · exact nofun
      · exact hp7

/-- Plane `p` is given up where it drains. -/
def Device.dropDraining (d : Device) (p : Nat) : Device :=
  if (d.hist.plane p).st == .draining then (d.abandonUnit p 6).modHist Hist.claimP7 else d

theorem Device.abandonUnit_time (d : Device) (p reason : Nat) : (d.abandonUnit p reason).time = d.time :=
  d.abandonUnit_onlyIn p reason .time (by decide)

theorem Device.dropDraining_time (d : Device) (p : Nat) : (d.dropDraining p).time = d.time := by
  unfold Device.dropDraining
  split
  · exact d.abandonUnit_time p 6
  · rfl

/-- Plane 6 no longer drains once it is given up. -/
theorem Device.dropDraining_p6 (d : Device) : (d.dropDraining 6).hist.p6.st ≠ .draining := by
  unfold Device.dropDraining
  split
  · have hfree : ((d.abandonUnit 6 6).modHist Hist.claimP7).hist.p6 = {} :=
      (Hist.claimP7_p6 _).trans (by rw [d.abandonUnit_hist]; rfl)
    rw [hfree]
    exact nofun
  · next hother => simpa [Hist.plane] using hother

/-- Nor does plane 7, and plane 6 stays as it is. -/
theorem Device.dropDraining_p7 (d : Device) : (d.dropDraining 7).hist.p7.st ≠ .draining ∧ (d.dropDraining 7).hist.p6 = d.hist.p6 := by
  unfold Device.dropDraining
  split
  · have hfree : (d.abandonUnit 7 6).hist.p7 = {} := by rw [d.abandonUnit_hist]; rfl
    refine ⟨Hist.claimP7_notDraining (h := (d.abandonUnit 7 6).hist) ?_, (Hist.claimP7_p6 _).trans (by rw [d.abandonUnit_hist]; rfl)⟩
    rw [hfree]
    exact nofun
  · next hother => exact ⟨by simpa [Hist.plane] using hother, rfl⟩

theorem Device.exportOff_hist (d : Device) : d.exportOff.hist =
    { d.hist with exp := { d.hist.exp with st := .off, stopPending := false, offUntil := d.now + 100 * us } } := by
  unfold Device.exportOff Device.histEvent Device.reachOff
  extract_lets fault off done
  have hdone : off.Keeps done := off.complete_keeps _ _ _
  refine (Device.raise_keeps _ _ _ _).hist.trans ?_
  split
  · exact (Device.complete_keeps _ _ _ _).hist.trans hdone.hist
  · exact hdone.hist

theorem Device.exportTimeout_idle {d : Device} (h : d.hist.exp.st ≠ .stopping) : d.exportTimeout = d := if_neg (by simp [h])

theorem Device.exportTimeout_stops {d : Device} (hst : d.hist.exp.st = .stopping) (hdue : d.hist.exp.stopBy ≤ d.now) :
    d.exportTimeout = ((d.dropDraining 6).dropDraining 7).exportOff := if_pos (by simp [hst, hdue])

/-! A hold not captured (R157). -/

theorem Device.sendMsg_waits (d : Device) (node queue : Nat) (msg : Bytes) : (d.sendMsg node queue msg).1.wcp.waits = d.wcp.waits := by
  unfold Device.sendMsg
  split
  · exact (d.putUnit_near _ _ _ _).waits
  · split <;> rfl

theorem Device.reply_waits (d : Device) (node queue : Nat) (body : Bytes) (first : Bool) :
    (d.reply node queue body first).wcp.waits = d.wcp.waits := by
  unfold Device.reply
  dsimp only
  split <;> exact d.sendMsg_waits _ _ _

theorem Device.waits_foldl {α : Type} (f : Device → α → Device) (hf : ∀ (d : Device) a, (f d a).wcp.waits = d.wcp.waits) (l : List α)
    (d : Device) : (l.foldl f d).wcp.waits = d.wcp.waits := by
  induction l generalizing d with
  | nil => rfl
  | cons a t ih => exact (ih (f d a)).trans (hf d a)

theorem Device.finish_waits (d : Device) (w : Wait) (status : Nat) (result : Bytes) : (d.finish w status result).wcp.waits = d.wcp.waits := by
  unfold Device.finish
  dsimp only
  refine (Device.waits_foldl _ (fun d p => ?_) _ _).trans rfl
  cases p with
  | spi => rfl
  | ring node queue => exact d.reply_waits _ _ _ _

/-- A completion ends the waits of its kind alone. -/
theorem Device.complete_waits (d : Device) (k : WaitKind) (status : Nat) (result : Bytes) :
    (d.complete k status result).wcp.waits = d.wcp.waits.filter (fun w => w.kind != k) :=
  Device.waits_foldl _ (fun d w => d.finish_waits w status result) _ _

theorem Device.holdTimeout_due {d : Device} {p since : Nat} (hhold : d.hist.hold = some (p, since)) (hdue : since + 10 * second ≤ d.now)
    (hidle : ¬(d.hist.holdTaken = true ∧ d.hist.p7.st = .filling)) :
    d.holdTimeout = (d.modHist (fun h => { h with hold := none, holdTaken := false })).complete .hold sBadState Bytes.nil := by
  unfold Device.holdTimeout
  rw [hhold]
  exact if_pos (by simpa [hdue] using not_and_or.mp hidle)

end Sys2Proof.Machine
end

section
/-! Imported units (R159, R184). -/

namespace Sys2Proof.Machine

open Sys2Proof

/-! A chunk dequeued. -/

/-- Two stores that differ in bins and in the import record area alone. -/
def Hist.SameButImported (h h' : Hist) : Prop := ∃ bins recs, h' = { h with bins := bins, imp := { h.imp with recs := recs } }

theorem Hist.sameButImported_foldl {α : Type} {f : Hist → α → Hist} (hf : ∀ (h : Hist) a, h.SameButImported (f h a)) (l : List α)
    (h : Hist) : h.SameButImported (l.foldl f h) := by
  induction l generalizing h with
  | nil => exact ⟨h.bins, h.imp.recs, rfl⟩
  | cons a l ih =>
    obtain ⟨_, _, hstep⟩ := hf h a
    obtain ⟨bins, recs, hrest⟩ := ih (f h a)
    exact ⟨bins, recs, by rw [List.foldl_cons, hrest, hstep]⟩

/-- The first chunk of a unit opens it, and is noted as received; the pairs are left alone. -/
theorem Hist.importChunk_opens {h : Hist} (hidle : h.imp.active = false) (b : Bytes) (now : Nat) :
    (h.importChunk b now).imp.active = true ∧ (h.importChunk b now).imp.hdr = .ofNat 256 (b.slice 0 32).val ∧
    (h.importChunk b now).imp.got.contains (ckChunk (b.slice 0 32).val) = true ∧ (h.importChunk b now).pairs = h.pairs := by
  unfold Hist.importChunk
  extract_lets hd written got full
  have hwritten : h.SameButImported written := Hist.sameButImported_foldl (fun _ _ => ⟨_, _, rfl⟩) _ h
  obtain ⟨bins, recs, hsame⟩ := hwritten
  clear_value written
  subst hsame
  exact ⟨rfl, if_pos (by simp [hidle]),
    (List.contains_iff_mem.mpr List.mem_insert_self : (h.imp.got.insert (ckChunk hd)).contains (ckChunk hd) = true), rfl⟩

section
variable {d : Device} {q : QUnit}

theorem Device.importDequeue_drops (hon : d.hist.imp.enabled = true) (howns : d.hist.imp.owns = true) (hopen : d.hist.imp.complete = false)
    (hqueue : d.hist.imp.queue ≠ 0xFFFF) (hunit : (d.queue d.hist.imp.queue).nextFor 33 = some q) (hbad : chunkOk q.data = false) :
    d.importDequeue = d.take d.hist.imp.queue 33 q.useq := by
  unfold Device.importDequeue
  dsimp only
  rw [if_neg (by simp [hon, howns, hopen, hqueue]), hunit]
  exact if_pos (by simp [hbad])

theorem Device.importDequeue_stores (hon : d.hist.imp.enabled = true) (howns : d.hist.imp.owns = true) (hopen : d.hist.imp.complete = false)
    (hqueue : d.hist.imp.queue ≠ 0xFFFF) (hidle : d.hist.imp.active = false) (hunit : (d.queue d.hist.imp.queue).nextFor 33 = some q)
    (hok : chunkOk q.data = true) (hsrc : ckSrc (q.data.slice 0 32).val = 0) (hany : d.hist.imp.source = 0xFF) :
    d.importDequeue = (d.take d.hist.imp.queue 33 q.useq).modHist
      (fun h => h.importChunk q.data (d.take d.hist.imp.queue 33 q.useq).now) := by
  unfold Device.importDequeue
  dsimp only
  rw [if_neg (by simp [hon, howns, hopen, hqueue]), hunit]
  dsimp only
  rw [if_neg (by simp [hok, hsrc, hany]), if_neg (by simp [hidle])]

/-! Slices, and the unit's end. -/

theorem Device.importSlice_barred (h : d.bist.reservedIn [2, 3] = true) : d.importSlice = d := by
  unfold Device.importSlice
  exact if_neg (by simp [h])

theorem Device.importSlice_takes (hfull : d.hist.imp.complete = true) (hleft : d.hist.imp.slices < 16) (hlanes : d.ret.lanes ≠ 0)
    (hroom : d.nextHandover.all (fun t => decide (d.now + d.sliceTime ≤ t)) = true) (hdue : d.hist.imp.sliceUntil ≤ d.now)
    (hslice : d.bist.reservedIn [2, 3] = false) (h0 : vget d.hist.pairs 0 .free = .free) (h1 : vget d.hist.pairs 1 .free = .free) :
    d.importSlice = (d.serve [2, 3]).modHist
      (fun h => { h with imp := { h.imp with slices := h.imp.slices + 1, sliceUntil := d.now + d.sliceTime } }) := by
  have hbusy : (List.range 2).any (fun p => vget d.hist.pairs p .free == .handed || vget d.hist.pairs p .free == .processing ||
      (vget d.hist.pairs p .free == .accumulating && vget d.hist.marked p false)) = false := by
    simp [List.range_succ, h0, h1]
  unfold Device.importSlice
  dsimp only
  rw [hbusy, hroom]
  exact if_pos (by simp [hfull, hleft, hlanes, hdue, hslice])

theorem Device.importDone_incomplete (h : d.hist.imp.complete = false) : d.importDone = d := by
  unfold Device.importDone
  exact if_pos (by simp [h])

theorem Device.importDone_closes (hfull : d.hist.imp.complete = true) (hslices : 16 ≤ d.hist.imp.slices)
    (hdue : d.hist.imp.sliceUntil ≤ d.now) (hpoints : d.hist.imp.points = 0xFFFF) :
    d.importDone = (d.importEvent 0).modHist (fun h => { h.importClear with imported := h.imported + 1 }) := by
  unfold Device.importDone
  dsimp only
  rw [if_neg (by simp [hfull, hslices, hdue]), if_pos hpoints, if_neg (show Put.unsent ≠ .waits by decide)]

end

/-- Settles O24: each row under its guards is one change of the store, which the end of the step keeps. -/
theorem exportAndImport : Obligations.ExportAndImport := by
  unfold Obligations.ExportAndImport
  intro s dt p since x q halive d h
  dsimp only [exec]
  refine ⟨fun hdrains hunit hqueue hmore => coreRow_modHist halive (Device.exportChunk_unqueued hdrains hunit hqueue hmore),
    fun hnone => coreRow_idles dt _ s (Device.exportChunk_none hnone), fun hst hdue => ?stops,
    fun hst => coreRow_idles dt _ s (Device.exportTimeout_idle hst), fun hhold hdue hidle => ?holdEnds,
    fun hon howns hopen hqueue hunit hbad => ?drops, fun hon howns hopen hqueue hidle hunit hok hsrc hany => ?stores,
    fun hfull hleft hlanes hroom hdue hslice h0 h1 => ?slices,
    fun hslice => coreRow_idles dt _ s (Device.importSlice_barred hslice), fun hfull hslices hdue hpoints => ?closes,
    fun hopen => coreRow_idles dt _ s (Device.importDone_incomplete hopen)⟩
  case stops =>
    obtain ⟨hp7, hp6⟩ := (d.dropDraining 6).dropDraining_p7
    have hnow : ((d.dropDraining 6).dropDraining 7).now = d.now :=
      congrArg TimeBase.clk ((Device.dropDraining_time _ 7).trans (d.dropDraining_time 6))
    refine (coreRow_keeps halive (Device.exportTimeout_stops hst hdue)).imp fun u hkeeps => ?_
    rw [hkeeps.hist, Device.exportOff_hist, hnow]
    refine ⟨rfl, rfl, ?_, hp7⟩
    rw [hp6]
    exact d.dropDraining_p6
  case holdEnds =>
    refine (coreRow_rests halive (Device.holdTimeout_due hhold hdue hidle)).imp fun u hrests => ?_
    refine ⟨hrests.keeps.hist.trans (Device.complete_keeps _ _ _ _).hist, ?_⟩
    rw [hrests.waits, Device.complete_waits]
    exact List.all_eq_true.mpr fun w hw => (List.mem_filter.mp hw).2
  case drops =>
    refine (coreRow_ends (ps := .ring :: reports) halive (Device.importDequeue_drops hon howns hopen hqueue hunit hbad)
      (Device.take_keeps _ _ _ _).onlyIn (by decide)).imp fun u ⟨hkeeps, honly⟩ => ?_
    exact ⟨hkeeps.hist.trans (Device.take_keeps _ _ _ _).hist, honly⟩
  case stores =>
    refine (coreRow_keeps halive (Device.importDequeue_stores hon howns hopen hqueue hidle hunit hok hsrc hany)).imp fun u hkeeps => ?_
    have hhist : (d.take h.imp.queue 33 q.useq).hist = h := (d.take_keeps _ _ _).hist
    rw [hkeeps.hist, Device.modHist, hhist]
    exact Hist.importChunk_opens hidle q.data _
  case slices =>
    have hserved := d.serve_onlyIn [2, 3]
    refine (coreRow_ends (ps := .hist :: .bist :: reports) halive
      (Device.importSlice_takes hfull hleft hlanes hroom hdue hslice h0 h1) ?_ (by decide)).imp fun u ⟨hkeeps, honly⟩ => ?_
    · exact (hserved.mono (by decide)).trans ((Device.modHist_onlyIn _ _).mono (by decide))
    · have hhist : (d.serve [2, 3]).hist = h := hserved .hist (by decide)
      rw [hkeeps.hist, Device.modHist, hhist]
      exact ⟨rfl, hkeeps.bist, honly⟩
  case closes =>
    refine (coreRow_ends (ps := .hist :: reports) halive (Device.importDone_closes hfull hslices hdue hpoints) ?_
      (by decide)).imp fun u ⟨hkeeps, honly⟩ => ?_
    · exact ((Device.raise_onlyIn _ _ _ _).mono (by decide)).trans ((Device.modHist_onlyIn _ _).mono (by decide))
    · rw [hkeeps.hist]
      exact ⟨rfl, rfl, rfl, rfl, honly⟩

end Sys2Proof.Machine
end

section
/-! A field of a block replaced: what it reads, and that the bits outside it stay. -/

namespace Sys2Proof.Machine

open Sys2Proof

/-- A number cut at a field of `w` bits from bit `lo` up, with another value in the field. -/
theorem testBit_put (h l v lo w j : Nat) (hl : l < 2 ^ lo) :
    (2 ^ lo * (2 ^ w * h + v % 2 ^ w) + l).testBit j =
      if lo ≤ j ∧ j < lo + w then v.testBit (j - lo) else (2 ^ lo * (2 ^ w * h) + l).testBit j := by
  simp only [Nat.testBit_two_pow_mul_add _ hl]
  by_cases hlow : j < lo
  · simp [hlow, Nat.not_le_of_lt hlow]
  · obtain ⟨k, rfl⟩ := Nat.exists_eq_add_of_le (Nat.le_of_not_lt hlow)
    have hv : v % 2 ^ w < 2 ^ w := Nat.mod_lt _ (Nat.two_pow_pos w)
    simp only [Nat.testBit_two_pow_mul_add _ hv, hlow, if_false, Nat.add_sub_cancel_left, Nat.le_add_right, true_and,
      Nat.add_lt_add_iff_left, Nat.testBit_mod_two_pow, Nat.testBit_two_pow_mul]
    by_cases hin : k < w
    · simp [hin]
    · simp [hin, Nat.le_of_not_lt hin]

/-- A field replaced, and the other bits as they were. -/
theorem testBit_setFld {n hi lo : Nat} (b : BitVec n) (v : Nat) {j : Nat} (hj : j < n) :
    (setFld b hi lo v).toNat.testBit j = if lo ≤ j ∧ j < lo + (hi - lo + 1) then v.testBit (j - lo) else b.toNat.testBit j := by
  unfold setFld fld
  generalize hi - lo + 1 = w
  let h := b.toNat / 2 ^ lo / 2 ^ w
  let f := b.toNat / 2 ^ lo % 2 ^ w
  let l := b.toNat % 2 ^ lo
  have hl : l < 2 ^ lo := Nat.mod_lt _ (Nat.two_pow_pos lo)
  have hcut : b.toNat = 2 ^ lo * (2 ^ w * h + f) + l := by rw [Nat.div_add_mod, Nat.div_add_mod]
  have hput : b.toNat - f * 2 ^ lo + v % 2 ^ w * 2 ^ lo = 2 ^ lo * (2 ^ w * h + v % 2 ^ w) + l := by
    have hmul : ∀ x, 2 ^ lo * (2 ^ w * h + x) = 2 ^ lo * (2 ^ w * h) + x * 2 ^ lo := fun x => by ring
    rw [hcut, hmul, hmul]
    omega
  have hbit := testBit_put h l f lo w j hl
  rw [Nat.mod_mod, ← hcut] at hbit
  rw [hput, BitVec.toNat_ofNat, Nat.testBit_mod_two_pow, testBit_put h l v lo w j hl, decide_eq_true hj, Bool.true_and]
  split
  · rfl
  · next hout => rw [hbit, if_neg hout]

theorem testBit_fld {n : Nat} (b : BitVec n) (hi lo i : Nat) :
    (fld b hi lo).testBit i = (decide (i < hi - lo + 1) && b.toNat.testBit (lo + i)) := by
  rw [fld, Nat.testBit_mod_two_pow, Nat.testBit_div_two_pow, Nat.add_comm i]

theorem fld_setFld_same {n hi lo : Nat} (b : BitVec n) (v : Nat) (hlo : lo ≤ hi) (hhi : hi < n) :
    fld (setFld b hi lo v) hi lo = v % 2 ^ (hi - lo + 1) := by
  refine Nat.eq_of_testBit_eq fun i => ?_
  rw [testBit_fld, Nat.testBit_mod_two_pow]
  by_cases hin : i < hi - lo + 1
  · rw [testBit_setFld b v (by omega), if_pos (by omega), Nat.add_sub_cancel_left]
  · simp [hin]

/-- A field below one that is replaced stays. -/
theorem fld_setFld_below {n hi lo hi' lo' : Nat} (b : BitVec n) (v : Nat) (hlo : lo ≤ hi) (hhi : hi < n) (hlo' : lo' ≤ hi')
    (hbelow : hi' < lo) : fld (setFld b hi lo v) hi' lo' = fld b hi' lo' := by
  refine Nat.eq_of_testBit_eq fun i => ?_
  rw [testBit_fld, testBit_fld]
  by_cases hin : i < hi' - lo' + 1
  · rw [testBit_setFld b v (by omega), if_neg (by omega)]
  · simp [hin]

end Sys2Proof.Machine
end

section
/-! Zones that go BLIND (R192), and the window baseline learnt (R188). -/

namespace Sys2Proof.Machine

open Sys2Proof

/-! One zone of the occupancy block rewritten. -/

/-- The occupancy block with the sets OCCUPIED and BLIND of a pair. -/
def ocPut (b : BitVec 768) (p : Nat × Nat) : BitVec 768 := setFld (setFld b 63 0 p.1) 127 64 p.2

theorem ocOcc_ocPut (b : BitVec 768) (p : Nat × Nat) : ocOcc (ocPut b p) = p.1 % 2 ^ 64 := by
  rw [ocOcc, ocPut, fld_setFld_below _ _ (by decide) (by decide) (by decide) (by decide), fld_setFld_same _ _ (by decide) (by decide)]

theorem ocBlind_ocPut (b : BitVec 768) (p : Nat × Nat) : ocBlind (ocPut b p) = p.2 % 2 ^ 64 := by
  rw [ocBlind, ocPut, fld_setFld_same _ _ (by decide) (by decide)]

theorem ocOcc_lt (b : BitVec 768) : ocOcc b < 2 ^ 64 := Nat.mod_lt _ (Nat.two_pow_pos 64)

theorem ocBlind_lt (b : BitVec 768) : ocBlind b < 2 ^ 64 := Nat.mod_lt _ (Nat.two_pow_pos 64)

/-- A zone's bit rewritten is a bit of the 64-bit set replaced. -/
theorem toNat_setBit_ofNat {x : Nat} (hx : x < 2 ^ 64) (z : Nat) (v : Bool) :
    (setBit (BitVec.ofNat 64 x) z v).toNat = setZone x z v % 2 ^ 64 := by
  have hset : (BitVec.ofNat 64 x).toNat = x := Nat.mod_eq_of_lt hx
  have hv : v.toNat % 2 ^ (z - z + 1) = v.toNat := by rw [Nat.sub_self]; cases v <;> rfl
  have hfld : fld (BitVec.ofNat 64 x) z z = (nbit x z).toNat := by
    rw [fld, nbit, hset, Nat.sub_self]
    rcases Nat.mod_two_eq_zero_or_one (x / 2 ^ z) with h | h <;> simp [h]
  rw [setBit, setFld, setZone, hfld, hset, hv, BitVec.toNat_ofNat]

theorem nbit_setZone {x i : Nat} (hx : x < 2 ^ 64) (z : Nat) (v : Bool) (hi : i < 64) :
    nbit (setZone x z v % 2 ^ 64) i = if i = z then v else nbit x i := by
  rw [← toNat_setBit_ofNat hx z v]
  refine (bit_setBit _ z i v hi).trans ?_
  rw [bit, BitVec.toNat_ofNat, Nat.mod_eq_of_lt hx]
  rfl

/-- A fold that acts at one number alone acts once. -/
theorem foldl_range_at {α : Type} {n z : Nat} (hz : z < n) (g : α → α) (p : α) :
    (List.range n).foldl (fun p i => if i = z then g p else p) p = g p := by
  have hone : (List.range n).filter (fun i => decide (i = z)) = [z] := by
    rw [List.filter_eq, List.count_eq_one_of_mem List.nodup_range (List.mem_range.mpr hz)]
    rfl
  have hfold := List.foldl_filter (l := List.range n) (p := fun i => decide (i = z)) (f := fun p _ => g p) (init := p)
  rw [hone] at hfold
  simpa using hfold.symm

/-! The block written. -/

theorem Device.writeOcc_ret (d : Device) (b : BitVec 768) : (d.writeOcc b).ret = { d.ret with occ := d.ret.occ.put b } := by
  have hret := (d.zoneEvents_keeps (ocOcc b) (ocBlind b) (fld b 159 128) (fld b 167 160)).ret
  exact congrArg (fun r : Ret => { r with occ := r.occ.put b }) hret

theorem Device.modCore_onlyIn (d : Device) (f : CoreBridge → CoreBridge) : d.OnlyIn [.core] (d.modCore f) := by
  intro p hp
  cases p
  case core => exact absurd (by decide) hp
  all_goals rfl

theorem Device.writeOcc_onlyIn (d : Device) (b : BitVec 768) : d.OnlyIn (.ret :: .core :: .ring :: reports) (d.writeOcc b) := by
  have htold := (d.zoneEvents_keeps (ocOcc b) (ocBlind b) (fld b 159 128) (fld b 167 160)).onlyIn
  exact ((htold.mono (by decide)).trans ((Device.modRet_onlyIn _ _).mono (by decide))).trans
    ((Device.modCore_onlyIn _ (fun c => { c with occ := .ofNat 64 (ocOcc b), blind := .ofNat 64 (ocBlind b), discards := 0 })).mono
      (by decide))

/-! A zone not looked at (R192). -/

/-- The device with one zone's bit BLIND set. -/
def Device.blinded (d : Device) (z : Nat) : Device := d.setZones (fun i p => if i = z then (p.1, setZone p.2 z true) else p)

section
variable {d : Device} {z t map : Nat}

theorem Device.zoneBlind_unseen (hlook : vget d.ret.lastLook z none = none) : d.zoneBlind z = d := by
  unfold Device.zoneBlind
  rw [hlook]

theorem Device.zoneBlind_due (hlook : vget d.ret.lastLook z none = some (t, map))
    (hdue : t + zmBlindMs (d.ret.zmapNow map).1 * ms ≤ d.time.ns.toNat) : d.zoneBlind z = d.blinded z := by
  unfold Device.zoneBlind
  rw [hlook]
  exact if_pos hdue

/-- A zone's bit BLIND is written where it changes. -/
theorem Device.blinded_eq (d : Device) (hz : z < 64) : d.blinded z =
    if setZone d.blindNow z true = d.blindNow then d else d.writeOcc (ocPut d.ret.occ.v (d.occNow, setZone d.blindNow z true)) := by
  unfold Device.blinded Device.setZones
  rw [foldl_range_at hz]
  simp only [true_and]
  rfl

theorem Device.blinded_onlyIn (d : Device) (hz : z < 64) : d.OnlyIn (.ret :: .core :: .ring :: reports) (d.blinded z) := by
  rw [d.blinded_eq hz]
  split
  · exact .refl _ d
  · exact d.writeOcc_onlyIn _

/-- Of return processing only the block changes: OCCUPIED stays, and BLIND takes the zone's bit. -/
theorem Device.blinded_ret (d : Device) (hz : z < 64) : (d.blinded z).ret.zmaps = d.ret.zmaps ∧
    (d.blinded z).occNow = d.occNow ∧ (d.blinded z).blindNow = setZone d.blindNow z true % 2 ^ 64 := by
  rw [d.blinded_eq hz]
  split
  · next hsame => exact ⟨rfl, rfl, by rw [hsame]; exact (Nat.mod_eq_of_lt (ocBlind_lt _)).symm⟩
  · have hv (b : BitVec 768) : (d.ret.occ.put b).v = b := congrArg Pair.v (Stored.live_put d.ret.occ b)
    simp only [Device.occNow, Device.blindNow, Device.writeOcc_ret, hv, ocOcc_ocPut, ocBlind_ocPut, true_and, and_true]
    exact Nat.mod_eq_of_lt (ocOcc_lt _)

end

/-! The window baseline (R188). -/

/-- The baseline learnt for a slot from the sums of 25 frames. -/
def learntBase (sums : List Int) (s : Nat) : BitVec 64 := BitVec.ofNat 64 (2 ^ 63 + (roundInt ((sums[s]?).getD 0) 25 % 2 ^ 63).toNat)

theorem learntBase_value (sums : List Int) (s : Nat) :
    (learntBase sums s).toNat % 2 ^ 63 = (roundInt ((sums[s]?).getD 0) 25 % 2 ^ 63).toNat := by
  rw [learntBase, BitVec.toNat_ofNat]
  omega

/-- The baselines of the four slots stored. -/
def Ret.learnt (r : Ret) (sums : List Int) : Ret :=
  { r with baseline := (List.range 4).foldl (fun v s => vmod v s (fun x => x.put (learntBase sums s))) r.baseline }

theorem Ret.learnt_baseline (r : Ret) (sums : List Int) (k : Fin 4) :
    (r.learnt sums).baseline[k].v = learntBase sums k.val ∧ (r.learnt sums).baseline[k].ok = true := by
  have hget (v : Vector (Stored 64) 4) : vget v k.val (.of 0) = v[k] := dif_pos k.isLt
  have hput : (r.learnt sums).baseline[k] = r.baseline[k].put (learntBase sums k.val) := by
    have hfold := vget_foldl_vmod (fun s (x : Stored 64) => x.put (learntBase sums s)) (List.range 4) List.nodup_range r.baseline k.val
      k.isLt (.of 0)
    rwa [if_pos (List.mem_range.mpr k.isLt), hget, hget] at hfold
  rw [hput, Stored.v, Stored.ok, Stored.live_put]
  exact ⟨rfl, Pair.ok_of _⟩

/-- A write of MRAM reaches what the write does, and the slice that gives way. -/
theorem Device.mram_onlyIn {ps : List Part} (d : Device) (general : Bool) {write : Device → Device} (hslice : [.bist, .wcp, .qs] ⊆ ps)
    (hwrite : ∀ x : Device, x.OnlyIn ps (write x)) : d.OnlyIn ps (d.mram general write) := by
  unfold Device.mram
  split
  · exact .refl ps d
  · refine Device.OnlyIn.trans ?_ (hwrite _)
    split
    · exact (d.serveOrWait_onlyIn [7]).mono hslice
    · exact (d.serve_onlyIn [7]).mono hslice

/-- Learning ended, before the baselines are stored. -/
def Device.learnEnded (d : Device) : Device := d.modRet (fun r => { r with learn := none })

section
variable {d : Device} {n : Nat} {sums : List Int}

theorem Device.learnDone_early (hlearn : d.ret.learn = some (n, sums)) (hn : n < 25) : d.learnDone = d := by
  unfold Device.learnDone
  rw [hlearn]
  exact if_neg (Nat.not_le_of_lt hn)

/-- After 25 frames learning ends, the baselines are stored where MRAM may be written, and the command completes. -/
theorem Device.learnDone_due (hlearn : d.ret.learn = some (n, sums)) (hn : 25 ≤ n) :
    d.learnDone = (d.learnEnded.mram true (fun d => d.modRet (fun r => r.learnt sums))).complete .learn sOk Bytes.nil := by
  unfold Device.learnDone
  rw [hlearn]
  exact if_pos hn

theorem Device.learnDone_shut_ret (hlearn : d.ret.learn = some (n, sums)) (hn : 25 ≤ n) (hshut : d.power.shut ≠ none) :
    d.learnDone.ret = d.learnEnded.ret := by
  rw [Device.learnDone_due hlearn hn, (Device.complete_keeps _ _ _ _).ret,
    Device.mram_shut (d := d.learnEnded) (Option.isSome_iff_ne_none.mpr hshut)]

theorem Device.learnDone_open_ret (hlearn : d.ret.learn = some (n, sums)) (hn : 25 ≤ n) (hshut : d.power.shut = none) :
    d.learnDone.ret = d.learnEnded.ret.learnt sums := by
  rw [Device.learnDone_due hlearn hn, (Device.complete_keeps _ _ _ _).ret, Device.mram_open (d := d.learnEnded) hshut, if_pos rfl]
  exact congrArg (fun r : Ret => r.learnt sums) (d.learnEnded.serveOrWait_onlyIn [7] .ret (by decide))

theorem Device.learnDone_onlyIn (hlearn : d.ret.learn = some (n, sums)) (hn : 25 ≤ n) :
    d.OnlyIn (.ret :: .ring :: .bist :: reports) d.learnDone := by
  have hended : d.OnlyIn (.ret :: .ring :: .bist :: reports) d.learnEnded := (d.modRet_onlyIn _).mono (by decide)
  rw [Device.learnDone_due hlearn hn]
  refine (hended.trans ?_).trans ((Device.complete_keeps _ _ _ _).onlyIn.mono (by decide))
  exact Device.mram_onlyIn _ true (by decide) fun x => (x.modRet_onlyIn _).mono (by decide)

end

/-- Settles O25: either row under its guards is one known change of return processing, which the end of the step keeps. -/
theorem zonesAndWindow : Obligations.ZonesAndWindow := by
  unfold Obligations.ZonesAndWindow
  intro s dt t map n z sums halive d m
  dsimp only [exec]
  refine ⟨fun hlook hdue => ?blind, fun hunseen => coreRow_idles dt _ s (Device.zoneBlind_unseen hunseen),
    fun hlearn hn hshut => ?stores, fun hlearn hn hshut => ?shut, fun hlearn hn => coreRow_idles dt _ s (Device.learnDone_early hlearn hn)⟩
  case blind =>
    refine (coreRow_keeps halive (Device.zoneBlind_due hlook hdue)).imp fun u hkeeps => ?_
    obtain ⟨hmaps, hocc, hblind⟩ := d.blinded_ret z.isLt
    have honly := d.blinded_onlyIn z.isLt
    have hbit {i : Nat} (hi : i < 64) := nbit_setZone (ocBlind_lt d.ret.occ.v) z.val true hi
    rw [hkeeps.ret, hkeeps.fire, hkeeps.rx, hkeeps.hist]
    change nbit (d.blinded z.val).blindNow z.val = true ∧
      (∀ i, i < 64 → i ≠ z.val → nbit (d.blinded z.val).blindNow i = nbit d.blindNow i) ∧ (d.blinded z.val).occNow = d.occNow ∧ _
    rw [hblind]
    exact ⟨(hbit z.isLt).trans (if_pos rfl), fun i hi hne => (hbit hi).trans (if_neg hne), hocc, hmaps, honly .fire (by decide),
      honly .rx (by decide), honly .hist (by decide)⟩
  case stores =>
    refine (coreRow_ends halive rfl (Device.learnDone_onlyIn hlearn hn) (by decide)).imp fun u ⟨hkeeps, honly⟩ => ?_
    rw [hkeeps.ret, Device.learnDone_open_ret hlearn hn hshut]
    refine ⟨rfl, fun k => ?_, rfl, honly⟩
    obtain ⟨hv, hok⟩ := d.learnEnded.ret.learnt_baseline sums k
    exact ⟨by rw [hv, learntBase_value], hok⟩
  case shut =>
    exact (coreRow_keeps halive rfl).imp fun u hkeeps => hkeeps.ret.trans (Device.learnDone_shut_ret hlearn hn hshut)

end Sys2Proof.Machine
end

section
/-! Reference passes (R197, R198) and the full calibration's end (R204-R209). -/

namespace Sys2Proof.Machine

open Sys2Proof

/-- A row that changes calibration, and beside it what events report. -/
theorem coreRow_calKeeps {s : State} {dt : Nat} {f : Device → Device} {g : Cal → Cal} (halive : (s.elapse dt).dev.alive = true)
    (hcal : (f (s.elapse dt).dev).cal = g (s.elapse dt).dev.cal) (honly : (s.elapse dt).dev.OnlyIn (.cal :: reports) (f (s.elapse dt).dev)) :
    Answers (coreRow dt f s) (fun u => u.dev.cal = g (s.elapse dt).dev.cal ∧ (s.elapse dt).dev.OnlyIn (.cal :: reports) u.dev) :=
  (coreRow_ends halive rfl honly (by decide)).imp fun _ ⟨hkeeps, honly⟩ => ⟨hkeeps.cal.trans hcal, honly⟩

/-- A row that changes calibration alone. -/
theorem coreRow_modCal {s : State} {dt : Nat} {f : Device → Device} {g : Cal → Cal} (halive : (s.elapse dt).dev.alive = true)
    (hf : f (s.elapse dt).dev = (s.elapse dt).dev.modCal g) :
    Answers (coreRow dt f s) (fun u => u.dev.cal = g (s.elapse dt).dev.cal ∧ (s.elapse dt).dev.OnlyIn (.cal :: reports) u.dev) :=
  coreRow_calKeeps halive (congrArg Device.cal hf) (hf ▸ (Device.modCal_onlyIn _ g).mono (by decide))

/-! Reference passes (R197, R198). -/

/-- The calibration after a pass with the measurements `m` (R198). -/
def Cal.passed (c : Cal) (m : List Int) (now : Nat) : Cal :=
  { c with
    ref := (List.range 1032).map (fun n => (c.ref[n]?).getD 0 + roundInt ((m[n]?).getD ((c.ref[n]?).getD 0) - (c.ref[n]?).getD 0) 8)
    lastPass := some now, stale := false, passRun := none, passDone := true }

theorem Cal.passed_live (c : Cal) (m : List Int) (now : Nat) : (c.passed m now).live = c.live := by rw [Cal.passed]

theorem Cal.passed_ref (c : Cal) (m : List Int) (now : Nat) {n : Nat} (hn : n < 1032) : (c.passed m now).ref[n]? =
    some ((c.ref[n]?).getD 0 + roundInt ((m[n]?).getD ((c.ref[n]?).getD 0) - (c.ref[n]?).getD 0) 8) := by
  rw [Cal.passed, List.getElem?_map, List.getElem?_range hn, Option.map_some]

section
variable {d : Device} {m : List Int} {t : Nat}

theorem Device.refStart_runs (hsurvey : d.rx.survey = none) (hpasses : d.surveyPasses ≤ d.rx.gapPasses) (hrun : d.bist.run = none)
    (hslice : d.timingSlice = false) (hdone : d.cal.passDone = false) (hpass : d.cal.passRun = none) (hroom : d.gapRoom (15 * us) = true) :
    d.refStart = d.modCal (fun c => { c with passRun := some d.now }) :=
  if_pos (by simp [hsurvey, hpasses, hrun, hslice, hdone, hpass, hroom])

/-- No pass starts without room, after the gap's pass, during one, or where self-test has the TDCs. -/
theorem Device.refStart_barred (h : d.gapRoom (15 * us) = false ∨ d.cal.passDone = true ∨ d.cal.passRun ≠ none ∨ d.timingSlice = true ∨
    d.bist.run ≠ none) : d.refStart = d := by
  refine if_neg fun hstarts => ?_
  simp only [Bool.and_eq_true, Bool.not_eq_true', Option.isNone_iff_eq_none] at hstarts
  obtain ⟨⟨⟨⟨⟨-, hrun⟩, hslice⟩, hdone⟩, hpass⟩, hroom⟩ := hstarts
  simp [hrun, hslice, hdone, hpass, hroom] at h

theorem Device.refDone_due (hrun : d.cal.passRun = some t) (hdue : t + 15 * us ≤ d.now) :
    d.refDone m = d.modCal (fun c => c.passed m d.now) := by
  unfold Device.refDone
  rw [hrun]
  exact if_neg (Nat.not_lt.mpr hdue)

theorem Device.refDone_early (hrun : d.cal.passRun = some t) (hearly : d.now < t + 15 * us) : d.refDone m = d := by
  unfold Device.refDone
  rw [hrun]
  exact if_pos hearly

theorem Device.refStale_due (hon : d.fire.fn.st = .on) (hfresh : d.cal.stale = false)
    (hdue : max (d.cal.lastPass.getD 0) d.fire.onAt + second ≤ d.now) :
    d.refStale = (d.modCal (fun c => { c with stale := true })).calEvent false d.cal.reason :=
  if_pos (by simp [hon, hfresh, hdue])

/-- The second without a pass runs while ON, and from the entry to ON. -/
theorem Device.refStale_idle (h : d.fire.fn.st ≠ .on ∨ d.now < d.fire.onAt + second) : d.refStale = d := by
  refine if_neg fun hdue => ?_
  simp only [Bool.and_eq_true, beq_iff_eq, decide_eq_true_eq] at hdue
  obtain ⟨⟨hon, -⟩, hnow⟩ := hdue
  have honAt := Nat.le_max_right (d.cal.lastPass.getD 0) d.fire.onAt
  rcases h with hoff | hearly
  · exact hoff hon
  · omega

end

theorem Device.calEvent_keeps (d : Device) (applied : Bool) (reason : Nat) : d.Keeps (d.calEvent applied reason) := d.raise_keeps _ _ _

theorem Device.calEvent_onlyIn (d : Device) (applied : Bool) (reason : Nat) : d.OnlyIn [.wcp, .ports, .qs] (d.calEvent applied reason) :=
  d.raise_onlyIn _ _ _

/-! A set committed (R203, R204). -/

/-- What the stored set is follows from the calibration, the blocks marked unusable and the acceptance window. -/
theorem Device.calStored_congr {d x : Device} (hlive : x.cal.live = d.cal.live) (hbackup : x.cal.backup = d.cal.backup)
    (hfire : x.fire = d.fire) (hmarks : x.bist.marks = d.bist.marks) : x.calStored = d.calStored := by
  unfold Device.calStored Device.unusable
  rw [hlive, hbackup, hfire, hmarks]

theorem Device.calNow_congr {d x : Device} (huntil : x.cal.until_ = d.cal.until_) (hstored : x.calStored = d.calStored) :
    x.calNow = d.calNow := by
  unfold Device.calNow
  rw [huntil, hstored]

/-- A request that may wait for a slice waits, or is served as any other. -/
theorem Device.serveOrWait_cases (d : Device) (rows : List Nat) : d.serveOrWait rows = d ∨ d.serveOrWait rows = d.serve rows := by
  unfold Device.serveOrWait Device.serve
  split
  · unfold Device.sliceAbort
    split
    · exact .inl rfl
    · next x _ =>
      cases x.reserved
      · exact .inr rfl
      · exact .inl rfl
  · exact .inl rfl

theorem Device.serveOrWait_marks (d : Device) (rows : List Nat) : (d.serveOrWait rows).bist.marks = d.bist.marks := by
  rcases d.serveOrWait_cases rows with h | h
  · rw [h]
  · rw [h, d.serve_marks]

/-- The calibration once `v` is committed: `stored` is the set it replaces, `now` what stays in force until the next group start. -/
def Cal.committed (c : Cal) (stored v : BitVec 37888) (now : Nat × BitVec 37888) : Cal :=
  { c with backup := c.backup.put stored, live := c.live.put v, shadow := v, until_ := some now }

/-- The write of a commit, past the slice that gives way to it. -/
def Device.writeSet (d : Device) (v : BitVec 37888) : Device :=
  ((d.modCal (fun c => c.committed d.calStored.2 v d.calNow)).record 0x000C 0 sevInfo
    ((w32 (csRev v)).app (.mk' 16 (digest128 (.mk' 4736 v.toNat))))).dirtyGroup

theorem Device.commitSet_eq (d : Device) (v : BitVec 37888) : d.commitSet v = d.mram true (fun x => x.writeSet v) := rfl

theorem Device.writeSet_cal (d : Device) (v : BitVec 37888) : (d.writeSet v).cal = d.cal.committed d.calStored.2 v d.calNow :=
  ((Device.dirtyGroup_onlyIn _) .cal (by decide)).trans (Device.record_keeps _ _ _ _ _).cal

theorem Device.writeSet_onlyIn (d : Device) (v : BitVec 37888) : d.OnlyIn (.cal :: .fire :: .ring :: .bist :: reports) (d.writeSet v) :=
  (((d.modCal_onlyIn _).mono (by decide)).trans ((Device.record_keeps _ _ _ _ _).onlyIn.mono (by decide))).trans
    ((Device.dirtyGroup_onlyIn _).mono (by decide))

theorem Device.commitSet_onlyIn (d : Device) (v : BitVec 37888) : d.OnlyIn (.cal :: .fire :: .ring :: .bist :: reports) (d.commitSet v) :=
  d.mram_onlyIn true (by decide) fun x => x.writeSet_onlyIn v

theorem Device.commitSet_open_cal {d : Device} (hshut : d.power.shut = none) (v : BitVec 37888) :
    (d.commitSet v).cal = d.cal.committed d.calStored.2 v d.calNow := by
  have hserved := d.serveOrWait_onlyIn [7]
  have hcal : (d.serveOrWait [7]).cal = d.cal := hserved .cal (by decide)
  have hstored : (d.serveOrWait [7]).calStored = d.calStored :=
    Device.calStored_congr (congrArg Cal.live hcal) (congrArg Cal.backup hcal) (hserved .fire (by decide)) (d.serveOrWait_marks [7])
  have hnow : (d.serveOrWait [7]).calNow = d.calNow := Device.calNow_congr (congrArg Cal.until_ hcal) hstored
  rw [Device.commitSet_eq, Device.mram_open hshut, if_pos rfl, Device.writeSet_cal, hcal, hstored, hnow]

theorem Device.commitSet_shut {d : Device} (hshut : d.power.shut ≠ none) (v : BitVec 37888) : d.commitSet v = d :=
  Device.mram_shut (Option.isSome_iff_ne_none.mpr hshut) true _

/-- A commit writes the stored sets alone, where it writes at all. -/
theorem Device.commitSet_cal (d : Device) (v : BitVec 37888) : (d.commitSet v).cal.full = d.cal.full ∧
    (d.commitSet v).cal.work = d.cal.work ∧ (d.commitSet v).cal.reason = d.cal.reason ∧ (d.commitSet v).cal.ref = d.cal.ref := by
  by_cases hshut : d.power.shut = none
  · rw [Device.commitSet_open_cal hshut]
    exact ⟨rfl, rfl, rfl, rfl⟩
  · rw [Device.commitSet_shut hshut]
    exact ⟨rfl, rfl, rfl, rfl⟩

/-! The end of a full calibration (R207-R209). -/

/-- The device once a full calibration has ended with a reason and its channels' results. -/
def Device.calEnded (d : Device) (reason : Nat) (results : Map CalRes) : Device :=
  d.modCal (fun c => { c with full := none, work := none, reason, results })

theorem Device.calEnded_onlyIn (d : Device) (reason : Nat) (results : Map CalRes) : d.OnlyIn [.cal] (d.calEnded reason results) :=
  d.modCal_onlyIn _

theorem Device.calEnded_stored (d : Device) (reason : Nat) (results : Map CalRes) : (d.calEnded reason results).calStored = d.calStored := rfl

theorem Device.calEnded_now (d : Device) (reason : Nat) (results : Map CalRes) : (d.calEnded reason results).calNow = d.calNow := rfl

/-- A calibration that ends gets one of the reasons 0 to 3; a new set is committed where it is accepted and was to be applied; its
completion and its event write reports alone. -/
theorem Device.calFinish_cases (d : Device) (f : FullCal) : ∃ reason results, reason ≤ 3 ∧
    ((fcApply f.par = true ∧ reason = 0 ∧ ∃ v, ((d.calEnded reason results).commitSet v).Keeps (d.calFinish f)) ∨
      ((fcApply f.par = false ∨ reason ≠ 0) ∧ (d.calEnded reason results).Keeps (d.calFinish f))) := by
  unfold Device.calFinish
  extract_lets old all good reason applied ended stored res
  have hkeeps {x : Device} (hx : stored = x) : x.Keeps ((stored.complete .calFull sOk res).calEvent applied reason) :=
    hx ▸ (stored.complete_keeps _ _ _).trans (Device.calEvent_keeps _ _ _)
  have hreason : reason ≤ 3 := by
    simp only [reason]
    split_ifs <;> omega
  refine ⟨reason, all.map (fun z => (z.ch, ⟨z.good, z.err, z.errSd⟩)), hreason, ?_⟩
  by_cases happlied : applied = true
  · have hstored : stored = ended.commitSet (f.newSet old good ended.cal) := if_pos happlied
    simp only [applied, Bool.and_eq_true, decide_eq_true_eq] at happlied
    obtain ⟨hzero, happly⟩ := happlied
    exact .inl ⟨happly, hzero, _, hkeeps hstored⟩
  · have hstored : stored = ended := if_neg happlied
    refine .inr ⟨?_, hkeeps hstored⟩
    simp only [applied, Bool.and_eq_true, decide_eq_true_eq, not_and] at happlied
    by_cases hzero : reason = 0
    · exact .inl (Bool.eq_false_iff.mpr (happlied hzero))
    · exact .inr hzero

/-- What the end of a full calibration leaves (R204, R208, R400). -/
structure Device.CalEnds (d : Device) (f : FullCal) (x : Device) : Prop where
  full : x.cal.full = none
  work : x.cal.work = none
  reason : x.cal.reason ≤ 3
  ref : x.cal.ref = d.cal.ref
  unapplied : (fcApply f.par = false ∨ x.cal.reason ≠ 0) → x.cal.live = d.cal.live ∧ x.cal.backup = d.cal.backup ∧ x.fire = d.fire
  applied : fcApply f.par = true → x.cal.reason = 0 → d.power.shut = none →
    x.cal.backup = d.cal.backup.put d.calStored.2 ∧ x.cal.until_ = some d.calNow
  only : d.OnlyIn (.cal :: .fire :: .ring :: .bist :: reports) x

theorem Device.CalEnds.keeps {d x y : Device} {f : FullCal} (h : d.CalEnds f x) (hkeeps : x.Keeps y) : d.CalEnds f y := by
  obtain ⟨hfull, hwork, hreason, href, hunapplied, happlied, honly⟩ := h
  have hlast := honly.trans (hkeeps.onlyIn.mono (by decide))
  rw [← hkeeps.cal] at hfull hwork hreason href hunapplied happlied
  rw [← hkeeps.fire] at hunapplied
  exact ⟨hfull, hwork, hreason, href, hunapplied, happlied, hlast⟩

theorem Device.calEnded_ends {d : Device} {f : FullCal} {reason : Nat} (hreason : reason ≤ 3) (results : Map CalRes)
    (hnot : fcApply f.par = false ∨ reason ≠ 0) : d.CalEnds f (d.calEnded reason results) := by
  refine ⟨rfl, rfl, hreason, rfl, fun _ => ⟨rfl, rfl, rfl⟩, fun happly hzero _ => ?_, (d.calEnded_onlyIn _ _).mono (by decide)⟩
  have hzero : reason = 0 := hzero
  exact absurd hnot (by simp [happly, hzero])

theorem Device.calEnded_commitSet_ends {d : Device} {f : FullCal} (results : Map CalRes) (happly : fcApply f.par = true)
    (v : BitVec 37888) : d.CalEnds f ((d.calEnded 0 results).commitSet v) := by
  obtain ⟨hfull, hwork, hzero, href⟩ := (d.calEnded 0 results).commitSet_cal v
  have hzero : ((d.calEnded 0 results).commitSet v).cal.reason = 0 := hzero
  refine ⟨hfull, hwork, by omega, href, fun hnot => absurd hnot (by simp [happly, hzero]), fun _ _ hshut => ?applied,
    ((d.calEnded_onlyIn _ _).mono (by decide)).trans (Device.commitSet_onlyIn _ v)⟩
  case applied =>
    rw [Device.commitSet_open_cal (d := d.calEnded 0 results) hshut, d.calEnded_stored, d.calEnded_now]
    exact ⟨rfl, rfl⟩

theorem Device.calFinish_ends (d : Device) (f : FullCal) : d.CalEnds f (d.calFinish f) := by
  obtain ⟨reason, results, hreason, ⟨happly, rfl, v, hkeeps⟩ | ⟨hnot, hkeeps⟩⟩ := d.calFinish_cases f
  · exact (Device.calEnded_commitSet_ends results happly v).keeps hkeeps
  · exact (Device.calEnded_ends hreason results hnot).keeps hkeeps

section
variable {d : Device} {f : FullCal}

theorem Device.calFullDone_due (hfull : d.cal.full = some f) (hin : fcFrames f.par ≤ f.merged) (hclosed : d.calOpen = false) :
    d.calFullDone = d.calFinish f := by
  unfold Device.calFullDone
  rw [hfull]
  exact if_pos (by simp [hin, hclosed])

/-- A calibration goes on while a frame is missing, or the last can yet be cut (R80, R209). -/
theorem Device.calFullDone_early (hfull : d.cal.full = some f) (h : f.merged < fcFrames f.par ∨ d.calOpen = true) :
    d.calFullDone = d := by
  unfold Device.calFullDone
  rw [hfull]
  refine if_neg fun hdue => ?_
  simp only [Bool.and_eq_true, decide_eq_true_eq, Bool.not_eq_true'] at hdue
  obtain ⟨hin, hclosed⟩ := hdue
  rcases h with hmissing | hopen
  · omega
  · exact absurd hopen (Bool.eq_false_iff.mp hclosed)

end

/-- Settles O34: each row under its guards is one known change of calibration, which the end of the step keeps. -/
theorem calibrationRuns : Obligations.CalibrationRuns := by
  unfold Obligations.CalibrationRuns
  intro s dt m f halive d c
  dsimp only [exec]
  refine ⟨fun hsurvey hpasses hrun hslice hdone hpass hroom =>
      coreRow_modCal halive (Device.refStart_runs hsurvey hpasses hrun hslice hdone hpass hroom),
    fun hbarred => coreRow_idles dt _ s (Device.refStart_barred hbarred), fun t hrun hdue => ?passDone,
    fun t hrun hearly => coreRow_idles dt _ s (Device.refDone_early hrun hearly), fun hon hfresh hdue => ?stale,
    fun hidle => coreRow_idles dt _ s (Device.refStale_idle hidle), fun hfull hin hclosed => ?fullDone,
    fun hfull hearly => coreRow_idles dt _ s (Device.calFullDone_early hfull hearly)⟩
  case passDone =>
    refine (coreRow_modCal halive (Device.refDone_due hrun hdue)).imp fun u ⟨hcal, honly⟩ => ?_
    rw [hcal]
    exact ⟨rfl, rfl, rfl, rfl, Cal.passed_live _ m _, honly, fun n hn => Cal.passed_ref _ m _ hn⟩
  case stale =>
    have hrow := Device.refStale_due hon hfresh hdue
    have honly : d.OnlyIn (.cal :: reports) ((d.modCal (fun c => { c with stale := true })).calEvent false d.cal.reason) :=
      ((d.modCal_onlyIn _).mono (by decide)).trans ((Device.calEvent_onlyIn _ false d.cal.reason).mono (by decide))
    have hcal := (congrArg Device.cal hrow).trans (Device.calEvent_keeps _ _ _).cal
    exact coreRow_calKeeps (g := fun c => { c with stale := true }) halive hcal (hrow ▸ honly)
  case fullDone =>
    obtain ⟨hnone, hwork, hreason, href, hunapplied, happlied, honly⟩ := d.calFinish_ends f
    refine (coreRow_ends halive (Device.calFullDone_due hfull hin hclosed) honly (by decide)).imp fun u ⟨hkeeps, honly⟩ => ?_
    rw [hkeeps.cal, hkeeps.fire]
    exact ⟨hnone, hwork, hreason, href, hunapplied, happlied, honly⟩

end Sys2Proof.Machine
end

section
/-! A subscriber's credit beyond 2^32 cells (R264): a grant passes it by. -/

namespace Sys2Proof.Machine

open Sys2Proof

/-- A grant adds nothing where no subscriber waits for its credit reset and each has more than 2^32 cells: the least credit is then sought
from 2^32 down. -/
theorem Device.takeGrant_beyond {d : Device} (h : ∀ y ∈ d.qs.subs, y.resetZero = false ∧ 2 ^ 32 < y.credit) (p queue cells : Nat) :
    d.takeGrant p queue cells = d := by
  have hleast : ∀ (l : List Nat) (a : Nat), l.foldl min a ≤ a := by
    intro l
    induction l with
    | nil => exact fun a => Nat.le_refl a
    | cons x t ih => exact fun a => (ih _).trans (Nat.min_le_left a x)
  unfold Device.takeGrant
  extract_lets mine least
  have hmine : ∀ y ∈ mine, y.resetZero = false ∧ 2 ^ 32 < y.credit := fun y hy => h y (List.mem_of_mem_filter hy)
  have hzero : mine.find? (fun s => s.resetZero) = none := List.find?_eq_none.mpr fun y hy => by simp [(hmine y hy).1]
  have hnone : mine.find? (fun s => s.credit == least) = none := by
    refine List.find?_eq_none.mpr fun y hy => ?_
    have hle : least ≤ 2 ^ 32 := hleast _ _
    have hgt := (hmine y hy).2
    simp only [beq_iff_eq]
    omega
  rw [hzero, hnone]

/-- A RELIABLE subscriber on node 1 with more than 2^32 cells of credit. -/
def richSub : Sub := { queue := 16, who := 1, st := .active, lease := none, credit := 2 ^ 32 + 1 }

/-- Node 0 of a chain of two, linked at port E, with that subscriber of an outbound RELIABLE queue, to be delivered at queue 20. -/
def richSubscriber : State :=
  { dev := {
      power := { core := .run }
      ring := { ports := #v[{ link := .linked }, {}], members := [⟨0, 0, 0⟩, ⟨1, 1, 0⟩] }
      qs := { qs := [(16, { cfg := .ofNat 128 (fields [(0, 1), (114, 20)]) })], subs := [richSub] } } }

/-- A CREDIT flit with one entry: one cell for node 0, queue 20. -/
def oneCell : BitVec 512 := .ofNat 512 (fields [(0, 1), (64, 1), (114, 20)])

theorem fld_oneCell {hi lo : Nat} : fld oneCell hi lo = fields [(0, 1), (64, 1), (114, 20)] / 2 ^ lo % 2 ^ (hi - lo + 1) := by
  have hfits : fields [(0, 1), (64, 1), (114, 20)] < 2 ^ 512 :=
    Nat.lt_of_lt_of_le (by decide : fields [(0, 1), (64, 1), (114, 20)] < 2 ^ 200)
      (Nat.pow_le_pow_right (by decide) (by decide : 200 ≤ 512))
  rw [fld, oneCell, BitVec.toNat_ofNat, Nat.mod_eq_of_lt hfits]

/-- The entry for this node passes the subscriber by. -/
theorem creditFlit_richSubscriber : (richSubscriber.elapse 0).dev.creditFlit 0 oneCell = (richSubscriber.elapse 0).dev := by
  have hcount : fld oneCell 7 0 = 1 := by rw [fld_oneCell]; decide
  have hnode : nfld (fld oneCell (64 * 0 + 127) (64 * 0 + 64)) 49 45 = (richSubscriber.elapse 0).dev.ring.node := by rw [fld_oneCell]; decide
  have hrich : ∀ y ∈ (richSubscriber.elapse 0).dev.qs.subs, y.resetZero = false ∧ 2 ^ 32 < y.credit := by decide
  have hlive : ((richSubscriber.elapse 0).dev.port 0).live = true := by decide
  unfold Device.creditFlit
  rw [hcount, hlive, Bool.not_true, if_neg Bool.false_ne_true, show List.range (min 7 1) = [0] from rfl, List.foldl_cons, List.foldl_nil]
  dsimp only
  rw [if_pos hnode]
  exact Device.takeGrant_beyond hrich _ _ _

/-- Refutes O29: a grant for a subscriber whose credit is above 2^32 adds nothing to it. -/
theorem not_ringTimers : ¬ Obligations.RingTimers := by
  intro h
  obtain ⟨-, -, -, -, -, -, -, -, -, -, -, -, -, -, hcredit, -⟩ := h richSubscriber 0 .e oneCell 0 0 0 0 (by decide)
  obtain ⟨u, hu, hsubs, -⟩ := hcredit richSub (by decide) (by rw [fld_oneCell]; decide) (by rw [fld_oneCell]; decide) rfl (by decide)
    (by decide) (by rw [fld_oneCell]; decide) (by decide) (by decide) (by decide)
  have hrow : exec (.creditFlit 0 .e oneCell) richSubscriber = .next (State.settle (richSubscriber.elapse 0) richSubscriber.dev) := by
    dsimp only [exec, execCreditFlit]
    exact coreRow_runs (x := (richSubscriber.elapse 0).dev) (by decide) creditFlit_richSubscriber
  have hplain := State.settle_unstreamed (richSubscriber.elapse 0) richSubscriber.dev ⟨rfl, rfl, rfl⟩
  obtain rfl := Host.Outcome.next.inj (hu.symm.trans hrow)
  rw [hplain, fld_oneCell] at hsubs
  exact absurd hsubs (by decide)

end Sys2Proof.Machine
end

section
/-! The sealed parameters held on the C-die (R383): what leaves them alone as a whole. -/

namespace Sys2Proof.Machine

open Sys2Proof

/-! The sealed parameters of a device given by its parts. -/

@[simp] theorem Device.sealedParams_mk (wcp : Wcp) (time : TimeBase) (fire : Fire) (rx : Rx) (hist : Hist) (ret : Ret) (cal : Cal) (ring : Ring)
    (qs : Queues) (cams : Cams) (core : CoreBridge) (field : Field) (bist : Bist) (sec : Sec) (power : Power) (log : Log) (ready : Bool) :
    Device.sealedParams ⟨wcp, time, fire, rx, hist, ret, cal, ring, qs, cams, core, field, bist, sec, power, log, ready⟩ =
      ⟨fire.budget, rx.lens, ret.zmaps, core.rules, bist.cfg, sec.resv⟩ := rfl

@[simp] theorem Device.sealedParams_eta (d : Device) :
    (⟨d.fire.budget, d.rx.lens, d.ret.zmaps, d.core.rules, d.bist.cfg, d.sec.resv⟩ : Sealed) = d.sealedParams := rfl

/-- Where the parts that hold them are kept, so are the sealed parameters. -/
theorem Device.Keeps.sealed {d d' : Device} (h : d.Keeps d') : d'.sealedParams = d.sealedParams := by
  simp only [Device.sealedParams, h.fire, h.rx, h.ret, h.core, h.bist, h.sec]

/-! The operations of a part leave its own parameter alone. -/

@[simp] theorem Bist.putMarks_cfg (b : Bist) (ms : List Mark) : (b.putMarks ms).cfg = b.cfg := by simp only [Bist.putMarks]
@[simp] theorem Bist.setWord_cfg (b : Bist) (n : Nat) (w : Word) : (b.setWord n w).cfg = b.cfg := by simp only [Bist.setWord]

@[simp] theorem Bist.restore_cfg (b : Bist) (n : Nat) : (b.restore n).cfg = b.cfg := by
  unfold Bist.restore
  split <;> rfl

@[simp] theorem Rx.setVbd_lens (r : Rx) (v tc : Nat) : (r.setVbd v tc).lens = r.lens := by simp only [Rx.setVbd]
@[simp] theorem Rx.onStarts_lens (r : Rx) (now : Nat) : (r.onStarts now).lens = r.lens := by simp only [Rx.onStarts]
@[simp] theorem Rx.onEnds_lens (r : Rx) (now : Nat) : (r.onEnds now).lens = r.lens := by simp only [Rx.onEnds]

@[simp] theorem Rx.queueTargets_lens (r : Rx) (g : Group) (hot : List Nat) : (r.queueTargets g hot).lens = r.lens := by
  simp only [Rx.queueTargets]
@[simp] theorem Rx.nextSlot_lens (r : Rx) (len : Nat) : (r.nextSlot len).lens = r.lens := by simp only [Rx.nextSlot]
@[simp] theorem Rx.frameDyn_lens (r : Rx) (layoutOf : BitVec 256 → BitVec 64) (descs : List (BitVec 256)) (offset : Int) (woff : Nat) :
    (r.frameDyn layoutOf descs offset woff).lens = r.lens := by
  simp only [Rx.frameDyn]

@[simp] theorem Rx.surveyCount_lens (r : Rx) (i n : Nat) : (r.surveyCount i n).lens = r.lens := by
  unfold Rx.surveyCount
  split <;> rfl

@[simp] theorem Rx.foldl_lens {α : Type} (f : Rx → α → Rx) (hf : ∀ r a, (f r a).lens = r.lens) (l : List α) (r : Rx) :
    (l.foldl f r).lens = r.lens := by
  induction l generalizing r with
  | nil => rfl
  | cons a t ih => exact (ih _).trans (hf r a)

@[simp] theorem Fire.setLatch_budget (f : Fire) (v : BitVec 64) : (f.setLatch v).budget = f.budget := by simp only [Fire.setLatch]
@[simp] theorem Fire.roll_budget (f : Fire) (gov : Nat) : (f.roll gov).budget = f.budget := by simp only [Fire.roll]

@[simp] theorem Fire.followFrame_budget (f : Fire) (fieldOk : Bool) (ua now : Nat) : (f.followFrame fieldOk ua now).budget = f.budget := by
  unfold Fire.followFrame
  dsimp only
  (repeat' split) <;> rfl

@[simp] theorem Fire.foldl_budget {α : Type} (f : Fire → α → Fire) (hf : ∀ x a, (f x a).budget = x.budget) (l : List α) (x : Fire) :
    (l.foldl f x).budget = x.budget := by
  induction l generalizing x with
  | nil => rfl
  | cons a t ih => exact (ih _).trans (hf x a)

/-! Through a choice and through a fold. -/

@[simp] theorem Device.sealed_ite (c : Prop) [Decidable c] (a b : Device) :
    (if c then a else b).sealedParams = if c then a.sealedParams else b.sealedParams :=
  apply_ite Device.sealedParams c a b

@[simp] theorem Device.sealed_foldl {α : Type} (f : Device → α → Device) (hf : ∀ d a, (f d a).sealedParams = d.sealedParams) (l : List α)
    (d : Device) : (l.foldl f d).sealedParams = d.sealedParams := by
  induction l generalizing d with
  | nil => rfl
  | cons a t ih => exact (ih _).trans (hf d a)

/-- The same of a fold that carries a value beside the device. -/
@[simp] theorem Device.sealed_foldl_fst {α β : Type} (f : Device × β → α → Device × β)
    (hf : ∀ x a, (f x a).1.sealedParams = x.1.sealedParams)
    (l : List α) (x : Device × β) : (l.foldl f x).1.sealedParams = x.1.sealedParams := by
  induction l generalizing x with
  | nil => rfl
  | cons a t ih => exact (ih _).trans (hf x a)

variable (d : Device)

/-! Updates of one part. -/

@[simp] theorem Device.modFire_sealed (f : Fire → Fire) (h : ∀ x, (f x).budget = x.budget) : (d.modFire f).sealedParams = d.sealedParams := by
  simp [Device.modFire, h]

@[simp] theorem Device.modRx_sealed (f : Rx → Rx) (h : ∀ x, (f x).lens = x.lens) : (d.modRx f).sealedParams = d.sealedParams := by
  simp [Device.modRx, h]

@[simp] theorem Device.modRet_sealed (f : Ret → Ret) (h : ∀ x, (f x).zmaps = x.zmaps) : (d.modRet f).sealedParams = d.sealedParams := by
  simp [Device.modRet, h]

@[simp] theorem Device.modCore_sealed (f : CoreBridge → CoreBridge) (h : ∀ x, (f x).rules = x.rules) :
    (d.modCore f).sealedParams = d.sealedParams := by
  simp [Device.modCore, h]

@[simp] theorem Device.modBist_sealed (f : Bist → Bist) (h : ∀ x, (f x).cfg = x.cfg) : (d.modBist f).sealedParams = d.sealedParams := by
  simp [Device.modBist, h]

@[simp] theorem Device.modSec_sealed (f : Sec → Sec) (h : ∀ x, (f x).resv = x.resv) : (d.modSec f).sealedParams = d.sealedParams := by
  simp [Device.modSec, h]

@[simp] theorem Device.modHist_sealed (f : Hist → Hist) : (d.modHist f).sealedParams = d.sealedParams := (rfl)
@[simp] theorem Device.modCal_sealed (f : Cal → Cal) : (d.modCal f).sealedParams = d.sealedParams := (rfl)
@[simp] theorem Device.modRing_sealed (f : Ring → Ring) : (d.modRing f).sealedParams = d.sealedParams := (rfl)
@[simp] theorem Device.modField_sealed (f : Field → Field) : (d.modField f).sealedParams = d.sealedParams := (rfl)
@[simp] theorem Device.modPower_sealed (f : Power → Power) : (d.modPower f).sealedParams = d.sealedParams := (rfl)
@[simp] theorem Device.modLog_sealed (f : Log → Log) : (d.modLog f).sealedParams = d.sealedParams := (rfl)
@[simp] theorem Device.modQ_sealed (n : Nat) (f : Queue → Queue) : (d.modQ n f).sealedParams = d.sealedParams := (rfl)
@[simp] theorem Device.modPort_sealed (p : Nat) (f : RPort → RPort) : (d.modPort p f).sealedParams = d.sealedParams := (rfl)
@[simp] theorem Device.modSession_sealed (n : Nat) (f : Session → Session) : (d.modSession n f).sealedParams = d.sealedParams := (rfl)
@[simp] theorem Device.modCam_sealed (p : Nat) (f : CamPort → CamPort) : (d.modCam p f).sealedParams = d.sealedParams := (rfl)
@[simp] theorem Device.modOut_sealed (k : Nat) (f : Output → Output) : (d.modOut k f).sealedParams = d.sealedParams := (rfl)
@[simp] theorem Device.modSeq_sealed (k : Nat) (f : Seq → Seq) : (d.modSeq k f).sealedParams = d.sealedParams := (rfl)
@[simp] theorem Device.modConv_sealed (k : Nat) (f : Conv → Conv) : (d.modConv k f).sealedParams = d.sealedParams := (rfl)
@[simp] theorem Device.modIn_sealed (k : Nat) (f : Input → Input) : (d.modIn k f).sealedParams = d.sealedParams := (rfl)
@[simp] theorem Device.modGroup_sealed (k : Nat) (f : VGroup → VGroup) : (d.modGroup k f).sealedParams = d.sealedParams := (rfl)

/-! Events, records, queues and the protocol. -/

@[simp] theorem Device.raise_sealed (id source payload : Nat) : (d.raise id source payload).sealedParams = d.sealedParams :=
  (d.raise_keeps ..).sealed
@[simp] theorem Device.limited_sealed (ev source sub len payload add : Nat) (first : Bool) :
    (d.limited ev source sub len payload add first).sealedParams = d.sealedParams := (d.limited_keeps ..).sealed
@[simp] theorem Device.count_sealed (i n : Nat) : (d.count i n).sealedParams = d.sealedParams := (d.count_keeps ..).sealed
@[simp] theorem Device.queueRec_sealed (r : PendRec) : (d.queueRec r).sealedParams = d.sealedParams := (d.queueRec_keeps ..).sealed
@[simp] theorem Device.record_sealed (kind source severity : Nat) (payload : Bytes) :
    (d.record kind source severity payload).sealedParams = d.sealedParams := (d.record_keeps ..).sealed
@[simp] theorem Device.raiseRec_sealed (id source payload kind severity : Nat) (extra : Bytes) :
    (d.raiseRec id source payload kind severity extra).sealedParams = d.sealedParams := (d.raiseRec_keeps ..).sealed
@[simp] theorem Device.integrityN_sealed (cls idx act n : Nat) : (d.integrityN cls idx act n).sealedParams = d.sealedParams :=
  (d.integrityN_keeps ..).sealed
@[simp] theorem Device.checkPair_sealed (ok : Bool) (cls idx act : Nat) : (d.checkPair ok cls idx act).sealedParams = d.sealedParams :=
  (d.checkPair_keeps ..).sealed
@[simp] theorem Device.counterRead_sealed (i : Nat) : (d.counterRead i).sealedParams = d.sealedParams := (d.counterRead_keeps i).sealed
@[simp] theorem Device.lcUsed_sealed : d.lcUsed.sealedParams = d.sealedParams := d.lcUsed_keeps.sealed
@[simp] theorem Device.rightsRead_sealed (id : Nat) (sealed : Bool) : (d.rightsRead id sealed).sealedParams = d.sealedParams :=
  (d.rightsRead_keeps ..).sealed
@[simp] theorem Device.countDrop_sealed (n reason useq : Nat) : (d.countDrop n reason useq).sealedParams = d.sealedParams :=
  (d.countDrop_near ..).keeps.sealed
@[simp] theorem Device.putUnit_sealed (n src : Nat) (mayWait : Bool) (mk : Nat → Bytes) :
    (d.putUnit n src mayWait mk).1.sealedParams = d.sealedParams := (d.putUnit_keeps ..).sealed
@[simp] theorem Device.putStream_sealed (n : Nat) (mayWait : Bool) (flags type recsize records info : Nat) (body : Bytes) :
    (d.putStream n mayWait flags type recsize records info body).1.sealedParams = d.sealedParams := (d.putStream_near ..).keeps.sealed
@[simp] theorem Device.grant_sealed (queue node cells : Nat) : (d.grant queue node cells).sealedParams = d.sealedParams :=
  (d.grant_near ..).keeps.sealed
@[simp] theorem Device.take_sealed (n who useq : Nat) : (d.take n who useq).sealedParams = d.sealedParams := (d.take_keeps ..).sealed
@[simp] theorem Device.sendMsg_sealed (node queue : Nat) (msg : Bytes) : (d.sendMsg node queue msg).1.sealedParams = d.sealedParams :=
  (d.sendMsg_keeps ..).sealed
@[simp] theorem Device.closeSession_sealed (n reason : Nat) : (d.closeSession n reason).sealedParams = d.sealedParams :=
  (d.closeSession_keeps ..).sealed
@[simp] theorem Device.reply_sealed (node queue : Nat) (body : Bytes) (first : Bool) :
    (d.reply node queue body first).sealedParams = d.sealedParams := (d.reply_keeps ..).sealed
@[simp] theorem Device.finish_sealed (w : Wait) (status : Nat) (result : Bytes) : (d.finish w status result).sealedParams = d.sealedParams :=
  (d.finish_keeps ..).sealed
@[simp] theorem Device.complete_sealed (k : WaitKind) (status : Nat) (result : Bytes) :
    (d.complete k status result).sealedParams = d.sealedParams := (d.complete_keeps ..).sealed
@[simp] theorem Device.accept_sealed (e : Env) (sealed : Bool) : (d.accept e sealed).sealedParams = d.sealedParams := (d.accept_keeps ..).sealed
@[simp] theorem Device.replayPath_sealed (e : Env) : (d.replayPath e).sealedParams = d.sealedParams := (d.replayPath_keeps e).sealed
@[simp] theorem State.deliver_sealed (s : State) (o : Origin) (path : Path) (r : Bytes) :
    (s.deliver o path r).dev.sealedParams = s.dev.sealedParams := (s.deliver_keeps ..).sealed
@[simp] theorem State.settle_sealed (s : State) (old : Device) : (s.settle old).dev.sealedParams = s.dev.sealedParams :=
  (s.settle_keeps old).sealed

end Sys2Proof.Machine
end

section
/-! Events, slices, cells, the command protocol and the functions leave the sealed parameters alone (R383). -/

namespace Sys2Proof.Machine

open Sys2Proof

variable (d : Device)

@[simp] theorem Device.raiseAt_sealed (time : BitVec 64) (id source payload : Nat) :
    (d.raiseAt time id source payload).sealedParams = d.sealedParams := by
  simp [Device.raiseAt]

@[simp] theorem Device.windowEnd_sealed (ev source sub : Nat) : (d.windowEnd ev source sub).sealedParams = d.sealedParams := by
  unfold Device.windowEnd
  split <;> simp

@[simp] theorem Device.countShutdown_sealed (c : Cause) : (d.countShutdown c).sealedParams = d.sealedParams := by simp [Device.countShutdown]

@[simp] theorem Device.raiseRecAt_sealed (time : BitVec 64) (id source payload kind severity : Nat) (extra : Bytes) :
    (d.raiseRecAt time id source payload kind severity extra).sealedParams = d.sealedParams := by
  simp [Device.raiseRecAt]

@[simp] theorem Device.integrity_sealed (cls idx act : Nat) : (d.integrity cls idx act).sealedParams = d.sealedParams := by simp [Device.integrity]
@[simp] theorem Device.intact_sealed (cls idx : Nat) : (d.intact cls idx).sealedParams = d.sealedParams := by simp [Device.intact]

@[simp] theorem Device.sliceCut_sealed (x : SliceRun) (cause aborts : Nat) (r : Option SliceResult) (put : Bist → Bist)
    (hput : ∀ b, (put b).cfg = b.cfg) : (d.sliceCut x cause aborts r put).sealedParams = d.sealedParams := by
  simp [Device.sliceCut, Device.bistIncomplete, hput]

@[simp] theorem Device.sliceAbort_sealed (bus : Bool) : (d.sliceAbort bus).sealedParams = d.sealedParams := by
  unfold Device.sliceAbort
  split <;> simp

@[simp] theorem Device.sliceLoss_sealed (cause : Nat) : (d.sliceLoss cause).sealedParams = d.sealedParams := by
  unfold Device.sliceLoss
  split <;> simp

@[simp] theorem Device.serve_sealed (rows : List Nat) : (d.serve rows).sealedParams = d.sealedParams := by simp [Device.serve]
@[simp] theorem Device.serveOrWait_sealed (rows : List Nat) : (d.serveOrWait rows).sealedParams = d.sealedParams := by simp [Device.serveOrWait]

@[simp] theorem Device.mram_sealed (general : Bool) (write : Device → Device) (h : ∀ d, (write d).sealedParams = d.sealedParams) :
    (d.mram general write).sealedParams = d.sealedParams := by
  unfold Device.mram
  split
  · rfl
  · rw [h]; split <;> simp

@[simp] theorem Device.serveBank_sealed (b : Nat) (waits : Bool) : (d.serveBank b waits).sealedParams = d.sealedParams := by simp [Device.serveBank]

@[simp] theorem Device.dropUnit_sealed (n : Nat) (u : QUnit) (reason : Nat) : (d.dropUnit n u reason).sealedParams = d.sealedParams :=
  (d.dropUnit_near ..).keeps.sealed

@[simp] theorem Device.findCells_sealed (n : Nat) (need : Queue → Nat) (k : Nat) : (d.findCells n need k).1.sealedParams = d.sealedParams :=
  (d.findCells_near ..).keeps.sealed

@[simp] theorem Device.putStreamAt_sealed (time n : Nat) (mayWait : Bool) (flags type recsize records info : Nat) (body : Bytes) :
    (d.putStreamAt time n mayWait flags type recsize records info body).1.sealedParams = d.sealedParams := (d.putStreamAt_near ..).keeps.sealed

@[simp] theorem Device.closeEvents_sealed : (d.closeEvents).sealedParams = d.sealedParams := (d.closeEvents_near).keeps.sealed

@[simp] theorem Device.bind_sealed (b : Binder) (old new : Nat) : (d.bind b old new).sealedParams = d.sealedParams := by simp [Device.bind]

@[simp] theorem Device.modLastReply_sealed (f : Reply → Reply) : (d.modLastReply f).sealedParams = d.sealedParams := by
  unfold Device.modLastReply
  split <;> simp

@[simp] theorem Device.scheduleReset_sealed (len : Nat) (cause : Cause) : (d.scheduleReset len cause).sealedParams = d.sealedParams := by
  simp [Device.scheduleReset]

@[simp] theorem Device.completeFirst_sealed (k : WaitKind) (status : Nat) (result : Bytes) :
    (d.completeFirst k status result).sealedParams = d.sealedParams := by
  unfold Device.completeFirst
  split <;> simp

@[simp] theorem Device.putFn_sealed (i : FnId) (f : Fn) : (d.putFn i f).sealedParams = d.sealedParams := by
  unfold Device.putFn
  split <;> simp

@[simp] theorem Device.modFn_sealed (i : FnId) (f : Fn → Fn) : (d.modFn i f).sealedParams = d.sealedParams := by simp [Device.modFn]
@[simp] theorem Device.reachOn_sealed (i : FnId) : (d.reachOn i).sealedParams = d.sealedParams := by simp [Device.reachOn]
@[simp] theorem Device.reachOff_sealed (i : FnId) (minOff : Nat) : (d.reachOff i minOff).sealedParams = d.sealedParams := by simp [Device.reachOff]
@[simp] theorem Device.beginStop_sealed (i : FnId) (len : Nat) : (d.beginStop i len).sealedParams = d.sealedParams := by simp [Device.beginStop]

@[simp] theorem Device.faultStop_sealed (i : FnId) (len : Nat) : (d.faultStop i len).sealedParams = d.sealedParams := by
  unfold Device.faultStop
  split <;> simp

@[simp] theorem Device.enableFn_sealed (i : FnId) (slow : Bool) (start : Device → Device) (h : ∀ d, (start d).sealedParams = d.sealedParams) :
    (d.enableFn i slow start).1.sealedParams = d.sealedParams := by
  unfold Device.enableFn
  dsimp only
  split <;> simp [h]

@[simp] theorem Device.disableFn_sealed (i : FnId) (slow : Bool) (stop : Device → Device) (h : ∀ d, (stop d).sealedParams = d.sealedParams) :
    (d.disableFn i slow stop).1.sealedParams = d.sealedParams := by
  unfold Device.disableFn
  dsimp only
  split <;> simp [h]

end Sys2Proof.Machine
end

section
/-! Sealed parameters, plans, the receiver, histograms, returns and the calibration leave the sealed parameters alone (R383). -/

namespace Sys2Proof.Machine

open Sys2Proof

variable (d : Device)

@[simp] theorem Device.replyGone_sealed (r : Reply) (rest : List Reply) (lost : Nat) : (d.replyGone r rest lost).sealedParams = d.sealedParams := by
  unfold Device.replyGone
  split <;> simp

@[simp] theorem Device.retryReply_sealed (accepted : Bool) : (d.retryReply accepted).sealedParams = d.sealedParams := by
  unfold Device.retryReply
  split <;> simp [Device.replyAgain]

@[simp] theorem Device.sessionOpen_sealed (e : Env) (d : Device) : (d.sessionOpen e).1.sealedParams = d.sealedParams := by
  unfold Device.sessionOpen
  dsimp only
  (repeat' split) <;> simp [Device.openSession]

@[simp] theorem Device.resetAfterReply_sealed (old new : Device) : (old.resetAfterReply new).sealedParams = new.sealedParams :=
  (Device.resetAfterReply_keeps old new).sealed

@[simp] theorem Device.sealRecord_sealed (x : SealPart) : (d.sealRecord x).sealedParams = d.sealedParams := by simp [Device.sealRecord]

@[simp] theorem Device.sealChange_sealed (c : Ctx) (cmdId order old : Nat) : (d.sealChange c cmdId order old).sealedParams = d.sealedParams := by
  simp [Device.sealChange]

@[simp] theorem Device.pendingEffect_sealed (order : Nat) (v : Bool) : (d.pendingEffect order v).sealedParams = d.sealedParams := by
  simp [Device.pendingEffect]

@[simp] theorem Device.recoverParam_sealed (order : Nat) : (d.recoverParam order).sealedParams = d.sealedParams := by simp [Device.recoverParam]

@[simp] theorem Device.commitPlan_sealed (plan : Nat) : (d.commitPlan plan).1.sealedParams = d.sealedParams := by
  unfold Device.commitPlan
  split <;> simp

@[simp] theorem Device.dirty_sealed : (d.dirty).sealedParams = d.sealedParams := by simp [Device.dirty]
@[simp] theorem Device.dirtyGroup_sealed : (d.dirtyGroup).sealedParams = d.sealedParams := by simp [Device.dirtyGroup]

@[simp] theorem Device.vbdDone_sealed (counts : List Nat) : (d.vbdDone counts).sealedParams = d.sealedParams := by
  unfold Device.vbdDone
  split <;> simp

@[simp] theorem Device.holdoffTimer_sealed : (d.holdoffTimer).sealedParams = d.sealedParams := by
  unfold Device.holdoffTimer
  split <;> simp

@[simp] theorem Device.surveyDone_sealed (counts : List Nat) : (d.surveyDone counts).sealedParams = d.sealedParams := by
  unfold Device.surveyDone
  split <;> simp

@[simp] theorem Device.abandonUnit_sealed (p reason : Nat) : (d.abandonUnit p reason).sealedParams = d.sealedParams := by simp [Device.abandonUnit]
@[simp] theorem Device.histEvent_sealed : (d.histEvent).sealedParams = d.sealedParams := by simp [Device.histEvent]
@[simp] theorem Device.exportStart_sealed : (d.exportStart).sealedParams = d.sealedParams := by simp [Device.exportStart]
@[simp] theorem Device.exportStop_sealed : (d.exportStop).sealedParams = d.sealedParams := by simp [Device.exportStop]
@[simp] theorem Device.exportOff_sealed : (d.exportOff).sealedParams = d.sealedParams := by simp [Device.exportOff]

@[simp] theorem Device.holdTimeout_sealed : (d.holdTimeout).sealedParams = d.sealedParams := by
  unfold Device.holdTimeout
  split <;> simp

@[simp] theorem Device.writeOcc_sealed (b : BitVec 768) : (d.writeOcc b).sealedParams = d.sealedParams := by simp [Device.writeOcc, Device.zoneEvents]
@[simp] theorem Device.setZones_sealed (f : Nat → Nat × Nat → Nat × Nat) :
    (d.setZones f).sealedParams = d.sealedParams := by simp [Device.setZones]

@[simp] theorem Device.lookZone_sealed (m : BitVec 8320) (map z : Nat) (l : Option (Bool × Nat)) (p : Nat × Nat) :
    (d.lookZone m map z l p).1.sealedParams = d.sealedParams := by
  unfold Device.lookZone
  split <;> simp

@[simp] theorem Device.zoneWatch_sealed (m : BitVec 8320) (ok : Bool) (map : Nat) (offset : Int) (frame group : Nat) (chans : List ZoneChan) :
    (d.zoneWatch m ok map offset frame group chans).sealedParams = d.sealedParams := by
  unfold Device.zoneWatch
  split
  · rfl
  · simp

@[simp] theorem Device.zoneBlind_sealed (z : Nat) : (d.zoneBlind z).sealedParams = d.sealedParams := by
  unfold Device.zoneBlind
  split <;> simp

@[simp] theorem Device.zmapsStart_sealed : d.zmapsStart.sealedParams = d.sealedParams := by
  unfold Device.zmapsStart
  split
  · rfl
  · lift_lets
    extract_lets changed loaded
    exact (Device.pendingEffect_sealed _ 3 false).trans (loaded.setZones_sealed _)

@[simp] theorem Device.windowSlot_sealed (s : Nat) : (d.windowSlot s).sealedParams = d.sealedParams := by
  unfold Device.windowSlot
  dsimp only
  (repeat' split) <;> simp

@[simp] theorem Device.learnDone_sealed : (d.learnDone).sealedParams = d.sealedParams := by
  unfold Device.learnDone
  split <;> simp

@[simp] theorem Device.calEvent_sealed (applied : Bool) (reason : Nat) : (d.calEvent applied reason).sealedParams = d.sealedParams := by
  simp [Device.calEvent]

@[simp] theorem Device.refDone_sealed (m : List Int) : (d.refDone m).sealedParams = d.sealedParams := by
  unfold Device.refDone
  split <;> simp

@[simp] theorem Device.commitSet_sealed (v : BitVec 37888) : (d.commitSet v).sealedParams = d.sealedParams := by simp [Device.commitSet]
@[simp] theorem Device.calAbort_sealed : (d.calAbort).sealedParams = d.sealedParams := by simp [Device.calAbort]

@[simp] theorem Device.calGroup_sealed (g : Group) (seen : List CalSeen) : (d.calGroup g seen).sealedParams = d.sealedParams := by
  unfold Device.calGroup
  split <;> simp

@[simp] theorem Device.calFullDone_sealed : (d.calFullDone).sealedParams = d.sealedParams := by
  unfold Device.calFullDone
  split <;> simp [Device.calFinish]

@[simp] theorem Device.notExported_sealed : (d.notExported).sealedParams = d.sealedParams := by simp [Device.notExported]

@[simp] theorem Device.takePlane_sealed (g : Group) : (d.takePlane g).sealedParams = d.sealedParams := by
  unfold Device.takePlane
  (repeat' split) <;> simp

@[simp] theorem Device.emptyUnit_sealed (g : Group) : (d.emptyUnit g).1.sealedParams = d.sealedParams := by
  unfold Device.emptyUnit
  split <;> simp

@[simp] theorem Device.handover_sealed : (d.handover).sealedParams = d.sealedParams := by
  unfold Device.handover
  (repeat' split) <;> simp [Device.rateHandover, Device.trackDelays]

@[simp] theorem Device.captureHold_sealed (g : Group) (exports : Bool) : (d.captureHold g exports).sealedParams = d.sealedParams := by
  unfold Device.captureHold
  split <;> simp

@[simp] theorem Device.procStart_sealed : (d.procStart).sealedParams = d.sealedParams := by
  unfold Device.procStart
  (repeat' split) <;> simp

@[simp] theorem Device.procEnd_sealed : (d.procEnd).sealedParams = d.sealedParams := by
  unfold Device.procEnd
  (repeat' split) <;> simp [Device.procFinish, Device.windowGroup, Device.windowFrame, Device.closePlane]

@[simp] theorem Device.exportChunk_sealed : (d.exportChunk).sealedParams = d.sealedParams := by
  unfold Device.exportChunk
  dsimp only
  (repeat' split) <;> simp [Device.drained]

@[simp] theorem Device.importEvent_sealed (reason : Nat) : (d.importEvent reason).sealedParams = d.sealedParams := by simp [Device.importEvent]

@[simp] theorem Device.importDequeue_sealed : (d.importDequeue).sealedParams = d.sealedParams := by
  unfold Device.importDequeue
  dsimp only
  (repeat' split) <;> simp

@[simp] theorem Device.importDone_sealed : (d.importDone).sealedParams = d.sealedParams := by
  unfold Device.importDone
  dsimp only
  (repeat' split) <;> simp

end Sys2Proof.Machine
end

section
/-! Triggers, starts and stops, frames and groups leave the sealed parameters alone (R383). -/

namespace Sys2Proof.Machine

open Sys2Proof

variable (d : Device)

@[simp] theorem Device.fireEvent_sealed : (d.fireEvent).sealedParams = d.sealedParams := by simp [Device.fireEvent]
@[simp] theorem Device.countTrig_sealed : (d.countTrig).sealedParams = d.sealedParams := by simp [Device.countTrig]
@[simp] theorem Device.acceptTrig_sealed (t : Trig) : (d.acceptTrig t).sealedParams = d.sealedParams := by simp [Device.acceptTrig]

@[simp] theorem Device.promote_sealed : (d.promote).sealedParams = d.sealedParams := by
  unfold Device.promote
  split <;> simp

@[simp] theorem Device.holdTrig_sealed (t : Trig) : (d.holdTrig t).sealedParams = d.sealedParams := by simp [Device.holdTrig]

@[simp] theorem Device.restartTrig_sealed (t : Trig) : (d.restartTrig t).sealedParams = d.sealedParams := by
  unfold Device.restartTrig
  (repeat' split) <;> simp [Device.endFrameNow]

@[simp] theorem Device.trigger_sealed (t : Trig) : (d.trigger t).sealedParams = d.sealedParams := by simp [Device.trigger]
@[simp] theorem Device.reportTrig_sealed : (d.reportTrig).sealedParams = d.sealedParams := by simp [Device.reportTrig]
@[simp] theorem Device.calHoldCheck_sealed : (d.calHoldCheck).sealedParams = d.sealedParams := by simp [Device.calHoldCheck]
@[simp] theorem Device.applyTrigger_sealed (src pol : Nat) : (d.applyTrigger src pol).sealedParams = d.sealedParams := by simp [Device.applyTrigger]
@[simp] theorem Device.internalTrigger_sealed : (d.internalTrigger).sealedParams = d.sealedParams := by simp [Device.internalTrigger]

@[simp] theorem Device.calendarInstant_sealed : (d.calendarInstant).sealedParams = d.sealedParams := by
  unfold Device.calendarInstant
  split <;> simp

@[simp] theorem Device.calendarEpoch_sealed : (d.calendarEpoch).sealedParams = d.sealedParams := by
  unfold Device.calendarEpoch
  split <;> simp

@[simp] theorem Device.setCalendar_sealed (c : BitVec 2176) : (d.setCalendar c).sealedParams = d.sealedParams := by simp [Device.setCalendar]

@[simp] theorem Device.rawUnit_sealed (g : Group) : (d.rawUnit g).sealedParams = d.sealedParams := by
  unfold Device.rawUnit
  split <;> simp

@[simp] theorem Device.openGap_sealed : (d.openGap).sealedParams = d.sealedParams := by simp [Device.openGap]

@[simp] theorem Device.endGroup_sealed (g : Group) : (d.endGroup g).sealedParams = d.sealedParams := by
  unfold Device.endGroup
  lift_lets
  extract_lets f whole cut late g' closed hot queued marked ended stopped gapped
  have hended : ended.sealedParams = d.sealedParams := by simp [ended, marked, queued, closed, Fire.endRuns]
  clear_value ended
  split
  · split <;> simp [gapped, stopped, hended]
  · exact hended

@[simp] theorem Device.enterStopping_sealed : (d.enterStopping).sealedParams = d.sealedParams := by
  unfold Device.enterStopping
  dsimp only
  (repeat' split) <;> simp

@[simp] theorem Device.fireFaultStop_sealed : (d.fireFaultStop).sealedParams = d.sealedParams := by simp [Device.fireFaultStop]
@[simp] theorem Device.fireStart_sealed : (d.fireStart).sealedParams = d.sealedParams := by simp [Device.fireStart]
@[simp] theorem Device.enterOn_sealed : (d.enterOn).sealedParams = d.sealedParams := by simp [Device.enterOn]

@[simp] theorem Device.cancelEdges_sealed (t : Nat) : (d.cancelEdges t).sealedParams = d.sealedParams := by
  unfold Device.cancelEdges
  split
  · rfl
  · lift_lets
    extract_lets f off slots freed gone
    have hfreed : freed.budget = f.budget := by
      refine Fire.foldl_budget _ (fun x s => ?_) off f
      rfl
    have hgone : (d.modFire fun _ => freed).sealedParams = d.sealedParams := by simp [Device.modFire, hfreed, f]
    exact hgone

@[simp] theorem Device.startExport_sealed : (d.startExport).sealedParams = d.sealedParams := by simp [Device.startExport]

@[simp] theorem Device.fireStopDone_sealed : (d.fireStopDone).sealedParams = d.sealedParams := by
  unfold Device.fireStopDone
  (repeat' split) <;> simp [Device.fireOff]

@[simp] theorem Device.budgetCheck_sealed : d.budgetCheck.sealedParams = d.sealedParams := by
  unfold Device.budgetCheck
  (repeat' split) <;> simp [Fire.restartSums]

@[simp] theorem Device.biasEvent_sealed (applied : Nat) (began : Bool) : (d.biasEvent applied began).sealedParams = d.sealedParams := by
  simp [Device.biasEvent]

@[simp] theorem Device.holdStart_sealed : (d.holdStart).sealedParams = d.sealedParams := by simp [Device.holdStart]
@[simp] theorem Device.startPlan_sealed (frame : Nat) : (d.startPlan frame).sealedParams = d.sealedParams := by simp [Device.startPlan]
@[simp] theorem Device.startRx_sealed : (d.startRx).sealedParams = d.sealedParams := by simp [Device.startRx]

@[simp] theorem Device.startCal_sealed (changed : Bool) (frame : Nat) : (d.startCal changed frame).sealedParams = d.sealedParams := by
  unfold Device.startCal
  dsimp only
  (repeat' split) <;> simp

@[simp] theorem Device.channelEvent_sealed (code ch : Nat) (bySelfTest : Bool) (spare : Option Nat) :
    (d.channelEvent code ch bySelfTest spare).sealedParams = d.sealedParams := by
  simp [Device.channelEvent]

@[simp] theorem Device.startSpares_sealed (layouts : List (BitVec 64)) : (d.startSpares layouts).sealedParams = d.sealedParams := by
  simp [Device.startSpares]

@[simp] theorem Device.startTables_sealed : (d.startTables).sealedParams = d.sealedParams := by simp [Device.startTables]

@[simp] theorem Device.frameBegin_sealed : d.frameBegin.sealedParams = d.sealedParams := by
  unfold Device.frameBegin
  lift_lets
  extract_lets frame reported applied planned seeded followed changed received calibrated descs layoutOf freed tabled cams synced started
  have happlied : applied.sealedParams = d.sealedParams := by
    simp only [applied]
    split <;> simp [reported]
  have hfollowed : followed.sealedParams = d.sealedParams := by simp [followed, seeded, planned, happlied]
  clear_value followed
  have hstarted : started.sealedParams = d.sealedParams := by
    simp [started, synced, tabled, freed, calibrated, received, hfollowed, Fire.startFrame]
  clear_value started
  exact hstarted

@[simp] theorem Device.startBias_sealed (off : Int) : (d.startBias off).sealedParams = d.sealedParams := by simp [Device.startBias]
@[simp] theorem Device.startLin_sealed : d.startLin.sealedParams = d.sealedParams := by simp [Device.startLin]
@[simp] theorem Device.startMap_sealed (i : Nat) : (d.startMap i).sealedParams = d.sealedParams := by simp [Device.startMap]
@[simp] theorem Device.hotEvents_sealed (l : List (Nat × ChState × Nat)) : (d.hotEvents l).sealedParams = d.sealedParams := by
  simp [Device.hotEvents]

@[simp] theorem Device.groupBegin_sealed (q : QueuedGroup) (rest : List QueuedGroup) (off : Int) :
    (d.groupBegin q rest off).sealedParams = d.sealedParams := by
  simp [Device.groupBegin, Device.calCheck]

@[simp] theorem Device.groupStart_sealed (off : Int) : (d.groupStart off).sealedParams = d.sealedParams := by
  unfold Device.groupStart
  dsimp only
  (repeat' split) <;> simp

@[simp] theorem Device.doseEvent_sealed (f : Fire) (g : Group) (s : Nat) :
    (d.doseEvent f g s).sealedParams = d.sealedParams := by simp [Device.doseEvent]

@[simp] theorem Device.tap_sealed (g : Group) (ch : Nat) (w : Word) : (d.tap g ch w).sealedParams = d.sealedParams := by
  unfold Device.tap
  split <;> simp

@[simp] theorem Device.accepted_sealed (g : Group) (x : SlotRun) (ch t : Nat) (sh : ChShot) :
    (d.accepted g x ch t sh).sealedParams = d.sealedParams := by
  simp [Device.accepted]

@[simp] theorem Device.photon_sealed (ch t : Nat) (ages : List Nat) : (d.photon ch t ages).sealedParams = d.sealedParams := by
  unfold Device.photon
  (repeat' split) <;> simp

end Sys2Proof.Machine
end

section
/-! What the ring's reports, messages and take-backs leave alone: a node's standing in the ring and the state of its links (R218, R235, R261). -/

namespace Sys2Proof.Machine

open Sys2Proof

/-- A port but for the frames, the credit entries and the messages that wait at it. -/
def RPort.standing (x : RPort) : RPort := { x with x9 := [], grants := [], topoOut := [] }

/-- The ring but for its ports, what its messages are counted and repeated by, the requests of this node, the allowances and the way to a
head. -/
def Ring.standing (r : Ring) : Ring :=
  { r with
    ports := Vector.replicate 2 {}, lostFrames := 0, seen := [], topoSeq := 0, wcpSeq := [], membersAt := 0, allowE := 0, allowW := 0
    reqs := [], hops := 0, parent := 0, noPathSince := none, sfSinceHead := 0, electing := false }

/-- Two devices that differ at most in the queues, the log, the protocol with no wait more, and in what `standing` leaves out. -/
structure Device.Posts (d d' : Device) : Prop where
  keeps : d.Keeps d'
  waits : ∀ w ∈ d'.wcp.waits, w ∈ d.wcp.waits
  ring : d'.ring.standing = d.ring.standing
  port : ∀ p, (d'.port p).standing = (d.port p).standing

theorem Device.Posts.refl (d : Device) : d.Posts d := ⟨.refl d, fun _ h => h, rfl, fun _ => rfl⟩

theorem Device.Posts.trans {a b c : Device} (h : a.Posts b) (k : b.Posts c) : a.Posts c :=
  ⟨h.keeps.trans k.keeps, fun w hw => h.waits w (k.waits w hw), k.ring.trans h.ring, fun p => (k.port p).trans (h.port p)⟩

theorem Device.Posts.onlyIn {d d' : Device} (h : d.Posts d') : d.OnlyIn (.ring :: reports) d' := h.keeps.onlyIn

/-- The parts named above differ at most, and the ring not at all. -/
theorem Device.Posts.of_ring {d d' : Device} (hkeeps : d.Keeps d') (hwaits : ∀ w ∈ d'.wcp.waits, w ∈ d.wcp.waits) (hring : d'.ring = d.ring) :
    d.Posts d' :=
  ⟨hkeeps, hwaits, by rw [hring], fun p => by rw [Device.port, hring, Device.port]⟩

theorem Device.Near.posts {d d' : Device} (h : d.Near d') : d.Posts d' :=
  ⟨h.keeps, fun _ hw => h.waits ▸ hw, by have e := congrArg Ring.standing h.ring; exact e,
    fun p => by have e := congrArg RPort.standing (h.base p); exact e⟩

theorem Device.posts_foldl {α : Type} (f : Device → α → Device) (hf : ∀ (d : Device) a, d.Posts (f d a)) (l : List α) (d : Device) :
    d.Posts (l.foldl f d) := by
  induction l generalizing d with
  | nil => exact .refl d
  | cons a t ih => exact (hf d a).trans (ih (f d a))

theorem Device.Posts.ite {c : Prop} [Decidable c] {d a b : Device} (ha : d.Posts a) (hb : d.Posts b) : d.Posts (if c then a else b) := by
  split
  · exact ha
  · exact hb

variable (d : Device)

/-! Updates of one part. -/

theorem Device.modRing_posts (f : Ring → Ring) (hf : ∀ r, (f r).standing = r.standing := by exact fun _ => rfl)
    (hp : ∀ r, (f r).ports = r.ports := by exact fun _ => rfl) :
    d.Posts (d.modRing f) :=
  ⟨d.modRing_keeps f, fun _ h => h, hf d.ring, fun p => congrArg (fun v => (vget v p {}).standing) (hp d.ring)⟩

/-- A port after a change of one. -/
theorem Device.port_modPort (p q : Nat) (f : RPort → RPort) :
    (d.modPort p f).port q = if p = q ∧ p < 2 then f (d.port q) else d.port q := by
  unfold Device.modPort Device.port
  by_cases hp : p < 2
  · by_cases hq : p = q
    · subst hq; simp [hp]
    · simp [hq]
  · simp [hp, vmod]

theorem Device.modPort_posts (p : Nat) (f : RPort → RPort) (hf : ∀ x, (f x).standing = x.standing := by exact fun _ => rfl) :
    d.Posts (d.modPort p f) :=
  ⟨d.modPort_keeps p f, fun _ h => h, rfl, fun q => by
    rw [d.port_modPort]
    split
    · exact hf _
    · rfl⟩

theorem Device.posts_qs (q : Queues) : d.Posts { d with qs := q } := (d.near_qs q).posts
theorem Device.modQ_posts (n : Nat) (f : Queue → Queue) : d.Posts (d.modQ n f) := (d.modQ_near n f).posts
theorem Device.raise_posts (id source payload : Nat) : d.Posts (d.raise id source payload) := (d.raise_near ..).posts

/-! Completions and checks. -/

theorem Device.sendMsg_posts (node queue : Nat) (msg : Bytes) : d.Posts (d.sendMsg node queue msg).1 := by
  unfold Device.sendMsg
  split
  · exact (d.putUnit_near ..).posts
  · split
    · exact .refl d
    · dsimp only
      refine Device.Posts.trans ?_ (Device.modRing_posts _ _)
      exact d.modPort_posts _ _

theorem Device.reply_posts (node queue : Nat) (body : Bytes) (first : Bool) : d.Posts (d.reply node queue body first) := by
  unfold Device.reply
  dsimp only
  split <;> exact (d.sendMsg_posts _ _ _).trans (.of_ring ⟨rfl, rfl, rfl, rfl, rfl, rfl, rfl, rfl, rfl, rfl, rfl, rfl, rfl⟩ (fun _ h => h) rfl)

theorem Device.finish_posts (w : Wait) (status : Nat) (result : Bytes) : d.Posts (d.finish w status result) := by
  unfold Device.finish
  dsimp only
  refine Device.Posts.trans ?_ (Device.posts_foldl _ (fun d p => ?_) _ _)
  · exact .of_ring ⟨rfl, rfl, rfl, rfl, rfl, rfl, rfl, rfl, rfl, rfl, rfl, rfl, rfl⟩ (fun _ h => h) rfl
  · cases p with
    | spi => exact .refl d
    | ring node queue => exact d.reply_posts _ _ _ _

theorem Device.complete_posts (k : WaitKind) (status : Nat) (result : Bytes) : d.Posts (d.complete k status result) := by
  refine Device.Posts.trans ?_ (Device.posts_foldl _ (fun d w => d.finish_posts w status result) _ _)
  exact .of_ring ⟨rfl, rfl, rfl, rfl, rfl, rfl, rfl, rfl, rfl, rfl, rfl, rfl, rfl⟩ (fun _ h => List.mem_of_mem_filter h) rfl

theorem Device.limited_posts (ev source sub len payload add : Nat) (first : Bool) :
    d.Posts (d.limited ev source sub len payload add first) := (d.limited_near ..).posts

theorem Device.count_posts (i n : Nat) : d.Posts (d.count i n) :=
  .of_ring (d.count_keeps i n) (by unfold Device.count; split <;> exact fun _ h => h) (by unfold Device.count; split <;> rfl)

theorem Device.queueRec_posts (r : PendRec) : d.Posts (d.queueRec r) := by
  unfold Device.queueRec
  (repeat' split)
  · exact .refl d
  · exact .of_ring ⟨rfl, rfl, rfl, rfl, rfl, rfl, rfl, rfl, rfl, rfl, rfl, rfl, rfl⟩ (fun _ h => h) rfl
  · exact (d.count_posts cLost 1).trans (.of_ring ⟨rfl, rfl, rfl, rfl, rfl, rfl, rfl, rfl, rfl, rfl, rfl, rfl, rfl⟩ (fun _ h => h) rfl)
  · exact d.count_posts cLost 1

theorem Device.record_posts (kind source severity : Nat) (payload : Bytes) : d.Posts (d.record kind source severity payload) :=
  d.queueRec_posts _

theorem Device.integrity_posts (cls idx act : Nat) : d.Posts (d.integrity cls idx act) := by
  unfold Device.integrity Device.integrityN
  extract_lets payload e fresh d1
  have h1 : d.Posts d1 := d.limited_posts ..
  have hnoted : d1.Posts { d1 with log := { d1.log with episodes := (cls, idx) :: d1.log.episodes } } :=
    .of_ring ⟨rfl, rfl, rfl, rfl, rfl, rfl, rfl, rfl, rfl, rfl, rfl, rfl, rfl⟩ (fun _ h => h) rfl
  have h2 := h1.trans (.ite (c := fresh) hnoted (.refl d1))
  exact .ite (h2.trans (Device.record_posts ..)) h2

theorem Device.checkPair_posts (ok : Bool) (cls idx act : Nat) : d.Posts (d.checkPair ok cls idx act) := by
  unfold Device.checkPair Device.intact
  exact .ite (.ite (.of_ring ⟨rfl, rfl, rfl, rfl, rfl, rfl, rfl, rfl, rfl, rfl, rfl, rfl, rfl⟩ (fun _ h => h) rfl) (.refl d))
    (d.integrity_posts ..)

/-! Subscriptions and what a change of paths takes back. -/

theorem Device.subEvent_posts (n who code cause : Nat) : d.Posts (d.subEvent n who code cause) := d.raise_posts ..

theorem Device.dropSub_posts (n who cause : Nat) : d.Posts (d.dropSub n who cause) := (d.posts_qs _).trans (Device.subEvent_posts ..)

theorem Device.countDrop_posts (n reason useq : Nat) : d.Posts (d.countDrop n reason useq) := (d.countDrop_near ..).posts

theorem Device.modFn_queue_posts (n : Nat) (f : Fn → Fn) : d.Posts (d.modFn (qFn n) f) := by
  unfold Device.modFn Device.putFn qFn
  exact d.modQ_posts _ _

theorem Device.reachOff_queue_posts (n minOff : Nat) : d.Posts (d.reachOff (qFn n) minOff) := by
  unfold Device.reachOff
  have hoff := (d.modFn_queue_posts n (fun f => { f with st := .off, stopPending := false, offUntil := d.now + minOff })).trans
    (Device.complete_posts _ (.fnOff (qFn n)) sOk Bytes.nil)
  exact .ite (hoff.trans (Device.complete_posts ..)) hoff

theorem Device.queueOff_posts (n : Nat) : d.Posts (d.queueOff n) := by
  unfold Device.queueOff Device.queueEvent
  dsimp only
  refine Device.Posts.trans ?_ (Device.raise_posts ..)
  refine Device.Posts.trans ?_ (Device.reachOff_queue_posts ..)
  refine Device.Posts.trans ?_ (Device.posts_qs ..)
  refine Device.Posts.trans ?_ (Device.posts_foldl _ (fun d s => d.dropSub_posts ..) _ _)
  refine Device.Posts.trans ?_ (Device.posts_foldl _ (fun d p => ?_) _ _)
  · refine Device.Posts.trans ?_ (Device.modQ_posts ..)
    exact Device.posts_foldl _ (fun d u => (d.posts_qs _).trans (Device.countDrop_posts ..)) _ _
  · exact d.modPort_posts p _

theorem Device.queueSettle_posts (n : Nat) : d.Posts (d.queueSettle n) := .ite (d.queueOff_posts n) (.refl d)

theorem Device.abandon_posts (n who : Nat) (f : QUnit → Bool) : d.Posts (d.abandon n who f) := (d.modQ_posts _ _).trans (Device.posts_qs _ _)

theorem Device.subSettle_posts (n who : Nat) : d.Posts (d.subSettle n who) := by
  unfold Device.subSettle
  split
  · exact .ite (d.dropSub_posts ..) (.refl d)
  · exact .refl d

theorem Device.unsend_posts (n who : Nat) (started : Bool) : d.Posts (d.unsend n who started) := by
  unfold Device.unsend
  refine Device.Posts.trans ?_ (Device.modQ_posts ..)
  split
  · exact d.abandon_posts ..
  · exact .refl d

theorem Device.pullBack_posts (p : Nat) (out : TxFrame → Bool) : d.Posts (d.pullBack p out) := by
  unfold Device.pullBack
  refine Device.Posts.trans ?_ (Device.posts_foldl _ (fun d k => Device.posts_foldl _ (fun d who => ?_) _ _) _ _)
  · refine Device.Posts.trans ?_ (Device.modRing_posts _ _)
    exact d.modPort_posts p _
  · exact (d.unsend_posts ..).trans (Device.subSettle_posts ..)

theorem Device.suspendNode_posts (node : Nat) : d.Posts (d.suspendNode node) := by
  refine Device.posts_foldl _ (fun d s => ?_) _ _
  dsimp only
  have hback : d.Posts _ := (d.abandon_posts s.queue node (fun _ => true)).trans (Device.posts_foldl
    (fun (d : Device) p => (d.pullBack p (fun f => f.queue == s.queue && f.subs == [node])).modPort p
      (fun x => { x with x9 := x.x9.map (fun f => if f.queue = s.queue then f.without node else f) }))
    (fun d p => (d.pullBack_posts ..).trans (Device.modPort_posts _ _ _)) [0, 1] _)
  refine .ite (hback.trans ((Device.subSettle_posts ..).trans (Device.queueSettle_posts ..))) (hback.trans ?_)
  exact (Device.posts_qs ..).trans ((Device.subEvent_posts ..).trans (Device.queueSettle_posts ..))

theorem Device.sendQ1_posts (node type queue seq : Nat) : d.Posts (d.sendQ1 node type queue seq) := by
  unfold Device.sendQ1
  split
  · exact .refl d
  · dsimp only
    refine Device.Posts.trans ?_ (Device.modRing_posts _ _)
    exact d.modPort_posts _ _

theorem Device.resetIfReliable_posts (n who : Nat) : d.Posts (d.resetIfReliable n who) := by
  unfold Device.resetIfReliable Device.startReset
  refine .ite ?_ (.refl d)
  exact ((Device.posts_foldl _ (fun d p => d.pullBack_posts ..) _ _).trans (Device.posts_qs ..)).trans (Device.sendQ1_posts ..)

theorem Device.resumeNode_posts (node : Nat) : d.Posts (d.resumeNode node) :=
  Device.posts_foldl _ (fun d _ => (d.posts_qs _).trans ((Device.subEvent_posts ..).trans (Device.resetIfReliable_posts ..))) _ _

theorem Device.grant_posts (queue node cells : Nat) : d.Posts (d.grant queue node cells) := (d.grant_near ..).posts

theorem Device.regrant_posts (l : List Grant) : d.Posts (d.regrant l) := Device.posts_foldl _ (fun d _ => d.grant_posts ..) _ _

theorem Device.reroute_posts : d.Posts d.reroute := Device.posts_foldl _ (fun d _ => d.pullBack_posts ..) _ _

theorem Device.unreserve_posts (q : Nat) : d.Posts (d.unreserve q) := by
  refine Device.posts_foldl _ (fun d p => ?_) _ _
  exact d.modPort_posts p _

/-! Reports and messages of the ring. -/

theorem Device.portEvent_posts (p : Nat) : d.Posts (d.portEvent p) := d.raise_posts ..
theorem Device.linkEvent_posts (p code cause : Nat) : d.Posts (d.linkEvent p code cause) := d.raise_posts ..
theorem Device.resvEvent_posts (code : Nat) (v : Resv) : d.Posts (d.resvEvent code v) := d.raise_posts ..
theorem Device.joinEvent_posts (node : Nat) (uid : BitVec 64) (stepped : Bool) (epoch : Nat) : d.Posts (d.joinEvent node uid stepped epoch) :=
  d.raise_posts ..
theorem Device.leaveEvent_posts (node : Nat) (uid : BitVec 64) (cause : Nat) : d.Posts (d.leaveEvent node uid cause) := d.raise_posts ..
theorem Device.ringTimeEvent_posts (locked : Bool) (offset : Int) : d.Posts (d.ringTimeEvent locked offset) := d.raise_posts ..

theorem Device.wrapEvent_posts (wrap : Bool) (w e : Nat) : d.Posts (d.wrapEvent wrap w e) := by
  refine Device.Posts.trans ?_ (Device.modRing_posts _ _)
  exact d.raise_posts ..

theorem Device.sendOn_posts (p : Nat) (f : BitVec 512) : d.Posts (d.sendOn p f) := by
  refine .ite ?_ (.refl d)
  exact d.modPort_posts _ _

theorem Device.noteTopo_posts (k : Nat × Nat) : d.Posts (d.noteTopo k) := d.modRing_posts _

theorem Device.flood_posts (type body : Nat) : d.Posts (d.flood type body) := by
  unfold Device.flood
  dsimp only
  refine Device.Posts.trans (Device.Posts.trans (Device.Posts.trans ?_ (Device.noteTopo_posts ..)) (Device.sendOn_posts ..))
    (Device.sendOn_posts ..)
  exact d.modRing_posts _

theorem Device.floodElect_posts : d.Posts d.floodElect := by
  unfold Device.floodElect
  split
  · exact d.flood_posts ..
  · exact .refl d

theorem Device.sendAllowances_posts : d.Posts d.sendAllowances := by
  unfold Device.sendAllowances
  refine .ite (.refl d) (Device.Posts.trans ?_ (Device.flood_posts ..))
  exact d.modRing_posts _

theorem Device.sendMembers_posts : d.Posts d.sendMembers := by
  unfold Device.sendMembers
  refine Device.Posts.trans ?_ (Device.posts_foldl _ (fun d _ => d.flood_posts ..) _ _)
  exact d.modRing_posts (fun r => { r with membersAt := d.now + 100 * ms })

theorem Device.requestResv_posts (v : Resv) : d.Posts (d.requestResv v) := by
  have hasked : d.Posts _ := d.modRing_posts (fun r => { r with
    reqs := r.reqs.filter (fun x => x.queue != v.queue) ++ [{ v with node := r.node, asked := d.now }] })
  exact .ite hasked (hasked.trans (Device.flood_posts ..))

theorem Device.askAgain_posts : d.Posts d.askAgain := .ite (.refl d) (Device.posts_foldl _ (fun d _ => d.flood_posts ..) _ _)

theorem Device.requestAll_posts : d.Posts d.requestAll :=
  (Device.posts_foldl _ (fun d _ => d.checkPair_posts ..) _ _).trans (Device.posts_foldl _ (fun d _ => d.requestResv_posts _) _ _)

theorem Device.recountHops_posts : d.Posts d.recountHops := by
  unfold Device.recountHops
  refine .ite (d.modRing_posts _) ?_
  dsimp only
  split <;> exact d.modRing_posts _

end Sys2Proof.Machine
end

section
/-! Reservations, members and breaks change at most the sealed reservations of the C-die, and those only where a command waits for one
(R235, R237, R238, R384). -/

namespace Sys2Proof.Machine

open Sys2Proof

/-- A command waits for a sealed reservation. -/
def Device.AsksSeal (d : Device) : Prop := ∃ w ∈ d.wcp.waits, ∃ n, w.kind = .sealResv n

/-- The sealed parameters are as before, but for the reservations where a command waits for one; no wait is new. -/
structure Device.KeepsSealed (d d' : Device) : Prop where
  waits : ∀ w ∈ d'.wcp.waits, w ∈ d.wcp.waits
  others : { d'.sealedParams with resv := d.sealedParams.resv } = d.sealedParams
  resv : d'.sealedParams.resv ≠ d.sealedParams.resv → d.AsksSeal

theorem Device.AsksSeal.of_waits {d d' : Device} (h : ∀ w ∈ d'.wcp.waits, w ∈ d.wcp.waits) : d'.AsksSeal → d.AsksSeal :=
  fun ⟨w, hw, hn⟩ => ⟨w, h w hw, hn⟩

theorem Device.KeepsSealed.of_same {d d' : Device} (hwaits : ∀ w ∈ d'.wcp.waits, w ∈ d.wcp.waits) (h : d'.sealedParams = d.sealedParams) :
    d.KeepsSealed d' :=
  ⟨hwaits, by rw [h], fun hne => absurd (congrArg Sealed.resv h) hne⟩

theorem Device.KeepsSealed.refl (d : Device) : d.KeepsSealed d := .of_same (fun _ h => h) rfl

theorem Device.KeepsSealed.trans {a b c : Device} (h : a.KeepsSealed b) (k : b.KeepsSealed c) : a.KeepsSealed c := by
  refine ⟨fun w hw => h.waits w (k.waits w hw), ?_, fun hne => ?_⟩
  · have e := congrArg (fun x : Sealed => { x with resv := a.sealedParams.resv }) k.others
    exact e.trans h.others
  · by_cases hb : c.sealedParams.resv = b.sealedParams.resv
    · exact h.resv (hb ▸ hne)
    · exact (k.resv hb).of_waits h.waits

theorem Device.keepsSealed_foldl {α : Type} (f : Device → α → Device) (hf : ∀ (d : Device) a, d.KeepsSealed (f d a))
    (l : List α) (d : Device) : d.KeepsSealed (l.foldl f d) := by
  induction l generalizing d with
  | nil => exact .refl d
  | cons a t ih => exact (hf d a).trans (ih (f d a))

theorem Device.KeepsSealed.ite {c : Prop} [Decidable c] {d a b : Device} (ha : d.KeepsSealed a) (hb : d.KeepsSealed b) :
    d.KeepsSealed (if c then a else b) := by
  split
  · exact ha
  · exact hb

theorem Device.Posts.keepsSealed {d d' : Device} (h : d.Posts d') : d.KeepsSealed d' := .of_same h.waits h.keeps.sealed

/-- The ring but for what `standing` leaves out, the table, the topology, the reservations and the numbers held. -/
def Ring.bond (r : Ring) : Ring :=
  { r.standing with closed := false, brk := none, gen := 0, members := [], held := [], resv := [], joinDue := false }

/-- A change of topology or of reservations: time and this node's bond stay. -/
structure Device.Regroups (d d' : Device) : Prop where
  sealed : d.KeepsSealed d'
  time : d'.time = d.time
  ring : d'.ring.bond = d.ring.bond

/-- The same where the links and the generation stay too. -/
structure Device.Reroutes (d d' : Device) : Prop extends Device.Regroups d d' where
  gen : d'.ring.gen = d.ring.gen
  port : ∀ p, (d'.port p).standing = (d.port p).standing

theorem Device.Regroups.refl (d : Device) : d.Regroups d := ⟨.refl d, rfl, rfl⟩

theorem Device.Regroups.trans {a b c : Device} (h : a.Regroups b) (k : b.Regroups c) : a.Regroups c :=
  ⟨h.sealed.trans k.sealed, k.time.trans h.time, k.ring.trans h.ring⟩

theorem Device.Reroutes.refl (d : Device) : d.Reroutes d := ⟨.refl d, rfl, fun _ => rfl⟩

theorem Device.Reroutes.trans {a b c : Device} (h : a.Reroutes b) (k : b.Reroutes c) : a.Reroutes c :=
  ⟨h.toRegroups.trans k.toRegroups, k.gen.trans h.gen, fun p => (k.port p).trans (h.port p)⟩

theorem Device.reroutes_foldl {α : Type} (f : Device → α → Device) (hf : ∀ (d : Device) a, d.Reroutes (f d a)) (l : List α) (d : Device) :
    d.Reroutes (l.foldl f d) := by
  induction l generalizing d with
  | nil => exact .refl d
  | cons a t ih => exact (hf d a).trans (ih (f d a))

theorem Device.regroups_foldl {α : Type} (f : Device → α → Device) (hf : ∀ (d : Device) a, d.Regroups (f d a)) (l : List α) (d : Device) :
    d.Regroups (l.foldl f d) := by
  induction l generalizing d with
  | nil => exact .refl d
  | cons a t ih => exact (hf d a).trans (ih (f d a))

theorem Device.Reroutes.ite {c : Prop} [Decidable c] {d a b : Device} (ha : d.Reroutes a) (hb : d.Reroutes b) :
    d.Reroutes (if c then a else b) := by
  split
  · exact ha
  · exact hb

theorem Device.Regroups.ite {c : Prop} [Decidable c] {d a b : Device} (ha : d.Regroups a) (hb : d.Regroups b) :
    d.Regroups (if c then a else b) := by
  split
  · exact ha
  · exact hb

theorem Device.Posts.reroutes {d d' : Device} (h : d.Posts d') : d.Reroutes d' where
  sealed := h.keepsSealed
  time := h.keeps.time
  ring := by
    have e := congrArg Ring.bond h.ring
    exact e
  gen := by
    have e := congrArg Ring.gen h.ring
    exact e
  port := h.port

variable (d : Device)

theorem Device.modRing_regroups (f : Ring → Ring) (hf : ∀ r, (f r).bond = r.bond := by exact fun _ => rfl) : d.Regroups (d.modRing f) :=
  ⟨.of_same (fun _ h => h) rfl, rfl, hf d.ring⟩

theorem Device.modPort_regroups (p : Nat) (f : RPort → RPort) : d.Regroups (d.modPort p f) := ⟨.of_same (fun _ h => h) rfl, rfl, rfl⟩

theorem Device.modRing_reroutes (f : Ring → Ring) (hf : ∀ r, (f r).bond = r.bond := by exact fun _ => rfl)
    (hg : ∀ r, (f r).gen = r.gen := by exact fun _ => rfl) (hp : ∀ r, (f r).ports = r.ports := by exact fun _ => rfl) :
    d.Reroutes (d.modRing f) :=
  ⟨d.modRing_regroups f hf, hg d.ring, fun p => congrArg (fun v => (vget v p {}).standing) (hp d.ring)⟩

/-! The sealed change of an admitted reservation (R384). -/

/-- Two devices that differ at most in the sealed reservations, the self-test, the queues, the log and the protocol with no wait more. -/
structure Device.SealsResv (d d' : Device) : Prop where
  waits : ∀ w ∈ d'.wcp.waits, w ∈ d.wcp.waits
  others : { d'.sealedParams with resv := d.sealedParams.resv } = d.sealedParams
  time : d'.time = d.time
  ring : d'.ring = d.ring

theorem Device.SealsResv.trans {a b c : Device} (h : a.SealsResv b) (k : b.SealsResv c) : a.SealsResv c := by
  refine ⟨fun w hw => h.waits w (k.waits w hw), ?_, k.time.trans h.time, k.ring.trans h.ring⟩
  have e := congrArg (fun x : Sealed => { x with resv := a.sealedParams.resv }) k.others
  exact e.trans h.others

theorem Device.sealsResv_foldl {α : Type} (f : Device → α → Device) (hf : ∀ (d : Device) a, d.SealsResv (f d a)) (l : List α) (d : Device) :
    d.SealsResv (l.foldl f d) := by
  induction l generalizing d with
  | nil => exact ⟨fun _ h => h, rfl, rfl, rfl⟩
  | cons a t ih => exact (hf d a).trans (ih (f d a))

theorem Device.serve_waits (rows : List Nat) : (d.serve rows).wcp.waits = d.wcp.waits := by
  unfold Device.serve Device.sliceAbort
  (repeat' split) <;> first | rfl | exact (Device.limited_near ..).waits

theorem Device.queueRec_ring (r : PendRec) : (d.queueRec r).ring = d.ring := by
  unfold Device.queueRec Device.count
  (repeat' split) <;> rfl

theorem Device.sealChange_sealsResv (c : Ctx) (cmdId order old : Nat) : d.SealsResv (d.sealChange c cmdId order old) :=
  ⟨(d.queueRec_posts _).waits, (d.queueRec_posts _).keepsSealed.others, (d.queueRec_posts _).keeps.time, d.queueRec_ring _⟩

theorem Device.serve_ring (rows : List Nat) : (d.serve rows).ring = d.ring := by
  have hring := d.serve_onlyIn rows .ring (by decide)
  have hports := d.serve_onlyIn rows .ports (by decide)
  simp only [Part.same] at hring hports
  rwa [← hports] at hring

/-- What a sealed change writes of the reservations. -/
theorem Device.mram_resv_sealsResv (f : Device → Sec) : d.SealsResv (d.mram false (fun d => { d with sec := f d })) := by
  unfold Device.mram
  split
  · exact ⟨fun _ h => h, rfl, rfl, rfl⟩
  · refine ⟨fun w hw => d.serve_waits [7] ▸ hw, ?_, d.serve_onlyIn [7] .time (by decide), d.serve_ring [7]⟩
    exact congrArg (fun x : Sealed => { x with resv := d.sealedParams.resv }) (d.serve_sealed [7])

theorem Device.commitSealedResv_sealsResv (v : Resv) : d.SealsResv (d.commitSealedResv v) :=
  Device.sealsResv_foldl _ (fun d _ => (d.mram_resv_sealsResv _).trans (Device.sealChange_sealsResv ..)) _ _

theorem Device.commitSealedResv_reroutes (v : Resv) : d.Reroutes (d.commitSealedResv v) := by
  have h := d.commitSealedResv_sealsResv v
  refine ⟨⟨⟨h.waits, h.others, fun hne => ?_⟩, h.time, by rw [h.ring]⟩, by rw [h.ring], fun p => by rw [Device.port, h.ring, Device.port]⟩
  by_contra hnone
  refine hne ?_
  have hnil : d.wcp.waits.filter (fun w => w.kind == .sealResv v.queue) = [] :=
    List.filter_eq_nil_iff.mpr fun w hw hk => hnone ⟨w, hw, v.queue, eq_of_beq hk⟩
  unfold Device.commitSealedResv
  rw [hnil]
  rfl

/-! Requests, answers and admission. -/

theorem Device.resvOutcome_reroutes (queue status : Nat) (west : Bool) : d.Reroutes (d.resvOutcome queue status west) := by
  unfold Device.resvOutcome
  extract_lets pend cur waiting asked
  have hasked : d.Reroutes asked := d.modRing_reroutes _
  clear_value asked
  split
  · exact hasked
  · next v hv =>
    refine .ite ?_ (.ite ?_ ?_)
    · extract_lets new swap resv admitted told
      have hadmitted : d.Reroutes admitted := hasked.trans (Device.modRing_reroutes _ _)
      have htold : d.Reroutes told := hadmitted.trans (.ite (Device.resvEvent_posts ..).reroutes (.refl _))
      exact (htold.trans (Device.commitSealedResv_reroutes ..)).trans
        ((Device.complete_posts ..).trans (Device.complete_posts ..)).reroutes
    · exact hasked.trans ((Device.complete_posts ..).trans (Device.complete_posts ..)).reroutes
    · refine Device.Reroutes.trans (hasked.trans ?_) ((Device.unreserve_posts ..).trans (Device.resvEvent_posts ..)).reroutes
      exact Device.modRing_reroutes _ _

theorem Device.resvAnswer_reroutes (v : Resv) (status : Nat) (west : Bool) : d.Reroutes (d.resvAnswer v status west) :=
  .ite (d.resvOutcome_reroutes ..) (d.flood_posts ..).reroutes

theorem Device.withdrawResv_reroutes (v : Resv) : d.Reroutes (d.withdrawResv v) :=
  .ite ((d.resvAnswer_reroutes ..).trans (Device.resvEvent_posts ..).reroutes) (d.resvAnswer_reroutes ..)

theorem Device.decideResv_reroutes (v : Resv) : d.Reroutes (d.decideResv v) := by
  unfold Device.decideResv
  dsimp only
  refine .ite (.trans ?_ (Device.sendAllowances_posts _).reroutes) (.ite ?_ (d.resvAnswer_reroutes ..))
  · exact d.modRing_reroutes _
  · exact (((Device.reroutes_foldl _ (fun d x => d.withdrawResv_reroutes x) _ _).trans (Device.modRing_reroutes ..)).trans
      (Device.resvAnswer_reroutes ..)).trans (Device.sendAllowances_posts _).reroutes

theorem Device.askLate_reroutes : d.Reroutes d.askLate :=
  Device.reroutes_foldl _ (fun d v => .ite (d.resvOutcome_reroutes ..) (d.requestResv_posts v).reroutes) _ _

theorem Device.readmit_reroutes (old : Ring) : d.Reroutes (d.readmit old) := by
  unfold Device.readmit
  refine .ite (.refl d) ?_
  dsimp only
  exact (((d.modRing_reroutes _).trans (Device.reroutes_foldl _ (fun d v => d.withdrawResv_reroutes v) _ _)).trans
    (Device.reroutes_foldl _ (fun d p => d.resvAnswer_reroutes ..) _ _)).trans (Device.sendAllowances_posts _).reroutes

/-! Members and breaks. -/

theorem Device.memberGone_reroutes (node cause : Nat) : d.Reroutes (d.memberGone node cause) := by
  unfold Device.memberGone
  split
  · exact .refl d
  · refine .ite (.refl d) ?_
    dsimp only
    exact ((Device.leaveEvent_posts ..).reroutes.trans (Device.modRing_reroutes ..)).trans (Device.suspendNode_posts ..).reroutes

theorem Device.memberCome_reroutes (m : Member) (stepped : Bool) (epoch : Nat) : d.Reroutes (d.memberCome m stepped epoch) := by
  unfold Device.memberCome
  extract_lets back freed known told
  have hfreed : d.Reroutes freed := d.modRing_reroutes _
  have hknown : d.Reroutes known := hfreed.trans (freed.posts_qs _).reroutes
  have htold : d.Reroutes told := hknown.trans (.ite (.refl _) (Device.joinEvent_posts ..).reroutes)
  exact .ite (htold.trans (Device.resumeNode_posts ..).reroutes) htold

theorem Ring.cutAt_bond (r : Ring) (w e : Nat) : (r.cutAt w e).1.bond = r.bond := by
  unfold Ring.cutAt
  dsimp only
  (repeat' split) <;> rfl

theorem Ring.cutAt_gen (r : Ring) (w e : Nat) : (r.cutAt w e).1.gen = r.gen := by
  unfold Ring.cutAt
  dsimp only
  (repeat' split) <;> rfl

theorem Ring.cutAt_ports (r : Ring) (w e : Nat) : (r.cutAt w e).1.ports = r.ports := by
  unfold Ring.cutAt
  dsimp only
  (repeat' split) <;> rfl

theorem Ring.wrapHeld_bond (r old : Ring) (l : List Nat) : (r.wrapResv.holdLinks old l).bond = r.bond := rfl
theorem Ring.wrapHeld_gen (r old : Ring) (l : List Nat) : (r.wrapResv.holdLinks old l).gen = r.gen := rfl
theorem Ring.wrapHeld_ports (r old : Ring) (l : List Nat) : (r.wrapResv.holdLinks old l).ports = r.ports := rfl

theorem Device.setRing_reroutes {r : Ring} (hbond : r.bond = d.ring.bond) (hgen : r.gen = d.ring.gen) (hports : r.ports = d.ring.ports) :
    d.Reroutes (d.modRing (fun _ => r)) :=
  ⟨⟨.of_same (fun _ h => h) rfl, rfl, hbond⟩, hgen, fun p => congrArg (fun v => (vget v p {}).standing) hports⟩

/-- The topology and the reservations that a cut leaves. -/
theorem Device.cut_reroutes (w e : Nat) :
    d.Reroutes (d.modRing (fun _ => (d.ring.cutAt w e).1.wrapResv.holdLinks d.ring (d.ring.cutAt w e).2)) :=
  d.setRing_reroutes ((Ring.wrapHeld_bond ..).trans (d.ring.cutAt_bond w e)) ((Ring.wrapHeld_gen ..).trans (d.ring.cutAt_gen w e))
    ((Ring.wrapHeld_ports ..).trans (d.ring.cutAt_ports w e))

theorem Device.applyBreak_reroutes (w e : Nat) : d.Reroutes (d.applyBreak w e) := by
  unfold Device.applyBreak
  refine .ite (.refl d) ?_
  dsimp only
  refine Device.Reroutes.trans (Device.Reroutes.trans (Device.Reroutes.trans (Device.Reroutes.trans (Device.Reroutes.trans
    (Device.Reroutes.trans (d.cut_reroutes w e) ?_) (.ite (Device.sendMembers_posts _).reroutes (.refl _)))
    (Device.reroute_posts _).reroutes) (Device.wrapEvent_posts ..).reroutes) (Device.readmit_reroutes ..)) (Device.askAgain_posts _).reroutes
  refine Device.reroutes_foldl _ (fun d n => ?_) _ _
  exact .ite ((d.memberGone_reroutes n 1).trans (Device.flood_posts ..).reroutes) (d.memberGone_reroutes n 1)

/-- A broken link raises the generation of a member; its links stay. -/
theorem Device.declareBreak_reroutes (p : Nat) (h : d.ring.onring = true) :
    (d.modRing (fun r => { r with gen := r.gen + 1 })).Reroutes (d.declareBreak p) := by
  unfold Device.declareBreak
  rw [if_neg (by simp [h])]
  dsimp only
  have hsaid := (Device.flood_posts (d.modRing (fun r => { r with gen := r.gen + 1 })) 4
    (linkBody (d.linkEnds p).1 (d.linkEnds p).2 (d.modRing (fun r => { r with gen := r.gen + 1 })).ring.gen.toNat)).reroutes
  exact .ite (hsaid.trans (Device.applyBreak_reroutes ..)) hsaid

theorem Device.declareBreak_off (p : Nat) (h : d.ring.onring = false) : d.declareBreak p = d := if_pos (by simp [h])

theorem Device.declareBreak_regroups (p : Nat) : d.Regroups (d.declareBreak p) := by
  cases h : d.ring.onring with
  | false => rw [d.declareBreak_off p h]; exact .refl d
  | true => exact (d.modRing_regroups _).trans (d.declareBreak_reroutes p h).toRegroups

theorem Device.declareBreak_port (p q : Nat) : ((d.declareBreak p).port q).standing = (d.port q).standing := by
  cases h : d.ring.onring with
  | false => rw [d.declareBreak_off p h]
  | true => exact (d.declareBreak_reroutes p h).port q

end Sys2Proof.Machine
end

section
/-! The ring's rows keep the sealed parameters, but for the reservations where a command waits for one (R235, R237, R238). -/

namespace Sys2Proof.Machine

open Sys2Proof

variable (d : Device)

/-! A port's function. -/

theorem Device.modFn_port_regroups (p : Nat) (f : Fn → Fn) : d.Regroups (d.modFn (portFn p) f) := by
  unfold Device.modFn Device.putFn portFn
  exact d.modPort_regroups _ _

theorem Device.reachOn_port_regroups (p : Nat) : d.Regroups (d.reachOn (portFn p)) := by
  unfold Device.reachOn
  exact (d.modFn_port_regroups p _).trans (Device.complete_posts ..).reroutes.toRegroups

theorem Device.beginStop_port_regroups (p len : Nat) : d.Regroups (d.beginStop (portFn p) len) := d.modFn_port_regroups p _

theorem Device.portStop_regroups (p : Nat) : d.Regroups (d.portStop p) := by
  unfold Device.portStop
  dsimp only
  refine Device.Regroups.trans (Device.Regroups.trans ?_ (Device.beginStop_port_regroups ..)) (Device.portEvent_posts ..).reroutes.toRegroups
  have hsaid := (Device.Posts.ite (c := (d.ring.onring && (d.port p).link == .member && (d.port (1 - p)).link != .member) = true)
    (d.flood_posts 3 (fields [(0, d.ring.node), (8, 0)])) (.refl d)).reroutes.toRegroups.trans (Device.modPort_regroups _ p
      (fun x => { x with link := if x.live then .draining else x.link, retryAt := none }))
  exact .ite (hsaid.trans (Device.declareBreak_regroups ..)) hsaid

theorem Device.portOn_regroups (p : Nat) (stop : Device → Device) (h : ∀ d : Device, d.Regroups (stop d)) : d.Regroups (d.portOn p stop) := by
  unfold Device.portOn
  have hon := (d.reachOn_port_regroups p).trans (Device.portEvent_posts _ p).reroutes.toRegroups
  exact .ite (.ite (hon.trans (h _)) hon) (.refl d)

theorem Device.joinDone_regroups : d.Regroups d.joinDone := by
  unfold Device.joinDone
  exact .ite ((d.modRing_regroups _).trans (Device.joinEvent_posts ..).reroutes.toRegroups) (.refl d)

theorem Device.portsOn_regroups : d.Regroups d.portsOn := by
  unfold Device.portsOn
  refine .ite (d.joinDone_regroups.trans (Device.regroups_foldl _ (fun d p => ?_) _ _)) (.refl d)
  exact d.portOn_regroups p _ (fun d => d.portStop_regroups p)

/-! Links that go down, members that leave. -/

theorem Device.modRing_keepsSealed (f : Ring → Ring) : d.KeepsSealed (d.modRing f) := .of_same (fun _ h => h) rfl
theorem Device.modPort_keepsSealed (p : Nat) (f : RPort → RPort) : d.KeepsSealed (d.modPort p f) := .of_same (fun _ h => h) rfl

theorem Device.calHoldCheck_keepsSealed : d.KeepsSealed d.calHoldCheck := by
  refine .of_same ?_ d.calHoldCheck_sealed
  unfold Device.calHoldCheck
  dsimp only
  split <;> exact fun _ h => h

theorem Device.leaveRing_keepsSealed : d.KeepsSealed d.leaveRing := by
  unfold Device.leaveRing
  dsimp only
  refine Device.KeepsSealed.trans ?_ (Device.calHoldCheck_keepsSealed _)
  refine Device.KeepsSealed.trans ?_ (Device.posts_foldl _ (fun d n => d.suspendNode_posts n) _ _).keepsSealed
  refine Device.KeepsSealed.trans ?_ (Device.keepsSealed_foldl _ (fun d p => d.modPort_keepsSealed p _) _ _)
  refine Device.KeepsSealed.trans ?_ (Device.modRing_keepsSealed _ _)
  refine (Device.Posts.trans ?_ (Device.posts_qs ..)).keepsSealed
  exact ((d.pullBack_posts ..).trans (Device.pullBack_posts ..)).trans
    (Device.posts_foldl _ (fun d v => (d.complete_posts ..).trans (Device.complete_posts ..)) _ _)

theorem Device.leaveIfAlone_keepsSealed : d.KeepsSealed d.leaveIfAlone := .ite d.leaveRing_keepsSealed (.refl d)

theorem Device.linkDown_keepsSealed (p : Nat) (cause : Option Nat) : d.KeepsSealed (d.linkDown p cause) := by
  unfold Device.linkDown
  extract_lets was back told kept broken down
  have hback : d.KeepsSealed back := (d.pullBack_posts ..).keepsSealed.trans (Device.modRing_keepsSealed ..)
  have htold : d.KeepsSealed told := hback.trans (by
    unfold told
    split
    · exact (Device.linkEvent_posts ..).keepsSealed
    · exact .refl _)
  have hbroken : d.KeepsSealed broken := htold.trans (.ite (Device.declareBreak_regroups ..).sealed (.refl _))
  have hdown : d.KeepsSealed down := hbroken.trans (Device.modPort_keepsSealed ..)
  exact (((hdown.trans (Device.leaveIfAlone_keepsSealed _)).trans (Device.regrant_posts ..).keepsSealed).trans
    ((Device.askAgain_posts _).trans (Device.recountHops_posts _)).keepsSealed).trans (Device.calHoldCheck_keepsSealed _)

/-! Bring-up, markers and time. -/

theorem Device.sendJoin_keepsSealed : d.KeepsSealed d.sendJoin := (d.flood_posts ..).keepsSealed.trans (Device.modRing_keepsSealed ..)

theorem Device.lookAround_keepsSealed (p : Nat) : d.KeepsSealed (d.lookAround p) := by
  unfold Device.lookAround
  extract_lets x known counted
  have hknown : d.KeepsSealed known := .ite (d.modRing_keepsSealed _) (.refl d)
  have hcounted : d.KeepsSealed counted := hknown.trans ((Device.recountHops_posts _).keepsSealed.trans (Device.calHoldCheck_keepsSealed _))
  have hgen := hcounted.trans (.ite (c := counted.ring.onring = true) (.refl _)
    (Device.modRing_keepsSealed _ (fun r => { r with gen := .ofNat 16 x.rxGen })))
  exact .ite (hgen.trans (Device.sendJoin_keepsSealed _)) hgen

theorem Device.markerSeen_keepsSealed (p : Nat) (f : BitVec 512) : d.KeepsSealed (d.markerSeen p f) := by
  unfold Device.markerSeen
  dsimp only
  refine .ite (.refl d) (.ite (.ite (d.modPort_keepsSealed ..) (d.linkDown_keepsSealed ..)) ?_)
  refine .ite ?_ (.ite ?_ (.ite ?_ ?_))
  · exact (d.modPort_keepsSealed ..).trans (Device.linkDown_keepsSealed ..)
  · exact (d.modPort_keepsSealed ..).trans (Device.linkDown_keepsSealed ..)
  · exact (d.modPort_keepsSealed ..).trans (Device.linkDown_keepsSealed ..)
  · exact (d.modPort_keepsSealed ..).trans (Device.lookAround_keepsSealed ..)

theorem Device.stepTime_keepsSealed (offset : Int) : d.KeepsSealed (d.stepTime offset) := by
  unfold Device.stepTime
  dsimp only
  refine Device.KeepsSealed.trans ?_ (Device.record_posts ..).keepsSealed
  exact .of_same (fun _ h => h) rfl

theorem Device.healAt_keepsSealed (p : Nat) : d.KeepsSealed (d.healAt p) := by
  unfold Device.healAt
  dsimp only
  refine .ite (.refl d) (.ite (d.flood_posts ..).keepsSealed (.ite ?_ (.refl d)))
  exact (d.modRing_keepsSealed _).trans (((Device.flood_posts ..).trans (Device.wrapEvent_posts ..)).trans
    (Device.sendAllowances_posts _)).keepsSealed

theorem Device.delayAveraged_keepsSealed (p : Nat) : d.KeepsSealed (d.delayAveraged p) := by
  unfold Device.delayAveraged
  refine .ite (.refl d) ?_
  extract_lets first stepped on member up healed
  have hstepped : d.KeepsSealed stepped := .ite (d.stepTime_keepsSealed _) (.ite (d.modRing_keepsSealed _) (.refl d))
  have hup : d.KeepsSealed up := ((hstepped.trans (Device.modRing_keepsSealed ..)).trans (Device.modPort_keepsSealed ..)).trans
    (Device.linkEvent_posts ..).keepsSealed
  have hhealed : d.KeepsSealed healed := hup.trans (.ite (.refl _) (Device.healAt_keepsSealed ..))
  exact hhealed.trans ((Device.calHoldCheck_keepsSealed _).trans (Device.portsOn_regroups _).sealed)

theorem Device.servoUpdate_keepsSealed : d.KeepsSealed d.servoUpdate := by
  unfold Device.servoUpdate
  refine .ite (.refl d) ?_
  extract_lets o inN outN integ noted increment steered
  have hsteered : d.KeepsSealed steered := .of_same (fun _ h => h) rfl
  refine .ite ?_ (.ite ?_ hsteered)
  · exact ((hsteered.trans (Device.modRing_keepsSealed ..)).trans (Device.ringTimeEvent_posts ..).keepsSealed).trans
      (Device.portsOn_regroups _).sealed
  · exact (hsteered.trans (Device.modRing_keepsSealed ..)).trans (Device.ringTimeEvent_posts ..).keepsSealed

theorem Device.startRetry_keepsSealed (p : Nat) : d.KeepsSealed (d.startRetry p) :=
  .ite (.refl d) (.ite (d.portStop_regroups p).sealed (d.modPort_keepsSealed ..))

/-! Superframes. -/

theorem Device.frameLeaves_posts (f : TxFrame) : d.Posts (d.frameLeaves f) := by
  refine Device.posts_foldl _ (fun d w => ?_) _ _
  extract_lets credited
  have hcredited : d.Posts credited := .ite (d.posts_qs _) (.refl d)
  clear_value credited
  refine hcredited.trans (.ite ?_ (.refl _))
  split
  · exact Device.modQ_posts ..
  · exact .refl _

theorem Sending.step_posts (pass : Nat) (s : Sending) (f : TxFrame) : s.d.Posts (s.step pass f).d := by
  unfold Sending.step
  lift_lets
  extract_lets key id n enters may lack stays
  split
  · exact .refl _
  · split
    · exact s.d.frameLeaves_posts f
    · exact Device.posts_foldl _ (fun d w => d.posts_qs _) lack s.d

theorem Sending.pass_posts (s : Sending) (l : List TxFrame) (pass : Nat) : s.d.Posts (s.pass l pass).d := by
  have hfold : ∀ (l : List TxFrame) (x : Sending), x.d.Posts (l.foldl (fun s f => s.step pass f) x).d := by
    intro l
    induction l with
    | nil => exact fun _ => .refl _
    | cons f t ih => exact fun x => (x.step_posts pass f).trans (ih _)
  exact hfold l { s with keep := [], blocked := [], stopped := [] }

theorem Device.sendFrames_keepsSealed (p : Nat) : d.KeepsSealed (d.sendFrames p) := by
  unfold Device.sendFrames
  lift_lets
  extract_lets filled x tokens t s0 s1 s2 s3 l
  have hfilled : d.KeepsSealed filled := (d.fillX9_near p).posts.keepsSealed
  have hsent : filled.KeepsSealed s3.d :=
    (((s0.pass_posts x.x9 0).trans (s1.pass_posts _ 1)).trans (s2.pass_posts _ 2)).keepsSealed
  exact hfilled.trans (.ite (Device.modPort_keepsSealed ..) (.ite (Device.modPort_keepsSealed ..)
    (hsent.trans (Device.modPort_keepsSealed ..))))

theorem Device.sendWindow_keepsSealed (p : Nat) : d.KeepsSealed (d.sendWindow p) := d.modPort_keepsSealed ..

theorem Device.superframe_keepsSealed (p : Nat) : d.KeepsSealed (d.superframe p) := by
  unfold Device.superframe
  refine .ite (.refl d) ?_
  extract_lets asked counts counted sent
  have hasked : d.KeepsSealed asked := .ite (Device.reroutes_foldl _ (fun d v => d.decideResv_reroutes v) _ _).sealed d.askLate_reroutes.sealed
  have hsent : d.KeepsSealed sent := (hasked.trans (.ite (Device.modRing_keepsSealed ..) (.refl _))).trans (Device.sendWindow_keepsSealed ..)
  exact .ite (hsent.trans (Device.sendFrames_keepsSealed ..)) hsent

/-! Messages and the election. -/

theorem Device.topo_keepsSealed (p type : Nat) (f : BitVec 512) (act : Device → Device) (h : ∀ d : Device, d.KeepsSealed (act d)) :
    d.KeepsSealed (d.topo p type f act) := by
  unfold Device.topo
  dsimp only
  refine .ite (.refl d) (Device.KeepsSealed.trans ?_ (h _))
  exact (d.noteTopo_posts _).keepsSealed.trans (.ite (.refl _) (Device.sendOn_posts ..).keepsSealed)

theorem Device.joinReq_keepsSealed (p : Nat) (f : BitVec 512) : d.KeepsSealed (d.joinReq p f) := by
  unfold Device.joinReq
  refine .ite (.refl d) ?_
  dsimp only
  split
  · exact (d.flood_posts ..).keepsSealed
  · refine (d.flood_posts ..).keepsSealed.trans (.ite (.refl _) ?_)
    exact (Device.modRing_keepsSealed ..).trans (((Device.memberCome_reroutes ..).trans (Device.sendMembers_posts _).reroutes).trans
      (Device.readmit_reroutes ..)).sealed

theorem Device.leaveMsg_keepsSealed (f : BitVec 512) : d.KeepsSealed (d.leaveMsg f) := by
  unfold Device.leaveMsg
  refine .ite (.refl d) ?_
  have hgone := d.memberGone_reroutes (topoBody f 7 0) (topoBody f 15 8)
  exact .ite ((hgone.trans (Device.sendMembers_posts _).reroutes).trans (Device.readmit_reroutes ..)).sealed hgone.sealed

theorem Device.breakMsg_keepsSealed (f : BitVec 512) : d.KeepsSealed (d.breakMsg f) :=
  .ite (.refl d) ((d.modRing_keepsSealed _).trans (Device.applyBreak_reroutes ..).sealed)

theorem Device.resvReq_keepsSealed (f : BitVec 512) : d.KeepsSealed (d.resvReq f) := .ite (.refl d) (d.decideResv_reroutes _).sealed

theorem Device.resvAnsMsg_keepsSealed (f : BitVec 512) : d.KeepsSealed (d.resvAnsMsg f) := .ite (.refl d) (d.resvOutcome_reroutes ..).sealed

theorem Device.electTimeout_keepsSealed : d.KeepsSealed d.electTimeout := by
  unfold Device.electTimeout
  refine .ite ?_ (.refl d)
  unfold Device.becomeHead
  extract_lets former me freed rest swap order headed increment nominal
  have hheaded : d.KeepsSealed headed := Device.KeepsSealed.trans (.ite (d.modRing_keepsSealed _) (.refl d)) (Device.modRing_keepsSealed ..)
  have hnominal : d.KeepsSealed nominal := hheaded.trans (.of_same (fun _ h => h) rfl)
  exact ((hnominal.trans (((Device.raise_posts ..).trans (Device.requestAll_posts _)).trans ((Device.sendMembers_posts _).trans
    (Device.sendAllowances_posts _))).keepsSealed).trans (Device.calHoldCheck_keepsSealed _)).trans (Device.portsOn_regroups _).sealed

end Sys2Proof.Machine
end

section
/-! The ring, the queues and the cameras leave the sealed parameters alone (R383). -/

namespace Sys2Proof.Machine

open Sys2Proof

variable (d : Device)

@[simp] theorem Device.subEvent_sealed (n who code cause : Nat) : (d.subEvent n who code cause).sealedParams = d.sealedParams :=
  (d.subEvent_posts ..).keeps.sealed
@[simp] theorem Device.queueEvent_sealed (n : Nat) : (d.queueEvent n).sealedParams = d.sealedParams := by simp [Device.queueEvent]
@[simp] theorem Device.dropSub_sealed (n who cause : Nat) : (d.dropSub n who cause).sealedParams = d.sealedParams := (d.dropSub_posts ..).keeps.sealed
@[simp] theorem Device.queueOff_sealed (n : Nat) : (d.queueOff n).sealedParams = d.sealedParams := (d.queueOff_posts ..).keeps.sealed
@[simp] theorem Device.queueSettle_sealed (n : Nat) : (d.queueSettle n).sealedParams = d.sealedParams := (d.queueSettle_posts ..).keeps.sealed
@[simp] theorem Device.abandon_sealed (n who : Nat) (f : QUnit → Bool) : (d.abandon n who f).sealedParams = d.sealedParams :=
  (d.abandon_posts ..).keeps.sealed

@[simp] theorem Device.subSettle_sealed (n who : Nat) : (d.subSettle n who).sealedParams = d.sealedParams := (d.subSettle_posts ..).keeps.sealed

@[simp] theorem Device.endSub_sealed (n who cause : Nat) : (d.endSub n who cause).sealedParams = d.sealedParams := by
  unfold Device.endSub
  split <;> simp

@[simp] theorem Device.taken_sealed (n who useq : Nat) : (d.taken n who useq).sealedParams = d.sealedParams := by simp [Device.taken]

@[simp] theorem Device.sendQ1_sealed (node type queue seq : Nat) : (d.sendQ1 node type queue seq).sealedParams = d.sealedParams :=
  (d.sendQ1_posts ..).keeps.sealed

@[simp] theorem Device.pullBack_sealed (p : Nat) (out : TxFrame → Bool) : (d.pullBack p out).sealedParams = d.sealedParams :=
  (d.pullBack_posts ..).keeps.sealed
@[simp] theorem Device.startReset_sealed (n who : Nat) : (d.startReset n who).sealedParams = d.sealedParams := by simp [Device.startReset]
@[simp] theorem Device.resetIfReliable_sealed (n who : Nat) : (d.resetIfReliable n who).sealedParams = d.sealedParams :=
  (d.resetIfReliable_posts ..).keeps.sealed
@[simp] theorem Device.suspendNode_sealed (node : Nat) : (d.suspendNode node).sealedParams = d.sealedParams := (d.suspendNode_posts ..).keeps.sealed
@[simp] theorem Device.resumeNode_sealed (node : Nat) : (d.resumeNode node).sealedParams = d.sealedParams := (d.resumeNode_posts ..).keeps.sealed
@[simp] theorem Device.portEvent_sealed (p : Nat) : (d.portEvent p).sealedParams = d.sealedParams := (d.portEvent_posts ..).keeps.sealed
@[simp] theorem Device.linkEvent_sealed (p code cause : Nat) : (d.linkEvent p code cause).sealedParams = d.sealedParams :=
  (d.linkEvent_posts ..).keeps.sealed
@[simp] theorem Device.sendOn_sealed (p : Nat) (f : BitVec 512) : (d.sendOn p f).sealedParams = d.sealedParams := (d.sendOn_posts ..).keeps.sealed
@[simp] theorem Device.noteTopo_sealed (k : Nat × Nat) : (d.noteTopo k).sealedParams = d.sealedParams := (d.noteTopo_posts ..).keeps.sealed
@[simp] theorem Device.flood_sealed (type body : Nat) : (d.flood type body).sealedParams = d.sealedParams := (d.flood_posts ..).keeps.sealed

@[simp] theorem Device.topo_sealed (p type : Nat) (f : BitVec 512) (act : Device → Device) (h : ∀ d, (act d).sealedParams = d.sealedParams) :
    (d.topo p type f act).sealedParams = d.sealedParams := by
  unfold Device.topo
  split
  · rfl
  · simp [h]

@[simp] theorem Device.unreserve_sealed (q : Nat) : (d.unreserve q).sealedParams = d.sealedParams := (d.unreserve_posts ..).keeps.sealed

@[simp] theorem Device.sendAllowances_sealed : (d.sendAllowances).sealedParams = d.sealedParams := d.sendAllowances_posts.keeps.sealed
@[simp] theorem Device.requestResv_sealed (v : Resv) : (d.requestResv v).sealedParams = d.sealedParams := (d.requestResv_posts ..).keeps.sealed
@[simp] theorem Device.requestAll_sealed : (d.requestAll).sealedParams = d.sealedParams := d.requestAll_posts.keeps.sealed
@[simp] theorem Device.recountHops_sealed : (d.recountHops).sealedParams = d.sealedParams := d.recountHops_posts.keeps.sealed

@[simp] theorem Device.joinEvent_sealed (node : Nat) (uid : BitVec 64) (stepped : Bool) (epoch : Nat) :
    (d.joinEvent node uid stepped epoch).sealedParams = d.sealedParams := (d.joinEvent_posts ..).keeps.sealed

@[simp] theorem Device.leaveEvent_sealed (node : Nat) (uid : BitVec 64) (cause : Nat) : (d.leaveEvent node uid cause).sealedParams = d.sealedParams :=
  (d.leaveEvent_posts ..).keeps.sealed

@[simp] theorem Device.sendMembers_sealed : (d.sendMembers).sealedParams = d.sealedParams := d.sendMembers_posts.keeps.sealed

@[simp] theorem Device.sendCalendar_sealed : (d.sendCalendar).sealedParams = d.sealedParams := by
  unfold Device.sendCalendar
  split <;> simp

@[simp] theorem Device.memberGone_sealed (node cause : Nat) : (d.memberGone node cause).sealedParams = d.sealedParams := by
  unfold Device.memberGone
  split <;> simp

@[simp] theorem Device.memberCome_sealed (m : Member) (stepped : Bool) (epoch : Nat) :
    (d.memberCome m stepped epoch).sealedParams = d.sealedParams := by
  simp [Device.memberCome]

@[simp] theorem Device.leaveRing_sealed : (d.leaveRing).sealedParams = d.sealedParams := by simp [Device.leaveRing]
@[simp] theorem Device.sendJoin_sealed : (d.sendJoin).sealedParams = d.sealedParams := by simp [Device.sendJoin]
@[simp] theorem Device.freeRun_sealed : (d.freeRun).sealedParams = d.sealedParams := by simp [Device.freeRun]
@[simp] theorem Device.mergeLeave_sealed : (d.mergeLeave).sealedParams = d.sealedParams := by simp [Device.mergeLeave]

@[simp] theorem Device.wrapEvent_sealed (wrap : Bool) (w e : Nat) : (d.wrapEvent wrap w e).sealedParams = d.sealedParams :=
  (d.wrapEvent_posts ..).keeps.sealed
@[simp] theorem Device.leaveIfAlone_sealed : (d.leaveIfAlone).sealedParams = d.sealedParams := by simp [Device.leaveIfAlone]

@[simp] theorem Device.sendWindow_sealed (p : Nat) : (d.sendWindow p).sealedParams = d.sealedParams := by simp [Device.sendWindow]
@[simp] theorem Device.lookAround_sealed (p : Nat) : (d.lookAround p).sealedParams = d.sealedParams := by simp [Device.lookAround]

@[simp] theorem Device.floodElect_sealed : (d.floodElect).sealedParams = d.sealedParams := d.floodElect_posts.keeps.sealed

@[simp] theorem Device.markerLock_sealed (p : Nat) (f : BitVec 512) : (d.markerLock p f).sealedParams = d.sealedParams := by simp [Device.markerLock]
@[simp] theorem Device.timeFlit_sealed (p : Nat) (f : BitVec 512) : (d.timeFlit p f).sealedParams = d.sealedParams := by
  unfold Device.timeFlit
  dsimp only
  (repeat' split) <;> simp

@[simp] theorem Device.ringTimeEvent_sealed (locked : Bool) (offset : Int) : (d.ringTimeEvent locked offset).sealedParams = d.sealedParams :=
  (d.ringTimeEvent_posts ..).keeps.sealed

@[simp] theorem Device.holdoverEnd_sealed : (d.holdoverEnd).sealedParams = d.sealedParams := by
  unfold Device.holdoverEnd
  split <;> simp

@[simp] theorem Device.takeGrant_sealed (p queue cells : Nat) : (d.takeGrant p queue cells).sealedParams = d.sealedParams := by
  unfold Device.takeGrant
  dsimp only
  (repeat' split) <;> simp

@[simp] theorem Device.creditFlit_sealed (p : Nat) (f : BitVec 512) : (d.creditFlit p f).sealedParams = d.sealedParams := by simp [Device.creditFlit]

@[simp] theorem Device.joinAck_sealed (f : BitVec 512) : (d.joinAck f).sealedParams = d.sealedParams := by simp [Device.joinAck]
@[simp] theorem Device.tableArrived_sealed (t : List Member) : (d.tableArrived t).sealedParams = d.sealedParams := by
  unfold Device.tableArrived
  split <;> simp

@[simp] theorem Device.calendarMsg_sealed (f : BitVec 512) : (d.calendarMsg f).sealedParams = d.sealedParams := by
  unfold Device.calendarMsg
  extract_lets k had all c taken
  have htaken : taken.sealedParams = d.sealedParams := rfl
  split
  · rfl
  · split
    · rfl
    · split
      · exact htaken
      · exact (taken.setCalendar_sealed c).trans htaken

@[simp] theorem Device.degradeWindow_sealed (p errors symbols bad : Nat) : (d.degradeWindow p errors symbols bad).sealedParams = d.sealedParams := by
  simp [Device.degradeWindow]

@[simp] theorem Device.portStart_sealed (p : Nat) : (d.portStart p).sealedParams = d.sealedParams := by simp [Device.portStart]

@[simp] theorem Device.releaseResv_sealed (q : Nat) : (d.releaseResv q).sealedParams = d.sealedParams := by
  unfold Device.releaseResv
  split <;> simp

@[simp] theorem Device.rebalance_sealed (q : Nat) : (d.rebalance q).sealedParams = d.sealedParams := by
  unfold Device.rebalance
  dsimp only
  (repeat' split) <;> simp

@[simp] theorem Device.cellRequest_sealed (n flags recsize records info : Nat) (unit : Bytes) :
    (d.cellRequest n flags recsize records info unit).sealedParams = d.sealedParams := by
  unfold Device.cellRequest
  (repeat' split) <;> simp

@[simp] theorem Device.dropPartial_sealed (n src reason : Nat) :
    (d.dropPartial n src reason).sealedParams = d.sealedParams := by simp [Device.dropPartial]

@[simp] theorem Device.frameAppend_sealed (p : Nat) : (d.frameAppend p).sealedParams = d.sealedParams := by
  unfold Device.frameAppend
  split <;> simp [Device.appendFrame, Device.refuseQ0, Device.growCells, Device.completeUnit, Device.arriveQ0]

@[simp] theorem Device.delivered_sealed (n who : Nat) : (d.delivered n who).sealedParams = d.sealedParams := by
  unfold Device.delivered
  split <;> simp

theorem Device.q1Take_sealed (d x : Device) (type n seq src : Nat) (h : d.q1Take type = some (n, seq, src, x)) : x.sealedParams = d.sealedParams := by
  unfold Device.q1Take at h
  split at h
  · exact absurd h nofun
  · split at h
    · cases h; simp
    · exact absurd h nofun

@[simp] theorem Device.q1Reset_sealed : d.q1Reset.sealedParams = d.sealedParams := by
  unfold Device.q1Reset
  split
  · rfl
  · next n seq src x h =>
    rw [← Device.q1Take_sealed _ _ _ _ _ _ h]
    dsimp only
    (repeat' split) <;> simp

@[simp] theorem Device.q1Resync_sealed : d.q1Resync.sealedParams = d.sealedParams := by
  unfold Device.q1Resync
  split
  · rfl
  · next n seq src x h =>
    rw [← Device.q1Take_sealed _ _ _ _ _ _ h]
    simp

@[simp] theorem Device.queueStart_sealed (n : Nat) : (d.queueStart n).sealedParams = d.sealedParams := by simp [Device.queueStart]

@[simp] theorem Device.hostMissed_sealed (n : Nat) : (d.hostMissed n).2.sealedParams = d.sealedParams := by
  unfold Device.hostMissed
  split <;> simp

@[simp] theorem Device.readQueue_sealed (n : Nat) : (d.readQueue n).1.sealedParams = d.sealedParams := by
  unfold Device.readQueue
  dsimp only
  (repeat' split) <;> simp

@[simp] theorem Device.camEvent_sealed (p : Nat) : (d.camEvent p).sealedParams = d.sealedParams := by simp [Device.camEvent]
@[simp] theorem Device.camErr_sealed (p low : Nat) : (d.camErr p low).sealedParams = d.sealedParams := by simp [Device.camErr]
@[simp] theorem Device.camStart_sealed (p : Nat) : (d.camStart p).sealedParams = d.sealedParams := by simp [Device.camStart]
@[simp] theorem Device.camStop_sealed (p : Nat) : (d.camStop p).sealedParams = d.sealedParams := by simp [Device.camStop]
@[simp] theorem Device.camOn_sealed (p : Nat) : (d.camOn p).sealedParams = d.sealedParams := by simp [Device.camOn]
@[simp] theorem Device.camOff_sealed (p : Nat) : (d.camOff p).sealedParams = d.sealedParams := by simp [Device.camOff]

@[simp] theorem Device.camDrop_sealed (p reason : Nat) (h : BitVec 32) : (d.camDrop p reason h).sealedParams = d.sealedParams := by
  unfold Device.camDrop
  split <;> simp

@[simp] theorem Device.packet_sealed (p : Nat) (pkt : CsiPacket) : (d.packet p pkt).sealedParams = d.sealedParams := by
  unfold Device.packet
  dsimp only
  (repeat' split) <;> simp [Device.camUnit]

@[simp] theorem Device.csi_sealed (p : Nat) (pkt : CsiPacket) : (d.csi p pkt).sealedParams = d.sealedParams := by
  unfold Device.csi
  (repeat' split) <;> simp

end Sys2Proof.Machine
end

section
/-! The field die leaves the sealed parameters alone (R383). -/

namespace Sys2Proof.Machine

open Sys2Proof

variable (d : Device)

@[simp] theorem Device.lostUnit_sealed (queue reason : Nat) : (d.lostUnit queue reason).sealedParams = d.sealedParams := by simp [Device.lostUnit]
@[simp] theorem Device.addMark_sealed (cls idx : Nat) : (d.addMark cls idx).sealedParams = d.sealedParams := by simp [Device.addMark]

@[simp] theorem Device.tell_sealed (m : FieldMsg) : (d.tell m).sealedParams = d.sealedParams := by
  unfold Device.tell
  split <;> simp [Device.tellSilence]

@[simp] theorem Device.fieldMsg_sealed (m : FieldMsg) : (d.fieldMsg m).sealedParams = d.sealedParams := by simp [Device.fieldMsg]

@[simp] theorem Device.deliver_sealed (p : Bytes) : (d.deliver p).sealedParams = d.sealedParams := by
  unfold Device.deliver
  split <;> simp

@[simp] theorem Device.fieldEvent_sealed (id source payload : Nat) : (d.fieldEvent id source payload).sealedParams = d.sealedParams := by
  simp [Device.fieldEvent]

@[simp] theorem Device.fieldRec_sealed (id source payload kind severity : Nat) (extra : Bytes) :
    (d.fieldRec id source payload kind severity extra).sealedParams = d.sealedParams := by
  simp [Device.fieldRec]

@[simp] theorem Device.fieldLimited_sealed (id source sub len payload add : Nat) :
    (d.fieldLimited id source sub len payload add).sealedParams = d.sealedParams := by
  simp [Device.fieldLimited]

@[simp] theorem Device.fieldIntegrity_sealed (cls idx act : Nat) : (d.fieldIntegrity cls idx act).sealedParams = d.sealedParams := by
  unfold Device.fieldIntegrity
  dsimp only
  (repeat' split) <;> simp

@[simp] theorem Device.fieldIntact_sealed (cls idx : Nat) : (d.fieldIntact cls idx).sealedParams = d.sealedParams := by simp [Device.fieldIntact]

@[simp] theorem Device.fieldChecked_sealed (ok : Bool) (cls idx : Nat) : (d.fieldChecked ok cls idx).sealedParams = d.sealedParams := by
  simp [Device.fieldChecked]

@[simp] theorem Device.seqTrigger_sealed (q : Nat) : (d.seqTrigger q).sealedParams = d.sealedParams := by
  unfold Device.seqTrigger
  dsimp only
  (repeat' split) <;> simp [Device.seqCount]

@[simp] theorem Device.seqTriggers_sealed (p : BitVec 128 → Bool) : (d.seqTriggers p).sealedParams = d.sealedParams := by simp [Device.seqTriggers]

@[simp] theorem Device.ranBackground_sealed (c : Nat) (l : List (Nat × Bool)) : (d.ranBackground c l).sealedParams = d.sealedParams := by
  simp [Device.ranBackground]

@[simp] theorem Device.takeSlots_sealed (c n : Nat) : (d.takeSlots c n).sealedParams = d.sealedParams := by simp [Device.takeSlots]

@[simp] theorem Device.endDiag_sealed (k : Nat) (cut : Bool) : (d.endDiag k cut).sealedParams = d.sealedParams := by
  unfold Device.endDiag
  split <;> simp [Device.diagEvidence, Device.crossEvidence]

@[simp] theorem Device.endDiags_sealed (cut : Bool) : (d.endDiags cut).sealedParams = d.sealedParams := by simp [Device.endDiags]

@[simp] theorem Device.setSwitch_sealed (k : Nat) (on pwm : Bool) : (d.setSwitch k on pwm).sealedParams = d.sealedParams := by
  simp [Device.setSwitch, Device.switchOn, Device.switchOff]

@[simp] theorem Device.driveFn_sealed (k : Nat) : (d.driveFn k).sealedParams = d.sealedParams := by
  unfold Device.driveFn
  dsimp only
  (repeat' split) <;> simp

@[simp] theorem Device.driveOne_sealed (k : Nat) (pwm : Bool) : (d.driveOne k pwm).sealedParams = d.sealedParams := by
  simp [Device.driveOne, Device.setByEntry]

@[simp] theorem Device.drive_sealed (k : Nat) (pwm : Bool) : (d.drive k pwm).sealedParams = d.sealedParams := by simp [Device.drive]
@[simp] theorem Device.applyAll_sealed (safe : Bool) (source : Nat) :
    (d.applyAll safe source).sealedParams = d.sealedParams := by simp [Device.applyAll]
@[simp] theorem Device.autoRemap_sealed (k : Nat) : (d.autoRemap k).sealedParams = d.sealedParams := by simp [Device.autoRemap]
@[simp] theorem Device.foundDark_sealed (k cause : Nat) : (d.foundDark k cause).sealedParams = d.sealedParams := by simp [Device.foundDark]
@[simp] theorem Device.foundShort_sealed (k : Nat) (on : Bool) : (d.foundShort k on).sealedParams = d.sealedParams := by simp [Device.foundShort]
@[simp] theorem Device.outStop_sealed (k : Nat) : (d.outStop k).sealedParams = d.sealedParams := by simp [Device.outStop]
@[simp] theorem Device.limitStop_sealed (k reason : Nat) : (d.limitStop k reason).sealedParams = d.sealedParams := by simp [Device.limitStop]

@[simp] theorem Device.modEnd_sealed (s : Side) (g : BridgeEnd → BridgeEnd) : (d.modEnd s g).sealedParams = d.sealedParams := by
  unfold Device.modEnd
  split <;> simp

@[simp] theorem Device.storeReady_sealed : (d.storeReady).sealedParams = d.sealedParams := by
  unfold Device.storeReady
  split <;> simp [Device.storeChunk]

@[simp] theorem Device.endChunk_sealed : (d.endChunk).sealedParams = d.sealedParams := by simp [Device.endChunk]
@[simp] theorem Device.chunkStart_sealed (p : Bytes) : (d.chunkStart p).sealedParams = d.sealedParams := by simp [Device.chunkStart]

@[simp] theorem Device.bulkSlot_sealed (s : Side) : (d.bulkSlot s).sealedParams = d.sealedParams := by
  unfold Device.bulkSlot
  split <;> simp

@[simp] theorem Device.bridgeCycle_sealed (s : Side) : (d.bridgeCycle s).sealedParams = d.sealedParams := by
  unfold Device.bridgeCycle
  split <;> simp

@[simp] theorem Device.chan0_sealed (s : Side) (fseq : Nat) (p : Bytes) : (d.chan0 s fseq p).sealedParams = d.sealedParams := by
  unfold Device.chan0
  split <;> simp

@[simp] theorem Device.bulkFrame_sealed (s : Side) (f : BitVec 512) : (d.bulkFrame s f).sealedParams = d.sealedParams := by
  unfold Device.bulkFrame
  split <;> simp [Device.chan1, Device.chunkData, Device.chunkGap]

@[simp] theorem Device.compareAt_sealed (k : Nat) : (d.compareAt k).sealedParams = d.sealedParams := by simp [Device.compareAt]

@[simp] theorem Device.fieldSilenceEnds_sealed : (d.fieldSilenceEnds).sealedParams = d.sealedParams := by
  unfold Device.fieldSilenceEnds
  split <;> simp

@[simp] theorem Device.takeSafe_sealed : (d.takeSafe).sealedParams = d.sealedParams := by
  unfold Device.takeSafe
  split <;> simp

@[simp] theorem Device.applyAspect_sealed : (d.applyAspect).sealedParams = d.sealedParams := by
  unfold Device.applyAspect
  split <;> simp

@[simp] theorem Device.coreSilenceEnds_sealed : (d.coreSilenceEnds).sealedParams = d.sealedParams := by
  unfold Device.coreSilenceEnds
  split <;> simp

@[simp] theorem Device.coreResume_sealed (ack : Nat) (anew : Bool) :
    (d.coreResume ack anew).sealedParams = d.sealedParams := by simp [Device.coreResume]
@[simp] theorem Device.diagSlot_sealed (p : Nat) (x : DiagSense) : (d.diagSlot p x).sealedParams = d.sealedParams := by simp [Device.diagSlot]

@[simp] theorem Device.sagEpisode_sealed (g mv : Nat) (uv : Bool) : (d.sagEpisode g mv uv).sealedParams = d.sealedParams := by
  unfold Device.sagEpisode
  split <;> simp

@[simp] theorem Device.sagClose_sealed (g : Nat) : (d.sagClose g).sealedParams = d.sealedParams := by
  unfold Device.sagClose
  dsimp only
  (repeat' split) <;> simp

@[simp] theorem Device.sagBegin_sealed (g mv : Nat) : (d.sagBegin g mv).sealedParams = d.sealedParams := by simp [Device.sagBegin]
@[simp] theorem Device.sagEnd_sealed (g mv : Nat) : (d.sagEnd g mv).sealedParams = d.sealedParams := by simp [Device.sagEnd]
@[simp] theorem Device.uvOff_sealed (g mv : Nat) : (d.uvOff g mv).sealedParams = d.sealedParams := by simp [Device.uvOff]

@[simp] theorem Device.softStep_sealed (g : Nat) : (d.softStep g).sealedParams = d.sealedParams := by
  unfold Device.softStep
  dsimp only
  (repeat' split) <;> simp

@[simp] theorem Device.nvmWaits_sealed (k : NvmKind) : (d.nvmWaits k).sealedParams = d.sealedParams := by simp [Device.nvmWaits]
@[simp] theorem Device.nvmDone_sealed (k : NvmKind) : (d.nvmDone k).sealedParams = d.sealedParams := by simp [Device.nvmDone]
@[simp] theorem Device.applyBlock_sealed (b : BitVec 11392) : (d.applyBlock b).sealedParams = d.sealedParams := by simp [Device.applyBlock]
@[simp] theorem Device.blockWaits_sealed : (d.blockWaits).sealedParams = d.sealedParams := by simp [Device.blockWaits]

@[simp] theorem Device.askRemap_sealed (k : Nat) (set : Bool) : (d.askRemap k set).1.sealedParams = d.sealedParams := by
  unfold Device.askRemap
  dsimp only
  (repeat' split) <;> simp

@[simp] theorem Device.offerUnit_sealed (queue : Nat) (period cut : Bool) (seq count time : Nat) (body : Bytes) :
    (d.offerUnit queue period cut seq count time body).sealedParams = d.sealedParams := by
  simp [Device.offerUnit]

@[simp] theorem Device.closePeriods_sealed : (d.closePeriods).sealedParams = d.sealedParams := by simp [Device.closePeriods]
@[simp] theorem Device.storeInputs_sealed (c : BitVec 1088) : (d.storeInputs c).sealedParams = d.sealedParams := by simp [Device.storeInputs]

@[simp] theorem Device.periodRecord_sealed (k mean edges : Nat) (timeout : Bool) :
    (d.periodRecord k mean edges timeout).sealedParams = d.sealedParams := by
  simp [Device.periodRecord]

@[simp] theorem Device.inRise_sealed (k : Nat) : (d.inRise k).sealedParams = d.sealedParams := by
  unfold Device.inRise
  dsimp only
  (repeat' split) <;> simp

@[simp] theorem Device.periodTimeout_sealed (k : Nat) : (d.periodTimeout k).sealedParams = d.sealedParams := by
  unfold Device.periodTimeout
  dsimp only
  (repeat' split) <;> simp

@[simp] theorem Device.adcEvent_sealed (i : FnId) (source minOff : Nat) : (d.adcEvent i source minOff).sealedParams = d.sealedParams := by
  simp [Device.adcEvent]

@[simp] theorem Device.convEvent_sealed (c : Nat) : (d.convEvent c).sealedParams = d.sealedParams := by simp [Device.convEvent]
@[simp] theorem Device.seqEvent_sealed (q : Nat) : (d.seqEvent q).sealedParams = d.sealedParams := by simp [Device.seqEvent]
@[simp] theorem Device.excEvent_sealed : (d.excEvent).sealedParams = d.sealedParams := by simp [Device.excEvent]
@[simp] theorem Device.seqFault_sealed (q : Nat) : (d.seqFault q).sealedParams = d.sealedParams := by simp [Device.seqFault]
@[simp] theorem Device.sliceOut_sealed (c : Nat) (b : Bool) : (d.sliceOut c b).sealedParams = d.sealedParams := by simp [Device.sliceOut]

@[simp] theorem Device.background_sealed (c : Nat) (b : Bool) (offset gain skew : Int) :
    (d.background c b offset gain skew).sealedParams = d.sealedParams := by
  unfold Device.background
  extract_lets x unit dg drift n checked
  have hchecked : checked.sealedParams = d.sealedParams := by simp [checked]
  clear_value checked n
  generalize (if b then x.bgB else x.bgA) = last, (if b then x.usableB else x.usableA) = usable
  split
  · rfl
  · split
    · exact (checked.sliceOut_sealed c b).trans hchecked
    · exact hchecked

@[simp] theorem Device.convStart_sealed (c : Nat) : (d.convStart c).sealedParams = d.sealedParams := by simp [Device.convStart]
@[simp] theorem Device.captureAbort_sealed : (d.captureAbort).sealedParams = d.sealedParams := by simp [Device.captureAbort]
@[simp] theorem Device.convStop_sealed (c : Nat) : (d.convStop c).sealedParams = d.sealedParams := by simp [Device.convStop]

@[simp] theorem Device.calRunDone_sealed (codes : List Int) : (d.calRunDone codes).sealedParams = d.sealedParams := by
  unfold Device.calRunDone
  split <;> simp [Device.setShadow]

@[simp] theorem Device.storeCoeffs_sealed : (d.storeCoeffs).sealedParams = d.sealedParams := by simp [Device.storeCoeffs]

@[simp] theorem Device.captureStart_sealed : (d.captureStart).sealedParams = d.sealedParams := by
  unfold Device.captureStart
  split <;> simp

@[simp] theorem Device.captureEnd_sealed (codes : List Nat) : (d.captureEnd codes).sealedParams = d.sealedParams := by
  unfold Device.captureEnd
  split <;> simp

@[simp] theorem Device.captureTimeout_sealed : (d.captureTimeout).sealedParams = d.sealedParams := by
  unfold Device.captureTimeout
  split <;> simp

@[simp] theorem Device.excStart_sealed : (d.excStart).sealedParams = d.sealedParams := by simp [Device.excStart]
@[simp] theorem Device.excStop_sealed : (d.excStop).sealedParams = d.sealedParams := by simp [Device.excStop]
@[simp] theorem Device.excHalf_sealed : (d.excHalf).sealedParams = d.sealedParams := by simp [Device.excHalf, Device.excPositive]

@[simp] theorem Device.blankHoldEnd_sealed : d.blankHoldEnd.sealedParams = d.sealedParams := by
  unfold Device.blankHoldEnd
  split
  · rfl
  · extract_lets resumed
    have hresumed : resumed.sealedParams = d.sealedParams := by simp [resumed]
    clear_value resumed
    split
    · exact hresumed
    · exact hresumed

@[simp] theorem Device.pullOn_sealed (q : Nat) : (d.pullOn q).sealedParams = d.sealedParams := by
  unfold Device.pullOn
  dsimp only
  (repeat' split) <;> simp

@[simp] theorem Device.pullOff_sealed (q : Nat) : (d.pullOff q).sealedParams = d.sealedParams := by simp [Device.pullOff]

@[simp] theorem Device.runStart_sealed (q : Nat) : (d.runStart q).sealedParams = d.sealedParams := by
  unfold Device.runStart
  dsimp only
  (repeat' split) <;> simp

@[simp] theorem Device.entryStart_sealed (q : Nat) : (d.entryStart q).sealedParams = d.sealedParams := by
  unfold Device.entryStart
  dsimp only
  (repeat' split) <;> simp

@[simp] theorem Device.keepResult_sealed (q i : Nat) (e : BitVec 64) (t : Taken) (time : Nat) :
    (d.keepResult q i e t time).sealedParams = d.sealedParams := by
  unfold Device.keepResult
  split <;> simp [Device.openWire, Device.putResult]

@[simp] theorem Device.entryDone_sealed (q : Nat) (codes : List Int) : (d.entryDone q codes).sealedParams = d.sealedParams := by
  unfold Device.entryDone
  dsimp only
  (repeat' split) <;> simp [Device.entryResult, Device.overranged]

@[simp] theorem Device.runEnd_sealed (q : Nat) : (d.runEnd q).sealedParams = d.sealedParams := by
  unfold Device.runEnd
  dsimp only
  (repeat' split) <;> simp [Device.runUnit, Device.seqOffNow]

@[simp] theorem Device.seqStart_sealed (q : Nat) : (d.seqStart q).sealedParams = d.sealedParams := by simp [Device.seqStart]

/-- One output after a full diagnostic cycle (R309), the body of its readback stage. -/
theorem Device.cycleEnd_sealed (k : Nat) :
    (match (d.field.out k).attrAt with
      | some t =>
        if d.now < t + 10 * ms then d
        else
          let x := d.modOut k (fun o => { o with attrAt := none })
          if (d.field.out k).persisted then x.foundShort k false else x
      | none => d).sealedParams = d.sealedParams := by
  dsimp only
  (repeat' split) <;> simp

@[simp] theorem Device.readbacks_sealed (rb : BitVec 16) : (d.readbacks rb).sealedParams = d.sealedParams := by
  unfold Device.readbacks
  extract_lets read counted
  have hcounted : counted.sealedParams = d.sealedParams := by simp [counted, read]
  refine (Device.sealed_foldl _ ?cycle _ _).trans hcounted
  case cycle =>
    intro d k
    exact d.cycleEnd_sealed k

@[simp] theorem Device.storeRemaps_sealed : (d.storeRemaps).sealedParams = d.sealedParams := by simp [Device.storeRemaps]

@[simp] theorem Device.loopSample_sealed (l code : Nat) : (d.loopSample l code).sealedParams = d.sealedParams := by simp [Device.loopSample]
@[simp] theorem Device.groupSample_sealed (g code : Nat) : (d.groupSample g code).sealedParams = d.sealedParams := by simp [Device.groupSample]
@[simp] theorem Device.doRemap_sealed (r : RemapReq) : (d.doRemap r).sealedParams = d.sealedParams := by simp [Device.doRemap]

@[simp] theorem Device.remapTick_sealed : d.remapTick.sealedParams = d.sealedParams := by
  unfold Device.remapTick
  dsimp only
  split
  · rfl
  · simp

@[simp] theorem Device.nvmRelease_sealed : d.nvmRelease.sealedParams = d.sealedParams := by
  unfold Device.nvmRelease
  dsimp only
  split <;> simp

@[simp] theorem Device.fieldTick_sealed (x : FieldSense) : (d.fieldTick x).sealedParams = d.sealedParams := by
  unfold Device.fieldTick
  dsimp only
  (repeat' split) <;> simp

end Sys2Proof.Machine
end

section
/-! The log, resets, the supply, self-test, security and the boot leave the sealed parameters alone (R383). -/

namespace Sys2Proof.Machine

open Sys2Proof

@[simp] theorem Rx.cleared_lens (r : Rx) (now : Nat) : (r.cleared now).lens = r.lens := by simp only [Rx.cleared]
@[simp] theorem Bist.cleared_cfg (b : Bist) (now : Nat) : (b.cleared now).cfg = b.cfg := by simp only [Bist.cleared]
@[simp] theorem Sec.cleared_resv (s : Sec) : s.cleared.resv = s.resv := by simp only [Sec.cleared]
@[simp] theorem Sec.putBoot_resv (s : Sec) (r : BootRec) : (s.putBoot r).resv = s.resv := by simp only [Sec.putBoot]

@[simp] theorem Bist.saveUnit_cfg (b : Bist) (n clk : Nat) : (b.saveUnit n clk).cfg = b.cfg := by
  unfold Bist.saveUnit
  split <;> rfl

variable (d : Device)

theorem Device.pickSlice_cfg : d.pickSlice.1.cfg = d.bist.cfg := by
  unfold Device.pickSlice
  dsimp only
  (repeat' split) <;> rfl

/-- A self-test state put in place of the present one. -/
theorem Device.modBist_put_sealed (b : Bist) (h : b.cfg = d.bist.cfg) : (d.modBist (fun _ => b)).sealedParams = d.sealedParams := by
  simp [Device.modBist, h]

@[simp] theorem Device.reportRead_sealed : (d.reportRead).sealedParams = d.sealedParams := by simp [Device.reportRead]
@[simp] theorem Device.logReport_sealed : (d.logReport).sealedParams = d.sealedParams := by simp [Device.logReport]

@[simp] theorem Device.bbWrite_sealed : (d.bbWrite).sealedParams = d.sealedParams := by
  unfold Device.bbWrite
  dsimp only
  (repeat' split) <;> simp [Device.markCheck]

@[simp] theorem Device.bbCommit_sealed : d.bbCommit.sealedParams = d.sealedParams := by
  obtain ⟨x, h⟩ := d.bbCommit_keeps
  exact h.sealed

@[simp] theorem Device.sensorEvent_sealed (i : Nat) (excluded : Bool) (rule : Nat) :
    (d.sensorEvent i excluded rule).sealedParams = d.sealedParams := by
  simp [Device.sensorEvent]

@[simp] theorem Device.setStep_sealed (new : Nat) (predict : Bool) : (d.setStep new predict).sealedParams = d.sealedParams := by simp [Device.setStep]

@[simp] theorem Device.cleared_sealed : d.cleared.sealedParams = d.sealedParams := by
  simp [Device.cleared, Fire.cleared]

@[simp] theorem Device.reboot_sealed (cause : Cause) : (d.reboot cause).sealedParams = d.sealedParams := by simp [Device.reboot]
@[simp] theorem Device.powerUp_sealed : (d.powerUp).sealedParams = d.sealedParams := by simp [Device.powerUp, Device.biasStart]
@[simp] theorem Device.fieldWaits_sealed : (d.fieldWaits).sealedParams = d.sealedParams := by simp [Device.fieldWaits]

@[simp] theorem Device.fieldPowerOn_sealed : (d.fieldPowerOn).sealedParams = d.sealedParams := by
  simp [Device.fieldPowerOn, Device.dropSeqs, Device.powerOnChecks, Device.powerOnSags]

@[simp] theorem Device.fieldDown_sealed : (d.fieldDown).sealedParams = d.sealedParams := by simp [Device.fieldDown]
@[simp] theorem Device.setGroups_sealed (vs : List Nat) : (d.setGroups vs).sealedParams = d.sealedParams := by simp [Device.setGroups]

@[simp] theorem Device.nvmTimeout_sealed (k : NvmKind) : (d.nvmTimeout k).sealedParams = d.sealedParams := by
  unfold Device.nvmTimeout
  dsimp only
  (repeat' split) <;> simp [Device.nvmFirst]

@[simp] theorem Device.sliceStart_sealed (clocks : Bool) : (d.sliceStart clocks).sealedParams = d.sealedParams := by
  unfold Device.sliceStart
  dsimp only
  (repeat' split)
  · rfl
  · exact d.modBist_put_sealed _ d.pickSlice_cfg
  · exact d.modBist_put_sealed _ (by simp [d.pickSlice_cfg])
  · exact d.modBist_put_sealed _ d.pickSlice_cfg
  · refine (Device.modRx_sealed _ _ ?_).trans (d.modBist_put_sealed _ (by simp [d.pickSlice_cfg]))
    exact fun _ => rfl

@[simp] theorem Device.dropHeld_sealed (n : Nat) (held : List Nat → List Nat → Bool) : (d.dropHeld n held).sealedParams = d.sealedParams := by
  simp [Device.dropHeld]

@[simp] theorem Device.freeCell_sealed (c : Nat) : (d.freeCell c).sealedParams = d.sealedParams := by
  unfold Device.freeCell
  split <;> simp

@[simp] theorem Device.freeDesc_sealed (x : Nat) : (d.freeDesc x).sealedParams = d.sealedParams := by
  unfold Device.freeDesc
  split <;> simp

@[simp] theorem Device.withdrawRegion_sealed (idx : Nat) : (d.withdrawRegion idx).1.sealedParams = d.sealedParams := by
  unfold Device.withdrawRegion
  (repeat' split) <;> simp

@[simp] theorem Device.bistFail_sealed (cls idx code : Nat) (w : Word) (rec_ : Bool) :
    (d.bistFail cls idx code w rec_).sealedParams = d.sealedParams := by
  simp [Device.bistFail]

@[simp] theorem Device.passBegin_sealed : (d.passBegin).sealedParams = d.sealedParams := by simp [Device.passBegin]
@[simp] theorem Device.passEnd_sealed : (d.passEnd).sealedParams = d.sealedParams := by simp [Device.passEnd]
@[simp] theorem Device.idleGap_sealed : (d.idleGap).sealedParams = d.sealedParams := by simp [Device.idleGap]

@[simp] theorem Device.duplicateMismatch_sealed (which : Nat) : (d.duplicateMismatch which).sealedParams = d.sealedParams := by
  simp [Device.duplicateMismatch]

@[simp] theorem Device.directedDone_sealed (vs : List DirectedVerdict) : (d.directedDone vs).sealedParams = d.sealedParams := by
  unfold Device.directedDone
  split <;> simp

@[simp] theorem Device.leaveMarker_sealed (p : Nat) : (d.leaveMarker p).sealedParams = d.sealedParams := by simp [Device.leaveMarker]
@[simp] theorem Device.shutdown_sealed (cause : Cause) : (d.shutdown cause).sealedParams = d.sealedParams := by simp [Device.shutdown]
@[simp] theorem Device.setRail_sealed (r mv : Nat) : (d.setRail r mv).sealedParams = d.sealedParams := by simp [Device.setRail]
@[simp] theorem Device.supplyEvent_sealed (r kind mv : Nat) : (d.supplyEvent r kind mv).sealedParams = d.sealedParams := by simp [Device.supplyEvent]
@[simp] theorem Device.episode_sealed (r mv : Nat) : (d.episode r mv).sealedParams = d.sealedParams := by simp [Device.episode]

@[simp] theorem Device.episodeEnd_sealed (r kind mv : Nat) : (d.episodeEnd r kind mv).sealedParams = d.sealedParams := by
  unfold Device.episodeEnd
  split <;> simp

@[simp] theorem Device.vbatStart_sealed (mv calm : Nat) : (d.vbatStart mv calm).sealedParams = d.sealedParams := by simp [Device.vbatStart]
@[simp] theorem Device.vbatLowClear_sealed (mv : Nat) : (d.vbatLowClear mv).sealedParams = d.sealedParams := by simp [Device.vbatLowClear]
@[simp] theorem Device.aonMinimum_sealed : (d.aonMinimum).sealedParams = d.sealedParams := by simp [Device.aonMinimum]
@[simp] theorem Device.railWarning_sealed (r mv : Nat) : (d.railWarning r mv).sealedParams = d.sealedParams := by simp [Device.railWarning]
@[simp] theorem Device.railWarningEnd_sealed (r mv : Nat) : (d.railWarningEnd r mv).sealedParams = d.sealedParams := by simp [Device.railWarningEnd]
@[simp] theorem Device.railFault_sealed (r mv : Nat) : (d.railFault r mv).sealedParams = d.sealedParams := by simp [Device.railFault]

@[simp] theorem Device.standbyAfterReply_sealed (old new : Device) : (old.standbyAfterReply new).sealedParams = new.sealedParams := by
  exact (Device.standbyAfterReply_keeps old new).sealed

@[simp] theorem Device.closeWritten_sealed (old new : Device) : (old.closeWritten new).sealedParams = new.sealedParams := by
  unfold Device.closeWritten
  dsimp only
  (repeat' split) <;> simp

@[simp] theorem Device.debugUnlock_sealed (response : BitVec 128) : (d.debugUnlock response).sealedParams = d.sealedParams := by
  unfold Device.debugUnlock
  dsimp only
  (repeat' split) <;> simp

@[simp] theorem Device.modBoot_sealed (f : BootRec → BootRec) : (d.modBoot f).sealedParams = d.sealedParams := by simp [Device.modBoot]

@[simp] theorem Device.fwEvent_sealed (comp kind version slot : Nat) : (d.fwEvent comp kind version slot).sealedParams = d.sealedParams := by
  simp [Device.fwEvent]

@[simp] theorem Device.setStaging_sealed (comp : Nat) (st : Staging) (img : Option Image) :
    (d.setStaging comp st img).sealedParams = d.sealedParams := by
  simp [Device.setStaging]

@[simp] theorem Device.verifyDone_sealed (c : Component) : (d.verifyDone c).sealedParams = d.sealedParams := by
  unfold Device.verifyDone
  dsimp only
  (repeat' split) <;> simp

@[simp] theorem Device.switchDone_sealed : (d.switchDone).sealedParams = d.sealedParams := by
  unfold Device.switchDone
  split <;> simp [Device.afterSwitch]

@[simp] theorem Device.withdrawStart_sealed (f : FnId) : (d.withdrawStart f).sealedParams = d.sealedParams := by
  unfold Device.withdrawStart
  rw [Device.complete_sealed, Device.modFn_sealed]

@[simp] theorem Device.startOf_sealed (x1 : FnId) : (d.startOf x1).sealedParams = d.sealedParams := by
  unfold Device.startOf
  split <;> simp

@[simp] theorem Device.restart_sealed (f : FnId) : (d.restart f).sealedParams = d.sealedParams := by
  unfold Device.restart
  (repeat' split) <;> simp

end Sys2Proof.Machine
end

section
/-! Commands leave the sealed parameters alone, but those of the sealed changes (R383). -/

namespace Sys2Proof.Machine

open Sys2Proof

@[simp] theorem Bist.unmark_cfg (b : Bist) (cls idx : Nat) : (b.unmark cls idx).cfg = b.cfg := by simp [Bist.unmark]
@[simp] theorem Sec.putKey_resv (s : Sec) (slot copy : Nat) (v : BitVec 256) : (s.putKey slot copy v).resv = s.resv := by
  simp only [Sec.putKey, Sec.revoke, Sec.modCopies]

theorem wcpRow?_sealed {i : Instr} {r : WcpRow} (h : wcpRow? i = some r) (hi : sealedOrders i = []) (c : Ctx) (p : Bytes) (d : Device) :
    (r.cmd.run c p d).1.sealedParams = d.sealedParams := by
  cases i <;> cases h
  case sysSessionStatus | sysResultGet | sysSessionOpen | sysPolicySet | sysEventMaskSet | sysReset | scanPlanGet | fireStatusGet |
      fireDoseGet | scanCalendarGet | scanPlanSelect | fireDitherSet | fireEmitterSet | scanFollowSet | rxStatusGet | rxLayoutGet |
      rxMaskGet | rxSurveyGet | rxCoincGet | rxLensGet | rxConfigSet | rxLayoutSet | rxCoincSet | rxMaskWrite | rxWitnessSet |
      rxChannelRetire | rxVbdMeasure | histStatusGet | histPlanecfgGet | histGateGet | histPlaneRead | histTrackGet | histPlanecfgSet |
      histGateSet | histPlaneSend | histTrackClear | retStatusGet | retTemplateGet | zoneMapGet | zoneStateGet | retConfigGet |
      retConfigSet | retTemplateSet | retWindowLearn | calStatusGet | calCoeffGet | calResultGet | calCoeffWrite | calFullStart |
      ringStatusGet | ringPortGet | ringMembersGet | ringResvGet | ringConfigSet | qStatusGet | qSubsGet | qPoolGet | camStatusGet |
      qConfigSet | camFsyncSet | lampStatusGet | lampBlockGet | lampRulesGet | bridgeStatusGet | lampBlockWrite | lampRequestSet |
      inStatusGet | inConfigGet | adcStatusGet | adcResultGet | adcSeqGet | adcCalGet | adcCaptureGet | adcConfigSet | adcTimerSet |
      adcExcSet | adcCalRun | adcCaptureArm | bistStatusGet | bistUnusableGet | bistResultGet | fwStatusGet | fwStageVerify | fwSwitch |
      pwrStatusGet | thermStatusGet | thermConfigSet | pwrStandby | logStatusGet | logRead | logFfRead => rfl
  case sysIdentGet | sysStatusGet | scanPlanCommit | fireEnable | fireDisable | scanTriggerSet | scanFrameTrigger |
      scanCalendarSet | fireKillClear =>
    simp [cmdIdent, cmdStatus, cmdPlanCommit, cmdFireEnable, cmdFireDisable, cmdTriggerSet, cmdFrameTrigger, cmdCalendarSet,
      cmdKillClear]
  case fireStripeClear => exact d.mram_sealed true _ (fun _ => rfl)
  case rxChannelRestore | rxVbdSet | histExportSet | histExportEnable | histExportDisable | histPlaneHold | histPlaneRelease |
      histImportSet | retPointsSet | retRawSet | calCoeffCommit | calFullAbort =>
    simp [cmdChannelRestore, cmdVbdSet, cmdExportSet, cmdExportEnable, cmdExportDisable, cmdPlaneHold, cmdPlaneRelease,
      cmdImportSet, cmdPointsSet, cmdRawSet, cmdCalCoeffCommit, cmdCalFullAbort]
  case ringPortSet | ringPortEnable | ringResvSet | ringResvClear | ringRouteRebalance | qEnable | qDisable |
      qUnsubscribe | qRead | camPortSet | camEnable | camDisable =>
    simp [cmdRingPortSet, cmdRingPortEnable, cmdRingResvSet, cmdRingResvClear, cmdRebalance, cmdQEnable, cmdQDisable,
      Device.queueStop, cmdQUnsubscribe, cmdQRead, cmdCamPortSet, cmdCamEnable, cmdCamDisable]
  case lampBlockCommit | lampFaultClear | lampRemapSet | adcEnable | adcDisable | adcSeqSet | adcSeqEnable | adcSeqDisable
      | adcSeqTrigger | adcExcEnable | adcExcDisable =>
    simp [cmdBlockCommit, cmdFaultClear, Device.clearLatched, cmdRemapSet, cmdAdcEnable, cmdAdcDisable, cmdSeqSet,
      cmdSeqEnable, cmdSeqDisable, Device.seqStop, cmdSeqTrigger, cmdExcEnable, cmdExcDisable]
  case streamEventsSet | streamMirrorSet | bistUnusableClear | secStatusGet | sealIdentGet | fwStageBegin |
      fwStageWrite | fwConfirm | sealResvSet | logMark =>
    simp [cmdEventsSet, cmdMirrorSet, cmdUnusableClear, cmdSecStatus, cmdSealIdent, cmdStageBegin,
      cmdStageWrite, cmdFwConfirm, cmdSealResvSet, cmdLogMark]
  case sysSessionClose | rxMaskCommit | qSubscribe | lampRemapClear | inConfigSet | adcCalCommit | bistDirectedRun | secKeyWrite |
      thermSensorRestore =>
    dsimp only [cmdSessionClose, cmdMaskCommit, cmdQSubscribe, cmdRemapClear, cmdInConfigSet, cmdAdcCalCommit, cmdDirectedRun,
      cmdKeyWrite, cmdSensorRestore]
    split <;> simp [Device.writeKey]
  case scanPlanWrite =>
    dsimp only [cmdPlanWrite, Fire.writePlan]
    split <;> rfl
  case logCountersGet =>
    dsimp only [cmdLogCounters]
    refine Device.sealed_foldl _ (fun d i => ?_) _ d
    exact (d.checkPair_keeps ..).sealed
  case fireBudgetSet | rxLensSet | zoneMapSet | lampRulesSet | bistConfigSet | sealResvClear | ringPortDisable | lcAdvance => cases hi

end Sys2Proof.Machine
end

section
/-! The firing controller's faults and the self-test leave the sealed parameters alone (R383). -/

namespace Sys2Proof.Machine

open Sys2Proof

variable (d : Device)

@[simp] theorem Device.latchKill_sealed : d.latchKill.sealedParams = d.sealedParams := by simp [Device.latchKill]

@[simp] theorem Device.emitFault_sealed : d.emitFault.sealedParams = d.sealedParams := by simp [Device.emitFault]

@[simp] theorem Device.armLead_sealed : d.armLead.sealedParams = d.sealedParams := by simp [Device.armLead]

@[simp] theorem Device.emitFaultPin_sealed (width : Nat) : (d.emitFaultPin width).sealedParams = d.sealedParams := by simp [Device.emitFaultPin]

@[simp] theorem Device.stray_sealed (w at_ : Nat) : (d.stray w at_).sealedParams = d.sealedParams := by
  simp [Device.stray, Device.emitterRecord]

@[simp] theorem Device.darkEvent_sealed (g : Group) (s : Nat) : (d.darkEvent g s).sealedParams = d.sealedParams := by
  simp [Device.darkEvent, Device.emitterRecord]

theorem Fire.chargeSlots_budget (f : Fire) (g : Group) (ok : List Bool) : (f.chargeSlots g ok).budget = f.budget := by
  refine Fire.foldl_budget _ (fun x s => ?_) _ _
  split <;> rfl

@[simp] theorem Rx.witnessEnd_lens (r : Rx) (tested : BitVec 4) (unusable : Nat → Bool) (now ns : Nat) (ws : List (List (Nat × Nat))) :
    (r.witnessEnd tested unusable now ns ws).lens = r.lens := by simp only [Rx.witnessEnd]

@[simp] theorem Rx.crossSample_lens (r : Rx) (ts : Int) (now : Nat) : (r.crossSample ts now).lens = r.lens := by
  unfold Rx.crossSample
  split <;> rfl

@[simp] theorem Rx.retire_lens (r : Rx) (ch : Nat) (v : Bool) : (r.retire ch v).lens = r.lens := by simp only [Rx.retire]

/-- What a shot commanded notes beside the charges (R85, R88). -/
theorem Fire.commanded_budget (f : Fire) (grp : Option Group) (lfsr : BitVec 32) (slotClk dither : Nat) (parity : Bool) (selUntil : Vector Nat 4) :
    ({ f with grp, lfsr, slotClk, dither, parity, selUntil } : Fire).budget = f.budget := rfl

/-- What the receiver notes of a shot commanded (R115, R127). -/
theorem Rx.slotted_lens (r : Rx) (len : Nat) (witTail : Vector WitTail 8) (fireEdges : List Nat) :
    ({ r.nextSlot len with witTail, fireEdges } : Rx).lens = r.lens := by
  have h := r.nextSlot_lens len
  generalize r.nextSlot len = x at h ⊢
  exact h

/-- A firing controller put in place of the present one. -/
theorem Device.modFire_put_sealed (f : Fire) (h : f.budget = d.fire.budget) : (d.modFire (fun _ => f)).sealedParams = d.sealedParams := by
  simp [Device.modFire, h]

@[simp] theorem Device.shot_sealed (ps : List (List (Nat × Nat))) : (d.shot ps).sealedParams = d.sealedParams := by
  unfold Device.shot
  split
  · rfl
  · next g hg =>
    split
    · rfl
    · lift_lets
      extract_lets f lfsr c dither parity ok seen ws fires g' charged edges len begun moved newly dosed dark
      have hslots : f.chargeSlots g ok = charged := rfl
      clear_value charged
      have hcharged : charged.budget = d.fire.budget := by
        rw [← hslots, Fire.chargeSlots_budget]
        exact d.fire.roll_budget _
      have hbegun : begun.sealedParams = d.sealedParams := d.modFire_put_sealed _ ((Fire.commanded_budget ..).trans hcharged)
      clear_value begun
      have hmoved : moved.sealedParams = d.sealedParams := (begun.modRx_sealed _ (fun _ => Rx.slotted_lens ..)).trans hbegun
      clear_value moved
      have hdosed : dosed.sealedParams = d.sealedParams := (Device.sealed_foldl _ (fun d s => d.doseEvent_sealed ..) _ _).trans hmoved
      clear_value dosed
      have hdark : dark.sealedParams = d.sealedParams := (Device.sealed_foldl _ (fun d s => d.darkEvent_sealed ..) _ _).trans hdosed
      clear_value dark
      exact (Device.sealed_foldl _ (fun d p => Device.sealed_foldl _ (fun d t => d.stray_sealed ..) _ _) _ _).trans hdark

@[simp] theorem Device.markUnit_sealed (cls idx : Nat) : (d.markUnit cls idx).1.sealedParams = d.sealedParams := by
  unfold Device.markUnit
  dsimp only
  (repeat' split) <;> simp

@[simp] theorem Device.slicePass_sealed (n : Nat) (w : Word) : (d.slicePass n w).1.sealedParams = d.sealedParams := by
  unfold Device.slicePass
  dsimp only
  (repeat' split) <;> simp

@[simp] theorem Device.sliceFail_sealed (n unit : Nat) (w : Word) : (d.sliceFail n unit w).1.sealedParams = d.sealedParams := by
  unfold Device.sliceFail
  dsimp only
  (repeat' split) <;> simp

@[simp] theorem Device.sliceEnd_sealed (r : SliceResult) : (d.sliceEnd r).1.sealedParams = d.sealedParams := by
  unfold Device.sliceEnd
  dsimp only
  (repeat' split) <;> simp

theorem Device.sliceStopped_sealed (seen : Option Nat) {stop : Device} (h : stop.sealedParams = d.sealedParams) :
    (d.sliceStopped seen stop).1.sealedParams = d.sealedParams := by
  cases seen with
  | none => exact h
  | some u => exact d.sliceEnd_sealed _

@[simp] theorem Device.sliceService_sealed (bus : Bool) (seen : Option Nat) : (d.sliceService bus seen).1.sealedParams = d.sealedParams := by
  unfold Device.sliceService
  split
  · rfl
  · exact d.sliceStopped_sealed seen (by simp)

@[simp] theorem Device.slicePrecond_sealed (cause : Nat) (seen : Option Nat) : (d.slicePrecond cause seen).1.sealedParams = d.sealedParams := by
  unfold Device.slicePrecond
  split
  · rfl
  · exact d.sliceStopped_sealed seen (by simp)

end Sys2Proof.Machine
end

section
/-! Which sealed parameters a row may change, carried through the command protocol and the rows (R383, R388, R440). -/

namespace Sys2Proof.Machine

open Sys2Proof

/-- Two sets of sealed parameters agree in the one of an order of Table 13-7. -/
def Sealed.same (n : Nat) (q p : Sealed) : Prop :=
  match n with
  | 1 => q.budget = p.budget
  | 2 => q.lens = p.lens
  | 3 => q.zmaps = p.zmaps
  | 5 => q.rules = p.rules
  | 6 => q.bist = p.bist
  | 7 => q.resv = p.resv
  | _ => True

theorem Sealed.same_refl (n : Nat) (p : Sealed) : Sealed.same n p p := by
  unfold Sealed.same
  split <;> trivial

/-- The sealed parameters change at most as the row says: those of its orders, and the reservations where a command waits for one. -/
structure Device.SealsBy (i : Instr) (d d' : Device) : Prop where
  but : ∀ n, n ∉ sealedOrders i → Sealed.same n d'.sealedParams d.sealedParams
  asks : answersResv i = true → d'.sealedParams.resv ≠ d.sealedParams.resv → d.AsksSeal

section
variable {i : Instr} {a b c d : Device}

theorem Device.SealsBy.of_same (h : b.sealedParams = a.sealedParams) : a.SealsBy i b :=
  ⟨fun n _ => h ▸ Sealed.same_refl n _, fun _ hne => absurd (congrArg Sealed.resv h) hne⟩

theorem Device.SealsBy.refl (d : Device) : d.SealsBy i d := .of_same rfl

theorem Device.SealsBy.congr (h : a.SealsBy i b) (hs : c.sealedParams = b.sealedParams) : a.SealsBy i c :=
  ⟨hs.symm ▸ h.but, hs.symm ▸ h.asks⟩

/-- What came before, with the parameters as they were and no wait more, takes nothing from it. -/
theorem Device.SealsBy.after (h : b.SealsBy i c) (hw : ∀ w ∈ b.wcp.waits, w ∈ a.wcp.waits) (hs : b.sealedParams = a.sealedParams) :
    a.SealsBy i c :=
  ⟨hs ▸ h.but, fun ha hne => (h.asks ha (hs.symm ▸ hne)).of_waits hw⟩

theorem Device.SealsBy.ite {p : Prop} [Decidable p] (hb : a.SealsBy i b) (hc : a.SealsBy i c) : a.SealsBy i (if p then b else c) := by
  split <;> assumption

theorem sealedOrders_of_answersResv (h : answersResv i = true) : sealedOrders i = [7] := by
  cases i <;> first | rfl | cases h

theorem Device.KeepsSealed.sealsBy (h : a.KeepsSealed b) (hi : answersResv i = true) : a.SealsBy i b := by
  refine ⟨fun n hn => ?_, fun _ => h.resv⟩
  rw [sealedOrders_of_answersResv hi, List.mem_singleton] at hn
  rw [← h.others]
  unfold Sealed.same
  split <;> trivial

/-- A row that may write any of them. -/
theorem Device.SealsBy.of_all (hi : sealedOrders i = [1, 2, 3, 5, 6, 7]) (ha : answersResv i = false) : a.SealsBy i b := by
  refine ⟨fun n hn => ?_, fun h => absurd (ha.symm.trans h) Bool.false_ne_true⟩
  rw [hi] at hn
  unfold Sealed.same
  split <;> trivial

/-- A row that may write one. -/
theorem Device.SealsBy.of_one (k : Nat) (hi : sealedOrders i = [k]) (ha : answersResv i = false)
    (h : ∀ n, n ≠ k → Sealed.same n b.sealedParams a.sealedParams) : a.SealsBy i b :=
  ⟨fun n hn => h n (by rwa [hi, List.mem_singleton] at hn), fun h => absurd (ha.symm.trans h) Bool.false_ne_true⟩

end

/-! The sealed-change commands of the C-die. -/

/-- A write of MRAM, refused or not, leaves alone a parameter that the write itself does. -/
theorem Device.mram_same (d : Device) (n : Nat) {write : Device → Device} (h : ∀ x, Sealed.same n (write x).sealedParams x.sealedParams) :
    Sealed.same n (d.mram false write).sealedParams d.sealedParams := by
  unfold Device.mram
  split
  · exact Sealed.same_refl n _
  · rw [← d.serve_sealed [7]]
    exact h _

theorem cmdBudgetSet_sealed (ctx : Ctx) (p : Bytes) (d : Device) (n : Nat) (hn : n ≠ 1) :
    Sealed.same n (cmdBudgetSet.run ctx p d).1.sealedParams d.sealedParams := by
  simp only [cmdBudgetSet, Device.sealChange_sealed]
  refine d.mram_same n fun x => ?_
  unfold Sealed.same
  split <;> trivial

theorem cmdLensSet_sealed (ctx : Ctx) (p : Bytes) (d : Device) (n : Nat) (hn : n ≠ 2) :
    Sealed.same n (cmdLensSet.run ctx p d).1.sealedParams d.sealedParams := by
  simp only [cmdLensSet, Device.dirty_sealed, Device.sealChange_sealed, Device.pendingEffect_sealed]
  refine d.mram_same n fun x => ?_
  unfold Sealed.same
  split <;> trivial

theorem cmdZoneMapSet_sealed (ctx : Ctx) (p : Bytes) (d : Device) (n : Nat) (hn : n ≠ 3) :
    Sealed.same n (cmdZoneMapSet.run ctx p d).1.sealedParams d.sealedParams := by
  simp only [cmdZoneMapSet, Device.dirty_sealed, Device.sealChange_sealed, Device.pendingEffect_sealed]
  refine d.mram_same n fun x => ?_
  unfold Sealed.same
  split <;> trivial

theorem cmdRulesSet_sealed (ctx : Ctx) (p : Bytes) (d : Device) (n : Nat) (hn : n ≠ 5) :
    Sealed.same n (cmdRulesSet.run ctx p d).1.sealedParams d.sealedParams := by
  simp only [cmdRulesSet, Device.sealChange_sealed, Device.pendingEffect_sealed]
  refine d.mram_same n fun x => ?_
  unfold Sealed.same
  split <;> trivial

theorem cmdBistConfig_sealed (ctx : Ctx) (p : Bytes) (d : Device) (n : Nat) (hn : n ≠ 6) :
    Sealed.same n (cmdBistConfig.run ctx p d).1.sealedParams d.sealedParams := by
  simp only [cmdBistConfig, Device.sealChange_sealed, Device.pendingEffect_sealed]
  refine d.mram_same n fun x => ?_
  unfold Sealed.same
  split <;> trivial

theorem Sealed.same_resv (n : Nat) (p : Sealed) (v : Vector (Stored 128) 32) (hn : n ≠ 7) : Sealed.same n { p with resv := v } p := by
  unfold Sealed.same
  split <;> trivial

theorem Device.modSec_params (d : Device) (f : Sec → Sec) : (d.modSec f).sealedParams = { d.sealedParams with resv := (f d.sec).resv } := rfl

theorem cmdSealResvClear_sealed (ctx : Ctx) (p : Bytes) (d : Device) (n : Nat) (hn : n ≠ 7) :
    Sealed.same n (cmdSealResvClear.run ctx p d).1.sealedParams d.sealedParams := by
  simp only [cmdSealResvClear, Device.releaseResv_sealed, Device.sealChange_sealed]
  refine d.mram_same n fun x => ?_
  rw [Device.modSec_params]
  exact Sealed.same_resv n _ _ hn

/-! The stop of a port by command (R246) can end requests of this node. -/

theorem Device.disableFn_port_keepsSealed (d : Device) (p : Nat) (stop : Device → Device) (h : ∀ d : Device, d.KeepsSealed (stop d)) :
    d.KeepsSealed (d.disableFn (portFn p) true stop).1 := by
  unfold Device.disableFn
  extract_lets r put
  have hput : d.KeepsSealed put := d.modPort_keepsSealed _ _
  split
  · exact hput
  · exact hput.trans (h _)
  · exact hput
  · exact hput.trans (Device.complete_posts ..).keepsSealed
  · exact hput

/-- A command with a sealed parameter to its name changes that one alone. -/
theorem wcpRow?_sealsBy_orders {i : Instr} {r : WcpRow} (h : wcpRow? i = some r) (hi : sealedOrders i ≠ []) (ctx : Ctx) (p : Bytes)
    (d : Device) : d.SealsBy i (r.cmd.run ctx p d).1 := by
  cases i <;> cases h
  case fireBudgetSet => exact .of_one 1 rfl rfl (cmdBudgetSet_sealed ctx p d)
  case rxLensSet => exact .of_one 2 rfl rfl (cmdLensSet_sealed ctx p d)
  case zoneMapSet => exact .of_one 3 rfl rfl (cmdZoneMapSet_sealed ctx p d)
  case lampRulesSet => exact .of_one 5 rfl rfl (cmdRulesSet_sealed ctx p d)
  case bistConfigSet => exact .of_one 6 rfl rfl (cmdBistConfig_sealed ctx p d)
  case sealResvClear => exact .of_one 7 rfl rfl (cmdSealResvClear_sealed ctx p d)
  case lcAdvance => exact .of_all rfl rfl
  case ringPortDisable => exact (d.disableFn_port_keepsSealed _ _ fun d => (d.portStop_regroups _).sealed).sealsBy rfl
  all_goals exact absurd rfl hi

/-- What the checks let a command do changes at most the parameters of its row. -/
theorem wcpRow?_sealsBy {i : Instr} {r : WcpRow} (h : wcpRow? i = some r) (ctx : Ctx) (p : Bytes) (d : Device) :
    d.SealsBy i (r.cmd.run ctx p d).1 := by
  by_cases hi : sealedOrders i = []
  · exact .of_same (wcpRow?_sealed h hi ctx p d)
  · exact wcpRow?_sealsBy_orders h hi ctx p d

end Sys2Proof.Machine
end

section
/-! The command protocol and the rows change the sealed parameters at most as their effect does (R383, R388, R440). -/

namespace Sys2Proof.Machine

open Sys2Proof

/-! The protocol. -/

theorem Device.rightsRead_waits (d : Device) (id : Nat) (sealed : Bool) : ∀ w ∈ (d.rightsRead id sealed).wcp.waits, w ∈ d.wcp.waits := by
  unfold Device.rightsRead
  dsimp only
  have hlc : d.Posts (if isQuery id || id == 0x0141 || id == 0x0142 then d else d.lcUsed) := .ite (.refl d) (d.checkPair_posts ..)
  split
  · exact (hlc.trans (Device.checkPair_posts ..)).waits
  · exact hlc.waits

theorem Device.accept_waits (d : Device) (e : Env) (sealed : Bool) : ∀ w ∈ (d.accept e sealed).wcp.waits, w ∈ d.wcp.waits :=
  d.rightsRead_waits e.id sealed

theorem Device.serveOrWait_waits (d : Device) (rows : List Nat) : (d.serveOrWait rows).wcp.waits = d.wcp.waits := by
  unfold Device.serveOrWait Device.sliceAbort
  (repeat' split) <;> first | rfl | exact (Device.limited_near ..).waits

section
variable {i : Instr} {c : Cmd} (hc : ∀ (ctx : Ctx) (p : Bytes) (d : Device), d.SealsBy i (c.run ctx p d).1)
include hc

theorem Cmd.execute_sealsBy (ctx : Ctx) (p : Bytes) (d : Device) : d.SealsBy i (c.execute ctx p d).1 := by
  unfold Cmd.execute
  split
  · exact .refl d
  · split
    · exact .of_same rfl
    · split
      · exact .refl d
      · exact hc ctx p d

theorem Cmd.tracked_sealsBy (e : Env) (d : Device) : d.SealsBy i (c.tracked e d).1 := by
  unfold Cmd.tracked
  extract_lets ctx r
  have hr : d.SealsBy i r.1 := (Cmd.execute_sealsBy hc ctx e.payload _).after (d.accept_waits e _) (d.accept_sealed e _)
  split
  · split
    · exact .of_same (d.rightsRead_sealed ..)
    · exact hr.congr (Device.modSession_sealed ..)
  · exact hr.congr rfl

theorem Cmd.untracked_sealsBy (e : Env) (d : Device) : d.SealsBy i (c.untracked e d).1 := by
  unfold Cmd.untracked
  extract_lets ctx r
  split
  · exact Cmd.execute_sealsBy hc ctx e.payload d
  · exact .refl d

theorem Cmd.sessionless_sealsBy {opens : Env → Device → Device × Bytes} (ho : ∀ e d, (opens e d).1.sealedParams = d.sealedParams) (e : Env)
    (d : Device) : d.SealsBy i (c.sessionless opens e d).1 := by
  unfold Cmd.sessionless
  split
  · exact .of_same (ho e d)
  · split
    · exact Cmd.untracked_sealsBy hc e d
    · exact .refl d

theorem Cmd.handle_sealsBy {opens : Env → Device → Device × Bytes} (ho : ∀ e d, (opens e d).1.sealedParams = d.sealedParams) (e : Env)
    (d : Device) : d.SealsBy i (c.handle opens e d).1 := by
  unfold Cmd.handle
  extract_lets now plain s key tagged queried served handled
  have hwaits : ∀ w ∈ served.wcp.waits, w ∈ d.wcp.waits := fun w hw => d.serveOrWait_waits [5] ▸ hw
  have hsealed : served.sealedParams = d.sealedParams := d.serveOrWait_sealed [5]
  have hserved : d.SealsBy i served := .of_same hsealed
  split
  · exact .refl d
  · split
    · exact Cmd.sessionless_sealsBy hc ho e d
    · split
      · exact .refl d
      · split
        · exact Cmd.untracked_sealsBy hc e d
        · split
          · exact hserved
          · split
            · split
              · exact hserved.congr (Device.replayPath_sealed ..)
              · exact hserved
            · split
              · exact hserved
              · split
                · exact hserved
                · exact (Cmd.tracked_sealsBy hc e served).after hwaits hsealed

end

/-! The rows. -/

/-- Where a row answers a next state, the sealed parameters change at most as a row of the instruction may. -/
def RowSealsBy (i : Instr) (s : State) (x : Host.Outcome State Fault Refusal) : Prop := ∀ t, x = .next t → s.dev.SealsBy i t.dev

section
variable {i : Instr} {s : State}

theorem RowSealsBy.ite {c : Prop} [Decidable c] {x y : Host.Outcome State Fault Refusal} (hx : RowSealsBy i s x) (hy : RowSealsBy i s y) :
    RowSealsBy i s (if c then x else y) := by
  split <;> assumption

theorem State.settle_sealsBy {u : State} (old : Device) (h : s.dev.SealsBy i u.dev) : RowSealsBy i s (.next (u.settle old)) := by
  intro t ht
  cases ht
  exact h.congr (u.settle_sealed old)

/-- Time passing leaves the parameters and the waits alone. -/
theorem State.elapse_sealsBy {dt : Nat} {d : Device} (h : (s.elapse dt).dev.SealsBy i d) : s.dev.SealsBy i d := h.after (fun _ hw => hw) rfl

variable {dt : Nat} {f : Device → Device}

theorem devRow_sealsBy (hf : ∀ d : Device, d.SealsBy i (f d)) : RowSealsBy i s (devRow dt f s) :=
  State.settle_sealsBy _ (State.elapse_sealsBy (hf (s.elapse dt).dev))

theorem coreRow_sealsBy (hf : ∀ d : Device, d.SealsBy i (f d)) : RowSealsBy i s (coreRow dt f s) :=
  devRow_sealsBy fun d => .ite (hf d) (.refl d)

theorem fwRow_sealsBy (hf : ∀ d : Device, d.SealsBy i (f d)) : RowSealsBy i s (fwRow dt f s) :=
  devRow_sealsBy fun d => .ite (hf d) (.refl d)

theorem fieldRow_sealsBy (hf : ∀ d : Device, d.SealsBy i (f d)) : RowSealsBy i s (fieldRow dt f s) :=
  devRow_sealsBy fun d => .ite (hf d) (.refl d)

theorem topoRow_sealed {p : Port} {type : Nat} {flit : BitVec 512} (hf : ∀ d, (f d).sealedParams = d.sealedParams) :
    RowSealsBy i s (topoRow dt p type flit f s) :=
  coreRow_sealsBy fun d => .of_same (d.topo_sealed _ _ _ _ hf)

theorem topoRow_keepsSealed {p : Port} {type : Nat} {flit : BitVec 512} (hi : answersResv i = true) (hf : ∀ d : Device, d.KeepsSealed (f d)) :
    RowSealsBy i s (topoRow dt p type flit f s) :=
  coreRow_sealsBy fun d => (d.topo_keepsSealed _ _ _ _ hf).sealsBy hi

theorem hostRow_sealsBy {g : State → State} (hg : ∀ t, (g t).dev = t.dev) : RowSealsBy i s (hostRow dt g s) := by
  refine State.settle_sealsBy _ (.of_same ?_)
  split
  · rw [hg]
    rfl
  · rfl

theorem resetRow_sealsBy {act : Device → Option Device} (hact : ∀ d x : Device, act d = some x → x.sealedParams = d.sealedParams) :
    RowSealsBy i s (resetRow dt act s) := by
  unfold resetRow
  dsimp only
  split
  · next d hd =>
    intro t ht
    cases ht
    exact .of_same (hact (s.elapse dt).dev d hd)
  · exact State.settle_sealsBy _ (.of_same rfl)

theorem sliceRowEnd_sealsBy {act : Device → Device × Bool} (hact : ∀ d : Device, (act d).1.sealedParams = d.sealedParams) :
    RowSealsBy i s (sliceRowEnd dt act s) := by
  have hend : (act (s.elapse dt).dev).1.sealedParams = s.dev.sealedParams := hact (s.elapse dt).dev
  unfold sliceRowEnd
  extract_lets x
  split
  · unfold resetRow
    intro t ht
    cases ht
    exact .of_same ((Device.reboot_sealed _ _).trans hend)
  · refine State.settle_sealsBy _ (.of_same ?_)
    dsimp only
    split
    · exact hend
    · rfl

theorem wcpRowThen_sealsBy {o : Origin} {c : Cmd} {opens : Env → Device → Device × Bytes} {after : Device → Device → Device}
    (hc : ∀ (ctx : Ctx) (p : Bytes) (d : Device), d.SealsBy i (c.run ctx p d).1) (ho : ∀ e d, (opens e d).1.sealedParams = d.sealedParams)
    (ha : ∀ old new, (after old new).sealedParams = new.sealedParams) : RowSealsBy i s (wcpRowThen dt o c opens after s) := by
  refine State.settle_sealsBy _ (State.elapse_sealsBy (dt := dt) ?_)
  dsimp only
  split
  · exact .refl _
  · next e _ =>
    split
    · exact (Cmd.handle_sealsBy hc ho e _).congr ((ha _ _).trans (State.deliver_sealed ..))
    · exact .refl _

end

theorem WcpRow.opens_sealed {i : Instr} {r : WcpRow} (h : wcpRow? i = some r) (e : Env) (d : Device) :
    (r.opens e d).1.sealedParams = d.sealedParams := by
  cases i <;> cases h
  case sysSessionOpen => exact d.sessionOpen_sealed e
  all_goals rfl

/-- What follows the response of a row, lc.advance's apart. -/
theorem WcpRow.after_sealed {i : Instr} {r : WcpRow} (h : wcpRow? i = some r) (hi : ∀ dt o, i ≠ .lcAdvance dt o) (old new : Device) :
    (r.after old new).sealedParams = new.sealedParams := by
  cases i <;> cases h
  case sysReset | bistDirectedRun => exact Device.resetAfterReply_sealed old new
  case secKeyWrite => exact Device.closeWritten_sealed old new
  case pwrStandby => exact Device.standbyAfterReply_sealed old new
  case lcAdvance dt o => exact absurd rfl (hi dt o)
  all_goals rfl

/-! The rows with a shape of their own. -/

theorem execHostCsNRelease_sealsBy {i : Instr} (dt : Nat) (cut : CutWord) (s : State) : RowSealsBy i s (execHostCsNRelease dt cut s) := by
  refine State.settle_sealsBy _ (.of_same ?_)
  split <;> rfl

theorem execBadOp_sealsBy {i : Instr} (dt : Nat) (op : Byte) (s : State) : RowSealsBy i s (execBadOp dt op s) := by
  refine hostRow_sealsBy fun t => ?_
  split
  · rfl
  · exact t.transaction_dev _ _ _

theorem execUndefinedCommandId_sealsBy {i : Instr} (dt : Nat) (o : Origin) (s : State) : RowSealsBy i s (execUndefinedCommandId dt o s) := by
  unfold execUndefinedCommandId
  dsimp only
  split
  · exact .ite (devRow_sealsBy .refl) (wcpRowThen_sealsBy (fun _ _ d => .refl d) (fun _ _ => rfl) (fun _ _ => rfl))
  · exact devRow_sealsBy .refl

/-- A device that a guard brings. -/
theorem Device.sealed_of_guarded {c : Prop} [Decidable c] {d x y : Device} (h : (if c then some y else none) = some x)
    (hy : y.sealedParams = d.sealedParams) : x.sealedParams = d.sealedParams := by
  split at h
  · cases h
    exact hy
  · cases h

/-- The rows that bring the answer to a request for a reservation. -/
theorem exec_sealsBy_answers (c : Instr) (s : State) (hr : wcpRow? c = none) (hc : answersResv c = true) : RowSealsBy c s (exec c s) := by
  cases c <;> cases hc
  all_goals dsimp only [exec]
  case breakMsg => exact topoRow_keepsSealed rfl fun d => d.breakMsg_keepsSealed _
  case joinReq => exact topoRow_keepsSealed rfl fun d => d.joinReq_keepsSealed _ _
  case leave => exact topoRow_keepsSealed rfl fun d => d.leaveMsg_keepsSealed _
  case resvAns => exact topoRow_keepsSealed rfl fun d => d.resvAnsMsg_keepsSealed _
  case resvReq => exact topoRow_keepsSealed rfl fun d => d.resvReq_keepsSealed _
  case electTimeout => exact coreRow_sealsBy fun d => d.electTimeout_keepsSealed.sealsBy rfl
  case linkDelayAveraged => exact coreRow_sealsBy fun d => (d.delayAveraged_keepsSealed _).sealsBy rfl
  case linkFailure => exact coreRow_sealsBy fun d => .ite ((d.linkDown_keepsSealed _ _).sealsBy rfl) (.refl d)
  case marker => exact coreRow_sealsBy fun d => (d.markerSeen_keepsSealed _ _).sealsBy rfl
  case startingRetryTimer => exact coreRow_sealsBy fun d => (d.startRetry_keepsSealed _).sealsBy rfl
  case superframe => exact coreRow_sealsBy fun d => (d.superframe_keepsSealed _).sealsBy rfl
  case timeServoUpdate => exact coreRow_sealsBy fun d => d.servoUpdate_keepsSealed.sealsBy rfl
  case ringPortDisable => cases hr

end Sys2Proof.Machine
end

section
/-! Which rows change a live sealed parameter (R376, R383, R386, R388). -/

namespace Sys2Proof.Machine

open Sys2Proof

/-- The rows that neither bring an answer nor may write them all leave the sealed parameters alone. -/
theorem exec_sealsBy_rest (c : Instr) (s : State) (hr : wcpRow? c = none) (ha : answersResv c = false)
    (hall : sealedOrders c ≠ [1, 2, 3, 5, 6, 7]) : RowSealsBy c s (exec c s) := by
  cases c <;> cases ha <;> dsimp only [exec]
  case hifDbWrite | hifMbRelWrite | hifEvtRdWrite => exact hostRow_sealsBy fun t => t.hostWrite_dev _ _
  case hifTimeLoRead | hifEvtLostRead | mbWindowWrite | registerWrite => exact hostRow_sealsBy fun t => t.transaction_dev _ _ _
  case hostCsNRelease => exact execHostCsNRelease_sealsBy _ _ _
  case badOp => exact execBadOp_sealsBy _ _ _
  case undefinedCommandId => exact execUndefinedCommandId_sealsBy _ _ _
  case commandedResetTimer | switchoverTimeout | powerRemoval =>
    refine resetRow_sealsBy fun d x h => ?_
    split at h
    · exact Device.sealed_of_guarded h (by simp [Device.removed])
    · cases h
  case deviceReset | lockstepMismatch =>
    exact resetRow_sealsBy fun d x h => Device.sealed_of_guarded h (by simp)
  case aonMinimum =>
    refine resetRow_sealsBy fun d x h => ?_
    cases h
    simp
  case rstNAssert =>
    refine .ite (resetRow_sealsBy fun d x h => ?_) (devRow_sealsBy fun d => .of_same (by simp [Device.rstAssert]))
    cases h
    simp [Device.rstAssert]
  case functionRestart => exact .ite (fieldRow_sealsBy fun d => .of_same (by simp)) (coreRow_sealsBy fun d => .of_same (by simp))
  case sliceEnd => exact sliceRowEnd_sealsBy fun d => d.sliceEnd_sealed _
  case sliceServiceAbort => exact sliceRowEnd_sealsBy fun d => d.sliceService_sealed _ _
  case slicePreconditionLoss => exact sliceRowEnd_sealsBy fun d => d.slicePrecond_sealed _ _
  case bridgeCycle side =>
    cases side
    · exact coreRow_sealsBy fun d => .of_same (by simp)
    · exact fieldRow_sealsBy fun d => .of_same (by simp)
  case chan0RepeatTimeout side =>
    cases side
    · exact coreRow_sealsBy fun d => .of_same (by simp [Device.chan0Timeout])
    · exact fieldRow_sealsBy fun d => .of_same (by simp [Device.chan0Timeout])
  case bulkFrame side _ =>
    cases side
    · exact coreRow_sealsBy fun d => .of_same (by simp)
    · exact fieldRow_sealsBy fun d => .of_same (by simp)
  case leaseExpiry | creditTmoExpiry | creditResetSenderTimer =>
    refine coreRow_sealsBy fun d => .of_same ?_
    split
    · split <;> simp
    · rfl
  case camStopTimeout =>
    refine coreRow_sealsBy fun d => .ite (.of_same ?_) (.refl d)
    rw [Device.camOff_sealed]
    split <;> simp
  case onTimeTick | camStartTimeout => exact coreRow_sealsBy fun d => .ite (.of_same (by simp)) (.refl d)
  case periodUnitClose => exact fieldRow_sealsBy fun d => .ite (.of_same (by simp)) (.refl d)
  case armLeadExpiry => exact coreRow_sealsBy fun d => .of_same d.armLead_sealed
  case emitFaultNAssert => exact devRow_sealsBy fun d => .of_same (d.emitFaultPin_sealed _)
  case witnessStrayEvent => exact coreRow_sealsBy fun d => .of_same (d.stray_sealed _ _)
  case shot => exact coreRow_sealsBy fun d => .of_same (d.shot_sealed _)
  case eventReportWindowEnd =>
    exact coreRow_sealsBy fun d => .of_same (by simp)
  case responseRetry | sessionIdleTimeout | sessionOpenTimeout =>
    exact fwRow_sealsBy fun d => .of_same (by simp [Device.idleTimeout, Device.openTimeout])
  case holdoffAutoTimer | surveyPassStart | surveyPassDone | linearisationUpdate | witnessIntervalEnd | exportStopTimeout | planeHoldTimeout |
      eventWordAccumulate | zoneBlindTimeout | windowLearnDone | referencePassStart | referencePassDone | refStaleTimeout | calFullDone |
      pairHandover | retProcessingStart | retProcessingEnd | exportChunkEnqueue | importChunkDequeue | importSliceStart | importUnitDone =>
    exact coreRow_sealsBy fun d => .of_same (by simp [Device.surveyStart, Device.linUpdate, Device.witnessInterval, Device.exportTimeout,
      Device.refStart, Device.refStale, Device.importSlice])
  case rxVbdMeasureDone =>
    exact fwRow_sealsBy fun d => .of_same (by simp)
  case internalTrigger | frameSyncAssert | calendarInstant | calendarEpoch | fireStopDone | doseSubwindowBoundary | biasFault | biasFaultClear |
      frameStart | shotQueueEnqueue | groupStart | photonEvent =>
    exact coreRow_sealsBy fun d => .of_same (by simp [Device.biasFaulted, Device.biasCleared, Device.enqueue])
  case groupAccumulationEnd =>
    refine coreRow_sealsBy fun d => .of_same ?_
    (repeat' split) <;> simp
  case signalDetect | markerLock | timeFlit | timeHoldoverTimeout | creditFlit | headLossTimeout
      | noHeadReport | degradeWindow | joinRetryTimer | nodeHoldExpiry | membersRepeat |
      calendarRepeat | ringPortStopDone | ringFrameReceive | trainingComplete =>
    exact coreRow_sealsBy fun d => .of_same (by simp [Device.headLoss, Device.noHead, Device.joinRetry, Device.holdExpiry, Device.endNode,
      Device.portStopDone, Device.receiveFrame])
  case joinAck | heal | members | calendar | allowance | elect =>
    exact topoRow_sealed fun d => by simp [Device.healMsg, Device.membersMsg, Device.allowanceMsg,
      Device.electMsg]
  case cellRequest | inboundFrameAppend | partialUnitTimeout | unitDelivered | qStopTimeout | q1Reset | q1Resync | creditResetReceiverTimer |
      eventUnitClose | csi2Packet | camFsyncPulse =>
    exact coreRow_sealsBy fun d => .of_same (by simp)
  case fieldToCoreControlFrame | coreSilenceTimeout =>
    exact coreRow_sealsBy fun d => .of_same (by simp [Device.fieldFrameIn, Device.fieldFrameValid, Device.reportAspect, Device.contactStarts,
      Device.coreSilent])
  case coreToFieldControlFrame | fieldWatchdogExpiry | safeStateApply | aspectApply | supervisionSample | diagSlot | litWhenDark |
      currentLimitTimeout | switchOvertemp | switchCooled | cleanMsExpiry | sagBegin | sagEnd | uvOff | uvRecovery | softStartStep |
      outputStopDone | patternPhase | pwmPeriod | fieldBlockCommitDone | inputSample | periodTimeout | backgroundCalibration | adcStartDone |
      adcStopDone | adcCalRunDone | captureStart | captureEnd | captureTimeout | excHalf | blankNAssert | blankNRelease | blankHoldExpiry |
      blankMaxExpiry | adcTimerTick | adcTrigAssert | seqRunStart | seqEntryStart | seqEntryDone | seqRunEnd | fieldTick =>
    exact fieldRow_sealsBy fun d => .of_same (by simp [Device.coreFrameIn, Device.coreFrameValid, Device.takeCommand, Device.setFieldTime,
      Device.opticalOne, Device.watchdog, Device.superviseLamp, Device.judge, Device.sampleVerdict, Device.checkShare, Device.litVerdict,
      Device.limitTimeout, Device.cooled, Device.cleanExpiry, Device.clearClean, Device.clearCross, Device.uvRecover, Device.commitDone,
      Device.blockCommitted, Device.inSample, Device.inChanges, Device.convOn, Device.blankAssert, Device.blankMax, Device.timerTick])
  case bbRecordCommit | thermStepDown | sliceStart | coverMaxExpiry | idleGap | duplicateMismatch | directedRunDone | debugUnlock |
      sealedSwitchover =>
    exact coreRow_sealsBy fun d => .of_same (by simp [Device.stepDown, Device.coverMax, Device.sealStart])
  case standbyShutdown =>
    refine coreRow_sealsBy fun d => .of_same ?_
    (repeat' split) <;> simp
  case thermalSample | rstNRelease | fieldPowerOn | fieldPowerLoss | fieldThermalRestart | shutdownImminent | vbatStart | vbatLowWarning |
      vbatLowClear | vbatPowerFail | vbatOvervoltage | minOffTimeExpiry | railWarning | railWarningEnd | railFault | wakeAssert | hwThermalTrip
      | hwThermalRestart =>
    exact devRow_sealsBy fun d => .of_same (by simp [Device.thermSample, Device.takeReadings, Device.ladder, Device.rstRelease,
      Device.fieldOn, Device.fieldOff, Device.fieldCool, Device.vbatLow, Device.thermTrip, Device.thermRestart])
  case fieldThermalStop | nvmCommitWaitTimeout | fieldRamTest | fieldNvmCheck =>
    exact fieldRow_sealsBy fun d => .of_same (by simp [Device.fieldHot, Device.ramTest, Device.nvmCheck, Device.nvmRead])
  case bbRecordWrite | fwEraseDone | fwVerifyDone | switchoverStart | switchoverDone =>
    exact fwRow_sealsBy fun d => .of_same (by simp [Device.eraseDone, Device.switchStart])
  case aspectEvaluation | sealedComponentRunning | sealedStartTimeout | boot => exact absurd rfl hall
  all_goals cases hr

/-- What a row does changes the sealed parameters at most as its instruction may. -/
theorem exec_sealsBy (c : Instr) (s : State) : RowSealsBy c s (exec c s) := by
  by_cases hall : sealedOrders c = [1, 2, 3, 5, 6, 7]
  · have ha : answersResv c = false := by
      by_contra h
      exact absurd (hall.symm.trans (sealedOrders_of_answersResv (eq_true_of_ne_false h))) (by decide)
    exact fun t _ => .of_all hall ha
  · cases hr : wcpRow? c with
    | some r =>
      rw [exec_wcpRow c r hr]
      refine wcpRowThen_sealsBy (wcpRow?_sealsBy hr) (WcpRow.opens_sealed hr) (WcpRow.after_sealed hr fun dt o h => hall ?_)
      rw [h]
      rfl
    | none =>
      cases ha : answersResv c with
      | true => exact exec_sealsBy_answers c s hr ha
      | false => exact exec_sealsBy_rest c s hr ha hall

/-- Settles O56: every row changes at most the sealed parameters of its own orders, and the sealed reservations at the rows that bring
an answer only where seal.resv.set waits for one. -/
theorem sealedParametersKept : Obligations.SealedParametersKept := by
  unfold Obligations.SealedParametersKept
  intro i s t hstep p q
  have h := exec_sealsBy i s t hstep
  exact ⟨h.but 1, h.but 2, h.but 3, h.but 5, h.but 6, h.but 7, h.asks⟩

end Sys2Proof.Machine
end

section
/-! What a row of the ring leaves behind: the device of its effect, but for what the end of a step still writes. -/

namespace Sys2Proof.Machine

open Sys2Proof

theorem Device.Rests.posts {d d' : Device} (h : d.Rests d') : d.Posts d' :=
  ⟨h.keeps, fun _ hw => h.waits ▸ hw, by have e := congrArg Ring.standing h.ring; exact e,
    fun p => by have e := congrArg RPort.standing (h.base p); exact e⟩

/-- A part of the ring that is not its ports, at the end of a step. -/
theorem Device.Rests.of_ring {α : Type} {d d' : Device} (h : d.Rests d') (g : Ring → α)
    (hg : ∀ r v, g { r with ports := v } = g r := by exact fun _ _ => rfl) : g d'.ring = g d.ring :=
  (hg d'.ring d.ring.ports).symm.trans (congrArg g h.ring)

/-- A part of the ring that `standing` keeps. -/
theorem Device.Posts.of_ring_standing {α : Type} {d d' : Device} (h : d.Posts d') (g : Ring → α)
    (hg : ∀ r : Ring, g r.standing = g r := by exact fun _ => rfl) : g d'.ring = g d.ring :=
  (hg d'.ring).symm.trans ((congrArg g h.ring).trans (hg d.ring))

theorem Device.Posts.now {d d' : Device} (h : d.Posts d') : d'.now = d.now := by
  unfold Device.now
  rw [h.keeps.time]

end Sys2Proof.Machine
end

section
/-! Messages of the Waitik Ring (R219, R229-R238, R245). -/

namespace Sys2Proof.Machine

open Sys2Proof

/-- A device that has noted a message and sent it on toward the far port. -/
def Device.passOn (d : Device) (p : Nat) (f : BitVec 512) : Device :=
  if fld f 15 8 - 1 = 0 then d.noteTopo (topoKey f) else (d.noteTopo (topoKey f)).sendOn (1 - p) (setFld f 15 8 (fld f 15 8 - 1))

theorem Device.passOn_posts (d : Device) (p : Nat) (f : BitVec 512) : d.Posts (d.passOn p f) :=
  .ite (d.noteTopo_posts _) ((d.noteTopo_posts _).trans (Device.sendOn_posts ..))

theorem Device.sendOn_hops (d : Device) (p : Nat) (f : BitVec 512) : (d.sendOn p f).ring.hops = d.ring.hops := by
  unfold Device.sendOn
  split <;> rfl

theorem Device.passOn_headSeen (d : Device) (p : Nat) (f : BitVec 512) : (d.passOn p f).headSeen = d.headSeen := by
  have hhops : (d.passOn p f).ring.hops = d.ring.hops := by
    unfold Device.passOn
    split
    · rfl
    · exact Device.sendOn_hops ..
  unfold Device.headSeen
  rw [hhops, (d.passOn_posts p f).of_ring_standing Ring.head]

theorem Device.topo_fresh {d : Device} {p type : Nat} {f : BitVec 512} (act : Device → Device) (hlive : (d.port p).live = true)
    (htype : fld f 7 0 = type) (hseen : d.ring.seen.contains (topoKey f) = false) : d.topo p type f act = act (d.passOn p f) := by
  unfold Device.topo
  rw [hlive, htype, hseen, bne_self_eq_false, if_neg nofun]
  rfl

theorem Device.topo_stale {d : Device} {p type : Nat} {f : BitVec 512} (act : Device → Device)
    (h : (d.port p).live = false ∨ fld f 7 0 ≠ type ∨ d.ring.seen.contains (topoKey f) = true) : d.topo p type f act = d := by
  unfold Device.topo
  refine if_pos ?_
  rcases h with h | h | h
  · simp [h]
  · simp [h]
  · rw [h, Bool.or_true]

theorem topoRow_idles (dt : Nat) (p : Port) (type : Nat) (f : BitVec 512) (act : Device → Device) (s : State)
    (h : ((s.elapse dt).dev.port (portNo p)).live = false ∨ fld f 7 0 ≠ type ∨ (s.elapse dt).dev.ring.seen.contains (topoKey f) = true) :
    Idles (topoRow dt p type f act s) (s.elapse dt).dev := coreRow_idles dt _ s (Device.topo_stale act h)

/-- A fresh message on a live port of its type: it is passed on, and the row's effect is done. -/
theorem topoRow_rests {dt : Nat} {p : Port} {type : Nat} {f : BitVec 512} {act : Device → Device} {s : State}
    (halive : (s.elapse dt).dev.alive = true) (hlive : ((s.elapse dt).dev.port (portNo p)).live = true)
    (hseen : (s.elapse dt).dev.ring.seen.contains (topoKey f) = false) (htype : fld f 7 0 = type) :
    Answers (topoRow dt p type f act s) (fun u => (act ((s.elapse dt).dev.passOn (portNo p) f)).Rests u.dev) :=
  coreRow_rests halive (Device.topo_fresh act hlive htype hseen)

end Sys2Proof.Machine
end

section
/-! What each message does (R229-R238, R245, log entries 112 and 113). -/

namespace Sys2Proof.Machine

open Sys2Proof

section
variable {d : Device} {f : BitVec 512}

/-! JOIN_REQ and JOIN_ACK (R226, R231). -/

/-- The ports note whether a join was refused. -/
def Device.markRefused (d : Device) (b : Bool) : Device :=
  [0, 1].foldl (fun (d : Device) p => d.modPort p (fun x => { x with refused := b && x.live })) d

theorem Device.joinAck_grants (huid : topoBody f 63 0 = Config.uid.toNat) (hhead : d.ring.head = false) (hgranted : d.ring.granted = false)
    (hnumber : topoBody f 71 64 ≠ 0xFE) : d.joinAck f = ((d.markRefused false).modRing (fun r => { r with
      node := topoBody f 71 64 % 32, granted := true, stepFlag := topoBody f 79 72 == 1, joinAt := none
      resv := d.ring.resv.map (fun v => { v with node := topoBody f 71 64 % 32, admitted := false }) })).requestAll := by
  unfold Device.joinAck
  rw [huid, bne_self_eq_false, hhead, hgranted]
  rw [if_neg nofun]
  dsimp only
  rw [if_neg hnumber, if_neg nofun]
  rfl

theorem Device.joinAck_refuses (huid : topoBody f 63 0 = Config.uid.toNat) (hhead : d.ring.head = false) (hnumber : topoBody f 71 64 = 0xFE) :
    d.joinAck f = (d.markRefused true).modRing (fun r => { r with joinAt := some (d.now + second) }) := by
  unfold Device.joinAck
  rw [huid, bne_self_eq_false, hhead, if_neg nofun]
  dsimp only
  rw [if_pos hnumber]
  rfl

theorem Device.joinAck_others (huid : topoBody f 63 0 ≠ Config.uid.toNat) : d.joinAck f = d := if_pos (by simp [huid])

theorem Device.joinReq_posts (p : Nat)
    (h : d.ring.head = false ∨ d.ring.grantNumber (.ofNat 64 (topoBody f 63 0)) (topoBody f 71 64) = none) : d.Posts (d.joinReq p f) := by
  unfold Device.joinReq
  rcases h with h | h
  · rw [h, Bool.not_false, if_pos rfl]
    exact .refl d
  · dsimp only
    rw [h]
    exact .ite (.refl d) (d.flood_posts ..)

/-! LEAVE (R232). -/

theorem Device.memberGone_members (node cause : Nat) (h : node ≠ d.ring.node) :
    ∀ m ∈ (d.memberGone node cause).ring.members, m.node ≠ node := by
  unfold Device.memberGone
  split
  · next hnone =>
    intro m hm heq
    exact absurd (List.find?_eq_none.mp hnone m hm) (by simp [heq])
  · rw [if_neg h]
    dsimp only
    rw [(Device.suspendNode_posts ..).of_ring_standing Ring.members]
    intro m hm
    simpa using (List.mem_filter.mp hm).2

/-! BREAK and HEAL (R235, R236). -/

theorem Device.applyBreak_opens (w e : Nat) (honring : d.ring.onring = true) (hhead : d.ring.head = false) (hclosed : d.ring.closed = true)
    (hbrk : d.ring.brk = none) (hw : (d.ring.place w).isSome = true) (he : (d.ring.place e).isSome = true) :
    (d.applyBreak w e).ring.closed = false ∧ (d.applyBreak w e).ring.brk = some (w, e) ∧ (d.applyBreak w e).ring.members = d.ring.members := by
  have hcut : d.ring.cutAt w e = ({ d.ring with closed := false, brk := some (w, e) }, []) := if_pos hclosed
  have hposts : (d.modRing (fun _ => ({ d.ring with closed := false, brk := some (w, e) } : Ring).wrapResv.holdLinks d.ring [])).Posts
      (d.applyBreak w e) := by
    unfold Device.applyBreak
    rw [if_neg (by rw [honring, hbrk, Option.isNone_eq_false_iff.mpr hw, Option.isNone_eq_false_iff.mpr he]; exact nofun)]
    dsimp only
    rw [hcut]
    generalize hopen : d.modRing (fun _ => ({ d.ring with closed := false, brk := some (w, e) } : Ring).wrapResv.holdLinks d.ring []) = opened
    have hstill : opened.ring.head = false := by rw [← hopen]; exact hhead
    rw [ite_self, List.foldl_nil, hstill, Bool.false_and, if_neg Bool.false_ne_true]
    have hmoved := opened.reroute_posts.trans (Device.wrapEvent_posts _ true w e)
    have hafter : (opened.reroute.wrapEvent true w e).readmit d.ring = opened.reroute.wrapEvent true w e := by
      refine if_pos ?_
      rw [hmoved.of_ring_standing Ring.head, hstill]
      rfl
    rw [hafter]
    exact hmoved.trans (Device.askAgain_posts _)
  exact ⟨hposts.of_ring_standing Ring.closed, hposts.of_ring_standing Ring.brk, hposts.of_ring_standing Ring.members⟩

theorem Device.breakMsg_opens (honring : d.ring.onring = true) (hhead : d.ring.head = false) (hclosed : d.ring.closed = true)
    (hbrk : d.ring.brk = none) (hw : (d.ring.place (topoBody f 7 0)).isSome = true) (he : (d.ring.place (topoBody f 15 8)).isSome = true) :
    (d.breakMsg f).ring.closed = false ∧ (d.breakMsg f).ring.brk = some (topoBody f 7 0, topoBody f 15 8) ∧
      (d.breakMsg f).ring.members = d.ring.members := by
  have hmember : d.breakMsg f = (d.modRing (fun r => { r with gen := genMax r.gen (topoBody f 31 16) })).applyBreak (topoBody f 7 0)
      (topoBody f 15 8) := if_neg (by rw [honring]; exact nofun)
  rw [hmember]
  exact Device.applyBreak_opens (d := d.modRing (fun r => { r with gen := genMax r.gen (topoBody f 31 16) })) _ _ honring hhead hclosed hbrk
    hw he

theorem Device.healMsg_posts (honring : d.ring.onring = true) (hclosed : d.ring.closed = false) :
    (d.modRing (fun r => { r with closed := true, brk := none, gen := genMax r.gen (topoBody f 31 16) })).Posts (d.healMsg f) := by
  unfold Device.healMsg
  rw [if_neg (by rw [honring, hclosed]; exact nofun)]
  exact ((Device.wrapEvent_posts ..).trans (Device.recountHops_posts _)).trans (Device.sendAllowances_posts _)

/-! MEMBERS and CALENDAR (R229, R245). -/

theorem Device.membersMsg_drops (hk : topoBody f 7 0 ≠ 0) (hlen : d.ring.memberChunks.length ≠ topoBody f 7 0) :
    d.membersMsg f = d.modRing (fun r => { r with memberChunks := [] }) := by
  unfold Device.membersMsg
  dsimp only
  rw [if_neg hk, if_pos (by simpa using hlen)]

theorem Device.membersMsg_begins (hk : topoBody f 7 0 = 0) (hlen : (chunkMembers f).length = 3) :
    d.membersMsg f = d.modRing (fun r => { r with memberChunks := [(0, chunkMembers f)] }) := by
  unfold Device.membersMsg
  dsimp only
  rw [if_pos hk, hk, if_neg (by simp), if_pos hlen]
  rfl

theorem Device.calendarMsg_begins (hhead : d.ring.head = false) (hk : topoBody f 7 0 = 0) :
    d.calendarMsg f = d.modRing (fun r => { r with calChunks := [(0, .ofNat 384 (topoBody f 391 8))] }) := by
  unfold Device.calendarMsg
  dsimp only
  rw [if_pos hk, hk, hhead, if_neg (by simp), if_pos (by simp)]
  rfl

theorem Device.calendarMsg_drops (h : d.ring.head = true ∨ (topoBody f 7 0 ≠ 0 ∧ d.ring.calChunks.length ≠ topoBody f 7 0)) :
    d.calendarMsg f = d.modRing (fun r => { r with calChunks := [] }) := by
  unfold Device.calendarMsg
  dsimp only
  refine if_pos ?_
  rcases h with h | ⟨hk, hlen⟩
  · simp [h]
  · rw [if_neg hk]
    simp [hlen]

/-! ELECT (R230). -/

/-- The candidate an ELECT names. -/
def elected (f : BitVec 512) : Nat × BitVec 64 := (topoBody f 71 64, .ofNat 64 (topoBody f 63 0))

/-- The best candidate after an ELECT for this node's own head, at a node that is none. -/
def Device.bestAfter (d : Device) (c : Nat × BitVec 64) : Option (Nat × BitVec 64) :=
  if (if d.headSeen then d.ring.best else d.ring.bestKnown).all (fun b => better c b) then some c else d.ring.best

theorem Device.electMsg_keeps (hown : d.ring.headUid = .ofNat 64 (topoBody f 63 0)) :
    d.Keeps (d.electMsg f) ∧ (d.electMsg f).ring.best = d.bestAfter (elected f) ∧ (d.electMsg f).ring.members = d.ring.members := by
  unfold Device.electMsg Device.bestAfter elected
  dsimp only
  cases hbeats : (if d.headSeen then d.ring.best else d.ring.bestKnown).all
      (fun b => better (topoBody f 71 64, BitVec.ofNat 64 (topoBody f 63 0)) b) with
  | false =>
    rw [Bool.not_false, if_pos rfl, if_neg Bool.false_ne_true]
    have hsaid : d.Posts (if ((d.ring.head || d.ring.electing) && d.ring.best != some (topoBody f 71 64, .ofNat 64 (topoBody f 63 0))) = true
      then d.floodElect else d) := .ite d.floodElect_posts (.refl d)
    exact ⟨hsaid.keeps, hsaid.of_ring_standing Ring.best, hsaid.of_ring_standing Ring.members⟩
  | true =>
    rw [Bool.not_true, if_neg Bool.false_ne_true, if_pos rfl, hown, bne_self_eq_false, Bool.and_false, Bool.false_and, if_neg Bool.false_ne_true]
    exact ⟨d.modRing_keeps _, rfl, rfl⟩

end

/-- Settles O28, each message through what its effect leaves of the ring, after the message has been noted and passed on. -/
theorem ringMessages : Obligations.RingMessages := by
  unfold Obligations.RingMessages
  refine ⟨?_, ?_⟩
  · intro s dt p f halive d r hlive hseen
    have hpass : d.Posts (d.passOn (portNo p) f) := d.passOn_posts (portNo p) f
    have hhead := hpass.of_ring_standing Ring.head
    have hgranted := hpass.of_ring_standing Ring.granted
    have honring := hpass.of_ring_standing Ring.onring
    have hmembers := hpass.of_ring_standing Ring.members
    refine ⟨?_, ?_, ?_, ?_, ?_, ?_, ?_, ?_, ?_, ?_, ?_, ?_, ?_, ?_, ?_, ?_⟩
    · intro htype huid hnohead hnone hnumber
      refine (topoRow_rests halive hlive hseen htype).imp fun u hu => ?_
      rw [Device.joinAck_grants huid (hhead.trans hnohead) (hgranted.trans hnone) hnumber] at hu
      have hrest := (Device.requestAll_posts _).trans hu.posts
      exact ⟨hrest.of_ring_standing Ring.granted, hrest.of_ring_standing Ring.node, hrest.of_ring_standing Ring.joinAt⟩
    · intro htype huid hnohead hnumber
      refine (topoRow_rests halive hlive hseen htype).imp fun u hu => ?_
      rw [Device.joinAck_refuses huid (hhead.trans hnohead) hnumber, hpass.now] at hu
      exact ⟨(hu.of_ring Ring.granted).trans hgranted, hu.of_ring Ring.joinAt⟩
    · intro htype huid
      refine (topoRow_rests halive hlive hseen htype).imp fun u hu => ?_
      rw [Device.joinAck_others huid] at hu
      have hrest := hpass.trans hu.posts
      exact ⟨hrest.of_ring_standing Ring.granted, hrest.of_ring_standing Ring.node, hrest.of_ring_standing Ring.joinAt,
        hrest.of_ring_standing Ring.members, hrest.of_ring_standing Ring.head, hrest.onlyIn⟩
    · intro htype hnone
      refine (topoRow_rests halive hlive hseen htype).imp fun u hu => ?_
      rw [Device.leaveMsg, hgranted.trans hnone, Bool.not_false, if_pos rfl] at hu
      have hrest := hpass.trans hu.posts
      exact ⟨hrest.of_ring_standing Ring.members, hrest.onlyIn⟩
    · intro htype hmember hnohead hother
      refine (topoRow_rests halive hlive hseen htype).imp fun u hu => ?_
      have hgone := Device.memberGone_reroutes (d.passOn (portNo p) f) (topoBody f 7 0) (topoBody f 15 8)
      have hstill : ((d.passOn (portNo p) f).memberGone (topoBody f 7 0) (topoBody f 15 8)).ring.head = false :=
        (congrArg Ring.head hgone.ring).trans (hhead.trans hnohead)
      have hnone : (!(d.passOn (portNo p) f).ring.granted) = false := by rw [hgranted.trans hmember]; rfl
      rw [Device.leaveMsg, hnone, if_neg Bool.false_ne_true] at hu
      dsimp only at hu
      rw [hstill, if_neg Bool.false_ne_true] at hu
      rw [hu.of_ring Ring.members]
      exact Device.memberGone_members _ _ (by rw [hpass.of_ring_standing Ring.node]; exact hother)
    · intro htype hring hnohead hclosed hbrk hw he
      refine (topoRow_rests halive hlive hseen htype).imp fun u hu => ?_
      have hplace := hpass.of_ring_standing Ring.place
      obtain ⟨hopen, hat, htable⟩ := Device.breakMsg_opens (f := f) (honring.trans hring) (hhead.trans hnohead)
        ((hpass.of_ring_standing Ring.closed).trans hclosed) ((hpass.of_ring_standing Ring.brk).trans hbrk) (by rw [hplace]; exact hw)
        (by rw [hplace]; exact he)
      exact ⟨(hu.of_ring Ring.closed).trans hopen, (hu.of_ring Ring.brk).trans hat, (hu.of_ring Ring.members).trans (htable.trans hmembers)⟩
    · intro htype hring hopen
      refine (topoRow_rests halive hlive hseen htype).imp fun u hu => ?_
      have hrest := (Device.healMsg_posts (f := f) (honring.trans hring) ((hpass.of_ring_standing Ring.closed).trans hopen)).trans hu.posts
      exact ⟨hrest.of_ring_standing Ring.closed, hrest.of_ring_standing Ring.brk, (hrest.of_ring_standing Ring.members).trans hmembers⟩
    · intro htype hk hlen
      refine (topoRow_rests halive hlive hseen htype).imp fun u hu => ?_
      rw [Device.membersMsg_drops hk (by rw [hpass.of_ring_standing Ring.memberChunks]; exact hlen)] at hu
      exact ⟨hu.of_ring Ring.memberChunks, (hu.of_ring Ring.members).trans hmembers⟩
    · intro htype hk hlen
      refine (topoRow_rests halive hlive hseen htype).imp fun u hu => ?_
      rw [Device.membersMsg_begins hk hlen] at hu
      exact ⟨hu.of_ring Ring.memberChunks, (hu.of_ring Ring.members).trans hmembers,
        ((hpass.keeps.trans (Device.modRing_keeps ..)).trans hu.keeps).onlyIn⟩
    · intro htype hnohead hk
      refine (topoRow_rests halive hlive hseen htype).imp fun u hu => ?_
      rw [Device.calendarMsg_begins (hhead.trans hnohead) hk] at hu
      have hkeeps := (hpass.keeps.trans (Device.modRing_keeps ..)).trans hu.keeps
      exact ⟨hu.of_ring Ring.calChunks, congrArg Fire.cal hkeeps.fire, hkeeps.onlyIn⟩
    · intro htype hout
      refine (topoRow_rests halive hlive hseen htype).imp fun u hu => ?_
      rw [Device.calendarMsg_drops (by rw [hhead, hpass.of_ring_standing Ring.calChunks]; exact hout)] at hu
      have hkeeps := (hpass.keeps.trans (Device.modRing_keeps ..)).trans hu.keeps
      exact ⟨hu.of_ring Ring.calChunks, congrArg Fire.cal hkeeps.fire, hkeeps.onlyIn⟩
    · intro htype hnohead
      refine (topoRow_rests halive hlive hseen htype).imp fun u hu => ?_
      rw [Device.resvReq, hhead.trans hnohead, Bool.not_false, if_pos rfl] at hu
      have hrest := hpass.trans hu.posts
      exact ⟨hrest.of_ring_standing Ring.resv, congrArg Sec.resv hrest.keeps.sec, hrest.onlyIn⟩
    · intro htype hishead
      refine (topoRow_rests halive hlive hseen htype).imp fun u hu => ?_
      rw [Device.resvAnsMsg, hhead.trans hishead, if_pos rfl] at hu
      have hrest := hpass.trans hu.posts
      exact ⟨hrest.of_ring_standing Ring.resv, congrArg Sec.resv hrest.keeps.sec, hrest.onlyIn⟩
    · intro htype hnohead hmember
      refine (topoRow_rests halive hlive hseen htype).imp fun u hu => ?_
      rw [Device.allowanceMsg, hhead.trans hnohead, hgranted.trans hmember, if_neg nofun] at hu
      exact ⟨hu.of_ring Ring.allowE, hu.of_ring Ring.allowW, (hu.of_ring Ring.resv).trans (hpass.of_ring_standing Ring.resv),
        ((hpass.keeps.trans (Device.modRing_keeps ..)).trans hu.keeps).onlyIn⟩
    · intro htype hrefused
      refine (topoRow_rests halive hlive hseen htype).imp fun u hu => ?_
      have hrest := (hpass.trans (Device.joinReq_posts (portNo p)
        (by rw [hhead, hpass.of_ring_standing Ring.grantNumber]; exact hrefused))).trans hu.posts
      exact ⟨hrest.of_ring_standing Ring.members, hrest.onlyIn⟩
    · intro htype hown _ c
      refine (topoRow_rests halive hlive hseen htype).imp fun u hu => ?_
      obtain ⟨hkeeps, hbest, htable⟩ := Device.electMsg_keeps (f := f) ((hpass.of_ring_standing Ring.headUid).trans hown)
      refine ⟨(hu.of_ring Ring.best).trans (hbest.trans ?_), (hu.of_ring Ring.members).trans (htable.trans hmembers),
        ((hpass.keeps.trans hkeeps).trans hu.keeps).onlyIn⟩
      rw [Device.bestAfter, d.passOn_headSeen, hpass.of_ring_standing Ring.best, hpass.of_ring_standing Ring.bestKnown]
      rfl
  · intro s dt p f d stale
    exact ⟨topoRow_idles dt p 1 f _ s, topoRow_idles dt p 2 f _ s, topoRow_idles dt p 3 f _ s, topoRow_idles dt p 4 f _ s,
      topoRow_idles dt p 5 f _ s, topoRow_idles dt p 6 f _ s, topoRow_idles dt p 7 f _ s, topoRow_idles dt p 8 f _ s,
      topoRow_idles dt p 9 f _ s, topoRow_idles dt p 10 f _ s, topoRow_idles dt p 11 f _ s⟩

end Sys2Proof.Machine
end

section
/-! What a change at one port leaves of both, and how a link goes down (R226, R227, R232, R246). -/

namespace Sys2Proof.Machine

open Sys2Proof

/-- The row of a port answers with a device that differs in the reports alone from the effect. -/
theorem Device.Rests.port_base {d d' : Device} (h : d.Rests d') {α : Type} (g : RPort → α) (p : Nat)
    (hg : ∀ x : RPort, g x.base = g x := by exact fun _ => rfl) : g (d'.port p) = g (d.port p) :=
  (hg _).symm.trans ((congrArg g (h.base p)).trans (hg _))

/-- A part of a port that `standing` keeps, of two ports that stand alike. -/
theorem RPort.of_standing {α : Type} {x y : RPort} (h : y.standing = x.standing) (g : RPort → α)
    (hg : ∀ x : RPort, g x.standing = g x := by exact fun _ => rfl) : g y = g x :=
  (hg y).symm.trans ((congrArg g h).trans (hg x))

variable (d : Device)

/-! A port's function. -/

theorem Device.port_modPort_same {p : Nat} (hp : p < 2) (f : RPort → RPort) : (d.modPort p f).port p = f (d.port p) :=
  (d.port_modPort p p f).trans (if_pos ⟨rfl, hp⟩)

theorem Device.port_modPort_other {p q : Nat} (hne : q ≠ p) (f : RPort → RPort) : (d.modPort p f).port q = d.port q :=
  (d.port_modPort p q f).trans (if_neg fun h => hne h.1.symm)

theorem Device.port_modPort_fixed (p q : Nat) {f : RPort → RPort} (h : f (d.port q) = d.port q) : (d.modPort p f).port q = d.port q := by
  rw [d.port_modPort]
  split
  · exact h
  · rfl

theorem portNo_portFn {p : Nat} (hp : p < 2) : portNo (if p = 1 then .w else .e) = p := by
  match p, hp with
  | 0, _ => rfl
  | 1, _ => rfl

theorem Device.modFn_portFn {p : Nat} (hp : p < 2) (f : Fn → Fn) :
    d.modFn (portFn p) f = d.modPort p (fun x => { x with fn := f (d.port p).fn }) := by
  unfold Device.modFn Device.putFn Device.getFn portFn
  dsimp only
  rw [portNo_portFn hp]
  rfl

/-- A port whose function is `f`. -/
def RPort.withFn (x : RPort) (f : Fn) : RPort := { x with fn := f }

/-- The port p becomes ON: its function alone changes. -/
theorem Device.reachOn_portFn {p : Nat} (hp : p < 2) :
    (d.modPort p (fun x => x.withFn { (d.port p).fn with
      st := .on, faultStop := false, restart := (d.port p).fn.restart && (d.port p).fn.stopPending })).Posts (d.reachOn (portFn p)) := by
  unfold Device.reachOn
  rw [d.modFn_portFn hp]
  exact Device.complete_posts ..

/-! A port that stops. -/

/-- The port p as its stop begins. -/
def RPort.drained (x : RPort) : RPort := { x with link := if x.live then .draining else x.link, retryAt := none }

theorem Device.portStop_port (p q : Nat) (hp : p < 2) : ∃ f : Fn, f.st = .stopping ∧ f.stopBy = d.now + 2 * ms ∧
    ((d.portStop p).port q).standing = if q = p then ((d.port p).drained.withFn f).standing else (d.port q).standing := by
  unfold Device.portStop
  extract_lets was last said drained broken
  have hsaid : d.Posts said := .ite (d.flood_posts ..) (.refl d)
  have hbroken : drained.Regroups broken := .ite (Device.declareBreak_regroups ..) (.refl _)
  have hport : ∀ q, (broken.port q).standing = (drained.port q).standing := by
    intro q
    unfold broken
    split
    · exact Device.declareBreak_port ..
    · rfl
  have hnow : broken.now = d.now := by
    unfold Device.now
    exact congrArg _ (hbroken.time.trans hsaid.keeps.time)
  clear_value broken said
  refine ⟨{ (broken.port p).fn with st := .stopping, stopPending := false, stopBy := d.now + 2 * ms }, rfl, rfl, ?_⟩
  rw [(Device.portEvent_posts ..).port]
  unfold Device.beginStop
  rw [broken.modFn_portFn hp, hnow]
  split
  · next hq =>
    rw [hq, broken.port_modPort_same hp]
    have hx : ∀ f, ((broken.port p).withFn f).standing = ((d.port p).drained.withFn f).standing := by
      intro f
      have h := (hport p).trans (congrArg RPort.standing (said.port_modPort_same hp _))
      exact (congrArg (fun x => RPort.withFn x f) h).trans (congrArg (fun x => (RPort.drained x).withFn f) (hsaid.port p))
    exact hx _
  · next hq =>
    rw [broken.port_modPort_other hq, hport, said.port_modPort_other hq, hsaid.port]

theorem Device.portStop_port_other {p q : Nat} (hp : p < 2) (hq : q ≠ p) : ((d.portStop p).port q).standing = (d.port q).standing := by
  obtain ⟨f, -, -, h⟩ := d.portStop_port p q hp
  rwa [if_neg hq] at h

/-! A port that comes up. -/

theorem Device.portOn_link {p : Nat} (hp : p < 2) (hstop : (d.port p).fn.stopPending = false) (q : Nat) :
    ((d.portOn p (fun d => d.portStop p)).port q).link = (d.port q).link := by
  unfold Device.portOn
  rw [hstop, if_neg Bool.false_ne_true]
  split
  · rw [RPort.of_standing (((d.reachOn_portFn hp).trans (Device.portEvent_posts _ p)).port q) RPort.link, d.port_modPort]
    split <;> rfl
  · rfl

theorem Device.portOn_other {p q : Nat} (hp : p < 2) (hq : q ≠ p) :
    ((d.portOn p (fun d => d.portStop p)).port q).standing = (d.port q).standing := by
  have hon : (((d.reachOn (portFn p)).portEvent p).port q).standing = (d.port q).standing := by
    rw [((d.reachOn_portFn hp).trans (Device.portEvent_posts _ p)).port, d.port_modPort_other hq]
  unfold Device.portOn
  dsimp only
  split
  · split
    · rw [Device.portStop_port_other _ hp hq, hon]
    · exact hon
  · rfl

theorem Device.joinDone_port (p : Nat) : (d.joinDone.port p).standing = (d.port p).standing := by
  unfold Device.joinDone
  split
  · exact (Device.joinEvent_posts ..).port p
  · rfl

theorem Device.portsOn_link {p : Nat} (hp : p < 2) (hstop : (d.port p).fn.stopPending = false) : (d.portsOn.port p).link = (d.port p).link := by
  unfold Device.portsOn
  split
  · have hjoin := RPort.of_standing (d.joinDone_port p) (fun x => (x.link, x.fn.stopPending))
    obtain ⟨hlink, hwait⟩ := Prod.mk.inj hjoin
    simp only [List.foldl_cons, List.foldl_nil]
    match p, hp with
    | 0, _ =>
      rw [RPort.of_standing (Device.portOn_other _ (p := 1) (by decide) (by decide)) RPort.link,
        Device.portOn_link _ (by decide) (hwait.trans hstop), hlink]
    | 1, _ =>
      have hfirst := RPort.of_standing (d.joinDone.portOn_other (p := 0) (q := 1) (by decide) (by decide)) (fun x => x.fn.stopPending)
      rw [Device.portOn_link _ (by decide) ((hfirst.trans hwait).trans hstop),
        RPort.of_standing (d.joinDone.portOn_other (p := 0) (q := 1) (by decide) (by decide)) RPort.link, hlink]
  · rfl

/-- The ring but for its ports and the join reported at step 7. -/
def Ring.topology (r : Ring) : Ring := { r.standing with joinDue := false }

theorem Device.portOn_topology {p : Nat} (hp : p < 2) (hstop : (d.port p).fn.stopPending = false) :
    (d.portOn p (fun d => d.portStop p)).ring.topology = d.ring.topology := by
  unfold Device.portOn
  rw [hstop, if_neg Bool.false_ne_true]
  split
  · have h := congrArg Ring.topology ((d.reachOn_portFn hp).trans (Device.portEvent_posts _ p)).ring
    exact h
  · rfl

/-- Ports that come up with no disable waiting leave the topology alone. -/
theorem Device.portsOn_topology (h0 : (d.port 0).fn.stopPending = false) (h1 : (d.port 1).fn.stopPending = false) :
    d.portsOn.ring.topology = d.ring.topology := by
  have hjoin : d.joinDone.ring.topology = d.ring.topology := by
    unfold Device.joinDone
    split
    · have h := congrArg Ring.topology (Device.joinEvent_posts (d.modRing (fun r => { r with joinDue := false })) d.ring.node Config.uid
        d.ring.stepped d.time.epoch.toNat).ring
      exact h
    · rfl
  have hwait := fun p => RPort.of_standing (d.joinDone_port p) (fun x => x.fn.stopPending)
  have hfirst := RPort.of_standing (d.joinDone.portOn_other (p := 0) (q := 1) (by decide) (by decide)) (fun x => x.fn.stopPending)
  unfold Device.portsOn
  split
  · simp only [List.foldl_cons, List.foldl_nil]
    rw [Device.portOn_topology _ (by decide) ((hfirst.trans (hwait 1)).trans h1),
      Device.portOn_topology _ (by decide) ((hwait 0).trans h0), hjoin]
  · rfl

/-! A link that goes down. -/

theorem Device.calHoldCheck_reroutes : d.Reroutes d.calHoldCheck := by
  refine ⟨⟨d.calHoldCheck_keepsSealed, d.calHoldCheck_onlyIn .time (by decide), ?_⟩, ?_, fun p => ?_⟩ <;>
    unfold Device.calHoldCheck <;> dsimp only <;> split
  · rfl
  · have h := congrArg Ring.bond (Device.raise_posts (d.modFire (fun f => { f with calHold := d.calHoldNow })) 0x0208 d.ring.node
      (d.calHoldNow.toNat * 2 ^ 255)).ring
    exact h
  · rfl
  · exact (Device.raise_posts ..).of_ring_standing Ring.gen
  · rfl
  · exact (Device.raise_posts ..).port p

/-- A port of a node that has left the ring. -/
def RPort.unjoined (x : RPort) : RPort := if x.link == .member then { x with link := .linked } else x

/-- A node that leaves keeps the generation, and its ports but for a link of a member. -/
theorem Device.leaveRing_keeps : d.leaveRing.ring.gen = d.ring.gen ∧
    ∀ p, (d.port p).link ≠ .member → (d.leaveRing.port p).standing = (d.port p).standing := by
  unfold Device.leaveRing
  extract_lets away held back withdrawn forgot left linked
  have hforgot : d.Posts forgot := (((d.pullBack_posts ..).trans (Device.pullBack_posts ..)).trans
    (Device.posts_foldl _ (fun d v => (d.complete_posts ..).trans (Device.complete_posts ..)) _ _)).trans (Device.posts_qs ..)
  have hend := (Device.posts_foldl (fun (d : Device) n => d.suspendNode n) (fun d n => d.suspendNode_posts n) away linked).reroutes.trans
    (Device.calHoldCheck_reroutes _)
  clear_value forgot
  refine ⟨?_, fun p hp => ?_⟩
  · refine hend.gen.trans (Eq.trans ?_ (hforgot.of_ring_standing Ring.gen))
    show forgot.ring.takeConfig.gen = _
    unfold Ring.takeConfig
    split <;> rfl
  · have hleft : (left.port p).standing = (d.port p).standing := by
      refine Eq.trans ?_ (hforgot.port p)
      have hports : left.ring.ports = forgot.ring.ports := by
        show forgot.ring.takeConfig.ports = _
        unfold Ring.takeConfig
        split <;> rfl
      rw [Device.port, hports, Device.port]
    have hsame : (left.port p).unjoined = left.port p :=
      if_neg (by rw [RPort.of_standing hleft RPort.link, beq_iff_eq]; exact hp)
    rw [hend.port, ← hleft]
    refine congrArg RPort.standing ?_
    have hfirst : ((left.modPort 0 RPort.unjoined).port p) = left.port p := left.port_modPort_fixed 0 p hsame
    exact ((left.modPort 0 RPort.unjoined).port_modPort_fixed 1 p (f := RPort.unjoined) (by rw [hfirst]; exact hsame)).trans hfirst

theorem Device.leaveIfAlone_keeps : d.leaveIfAlone.ring.gen = d.ring.gen ∧
    ∀ p, (d.port p).link ≠ .member → (d.leaveIfAlone.port p).standing = (d.port p).standing := by
  unfold Device.leaveIfAlone
  dsimp only
  split
  · exact d.leaveRing_keeps
  · exact ⟨rfl, fun _ _ => rfl⟩

/-- A port whose link has gone down. -/
def RPort.fallen (x : RPort) (failed : Bool) (retry : Option Nat) : RPort :=
  { x with
    link := .training
    signal := false, failed := failed, neighbour := 0xFF, degraded := false, breakSeen := false
    rxSf := none, rxHops := 0xFF, rxFlags := 0, missed := 0, breaks := 0, delays := [], txTimes := []
    topoOut := [], grants := [], x6 := [], x8 := [], left := 0, tokens := []
    retryAt := retry }

theorem Device.linkDown_port {p : Nat} (hp : p < 2) (cause : Option Nat) :
    ∃ retry, ((d.linkDown p cause).port p).standing = ((d.port p).fallen cause.isSome retry).standing := by
  unfold Device.linkDown
  extract_lets was back told kept broken down
  have hback : d.Posts back := (d.pullBack_posts ..).trans (Device.modRing_posts _ _)
  have htold : d.Posts told := hback.trans (by
    unfold told
    split
    · exact Device.linkEvent_posts ..
    · exact .refl _)
  have hbroken : (broken.port p).standing = (told.port p).standing := by
    unfold broken
    split
    · exact Device.declareBreak_port ..
    · rfl
  refine ⟨if (broken.port p).fn.st == .starting then some (broken.now + second) else none, ?_⟩
  have hend := ((Device.regrant_posts down.leaveIfAlone kept).trans ((Device.askAgain_posts _).trans (Device.recountHops_posts _))).reroutes.trans
    (Device.calHoldCheck_reroutes _)
  have hdown : down.port p = (broken.port p).fallen cause.isSome
      (if (broken.port p).fn.st == .starting then some (broken.now + second) else none) := broken.port_modPort_same hp _
  rw [hend.port, down.leaveIfAlone_keeps.2 p (by rw [hdown]; exact nofun), hdown]
  have hfallen := fun retry => congrArg (fun x => (RPort.fallen x cause.isSome retry).standing) (hbroken.trans (htold.port p))
  exact hfallen _

/-- A failed link of a member raises the generation. -/
theorem Device.linkDown_gen (p c : Nat) (hlink : (d.port p).link = .member) (honring : d.ring.onring = true) :
    (d.linkDown p (some c)).ring.gen = d.ring.gen + 1 := by
  unfold Device.linkDown
  extract_lets was back told kept broken down
  have htold : d.Posts told := ((d.pullBack_posts ..).trans (Device.modRing_posts _ _)).trans (Device.linkEvent_posts ..)
  have hbroken : broken.ring.gen = d.ring.gen + 1 := by
    have hwas : (was == .member && (some c).isSome) = true := by unfold was; rw [hlink]; rfl
    unfold broken
    rw [if_pos hwas, (Device.declareBreak_reroutes told p ((htold.of_ring_standing Ring.onring).trans honring)).gen]
    exact congrArg (· + 1) (htold.of_ring_standing Ring.gen)
  have hend := ((Device.regrant_posts down.leaveIfAlone kept).trans ((Device.askAgain_posts _).trans (Device.recountHops_posts _))).reroutes.trans
    (Device.calHoldCheck_reroutes _)
  rw [hend.gen, down.leaveIfAlone_keeps.1]
  exact hbroken

end Sys2Proof.Machine
end

section
/-! Markers (R218, R227). -/

namespace Sys2Proof.Machine

open Sys2Proof

/-- A marker's superframe number follows the last one's. -/
def RPort.inSequence (x : RPort) (f : BitVec 512) : Bool :=
  x.rxSf.all (fun n => n.toNat + 1 == fld f 95 64 || (n.toNat == 2 ^ 32 - 1 && fld f 95 64 == 0))

/-- The missed markers in a row, and those with BREAK_SEEN, with this one. -/
def RPort.missedNow (x : RPort) (f : BitVec 512) : Nat := if markerOk f && x.inSequence f then 0 else x.missed + 1
def RPort.breaksNow (x : RPort) (f : BitVec 512) : Nat := if markerOk f && bit f 212 then x.breaks + 1 else 0

/-- A port that has taken what a marker says. -/
def RPort.marked (x : RPort) (f : BitVec 512) (now : Nat) : RPort := { x.heard f now with missed := x.missedNow f, breaks := x.breaksNow f }

theorem fld_lt (f : BitVec 512) (hi lo : Nat) : fld f hi lo < 2 ^ (hi - lo + 1) := Nat.mod_lt _ (Nat.two_pow_pos _)

theorem RPort.inSequence_some {x : RPort} {n : Word} (f : BitVec 512) (h : x.rxSf = some n) :
    x.inSequence f = decide (fld f 95 64 = (n.toNat + 1) % 2 ^ 32) := by
  have hn : n.toNat < 2 ^ 32 := n.isLt
  have hf := fld_lt f 95 64
  unfold RPort.inSequence
  rw [h, Option.all_some, Bool.eq_iff_iff]
  simp only [Bool.or_eq_true, Bool.and_eq_true, beq_iff_eq, decide_eq_true_eq]
  omega

theorem RPort.missedNow_next {x : RPort} {f : BitVec 512} {n : Word} (hok : markerOk f = true) (h : x.rxSf = some n)
    (hnext : fld f 95 64 = (n.toNat + 1) % 2 ^ 32) : x.missedNow f = 0 := by
  unfold RPort.missedNow
  rw [hok, x.inSequence_some f h, decide_eq_true hnext]
  rfl

theorem RPort.missedNow_other {x : RPort} {f : BitVec 512} {n : Word} (h : x.rxSf = some n)
    (hnext : fld f 95 64 ≠ (n.toNat + 1) % 2 ^ 32) : x.missedNow f = x.missed + 1 := by
  unfold RPort.missedNow
  rw [x.inSequence_some f h, decide_eq_false hnext, Bool.and_false]
  rfl

theorem RPort.missedNow_bad {x : RPort} {f : BitVec 512} (hbad : markerOk f = false) : x.missedNow f = x.missed + 1 := by
  unfold RPort.missedNow
  rw [hbad]
  rfl

theorem RPort.breaksNow_clear {x : RPort} {f : BitVec 512} (h : bit f 212 = false) : x.breaksNow f = 0 := by
  unfold RPort.breaksNow
  rw [h, Bool.and_false]
  rfl

theorem RPort.breaksNow_set {x : RPort} {f : BitVec 512} (hok : markerOk f = true) (h : bit f 212 = true) : x.breaksNow f = x.breaks + 1 := by
  unfold RPort.breaksNow
  rw [hok, h]
  rfl

variable (d : Device)

theorem Device.modRing_port (f : Ring → Ring) (q : Nat) (h : ∀ r, (f r).ports = r.ports := by exact fun _ => rfl) :
    (d.modRing f).port q = d.port q := congrArg (fun v => vget v q ({} : RPort)) (h d.ring)

theorem Device.sendJoin_port (q : Nat) : (d.sendJoin.port q).standing = (d.port q).standing := by
  unfold Device.sendJoin
  rw [(d.flood 1 _).modRing_port (fun r => { r with joinAt := some (d.now + second) }) q]
  exact (d.flood_posts ..).port q

theorem Device.lookAround_port (p q : Nat) : ((d.lookAround p).port q).standing = (d.port q).standing := by
  unfold Device.lookAround
  extract_lets x known counted gen
  have hknown : (known.port q).standing = (d.port q).standing := by
    unfold known
    split <;> rfl
  have hcounted : (counted.port q).standing = (d.port q).standing :=
    ((known.recountHops_posts.reroutes.trans (Device.calHoldCheck_reroutes _)).port q).trans hknown
  have hgen : (gen.port q).standing = (d.port q).standing := by
    refine Eq.trans ?_ hcounted
    unfold gen
    split <;> rfl
  split
  · exact (gen.sendJoin_port q).trans hgen
  · exact hgen

/-- The link at port p is down, its function as it was. -/
def Device.FallsAt (d d' : Device) (p : Nat) : Prop :=
  (d'.port p).link = .training ∧ (d'.port p).missed = 0 ∧ (d'.port p).x8 = [] ∧ (d'.port p).fn = (d.port p).fn

theorem Device.linkDown_fallsAt {p : Nat} (hp : p < 2) (cause : Option Nat) : d.FallsAt (d.linkDown p cause) p := by
  obtain ⟨retry, h⟩ := d.linkDown_port hp cause
  exact ⟨RPort.of_standing h RPort.link, RPort.of_standing h RPort.missed, RPort.of_standing h RPort.x8, RPort.of_standing h RPort.fn⟩

/-- What a marker that is taken changes at its port. -/
def Device.takeMarker (d : Device) (p : Nat) (f : BitVec 512) : Device :=
  d.modPort p (fun x => { x.heard f d.time16 with missed := (d.port p).missedNow f, breaks := (d.port p).breaksNow f })

theorem Device.takeMarker_port {p : Nat} (hp : p < 2) (f : BitVec 512) : (d.takeMarker p f).port p = (d.port p).marked f d.time16 :=
  d.port_modPort_same hp _

theorem Device.markerSeen_eq (p : Nat) (f : BitVec 512) : d.markerSeen p f =
    if !(d.port p).live then d
    else if !markerOk f then
      if (d.port p).missedNow f < 3 then
        d.modPort p (fun x => { x with missed := (d.port p).missedNow f, breaks := (d.port p).breaksNow f })
      else d.linkDown p (some 1)
    else if 3 ≤ (d.port p).missedNow f then (d.takeMarker p f).linkDown p (some 1)
    else if 2 ≤ (d.port p).breaksNow f then (d.takeMarker p f).linkDown p (some 3)
    else if bit f 211 then (d.takeMarker p f).linkDown p none
    else (d.takeMarker p f).lookAround p := rfl

section
variable {d : Device} {p : Nat} {f : BitVec 512}

theorem Device.markerSeen_dead (h : (d.port p).live = false) : d.markerSeen p f = d := by
  rw [d.markerSeen_eq, h, Bool.not_false, if_pos rfl]

theorem Device.markerSeen_silent (hlive : (d.port p).live = true) (hbad : markerOk f = false) (hm : (d.port p).missed < 2) :
    d.markerSeen p f = d.modPort p (fun x => { x with missed := (d.port p).missed + 1, breaks := 0 }) := by
  have hbreaks : (d.port p).breaksNow f = 0 := by
    unfold RPort.breaksNow
    rw [hbad]
    rfl
  rw [d.markerSeen_eq, hlive, hbad, RPort.missedNow_bad hbad, hbreaks, if_neg (by decide), if_pos (by decide), if_pos (by omega)]

theorem Device.markerSeen_hears (hp : p < 2) (hlive : (d.port p).live = true) (hok : markerOk f = true) (hm : (d.port p).missedNow f < 3)
    (hb : (d.port p).breaksNow f < 2) (hleave : bit f 211 = false) :
    ((d.markerSeen p f).port p).standing = ((d.port p).marked f d.time16).standing := by
  rw [d.markerSeen_eq, hlive, hok, hleave, if_neg (by decide), if_neg (by decide), if_neg (Nat.not_le.mpr hm), if_neg (Nat.not_le.mpr hb),
    if_neg (by decide), Device.lookAround_port, d.takeMarker_port hp]

/-- Three missed in a row, two with BREAK_SEEN and one with LEAVE take the link down. -/
theorem Device.markerSeen_falls (hp : p < 2) (hlive : (d.port p).live = true)
    (h : 3 ≤ (d.port p).missedNow f ∨ markerOk f = true ∧ (2 ≤ (d.port p).breaksNow f ∨ bit f 211 = true)) :
    d.FallsAt (d.markerSeen p f) p := by
  have htaken : ∀ cause, d.FallsAt ((d.takeMarker p f).linkDown p cause) p := by
    intro cause
    have hdown := (d.takeMarker p f).linkDown_fallsAt hp cause
    unfold Device.FallsAt at hdown
    rwa [d.takeMarker_port hp] at hdown
  rw [d.markerSeen_eq, hlive, if_neg (by decide)]
  cases hok : markerOk f with
  | false =>
    have hmissed : 3 ≤ (d.port p).missedNow f := h.resolve_right fun ⟨hyes, _⟩ => Bool.false_ne_true (hok.symm.trans hyes)
    rw [if_pos (by decide), if_neg (Nat.not_lt.mpr hmissed)]
    exact d.linkDown_fallsAt hp _
  | true =>
    rw [if_neg (by decide)]
    split
    · exact htaken _
    · next hmissed =>
      split
      · exact htaken _
      · next hbreaks =>
        rw [if_pos ((h.resolve_left hmissed).2.resolve_left hbreaks)]
        exact htaken _

end

end Sys2Proof.Machine
end

section
/-! Time flits and the servo (R24, R241-R243). -/

namespace Sys2Proof.Machine

open Sys2Proof

/-- A port that has measured one more link delay. -/
def RPort.measured (x : RPort) (t3 : Nat) (delta : Int) : RPort :=
  { x with peerTx := t3, delays := (delta :: x.delays).take 256, delay := meanDelay ((delta :: x.delays).take 256) }

section
variable {d : Device} {p : Nat} {f : BitVec 512}

theorem Device.timeFlit_dead (h : (d.port p).live = false) : d.timeFlit p f = d := by
  exact if_pos (by rw [h]; rfl)

theorem Device.timeFlit_keeps (d : Device) (p : Nat) (f : BitVec 512) : d.Keeps (d.timeFlit p f) := by
  unfold Device.timeFlit
  dsimp only
  split
  · exact .refl d
  · split
    · exact d.modPort_keeps ..
    · exact (d.modPort_keeps ..).trans (Device.modPort_keeps ..)

theorem Device.timeFlit_port {t1 : Nat} (hp : p < 2) (hlive : (d.port p).live = true) (ht : mget (fld f 111 80) (d.port p).txTimes = some t1) :
    (d.timeFlit p f).port p = (d.port p).measured (fld f 63 0 * 65536 + fld f 79 64)
      (((((d.port p).rxAt : Int) - t1) -
        (((fld f 63 0 * 65536 + fld f 79 64 : Nat) : Int) - (fld f 175 112 * 65536 + fld f 191 176 : Nat))) / 2) := by
  unfold Device.timeFlit
  dsimp only
  rw [hlive, Bool.not_true, if_neg Bool.false_ne_true, ht, Device.port_modPort_same _ hp, d.port_modPort_same hp]
  rfl

end

theorem servoInc_bounds (offset integ : Int) :
    4294967296 - 1073741 ≤ servoInc offset integ ∧ servoInc offset integ ≤ 4294967296 + 1073741 := by
  unfold servoInc
  extract_lets trim clipped
  have hclip : -1073741 ≤ clipped ∧ clipped ≤ 1073741 := by
    unfold clipped
    constructor <;> split <;> try split
    all_goals omega
  omega

/-- The offsets in a row below 1 ns, and above 2 ns, with one more. -/
def Ring.inNow (r : Ring) (offset : Int) : Nat := if offset.natAbs < 65536 then r.inLock + 1 else 0
def Ring.outNow (r : Ring) (offset : Int) : Nat := if 131072 < offset.natAbs then r.outLock + 1 else 0

/-- The ring with one more offset to the parent counted. -/
def Ring.takeOffset (r : Ring) (offset : Int) : Ring :=
  { r with offset := offset, integ := r.integ + offset, servoSf := 0, inLock := r.inNow offset, outLock := r.outNow offset }

/-- The device with its time steered by one more offset. -/
def Device.steer (d : Device) (offset : Int) : Device :=
  { d.modRing (fun r => r.takeOffset offset) with time := { d.time with inc := servoInc offset (d.ring.integ + offset) } }

section
variable {d : Device}

theorem Device.servoUpdate_off (h : d.ring.onring = false ∨ d.ring.head = true) : d.servoUpdate = d := by
  refine if_pos ?_
  rcases h with h | h <;> rw [h] <;> simp

theorem Device.servoUpdate_due (honring : d.ring.onring = true) (hhead : d.ring.head = false) (hhops : d.ring.hops ≠ 0xFF)
    (hdue : 256 ≤ d.ring.servoSf) : d.servoUpdate =
    let o := d.offsetNow d.ring.parent
    if !d.ring.locked && 64 ≤ d.ring.inNow o then
      (((d.steer o).modRing (fun r => { r with locked := true })).ringTimeEvent true o).portsOn
    else if d.ring.locked && 8 ≤ d.ring.outNow o then ((d.steer o).modRing (fun r => { r with locked := false })).ringTimeEvent false o
    else d.steer o := by
  unfold Device.servoUpdate
  rw [if_neg (by simp [honring, hhead, hhops]; omega)]
  rfl

/-- An offset below 1 ns that is not the 64th, and one up to 2 ns of a locked node, steers alone. -/
theorem Device.servoUpdate_steers (honring : d.ring.onring = true) (hhead : d.ring.head = false) (hhops : d.ring.hops ≠ 0xFF)
    (hdue : 256 ≤ d.ring.servoSf) (hlock : d.ring.locked = false → d.ring.inNow (d.offsetNow d.ring.parent) < 64)
    (hunlock : d.ring.locked = true → d.ring.outNow (d.offsetNow d.ring.parent) < 8) :
    d.servoUpdate = d.steer (d.offsetNow d.ring.parent) := by
  rw [Device.servoUpdate_due honring hhead hhops hdue]
  dsimp only
  cases hlocked : d.ring.locked with
  | false => rw [if_neg (by simpa using hlock hlocked), if_neg (by simp)]
  | true => rw [if_neg (by simp), if_neg (by simpa using hunlock hlocked)]

theorem Device.servoUpdate_locks (honring : d.ring.onring = true) (hhead : d.ring.head = false) (hhops : d.ring.hops ≠ 0xFF)
    (hdue : 256 ≤ d.ring.servoSf) (hlocked : d.ring.locked = false) (hlock : 64 ≤ d.ring.inNow (d.offsetNow d.ring.parent)) :
    ((d.steer (d.offsetNow d.ring.parent)).modRing (fun r => { r with locked := true })).Regroups d.servoUpdate := by
  rw [Device.servoUpdate_due honring hhead hhops hdue]
  dsimp only
  rw [if_pos (by simpa [hlocked] using hlock)]
  exact (Device.ringTimeEvent_posts ..).reroutes.toRegroups.trans (Device.portsOn_regroups _)

theorem Device.servoUpdate_unlocks (honring : d.ring.onring = true) (hhead : d.ring.head = false) (hhops : d.ring.hops ≠ 0xFF)
    (hdue : 256 ≤ d.ring.servoSf) (hlocked : d.ring.locked = true) (hunlock : 8 ≤ d.ring.outNow (d.offsetNow d.ring.parent)) :
    d.servoUpdate = ((d.steer (d.offsetNow d.ring.parent)).modRing (fun r => { r with locked := false })).ringTimeEvent false
      (d.offsetNow d.ring.parent) := by
  rw [Device.servoUpdate_due honring hhead hhops hdue]
  dsimp only
  rw [if_neg (by simp [hlocked]), if_pos (by simpa [hlocked] using hunlock)]

theorem Device.holdoverEnd_due {t : Nat} (h : d.ring.noPathSince = some t) (ht : t + second ≤ d.now) (hlocked : d.ring.locked = true) :
    d.holdoverEnd = (d.modRing (fun r => { r with locked := false, inLock := 0 })).ringTimeEvent false d.ring.offset := by
  unfold Device.holdoverEnd
  rw [h]
  dsimp only
  rw [if_pos (by simp [ht, hlocked])]

end

end Sys2Proof.Machine
end

section
/-! Markers and time at the rows (R218, R227, R241-R243). -/

namespace Sys2Proof.Machine

open Sys2Proof

section
variable {s : State} {dt : Nat} {p : Port} {f : BitVec 512}

/-- A marker that is taken: the port says what it says. -/
theorem marker_hears (halive : (s.elapse dt).dev.alive = true) {m b : Nat} (hlive : ((s.elapse dt).dev.port (portNo p)).live = true)
    (hok : markerOk f = true) (hleave : bit f 211 = false) (hm : ((s.elapse dt).dev.port (portNo p)).missedNow f = m)
    (hb : ((s.elapse dt).dev.port (portNo p)).breaksNow f = b) (hm3 : m < 3) (hb2 : b < 2) :
    Answers (exec (.marker dt p f) s) (fun u =>
      let x := (s.elapse dt).dev.port (portNo p)
      let y := u.dev.port (portNo p)
      y.missed = m ∧ y.breaks = b ∧ y.link = x.link ∧ y.rxSf = some (.ofNat 32 (fld f 95 64)) ∧ y.neighbour = fld f 167 160 ∧
      y.rxAt = (s.elapse dt).dev.time16 ∧ y.rxFlags = fld f 213 208) := by
  refine (coreRow_rests (f := fun d => d.markerSeen (portNo p) f) halive rfl).imp fun u hu => ?_
  have h := (hu.posts.port (portNo p)).trans (Device.markerSeen_hears (portNo_lt p) hlive hok (hm.trans_lt hm3) (hb.trans_lt hb2) hleave)
  exact ⟨(RPort.of_standing h RPort.missed).trans hm, (RPort.of_standing h RPort.breaks).trans hb, RPort.of_standing h RPort.link,
    RPort.of_standing h RPort.rxSf, RPort.of_standing h RPort.neighbour, RPort.of_standing h RPort.rxAt, RPort.of_standing h RPort.rxFlags⟩

/-- A marker that takes the link down. -/
theorem marker_falls (halive : (s.elapse dt).dev.alive = true) (hlive : ((s.elapse dt).dev.port (portNo p)).live = true)
    (h : 3 ≤ ((s.elapse dt).dev.port (portNo p)).missedNow f ∨
      markerOk f = true ∧ (2 ≤ ((s.elapse dt).dev.port (portNo p)).breaksNow f ∨ bit f 211 = true)) :
    Answers (exec (.marker dt p f) s) (fun u => (u.dev.port (portNo p)).link = .training ∧ (u.dev.port (portNo p)).missed = 0 ∧
      (u.dev.port (portNo p)).x8 = [] ∧ (u.dev.port (portNo p)).fn.st = ((s.elapse dt).dev.port (portNo p)).fn.st) := by
  refine (coreRow_rests (f := fun d => d.markerSeen (portNo p) f) halive rfl).imp fun u hu => ?_
  obtain ⟨hlink, hmissed, hx8, hfn⟩ := Device.markerSeen_falls (portNo_lt p) hlive h
  exact ⟨(hu.port_base RPort.link _).trans hlink, (hu.port_base RPort.missed _).trans hmissed, (hu.port_base RPort.x8 _).trans hx8,
    congrArg Fn.st ((hu.port_base RPort.fn _).trans hfn)⟩

end

/-- A part of the ring that `bond` keeps. -/
theorem Device.Regroups.of_ring_bond {α : Type} {d d' : Device} (h : d.Regroups d') (g : Ring → α)
    (hg : ∀ r : Ring, g r.bond = g r := by exact fun _ => rfl) : g d'.ring = g d.ring :=
  (hg d'.ring).symm.trans ((congrArg g h.ring).trans (hg d.ring))

/-- A time that is steered keeps its nanoseconds, within the range of the increment. -/
theorem Device.steer_time (d : Device) (o : Int) : 4294967296 - 1073741 ≤ (d.steer o).time.inc ∧
    (d.steer o).time.inc ≤ 4294967296 + 1073741 ∧ (d.steer o).time.ns = d.time.ns :=
  ⟨(servoInc_bounds ..).1, (servoInc_bounds ..).2, rfl⟩

theorem Device.steer_onlyIn (d : Device) (o : Int) : d.OnlyIn (.time :: .ring :: reports) (d.steer o) := by
  intro p hp
  cases p <;> first | rfl | exact absurd (by decide) hp

section
variable {s : State} {dt : Nat} {p : Port} {f : BitVec 512}

/-- A marker without the pattern counts as missed. -/
theorem marker_silent (halive : (s.elapse dt).dev.alive = true) (hlive : ((s.elapse dt).dev.port (portNo p)).live = true)
    (hbad : markerOk f = false) (hmissed : ((s.elapse dt).dev.port (portNo p)).missed < 2) :
    Answers (exec (.marker dt p f) s) (fun u =>
      (u.dev.port (portNo p)).base = ({ (s.elapse dt).dev.port (portNo p) with
        missed := ((s.elapse dt).dev.port (portNo p)).missed + 1, breaks := 0 } : RPort).base ∧
      (s.elapse dt).dev.OnlyIn (.ring :: reports) u.dev) := by
  refine (coreRow_rests (f := fun d => d.markerSeen (portNo p) f) halive (Device.markerSeen_silent hlive hbad hmissed)).imp fun u hu => ?_
  refine ⟨(hu.base _).trans ?_, ((Device.modPort_keeps ..).trans hu.keeps).onlyIn⟩
  rw [Device.port_modPort_same _ (portNo_lt p)]

/-- A time flit that answers a stamp of this node adds one link delay. -/
theorem timeFlit_measures (halive : (s.elapse dt).dev.alive = true) {t1 : Nat} (hlive : ((s.elapse dt).dev.port (portNo p)).live = true)
    (ht : mget (fld f 111 80) ((s.elapse dt).dev.port (portNo p)).txTimes = some t1) :
    Answers (exec (.timeFlit dt p f) s) (fun u =>
      let x := (s.elapse dt).dev.port (portNo p)
      let y := u.dev.port (portNo p)
      let t3 := fld f 63 0 * 65536 + fld f 79 64
      let t2 := fld f 175 112 * 65536 + fld f 191 176
      y.peerTx = t3 ∧ y.delays = ((((x.rxAt : Int) - t1) - ((t3 : Int) - t2)) / 2 :: x.delays).take 256 ∧
      y.delay = meanDelay y.delays ∧ y.link = x.link ∧ (s.elapse dt).dev.OnlyIn (.ring :: reports) u.dev) := by
  refine (coreRow_rests (f := fun d => d.timeFlit (portNo p) f) halive rfl).imp fun u hu => ?_
  have hport := Device.timeFlit_port (portNo_lt p) hlive ht
  have hdelays := (hu.port_base RPort.delays (portNo p)).trans (congrArg RPort.delays hport)
  refine ⟨(hu.port_base RPort.peerTx _).trans (congrArg RPort.peerTx hport), hdelays, ?_,
    (hu.port_base RPort.link _).trans (by rw [hport]; rfl), ((Device.timeFlit_keeps ..).trans hu.keeps).onlyIn⟩
  exact (hu.port_base RPort.delay _).trans ((congrArg RPort.delay hport).trans (congrArg meanDelay hdelays.symm))

end

section
variable {s : State} {dt : Nat} (halive : (s.elapse dt).dev.alive = true) (honring : (s.elapse dt).dev.ring.onring = true)
  (hhead : (s.elapse dt).dev.ring.head = false) (hhops : (s.elapse dt).dev.ring.hops ≠ 0xFF) (hdue : 256 ≤ (s.elapse dt).dev.ring.servoSf)
include halive honring hhead hhops hdue

/-- An offset that neither locks nor unlocks steers the time alone. -/
theorem servo_steers {o : Int} (ho : (s.elapse dt).dev.offsetNow (s.elapse dt).dev.ring.parent = o)
    (hlock : (s.elapse dt).dev.ring.locked = false → (s.elapse dt).dev.ring.inNow o < 64)
    (hunlock : (s.elapse dt).dev.ring.locked = true → (s.elapse dt).dev.ring.outNow o < 8) :
    Answers (exec (.timeServoUpdate dt) s) (fun u => ((s.elapse dt).dev.steer o).Rests u.dev) := by
  subst ho
  exact coreRow_rests halive (Device.servoUpdate_steers honring hhead hhops hdue hlock hunlock)

/-- The 64th offset in a row below 1 ns locks. -/
theorem servo_locks {o : Int} (ho : (s.elapse dt).dev.offsetNow (s.elapse dt).dev.ring.parent = o)
    (hlocked : (s.elapse dt).dev.ring.locked = false) (hlock : 64 ≤ (s.elapse dt).dev.ring.inNow o) :
    Answers (exec (.timeServoUpdate dt) s) (fun u =>
      (((s.elapse dt).dev.steer o).modRing (fun r => { r with locked := true })).Regroups u.dev) := by
  subst ho
  refine (coreRow_rests (f := Device.servoUpdate) halive rfl).imp fun u hu => ?_
  exact (Device.servoUpdate_locks honring hhead hhops hdue hlocked hlock).trans hu.posts.reroutes.toRegroups

/-- The eighth offset in a row above 2 ns unlocks. -/
theorem servo_unlocks {o : Int} (ho : (s.elapse dt).dev.offsetNow (s.elapse dt).dev.ring.parent = o)
    (hlocked : (s.elapse dt).dev.ring.locked = true) (hunlock : 8 ≤ (s.elapse dt).dev.ring.outNow o) :
    Answers (exec (.timeServoUpdate dt) s) (fun u =>
      (((s.elapse dt).dev.steer o).modRing (fun r => { r with locked := false })).Posts u.dev) := by
  subst ho
  refine (coreRow_rests halive (Device.servoUpdate_unlocks honring hhead hhops hdue hlocked hunlock)).imp fun u hu => ?_
  exact (Device.ringTimeEvent_posts ..).trans hu.posts

/-- A locked node whose offset is at most 2 ns stays locked. -/
theorem servo_keepsLock {o : Int} (ho : (s.elapse dt).dev.offsetNow (s.elapse dt).dev.ring.parent = o)
    (hlocked : (s.elapse dt).dev.ring.locked = true) (hnear : o.natAbs ≤ 131072) :
    Answers (exec (.timeServoUpdate dt) s) (fun u =>
      u.dev.ring.offset = o ∧ u.dev.ring.servoSf = 0 ∧ u.dev.ring.locked = true ∧ u.dev.ring.outLock = 0 ∧
      4294967296 - 1073741 ≤ u.dev.time.inc ∧ u.dev.time.inc ≤ 4294967296 + 1073741 ∧ u.dev.time.ns = (s.elapse dt).dev.time.ns ∧
      (s.elapse dt).dev.OnlyIn (.time :: .ring :: reports) u.dev) := by
  have hout : (s.elapse dt).dev.ring.outNow o = 0 := if_neg (Nat.not_lt.mpr hnear)
  refine (servo_steers halive honring hhead hhops hdue ho (fun h => absurd (h.symm.trans hlocked) Bool.false_ne_true)
    (fun _ => by rw [hout]; decide)).imp fun u hu => ?_
  obtain ⟨hlow, hhigh, hns⟩ := (s.elapse dt).dev.steer_time o
  rw [← hu.keeps.time] at hlow hhigh hns
  exact ⟨hu.of_ring Ring.offset, hu.of_ring Ring.servoSf, (hu.of_ring Ring.locked).trans hlocked, (hu.of_ring Ring.outLock).trans hout,
    hlow, hhigh, hns, ((s.elapse dt).dev.steer_onlyIn o).trans (hu.keeps.onlyIn.mono (by decide))⟩

/-- An offset below 1 ns counts toward the lock of a node that is not locked. -/
theorem servo_countsIn {o : Int} (ho : (s.elapse dt).dev.offsetNow (s.elapse dt).dev.ring.parent = o)
    (hlocked : (s.elapse dt).dev.ring.locked = false) (hnear : o.natAbs < 65536) :
    Answers (exec (.timeServoUpdate dt) s) (fun u =>
      u.dev.ring.offset = o ∧ u.dev.ring.servoSf = 0 ∧ u.dev.ring.inLock = (s.elapse dt).dev.ring.inLock + 1 ∧
      u.dev.ring.locked = decide (63 ≤ (s.elapse dt).dev.ring.inLock) ∧
      4294967296 - 1073741 ≤ u.dev.time.inc ∧ u.dev.time.inc ≤ 4294967296 + 1073741 ∧ u.dev.time.ns = (s.elapse dt).dev.time.ns) := by
  have hin : (s.elapse dt).dev.ring.inNow o = (s.elapse dt).dev.ring.inLock + 1 := if_pos hnear
  obtain ⟨hlow, hhigh, hns⟩ := (s.elapse dt).dev.steer_time o
  by_cases hfull : 63 ≤ (s.elapse dt).dev.ring.inLock
  · refine (servo_locks halive honring hhead hhops hdue ho hlocked (by rw [hin]; exact Nat.succ_le_succ hfull)).imp fun u hu => ?_
    rw [hu.time]
    exact ⟨hu.of_ring_bond Ring.offset, hu.of_ring_bond Ring.servoSf, (hu.of_ring_bond Ring.inLock).trans hin,
      (hu.of_ring_bond Ring.locked).trans (decide_eq_true hfull).symm, hlow, hhigh, hns⟩
  · refine (servo_steers halive honring hhead hhops hdue ho (fun _ => by rw [hin]; omega)
      (fun h => absurd (hlocked.symm.trans h) Bool.false_ne_true)).imp fun u hu => ?_
    rw [hu.keeps.time]
    exact ⟨hu.of_ring Ring.offset, hu.of_ring Ring.servoSf, (hu.of_ring Ring.inLock).trans hin,
      ((hu.of_ring Ring.locked).trans hlocked).trans (decide_eq_false hfull).symm, hlow, hhigh, hns⟩

/-- An offset of 1 ns or more starts the count toward the lock anew. -/
theorem servo_restarts {o : Int} (ho : (s.elapse dt).dev.offsetNow (s.elapse dt).dev.ring.parent = o)
    (hlocked : (s.elapse dt).dev.ring.locked = false) (hfar : 65536 ≤ o.natAbs) :
    Answers (exec (.timeServoUpdate dt) s) (fun u =>
      u.dev.ring.inLock = 0 ∧ u.dev.ring.locked = false ∧ u.dev.time.ns = (s.elapse dt).dev.time.ns) := by
  have hin : (s.elapse dt).dev.ring.inNow o = 0 := if_neg (Nat.not_lt.mpr hfar)
  refine (servo_steers halive honring hhead hhops hdue ho (fun _ => by rw [hin]; decide)
    (fun h => absurd (hlocked.symm.trans h) Bool.false_ne_true)).imp fun u hu => ?_
  rw [hu.keeps.time]
  exact ⟨(hu.of_ring Ring.inLock).trans hin, (hu.of_ring Ring.locked).trans hlocked, rfl⟩

/-- An offset above 2 ns counts toward the end of the lock. -/
theorem servo_countsOut {o : Int} (ho : (s.elapse dt).dev.offsetNow (s.elapse dt).dev.ring.parent = o)
    (hlocked : (s.elapse dt).dev.ring.locked = true) (hfar : 131072 < o.natAbs) :
    Answers (exec (.timeServoUpdate dt) s) (fun u =>
      u.dev.ring.outLock = (s.elapse dt).dev.ring.outLock + 1 ∧ u.dev.ring.locked = decide ((s.elapse dt).dev.ring.outLock < 7) ∧
      u.dev.time.ns = (s.elapse dt).dev.time.ns) := by
  have hout : (s.elapse dt).dev.ring.outNow o = (s.elapse dt).dev.ring.outLock + 1 := if_pos hfar
  by_cases hfull : (s.elapse dt).dev.ring.outLock < 7
  · refine (servo_steers halive honring hhead hhops hdue ho (fun h => absurd (h.symm.trans hlocked) Bool.false_ne_true)
      (fun _ => by rw [hout]; omega)).imp fun u hu => ?_
    rw [hu.keeps.time]
    exact ⟨(hu.of_ring Ring.outLock).trans hout, ((hu.of_ring Ring.locked).trans hlocked).trans (decide_eq_true hfull).symm, rfl⟩
  · refine (servo_unlocks halive honring hhead hhops hdue ho hlocked (by rw [hout]; omega)).imp fun u hu => ?_
    rw [hu.keeps.time]
    exact ⟨(hu.of_ring_standing Ring.outLock).trans hout, (hu.of_ring_standing Ring.locked).trans (decide_eq_false hfull).symm, rfl⟩

end

/-- One second without a path to a head clears the lock. -/
theorem holdover_clears {s : State} {dt t : Nat} (halive : (s.elapse dt).dev.alive = true)
    (hsince : (s.elapse dt).dev.ring.noPathSince = some t) (ht : t + second ≤ (s.elapse dt).dev.now)
    (hlocked : (s.elapse dt).dev.ring.locked = true) :
    Answers (exec (.timeHoldoverTimeout dt) s) (fun u =>
      { u.dev.ring with ports := (s.elapse dt).dev.ring.ports } = { (s.elapse dt).dev.ring with locked := false, inLock := 0 } ∧
      (s.elapse dt).dev.OnlyIn (.ring :: reports) u.dev) := by
  refine (coreRow_rests halive (Device.holdoverEnd_due hsince ht hlocked)).imp fun u hu => ?_
  have hevent := Device.raise_near ((s.elapse dt).dev.modRing (fun r => { r with locked := false, inLock := 0 })) 0x0706 0
    (fields [(255, false.toNat), (223, Config.signed 32 (s.elapse dt).dev.ring.offset)])
  refine ⟨?_, (((Device.modRing_keeps ..).trans hevent.keeps).trans hu.keeps).onlyIn⟩
  have hring := congrArg (fun r : Ring => { r with ports := (s.elapse dt).dev.ring.ports }) hu.ring
  have hraise := congrArg (fun r : Ring => { r with ports := (s.elapse dt).dev.ring.ports }) hevent.ring
  exact hring.trans hraise

/-- Settles O27. A marker is taken, counted or takes the link down by the missed ones and those with BREAK_SEEN in a row; the servo
steers by each offset, and locks and unlocks by its counts. -/
theorem markersAndTime : Obligations.MarkersAndTime := by
  unfold Obligations.MarkersAndTime
  intro s dt p f halive
  extract_lets d x at_ heard down
  refine ⟨?_, ?_, ?_, fun hlive hbad hmissed => marker_silent halive hlive hbad hmissed, ?_, ?_, ?_, ?_, ?_,
    fun t1 hlive ht => timeFlit_measures halive hlive ht,
    fun honring hhead hhops hdue hlocked hnear => servo_keepsLock halive honring hhead hhops hdue rfl hlocked hnear,
    fun honring hhead hhops hdue hlocked hnear => servo_countsIn halive honring hhead hhops hdue rfl hlocked hnear,
    fun honring hhead hhops hdue hlocked hfar _ => servo_restarts halive honring hhead hhops hdue rfl hlocked hfar,
    fun honring hhead hhops hdue hlocked hfar => servo_countsOut halive honring hhead hhops hdue rfl hlocked hfar,
    fun hoff => coreRow_idles dt _ s (Device.servoUpdate_off hoff),
    fun t hsince ht hlocked => holdover_clears halive hsince ht hlocked⟩
  · intro n hlive hok hsf hnext hbreak hleave
    exact marker_hears halive hlive hok hleave (RPort.missedNow_next hok hsf hnext) (RPort.breaksNow_clear hbreak) (by decide) (by decide)
  · intro n hlive hok hsf hnext hbreak hfirst hleave
    exact marker_hears halive hlive hok hleave (RPort.missedNow_next hok hsf hnext)
      ((RPort.breaksNow_set hok hbreak).trans (congrArg (· + 1) hfirst)) (by decide) (by decide)
  · intro n hlive hok hsf hnext hmissed hbreak hleave
    exact marker_hears halive hlive hok hleave (RPort.missedNow_other hsf hnext) (RPort.breaksNow_clear hbreak) (by omega) (by decide)
  · exact fun hlive hbad hmissed => marker_falls halive hlive (.inl (by rw [RPort.missedNow_bad hbad]; exact Nat.succ_le_succ hmissed))
  · intro n hlive hok hsf hnext hmissed
    exact marker_falls halive hlive (.inl (by rw [RPort.missedNow_other hsf hnext]; exact Nat.succ_le_succ hmissed))
  · intro hlive hok hbreak hbreaks
    exact marker_falls halive hlive (.inr ⟨hok, .inl (by rw [RPort.breaksNow_set hok hbreak]; exact Nat.succ_le_succ hbreaks)⟩)
  · exact fun hlive hok hleave => marker_falls halive hlive (.inr ⟨hok, .inr hleave⟩)
  · intro hdead
    exact ⟨coreRow_idles dt (fun d => d.markerSeen (portNo p) f) s (Device.markerSeen_dead hdead),
      coreRow_idles dt (fun d => d.timeFlit (portNo p) f) s (Device.timeFlit_dead hdead)⟩

end Sys2Proof.Machine
end

section
/-! Bring-up: what each step changes (Table 8-8, R26, R226, R227, R236). -/

namespace Sys2Proof.Machine

open Sys2Proof

theorem Device.Keeps.onlyIn_reports {d d' : Device} (h : d.Keeps d') (hring : { d'.ring with ports := d.ring.ports } = d.ring) :
    d.OnlyIn reports d' := by
  intro q hq
  by_cases hr : q = .ring
  · subst hr
    exact hring
  · exact h.onlyIn q (by rw [List.mem_cons]; exact fun hmem => hmem.elim hr hq)

theorem Device.Rests.onlyIn {d d' : Device} (h : d.Rests d') : d.OnlyIn reports d' := h.keeps.onlyIn_reports h.ring

variable (d : Device)

theorem Device.modPort_onlyIn (p : Nat) (f : RPort → RPort) : d.OnlyIn reports (d.modPort p f) :=
  (d.modPort_keeps p f).onlyIn_reports rfl

theorem Device.modPort_self {p : Nat} {f : RPort → RPort} (hp : p < 2) (h : f (d.port p) = d.port p) : d.modPort p f = d := by
  unfold Device.port vget at h
  rw [dif_pos hp] at h
  unfold Device.modPort vmod
  rw [dif_pos hp, h, Vector.set_getElem_self]

/-! MARKER_LOCK. -/

theorem Device.lookAround_onlyIn (p : Nat) : d.OnlyIn (.ring :: .fire :: reports) (d.lookAround p) := by
  unfold Device.lookAround
  extract_lets x known counted gen
  have hring : ∀ (d : Device) (f : Ring → Ring), d.OnlyIn (.ring :: .fire :: reports) (d.modRing f) :=
    fun d f => (d.modRing_keeps f).onlyIn.mono (by decide)
  have hknown : d.OnlyIn (.ring :: .fire :: reports) known := by
    unfold known
    split
    · exact hring _ _
    · exact .refl _ d
  have hcounted := hknown.trans ((known.recountHops_posts.onlyIn.mono (by decide)).trans
    ((Device.calHoldCheck_onlyIn known.recountHops).mono (by decide)))
  have hgen : d.OnlyIn (.ring :: .fire :: reports) gen := by
    refine hcounted.trans ?_
    unfold gen
    split
    · exact .refl _ counted
    · exact hring _ _
  split
  · exact hgen.trans (((gen.flood_posts ..).onlyIn.mono (by decide)).trans (hring _ _))
  · exact hgen

/-- The port p as it locks onto a marker. -/
def RPort.locksOn (x : RPort) (f : BitVec 512) (now : Nat) : RPort :=
  { x.heard f now with link := .linked, missed := 0, breaks := 0, delays := [] }

theorem Device.markerLock_idle {d : Device} {p : Nat} {f : BitVec 512} (h : (d.port p).link ≠ .aligning ∨ markerOk f = false) :
    d.markerLock p f = d := by
  refine if_pos ?_
  rcases h with h | h <;> simp [h]

theorem Device.markerLock_locks {d : Device} {p : Nat} {f : BitVec 512} (hp : p < 2) (hlink : (d.port p).link = .aligning)
    (hok : markerOk f = true) : ((d.markerLock p f).port p).standing = ((d.port p).locksOn f d.time16).standing ∧
      d.OnlyIn (.ring :: .fire :: reports) (d.markerLock p f) := by
  unfold Device.markerLock
  rw [hlink, hok, if_neg (by decide)]
  extract_lets locked x meets looked
  have hlooked : (looked.port p).standing = ((d.port p).locksOn f d.time16).standing :=
    (locked.lookAround_port p p).trans (congrArg RPort.standing (d.port_modPort_same hp _))
  have honly : d.OnlyIn (.ring :: .fire :: reports) looked :=
    ((d.modPort_onlyIn p _).mono (by decide)).trans (locked.lookAround_onlyIn p)
  split
  · exact ⟨(looked.floodElect_posts.port p).trans hlooked, honly.trans (looked.floodElect_posts.onlyIn.mono (by decide))⟩
  · exact ⟨hlooked, honly⟩

/-! LINK_DELAY_AVERAGED. -/

/-- Whether a link's delay is averaged, of a node that has its number. -/
def Device.Averaged (d : Device) (p : Nat) : Prop := (d.port p).link = .linked ∧ d.ring.granted = true ∧ 256 ≤ (d.port p).delays.length

/-- The node's time at its first link. -/
def Device.firstTime (d : Device) (p : Nat) : Device :=
  if !d.ring.onring && d.ring.stepFlag && !d.ring.locked && !d.ring.head then d.stepTime (d.offsetNow p)
  else if !d.ring.onring then d.modRing (fun r => { r with stepped := false }) else d

/-- The port p as its link becomes a member's. -/
def RPort.joining (x : RPort) : RPort := { x with link := .member, retryAt := none }

/-- The ring as this node comes onto it. -/
def Ring.comesOn (r : Ring) (first : Bool) : Ring := { r with onring := true, joinDue := r.joinDue || first }

theorem Ring.comesOn_again {r : Ring} (h : r.onring = true) : r.comesOn false = r := by
  unfold Ring.comesOn
  rw [Bool.or_false, ← h]

/-- The device as the link at port p becomes a member's. -/
def Device.linkUp (d : Device) (p : Nat) : Device :=
  (((d.firstTime p).modRing (fun r => r.comesOn (!d.ring.onring))).modPort p RPort.joining).linkEvent p 1 0

theorem Device.delayAveraged_due {d : Device} {p : Nat} (h : d.Averaged p) : d.delayAveraged p =
    (if !d.ring.onring then d.linkUp p else (d.linkUp p).healAt p).calHoldCheck.portsOn := by
  obtain ⟨hlink, hgranted, hlength⟩ := h
  unfold Device.delayAveraged
  dsimp only
  rw [if_neg (by simp [hlink, hgranted]; omega)]
  rfl

theorem Device.delayAveraged_early {d : Device} {p : Nat} (h : ¬ d.Averaged p) : d.delayAveraged p = d := by
  refine if_pos ?_
  unfold Device.Averaged at h
  simp only [Bool.or_eq_true, bne_iff_ne, Bool.not_eq_true', decide_eq_true_eq]
  by_contra hall
  simp only [not_or, Decidable.not_not, Bool.not_eq_false, Nat.not_lt] at hall
  exact h ⟨hall.1.1, hall.1.2, hall.2⟩

theorem Device.stepTime_port (offset : Int) (q : Nat) : ((d.stepTime offset).port q).standing = (d.port q).standing :=
  (Device.record_posts ..).port q

theorem Device.stepTime_time (offset : Int) :
    let x := ((d.time.ns.toNat * 2 ^ 32 + d.time.frac.toNat : Int) + offset * 65536) % 2 ^ 96
    (d.stepTime offset).time =
      { d.time with ns := .ofNat 64 (x.toNat / 2 ^ 32), frac := .ofNat 32 x.toNat, epoch := d.time.epoch + 1 } :=
  (Device.record_posts ..).keeps.time

theorem Device.firstTime_again {d : Device} (p : Nat) (honring : d.ring.onring = true) : d.firstTime p = d := by
  unfold Device.firstTime
  rw [honring]
  rfl

theorem Device.firstTime_steps {d : Device} (p : Nat) (hoff : d.ring.onring = false)
    (hsteps : (d.ring.stepFlag && !d.ring.locked && !d.ring.head) = true) : d.firstTime p = d.stepTime (d.offsetNow p) :=
  if_pos (by rw [hoff, Bool.not_false, Bool.true_and]; exact hsteps)

theorem Device.firstTime_time {d : Device} (p : Nat) (hsteps : (d.ring.stepFlag && !d.ring.locked && !d.ring.head) = false) :
    (d.firstTime p).time = d.time := by
  unfold Device.firstTime
  rw [Bool.and_assoc, Bool.and_assoc, ← Bool.and_assoc d.ring.stepFlag, hsteps, Bool.and_false, if_neg Bool.false_ne_true]
  split <;> rfl

theorem Device.firstTime_port (p q : Nat) : ((d.firstTime p).port q).standing = (d.port q).standing := by
  unfold Device.firstTime
  split
  · exact d.stepTime_port ..
  · split <;> rfl

theorem Device.linkUp_port {p : Nat} (hp : p < 2) : ((d.linkUp p).port p).standing = (d.port p).joining.standing := by
  have hevent := (Device.linkEvent_posts (((d.firstTime p).modRing (fun r => r.comesOn (!d.ring.onring))).modPort p RPort.joining) p 1 0).port p
  rw [Device.port_modPort_same _ hp, (d.firstTime p).modRing_port (fun r => r.comesOn (!d.ring.onring))] at hevent
  have hjoining := congrArg (fun x => (RPort.joining x).standing) (d.firstTime_port p p)
  exact hevent.trans hjoining

theorem Device.linkUp_other {p q : Nat} (hq : q ≠ p) : ((d.linkUp p).port q).standing = (d.port q).standing := by
  have hevent := (Device.linkEvent_posts (((d.firstTime p).modRing (fun r => r.comesOn (!d.ring.onring))).modPort p RPort.joining) p 1 0).port q
  rw [Device.port_modPort_other _ hq, (d.firstTime p).modRing_port (fun r => r.comesOn (!d.ring.onring))] at hevent
  exact hevent.trans (d.firstTime_port p q)

theorem Device.linkUp_onring (p : Nat) : (d.linkUp p).ring.onring = true := (Device.linkEvent_posts ..).of_ring_standing Ring.onring

theorem Device.linkUp_time (p : Nat) : (d.linkUp p).time = (d.firstTime p).time := (Device.linkEvent_posts ..).keeps.time

/-- A node's further link changes the ports alone. -/
theorem Device.linkUp_posts {d : Device} (p : Nat) (honring : d.ring.onring = true) : (d.modPort p RPort.joining).Posts (d.linkUp p) := by
  have hring : d.modRing (fun r => r.comesOn (!d.ring.onring)) = d := by
    unfold Device.modRing
    dsimp only
    rw [honring, Bool.not_true, Ring.comesOn_again honring]
  unfold Device.linkUp
  rw [Device.firstTime_again p honring, hring]
  exact Device.linkEvent_posts ..

theorem Device.healAt_regroups (p : Nat) : d.Regroups (d.healAt p) ∧ ∀ q, ((d.healAt p).port q).standing = (d.port q).standing := by
  unfold Device.healAt
  dsimp only
  split
  · exact ⟨.refl d, fun _ => rfl⟩
  · split
    · exact ⟨(d.flood_posts ..).reroutes.toRegroups, (d.flood_posts ..).port⟩
    · split
      · have hsaid := ((Device.flood_posts (d.modRing (fun r => { r with closed := true, brk := none, gen := r.gen + 1 })) 5
          (linkBody (d.linkEnds p).1 (d.linkEnds p).2 (d.ring.gen + 1).toNat)).trans
          (Device.wrapEvent_posts _ false (d.linkEnds p).1 (d.linkEnds p).2)).trans (Device.sendAllowances_posts _)
        exact ⟨(d.modRing_regroups _).trans hsaid.reroutes.toRegroups, hsaid.port⟩
      · exact ⟨.refl d, fun _ => rfl⟩

/-- A closing link makes the topology a RING (R236). -/
theorem Device.healAt_closes {d : Device} {p : Nat} (hmembers : 2 ≤ d.ring.members.length)
    (hbeside : d.ring.beside (d.linkEnds p).1 true = (d.linkEnds p).2) (hopen : d.ring.closed = false)
    (hwest : d.ring.brkWest = (d.linkEnds p).1) :
    (d.modRing (fun r => { r with closed := true, brk := none, gen := r.gen + 1 })).Posts (d.healAt p) := by
  unfold Device.healAt
  dsimp only
  rw [if_neg (by simp [hbeside]; omega), if_neg (by simp [hopen]), if_pos (by simp [hwest])]
  exact ((Device.flood_posts ..).trans (Device.wrapEvent_posts ..)).trans (Device.sendAllowances_posts _)

theorem Device.calHoldCheck_standing : d.calHoldCheck.ring.standing = d.ring.standing := by
  unfold Device.calHoldCheck
  dsimp only
  split
  · rfl
  · exact (Device.raise_posts ..).ring

/-- The link becomes a member's, on the ring, at the time of the first one. -/
theorem Device.delayAveraged_joins {d : Device} {p : Nat} (hp : p < 2) (h : d.Averaged p) (hstop : (d.port p).fn.stopPending = false) :
    ((d.delayAveraged p).port p).link = .member ∧ (d.delayAveraged p).ring.onring = true ∧
    (d.delayAveraged p).time = (d.firstTime p).time := by
  rw [Device.delayAveraged_due h]
  generalize hhealed : (if !d.ring.onring then d.linkUp p else (d.linkUp p).healAt p) = healed
  have hheal : (d.linkUp p).Regroups healed ∧ (healed.port p).standing = ((d.linkUp p).port p).standing := by
    rw [← hhealed]
    split
    · exact ⟨.refl _, rfl⟩
    · exact ⟨(Device.healAt_regroups ..).1, (Device.healAt_regroups ..).2 p⟩
  obtain ⟨hregroups, hport⟩ := hheal
  have hready : (healed.calHoldCheck.port p).standing = (d.port p).joining.standing :=
    ((healed.calHoldCheck_reroutes.port p).trans hport).trans (d.linkUp_port hp)
  have hend := hregroups.trans (healed.calHoldCheck_reroutes.toRegroups.trans healed.calHoldCheck.portsOn_regroups)
  refine ⟨?_, (hend.of_ring_bond Ring.onring).trans (d.linkUp_onring p), hend.time.trans (d.linkUp_time p)⟩
  rw [Device.portsOn_link _ hp ((RPort.of_standing hready (fun x => x.fn.stopPending)).trans hstop), RPort.of_standing hready RPort.link]
  rfl

/-- At the closing link of a chain, with no disable waiting, the topology becomes a RING. -/
theorem Device.delayAveraged_closes {d : Device} {p : Nat} (hp : p < 2) (h : d.Averaged p) (honring : d.ring.onring = true)
    (hopen : d.ring.closed = false) (hmembers : 2 ≤ d.ring.members.length)
    (hbeside : d.ring.beside (d.linkEnds p).1 true = (d.linkEnds p).2) (hwest : d.ring.brkWest = (d.linkEnds p).1)
    (hstop : (d.port p).fn.stopPending = false) (hother : (d.port (1 - p)).fn.stopPending = false) :
    (d.delayAveraged p).ring.topology = { d.ring.topology with closed := true, brk := none, gen := d.ring.gen + 1 } := by
  have hup := Device.linkUp_posts p honring
  have hends : (d.linkUp p).linkEnds p = d.linkEnds p := by
    have hneighbour := (RPort.of_standing (d.linkUp_port hp) RPort.neighbour).trans (show _ = (d.port p).neighbour from rfl)
    have hdir := hup.of_ring_standing (fun r => (r.west p, r.node))
    obtain ⟨hside, hnode⟩ := Prod.mk.inj hdir
    unfold Device.linkEnds
    rw [hneighbour, hside, hnode]
    rfl
  have hcloses := Device.healAt_closes (d := d.linkUp p) (p := p) (by rw [hup.of_ring_standing Ring.members]; exact hmembers)
    (by rw [hends, hup.of_ring_standing (fun r => r.beside (d.linkEnds p).1 true)]; exact hbeside)
    ((hup.of_ring_standing Ring.closed).trans hopen) (by rw [hends, hup.of_ring_standing Ring.brkWest]; exact hwest)
  have hready : ∀ q, ((((d.linkUp p).healAt p).calHoldCheck).port q).standing = ((d.linkUp p).port q).standing :=
    fun q => ((Device.calHoldCheck_reroutes _).port q).trans ((Device.healAt_regroups ..).2 q)
  have hwaits : ∀ q < 2, ((((d.linkUp p).healAt p).calHoldCheck).port q).fn.stopPending = false := by
    intro q hq
    rw [RPort.of_standing (hready q) (fun x => x.fn.stopPending)]
    by_cases hqp : q = p
    · rw [hqp, RPort.of_standing (d.linkUp_port hp) (fun x => x.fn.stopPending)]
      exact hstop
    · rw [RPort.of_standing (d.linkUp_other hqp) (fun x => x.fn.stopPending)]
      obtain rfl : q = 1 - p := by omega
      exact hother
  have hcal : ((d.linkUp p).healAt p).calHoldCheck.ring.topology = ((d.linkUp p).healAt p).ring.topology :=
    congrArg (fun r => { r with joinDue := false }) (Device.calHoldCheck_standing _)
  rw [Device.delayAveraged_due h, honring, Bool.not_true, if_neg Bool.false_ne_true,
    Device.portsOn_topology _ (hwaits 0 (by decide)) (hwaits 1 (by decide)), hcal]
  have hring := congrArg Ring.topology hcloses.ring
  refine hring.trans ?_
  have hdone := congrArg (fun r : Ring => { r.topology with closed := true, brk := none, gen := r.gen + 1 }) hup.ring
  exact hdone

/-! LINK_FAILURE and the retries. -/

theorem Device.startRetry_idle {d : Device} {p : Nat}
    (h : (d.port p).fn.st ≠ .starting ∨ (d.port p).retryAt.all (fun t => decide (d.now < t)) = true) : d.startRetry p = d := by
  refine if_pos ?_
  rw [Bool.or_eq_true, bne_iff_ne]
  refine h.imp id fun hall => ?_
  cases ht : (d.port p).retryAt with
  | none => rfl
  | some t =>
    rw [ht] at hall
    simpa using hall

/-- A port in STARTING whose retry is due. -/
def Device.RetryDue (d : Device) (p : Nat) : Prop := (d.port p).fn.st = .starting ∧ ∃ t, (d.port p).retryAt = some t ∧ t ≤ d.now

theorem Device.startRetry_due {d : Device} {p : Nat} (h : d.RetryDue p) : d.startRetry p =
    if (d.port p).fn.stopPending then d.portStop p
    else d.modPort p (fun x =>
      if x.live then { x with retryAt := some (d.now + second) }
      else { x with link := .training, signal := false, retryAt := some (d.now + second) }) := by
  obtain ⟨hst, t, ht, hdue⟩ := h
  unfold Device.startRetry
  dsimp only
  rw [if_neg (by simp [hst, ht, hdue])]

end Sys2Proof.Machine
end

section
/-! Bring-up at the rows (R26, R226, R227, R236). -/

namespace Sys2Proof.Machine

open Sys2Proof

section
variable {s : State} {dt : Nat} {p : Port}

/-- A row that changes one port alone. -/
theorem portRow_answers {f : Device → Device} {g : RPort → RPort} (halive : (s.elapse dt).dev.alive = true)
    (hf : f (s.elapse dt).dev = (s.elapse dt).dev.modPort (portNo p) g) :
    Answers (coreRow dt f s) (fun u => (u.dev.port (portNo p)).base = (g ((s.elapse dt).dev.port (portNo p))).base ∧
      (u.dev.port (1 - portNo p)).base = ((s.elapse dt).dev.port (1 - portNo p)).base ∧ (s.elapse dt).dev.OnlyIn reports u.dev) := by
  have hp := portNo_lt p
  refine (coreRow_rests halive hf).imp fun u hu => ⟨(hu.base _).trans ?_, (hu.base _).trans ?_, ?_⟩
  · rw [Device.port_modPort_same _ hp]
  · rw [Device.port_modPort_other _ (by omega)]
  · exact ((s.elapse dt).dev.modPort_onlyIn (portNo p) g).trans hu.onlyIn

/-- A row of one port that finds nothing to do. -/
theorem portRow_idles {f : Device → Device} {g : RPort → RPort} (hf : f (s.elapse dt).dev = (s.elapse dt).dev.modPort (portNo p) g)
    (hg : g ((s.elapse dt).dev.port (portNo p)) = (s.elapse dt).dev.port (portNo p)) : Idles (coreRow dt f s) (s.elapse dt).dev :=
  coreRow_idles dt f s (hf.trans (Device.modPort_self _ (portNo_lt p) hg))

/-- A port that has a signal, and one that is trained. -/
def RPort.detects (x : RPort) : RPort := if x.active && x.link == .training then { x with signal := true } else x
def RPort.trains (x : RPort) : RPort := if x.active && x.link == .training && x.signal then { x with link := .aligning, failed := false } else x

theorem RPort.detects_self {x : RPort} (h : x.active = false ∨ x.link ≠ .training) : x.detects = x :=
  if_neg (by rcases h with h | h <;> simp [h])

theorem RPort.trains_self {x : RPort} (h : x.active = false ∨ x.link ≠ .training ∨ x.signal = false) : x.trains = x :=
  if_neg (by rcases h with h | h | h <;> simp [h])

theorem markerLock_answers {f : BitVec 512} (halive : (s.elapse dt).dev.alive = true)
    (hlink : ((s.elapse dt).dev.port (portNo p)).link = .aligning) (hok : markerOk f = true) :
    Answers (exec (.markerLock dt p f) s) (fun u =>
      (u.dev.port (portNo p)).base.link = .linked ∧ (u.dev.port (portNo p)).base.neighUid = .ofNat 64 (fld f 159 96) ∧
      (u.dev.port (portNo p)).base.missed = 0 ∧ (u.dev.port (portNo p)).base.fn = ((s.elapse dt).dev.port (portNo p)).fn ∧
      (s.elapse dt).dev.OnlyIn (.ring :: .fire :: reports) u.dev) := by
  refine (coreRow_rests (f := fun d => d.markerLock (portNo p) f) halive rfl).imp fun u hu => ?_
  obtain ⟨hport, honly⟩ := Device.markerLock_locks (portNo_lt p) hlink hok
  have h := (hu.posts.port (portNo p)).trans hport
  exact ⟨RPort.of_standing h RPort.link, RPort.of_standing h RPort.neighUid, RPort.of_standing h RPort.missed, RPort.of_standing h RPort.fn,
    honly.trans (hu.onlyIn.mono (by decide))⟩

/-- A link whose delay is averaged becomes a member's. -/
theorem linkDelayAveraged_joins (halive : (s.elapse dt).dev.alive = true) (h : (s.elapse dt).dev.Averaged (portNo p))
    (hstop : ((s.elapse dt).dev.port (portNo p)).fn.stopPending = false) :
    Answers (exec (.linkDelayAveraged dt p) s) (fun u => (u.dev.port (portNo p)).base.link = .member ∧ u.dev.ring.onring = true ∧
      u.dev.time = ((s.elapse dt).dev.firstTime (portNo p)).time) := by
  refine (coreRow_rests (f := fun d => d.delayAveraged (portNo p)) halive rfl).imp fun u hu => ?_
  obtain ⟨hlink, honring, htime⟩ := Device.delayAveraged_joins (portNo_lt p) h hstop
  exact ⟨(hu.port_base RPort.link _).trans hlink, (hu.of_ring Ring.onring).trans honring, hu.keeps.time.trans htime⟩

/-- The closing link of a chain makes a RING. -/
theorem linkDelayAveraged_closes (halive : (s.elapse dt).dev.alive = true) (h : (s.elapse dt).dev.Averaged (portNo p))
    (honring : (s.elapse dt).dev.ring.onring = true) (hopen : (s.elapse dt).dev.ring.closed = false)
    (hmembers : 2 ≤ (s.elapse dt).dev.ring.members.length)
    (hbeside : (s.elapse dt).dev.ring.beside ((s.elapse dt).dev.linkEnds (portNo p)).1 true = ((s.elapse dt).dev.linkEnds (portNo p)).2)
    (hwest : (s.elapse dt).dev.ring.brkWest = ((s.elapse dt).dev.linkEnds (portNo p)).1)
    (hstop : ((s.elapse dt).dev.port (portNo p)).fn.stopPending = false)
    (hother : ((s.elapse dt).dev.port (1 - portNo p)).fn.stopPending = false) :
    Answers (exec (.linkDelayAveraged dt p) s) (fun u => (u.dev.port (portNo p)).base.link = .member ∧ u.dev.ring.closed = true ∧
      u.dev.ring.brk = none ∧ u.dev.ring.gen = (s.elapse dt).dev.ring.gen + 1 ∧ u.dev.ring.members = (s.elapse dt).dev.ring.members) := by
  refine (coreRow_rests (f := fun d => d.delayAveraged (portNo p)) halive rfl).imp fun u hu => ?_
  have hring := Device.delayAveraged_closes (portNo_lt p) h honring hopen hmembers hbeside hwest hstop hother
  have hkept := congrArg Ring.members hring
  exact ⟨(hu.port_base RPort.link _).trans (Device.delayAveraged_joins (portNo_lt p) h hstop).1,
    (hu.of_ring Ring.closed).trans (congrArg Ring.closed hring), (hu.of_ring Ring.brk).trans (congrArg Ring.brk hring),
    (hu.of_ring Ring.gen).trans (congrArg Ring.gen hring),
    (hu.of_ring Ring.members).trans hkept⟩

/-- A live link that fails trains again, and a member's raises the generation. -/
theorem linkFailure_answers {c : LinkCause} (halive : (s.elapse dt).dev.alive = true)
    (hlive : ((s.elapse dt).dev.port (portNo p)).live = true) :
    Answers (exec (.linkFailure dt p c) s) (fun u =>
      let x := (s.elapse dt).dev.port (portNo p)
      let y := (u.dev.port (portNo p)).base
      y.link = .training ∧ y.x6 = [] ∧ y.x8 = [] ∧ y.failed = true ∧ y.fn = x.fn ∧
      (x.link = .member → (s.elapse dt).dev.ring.onring = true → u.dev.ring.gen = (s.elapse dt).dev.ring.gen + 1)) := by
  refine (coreRow_rests (f := fun d => if (d.port (portNo p)).live then d.linkDown (portNo p) (some (linkCauseNo c)) else d) halive
    (if_pos hlive)).imp fun u hu => ?_
  obtain ⟨retry, hport⟩ := (s.elapse dt).dev.linkDown_port (portNo_lt p) (some (linkCauseNo c))
  have h := (hu.posts.port (portNo p)).trans hport
  exact ⟨RPort.of_standing h RPort.link, RPort.of_standing h RPort.x6, RPort.of_standing h RPort.x8, RPort.of_standing h RPort.failed,
    RPort.of_standing h RPort.fn, fun hlink honring => (hu.of_ring Ring.gen).trans (Device.linkDown_gen _ _ _ hlink honring)⟩

/-- The retry of a port whose disable waits stops it. -/
theorem startingRetryTimer_stops (halive : (s.elapse dt).dev.alive = true) (h : (s.elapse dt).dev.RetryDue (portNo p))
    (hstop : ((s.elapse dt).dev.port (portNo p)).fn.stopPending = true) :
    Answers (exec (.startingRetryTimer dt p) s) (fun u => (u.dev.port (portNo p)).base.fn.st = .stopping ∧
      (u.dev.port (portNo p)).base.fn.stopBy = (s.elapse dt).dev.now + 2 * ms) := by
  refine (coreRow_rests (f := fun d => d.startRetry (portNo p)) halive
    ((Device.startRetry_due h).trans (if_pos hstop))).imp fun u hu => ?_
  obtain ⟨f, hst, hby, hport⟩ := (s.elapse dt).dev.portStop_port (portNo p) (portNo p) (portNo_lt p)
  rw [if_pos rfl] at hport
  have hfn : (u.dev.port (portNo p)).fn = f := RPort.of_standing ((hu.posts.port (portNo p)).trans hport) RPort.fn
  exact ⟨(congrArg Fn.st hfn).trans hst, (congrArg Fn.stopBy hfn).trans hby⟩

/-- The retry of a port with no disable waiting changes the port alone. -/
theorem startingRetryTimer_retries (halive : (s.elapse dt).dev.alive = true) (h : (s.elapse dt).dev.RetryDue (portNo p))
    (hstop : ((s.elapse dt).dev.port (portNo p)).fn.stopPending = false) :
    Answers (exec (.startingRetryTimer dt p) s) (fun u =>
      (u.dev.port (portNo p)).base = (if ((s.elapse dt).dev.port (portNo p)).live
        then { (s.elapse dt).dev.port (portNo p) with retryAt := some ((s.elapse dt).dev.now + second) }
        else { (s.elapse dt).dev.port (portNo p) with
          link := .training, signal := false, retryAt := some ((s.elapse dt).dev.now + second) }).base ∧
      (s.elapse dt).dev.OnlyIn reports u.dev) :=
  (portRow_answers (f := fun d => d.startRetry (portNo p)) halive
    ((Device.startRetry_due h).trans (if_neg (by rw [hstop]; exact Bool.false_ne_true)))).imp
    fun _ ⟨hbase, _, honly⟩ => ⟨hbase, honly⟩

end

/-- Settles O26. Each row of bring-up changes its port by one step of Table 8-8; a node's first link brings it onto the ring, and a
link that goes down or a port that stops leaves the rest to the rules of breaks. -/
theorem linkBringUp : Obligations.LinkBringUp := by
  unfold Obligations.LinkBringUp
  intro s dt p f halive
  extract_lets d x at_ other heal averaged
  refine ⟨?_, ?_, ?_, ?_, fun hlink hok => markerLock_answers halive hlink hok, ?_, ?_, ?_, ?_, ?_, fun hlive c => linkFailure_answers halive hlive,
    ?_, ?_, ?_, fun t hst hstop ht hdue => startingRetryTimer_stops halive ⟨hst, t, ht, hdue⟩ hstop, ?_⟩
  · intro hactive htraining
    have hx : x.detects = { x with signal := true } := if_pos (by simp [hactive, htraining])
    rw [← hx]
    exact portRow_answers (f := fun d => d.modPort (portNo p) RPort.detects) halive rfl
  · exact fun hno => portRow_idles (f := fun d => d.modPort (portNo p) RPort.detects) rfl (RPort.detects_self hno)
  · intro hactive htraining hsignal
    have hx : x.trains = { x with link := .aligning, failed := false } := if_pos (by simp [hactive, htraining, hsignal])
    rw [← hx]
    exact portRow_answers (f := fun d => d.modPort (portNo p) RPort.trains) halive rfl
  · exact fun hno => portRow_idles (f := fun d => d.modPort (portNo p) RPort.trains) rfl (RPort.trains_self hno)
  · exact fun hno => coreRow_idles dt (fun d => d.markerLock (portNo p) f) s (Device.markerLock_idle hno)
  · intro havg honring hstop
    refine (linkDelayAveraged_joins halive havg hstop).imp fun u ⟨hlink, hon, htime⟩ => ⟨hlink, hon, htime.trans ?_⟩
    rw [Device.firstTime_again _ honring]
  · intro havg hoff hstop
    refine (linkDelayAveraged_joins halive havg hstop).imp fun u ⟨hlink, hon, htime⟩ => ?_
    cases hsteps : d.ring.stepFlag && !d.ring.locked && !d.ring.head with
    | true =>
      rw [Device.firstTime_steps _ hoff hsteps, Device.stepTime_time] at htime
      rw [htime]
      exact ⟨hlink, hon, rfl, fun _ => ⟨rfl, rfl, rfl⟩, fun hno => absurd (hsteps.symm.trans hno) Bool.false_ne_true.symm⟩
    | false =>
      rw [Device.firstTime_time _ hsteps] at htime
      rw [htime]
      exact ⟨hlink, hon, rfl, fun hyes => absurd (hsteps.symm.trans hyes) Bool.false_ne_true, fun _ => rfl⟩
  · intro havg honring hopen hmembers hbeside hwest hstop hother
    exact linkDelayAveraged_closes halive havg honring hopen hmembers hbeside hwest hstop hother
  · exact fun hno => coreRow_idles dt (fun d => d.delayAveraged (portNo p)) s (Device.delayAveraged_early hno)
  · exact fun hdead c => coreRow_idles dt (fun d => if (d.port (portNo p)).live then d.linkDown (portNo p) (some (linkCauseNo c)) else d) s
      (if_neg (by rw [show _ = false from hdead]; exact Bool.false_ne_true))
  · intro t hst hstop hdead ht hdue
    refine (startingRetryTimer_retries halive ⟨hst, t, ht, hdue⟩ hstop).imp fun u ⟨hbase, honly⟩ => ⟨hbase.trans ?_, honly⟩
    rw [if_neg (by rw [show _ = false from hdead]; exact Bool.false_ne_true)]
  · intro t hst hstop hlive ht hdue
    refine (startingRetryTimer_retries halive ⟨hst, t, ht, hdue⟩ hstop).imp fun u ⟨hbase, honly⟩ => ⟨hbase.trans ?_, honly⟩
    rw [if_pos hlive]
  · exact fun hno => coreRow_idles dt (fun d => d.startRetry (portNo p)) s (Device.startRetry_idle hno)

end Sys2Proof.Machine
end

section
/-! The buffer pool by queue number (R252, R254): the cells each queue holds, those still free, and when a changed queue keeps the pool's
invariant. -/

namespace Sys2Proof.Machine

open Sys2Proof

/-! Sorted numbers and free numbers. -/

theorem mem_insertNat {n x : Nat} {l : List Nat} : x ∈ insertNat n l ↔ x = n ∨ x ∈ l := by
  induction l with
  | nil => simp [insertNat]
  | cons h t ih =>
    unfold insertNat
    split
    · simp
    · split
      · next heq => simp [heq]
      · simp only [List.mem_cons, ih]
        tauto

theorem insertNat_sorted {n : Nat} {l : List Nat} (h : l.Pairwise (· < ·)) : (insertNat n l).Pairwise (· < ·) := by
  induction l with
  | nil => simp [insertNat]
  | cons a t ih =>
    have ⟨ha, ht⟩ := List.pairwise_cons.1 h
    unfold insertNat
    split
    · next hlt => exact List.pairwise_cons.2 ⟨fun x hx => (List.mem_cons.1 hx).elim (fun e => e ▸ hlt) fun m => hlt.trans (ha x m), h⟩
    · split
      · exact h
      · refine List.pairwise_cons.2 ⟨fun x hx => ?_, ih ht⟩
        rcases mem_insertNat.1 hx with rfl | hx
        · omega
        · exact ha x hx

theorem mem_sortNats {x : Nat} {l : List Nat} : x ∈ sortNats l ↔ x ∈ l := by
  have fold : ∀ (l a : List Nat), x ∈ l.foldl (fun a n => insertNat n a) a ↔ x ∈ l ∨ x ∈ a := by
    intro l
    induction l with
    | nil => simp
    | cons n t ih =>
      intro a
      simp only [List.foldl_cons, ih, mem_insertNat, List.mem_cons]
      tauto
  exact (fold l []).trans (by simp)

theorem sortNats_sorted (l : List Nat) : (sortNats l).Pairwise (· < ·) :=
  List.foldlRecOn l _ .nil fun _ h _ _ => insertNat_sorted h

/-- Rising numbers below a bound are no more than the bound. -/
theorem length_le_of_sorted {l : List Nat} {b : Nat} (h : l.Pairwise (· < ·)) (hb : ∀ x ∈ l, x < b) : l.length ≤ b := by
  have hsub : l ⊆ List.range b := fun x hx => List.mem_range.2 (hb x hx)
  simpa using (List.Nodup.subperm (h.imp Nat.ne_of_lt) hsub).length_le

theorem mem_groupNumbers {k x : Nat} {l : List Nat} : x ∈ groupNumbers k l ↔ ∃ g ∈ l, k * g ≤ x ∧ x < k * g + k := by
  simp only [groupNumbers, List.mem_flatMap, List.mem_map, List.mem_range]
  refine exists_congr fun g => and_congr_right fun _ => ⟨?_, fun ⟨hle, hlt⟩ => ⟨x - k * g, by omega, by omega⟩⟩
  rintro ⟨i, hi, rfl⟩
  omega

theorem freeNumbers_zero (l : List Nat) (k : Nat) : freeNumbers l k 0 = [] := by
  induction l generalizing k with
  | nil => rfl
  | cons u t ih => simp [freeNumbers, ih]

/-- Free numbers are free, and the used ones push them no further than one place each. -/
theorem mem_freeNumbers {x : Nat} {l : List Nat} {k n : Nat} (h : l.Pairwise (· < ·)) (hx : x ∈ freeNumbers l k n) :
    x ∉ l ∧ k ≤ x ∧ x < k + n + l.length := by
  induction l generalizing k n with
  | nil =>
    obtain ⟨i, hi, rfl⟩ : ∃ i < n, k + i = x := by simpa [freeNumbers] using hx
    exact ⟨by simp, by omega, by simpa using hi⟩
  | cons u t ih =>
    have ⟨hu, ht⟩ := List.pairwise_cons.1 h
    unfold freeNumbers at hx
    simp only [List.mem_cons, List.length_cons, not_or]
    split at hx
    · next hlt =>
      obtain ⟨hnot, hle, hbelow⟩ := ih ht hx
      exact ⟨⟨by omega, hnot⟩, hle, by omega⟩
    · next hge =>
      simp only [List.mem_append, List.mem_map, List.mem_range] at hx
      rcases hx with ⟨i, hi, rfl⟩ | hx
      · exact ⟨⟨by omega, fun hm => by have := hu _ hm; omega⟩, by omega, by omega⟩
      · obtain ⟨hnot, hle, hbelow⟩ := ih ht hx
        have hpast : u - k < n := by
          by_contra hn
          rw [Nat.sub_eq_zero_of_le (Nat.not_lt.1 hn), freeNumbers_zero] at hx
          cases hx
        exact ⟨⟨by omega, hnot⟩, by omega, by omega⟩

/-! The cells a queue holds. -/

/-- A queue holds a cell for one of its units or of those it is receiving. -/
def Queue.Holds (q : Queue) (c : Nat) : Prop := (∃ u ∈ q.units, c ∈ u.cells) ∨ ∃ p ∈ q.partials, c ∈ p.cells

theorem Queue.mem_cellList {q : Queue} {c : Nat} : c ∈ q.cellList ↔ q.Holds c := by
  simp only [Queue.cellList, mem_sortNats, List.mem_append, List.mem_flatMap, Queue.Holds]

theorem Queues.mem_usedCells {qs : Queues} {c : Nat} :
    c ∈ qs.usedCells ↔ (∃ g ∈ qs.lostCells, 16 * g ≤ c ∧ c < 16 * g + 16) ∨ ∃ p ∈ qs.qs, p.2.Holds c := by
  simp only [Queues.usedCells, mem_sortNats, List.mem_append, mem_groupNumbers, List.mem_flatMap, Queue.mem_cellList]

/-- A queue that stands in the map, by its number. -/
theorem mget_of_mem {α : Type} {m : Map α} {lo : Option Nat} {p : Nat × α} (h : keysAbove lo m) (hp : p ∈ m) : mget p.1 m = some p.2 := by
  induction m generalizing lo with
  | nil => cases hp
  | cons a t ih =>
    rcases List.mem_cons.1 hp with rfl | hp
    · simp [mget]
    · have hne : a.1 ≠ p.1 := fun e => by
        have := mget_none_of_above t a.1 h.2
        rw [e, ih h.2 hp] at this
        cases this
      simp only [mget, hne, if_false, ih h.2 hp]

theorem mem_of_mget {α : Type} {m : Map α} {k : Nat} {v : α} (h : mget k m = some v) : (k, v) ∈ m := by
  induction m with
  | nil => cases h
  | cons a t ih =>
    simp only [mget] at h
    split at h
    · next e => cases h; subst e; simp
    · exact List.mem_cons_of_mem _ (ih h)

/-- A queue that holds a cell stands in the map: the fixed ones begin empty. -/
theorem Queues.mem_of_holds {qs : Queues} {n c : Nat} (h : (qs.get n).Holds c) : (n, qs.get n) ∈ qs.qs := by
  unfold Queues.get at h ⊢
  cases hq : mget n qs.qs with
  | some q => exact mem_of_mget hq
  | none =>
    rw [hq, Option.getD_none] at h
    simp only [apply_ite (fun q : Queue => q.Holds c)] at h
    simp [Queue.Holds, fixedQueue] at h

theorem Queues.get_of_mem {qs : Queues} {p : Nat × Queue} (hk : keysAbove none qs.qs) (hp : p ∈ qs.qs) : qs.get p.1 = p.2 := by
  rw [Queues.get, mget_of_mem hk hp, Option.getD_some]

/-! The invariant, by queue number. -/

/-- What the pool's invariant says of the queues by their numbers. -/
structure Queues.Stocked (qs : Queues) : Prop where
  keys : keysAbove none qs.qs
  lost : ∀ g ∈ qs.lostCells, g < 2048
  below : ∀ n c, (qs.get n).Holds c → c < 32768
  own : ∀ m n c, (qs.get m).Holds c → (qs.get n).Holds c → m = n

theorem Queues.pool_iff {qs : Queues} : qs.Pool ↔ qs.Stocked := by
  constructor
  · intro h
    refine ⟨h.keys, fun g hg => ?_, fun n c hc => ?_, fun m n c hm hn => ?_⟩
    · have := h.below (16 * g) (mem_usedCells.2 (.inl ⟨g, hg, by omega⟩))
      omega
    · exact h.below c (mem_usedCells.2 (.inr ⟨_, mem_of_holds hc, hc⟩))
    · by_contra hne
      exact h.own _ _ (mem_of_holds hm) (mem_of_holds hn) hne c (Queue.mem_cellList.2 hm) (Queue.mem_cellList.2 hn)
  · intro h
    have hbelow : ∀ c ∈ qs.usedCells, c < 32768 := by
      intro c hc
      rcases mem_usedCells.1 hc with ⟨g, hg, -, hlt⟩ | ⟨p, hp, hc⟩
      · have := h.lost g hg
        omega
      · rw [← get_of_mem h.keys hp] at hc
        exact h.below _ _ hc
    refine ⟨hbelow, length_le_of_sorted (sortNats_sorted _) hbelow, h.keys, fun p q hp hq hne c hcp hcq => hne ?_⟩
    rw [Queue.mem_cellList, ← get_of_mem h.keys hp] at hcp
    rw [Queue.mem_cellList, ← get_of_mem h.keys hq] at hcq
    exact h.own _ _ _ hcp hcq

/-- Queues that hold no cell they did not hold before. -/
theorem Queues.Pool.of_less {qs qs' : Queues} (h : qs.Pool) (hkeys : keysAbove none qs'.qs) (hlost : ∀ g ∈ qs'.lostCells, g < 2048)
    (hless : ∀ n c, (qs'.get n).Holds c → (qs.get n).Holds c) : qs'.Pool :=
  have ⟨_, _, hbelow, hown⟩ := Queues.pool_iff.1 h
  Queues.pool_iff.2 ⟨hkeys, hlost, fun n c hc => hbelow n c (hless n c hc), fun m n c hm hn => hown m n c (hless m c hm) (hless n c hn)⟩

/-- A queue changed so that every cell it holds it held before, or no queue did, and is one of the pool's. -/
theorem Queues.Pool.put {qs : Queues} (h : qs.Pool) {n : Nat} {q : Queue}
    (hq : ∀ c, q.Holds c → (qs.get n).Holds c ∨ (c < 32768 ∧ ∀ m, ¬ (qs.get m).Holds c)) : (qs.put n q).Pool := by
  obtain ⟨hkeys, hlost, hbelow, hown⟩ := Queues.pool_iff.1 h
  have hget : ∀ m, (qs.put n q).get m = if n = m then q else qs.get m := by
    intro m
    simp only [Queues.get, Queues.put, mget_mset]
    split <;> rfl
  refine Queues.pool_iff.2 ⟨mset_above _ _ _ _ hkeys nofun, hlost, fun m c hc => ?_, fun a b c ha hb => ?_⟩
  · rw [hget] at hc
    split at hc
    · exact (hq c hc).elim (hbelow n c) And.left
    · exact hbelow m c hc
  · rw [hget] at ha hb
    split at ha <;> split at hb
    · omega
    · next e _ => exact e ▸ (hq c ha).elim (fun hc => hown n b c hc hb) fun hc => absurd hb (hc.2 b)
    · next _ e => exact e ▸ (hq c hb).elim (fun hc => hown a n c ha hc) fun hc => absurd ha (hc.2 a)
    · exact hown a b c ha hb

end Sys2Proof.Machine
end

section
/-! What the pool's invariant is about in a device: its queues and the cells withdrawn (R252, R367). -/

namespace Sys2Proof.Machine

open Sys2Proof

/-- What the pool's invariant is about: the queues and the groups of cells withdrawn. -/
def Device.stock (d : Device) : Queues := { qs := d.qs.qs, lostCells := d.qs.lostCells }

theorem Device.stock_pool {d : Device} : d.stock.Pool ↔ d.qs.Pool :=
  ⟨fun ⟨a, b, c, e⟩ => ⟨a, b, c, e⟩, fun ⟨a, b, c, e⟩ => ⟨a, b, c, e⟩⟩

@[simp] theorem Device.stock_mk (wcp : Wcp) (time : TimeBase) (fire : Fire) (rx : Rx) (hist : Hist) (ret : Ret) (cal : Cal) (ring : Ring)
    (qs : Queues) (cams : Cams) (core : CoreBridge) (field : Field) (bist : Bist) (sec : Sec) (power : Power) (log : Log) (ready : Bool) :
    Device.stock ⟨wcp, time, fire, rx, hist, ret, cal, ring, qs, cams, core, field, bist, sec, power, log, ready⟩ =
      { qs := qs.qs, lostCells := qs.lostCells } := rfl

@[simp] theorem Device.stock_eta (d : Device) : ({ qs := d.qs.qs, lostCells := d.qs.lostCells } : Queues) = d.stock := rfl

@[simp] theorem Queues.hold_qs (q : Queues) (now : Nat) (e : BitVec 256) : (q.hold now e).qs = q.qs := by
  unfold Queues.hold
  (repeat' split) <;> rfl

@[simp] theorem Queues.hold_lostCells (q : Queues) (now : Nat) (e : BitVec 256) : (q.hold now e).lostCells = q.lostCells := by
  unfold Queues.hold
  (repeat' split) <;> rfl

@[simp] theorem Queues.missed_qs (q : Queues) (n : Nat) (u : QUnit) : (q.missed n u).qs = q.qs := rfl
@[simp] theorem Queues.missed_lostCells (q : Queues) (n : Nat) (u : QUnit) : (q.missed n u).lostCells = q.lostCells := rfl
@[simp] theorem Queues.modSub_qs (q : Queues) (n who : Nat) (f : Sub → Sub) : (q.modSub n who f).qs = q.qs := rfl
@[simp] theorem Queues.modSub_lostCells (q : Queues) (n who : Nat) (f : Sub → Sub) : (q.modSub n who f).lostCells = q.lostCells := rfl

@[simp] theorem Device.stock_ite (c : Prop) [Decidable c] (a b : Device) :
    (if c then a else b).stock = if c then a.stock else b.stock := apply_ite Device.stock c a b

@[simp] theorem Device.stock_foldl {α : Type} (f : Device → α → Device) (hf : ∀ d a, (f d a).stock = d.stock) (l : List α)
    (d : Device) : (l.foldl f d).stock = d.stock := by
  induction l generalizing d with
  | nil => rfl
  | cons a t ih => exact (ih _).trans (hf d a)

@[simp] theorem Device.stock_foldl_fst {α β : Type} (f : Device × β → α → Device × β) (hf : ∀ x a, (f x a).1.stock = x.1.stock)
    (l : List α) (x : Device × β) : (l.foldl f x).1.stock = x.1.stock := by
  induction l generalizing x with
  | nil => rfl
  | cons a t ih => exact (ih _).trans (hf x a)

end Sys2Proof.Machine
end

section
/-! Events, slices, cells, the command protocol and the functions: operations that leave the cells of every queue alone (R252). -/

namespace Sys2Proof.Machine

open Sys2Proof

variable (d : Device)

@[simp] theorem Device.raiseAt_stock (time : BitVec 64) (id source payload : Nat) :
    (d.raiseAt time id source payload).stock = d.stock := by simp [Device.raiseAt]

@[simp] theorem Device.raise_stock (id source payload : Nat) : (d.raise id source payload).stock = d.stock := by simp [Device.raise]

@[simp] theorem Device.limited_stock (ev source sub len payload add : Nat) (first : Bool) :
    (d.limited ev source sub len payload add first).stock = d.stock := by
  unfold Device.limited
  split <;> simp

@[simp] theorem Device.windowEnd_stock (ev source sub : Nat) : (d.windowEnd ev source sub).stock = d.stock := by
  unfold Device.windowEnd
  split <;> simp

@[simp] theorem Device.count_stock (i n : Nat) : (d.count i n).stock = d.stock := by simp [Device.count]

@[simp] theorem Device.countShutdown_stock (c : Cause) : (d.countShutdown c).stock = d.stock := by simp [Device.countShutdown]

@[simp] theorem Device.queueRec_stock (r : PendRec) : (d.queueRec r).stock = d.stock := by
  unfold Device.queueRec
  dsimp only
  (repeat' split) <;> simp

@[simp] theorem Device.record_stock (kind source severity : Nat) (payload : Bytes) :
    (d.record kind source severity payload).stock = d.stock := by simp [Device.record]

@[simp] theorem Device.raiseRecAt_stock (time : BitVec 64) (id source payload kind severity : Nat) (extra : Bytes) :
    (d.raiseRecAt time id source payload kind severity extra).stock = d.stock := by simp [Device.raiseRecAt]

@[simp] theorem Device.raiseRec_stock (id source payload kind severity : Nat) (extra : Bytes) :
    (d.raiseRec id source payload kind severity extra).stock = d.stock := by simp [Device.raiseRec]

@[simp] theorem Device.integrityN_stock (cls idx act n : Nat) : (d.integrityN cls idx act n).stock = d.stock := by simp [Device.integrityN]

@[simp] theorem Device.integrity_stock (cls idx act : Nat) : (d.integrity cls idx act).stock = d.stock := by simp [Device.integrity]

@[simp] theorem Device.intact_stock (cls idx : Nat) : (d.intact cls idx).stock = d.stock := by simp [Device.intact]

@[simp] theorem Device.checkPair_stock (ok : Bool) (cls idx act : Nat) : (d.checkPair ok cls idx act).stock = d.stock := by simp [Device.checkPair]

@[simp] theorem Device.counterRead_stock (i : Nat) : (d.counterRead i).stock = d.stock := by simp [Device.counterRead]

@[simp] theorem Device.lcUsed_stock : d.lcUsed.stock = d.stock := by simp [Device.lcUsed]

@[simp] theorem Device.modBist_stock (f : Bist → Bist) : (d.modBist f).stock = d.stock := (rfl)

@[simp] theorem Device.bistIncomplete_stock (source cause : Nat) : (d.bistIncomplete source cause).stock = d.stock := by simp [Device.bistIncomplete]

@[simp] theorem Device.sliceCut_stock (x : SliceRun) (cause aborts : Nat) (r : Option SliceResult) (put : Bist → Bist) :
    (d.sliceCut x cause aborts r put).stock = d.stock := by simp [Device.sliceCut]

@[simp] theorem Device.sliceAbort_stock (bus : Bool) : (d.sliceAbort bus).stock = d.stock := by
  unfold Device.sliceAbort
  split <;> simp

@[simp] theorem Device.sliceLoss_stock (cause : Nat) : (d.sliceLoss cause).stock = d.stock := by
  unfold Device.sliceLoss
  split <;> simp

@[simp] theorem Device.serve_stock (rows : List Nat) : (d.serve rows).stock = d.stock := by simp [Device.serve]

@[simp] theorem Device.serveOrWait_stock (rows : List Nat) : (d.serveOrWait rows).stock = d.stock := by simp [Device.serveOrWait]

@[simp] theorem Device.mram_stock (general : Bool) (write : Device → Device) (h : ∀ d, (write d).stock = d.stock) :
    (d.mram general write).stock = d.stock := by
  unfold Device.mram
  split
  · rfl
  · rw [h]; split <;> simp

@[simp] theorem Device.serveBank_stock (b : Nat) (waits : Bool) : (d.serveBank b waits).stock = d.stock := by simp [Device.serveBank]

@[simp] theorem Device.modPort_stock (p : Nat) (f : RPort → RPort) : (d.modPort p f).stock = d.stock := (rfl)

@[simp] theorem Device.modRing_stock (f : Ring → Ring) : (d.modRing f).stock = d.stock := (rfl)

@[simp] theorem Device.grant_stock (queue node cells : Nat) : (d.grant queue node cells).stock = d.stock := by
  unfold Device.grant
  (repeat' split) <;> simp

@[simp] theorem Device.modSession_stock (n : Nat) (f : Session → Session) : (d.modSession n f).stock = d.stock := (rfl)

@[simp] theorem Device.closeSession_stock (n reason : Nat) : (d.closeSession n reason).stock = d.stock := by simp [Device.closeSession]

@[simp] theorem Device.modLastReply_stock (f : Reply → Reply) : (d.modLastReply f).stock = d.stock := by
  unfold Device.modLastReply
  split <;> simp

@[simp] theorem Device.scheduleReset_stock (len : Nat) (cause : Cause) : (d.scheduleReset len cause).stock = d.stock := (rfl)

@[simp] theorem Device.rightsRead_stock (id : Nat) (sealed : Bool) : (d.rightsRead id sealed).stock = d.stock := by simp [Device.rightsRead]

@[simp] theorem Device.accept_stock (e : Env) (sealed : Bool) : (d.accept e sealed).stock = d.stock := by simp [Device.accept]

@[simp] theorem Device.replayPath_stock (e : Env) : (d.replayPath e).stock = d.stock := (rfl)

@[simp] theorem Device.modField_stock (f : Field → Field) : (d.modField f).stock = d.stock := (rfl)

@[simp] theorem Device.replyGone_stock (r : Reply) (rest : List Reply) (lost : Nat) : (d.replyGone r rest lost).stock = d.stock := by
  unfold Device.replyGone
  split <;> simp

@[simp] theorem Device.replyAgain_stock (r : Reply) (rest : List Reply) : (d.replyAgain r rest).stock = d.stock := by simp [Device.replyAgain]

end Sys2Proof.Machine
end

section
/-! Sealed parameters, plans, the receiver, histograms, returns and the calibration: operations that leave the cells of every queue alone (R252). -/

namespace Sys2Proof.Machine

open Sys2Proof

variable (d : Device)

@[simp] theorem Device.idleTimeout_stock (n : Nat) : (d.idleTimeout n).stock = d.stock := by simp [Device.idleTimeout]

@[simp] theorem Device.openTimeout_stock (n : Nat) : (d.openTimeout n).stock = d.stock := by simp [Device.openTimeout]

@[simp] theorem Device.openSession_stock (e : Env) (n slot : Nat) (k : KeyCopy) :
    (d.openSession e n slot k).1.stock = d.stock := by simp [Device.openSession]

@[simp] theorem Device.sessionOpen_stock (e : Env) : (d.sessionOpen e).1.stock = d.stock := by
  unfold Device.sessionOpen
  dsimp only
  (repeat' split) <;> simp

@[simp] theorem Device.afterReply_stock (cause : Cause) : (d.afterReply cause).stock = d.stock := by simp [Device.afterReply]

@[simp] theorem Device.resetAfterReply_stock (old new : Device) : (old.resetAfterReply new).stock = new.stock := by
  unfold Device.resetAfterReply
  split
  · split <;> simp
  · rfl

@[simp] theorem Device.sealRecord_stock (x : SealPart) : (d.sealRecord x).stock = d.stock := by simp [Device.sealRecord]

@[simp] theorem Device.sealChange_stock (c : Ctx) (cmdId order old : Nat) :
    (d.sealChange c cmdId order old).stock = d.stock := by simp [Device.sealChange]

@[simp] theorem Device.pendingEffect_stock (order : Nat) (v : Bool) : (d.pendingEffect order v).stock = d.stock := (rfl)

@[simp] theorem Device.recoverParam_stock (order : Nat) : (d.recoverParam order).stock = d.stock := by simp [Device.recoverParam]

@[simp] theorem Device.commitPlan_stock (plan : Nat) : (d.commitPlan plan).1.stock = d.stock := by
  unfold Device.commitPlan
  split <;> simp

@[simp] theorem Device.writeBudget_stock (v : BitVec 256) : (d.writeBudget v).stock = d.stock := (rfl)

@[simp] theorem Device.modRx_stock (f : Rx → Rx) : (d.modRx f).stock = d.stock := (rfl)

@[simp] theorem Device.dirty_stock : d.dirty.stock = d.stock := (rfl)

@[simp] theorem Device.dirtyGroup_stock : d.dirtyGroup.stock = d.stock := (rfl)

@[simp] theorem Device.holdoffTimer_stock : d.holdoffTimer.stock = d.stock := by
  unfold Device.holdoffTimer
  split <;> simp

@[simp] theorem Device.surveyStart_stock : d.surveyStart.stock = d.stock := by simp [Device.surveyStart]

@[simp] theorem Device.surveyDone_stock (counts : List Nat) : (d.surveyDone counts).stock = d.stock := by
  unfold Device.surveyDone
  split <;> simp

@[simp] theorem Device.linUpdate_stock (tdc : Nat) (codes : List Nat) : (d.linUpdate tdc codes).stock = d.stock := by simp [Device.linUpdate]

@[simp] theorem Device.witnessInterval_stock (ws : List (List (Nat × Nat))) :
    (d.witnessInterval ws).stock = d.stock := by simp [Device.witnessInterval]

@[simp] theorem Device.modHist_stock (f : Hist → Hist) : (d.modHist f).stock = d.stock := (rfl)

@[simp] theorem Device.histEvent_stock : d.histEvent.stock = d.stock := by simp [Device.histEvent]

@[simp] theorem Device.modRet_stock (f : Ret → Ret) : (d.modRet f).stock = d.stock := (rfl)

@[simp] theorem Device.zoneEvents_stock (occ blind frame group : Nat) :
    (d.zoneEvents occ blind frame group).stock = d.stock := by simp [Device.zoneEvents]

@[simp] theorem Device.writeOcc_stock (b : BitVec 768) : (d.writeOcc b).stock = d.stock := by simp [Device.writeOcc]

@[simp] theorem Device.setZones_stock (f : Nat → Nat × Nat → Nat × Nat) : (d.setZones f).stock = d.stock := by simp [Device.setZones]

@[simp] theorem Device.lookZone_stock (m : BitVec 8320) (map z : Nat) (l : Option (Bool × Nat)) (p : Nat × Nat) :
    (d.lookZone m map z l p).1.stock = d.stock := by
  unfold Device.lookZone
  split <;> simp

@[simp] theorem Device.zoneWatch_stock (m : BitVec 8320) (ok : Bool) (map : Nat) (offset : Int) (frame group : Nat) (chans : List ZoneChan) :
    (d.zoneWatch m ok map offset frame group chans).stock = d.stock := by simp [Device.zoneWatch]

@[simp] theorem Device.zoneBlind_stock (z : Nat) : (d.zoneBlind z).stock = d.stock := by
  unfold Device.zoneBlind
  split <;> simp

@[simp] theorem Device.zmapsStart_stock : d.zmapsStart.stock = d.stock := by simp [Device.zmapsStart]

@[simp] theorem Device.rateHandover_stock : d.rateHandover.stock = d.stock := by simp [Device.rateHandover]

@[simp] theorem Device.windowSlot_stock (s : Nat) : (d.windowSlot s).stock = d.stock := by
  unfold Device.windowSlot
  dsimp only
  (repeat' split) <;> simp

@[simp] theorem Device.windowFrame_stock : d.windowFrame.stock = d.stock := by simp [Device.windowFrame]

@[simp] theorem Device.windowGroup_stock (frame : Nat) (sums : List Int) (fired : List Nat) (last : Bool) :
    (d.windowGroup frame sums fired last).stock = d.stock := by simp [Device.windowGroup]

@[simp] theorem Device.modCal_stock (f : Cal → Cal) : (d.modCal f).stock = d.stock := (rfl)

@[simp] theorem Device.calCheck_stock : d.calCheck.stock = d.stock := by simp [Device.calCheck]

@[simp] theorem Device.calEvent_stock (applied : Bool) (reason : Nat) : (d.calEvent applied reason).stock = d.stock := by simp [Device.calEvent]

@[simp] theorem Device.refStart_stock : d.refStart.stock = d.stock := by simp [Device.refStart]

@[simp] theorem Device.refDone_stock (m : List Int) : (d.refDone m).stock = d.stock := by
  unfold Device.refDone
  split <;> simp

@[simp] theorem Device.refStale_stock : d.refStale.stock = d.stock := by simp [Device.refStale]

@[simp] theorem Device.trackDelays_stock (g : Group) : (d.trackDelays g).stock = d.stock := (rfl)

@[simp] theorem Device.commitSet_stock (v : BitVec 37888) : (d.commitSet v).stock = d.stock := by simp [Device.commitSet]

@[simp] theorem Device.calGroup_stock (g : Group) (seen : List CalSeen) : (d.calGroup g seen).stock = d.stock := by
  unfold Device.calGroup
  split <;> simp

@[simp] theorem Device.captureHold_stock (g : Group) (exports : Bool) : (d.captureHold g exports).stock = d.stock := by
  unfold Device.captureHold
  split <;> simp

@[simp] theorem Device.importEvent_stock (reason : Nat) : (d.importEvent reason).stock = d.stock := by simp [Device.importEvent]

@[simp] theorem Device.importSlice_stock : d.importSlice.stock = d.stock := by simp [Device.importSlice]

end Sys2Proof.Machine
end

section
/-! Triggers, starts and stops, frames and groups: operations that leave the cells of every queue alone (R252). -/

namespace Sys2Proof.Machine

open Sys2Proof

variable (d : Device)

@[simp] theorem Device.modFire_stock (f : Fire → Fire) : (d.modFire f).stock = d.stock := (rfl)

@[simp] theorem Device.fireEvent_stock : d.fireEvent.stock = d.stock := by simp [Device.fireEvent]

@[simp] theorem Device.countTrig_stock : d.countTrig.stock = d.stock := (rfl)

@[simp] theorem Device.acceptTrig_stock (t : Trig) : (d.acceptTrig t).stock = d.stock := by simp [Device.acceptTrig]

@[simp] theorem Device.promote_stock : d.promote.stock = d.stock := by
  unfold Device.promote
  split <;> simp

@[simp] theorem Device.holdTrig_stock (t : Trig) : (d.holdTrig t).stock = d.stock := by simp [Device.holdTrig]

@[simp] theorem Device.endFrameNow_stock : d.endFrameNow.stock = d.stock := (rfl)

@[simp] theorem Device.restartTrig_stock (t : Trig) : (d.restartTrig t).stock = d.stock := by
  unfold Device.restartTrig
  dsimp only
  (repeat' split) <;> simp

@[simp] theorem Device.trigger_stock (t : Trig) : (d.trigger t).stock = d.stock := by simp [Device.trigger]

@[simp] theorem Device.reportTrig_stock : d.reportTrig.stock = d.stock := by simp [Device.reportTrig]

@[simp] theorem Device.calHoldCheck_stock : d.calHoldCheck.stock = d.stock := by simp [Device.calHoldCheck]

@[simp] theorem Device.applyTrigger_stock (src pol : Nat) : (d.applyTrigger src pol).stock = d.stock := by simp [Device.applyTrigger]

@[simp] theorem Device.internalTrigger_stock : d.internalTrigger.stock = d.stock := by simp [Device.internalTrigger]

@[simp] theorem Device.calendarInstant_stock : d.calendarInstant.stock = d.stock := by
  unfold Device.calendarInstant
  split <;> simp

@[simp] theorem Device.calendarEpoch_stock : d.calendarEpoch.stock = d.stock := by
  unfold Device.calendarEpoch
  split <;> simp

@[simp] theorem Device.setCalendar_stock (c : BitVec 2176) : (d.setCalendar c).stock = d.stock := by simp [Device.setCalendar]

@[simp] theorem Device.openGap_stock : d.openGap.stock = d.stock := (rfl)

@[simp] theorem Device.fireStart_stock : d.fireStart.stock = d.stock := by simp [Device.fireStart]

@[simp] theorem Device.latchKill_stock : d.latchKill.stock = d.stock := by simp [Device.latchKill]

@[simp] theorem Device.cancelEdges_stock (t : Nat) : (d.cancelEdges t).stock = d.stock := by
  unfold Device.cancelEdges
  split <;> simp

@[simp] theorem Device.emitterRecord_stock (id source payload slot stripe misses : Nat) :
    (d.emitterRecord id source payload slot stripe misses).stock = d.stock := by simp [Device.emitterRecord]

@[simp] theorem Device.budgetCheck_stock : d.budgetCheck.stock = d.stock := by simp [Device.budgetCheck]

@[simp] theorem Device.biasEvent_stock (applied : Nat) (began : Bool) : (d.biasEvent applied began).stock = d.stock := by simp [Device.biasEvent]

@[simp] theorem Device.biasCleared_stock (off : Int) (held : Nat) : (d.biasCleared off held).stock = d.stock := by simp [Device.biasCleared]

@[simp] theorem Device.holdStart_stock : d.holdStart.stock = d.stock := by simp [Device.holdStart]

@[simp] theorem Device.startCal_stock (changed : Bool) (frame : Nat) : (d.startCal changed frame).stock = d.stock := by
  unfold Device.startCal
  dsimp only
  (repeat' split) <;> simp

@[simp] theorem Device.channelEvent_stock (code ch : Nat) (bySelfTest : Bool) (spare : Option Nat) :
    (d.channelEvent code ch bySelfTest spare).stock = d.stock := by simp [Device.channelEvent]

@[simp] theorem Device.startSpares_stock (layouts : List (BitVec 64)) : (d.startSpares layouts).stock = d.stock := by simp [Device.startSpares]

@[simp] theorem Device.startTables_stock : d.startTables.stock = d.stock := by simp [Device.startTables]

@[simp] theorem Device.enqueue_stock : d.enqueue.stock = d.stock := by simp [Device.enqueue]

@[simp] theorem Device.startBias_stock (off : Int) : (d.startBias off).stock = d.stock := by simp [Device.startBias]

@[simp] theorem Device.startLin_stock : d.startLin.stock = d.stock := by simp [Device.startLin]

@[simp] theorem Device.startMap_stock (i : Nat) : (d.startMap i).stock = d.stock := by simp [Device.startMap]

@[simp] theorem Device.hotEvents_stock (l : List (Nat × ChState × Nat)) : (d.hotEvents l).stock = d.stock := by simp [Device.hotEvents]

@[simp] theorem Device.doseEvent_stock (f : Fire) (g : Group) (s : Nat) : (d.doseEvent f g s).stock = d.stock := by simp [Device.doseEvent]

@[simp] theorem Device.darkEvent_stock (g : Group) (s : Nat) : (d.darkEvent g s).stock = d.stock := by simp [Device.darkEvent]

@[simp] theorem Device.tap_stock (g : Group) (ch : Nat) (w : Word) : (d.tap g ch w).stock = d.stock := by
  unfold Device.tap
  split <;> simp

@[simp] theorem Device.accepted_stock (g : Group) (x : SlotRun) (ch t : Nat) (sh : ChShot) :
    (d.accepted g x ch t sh).stock = d.stock := by simp [Device.accepted]

@[simp] theorem Device.photon_stock (ch t : Nat) (ages : List Nat) : (d.photon ch t ages).stock = d.stock := by
  unfold Device.photon
  dsimp only
  (repeat' split) <;> simp

end Sys2Proof.Machine
end

section
/-! Subscriptions and the ring: operations that leave the cells of every queue alone (R252). -/

namespace Sys2Proof.Machine

open Sys2Proof

variable (d : Device)

@[simp] theorem Device.subEvent_stock (n who code cause : Nat) : (d.subEvent n who code cause).stock = d.stock := by simp [Device.subEvent]

@[simp] theorem Device.queueEvent_stock (n : Nat) : (d.queueEvent n).stock = d.stock := by simp [Device.queueEvent]

@[simp] theorem Device.sendQ1_stock (node type queue seq : Nat) : (d.sendQ1 node type queue seq).stock = d.stock := by
  unfold Device.sendQ1
  split <;> simp

@[simp] theorem Device.portEvent_stock (p : Nat) : (d.portEvent p).stock = d.stock := by simp [Device.portEvent]

@[simp] theorem Device.linkEvent_stock (p code cause : Nat) : (d.linkEvent p code cause).stock = d.stock := by simp [Device.linkEvent]

@[simp] theorem Device.sendOn_stock (p : Nat) (f : BitVec 512) : (d.sendOn p f).stock = d.stock := by simp [Device.sendOn]

@[simp] theorem Device.noteTopo_stock (k : Nat × Nat) : (d.noteTopo k).stock = d.stock := (rfl)

@[simp] theorem Device.flood_stock (type body : Nat) : (d.flood type body).stock = d.stock := by simp [Device.flood]

@[simp] theorem Device.resvEvent_stock (code : Nat) (v : Resv) : (d.resvEvent code v).stock = d.stock := by simp [Device.resvEvent]

@[simp] theorem Device.commitSealedResv_stock (v : Resv) : (d.commitSealedResv v).stock = d.stock := by
  unfold Device.commitSealedResv
  refine Device.stock_foldl _ (fun d w => ?_) _ _
  dsimp only
  rw [Device.sealChange_stock, Device.mram_stock]
  exact fun d => d.stock_eta

@[simp] theorem Device.unreserve_stock (q : Nat) : (d.unreserve q).stock = d.stock := (rfl)

@[simp] theorem Device.sendAllowances_stock : d.sendAllowances.stock = d.stock := by simp [Device.sendAllowances]

@[simp] theorem Device.requestResv_stock (v : Resv) : (d.requestResv v).stock = d.stock := by simp [Device.requestResv]

@[simp] theorem Device.askAgain_stock : d.askAgain.stock = d.stock := by simp [Device.askAgain]

@[simp] theorem Device.requestAll_stock : d.requestAll.stock = d.stock := by simp [Device.requestAll]

@[simp] theorem Device.recountHops_stock : d.recountHops.stock = d.stock := by
  unfold Device.recountHops
  dsimp only
  (repeat' split) <;> simp

@[simp] theorem Device.joinEvent_stock (node : Nat) (uid : BitVec 64) (stepped : Bool) (epoch : Nat) :
    (d.joinEvent node uid stepped epoch).stock = d.stock := by simp [Device.joinEvent]

@[simp] theorem Device.leaveEvent_stock (node : Nat) (uid : BitVec 64) (cause : Nat) :
    (d.leaveEvent node uid cause).stock = d.stock := by simp [Device.leaveEvent]

@[simp] theorem Device.sendMembers_stock : d.sendMembers.stock = d.stock := by simp [Device.sendMembers]

@[simp] theorem Device.sendCalendar_stock : d.sendCalendar.stock = d.stock := by
  unfold Device.sendCalendar
  split <;> simp

@[simp] theorem Device.sendJoin_stock : d.sendJoin.stock = d.stock := by simp [Device.sendJoin]

@[simp] theorem Device.freeRun_stock : d.freeRun.stock = d.stock := (rfl)

@[simp] theorem Device.wrapEvent_stock (wrap : Bool) (w e : Nat) : (d.wrapEvent wrap w e).stock = d.stock := by simp [Device.wrapEvent]

@[simp] theorem Device.regrant_stock (l : List Grant) : (d.regrant l).stock = d.stock := by simp [Device.regrant]

@[simp] theorem Device.sendWindow_stock (p : Nat) : (d.sendWindow p).stock = d.stock := (rfl)

@[simp] theorem Device.lookAround_stock (p : Nat) : (d.lookAround p).stock = d.stock := by simp [Device.lookAround]

@[simp] theorem Device.floodElect_stock : d.floodElect.stock = d.stock := by
  unfold Device.floodElect
  split <;> simp

@[simp] theorem Device.markerLock_stock (p : Nat) (f : BitVec 512) : (d.markerLock p f).stock = d.stock := by simp [Device.markerLock]

@[simp] theorem Device.stepTime_stock (offset : Int) : (d.stepTime offset).stock = d.stock := by simp [Device.stepTime]

@[simp] theorem Device.joinDone_stock : d.joinDone.stock = d.stock := by simp [Device.joinDone]

@[simp] theorem Device.healAt_stock (p : Nat) : (d.healAt p).stock = d.stock := by simp [Device.healAt]

@[simp] theorem Device.timeFlit_stock (p : Nat) (f : BitVec 512) : (d.timeFlit p f).stock = d.stock := by
  unfold Device.timeFlit
  dsimp only
  (repeat' split) <;> simp

@[simp] theorem Device.ringTimeEvent_stock (locked : Bool) (offset : Int) :
    (d.ringTimeEvent locked offset).stock = d.stock := by simp [Device.ringTimeEvent]

@[simp] theorem Device.holdoverEnd_stock : d.holdoverEnd.stock = d.stock := by
  unfold Device.holdoverEnd
  split <;> simp

@[simp] theorem Device.takeGrant_stock (p queue cells : Nat) : (d.takeGrant p queue cells).stock = d.stock := by
  unfold Device.takeGrant
  dsimp only
  (repeat' split) <;> simp

@[simp] theorem Device.creditFlit_stock (p : Nat) (f : BitVec 512) : (d.creditFlit p f).stock = d.stock := by simp [Device.creditFlit]

@[simp] theorem Device.joinAck_stock (f : BitVec 512) : (d.joinAck f).stock = d.stock := by simp [Device.joinAck]

@[simp] theorem Device.healMsg_stock (f : BitVec 512) : (d.healMsg f).stock = d.stock := by simp [Device.healMsg]

@[simp] theorem Device.calendarMsg_stock (f : BitVec 512) : (d.calendarMsg f).stock = d.stock := by simp [Device.calendarMsg]

@[simp] theorem Device.allowanceMsg_stock (f : BitVec 512) : (d.allowanceMsg f).stock = d.stock := by simp [Device.allowanceMsg]

@[simp] theorem Device.headLoss_stock : d.headLoss.stock = d.stock := by simp [Device.headLoss]

@[simp] theorem Device.noHead_stock : d.noHead.stock = d.stock := by simp [Device.noHead]

@[simp] theorem Device.degradeWindow_stock (p errors symbols bad : Nat) :
    (d.degradeWindow p errors symbols bad).stock = d.stock := by simp [Device.degradeWindow]

@[simp] theorem Device.joinRetry_stock : d.joinRetry.stock = d.stock := by simp [Device.joinRetry]

@[simp] theorem Device.portStart_stock (p : Nat) : (d.portStart p).stock = d.stock := by simp [Device.portStart]

@[simp] theorem Device.receiveFrame_stock (p : Nat) (hdr : BitVec 128) (payload : Bytes) (bad : Bool) :
    (d.receiveFrame p hdr payload bad).stock = d.stock := by simp [Device.receiveFrame]

end Sys2Proof.Machine
end

section
/-! Queues, streams and cameras: operations that leave the cells of every queue alone (R252). -/

namespace Sys2Proof.Machine

open Sys2Proof

variable (d : Device)

@[simp] theorem Device.modCam_stock (p : Nat) (f : CamPort → CamPort) : (d.modCam p f).stock = d.stock := (rfl)

@[simp] theorem Device.camEvent_stock (p : Nat) : (d.camEvent p).stock = d.stock := by simp [Device.camEvent]

@[simp] theorem Device.camErr_stock (p low : Nat) : (d.camErr p low).stock = d.stock := by simp [Device.camErr]

@[simp] theorem Device.camStart_stock (p : Nat) : (d.camStart p).stock = d.stock := by simp [Device.camStart]

end Sys2Proof.Machine
end

section
/-! The bridge and the field die: operations that leave the cells of every queue alone (R252). -/

namespace Sys2Proof.Machine

open Sys2Proof

variable (d : Device)

@[simp] theorem Device.addMark_stock (cls idx : Nat) : (d.addMark cls idx).stock = d.stock := by
  unfold Device.addMark
  split
  · rfl
  · exact d.mram_stock true _ fun _ => rfl

@[simp] theorem Device.tellSilence_stock (source payload : Nat) (time : BitVec 64) (kind sev : Nat) (extra : Bytes) :
    (d.tellSilence source payload time kind sev extra).stock = d.stock := by simp [Device.tellSilence]

@[simp] theorem Device.fieldMsg_stock (m : FieldMsg) : (d.fieldMsg m).stock = d.stock := (rfl)

@[simp] theorem Device.fieldEvent_stock (id source payload : Nat) : (d.fieldEvent id source payload).stock = d.stock := (rfl)

@[simp] theorem Device.fieldRec_stock (id source payload kind severity : Nat) (extra : Bytes) :
    (d.fieldRec id source payload kind severity extra).stock = d.stock := (rfl)

@[simp] theorem Device.fieldLimited_stock (id source sub len payload add : Nat) :
    (d.fieldLimited id source sub len payload add).stock = d.stock := (rfl)

@[simp] theorem Device.fieldIntegrity_stock (cls idx act : Nat) : (d.fieldIntegrity cls idx act).stock = d.stock := by
  unfold Device.fieldIntegrity
  dsimp only
  (repeat' split) <;> simp

@[simp] theorem Device.fieldIntact_stock (cls idx : Nat) : (d.fieldIntact cls idx).stock = d.stock := by simp [Device.fieldIntact]

@[simp] theorem Device.fieldChecked_stock (ok : Bool) (cls idx : Nat) : (d.fieldChecked ok cls idx).stock = d.stock := by simp [Device.fieldChecked]

@[simp] theorem Device.modOut_stock (k : Nat) (g : Output → Output) : (d.modOut k g).stock = d.stock := (rfl)

@[simp] theorem Device.modGroup_stock (k : Nat) (g : VGroup → VGroup) : (d.modGroup k g).stock = d.stock := (rfl)

@[simp] theorem Device.modSeq_stock (q : Nat) (g : Seq → Seq) : (d.modSeq q g).stock = d.stock := (rfl)

@[simp] theorem Device.seqCount_stock (q : Nat) : (d.seqCount q).stock = d.stock := (rfl)

@[simp] theorem Device.seqTrigger_stock (q : Nat) : (d.seqTrigger q).stock = d.stock := by
  unfold Device.seqTrigger
  dsimp only
  (repeat' split) <;> simp

@[simp] theorem Device.seqTriggers_stock (p : BitVec 128 → Bool) : (d.seqTriggers p).stock = d.stock := by simp [Device.seqTriggers]

@[simp] theorem Device.modConv_stock (c : Nat) (g : Conv → Conv) : (d.modConv c g).stock = d.stock := (rfl)

@[simp] theorem Device.ranBackground_stock (c : Nat) (l : List (Nat × Bool)) : (d.ranBackground c l).stock = d.stock := (rfl)

@[simp] theorem Device.takeSlots_stock (c n : Nat) : (d.takeSlots c n).stock = d.stock := (rfl)

@[simp] theorem Device.crossEvidence_stock (p k cyc : Nat) : (d.crossEvidence p k cyc).stock = d.stock := by simp [Device.crossEvidence]

@[simp] theorem Device.diagEvidence_stock (p : Nat) (r : DiagRun) : (d.diagEvidence p r).stock = d.stock := by simp [Device.diagEvidence]

@[simp] theorem Device.endDiag_stock (k : Nat) (cut : Bool) : (d.endDiag k cut).stock = d.stock := by
  unfold Device.endDiag
  split <;> simp

@[simp] theorem Device.endDiags_stock (cut : Bool) : (d.endDiags cut).stock = d.stock := by simp [Device.endDiags]

@[simp] theorem Device.switchOn_stock (k : Nat) (pwm : Bool) : (d.switchOn k pwm).stock = d.stock := by simp [Device.switchOn]

@[simp] theorem Device.switchOff_stock (k : Nat) : (d.switchOff k).stock = d.stock := (rfl)

@[simp] theorem Device.setSwitch_stock (k : Nat) (on pwm : Bool) : (d.setSwitch k on pwm).stock = d.stock := by simp [Device.setSwitch]

@[simp] theorem Device.setByEntry_stock (k : Nat) (on pwm : Bool) : (d.setByEntry k on pwm).stock = d.stock := by simp [Device.setByEntry]

@[simp] theorem Device.autoRemap_stock (k : Nat) : (d.autoRemap k).stock = d.stock := by simp [Device.autoRemap]

@[simp] theorem Device.foundDark_stock (k cause : Nat) : (d.foundDark k cause).stock = d.stock := by simp [Device.foundDark]

@[simp] theorem Device.foundShort_stock (k : Nat) (on : Bool) : (d.foundShort k on).stock = d.stock := by simp [Device.foundShort]

@[simp] theorem Device.clearClean_stock (k : Nat) : (d.clearClean k).stock = d.stock := by simp [Device.clearClean]

@[simp] theorem Device.clearCross_stock (k j : Nat) : (d.clearCross k j).stock = d.stock := (rfl)

@[simp] theorem Device.modCore_stock (g : CoreBridge → CoreBridge) : (d.modCore g).stock = d.stock := (rfl)

@[simp] theorem Device.modEnd_stock (s : Side) (g : BridgeEnd → BridgeEnd) : (d.modEnd s g).stock = d.stock := by
  unfold Device.modEnd
  split <;> simp

@[simp] theorem Device.bulkSlot_stock (s : Side) : (d.bulkSlot s).stock = d.stock := by
  unfold Device.bulkSlot
  split <;> simp

@[simp] theorem Device.chan0Timeout_stock (s : Side) : (d.chan0Timeout s).stock = d.stock := by simp [Device.chan0Timeout]

@[simp] theorem Device.setFieldTime_stock (dev : Nat) : (d.setFieldTime dev).stock = d.stock := by simp [Device.setFieldTime]

@[simp] theorem Device.compareAt_stock (k : Nat) : (d.compareAt k).stock = d.stock := (rfl)

@[simp] theorem Device.opticalOne_stock (frame : BitVec 512) (fresh : Bool) (k : Nat) :
    (d.opticalOne frame fresh k).stock = d.stock := by simp [Device.opticalOne]

@[simp] theorem Device.takeCommand_stock (frame : BitVec 512) : (d.takeCommand frame).stock = d.stock := by simp [Device.takeCommand]

@[simp] theorem Device.fieldSilenceEnds_stock : d.fieldSilenceEnds.stock = d.stock := by
  unfold Device.fieldSilenceEnds
  split <;> simp

@[simp] theorem Device.coreFrameValid_stock (frame : BitVec 512) : (d.coreFrameValid frame).stock = d.stock := by simp [Device.coreFrameValid]

@[simp] theorem Device.coreFrameIn_stock (frame : BitVec 512) : (d.coreFrameIn frame).stock = d.stock := by simp [Device.coreFrameIn]

@[simp] theorem Device.watchdog_stock : d.watchdog.stock = d.stock := by simp [Device.watchdog]

@[simp] theorem Device.coreSilenceEnds_stock : d.coreSilenceEnds.stock = d.stock := by
  unfold Device.coreSilenceEnds
  split <;> simp

@[simp] theorem Device.reportAspect_stock (frame : BitVec 512) : (d.reportAspect frame).stock = d.stock := by simp [Device.reportAspect]

@[simp] theorem Device.coreSilent_stock : d.coreSilent.stock = d.stock := by simp [Device.coreSilent]

@[simp] theorem Device.sampleVerdict_stock (k : Nat) : (d.sampleVerdict k).stock = d.stock := by simp [Device.sampleVerdict]

@[simp] theorem Device.checkShare_stock (k : Nat) (uas : List Nat) : (d.checkShare k uas).stock = d.stock := by simp [Device.checkShare]

@[simp] theorem Device.judge_stock (k ua : Nat) : (d.judge k ua).stock = d.stock := by simp [Device.judge]

@[simp] theorem Device.superviseLamp_stock (k : Nat) (smp : LampSample) : (d.superviseLamp k smp).stock = d.stock := by simp [Device.superviseLamp]

@[simp] theorem Device.diagSlot_stock (p : Nat) (x : DiagSense) : (d.diagSlot p x).stock = d.stock := by simp [Device.diagSlot]

@[simp] theorem Device.litVerdict_stock (k : Nat) : (d.litVerdict k).stock = d.stock := by simp [Device.litVerdict]

@[simp] theorem Device.cleanExpiry_stock (k : Nat) : (d.cleanExpiry k).stock = d.stock := by simp [Device.cleanExpiry]

@[simp] theorem Device.sagEpisode_stock (g mv : Nat) (uv : Bool) : (d.sagEpisode g mv uv).stock = d.stock := by
  unfold Device.sagEpisode
  split <;> simp

@[simp] theorem Device.sagClose_stock (g : Nat) : (d.sagClose g).stock = d.stock := by
  unfold Device.sagClose
  dsimp only
  (repeat' split) <;> simp

@[simp] theorem Device.sagBegin_stock (g mv : Nat) : (d.sagBegin g mv).stock = d.stock := by simp [Device.sagBegin]

@[simp] theorem Device.sagEnd_stock (g mv : Nat) : (d.sagEnd g mv).stock = d.stock := by simp [Device.sagEnd]

@[simp] theorem Device.uvRecover_stock (g mv : Nat) : (d.uvRecover g mv).stock = d.stock := by simp [Device.uvRecover]

@[simp] theorem Device.readOcc_stock : d.readOcc.stock = d.stock := by simp [Device.readOcc]

@[simp] theorem Device.reselect_stock (t : BitVec 4160) : (d.reselect t).stock = d.stock := by simp [Device.reselect]

@[simp] theorem Device.sendAspect_stock : d.sendAspect.stock = d.stock := by simp [Device.sendAspect]

@[simp] theorem Device.evaluate_stock : d.evaluate.stock = d.stock := by simp [Device.evaluate]

@[simp] theorem Device.nvmWaits_stock (k : NvmKind) : (d.nvmWaits k).stock = d.stock := (rfl)

@[simp] theorem Device.nvmFirst_stock (k : NvmKind) : (d.nvmFirst k).stock = d.stock := (rfl)

@[simp] theorem Device.nvmDone_stock (k : NvmKind) : (d.nvmDone k).stock = d.stock := (rfl)

@[simp] theorem Device.blockWaits_stock : d.blockWaits.stock = d.stock := by simp [Device.blockWaits]

@[simp] theorem Device.askRemap_stock (k : Nat) (set : Bool) : (d.askRemap k set).1.stock = d.stock := by
  unfold Device.askRemap
  dsimp only
  (repeat' split) <;> simp

@[simp] theorem Device.offerUnit_stock (queue : Nat) (period cut : Bool) (seq count time : Nat) (body : Bytes) :
    (d.offerUnit queue period cut seq count time body).stock = d.stock := by simp [Device.offerUnit]

@[simp] theorem Device.closePeriods_stock : d.closePeriods.stock = d.stock := by simp [Device.closePeriods]

@[simp] theorem Device.modIn_stock (k : Nat) (g : Input → Input) : (d.modIn k g).stock = d.stock := (rfl)

@[simp] theorem Device.periodRecord_stock (k mean edges : Nat) (timeout : Bool) :
    (d.periodRecord k mean edges timeout).stock = d.stock := by simp [Device.periodRecord]

@[simp] theorem Device.inRise_stock (k : Nat) : (d.inRise k).stock = d.stock := by
  unfold Device.inRise
  dsimp only
  (repeat' split) <;> simp

@[simp] theorem Device.inChanges_stock (k : Nat) (old : Input) : (d.inChanges k old).stock = d.stock := by simp [Device.inChanges]

@[simp] theorem Device.inSample_stock (k mv : Nat) : (d.inSample k mv).stock = d.stock := by simp [Device.inSample]

@[simp] theorem Device.periodTimeout_stock (k : Nat) : (d.periodTimeout k).stock = d.stock := by
  unfold Device.periodTimeout
  dsimp only
  (repeat' split) <;> simp

@[simp] theorem Device.convEvent_stock (c : Nat) : (d.convEvent c).stock = d.stock := (rfl)

@[simp] theorem Device.seqEvent_stock (q : Nat) : (d.seqEvent q).stock = d.stock := (rfl)

@[simp] theorem Device.excEvent_stock : d.excEvent.stock = d.stock := (rfl)

@[simp] theorem Device.convStart_stock (c : Nat) : (d.convStart c).stock = d.stock := (rfl)

@[simp] theorem Device.setShadow_stock (path hi lo v : Nat) : (d.setShadow path hi lo v).stock = d.stock := (rfl)

@[simp] theorem Device.storeCoeffs_stock : d.storeCoeffs.stock = d.stock := by simp [Device.storeCoeffs]

@[simp] theorem Device.excStart_stock : d.excStart.stock = d.stock := (rfl)

@[simp] theorem Device.excPositive_stock : d.excPositive.stock = d.stock := by simp [Device.excPositive]

@[simp] theorem Device.blankAssert_stock (width : Nat) : (d.blankAssert width).stock = d.stock := by simp [Device.blankAssert]

@[simp] theorem Device.blankHoldEnd_stock : d.blankHoldEnd.stock = d.stock := by
  unfold Device.blankHoldEnd
  split <;> simp

@[simp] theorem Device.blankMax_stock (q : Nat) : (d.blankMax q).stock = d.stock := (rfl)

@[simp] theorem Device.timerTick_stock (t : Nat) : (d.timerTick t).stock = d.stock := by simp [Device.timerTick]

@[simp] theorem Device.pullOn_stock (q : Nat) : (d.pullOn q).stock = d.stock := by
  unfold Device.pullOn
  dsimp only
  (repeat' split) <;> simp

@[simp] theorem Device.pullOff_stock (q : Nat) : (d.pullOff q).stock = d.stock := (rfl)

@[simp] theorem Device.runStart_stock (q : Nat) : (d.runStart q).stock = d.stock := by
  unfold Device.runStart
  dsimp only
  (repeat' split) <;> simp

@[simp] theorem Device.entryStart_stock (q : Nat) : (d.entryStart q).stock = d.stock := by
  unfold Device.entryStart
  dsimp only
  (repeat' split) <;> simp

@[simp] theorem Device.overranged_stock (q i : Nat) (e : BitVec 64) (flags : Nat) :
    (d.overranged q i e flags).stock = d.stock := by simp [Device.overranged]

@[simp] theorem Device.openWire_stock (q i : Nat) (e : BitVec 64) (code : Nat) : (d.openWire q i e code).stock = d.stock := by simp [Device.openWire]

@[simp] theorem Device.putResult_stock (q i : Nat) (e : BitVec 64) (code flags time : Nat) :
    (d.putResult q i e code flags time).stock = d.stock := (rfl)

@[simp] theorem Device.keepResult_stock (q i : Nat) (e : BitVec 64) (t : Taken) (time : Nat) : (d.keepResult q i e t time).stock = d.stock := by
  unfold Device.keepResult
  split <;> simp

@[simp] theorem Device.entryResult_stock (q : Nat) (r : SeqRun) (s0 i : Nat) (e : BitVec 64) (codes : List Int) :
    (d.entryResult q r s0 i e codes).stock = d.stock := by simp [Device.entryResult]

@[simp] theorem Device.entryDone_stock (q : Nat) (codes : List Int) : (d.entryDone q codes).stock = d.stock := by
  unfold Device.entryDone
  dsimp only
  (repeat' split) <;> simp

@[simp] theorem Device.runUnit_stock (q : Nat) (x : Seq) (r : SeqRun) : (d.runUnit q x r).stock = d.stock := by simp [Device.runUnit]

@[simp] theorem Device.loopSample_stock (i code : Nat) : (d.loopSample i code).stock = d.stock := by simp [Device.loopSample]

@[simp] theorem Device.groupSample_stock (g code : Nat) : (d.groupSample g code).stock = d.stock := (rfl)

/-- The last step takes the attribution of each output by its cases. -/
@[simp] theorem Device.readbacks_stock (rb : BitVec 16) : (d.readbacks rb).stock = d.stock := by
  unfold Device.readbacks
  rw [Device.stock_foldl]
  · simp
  · intro d k
    change (match (d.field.out k).attrAt with
      | some t =>
        if d.now < t + 10 * ms then d
        else if (d.field.out k).persisted then (d.modOut k fun o => { o with attrAt := none }).foundShort k false
          else d.modOut k fun o => { o with attrAt := none }
      | none => d).stock = d.stock
    (repeat' split) <;> simp

@[simp] theorem Device.storeRemaps_stock : d.storeRemaps.stock = d.stock := (rfl)

end Sys2Proof.Machine
end

section
/-! The log, resets, the supply, self-test, security and the boot: operations that leave the cells of every queue alone (R252). -/

namespace Sys2Proof.Machine

open Sys2Proof

variable (d : Device)

@[simp] theorem Device.modLog_stock (f : Log → Log) : (d.modLog f).stock = d.stock := (rfl)

@[simp] theorem Device.reportRead_stock : d.reportRead.stock = d.stock := by simp [Device.reportRead]

@[simp] theorem Device.logReport_stock : d.logReport.stock = d.stock := by simp [Device.logReport]

@[simp] theorem Device.logAppend_stock (r : BitVec 4096) : (d.logAppend r).stock = d.stock := by simp [Device.logAppend]

@[simp] theorem Device.firstFault_stock (r : BitVec 4096) : (d.firstFault r).stock = d.stock := by simp [Device.firstFault]

@[simp] theorem Device.sealDone_stock : d.sealDone.stock = d.stock := by
  unfold Device.sealDone
  split <;> simp

@[simp] theorem Device.modPower_stock (f : Power → Power) : (d.modPower f).stock = d.stock := (rfl)

@[simp] theorem Device.sensorEvent_stock (i : Nat) (excluded : Bool) (rule : Nat) :
    (d.sensorEvent i excluded rule).stock = d.stock := by simp [Device.sensorEvent]

@[simp] theorem Device.takeReadings_stock (rs : List Reading) : (d.takeReadings rs).stock = d.stock := by simp [Device.takeReadings]

@[simp] theorem Device.biasStart_stock : d.biasStart.stock = d.stock := (rfl)

@[simp] theorem Device.powerUp_stock : d.powerUp.stock = d.stock := by simp [Device.powerUp]

@[simp] theorem Device.rstRelease_stock : d.rstRelease.stock = d.stock := by simp [Device.rstRelease]

@[simp] theorem Device.powerOnChecks_stock : d.powerOnChecks.stock = d.stock := by simp [Device.powerOnChecks]

@[simp] theorem Device.powerOnSags_stock : d.powerOnSags.stock = d.stock := by simp [Device.powerOnSags]

@[simp] theorem Device.setGroups_stock (vs : List Nat) : (d.setGroups vs).stock = d.stock := by simp [Device.setGroups]

@[simp] theorem Device.sliceStart_stock (clocks : Bool) : (d.sliceStart clocks).stock = d.stock := by
  unfold Device.sliceStart
  dsimp only
  (repeat' split) <;> simp

@[simp] theorem Device.bistFail_stock (cls idx code : Nat) (w : Word) (rec_ : Bool) :
    (d.bistFail cls idx code w rec_).stock = d.stock := by simp [Device.bistFail]

@[simp] theorem Device.passBegin_stock : d.passBegin.stock = d.stock := by simp [Device.passBegin]

@[simp] theorem Device.passEnd_stock : d.passEnd.stock = d.stock := by simp [Device.passEnd]

@[simp] theorem Device.coverMax_stock : d.coverMax.stock = d.stock := by simp [Device.coverMax]

@[simp] theorem Device.idleGap_stock : d.idleGap.stock = d.stock := by simp [Device.idleGap]

@[simp] theorem Device.leaveMarker_stock (p : Nat) : (d.leaveMarker p).stock = d.stock := by simp [Device.leaveMarker]

@[simp] theorem Device.setRail_stock (r mv : Nat) : (d.setRail r mv).stock = d.stock := by simp [Device.setRail]

@[simp] theorem Device.supplyEvent_stock (r kind mv : Nat) : (d.supplyEvent r kind mv).stock = d.stock := by simp [Device.supplyEvent]

@[simp] theorem Device.episode_stock (r mv : Nat) : (d.episode r mv).stock = d.stock := (rfl)

@[simp] theorem Device.episodeEnd_stock (r kind mv : Nat) : (d.episodeEnd r kind mv).stock = d.stock := by
  unfold Device.episodeEnd
  split <;> simp

@[simp] theorem Device.vbatStart_stock (mv calm : Nat) : (d.vbatStart mv calm).stock = d.stock := by simp [Device.vbatStart]

@[simp] theorem Device.vbatLow_stock (mv : Nat) : (d.vbatLow mv).stock = d.stock := by simp [Device.vbatLow]

@[simp] theorem Device.vbatLowClear_stock (mv : Nat) : (d.vbatLowClear mv).stock = d.stock := by simp [Device.vbatLowClear]

@[simp] theorem Device.railWarning_stock (r mv : Nat) : (d.railWarning r mv).stock = d.stock := by simp [Device.railWarning]

@[simp] theorem Device.railWarningEnd_stock (r mv : Nat) : (d.railWarningEnd r mv).stock = d.stock := by simp [Device.railWarningEnd]

@[simp] theorem Device.standbyAfterReply_stock (old new : Device) : (old.standbyAfterReply new).stock = new.stock := by
  unfold Device.standbyAfterReply
  split
  · split <;> simp
  · rfl

@[simp] theorem Device.thermRestart_stock (sdC sdP : Int) : (d.thermRestart sdC sdP).stock = d.stock := by simp [Device.thermRestart]

@[simp] theorem Device.modSec_stock (f : Sec → Sec) : (d.modSec f).stock = d.stock := (rfl)

@[simp] theorem Device.closeWritten_stock (old new : Device) : (old.closeWritten new).stock = new.stock := by
  unfold Device.closeWritten
  dsimp only
  (repeat' split) <;> simp

@[simp] theorem Device.revokeAll_stock (slots copies : List Nat) : (d.revokeAll slots copies).stock = d.stock := by simp [Device.revokeAll]

@[simp] theorem Device.modBoot_stock (f : BootRec → BootRec) : (d.modBoot f).stock = d.stock := by simp [Device.modBoot]

@[simp] theorem Device.fwEvent_stock (comp kind version slot : Nat) : (d.fwEvent comp kind version slot).stock = d.stock := by simp [Device.fwEvent]

@[simp] theorem Device.setStaging_stock (comp : Nat) (st : Staging) (img : Option Image) : (d.setStaging comp st img).stock = d.stock := (rfl)

@[simp] theorem Device.afterSwitch_stock : d.afterSwitch.stock = d.stock := by simp [Device.afterSwitch]

@[simp] theorem Device.bootScan_stock : d.bootScan.stock = d.stock := by simp [Device.bootScan]

@[simp] theorem Device.bootCounters_stock : d.bootCounters.stock = d.stock := by simp [Device.bootCounters]

@[simp] theorem Device.bootImage_stock (comp : Nat) (p : BootPick) : (d.bootImage comp p).stock = d.stock := by
  unfold Device.bootImage
  dsimp only
  (repeat' split) <;> simp

@[simp] theorem Device.sealedCheck_stock : d.sealedCheck.stock = d.stock := by simp [Device.sealedCheck]

@[simp] theorem Device.sealedStart_stock (p : BootPick) (before : Option Image) :
    (d.sealedStart p before).stock = d.stock := by simp [Device.sealedStart]

@[simp] theorem Device.bootCal_stock : d.bootCal.stock = d.stock := (rfl)

@[simp] theorem Device.bootUnmark_stock (u : Nat × Nat) : (d.bootUnmark u).stock = d.stock := by simp [Device.bootUnmark]

@[simp] theorem Device.bootRecord_stock : d.bootRecord.stock = d.stock := by simp [Device.bootRecord]

@[simp] theorem Device.shutdownRecord_stock : d.shutdownRecord.stock = d.stock := by simp [Device.shutdownRecord]

@[simp] theorem Device.bootLog_stock : d.bootLog.stock = d.stock := by simp [Device.bootLog]

@[simp] theorem Device.bootEvents_stock (comp : Nat) (p : BootPick) : (d.bootEvents comp p).stock = d.stock := by simp [Device.bootEvents]

@[simp] theorem Device.bootReport_stock (g s : BootPick) : (d.bootReport g s).stock = d.stock := by simp [Device.bootReport]

end Sys2Proof.Machine
end

section
/-! The pool through changes of one queue: units and partial units, cells allotted, renumbered and freed (R252, R254, R255, R263). -/

namespace Sys2Proof.Machine

open Sys2Proof

/-! What a queue holds after a change of its units or of those it is receiving. -/

/-- Units whose cells are those of units there before, and no new partial unit: no cell more. -/
theorem Queue.Holds.of_units {q q' : Queue} {c : Nat} (h : q'.Holds c) (hu : ∀ u ∈ q'.units, ∃ v ∈ q.units, v.cells = u.cells)
    (hp : q'.partials = q.partials := by rfl) : q.Holds c := by
  rcases h with ⟨u, hu', hc⟩ | ⟨p, hp', hc⟩
  · obtain ⟨v, hv, e⟩ := hu u hu'
    exact .inl ⟨v, hv, e ▸ hc⟩
  · exact .inr ⟨p, hp ▸ hp', hc⟩

/-- Units changed one by one, each with its cells. -/
theorem QUnit.of_mem_map {l : List QUnit} {g : QUnit → QUnit} (hg : ∀ u, (g u).cells = u.cells) {u : QUnit} (h : u ∈ l.map g) :
    ∃ v ∈ l, v.cells = u.cells := by
  obtain ⟨v, hv, rfl⟩ := List.mem_map.1 h
  exact ⟨v, hv, (hg v).symm⟩

/-- A queue released keeps units it had. -/
theorem Queue.Holds.of_release {q : Queue} {c : Nat} (h : q.release.Holds c) : q.Holds c :=
  h.of_units fun u hu => ⟨u, List.mem_of_mem_filter hu, rfl⟩

/-- A partial unit written back brings its own cells and no others. -/
theorem Queue.Holds.of_setPartial {q : Queue} {p : Partial} {c : Nat} (h : (q.setPartial p).Holds c) : q.Holds c ∨ c ∈ p.cells := by
  rcases h with h | ⟨x, hx, hc⟩
  · exact .inl (.inl h)
  · rcases List.mem_append.1 hx with hx | hx
    · exact .inl (.inr ⟨x, List.mem_of_mem_filter hx, hc⟩)
    · exact .inr (List.mem_singleton.1 hx ▸ hc)

/-- The partial unit of a source holds what its queue holds. -/
theorem Queue.holds_partial {q : Queue} {src c : Nat} (h : c ∈ (q.partial_ src).cells) : q.Holds c := by
  unfold Queue.partial_ at h
  cases hf : q.partials.find? (fun p => p.src == src) with
  | none => simp [hf] at h
  | some p => exact .inr ⟨p, List.mem_of_find?_eq_some hf, by simpa [hf] using h⟩

/-- A partial unit written back with its own cells. -/
theorem Queue.Holds.of_same_partial {q : Queue} {src : Nat} {p : Partial} {c : Nat} (h : (q.setPartial p).Holds c)
    (hp : p.cells = (q.partial_ src).cells := by rfl) : q.Holds c :=
  h.of_setPartial.elim id fun hc => q.holds_partial (hp ▸ hc)

theorem Queue.Holds.of_closePartial {q : Queue} {src c : Nat} (h : (q.closePartial src).Holds c) : q.Holds c := by
  have h : (q.setPartial (q.partial_ src).closed).Holds c := h
  exact h.of_setPartial.elim id nofun

/-- The last cell, where the next unit may start, is one that the queue holds (R252). -/
theorem Queue.holds_tail {q : Queue} {c : Nat} (h : c ∈ (q.tailNow.map (fun t => t.1)).toList) : q.Holds c := by
  simp only [Option.mem_toList, Option.map_eq_some_iff, Queue.tailNow, Option.filter_eq_some_iff] at h
  obtain ⟨t, ⟨-, ht⟩, rfl⟩ := h
  exact Queue.mem_cellList.1 (List.contains_iff_mem.1 ht)

theorem Queue.Holds.of_openPartial {q : Queue} {src c : Nat} (h : (q.openPartial src).Holds c) : q.Holds c := by
  have h : (q.setPartial { (q.partial_ src).closed with
    open_ := true, off := q.startOff, cells := (q.tailNow.map (fun t => t.1)).toList }).Holds c := h
  exact h.of_setPartial.elim id Queue.holds_tail

/-- Numbering a queue's units leaves their cells alone (R263). -/
theorem Queue.Holds.of_number {q : Queue} {useq c : Nat} (h : (q.number useq).Holds c) : q.Holds c := by
  refine h.of_units ?_
  refine List.foldlRecOn (motive := fun a : Nat × List QUnit × Bool => ∀ u ∈ a.2.1, ∃ v ∈ q.units, v.cells = u.cells) q.units _
    (fun u hu => nomatch hu) fun a ha x hx u hu => ?_
  split at hu <;> rcases List.mem_append.1 hu with hu | hu
  · exact ha u hu
  · exact ⟨x, hx, by rw [List.mem_singleton.1 hu]⟩
  · exact ha u hu
  · exact ⟨x, hx, by rw [List.mem_singleton.1 hu]⟩

/-! Cells and descriptors taken from those free, and moved. -/

/-- A cell a unit takes is one it had, or a free one of the pool where the pool has room for it. -/
theorem Queues.Pool.mem_allocate {qs : Queues} (h : qs.Pool) {off len c : Nat} {cells descs : List Nat}
    (hroom : moreCells off len cells.length ≤ 32768 - qs.usedCells.length) (hc : c ∈ (qs.allocate off len cells descs).1) :
    c ∈ cells ∨ (c < 32768 ∧ ∀ m, ¬ (qs.get m).Holds c) := by
  refine (List.mem_append.1 hc).imp_right fun hc => ?_
  obtain ⟨hfree, -, hlt⟩ := mem_freeNumbers (sortNats_sorted _) hc
  have hcount := h.count
  refine ⟨?_, fun m hm => hfree (Queues.mem_usedCells.2 (.inr ⟨_, Queues.mem_of_holds hm, hm⟩))⟩
  change c < 0 + moreCells off len cells.length + qs.usedCells.length at hlt
  omega

/-- A unit shares its first cell with the unit before it where that has room left (R252). -/
theorem Queue.newCells_eq (q : Queue) (len : Nat) :
    q.newCells len = moreCells q.startOff len (q.tailNow.map (fun t => t.1)).toList.length := by
  have hone : (q.tailNow.map (fun t => t.1)).toList.length = q.tailNow.isSome.toNat := by cases q.tailNow <;> rfl
  rw [hone, Queue.newCells]

/-- A request that is not refused finds its cells free (R255, log entry 173). -/
theorem Queues.room_of_granted {qs : Queues} {q : Queue} {add : Nat} (h : qs.refuses q add = none) : add ≤ 32768 - qs.usedCells.length := by
  unfold Queues.refuses at h
  dsimp only at h
  split at h
  · cases h
  · split at h
    · cases h
    · next hno =>
      simp only [Bool.or_eq_true, decide_eq_true_eq, not_or] at hno
      omega

theorem Queue.holds_renumber {q : Queue} {cell desc : Nat → Nat} {c : Nat} (h : (q.renumber cell desc).Holds c) :
    ∃ k, q.Holds k ∧ cell k = c := by
  rcases h with ⟨u, hu, hc⟩ | ⟨p, hp, hc⟩
  · obtain ⟨v, hv, rfl⟩ := List.mem_map.1 hu
    obtain ⟨k, hk, rfl⟩ := List.mem_map.1 hc
    exact ⟨k, .inl ⟨v, hv, hk⟩, rfl⟩
  · obtain ⟨v, hv, rfl⟩ := List.mem_map.1 hp
    obtain ⟨k, hk, rfl⟩ := List.mem_map.1 hc
    exact ⟨k, .inr ⟨v, hv, hk⟩, rfl⟩

/-! The device's operations on its queues. -/

theorem Device.foldl_pool {α : Type} {f : Device → α → Device} (hf : ∀ d a, d.stock.Pool → (f d a).stock.Pool) (l : List α)
    {d : Device} (h : d.stock.Pool) : (l.foldl f d).stock.Pool := by
  induction l generalizing d with
  | nil => exact h
  | cons a t ih => exact ih (hf d a h)

theorem Device.modQ_pool {d : Device} (h : d.stock.Pool) {n : Nat} {f : Queue → Queue}
    (hf : ∀ c, (f (d.queue n)).Holds c → (d.queue n).Holds c) : (d.modQ n f).stock.Pool := h.put fun c hc => .inl (hf c hc)

/-- A queue changed elsewhere than in its units. -/
@[simp] theorem Device.modQ_pool_same {d : Device} (h : d.stock.Pool) {n : Nat} {f : Queue → Queue} (hu : ∀ q, (f q).units = q.units)
    (hp : ∀ q, (f q).partials = q.partials) : (d.modQ n f).stock.Pool :=
  d.modQ_pool h fun _ hc => hc.of_units (fun u hm => ⟨u, hu _ ▸ hm, rfl⟩) (hp _)

/-- A map whose entries are changed, each at its key. -/
theorem mget_map {α : Type} (m : Map α) {g : Nat × α → Nat × α} (k : Nat) (hg : ∀ p, (g p).1 = p.1 := by exact fun _ => rfl) :
    mget k (m.map g) = (mget k m).map fun v => (g (k, v)).2 := by
  induction m with
  | nil => rfl
  | cons a t ih =>
    simp only [List.map_cons, mget, ih, hg]
    split
    · next e => subst e; rfl
    · rfl

theorem keysAbove_map {α : Type} {m : Map α} {g : Nat × α → Nat × α} {lo : Option Nat} (h : keysAbove lo m)
    (hg : ∀ p, (g p).1 = p.1 := by exact fun _ => rfl) : keysAbove lo (m.map g) := by
  induction m generalizing lo with
  | nil => trivial
  | cons a t ih => exact ⟨hg a ▸ h.1, hg a ▸ ih h.2⟩

/-- A partial unit with its SEQ forgotten holds the cells it had (R263). -/
theorem Queues.holds_forgetSeq {qs : Queues} {src : Nat → Bool} {n c : Nat} (h : ((qs.forgetSeq src).get n).Holds c) : (qs.get n).Holds c := by
  have hentry : mget n (qs.forgetSeq src).qs = (mget n qs.qs).map _ := mget_map qs.qs n
  unfold Queues.get at h ⊢
  rw [hentry] at h
  cases hq : mget n qs.qs with
  | none => rwa [hq] at h
  | some q =>
    rw [hq] at h
    refine h.imp_right fun ⟨p, hp, hc⟩ => ?_
    obtain ⟨x, hx, rfl⟩ := List.mem_map.1 hp
    refine ⟨x, hx, ?_⟩
    split at hc <;> exact hc

/-- SEQ numbers forgotten (R263) leave the cells of partial units alone. -/
@[simp] theorem Queues.forgetSeq_pool {d : Device} (h : d.stock.Pool) (src : Nat → Bool) :
    ({ qs := (d.qs.forgetSeq src).qs, lostCells := (d.qs.forgetSeq src).lostCells } : Queues).Pool :=
  h.of_less (keysAbove_map h.keys) (Queues.pool_iff.1 h).lost fun _ _ => Queues.holds_forgetSeq

section
variable {d : Device} (h : d.stock.Pool)
include h

@[simp] theorem Device.take_pool (n who useq : Nat) : (d.take n who useq).stock.Pool := by
  unfold Device.take
  dsimp only
  split
  all_goals
    simp only [Device.grant_stock, Device.stock_mk, Queues.modSub_qs, Queues.modSub_lostCells]
    refine h.put fun c hc => .inl (hc.of_release.of_units fun u hu => QUnit.of_mem_map (fun v => ?_) hu)
    split <;> rfl

@[simp] theorem Device.countDrop_pool (n reason useq : Nat) : (d.countDrop n reason useq).stock.Pool := by simp [Device.countDrop, h]

@[simp] theorem Device.fillOne_pool (p n : Nat) : (d.fillOne p n).1.stock.Pool := by
  unfold Device.fillOne
  dsimp only
  split
  · exact h
  · split
    · exact h
    · refine Device.foldl_pool (fun d w hd => by simpa using hd) _ ?_
      refine Device.modQ_pool ?_ fun c hc => hc.of_units fun u hu => QUnit.of_mem_map (fun v => ?_) hu
      · rw [Device.modPort_stock]
        exact Device.modQ_pool h fun c hc => hc.of_number
      · split <;> rfl

end

@[simp] theorem Device.fillQueue_pool {d : Device} (h : d.stock.Pool) (p n fuel : Nat) : (d.fillQueue p n fuel).stock.Pool := by
  induction fuel generalizing d with
  | zero => exact h
  | succ fuel ih =>
    unfold Device.fillQueue
    dsimp only
    split
    · exact ih (Device.fillOne_pool h p n)
    · exact Device.fillOne_pool h p n

section
variable {d : Device} (h : d.stock.Pool)
include h

@[simp] theorem Device.fillX9_pool (p : Nat) : (d.fillX9 p).stock.Pool := by
  unfold Device.fillX9
  dsimp only
  split
  · exact h
  · exact Device.foldl_pool (fun d q hd => Device.fillQueue_pool hd p q.1 64) _ h

@[simp] theorem Device.dropUnit_pool (n : Nat) (u : QUnit) (reason : Nat) : (d.dropUnit n u reason).stock.Pool :=
  Device.countDrop_pool (Device.modQ_pool (by simpa using h) fun _ hc =>
    hc.of_units fun v hv => ⟨v, List.mem_of_mem_filter hv, rfl⟩) n reason u.useq

@[simp] theorem Device.dropOldest_pool (n reason : Nat) : (d.dropOldest n reason).1.stock.Pool := by
  unfold Device.dropOldest
  split
  · exact h
  · exact Device.dropUnit_pool h ..

@[simp] theorem Device.releases_pool (n : Nat) : (d.releases n).stock.Pool :=
  Device.foldl_pool (fun _ u hd => Device.foldl_pool (fun _ w hd => Device.take_pool hd n w u.useq) _ hd) _ h

@[simp] theorem Device.startsFirst_pool (n len : Nat) : (d.startsFirst n len).stock.Pool := by
  unfold Device.startsFirst
  split
  · exact Device.fillX9_pool (Device.fillX9_pool h 0) 1
  · exact h

end

@[simp] theorem Device.findCells_pool {d : Device} (h : d.stock.Pool) (n : Nat) (need : Queue → Nat) (fuel : Nat) :
    (d.findCells n need fuel).1.stock.Pool := by
  induction fuel generalizing d with
  | zero => exact h
  | succ fuel ih =>
    unfold Device.findCells
    split
    · exact h
    · split
      · dsimp only
        split
        · exact ih (Device.dropOldest_pool h ..)
        · exact Device.dropOldest_pool h ..
      · exact h

/-- Where cells are found, the pool has them. -/
theorem Device.room_of_found {d : Device} {n : Nat} {need : Queue → Nat} {fuel : Nat} (h : (d.findCells n need fuel).2 = true) :
    need ((d.findCells n need fuel).1.queue n) ≤ 32768 - (d.findCells n need fuel).1.qs.usedCells.length := by
  induction fuel generalizing d with
  | zero => exact Queues.room_of_granted (Option.isNone_iff_eq_none.1 h)
  | succ fuel ih =>
    unfold Device.findCells at h ⊢
    split at h
    · next hnone => exact Queues.room_of_granted hnone
    · split at h
      · next hcls =>
        dsimp only at h
        split at h
        · next hdrop =>
          simp only [hcls, if_true, hdrop]
          exact ih h
        · cases h
      · cases h

/-- A unit stored where the pool has its cells. -/
theorem Device.store_pool {d : Device} (h : d.stock.Pool) {n : Nat} (src : Nat) {data : Bytes}
    (hroom : (d.queue n).newCells data.len ≤ 32768 - d.qs.usedCells.length) : (d.store n src data).stock.Pool := by
  refine h.put fun c hc => ?_
  rcases hc with ⟨u, hu, hc⟩ | hc
  · rcases List.mem_append.1 hu with hu | hu
    · exact .inl (.inl ⟨u, hu, hc⟩)
    · rw [List.mem_singleton.1 hu] at hc
      refine ((Device.stock_pool.1 h).mem_allocate (descs := []) ?_ hc).imp_left Queue.holds_tail
      rwa [← Queue.newCells_eq]
  · exact .inl (.inr hc)

section
variable {d : Device} (h : d.stock.Pool)
include h

@[simp] theorem Device.putUnit_pool (n src : Nat) (mayWait : Bool) (mk : Nat → Bytes) : (d.putUnit n src mayWait mk).1.stock.Pool := by
  unfold Device.putUnit
  dsimp only
  have hfound := fun len => Device.findCells_pool (Device.startsFirst_pool (Device.releases_pool h n) n len) n (fun q => q.newCells len)
    (d.queue n).units.length
  split
  · simp [h]
  · split
    · simp [h]
    · split
      · next hyes => exact Device.store_pool (hfound _) src (Device.room_of_found hyes)
      · (repeat' split) <;> simp [hfound]

@[simp] theorem Device.putStreamAt_pool (time n : Nat) (mayWait : Bool) (flags type recsize records info : Nat) (body : Bytes) :
    (d.putStreamAt time n mayWait flags type recsize records info body).1.stock.Pool := Device.putUnit_pool h ..

@[simp] theorem Device.putStream_pool (n : Nat) (mayWait : Bool) (flags type recsize records info : Nat) (body : Bytes) :
    (d.putStream n mayWait flags type recsize records info body).1.stock.Pool := Device.putUnit_pool h ..

end

/-- Through a choice. -/
@[simp] theorem Queues.pool_ite (c : Prop) [Decidable c] (a b : Queues) : (if c then a else b).Pool = if c then a.Pool else b.Pool :=
  apply_ite Queues.Pool c a b

@[simp] theorem Device.dropSub_stock (d : Device) (n who cause : Nat) : (d.dropSub n who cause).stock = d.stock := by simp [Device.dropSub]

end Sys2Proof.Machine
end

section
/-! Events, slices, cells, the command protocol and the functions keep the pool (R252). -/

namespace Sys2Proof.Machine

open Sys2Proof

variable {d : Device} (h : d.stock.Pool)
include h

@[simp] theorem Device.closeEvents_pool : d.closeEvents.stock.Pool := by simp [Device.closeEvents, h]

@[simp] theorem Device.closeFull_pool (fuel : Nat) : (d.closeFull fuel).stock.Pool := by
  induction fuel generalizing d with
  | zero => exact h
  | succ fuel ih =>
    unfold Device.closeFull
    split
    · exact h
    · exact ih (Device.closeEvents_pool h)

@[simp] theorem Device.bind_pool (b : Binder) (old new : Nat) : (d.bind b old new).stock.Pool := by
  have hfree : (d.modQ old (fun q => if q.bound = some b then { q with bound := none } else q)).stock.Pool :=
    Device.modQ_pool_same h (fun q => by split <;> rfl) (fun q => by split <;> rfl)
  unfold Device.bind
  dsimp only
  (repeat' split) <;> simp [h, hfree]

@[simp] theorem Device.sendMsg_pool (node queue : Nat) (msg : Bytes) : (d.sendMsg node queue msg).1.stock.Pool := by
  unfold Device.sendMsg
  dsimp only
  (repeat' split) <;> simp [h]

@[simp] theorem Device.reply_pool (node queue : Nat) (body : Bytes) (first : Bool) :
    (d.reply node queue body first).stock.Pool := by simp [Device.reply, h]

@[simp] theorem Device.finish_pool (w : Wait) (status : Nat) (result : Bytes) : (d.finish w status result).stock.Pool := by
  refine Device.foldl_pool (fun d p hd => ?_) _ (by simpa using h)
  cases p with
  | spi => exact hd
  | ring node queue => exact Device.reply_pool hd ..

@[simp] theorem Device.complete_pool (k : WaitKind) (status : Nat) (result : Bytes) : (d.complete k status result).stock.Pool :=
  Device.foldl_pool (fun _ w hd => Device.finish_pool hd w status result) _ (by simpa using h)

@[simp] theorem Device.completeFirst_pool (k : WaitKind) (status : Nat) (result : Bytes) : (d.completeFirst k status result).stock.Pool := by
  unfold Device.completeFirst
  split
  · exact Device.finish_pool (by simpa using h) ..
  · exact h

@[simp] theorem Device.mirrorOut_pool (fuel : Nat) : (d.mirrorOut fuel).stock.Pool := by
  induction fuel generalizing d with
  | zero => exact h
  | succ fuel ih =>
    unfold Device.mirrorOut
    split
    · exact h
    · split
      · exact h
      · dsimp only
        split
        · simp [h]
        · exact ih (by simp [h])

@[simp] theorem Device.putFn_pool (i : FnId) (f : Fn) : (d.putFn i f).stock.Pool := by
  unfold Device.putFn
  split <;> simp [h]

@[simp] theorem Device.modFn_pool (i : FnId) (f : Fn → Fn) : (d.modFn i f).stock.Pool := by simp [Device.modFn, h]

@[simp] theorem Device.reachOn_pool (i : FnId) : (d.reachOn i).stock.Pool := by simp [Device.reachOn, h]

@[simp] theorem Device.reachOff_pool (i : FnId) (minOff : Nat) : (d.reachOff i minOff).stock.Pool := by
  have hoff := fun f => Device.complete_pool (Device.modFn_pool h i f) (.fnOff i) sOk Bytes.nil
  unfold Device.reachOff
  dsimp only
  split <;> simp [hoff]

@[simp] theorem Device.beginStop_pool (i : FnId) (len : Nat) : (d.beginStop i len).stock.Pool := by simp [Device.beginStop, h]

@[simp] theorem Device.faultStop_pool (i : FnId) (len : Nat) : (d.faultStop i len).stock.Pool := by
  unfold Device.faultStop
  split <;> simp [h]

@[simp] theorem Device.enableFn_pool (i : FnId) (slow : Bool) (start : Device → Device) (hs : ∀ d, d.stock.Pool → (start d).stock.Pool) :
    (d.enableFn i slow start).1.stock.Pool := by
  unfold Device.enableFn
  dsimp only
  split <;> simp [h, hs]

@[simp] theorem Device.disableFn_pool (i : FnId) (slow : Bool) (stop : Device → Device) (hs : ∀ d, d.stock.Pool → (stop d).stock.Pool) :
    (d.disableFn i slow stop).1.stock.Pool := by
  unfold Device.disableFn
  dsimp only
  split <;> simp [h, hs]

@[simp] theorem Device.retryReply_pool (accepted : Bool) : (d.retryReply accepted).stock.Pool := by
  unfold Device.retryReply
  split <;> simp [h]

end Sys2Proof.Machine
end

section
/-! Sealed parameters, plans, the receiver, histograms, returns and the calibration keep the pool (R252). -/

namespace Sys2Proof.Machine

open Sys2Proof

variable {d : Device} (h : d.stock.Pool)
include h

@[simp] theorem Device.vbdDone_pool (counts : List Nat) : (d.vbdDone counts).stock.Pool := by
  unfold Device.vbdDone
  split <;> simp [h]

@[simp] theorem Device.abandonUnit_pool (p reason : Nat) : (d.abandonUnit p reason).stock.Pool := by simp [Device.abandonUnit, h]

@[simp] theorem Device.exportStart_pool : d.exportStart.stock.Pool := by simp [Device.exportStart, h]

@[simp] theorem Device.exportStop_pool : d.exportStop.stock.Pool := by
  unfold Device.exportStop
  extract_lets drop dropped draining
  have hdrop : ∀ d p, d.stock.Pool → (drop d p).stock.Pool := fun d p hd => by
    dsimp only [drop]
    split <;> simp [hd]
  have hdropped : dropped.stock.Pool := hdrop _ 7 (hdrop _ 6 h)
  simp [hdropped]

@[simp] theorem Device.exportOff_pool : d.exportOff.stock.Pool := by simp [Device.exportOff, h]

@[simp] theorem Device.exportTimeout_pool : d.exportTimeout.stock.Pool := by
  unfold Device.exportTimeout
  extract_lets drop
  have hdrop : ∀ d p, d.stock.Pool → (drop d p).stock.Pool := fun d p hd => by
    dsimp only [drop]
    split <;> simp [hd]
  split
  · exact Device.exportOff_pool (hdrop _ 7 (hdrop _ 6 h))
  · exact h

@[simp] theorem Device.holdTimeout_pool : d.holdTimeout.stock.Pool := by
  unfold Device.holdTimeout
  split <;> simp [h]

@[simp] theorem Device.learnDone_pool : d.learnDone.stock.Pool := by
  unfold Device.learnDone
  split <;> simp [h]

@[simp] theorem Device.calAbort_pool : d.calAbort.stock.Pool := by simp [Device.calAbort, h]

@[simp] theorem Device.calFinish_pool (f : FullCal) : (d.calFinish f).stock.Pool := by simp [Device.calFinish, h]

@[simp] theorem Device.calFullDone_pool : d.calFullDone.stock.Pool := by
  unfold Device.calFullDone
  split <;> simp [h]

@[simp] theorem Device.notExported_pool : d.notExported.stock.Pool := by simp [Device.notExported, h]

@[simp] theorem Device.takePlane_pool (g : Group) : (d.takePlane g).stock.Pool := by
  unfold Device.takePlane
  (repeat' split) <;> simp [h]

@[simp] theorem Device.emptyUnit_pool (g : Group) : (d.emptyUnit g).1.stock.Pool := by
  unfold Device.emptyUnit
  split <;> simp [h]

@[simp] theorem Device.handover_pool : d.handover.stock.Pool := by
  unfold Device.handover
  dsimp only
  (repeat' split) <;> simp [h]

@[simp] theorem Device.procStart_pool : d.procStart.stock.Pool := by
  unfold Device.procStart
  dsimp only
  (repeat' split) <;> simp [h]

@[simp] theorem Device.closePlane_pool (g : Group) (p : Nat) : (d.closePlane g p).stock.Pool := by simp [Device.closePlane, h]

@[simp] theorem Device.procFinish_pool (g : Group) (l : List ChanOut) (ghosts : Nat) :
    (d.procFinish g l ghosts).stock.Pool := by simp [Device.procFinish, h]

@[simp] theorem Device.procEnd_pool : d.procEnd.stock.Pool := by
  unfold Device.procEnd
  dsimp only
  (repeat' split) <;> simp [h]

@[simp] theorem Device.drained_pool (p : Nat) (u : ExportUnit) : (d.drained p u).stock.Pool := by simp [Device.drained, h]

@[simp] theorem Device.exportChunk_pool : d.exportChunk.stock.Pool := by
  unfold Device.exportChunk
  dsimp only
  (repeat' split) <;> simp [h]

@[simp] theorem Device.importDequeue_pool : d.importDequeue.stock.Pool := by
  unfold Device.importDequeue
  dsimp only
  (repeat' split) <;> simp [h]

@[simp] theorem Device.importDone_pool : d.importDone.stock.Pool := by
  unfold Device.importDone
  dsimp only
  (repeat' split) <;> simp [h]

end Sys2Proof.Machine
end

section
/-! Triggers, starts and stops, frames and groups keep the pool (R252). -/

namespace Sys2Proof.Machine

open Sys2Proof

variable {d : Device} (h : d.stock.Pool)
include h

@[simp] theorem Device.rawUnit_pool (g : Group) : (d.rawUnit g).stock.Pool := by
  unfold Device.rawUnit
  split <;> simp [h]

@[simp] theorem Device.endGroup_pool (g : Group) : (d.endGroup g).stock.Pool := by simp [Device.endGroup, h]

@[simp] theorem Device.enterStopping_pool : d.enterStopping.stock.Pool := by
  unfold Device.enterStopping
  dsimp only
  (repeat' split) <;> simp [h]

@[simp] theorem Device.fireFaultStop_pool : d.fireFaultStop.stock.Pool := by simp [Device.fireFaultStop, h]

@[simp] theorem Device.enterOn_pool : d.enterOn.stock.Pool := by
  unfold Device.enterOn
  extract_lets stop armed src synced on
  have hon : on.stock.Pool := by simp [on, synced, armed, h]
  split <;> simp [hon]

@[simp] theorem Device.emitFault_pool : d.emitFault.stock.Pool := by simp [Device.emitFault, h]

@[simp] theorem Device.armLead_pool : d.armLead.stock.Pool := by simp [Device.armLead, h]

@[simp] theorem Device.emitFaultPin_pool (width : Nat) : (d.emitFaultPin width).stock.Pool := by simp [Device.emitFaultPin, h]

@[simp] theorem Device.startExport_pool : d.startExport.stock.Pool := by
  unfold Device.startExport
  extract_lets stop on
  have hon : on.stock.Pool := by simp [on, h]
  (repeat' split) <;> simp [h, hon]

@[simp] theorem Device.fireOff_pool : d.fireOff.stock.Pool := by simp [Device.fireOff, h]

@[simp] theorem Device.fireStopDone_pool : d.fireStopDone.stock.Pool := by
  unfold Device.fireStopDone
  split
  · exact h
  · split
    · exact Device.fireOff_pool (by simpa using h)
    · next g _ =>
      split
      · exact Device.fireOff_pool (Device.endGroup_pool h g)
      · exact h

@[simp] theorem Device.stray_pool (w at_ : Nat) : (d.stray w at_).stock.Pool := by simp [Device.stray, h]

@[simp] theorem Device.biasFaulted_pool (off : Int) (held : Nat) : (d.biasFaulted off held).stock.Pool := by simp [Device.biasFaulted, h]

@[simp] theorem Device.startPlan_pool (frame : Nat) : (d.startPlan frame).stock.Pool := by simp [Device.startPlan, h]

@[simp] theorem Device.startRx_pool : d.startRx.stock.Pool := by simp [Device.startRx, h]

@[simp] theorem Device.frameBegin_pool : d.frameBegin.stock.Pool := by
  unfold Device.frameBegin
  extract_lets frame reported applied planned seeded followed changed received calibrated descs layoutOf freed tabled src synced started
  have happlied : applied.stock.Pool := by
    dsimp only [applied]
    split <;> simp [h, reported]
  have hfollowed : followed.stock.Pool := by simp [followed, seeded, planned, happlied]
  have hreceived : received.stock.Pool := Device.startRx_pool hfollowed
  have hfreed : freed.stock.Pool := by simp [freed, calibrated, hreceived]
  have htabled : tabled.stock.Pool := by simp [tabled, hfreed]
  simpa [started, synced] using htabled

@[simp] theorem Device.groupBegin_pool (q : QueuedGroup) (rest : List QueuedGroup) (off : Int) :
    (d.groupBegin q rest off).stock.Pool := by simp [Device.groupBegin, h]

@[simp] theorem Device.groupStart_pool (off : Int) : (d.groupStart off).stock.Pool := by
  unfold Device.groupStart
  dsimp only
  (repeat' split) <;> simp [h]

@[simp] theorem Device.shot_pool (ps : List (List (Nat × Nat))) : (d.shot ps).stock.Pool := by
  unfold Device.shot
  split
  · exact h
  · next g _ =>
    split
    · exact h
    · extract_lets f lfsr c dither parity ok seen ws fires g' charged edges len begun moved newly dosed dark
      have hmoved : moved.stock.Pool := by simpa [moved, begun] using h
      have hdosed : dosed.stock.Pool := Device.foldl_pool (fun d s hd => by simp [hd]) _ hmoved
      have hdark : dark.stock.Pool := Device.foldl_pool (fun d s hd => by simp [hd]) _ hdosed
      exact Device.foldl_pool (fun d p hd => Device.foldl_pool (fun d t hd => by simp [hd]) _ hd) _ hdark

end Sys2Proof.Machine
end

section
/-! Subscriptions and the ring keep the pool (R252). -/

namespace Sys2Proof.Machine

open Sys2Proof

variable {d : Device} (h : d.stock.Pool)
include h

@[simp] theorem Device.queueOff_pool (n : Nat) : (d.queueOff n).stock.Pool := by
  unfold Device.queueOff
  extract_lets counted emptied unsent ended src cleared
  have hcounted : counted.stock.Pool := Device.foldl_pool (fun d u hd => Device.countDrop_pool (by simpa using hd) ..) _ h
  have hemptied : emptied.stock.Pool := by
    refine Device.modQ_pool hcounted fun c hc => ?_
    simp [Queue.Holds] at hc
  have hcleared : cleared.stock = emptied.stock := by simp [cleared, src, ended, unsent]
  rw [← hcleared] at hemptied
  simp [hemptied]

@[simp] theorem Device.queueSettle_pool (n : Nat) : (d.queueSettle n).stock.Pool := by simp [Device.queueSettle, h]

@[simp] theorem Device.abandon_pool (n who : Nat) (f : QUnit → Bool) : (d.abandon n who f).stock.Pool := by
  unfold Device.abandon
  simp only [Device.stock_mk, Queues.modSub_qs, Queues.modSub_lostCells]
  refine Device.modQ_pool h fun c hc => ?_
  have hc := Queue.Holds.of_release hc
  exact hc.of_units (q := d.queue n) fun u hu => QUnit.of_mem_map (fun v => by split <;> rfl) hu

@[simp] theorem Device.subSettle_pool (n who : Nat) : (d.subSettle n who).stock.Pool := by
  unfold Device.subSettle
  split <;> simp [h, Device.dropSub]

@[simp] theorem Device.endSub_pool (n who cause : Nat) : (d.endSub n who cause).stock.Pool := by
  unfold Device.endSub
  split
  · exact h
  · exact Device.queueSettle_pool (Device.subSettle_pool (by simp [h]) n who) n

@[simp] theorem Device.taken_pool (n who useq : Nat) : (d.taken n who useq).stock.Pool :=
  Device.queueSettle_pool (Device.subSettle_pool (Device.take_pool h n who useq) n who) n

@[simp] theorem Device.unsend_pool (n who : Nat) (started : Bool) : (d.unsend n who started).stock.Pool := by
  unfold Device.unsend
  refine Device.modQ_pool ?_ fun c hc => hc.of_units fun u hu => QUnit.of_mem_map (fun v => ?_) hu
  · split
    · exact Device.abandon_pool h ..
    · exact h
  · split <;> rfl

@[simp] theorem Device.pullBack_pool (p : Nat) (out : TxFrame → Bool) : (d.pullBack p out).stock.Pool :=
  Device.foldl_pool (fun _ _ hd => Device.foldl_pool (fun _ _ hd => by simp [hd]) _ hd) _ (by simpa using h)

@[simp] theorem Device.startReset_pool (n who : Nat) : (d.startReset n who).stock.Pool := by simp [Device.startReset, h]

@[simp] theorem Device.resetIfReliable_pool (n who : Nat) : (d.resetIfReliable n who).stock.Pool := by simp [Device.resetIfReliable, h]

@[simp] theorem Device.suspendNode_pool (node : Nat) : (d.suspendNode node).stock.Pool := by
  refine Device.foldl_pool (fun d s hd => ?_) _ h
  extract_lets freed pulled
  have hpulled : pulled.stock.Pool := Device.foldl_pool (fun d p hd => by simp [hd]) _ (Device.abandon_pool hd ..)
  split
  · exact Device.queueSettle_pool (Device.subSettle_pool hpulled ..) _
  · exact Device.queueSettle_pool (by simpa using hpulled) _

@[simp] theorem Device.resumeNode_pool (node : Nat) : (d.resumeNode node).stock.Pool := by
  unfold Device.resumeNode
  exact Device.foldl_pool (fun d _ hd => by simp [hd]) _ h

@[simp] theorem Device.endNode_pool (node : Nat) : (d.endNode node).stock.Pool := by simp [Device.endNode, h]

@[simp] theorem Device.resvOutcome_pool (queue status : Nat) (west : Bool) : (d.resvOutcome queue status west).stock.Pool := by
  unfold Device.resvOutcome
  dsimp only
  (repeat' split) <;> simp [h]

@[simp] theorem Device.resvAnswer_pool (v : Resv) (status : Nat) (west : Bool) :
    (d.resvAnswer v status west).stock.Pool := by simp [Device.resvAnswer, h]

@[simp] theorem Device.withdrawResv_pool (v : Resv) : (d.withdrawResv v).stock.Pool := by simp [Device.withdrawResv, h]

@[simp] theorem Device.decideResv_pool (v : Resv) : (d.decideResv v).stock.Pool := by
  unfold Device.decideResv
  dsimp only
  split
  · simpa using h
  · split
    · rw [Device.sendAllowances_stock]
      refine Device.resvAnswer_pool ?_ ..
      rw [Device.modRing_stock]
      exact Device.foldl_pool (fun d x hd => Device.withdrawResv_pool hd x) _ h
    · exact Device.resvAnswer_pool h ..

@[simp] theorem Device.askLate_pool : d.askLate.stock.Pool := by
  unfold Device.askLate
  exact Device.foldl_pool (fun d _ hd => by simp [hd]) _ h

@[simp] theorem Device.readmit_pool (old : Ring) : (d.readmit old).stock.Pool := by
  unfold Device.readmit
  split
  · exact h
  · extract_lets r intact step kept moved res place set withdrawn answered
    have hset : set.stock.Pool := by simpa [set] using h
    have hwithdrawn : withdrawn.stock.Pool := Device.foldl_pool (fun d v hd => Device.withdrawResv_pool hd v) _ hset
    have hanswered : answered.stock.Pool := Device.foldl_pool (fun d p hd => Device.resvAnswer_pool hd ..) _ hwithdrawn
    simpa using hanswered

@[simp] theorem Device.reroute_pool : d.reroute.stock.Pool := by simp [Device.reroute, h]

@[simp] theorem Device.memberGone_pool (node cause : Nat) : (d.memberGone node cause).stock.Pool := by
  unfold Device.memberGone
  split <;> simp [h]

@[simp] theorem Device.memberCome_pool (m : Member) (stepped : Bool) (epoch : Nat) :
    (d.memberCome m stepped epoch).stock.Pool := by simp [Device.memberCome, h]

@[simp] theorem Device.leaveRing_pool : d.leaveRing.stock.Pool := by
  unfold Device.leaveRing
  extract_lets away held pulled answered forgotten alone linked
  have hpulled : pulled.stock.Pool := Device.pullBack_pool (Device.pullBack_pool h ..) ..
  have hanswered : answered.stock.Pool := Device.foldl_pool (fun d v hd => by simp [hd]) _ hpulled
  have hforgotten : forgotten.stock.Pool := by
    simp only [forgotten, Device.stock_mk]
    exact Queues.forgetSeq_pool hanswered _
  have hlinked : linked.stock.Pool := Device.foldl_pool (fun d p hd => by simp [hd]) _ (by simpa [alone] using hforgotten)
  have hgone := Device.foldl_pool (f := fun d n => d.suspendNode n) (fun d n hd => Device.suspendNode_pool hd n) away hlinked
  simpa using hgone

@[simp] theorem Device.mergeLeave_pool : d.mergeLeave.stock.Pool := by simp [Device.mergeLeave, h]

@[simp] theorem Device.portOn_pool (p : Nat) (stop : Device → Device) (hs : ∀ d, d.stock.Pool → (stop d).stock.Pool) :
    (d.portOn p stop).stock.Pool := by
  unfold Device.portOn
  split
  · dsimp only
    split <;> simp [h, hs]
  · exact h

@[simp] theorem Device.applyBreak_pool (w e : Nat) : (d.applyBreak w e).stock.Pool := by
  unfold Device.applyBreak
  split
  · exact h
  · extract_lets old c cut lost gone told routed
    have hgone : gone.stock.Pool := by
      refine Device.foldl_pool (fun d n hd => ?_) _ (by simpa [cut] using h)
      dsimp only
      split <;> simp [hd]
    have htold : told.stock.Pool := by
      dsimp only [told]
      split <;> simp [hgone]
    have hrouted : routed.stock.Pool := Device.reroute_pool htold
    simp [hrouted]

@[simp] theorem Device.declareBreak_pool (p : Nat) : (d.declareBreak p).stock.Pool := by simp [Device.declareBreak, h]

@[simp] theorem Device.portStop_pool (p : Nat) : (d.portStop p).stock.Pool := by simp [Device.portStop, h]

@[simp] theorem Device.leaveIfAlone_pool : d.leaveIfAlone.stock.Pool := by simp [Device.leaveIfAlone, h]

@[simp] theorem Device.linkDown_pool (p : Nat) (cause : Option Nat) : (d.linkDown p cause).stock.Pool := by
  unfold Device.linkDown
  extract_lets was pulled told kept broken training
  have htold : told.stock.Pool := by
    dsimp only [told]
    split <;> simp [h, pulled]
  have hbroken : broken.stock.Pool := by
    dsimp only [broken]
    split <;> simp [htold]
  simp [training, hbroken]

@[simp] theorem Device.portsOn_pool : d.portsOn.stock.Pool := by
  unfold Device.portsOn
  split
  · exact Device.foldl_pool (fun d p hd => Device.portOn_pool hd p _ fun d hd => Device.portStop_pool hd p) _ (by simpa using h)
  · exact h

@[simp] theorem Device.delayAveraged_pool (p : Nat) : (d.delayAveraged p).stock.Pool := by simp [Device.delayAveraged, h]

@[simp] theorem Device.markerSeen_pool (p : Nat) (f : BitVec 512) : (d.markerSeen p f).stock.Pool := by simp [Device.markerSeen, h]

@[simp] theorem Device.servoUpdate_pool : d.servoUpdate.stock.Pool := by simp [Device.servoUpdate, h]

@[simp] theorem Device.joinReq_pool (p : Nat) (f : BitVec 512) : (d.joinReq p f).stock.Pool := by
  unfold Device.joinReq
  dsimp only
  (repeat' split) <;> simp [h]

@[simp] theorem Device.leaveMsg_pool (f : BitVec 512) : (d.leaveMsg f).stock.Pool := by simp [Device.leaveMsg, h]

@[simp] theorem Device.breakMsg_pool (f : BitVec 512) : (d.breakMsg f).stock.Pool := by simp [Device.breakMsg, h]

@[simp] theorem Device.tableArrived_pool (t : List Member) : (d.tableArrived t).stock.Pool := by
  unfold Device.tableArrived
  split
  · exact h
  · next hd _ =>
    extract_lets foreign newHead former known old gone left ren renamed came joined asked
    have hleft : left.stock.Pool := Device.foldl_pool (fun d m hd => by simp [hd]) _ h
    have hrenamed : renamed.stock.Pool := by simpa [renamed] using hleft
    have hjoined : joined.stock.Pool := by
      dsimp only [joined]
      split
      · refine Device.foldl_pool (fun d m hd => ?_) _ hrenamed
        split <;> simp [hd]
      · exact Device.foldl_pool (fun d m hd => by simp [hd]) _ hrenamed
    have hasked : asked.stock.Pool := by
      dsimp only [asked]
      split <;> simp [hjoined]
    (repeat' split) <;> simp [h, hasked]

@[simp] theorem Device.membersMsg_pool (f : BitVec 512) : (d.membersMsg f).stock.Pool := by simp [Device.membersMsg, h]

@[simp] theorem Device.resvReq_pool (f : BitVec 512) : (d.resvReq f).stock.Pool := by simp [Device.resvReq, h]

@[simp] theorem Device.resvAnsMsg_pool (f : BitVec 512) : (d.resvAnsMsg f).stock.Pool := by simp [Device.resvAnsMsg, h]

@[simp] theorem Device.electMsg_pool (f : BitVec 512) : (d.electMsg f).stock.Pool := by simp [Device.electMsg, h]

@[simp] theorem Device.becomeHead_pool : d.becomeHead.stock.Pool := by simp [Device.becomeHead, h]

@[simp] theorem Device.electTimeout_pool : d.electTimeout.stock.Pool := by simp [Device.electTimeout, h]

@[simp] theorem Device.startRetry_pool (p : Nat) : (d.startRetry p).stock.Pool := by simp [Device.startRetry, h]

@[simp] theorem Device.holdExpiry_pool (node : Nat) : (d.holdExpiry node).stock.Pool := by simp [Device.holdExpiry, h]

@[simp] theorem Device.portStopDone_pool (p : Nat) : (d.portStopDone p).stock.Pool := by
  unfold Device.portStopDone
  extract_lets x dry sent final pulled fresh emptied was left freed
  have hsent : sent.stock.Pool := by
    dsimp only [sent]
    split <;> simp [h]
  have hleft : left.stock.Pool := Device.leaveIfAlone_pool (by simp [emptied, pulled, hsent])
  have hfreed : freed.stock.Pool := by
    dsimp only [freed]
    split <;> simp [hleft]
  split
  · exact h
  · rw [Device.portEvent_stock]
    exact Device.reachOff_pool (by simpa using hfreed) ..

@[simp] theorem Device.releaseResv_pool (q : Nat) : (d.releaseResv q).stock.Pool := by
  unfold Device.releaseResv
  split <;> simp [h]

@[simp] theorem Device.rebalance_pool (q : Nat) : (d.rebalance q).stock.Pool := by
  unfold Device.rebalance
  dsimp only
  (repeat' split) <;> simp [h]

@[simp] theorem Device.frameLeaves_pool (f : TxFrame) : (d.frameLeaves f).stock.Pool := by
  refine Device.foldl_pool (fun d w hd => ?_) _ h
  extract_lets spent
  have hspent : spent.stock.Pool := by
    dsimp only [spent]
    split <;> simpa using hd
  split
  · split
    · exact Device.modQ_pool hspent fun c hc => hc.of_units fun u hu => QUnit.of_mem_map (fun v => by split <;> rfl) hu
    · exact hspent
  · exact hspent

omit h in
theorem Sending.step_pool {s : Sending} (hs : s.d.stock.Pool) (pass : Nat) (f : TxFrame) : (s.step pass f).d.stock.Pool := by
  unfold Sending.step
  extract_lets key id n enters may lack stays
  split
  · exact hs
  · split
    · exact Device.frameLeaves_pool hs f
    · exact Device.foldl_pool (fun d w hd => by simpa using hd) _ hs

omit h in
theorem Sending.pass_pool {s : Sending} (hs : s.d.stock.Pool) (l : List TxFrame) (pass : Nat) : (s.pass l pass).d.stock.Pool :=
  List.foldlRecOn (motive := fun s : Sending => s.d.stock.Pool) l _ hs fun _ hs f _ => Sending.step_pool hs pass f

@[simp] theorem Device.sendFrames_pool (p : Nat) : (d.sendFrames p).stock.Pool := by
  unfold Device.sendFrames
  extract_lets filled x tokens t s0 s1 s2 s3 l
  have hfilled : filled.stock.Pool := Device.fillX9_pool h p
  have hs3 : s3.d.stock.Pool := Sending.pass_pool (Sending.pass_pool (Sending.pass_pool (s := s0) hfilled ..) ..) ..
  (repeat' split) <;> simp [hfilled, hs3]

@[simp] theorem Device.superframe_pool (p : Nat) : (d.superframe p).stock.Pool := by
  unfold Device.superframe
  extract_lets x decided counts counted sent
  have hdecided : decided.stock.Pool := by
    dsimp only [decided]
    split
    · exact Device.foldl_pool (fun d v hd => Device.decideResv_pool hd v) _ h
    · exact Device.askLate_pool h
  have hcounted : counted.stock.Pool := by
    dsimp only [counted]
    split <;> simp [hdecided]
  (repeat' split) <;> simp [h, sent, hcounted]

end Sys2Proof.Machine
end

section
/-! Queues, streams and cameras keep the pool (R252). -/

namespace Sys2Proof.Machine

open Sys2Proof

variable {d : Device} (h : d.stock.Pool)
include h

@[simp] theorem Device.cellRequest_pool (n flags recsize records info : Nat) (unit : Bytes) :
    (d.cellRequest n flags recsize records info unit).stock.Pool := by
  unfold Device.cellRequest
  (repeat' split) <;> simp [h]

@[simp] theorem Device.dropPartial_pool (n src reason : Nat) : (d.dropPartial n src reason).stock.Pool := by
  have hclosed := Device.modQ_pool h (n := n) (f := fun q => { q.closePartial src with useq := q.useq + 1 }) fun c hc => 
    Queue.Holds.of_closePartial (src := src) hc
  unfold Device.dropPartial
  simp [hclosed]

@[simp] theorem Device.refuseQ0_pool (msg : Bytes) : (d.refuseQ0 msg).stock.Pool := by simp [Device.refuseQ0, h]

@[simp] theorem Device.arriveQ0_pool (useq : Nat) : (d.arriveQ0 useq).stock.Pool := by
  unfold Device.arriveQ0
  split
  · refine Device.modQ_pool h fun c hc => hc.of_units fun u hu => QUnit.of_mem_map (fun v => ?_) hu
    split <;> rfl
  · exact h

omit h in
/-- A unit complete holds the cells its partial unit held (R263). -/
theorem Queue.Holds.of_join {q : Queue} {u : QUnit} {src c k : Nat} {t : Option (Nat × Nat)} (hu : u.cells = (q.partial_ src).cells)
    (h : Queue.Holds { q.setPartial (q.partial_ src).closed with units := q.units ++ [u], tail := t, useq := k } c) : q.Holds c := by
  rcases h with ⟨v, hv, hc⟩ | hc
  · rcases List.mem_append.1 hv with hv | hv
    · exact .inl ⟨v, hv, hc⟩
    · exact q.holds_partial (hu ▸ List.mem_singleton.1 hv ▸ hc)
  · exact Queue.Holds.of_closePartial (src := src) (.inr hc)

@[simp] theorem Device.completeUnit_pool (n src seq : Nat) : (d.completeUnit n src seq).stock.Pool := by
  unfold Device.completeUnit
  extract_lets q p first part u joined
  have hjoined : joined.stock.Pool := Device.modQ_pool h fun c hc => by
    exact Queue.Holds.of_join (u := u) (src := src) rfl hc
  split
  · exact Device.arriveQ0_pool hjoined _
  · exact hjoined

@[simp] theorem Device.appendFrame_pool (n src seq : Nat) (first last : Bool) (data : Bytes) :
    (d.appendFrame n src seq first last data).stock.Pool := by
  unfold Device.appendFrame
  extract_lets q p delta gap seen cut noted p1 opened all found refused d2 had a grown granted
  have hcut : cut.stock.Pool := by
    dsimp only [cut]
    split <;> simp [h]
  have hnoted : noted.stock.Pool := Device.modQ_pool hcut fun c hc => hc.of_same_partial
  have hopened : opened.stock.Pool := by
    dsimp only [opened]
    split
    · exact Device.modQ_pool hnoted fun c hc => hc.of_openPartial
    · exact hnoted
  have hfound : found.1.stock.Pool := Device.findCells_pool hopened ..
  have hrefused : refused.stock.Pool := by simp [refused, hfound]
  have hgrown : found.2 = true → grown.stock.Pool := by
    intro hroom
    refine Queues.Pool.put hfound fun c hc => ?_
    refine hc.of_setPartial.elim .inl fun hc => ?_
    exact (Queues.Pool.mem_allocate (descs := had.descs) hfound (Device.room_of_found hroom) hc).imp_left Queue.holds_partial
  split
  · exact h
  · split
    · exact hnoted
    · split
      · exact Device.dropPartial_pool hopened ..
      · split
        · split
          · simp [hrefused]
          · exact hrefused
        · next hroom =>
          have hgrown := hgrown (by simpa using hroom)
          have hgranted : granted.stock.Pool := by
            dsimp only [granted]
            split <;> simp [hgrown]
          split
          · exact Device.completeUnit_pool hgranted ..
          · exact hgranted

@[simp] theorem Device.frameAppend_pool (p : Nat) : (d.frameAppend p).stock.Pool := by
  unfold Device.frameAppend
  split <;> simp [h]

@[simp] theorem Device.delivered_pool (n who : Nat) : (d.delivered n who).stock.Pool := by
  unfold Device.delivered
  split <;> simp [h]

theorem Device.q1Take_pool {type n seq src : Nat} {x : Device} (hx : d.q1Take type = some (n, seq, src, x)) : x.stock.Pool := by
  unfold Device.q1Take at hx
  split at hx
  · cases hx
  · split at hx
    · cases hx
      simp [h]
    · cases hx

@[simp] theorem Device.q1Reset_pool : d.q1Reset.stock.Pool := by
  unfold Device.q1Reset
  split
  · exact h
  · next n seq src x hx =>
    have hx := Device.q1Take_pool h hx
    extract_lets q noted dropped
    have hnoted : noted.stock.Pool := Device.modQ_pool hx fun c hc => hc.of_same_partial
    have hdropped : dropped.stock.Pool := by
      dsimp only [dropped]
      split <;> simp [hnoted]
    split
    · exact hx
    · exact Device.modQ_pool hdropped fun c hc => hc.of_same_partial

@[simp] theorem Device.q1Resync_pool : d.q1Resync.stock.Pool := by
  unfold Device.q1Resync
  split
  · exact h
  · next n seq src x hx =>
    exact Device.foldl_pool (fun d s hd => by simp [hd]) _ (Device.q1Take_pool h hx)

@[simp] theorem Device.queueStart_pool (n : Nat) : (d.queueStart n).stock.Pool := by simp [Device.queueStart, h]

@[simp] theorem Device.queueStop_pool (n : Nat) : (d.queueStop n).stock.Pool := by
  have hdropped := Device.foldl_pool (f := fun d (p : Partial) => d.dropPartial n p.src 6) (fun d p hd => Device.dropPartial_pool hd ..)
    ((d.queue n).partials.filter (fun p => p.open_)) h
  rw [Device.queueStop, Device.queueEvent_stock]
  exact Device.beginStop_pool hdropped ..

@[simp] theorem Device.hostMissed_pool (n : Nat) : (d.hostMissed n).2.stock.Pool := by
  unfold Device.hostMissed
  split <;> simp [h]

@[simp] theorem Device.readQueue_pool (n : Nat) : (d.readQueue n).1.stock.Pool := by
  have hmissed := Device.hostMissed_pool h n
  unfold Device.readQueue
  dsimp only
  split
  · exact hmissed
  · split
    · exact Device.taken_pool hmissed ..
    · exact Device.modQ_pool hmissed fun c hc => hc.of_units fun u hu => QUnit.of_mem_map (fun v => by split <;> rfl) hu

@[simp] theorem Device.camStop_pool (p : Nat) : (d.camStop p).stock.Pool := by simp [Device.camStop, h]

@[simp] theorem Device.camOn_pool (p : Nat) : (d.camOn p).stock.Pool := by simp [Device.camOn, h]

@[simp] theorem Device.camOff_pool (p : Nat) : (d.camOff p).stock.Pool := by simp [Device.camOff, h]

@[simp] theorem Device.camDrop_pool (p reason : Nat) (hdr : BitVec 32) : (d.camDrop p reason hdr).stock.Pool := by
  unfold Device.camDrop
  split <;> simp [h]

@[simp] theorem Device.camUnit_pool (p q : Nat) (pkt : CsiPacket) (long crcErr incomplete : Bool) :
    (d.camUnit p q pkt long crcErr incomplete).1.stock.Pool := by simp [Device.camUnit, h]

@[simp] theorem Device.packet_pool (p : Nat) (pkt : CsiPacket) : (d.packet p pkt).stock.Pool := by
  unfold Device.packet
  extract_lets hdr vc long opened c lose bad noted fe
  have hopened : opened.stock.Pool := by
    dsimp only [opened]
    split <;> simp [h]
  have hnoted : noted.stock.Pool := by
    dsimp only [noted]
    split <;> simp [hopened]
  have hlose : ∀ d : Device, d.stock.Pool → (lose d).stock.Pool := fun d hd => by simpa [lose] using hd
  split
  · simp [hopened]
  · next q _ =>
    extract_lets r put
    have hput : put.stock.Pool := by
      have hr : r.1.stock.Pool := Device.camUnit_pool hnoted ..
      dsimp only [put]
      split <;> simp [hlose, hr]
    clear_value r put lose noted opened
    (repeat' split) <;> simp [hopened, hlose, hnoted, hput]

@[simp] theorem Device.csi_pool (p : Nat) (pkt : CsiPacket) : (d.csi p pkt).stock.Pool := by
  unfold Device.csi
  extract_lets counted taken
  have htaken : taken.stock.Pool := by
    dsimp only [taken]
    split <;> simp [h, counted]
  (repeat' split) <;> simp [h, htaken]

end Sys2Proof.Machine
end

section
/-! The bridge and the field die keep the pool (R252). -/

namespace Sys2Proof.Machine

open Sys2Proof

variable {d : Device} (h : d.stock.Pool)
include h

@[simp] theorem Device.lostUnit_pool (queue reason : Nat) : (d.lostUnit queue reason).stock.Pool := by simp [Device.lostUnit, h]

@[simp] theorem Device.tell_pool (m : FieldMsg) : (d.tell m).stock.Pool := by
  unfold Device.tell
  split <;> simp [h]

@[simp] theorem Device.deliver_pool (p : Bytes) : (d.deliver p).stock.Pool := by
  unfold Device.deliver
  split <;> simp [h]

@[simp] theorem Device.driveFn_pool (k : Nat) : (d.driveFn k).stock.Pool := by
  unfold Device.driveFn
  dsimp only
  (repeat' split) <;> simp [h]

@[simp] theorem Device.driveOne_pool (k : Nat) (pwm : Bool) : (d.driveOne k pwm).stock.Pool := by simp [Device.driveOne, h]

@[simp] theorem Device.drive_pool (k : Nat) (pwm : Bool) : (d.drive k pwm).stock.Pool := by
  unfold Device.drive
  exact Device.foldl_pool (fun d _ hd => by simp [hd]) _ h

@[simp] theorem Device.applyAll_pool (safe : Bool) (source : Nat) : (d.applyAll safe source).stock.Pool := by
  simp +contextual [Device.applyAll, h, Device.foldl_pool]

@[simp] theorem Device.doRemap_pool (r : RemapReq) : (d.doRemap r).stock.Pool := by simp [Device.doRemap, h]

@[simp] theorem Device.outStop_pool (k : Nat) : (d.outStop k).stock.Pool := by simp [Device.outStop, h]

@[simp] theorem Device.limitStop_pool (k reason : Nat) : (d.limitStop k reason).stock.Pool := by
  simp +contextual [Device.limitStop, h, Device.foldl_pool]

@[simp] theorem Device.storeChunk_pool (time : Nat) (u : Bytes) : (d.storeChunk time u).1.stock.Pool := by simp [Device.storeChunk, h]

@[simp] theorem Device.storeReady_pool : d.storeReady.stock.Pool := by
  unfold Device.storeReady
  split <;> simp [h]

@[simp] theorem Device.endChunk_pool : d.endChunk.stock.Pool := by simp [Device.endChunk, h]

@[simp] theorem Device.chunkStart_pool (p : Bytes) : (d.chunkStart p).stock.Pool := by
  unfold Device.chunkStart
  extract_lets queue n missing lost left begun
  have hlost : lost.stock.Pool := Device.foldl_pool (fun d _ hd => Device.lostUnit_pool hd ..) _ h
  have hbegun : begun.stock.Pool := by simpa [begun] using hlost
  split <;> simp [hbegun]

@[simp] theorem Device.chunkData_pool (p : Bytes) : (d.chunkData p).stock.Pool := by simp [Device.chunkData, h]

@[simp] theorem Device.chunkGap_pool (gap : Nat) : (d.chunkGap gap).stock.Pool := by simp [Device.chunkGap, h]

@[simp] theorem Device.chan1_pool (fseq : Nat) (p : Bytes) : (d.chan1 fseq p).stock.Pool := by simp [Device.chan1, h]

@[simp] theorem Device.bridgeCycle_pool (s : Side) : (d.bridgeCycle s).stock.Pool := by
  unfold Device.bridgeCycle
  split <;> simp [h]

@[simp] theorem Device.chan0_pool (s : Side) (fseq : Nat) (p : Bytes) : (d.chan0 s fseq p).stock.Pool := by
  unfold Device.chan0
  split <;> simp [h]

@[simp] theorem Device.bulkFrame_pool (s : Side) (f : BitVec 512) : (d.bulkFrame s f).stock.Pool := by
  unfold Device.bulkFrame
  split <;> simp [h]

@[simp] theorem Device.takeSafe_pool : d.takeSafe.stock.Pool := by
  unfold Device.takeSafe
  split <;> simp [h]

@[simp] theorem Device.applyAspect_pool : d.applyAspect.stock.Pool := by
  unfold Device.applyAspect
  split <;> simp [h]

@[simp] theorem Device.coreResume_pool (ack : Nat) (anew : Bool) : (d.coreResume ack anew).stock.Pool := by simp [Device.coreResume, h]

@[simp] theorem Device.contactStarts_pool (frame : BitVec 512) : (d.contactStarts frame).stock.Pool := by simp [Device.contactStarts, h]

@[simp] theorem Device.fieldFrameValid_pool (frame : BitVec 512) : (d.fieldFrameValid frame).stock.Pool := by simp [Device.fieldFrameValid, h]

@[simp] theorem Device.fieldFrameIn_pool (frame : BitVec 512) : (d.fieldFrameIn frame).stock.Pool := by simp [Device.fieldFrameIn, h]

@[simp] theorem Device.limitTimeout_pool (k : Nat) : (d.limitTimeout k).stock.Pool := by simp [Device.limitTimeout, h]

@[simp] theorem Device.cooled_pool (k : Nat) : (d.cooled k).stock.Pool := by simp [Device.cooled, h]

@[simp] theorem Device.uvOff_pool (g mv : Nat) : (d.uvOff g mv).stock.Pool := by
  unfold Device.uvOff
  extract_lets noted marked
  split
  · simpa [noted] using h
  · exact Device.foldl_pool (fun d k hd => Device.outStop_pool hd k) _ (by simpa [marked, noted] using h)

@[simp] theorem Device.softStep_pool (g : Nat) : (d.softStep g).stock.Pool := by
  unfold Device.softStep
  dsimp only
  (repeat' split) <;> simp [h]

@[simp] theorem Device.applyBlock_pool (b : BitVec 11392) : (d.applyBlock b).stock.Pool := by simp [Device.applyBlock, h]

@[simp] theorem Device.blockCommitted_pool (b : BitVec 11392) (old : Nat) : (d.blockCommitted b old).stock.Pool := by simp [Device.blockCommitted, h]

@[simp] theorem Device.commitDone_pool : d.commitDone.stock.Pool := by simp [Device.commitDone, h]

@[simp] theorem Device.storeInputs_pool (c : BitVec 1088) : (d.storeInputs c).stock.Pool := by simp [Device.storeInputs, h]

@[simp] theorem Device.seqFault_pool (q : Nat) : (d.seqFault q).stock.Pool := by simp [Device.seqFault, h]

@[simp] theorem Device.sliceOut_pool (c : Nat) (b : Bool) : (d.sliceOut c b).stock.Pool := by
  simp +contextual [Device.sliceOut, h, Device.foldl_pool]

@[simp] theorem Device.background_pool (c : Nat) (b : Bool) (offset gain skew : Int) :
    (d.background c b offset gain skew).stock.Pool := by simp [Device.background, h]

@[simp] theorem Device.captureAbort_pool : d.captureAbort.stock.Pool := by simp [Device.captureAbort, h]

@[simp] theorem Device.convStop_pool (c : Nat) : (d.convStop c).stock.Pool := by simp [Device.convStop, h]

@[simp] theorem Device.convOn_pool (c : Nat) : (d.convOn c).stock.Pool := by simp [Device.convOn, h]

@[simp] theorem Device.calRunDone_pool (codes : List Int) : (d.calRunDone codes).stock.Pool := by
  unfold Device.calRunDone
  split <;> simp [h]

@[simp] theorem Device.captureStart_pool : d.captureStart.stock.Pool := by
  unfold Device.captureStart
  split <;> simp [h]

@[simp] theorem Device.captureEnd_pool (codes : List Nat) : (d.captureEnd codes).stock.Pool := by
  unfold Device.captureEnd
  split <;> simp [h]

@[simp] theorem Device.captureTimeout_pool : d.captureTimeout.stock.Pool := by
  unfold Device.captureTimeout
  split <;> simp [h]

@[simp] theorem Device.excStop_pool : d.excStop.stock.Pool := by simp [Device.excStop, h]

@[simp] theorem Device.excHalf_pool : d.excHalf.stock.Pool := by
  have hoff : ((d.reachOff .exc excOff).excEvent).stock.Pool := by simp [h]
  unfold Device.excHalf
  extract_lets f stop on off
  split
  · exact h
  · split
    · split <;> simp [on, h]
    · split
      · simp [h]
      · split
        · exact Device.foldl_pool (fun d q hd => by split <;> simp [hd]) _ hoff
        · simp [h]

@[simp] theorem Device.seqOffNow_pool (q : Nat) : (d.seqOffNow q).stock.Pool := by simp [Device.seqOffNow, h]

@[simp] theorem Device.runEnd_pool (q : Nat) : (d.runEnd q).stock.Pool := by
  unfold Device.runEnd
  dsimp only
  (repeat' split) <;> simp [h]

@[simp] theorem Device.seqStart_pool (q : Nat) : (d.seqStart q).stock.Pool := by simp [Device.seqStart, h]

@[simp] theorem Device.remapTick_pool : d.remapTick.stock.Pool := by
  unfold Device.remapTick
  extract_lets ok due taken done stored
  have hdone : done.stock.Pool := Device.foldl_pool (fun d r hd => Device.doRemap_pool hd r) _ (by simpa [taken] using h)
  have hstored : stored.stock.Pool := by
    dsimp only [stored]
    split <;> simp [hdone]
  split
  · exact h
  · exact Device.foldl_pool (fun d r hd => by split <;> simp [hd]) _ hstored

@[simp] theorem Device.nvmRelease_pool : d.nvmRelease.stock.Pool := by
  unfold Device.nvmRelease
  extract_lets wrote inputs calibrated coeffs remaps
  have hwrote : wrote.stock.Pool := Device.foldl_pool (fun d c hd => by simp [hd]) _ h
  have hcalibrated : calibrated.stock.Pool := Device.foldl_pool (fun d c hd => by simp [hd]) _ (by simpa [inputs] using hwrote)
  have hremaps : remaps.stock.Pool := by
    dsimp only [remaps]
    split <;> simp [coeffs, hcalibrated]
  split
  · simp [h]
  · simp [hremaps]

@[simp] theorem Device.fieldTick_pool (x : FieldSense) : (d.fieldTick x).stock.Pool := by simp [Device.fieldTick, h]

end Sys2Proof.Machine
end

section
/-! The log, resets, the supply, self-test, security and the boot keep the pool (R252). -/

namespace Sys2Proof.Machine

open Sys2Proof

variable {d : Device} (h : d.stock.Pool)
include h

@[simp] theorem Device.markCheck_pool : d.markCheck.stock.Pool :=
  Device.foldl_pool (fun _ w hd => Device.finish_pool (by exact hd) w sBusy Bytes.nil) _ h

@[simp] theorem Device.bbWrite_pool : d.bbWrite.stock.Pool := by
  unfold Device.bbWrite
  dsimp only
  (repeat' split) <;> simp [h]

@[simp] theorem Device.bbCommit_pool : d.bbCommit.stock.Pool := by
  unfold Device.bbCommit
  split <;> simp [h]

@[simp] theorem Device.setStep_pool (new : Nat) (predict : Bool) : (d.setStep new predict).stock.Pool := by simp [Device.setStep, h]

@[simp] theorem Device.ladder_pool : d.ladder.stock.Pool := by simp [Device.ladder, h]

@[simp] theorem Device.thermSample_pool (temps : List Int) : (d.thermSample temps).stock.Pool := by simp [Device.thermSample, h]

@[simp] theorem Device.stepDown_pool : d.stepDown.stock.Pool := by simp [Device.stepDown, h]

omit h in
theorem Queues.pool_empty : ({} : Queues).Pool := ⟨by decide, by decide, trivial, fun _ _ h => nomatch h⟩

omit h in
@[simp] theorem Device.cleared_pool (d : Device) : d.cleared.stock.Pool := Queues.pool_empty

omit h in
@[simp] theorem Device.reboot_pool (d : Device) (cause : Cause) : (d.reboot cause).stock.Pool := by simp [Device.reboot]

@[simp] theorem Device.dropSeqs_pool : d.dropSeqs.stock.Pool := by
  unfold Device.dropSeqs
  exact Device.foldl_pool (fun d _ hd => by simp [hd]) _ h

@[simp] theorem Device.fieldWaits_pool : d.fieldWaits.stock.Pool := by
  unfold Device.fieldWaits
  extract_lets fns runs remaps cleared
  have hfns : fns.stock.Pool := Device.foldl_pool (fun d f hd => by simp [hd]) _ h
  have hruns : runs.stock.Pool := Device.foldl_pool (fun d k hd => by simp [hd]) _ hfns
  have hremaps : remaps.stock.Pool := Device.foldl_pool (fun d k hd => by simp [hd]) _ hruns
  simpa [cleared] using hremaps

@[simp] theorem Device.fieldPowerOn_pool : d.fieldPowerOn.stock.Pool := by
  unfold Device.fieldPowerOn
  extract_lets old waited loaded outs bound restarted
  have hwaited : waited.stock.Pool := Device.fieldWaits_pool (Device.dropSeqs_pool h)
  have hbound : bound.stock.Pool := by
    dsimp only [bound]
    split <;> simp [outs, loaded, hwaited]
  have hdriven := Device.foldl_pool (f := fun d k => d.driveOne k false) (fun d k hd => Device.driveOne_pool hd k false) (List.range 16)
    (d := restarted) (by simpa [restarted] using hbound)
  simpa using hdriven

@[simp] theorem Device.fieldDown_pool : d.fieldDown.stock.Pool := by simp [Device.fieldDown, h]

@[simp] theorem Device.fieldOn_pool (vs : List Nat) : (d.fieldOn vs).stock.Pool := by simp [Device.fieldOn, h]

@[simp] theorem Device.fieldOff_pool (vs : List Nat) : (d.fieldOff vs).stock.Pool := by simp [Device.fieldOff, h]

@[simp] theorem Device.fieldHot_pool (temps : List Int) : (d.fieldHot temps).stock.Pool := by simp [Device.fieldHot, h]

@[simp] theorem Device.fieldCool_pool (temps : List Int) : (d.fieldCool temps).stock.Pool := by simp [Device.fieldCool, h]

@[simp] theorem Device.nvmTimeout_pool (k : NvmKind) : (d.nvmTimeout k).stock.Pool := by
  unfold Device.nvmTimeout
  dsimp only
  (repeat' split) <;> simp [h]

@[simp] theorem Device.ramTest_pool (fails : Bool) : (d.ramTest fails).stock.Pool := by simp [Device.ramTest, h]

@[simp] theorem Device.nvmRead_pool : d.nvmRead.stock.Pool := by simp [Device.nvmRead, h]

@[simp] theorem Device.nvmCheck_pool : d.nvmCheck.stock.Pool := by simp [Device.nvmCheck, h]

@[simp] theorem Device.dropHeld_pool (n : Nat) (held : List Nat → List Nat → Bool) : (d.dropHeld n held).stock.Pool := by
  refine Device.foldl_pool (fun d p hd => Device.dropPartial_pool hd ..) _ (Device.foldl_pool (fun d u hd => ?_) _ h)
  refine Device.dropUnit_pool ?_ ..
  split <;> simp [hd]

omit h in
/-- The first number no cell in use has, where it is one of the pool's, is free. -/
theorem Queues.free_of_head {qs : Queues} {c : Nat} (hc : c = (freeNumbers qs.usedCells 0 1).headD 32768) (hlt : c < 32768) (m : Nat) :
    ¬ (qs.get m).Holds c := by
  intro hm
  cases hf : freeNumbers qs.usedCells 0 1 with
  | nil =>
    rw [hf] at hc
    exact absurd hlt (by simp [hc])
  | cons a t =>
    obtain ⟨hnot, -⟩ := mem_freeNumbers (sortNats_sorted _) (hf ▸ List.mem_cons_self : a ∈ freeNumbers qs.usedCells 0 1)
    rw [hf, List.headD_cons] at hc
    exact hnot (Queues.mem_usedCells.2 (.inr ⟨_, Queues.mem_of_holds hm, hc ▸ hm⟩))

@[simp] theorem Device.freeCell_pool (c : Nat) : (d.freeCell c).stock.Pool := by
  unfold Device.freeCell
  split
  · exact h
  · extract_lets full new
    split
    · exact Device.dropHeld_pool h ..
    · next p hp hroom =>
      have hnew : new < 32768 := by simp at hroom; omega
      refine Queues.Pool.put h fun x hx => ?_
      obtain ⟨k, hk, rfl⟩ := Queue.holds_renumber hx
      split
      · exact .inr ⟨hnew, Queues.free_of_head rfl hnew⟩
      · exact .inl hk

@[simp] theorem Device.freeDesc_pool (x : Nat) : (d.freeDesc x).stock.Pool := by
  unfold Device.freeDesc
  split
  · exact h
  · dsimp only
    split
    · exact Device.dropHeld_pool h ..
    · refine Device.modQ_pool h fun c hc => ?_
      obtain ⟨k, hk, rfl⟩ := Queue.holds_renumber hc
      exact hk

@[simp] theorem Device.withdrawRegion_pool (idx : Nat) : (d.withdrawRegion idx).1.stock.Pool := by
  have hcells : idx < 2048 → ({ qs := d.qs.qs, lostCells := insertNat idx d.qs.lostCells } : Queues).Pool := fun hidx =>
    h.of_less h.keys (fun g hg => (mem_insertNat.1 hg).elim (fun e => e ▸ hidx) ((Queues.pool_iff.1 h).lost g)) fun _ _ => id
  unfold Device.withdrawRegion
  split
  · next hidx =>
    dsimp only
    exact Device.foldl_pool (fun d c hd => Device.freeCell_pool hd c) _ (by simpa using hcells hidx)
  · split
    · dsimp only
      exact Device.foldl_pool (fun d c hd => Device.freeDesc_pool hd c) _ (by simpa using h)
    · split <;> simpa using h

@[simp] theorem Device.markUnit_pool (cls idx : Nat) : (d.markUnit cls idx).1.stock.Pool := by
  unfold Device.markUnit
  dsimp only
  (repeat' split) <;> simp [h]

@[simp] theorem Device.slicePass_pool (n : Nat) (w : Word) : (d.slicePass n w).1.stock.Pool := by
  unfold Device.slicePass
  dsimp only
  (repeat' split) <;> simp [h]

@[simp] theorem Device.sliceFail_pool (n unit : Nat) (w : Word) : (d.sliceFail n unit w).1.stock.Pool := by
  unfold Device.sliceFail
  split <;> simp [h]

@[simp] theorem Device.sliceEnd_pool (r : SliceResult) : (d.sliceEnd r).1.stock.Pool := by
  unfold Device.sliceEnd
  dsimp only
  (repeat' split) <;> simp [h]

@[simp] theorem Device.sliceStopped_pool (seen : Option Nat) (stop : Device) (hs : stop.stock.Pool) : (d.sliceStopped seen stop).1.stock.Pool := by
  unfold Device.sliceStopped
  split <;> simp [h, hs]

@[simp] theorem Device.sliceService_pool (bus : Bool) (seen : Option Nat) : (d.sliceService bus seen).1.stock.Pool := by
  unfold Device.sliceService
  split <;> simp [h]

@[simp] theorem Device.slicePrecond_pool (cause : Nat) (seen : Option Nat) : (d.slicePrecond cause seen).1.stock.Pool := by
  unfold Device.slicePrecond
  split <;> simp [h]

@[simp] theorem Device.duplicateMismatch_pool (which : Nat) : (d.duplicateMismatch which).stock.Pool := by simp [Device.duplicateMismatch, h]

@[simp] theorem Device.directedDone_pool (vs : List DirectedVerdict) : (d.directedDone vs).stock.Pool := by
  unfold Device.directedDone
  split <;> simp [h]

@[simp] theorem Device.shutdown_pool (cause : Cause) : (d.shutdown cause).stock.Pool := by simp [Device.shutdown, h]

@[simp] theorem Device.removed_pool (at_ : Nat) (cause : Cause) : (d.removed at_ cause).stock.Pool := by simp [Device.removed, h]

omit h in
@[simp] theorem Device.aonMinimum_pool (d : Device) : d.aonMinimum.stock.Pool := by simp [Device.aonMinimum]

@[simp] theorem Device.railFault_pool (r mv : Nat) : (d.railFault r mv).stock.Pool := by simp [Device.railFault, h]

@[simp] theorem Device.thermTrip_pool (sdC sdP : Int) : (d.thermTrip sdC sdP).stock.Pool := by simp [Device.thermTrip, h]

@[simp] theorem Device.blockToDefault_pool : d.blockToDefault.stock.Pool := by simp [Device.blockToDefault, h]

@[simp] theorem Device.sealedToDefault_pool (cmdId slot : Nat) : (d.sealedToDefault cmdId slot).stock.Pool := by simp [Device.sealedToDefault, h]

@[simp] theorem Device.lcEffects_pool (target cmdId slot : Nat) : (d.lcEffects target cmdId slot).stock.Pool := by simp [Device.lcEffects, h]

omit h in
@[simp] theorem Device.advance_pool (old new : Device) (h : new.stock.Pool) : (old.advance new).stock.Pool := by
  unfold Device.advance
  split
  · extract_lets was slot advanced answered closed
    have hadvanced : advanced.stock.Pool := by simp [advanced, h]
    have hanswered : answered.stock.Pool := by simp [answered, hadvanced]
    have hclosed : closed.stock.Pool := by
      dsimp only [closed]
      split
      · exact Device.foldl_pool (fun d n hd => by simpa using hd) _ hanswered
      · exact hanswered
    simpa using hclosed
  · exact h

omit h in
@[simp] theorem Device.advanceAndReset_pool (old new : Device) (h : new.stock.Pool) : (old.advanceAndReset new).stock.Pool := by
  simp [Device.advanceAndReset, h]

@[simp] theorem Device.debugUnlock_pool (response : BitVec 128) : (d.debugUnlock response).stock.Pool := by
  unfold Device.debugUnlock
  dsimp only
  (repeat' split) <;> simp [h]

@[simp] theorem Device.eraseDone_pool (c : Component) : (d.eraseDone c).stock.Pool := by simp [Device.eraseDone, h]

@[simp] theorem Device.verifyDone_pool (c : Component) : (d.verifyDone c).stock.Pool := by
  unfold Device.verifyDone
  dsimp only
  (repeat' split) <;> simp [h]

@[simp] theorem Device.switchStart_pool : d.switchStart.stock.Pool := by simp [Device.switchStart, h]

@[simp] theorem Device.switchDone_pool : d.switchDone.stock.Pool := by
  unfold Device.switchDone
  split <;> simp [h]

@[simp] theorem Device.sealStart_pool : d.sealStart.stock.Pool := by simp [Device.sealStart, h]

@[simp] theorem Device.completeFuses_pool : d.completeFuses.stock.Pool := by
  unfold Device.completeFuses
  exact Device.foldl_pool (fun d _ hd => by simp [hd]) _ h

@[simp] theorem Device.bootFuses_pool (fusesOk : Bool) : (d.bootFuses fusesOk).stock.Pool := by simp [Device.bootFuses, h]

omit h in
/-- Regions a class's marks name are numbered from the first of the range asked for (R366). -/
theorem Bist.lt_of_markedIn {b : Bist} {cls lo n x : Nat} (hx : x ∈ b.markedIn cls lo n) : x < n := by
  unfold Bist.markedIn at hx
  revert x
  refine List.foldlRecOn (motive := fun l : List Nat => ∀ {x}, x ∈ l → x < n) _ _
    (fun hx => absurd hx List.not_mem_nil) fun l hl m hm x hx => ?_
  obtain ⟨-, hin⟩ := List.mem_filter.1 hm
  simp only [Bool.and_eq_true, decide_eq_true_eq] at hin
  rcases mem_insertNat.1 hx with rfl | hx
  · omega
  · exact hl hx

@[simp] theorem Device.bootMap_pool : d.bootMap.stock.Pool := by
  unfold Device.bootMap
  extract_lets b checked marked unmarked m spares src lost
  have hspares : spares.stock.Pool := by
    have hunmarked : unmarked.stock.Pool := Device.foldl_pool (fun d u hd => by simpa using hd) _ (by simpa [marked, checked] using h)
    simpa [spares] using hunmarked
  have hlost : lost.stock.Pool := Queues.Pool.of_less hspares hspares.keys (fun g hg => Bist.lt_of_markedIn hg) fun _ _ => id
  simpa using hlost

@[simp] theorem Device.autostart_pool (p : Nat) : (d.autostart p).stock.Pool := by simp [Device.autostart, h]

@[simp] theorem Device.bootGeneral_pool : d.bootGeneral.stock.Pool := by
  have hmap : d.bootCal.bootMap.stock.Pool := Device.bootMap_pool (by simpa using h)
  unfold Device.bootGeneral
  extract_lets mapped checked started begun
  have hstarted : started.stock.Pool := Device.autostart_pool (Device.autostart_pool (by simpa [checked, mapped] using hmap) 0) 1
  simpa [begun] using hstarted

@[simp] theorem Device.boot_pool (env : BootEnv) : (d.boot env).stock.Pool := by simp [Device.boot, h]

@[simp] theorem Device.withdrawStart_pool (f : FnId) : (d.withdrawStart f).stock.Pool := by
  unfold Device.withdrawStart
  split <;> simp [h]

@[simp] theorem Device.startOf_pool (i : FnId) : (d.startOf i).stock.Pool := by
  unfold Device.startOf
  split <;> simp [h]

@[simp] theorem Device.restart_pool (f : FnId) : (d.restart f).stock.Pool := by
  unfold Device.restart
  (repeat' split) <;> simp [h]

end Sys2Proof.Machine
end

section
/-! Commands keep the pool (R252, R255). -/

namespace Sys2Proof.Machine

open Sys2Proof

/-- A write of MRAM, refused or not, keeps the pool where the write does. -/
@[simp] theorem Device.mram_pool {d : Device} (h : d.stock.Pool) (general : Bool) {write : Device → Device}
    (hw : ∀ d, d.stock.Pool → (write d).stock.Pool) : (d.mram general write).stock.Pool := by
  unfold Device.mram
  split
  · exact h
  · exact hw _ (by simpa using h)

/-- What the checks let a command do keeps the pool. -/
theorem wcpRow?_pool {i : Instr} {r : WcpRow} (hr : wcpRow? i = some r) (c : Ctx) (p : Bytes) {d : Device} (h : d.stock.Pool) :
    (r.cmd.run c p d).1.stock.Pool := by
  cases i <;> cases hr
  case sysSessionStatus | sysResultGet | sysSessionOpen | sysPolicySet | sysEventMaskSet | sysReset | scanPlanGet | fireStatusGet |
      fireDoseGet | scanCalendarGet | scanPlanSelect | fireDitherSet | fireEmitterSet | scanFollowSet | rxStatusGet | rxLayoutGet |
      rxMaskGet | rxSurveyGet | rxCoincGet | rxLensGet | rxConfigSet | rxLayoutSet | rxCoincSet | rxMaskWrite | rxWitnessSet |
      rxChannelRetire | rxVbdMeasure | histStatusGet | histPlanecfgGet | histGateGet | histPlaneRead | histTrackGet | histPlanecfgSet |
      histGateSet | histPlaneSend | histTrackClear | retStatusGet | retTemplateGet | zoneMapGet | zoneStateGet | retConfigGet |
      retConfigSet | retTemplateSet | retWindowLearn | calStatusGet | calCoeffGet | calResultGet | calCoeffWrite | calFullStart |
      ringStatusGet | ringPortGet | ringMembersGet | ringResvGet | ringConfigSet | qStatusGet | qSubsGet | qPoolGet | camStatusGet |
      camFsyncSet | lampStatusGet | lampBlockGet | lampRulesGet | bridgeStatusGet | lampBlockWrite | lampRequestSet |
      inStatusGet | inConfigGet | adcStatusGet | adcResultGet | adcSeqGet | adcCalGet | adcCaptureGet | adcConfigSet | adcTimerSet |
      adcExcSet | adcCalRun | adcCaptureArm | bistStatusGet | bistUnusableGet | bistResultGet | fwStatusGet | fwStageVerify | fwSwitch |
      pwrStatusGet | thermStatusGet | thermConfigSet | pwrStandby | logStatusGet | logRead | logFfRead => exact h
  case sysIdentGet | sysStatusGet | scanPlanCommit | fireEnable | scanTriggerSet | scanFrameTrigger | scanCalendarSet =>
    simp [h, cmdIdent, cmdStatus, cmdPlanCommit, cmdFireEnable, cmdTriggerSet, cmdFrameTrigger, cmdCalendarSet]
  case fireDisable => exact Device.disableFn_pool h .fire true _ fun d hd => by simp [hd]
  case fireKillClear => exact Device.mram_pool h true fun d hd => hd
  case fireStripeClear => exact Device.mram_pool h true fun d hd => hd
  case rxChannelRestore => exact Device.mram_pool h true fun d hd => hd
  case rxVbdSet | histExportSet | histExportEnable | histExportDisable | histPlaneHold | histPlaneRelease |
      histImportSet | retPointsSet | retRawSet | calCoeffCommit | calFullAbort =>
    simp +contextual [h, cmdVbdSet, cmdExportSet, cmdExportEnable, cmdExportDisable, cmdPlaneHold, cmdPlaneRelease,
      cmdImportSet, cmdPointsSet, cmdRawSet, cmdCalCoeffCommit, cmdCalFullAbort]
  case qConfigSet => exact Device.modQ_pool_same h (fun _ => rfl) fun _ => rfl
  case qDisable => exact Device.disableFn_pool h _ true _ fun d hd => Device.queueStop_pool hd _
  case ringPortSet | ringPortEnable | ringPortDisable | ringResvSet | ringResvClear | ringRouteRebalance | qEnable | qUnsubscribe | qRead |
      camEnable | camDisable =>
    simp +contextual [h, Device.foldl_pool, cmdRingPortSet, cmdRingPortEnable, cmdRingPortDisable, cmdRingResvSet, cmdRingResvClear,
      cmdRebalance, cmdQEnable, cmdQUnsubscribe, cmdQRead, cmdCamEnable, cmdCamDisable]
  case camPortSet =>
    have hfree := Device.foldl_pool (f := fun d q => d.bind (.cam (p.word 0)) q 0xFFFF) (fun d q hd => Device.bind_pool hd ..)
      (routeQueues (d.cam (p.word 0)).cfg.toNat) h
    have hbound := Device.foldl_pool (f := fun d q => d.bind (.cam (p.word 0)) 0xFFFF q) (fun d q hd => Device.bind_pool hd ..)
      (routeQueues (p.slice 4 32).val) hfree
    simpa [cmdCamPortSet] using hbound
  case lampBlockCommit | lampFaultClear | lampRemapSet | adcEnable | adcDisable | adcSeqSet | adcSeqEnable | adcSeqDisable
      | adcSeqTrigger | adcExcEnable | adcExcDisable =>
    simp +contextual [h, cmdBlockCommit, cmdFaultClear, Device.clearLatched, cmdRemapSet, cmdAdcEnable, cmdAdcDisable, cmdSeqSet,
      cmdSeqEnable, cmdSeqDisable, Device.seqStop, cmdSeqTrigger, cmdExcEnable, cmdExcDisable]
  case streamEventsSet | streamMirrorSet | bistUnusableClear | secStatusGet | sealIdentGet | fwStageBegin |
      fwStageWrite | fwConfirm | sealResvSet | logMark | lcAdvance =>
    simp [h, cmdEventsSet, cmdMirrorSet, cmdUnusableClear, cmdSecStatus, cmdSealIdent, cmdStageBegin,
      cmdStageWrite, cmdFwConfirm, cmdSealResvSet, cmdLogMark, cmdAdvance]
  case sysSessionClose | rxMaskCommit | qSubscribe | lampRemapClear | inConfigSet | adcCalCommit | bistDirectedRun | secKeyWrite |
      thermSensorRestore =>
    dsimp only [cmdSessionClose, cmdMaskCommit, cmdQSubscribe, cmdRemapClear, cmdInConfigSet, cmdAdcCalCommit, cmdDirectedRun,
      cmdKeyWrite, cmdSensorRestore]
    split <;> simp [h, Device.writeKey]
  case scanPlanWrite =>
    dsimp only [cmdPlanWrite, Fire.writePlan]
    split <;> exact h
  case logCountersGet =>
    dsimp only [cmdLogCounters]
    exact Device.foldl_pool (f := Device.counterRead) (fun d i hd => by simpa using hd) _ h
  case fireBudgetSet | rxLensSet | zoneMapSet | lampRulesSet | bistConfigSet | sealResvClear =>
    simp +contextual [h, cmdBudgetSet, cmdLensSet, cmdZoneMapSet, cmdRulesSet, cmdBistConfig, cmdSealResvClear]

end Sys2Proof.Machine
end

section
/-! Sealed commands that waited, the command protocol and the rows keep the pool. -/

namespace Sys2Proof.Machine

open Sys2Proof

/-! The protocol. -/

/-- A command whose effect keeps the pool. -/
def Cmd.Pools (c : Cmd) : Prop := ∀ (ctx : Ctx) (p : Bytes) {d : Device}, d.stock.Pool → (c.run ctx p d).1.stock.Pool

/-- An order of its own for sys.session.open that keeps the pool. -/
def OpensPool (opens : Env → Device → Device × Bytes) : Prop := ∀ (e : Env) {d : Device}, d.stock.Pool → (opens e d).1.stock.Pool

section
variable {c : Cmd} (hc : c.Pools) {d : Device} (h : d.stock.Pool)
include hc h

theorem Cmd.execute_pool (ctx : Ctx) (p : Bytes) : (c.execute ctx p d).1.stock.Pool := by
  unfold Cmd.execute
  split
  · exact h
  · split
    · exact h
    · split
      · exact h
      · exact hc ctx p h

theorem Cmd.tracked_pool (e : Env) : (c.tracked e d).1.stock.Pool := by
  unfold Cmd.tracked
  extract_lets ctx r
  have hr : r.1.stock.Pool := Cmd.execute_pool hc (by simpa using h) ctx e.payload
  split
  · split
    · simpa using h
    · simpa using hr
  · exact hr

theorem Cmd.untracked_pool (e : Env) : (c.untracked e d).1.stock.Pool := by
  unfold Cmd.untracked
  dsimp only
  split
  · exact Cmd.execute_pool hc h _ _
  · exact h

variable {opens : Env → Device → Device × Bytes} (ho : OpensPool opens)
include ho

theorem Cmd.sessionless_pool (e : Env) : (c.sessionless opens e d).1.stock.Pool := by
  unfold Cmd.sessionless
  split
  · exact ho e h
  · split
    · exact Cmd.untracked_pool hc h e
    · exact h

theorem Cmd.handle_pool (e : Env) : (c.handle opens e d).1.stock.Pool := by
  unfold Cmd.handle
  extract_lets now plain s key tagged queried served handled
  have hserved : served.stock.Pool := by simpa [served] using h
  split
  · exact h
  · split
    · exact Cmd.sessionless_pool hc h ho e
    · split
      · exact h
      · split
        · exact Cmd.untracked_pool hc h e
        · split
          · exact hserved
          · split
            · split
              · simpa using hserved
              · exact hserved
            · split
              · exact hserved
              · split
                · exact hserved
                · exact Cmd.tracked_pool hc hserved e

end

/-! Sealed commands that waited (R388). -/

/-- A sealed-change command keeps the pool, as its row's command does. -/
theorem sealedCmds_pool : ∀ c ∈ sealedCmds, c.Pools := by
  have hrow : ∀ (i : Instr) (r : WcpRow), wcpRow? i = some r → r.cmd.Pools := fun i r hr ctx p d h => wcpRow?_pool hr ctx p h
  intro c hc
  simp only [sealedCmds, List.mem_cons, List.not_mem_nil, or_false] at hc
  rcases hc with rfl | rfl | rfl | rfl | rfl | rfl | rfl | rfl | rfl | rfl | rfl | rfl | rfl | rfl | rfl
  · exact hrow (.fireBudgetSet 0 .q0) _ rfl
  · exact hrow (.rxLensSet 0 .q0) _ rfl
  · exact hrow (.zoneMapSet 0 .q0) _ rfl
  · exact hrow (.lampBlockWrite 0 .q0) _ rfl
  · exact hrow (.lampBlockCommit 0 .q0) _ rfl
  · exact hrow (.lampRulesSet 0 .q0) _ rfl
  · exact hrow (.bistConfigSet 0 .q0) _ rfl
  · exact hrow (.secKeyWrite 0 .q0) _ rfl
  · exact hrow (.fwStageBegin 0 .q0) _ rfl
  · exact hrow (.fwStageWrite 0 .q0) _ rfl
  · exact hrow (.fwStageVerify 0 .q0) _ rfl
  · exact hrow (.fwSwitch 0 .q0) _ rfl
  · exact hrow (.fwConfirm 0 .q0) _ rfl
  · exact hrow (.sealResvSet 0 .q0) _ rfl
  · exact hrow (.sealResvClear 0 .q0) _ rfl

section
variable {d : Device} (h : d.stock.Pool)
include h

theorem Device.runDeferred_pool (x : Deferred) : (d.runDeferred x).stock.Pool := by
  unfold Device.runDeferred
  split
  · next c w hc _ =>
    extract_lets ctx r
    have hr : r.1.stock.Pool := Cmd.execute_pool (sealedCmds_pool c (List.mem_of_find?_eq_some hc)) (by simpa using h) ctx x.payload
    split
    · rw [Device.closeWritten_stock]
      exact Device.finish_pool (by exact hr) ..
    · exact hr
  · exact h

omit h in
theorem Device.runAllDeferred_pool (l : List Deferred) {d : Device} (h : d.stock.Pool) : (d.runAllDeferred l).stock.Pool := by
  induction l generalizing d with
  | nil => exact h
  | cons x t ih =>
    unfold Device.runAllDeferred
    split
    · simpa using h
    · exact ih (Device.runDeferred_pool h x)

@[simp] theorem Device.sealedEnds_pool : d.sealedEnds.stock.Pool := by
  unfold Device.sealedEnds
  split
  · exact h
  · exact Device.runAllDeferred_pool _ (by simpa using h)

@[simp] theorem Device.sealRunning_pool : d.sealRunning.stock.Pool := by
  unfold Device.sealRunning
  split
  · split
    · exact h
    · exact Device.sealedEnds_pool (Device.complete_pool (by simpa using h) ..)
  · exact h

@[simp] theorem Device.sealFailed_pool : d.sealFailed.stock.Pool := by
  unfold Device.sealFailed
  split
  · exact h
  · split
    · exact h
    · exact Device.sealedEnds_pool (Device.complete_pool (by simpa using h) ..)

@[simp] theorem Device.topo_pool (p type : Nat) (f : BitVec 512) {act : Device → Device} (hact : ∀ d, d.stock.Pool → (act d).stock.Pool) :
    (d.topo p type f act).stock.Pool := by
  unfold Device.topo
  split
  · exact h
  · refine hact _ ?_
    split <;> simpa using h

end

/-! The rows. -/

/-- Where a row answers a next state, the pool stands as the invariant says. -/
def RowPools (x : Host.Outcome State Fault Refusal) : Prop := ∀ t, x = .next t → t.dev.stock.Pool

theorem RowPools.ite {c : Prop} [Decidable c] {x y : Host.Outcome State Fault Refusal} (hx : RowPools x) (hy : RowPools y) :
    RowPools (if c then x else y) := by
  split <;> assumption

/-- What follows every step keeps the pool. -/
theorem State.settle_pool {u : State} (h : u.dev.stock.Pool) (old : Device) : RowPools (.next (u.settle old)) := by
  intro t ht
  cases ht
  exact Device.mirrorOut_pool (Device.closeFull_pool h 17) 8

theorem State.deliver_pool {s : State} (h : s.dev.stock.Pool) (o : Origin) (path : Path) (r : Bytes) : (s.deliver o path r).dev.stock.Pool := by
  unfold State.deliver
  split
  · exact h
  · split <;> simp [h]
  · exact h

section
variable {s : State} (h : s.dev.stock.Pool) {dt : Nat} {f : Device → Device}
include h

theorem devRow_pool (hf : ∀ d : Device, d.stock.Pool → (f d).stock.Pool) : RowPools (devRow dt f s) :=
  State.settle_pool (hf (s.elapse dt).dev h) _

theorem coreRow_pool (hf : ∀ d : Device, d.stock.Pool → (f d).stock.Pool) : RowPools (coreRow dt f s) :=
  devRow_pool h fun d hd => by split <;> simp [hf, hd]

theorem fwRow_pool (hf : ∀ d : Device, d.stock.Pool → (f d).stock.Pool) : RowPools (fwRow dt f s) :=
  devRow_pool h fun d hd => by split <;> simp [hf, hd]

theorem fieldRow_pool (hf : ∀ d : Device, d.stock.Pool → (f d).stock.Pool) : RowPools (fieldRow dt f s) :=
  devRow_pool h fun d hd => by split <;> simp [hf, hd]

theorem topoRow_pool {p : Port} {type : Nat} {flit : BitVec 512} (hf : ∀ d : Device, d.stock.Pool → (f d).stock.Pool) :
    RowPools (topoRow dt p type flit f s) :=
  coreRow_pool h fun _ hd => Device.topo_pool hd _ _ _ hf

theorem hostRow_pool {g : State → State} (hg : ∀ t, (g t).dev = t.dev) : RowPools (hostRow dt g s) := by
  refine State.settle_pool ?_ _
  split
  · rw [hg]
    exact h
  · exact h

theorem resetRow_pool {act : Device → Option Device} (hact : ∀ d x : Device, d.stock.Pool → act d = some x → x.stock.Pool) :
    RowPools (resetRow dt act s) := by
  unfold resetRow
  dsimp only
  split
  · next d hd =>
    intro t ht
    cases ht
    exact hact (s.elapse dt).dev d h hd
  · exact State.settle_pool (u := s.elapse dt) h _

theorem sliceRowEnd_pool {act : Device → Device × Bool} (hact : ∀ d : Device, d.stock.Pool → (act d).1.stock.Pool) :
    RowPools (sliceRowEnd dt act s) := by
  have hend : (act (s.elapse dt).dev).1.stock.Pool := hact (s.elapse dt).dev h
  unfold sliceRowEnd
  extract_lets x
  split
  · exact resetRow_pool h fun d x _ hx => by cases hx; simp
  · exact coreRow_pool h fun _ _ => hend

theorem wcpRowThen_pool {o : Origin} {c : Cmd} {opens : Env → Device → Device × Bytes} {after : Device → Device → Device}
    (hc : c.Pools) (ho : OpensPool opens) (ha : ∀ old new : Device, new.stock.Pool → (after old new).stock.Pool) :
    RowPools (wcpRowThen dt o c opens after s) := by
  refine State.settle_pool ?_ _
  split
  · exact h
  · next e _ =>
    split
    · exact ha _ _ (State.deliver_pool (Cmd.handle_pool (d := (s.elapse dt).dev) hc h ho e) ..)
    · exact h

end

theorem WcpRow.opens_pool {i : Instr} {r : WcpRow} (hr : wcpRow? i = some r) : OpensPool r.opens := by
  intro e d h
  cases i <;> cases hr
  case sysSessionOpen => simpa using h
  all_goals exact h

theorem WcpRow.after_pool {i : Instr} {r : WcpRow} (hr : wcpRow? i = some r) (old new : Device) (h : new.stock.Pool) :
    (r.after old new).stock.Pool := by
  cases i <;> cases hr
  case sysReset | bistDirectedRun | secKeyWrite | pwrStandby | lcAdvance => simp [h]
  all_goals exact h

/-- A device that a guard brings. -/
theorem Device.pool_of_guarded {c : Prop} [Decidable c] {x y : Device} (h : (if c then some y else none) = some x) (hy : y.stock.Pool) :
    x.stock.Pool := by
  split at h
  · cases h
    exact hy
  · cases h

/-- The rows that answer no command. -/
theorem exec_pool_rest (c : Instr) {s : State} (h : s.dev.stock.Pool) (hr : wcpRow? c = none) : RowPools (exec c s) := by
  cases c <;> dsimp only [exec]
  case hifDbWrite | hifMbRelWrite | hifEvtRdWrite => exact hostRow_pool h fun t => t.hostWrite_dev _ _
  case hifTimeLoRead | hifEvtLostRead | mbWindowWrite | registerWrite => exact hostRow_pool h fun t => t.transaction_dev _ _ _
  case hostCsNRelease =>
    refine State.settle_pool ?_ _
    split <;> exact h
  case badOp =>
    refine hostRow_pool h fun t => ?_
    split
    · rfl
    · exact t.transaction_dev _ _ _
  case undefinedCommandId =>
    unfold execUndefinedCommandId
    dsimp only
    split
    · exact .ite (devRow_pool h fun _ => id) (wcpRowThen_pool h (fun _ _ _ => id) (fun _ _ => id) (fun _ _ => id))
    · exact devRow_pool h fun _ => id
  case commandedResetTimer | switchoverTimeout =>
    refine resetRow_pool h fun d x _ hx => ?_
    split at hx
    · exact Device.pool_of_guarded hx (d.reboot_pool _)
    · cases hx
  case powerRemoval =>
    refine resetRow_pool h fun d x hd hx => ?_
    split at hx
    · exact Device.pool_of_guarded hx (Device.removed_pool hd ..)
    · cases hx
  case deviceReset | lockstepMismatch =>
    exact resetRow_pool h fun d x _ hx => Device.pool_of_guarded hx (d.reboot_pool _)
  case aonMinimum =>
    refine resetRow_pool h fun d x _ hx => ?_
    cases hx
    simp
  case rstNAssert =>
    refine .ite (resetRow_pool h fun d x _ hx => ?_) (devRow_pool h fun d hd => by simp [hd, Device.rstAssert])
    cases hx
    simp [Device.rstAssert]
  case functionRestart => exact .ite (fieldRow_pool h fun d hd => by simp [hd]) (coreRow_pool h fun d hd => by simp [hd])
  case sliceEnd => exact sliceRowEnd_pool h fun d hd => Device.sliceEnd_pool hd _
  case sliceServiceAbort => exact sliceRowEnd_pool h fun d hd => Device.sliceService_pool hd _ _
  case slicePreconditionLoss => exact sliceRowEnd_pool h fun d hd => Device.slicePrecond_pool hd _ _
  case bridgeCycle side | chan0RepeatTimeout side =>
    cases side
    · exact coreRow_pool h fun d hd => by simp [hd]
    · exact fieldRow_pool h fun d hd => by simp [hd]
  case bulkFrame side _ =>
    cases side
    · exact coreRow_pool h fun d hd => by simp [hd]
    · exact fieldRow_pool h fun d hd => by simp [hd]
  case leaseExpiry | creditTmoExpiry | creditResetSenderTimer | groupAccumulationEnd | standbyShutdown =>
    refine coreRow_pool h fun d hd => ?_
    (repeat' split) <;> simp [hd]
  case creditResetReceiverTimer =>
    refine coreRow_pool h fun d hd => ?_
    dsimp only
    split
    · rw [Device.grant_stock]
      exact Device.modQ_pool hd fun c hc => hc.of_same_partial
    · exact hd
  case camStopTimeout =>
    refine coreRow_pool h fun d hd => ?_
    split
    · refine Device.camOff_pool ?_ ..
      split <;> simp [hd]
    · exact hd
  case onTimeTick | camStartTimeout =>
    refine coreRow_pool h fun d hd => ?_
    split <;> simp [hd]
  case periodUnitClose =>
    refine fieldRow_pool h fun d hd => ?_
    split <;> simp [hd]
  case linkFailure =>
    refine coreRow_pool h fun d hd => ?_
    split <;> simp [hd]
  case emitFaultNAssert => exact devRow_pool h fun d hd => Device.emitFaultPin_pool hd _
  case responseRetry | sessionIdleTimeout | sessionOpenTimeout | rxVbdMeasureDone | bbRecordWrite | fwEraseDone | fwVerifyDone |
      switchoverStart | switchoverDone =>
    exact fwRow_pool h fun d hd => by simp [hd]
  case breakMsg | joinReq | leave | resvAns | resvReq | joinAck | heal | members | calendar | allowance | elect =>
    exact topoRow_pool h fun d hd => by simp [hd]
  case holdoffAutoTimer | surveyPassStart | surveyPassDone | linearisationUpdate | witnessIntervalEnd | exportStopTimeout | planeHoldTimeout |
      eventWordAccumulate | zoneBlindTimeout | windowLearnDone | referencePassStart | referencePassDone | refStaleTimeout | calFullDone |
      pairHandover | retProcessingStart | retProcessingEnd | exportChunkEnqueue | importChunkDequeue | importSliceStart | importUnitDone |
      armLeadExpiry | witnessStrayEvent | shot | eventReportWindowEnd |
      internalTrigger | frameSyncAssert | calendarInstant | calendarEpoch | fireStopDone | doseSubwindowBoundary | biasFault | biasFaultClear |
      frameStart | shotQueueEnqueue | groupStart | photonEvent | signalDetect | markerLock | timeFlit | timeHoldoverTimeout | creditFlit |
      headLossTimeout | noHeadReport | degradeWindow | joinRetryTimer | nodeHoldExpiry | membersRepeat |
      calendarRepeat | ringPortStopDone | ringFrameReceive | trainingComplete | electTimeout | linkDelayAveraged | marker |
      startingRetryTimer | superframe | timeServoUpdate |
      cellRequest | inboundFrameAppend | partialUnitTimeout | unitDelivered | qStopTimeout | q1Reset | q1Resync |
      eventUnitClose | csi2Packet | camFsyncPulse | fieldToCoreControlFrame | coreSilenceTimeout | bbRecordCommit | thermStepDown | sliceStart |
      coverMaxExpiry | idleGap | duplicateMismatch | directedRunDone | debugUnlock | sealedSwitchover | aspectEvaluation |
      sealedComponentRunning | sealedStartTimeout =>
    exact coreRow_pool h fun d hd => by simp [hd]
  case coreToFieldControlFrame | fieldWatchdogExpiry | safeStateApply | aspectApply | supervisionSample | diagSlot | litWhenDark |
      currentLimitTimeout | switchOvertemp | switchCooled | cleanMsExpiry | sagBegin | sagEnd | uvOff | uvRecovery | softStartStep |
      outputStopDone | patternPhase | pwmPeriod | fieldBlockCommitDone | inputSample | periodTimeout | backgroundCalibration | adcStartDone |
      adcStopDone | adcCalRunDone | captureStart | captureEnd | captureTimeout | excHalf | blankNAssert | blankNRelease | blankHoldExpiry |
      blankMaxExpiry | adcTimerTick | adcTrigAssert | seqRunStart | seqEntryStart | seqEntryDone | seqRunEnd | fieldTick |
      fieldThermalStop | nvmCommitWaitTimeout | fieldRamTest | fieldNvmCheck =>
    exact fieldRow_pool h fun d hd => by simp [hd]
  case thermalSample | rstNRelease | fieldPowerOn | fieldPowerLoss | fieldThermalRestart | shutdownImminent | vbatStart | vbatLowWarning |
      vbatLowClear | vbatPowerFail | vbatOvervoltage | minOffTimeExpiry | railWarning | railWarningEnd | railFault | wakeAssert | hwThermalTrip
      | hwThermalRestart | boot =>
    exact devRow_pool h fun d hd => by simp [hd]
  all_goals cases hr

/-- Every row keeps the pool. -/
theorem exec_pool (c : Instr) {s : State} (h : s.dev.stock.Pool) : RowPools (exec c s) := by
  cases hr : wcpRow? c with
  | some r =>
    rw [exec_wcpRow c r hr]
    exact wcpRowThen_pool h (fun ctx p d hd => wcpRow?_pool hr ctx p hd) (WcpRow.opens_pool hr) (WcpRow.after_pool hr)
  | none => exact exec_pool_rest c h hr

/-- A step is a row, or leaves a state without commands as it is. -/
theorem step_pool {s : State} (h : s.dev.stock.Pool) : RowPools (step s) := by
  unfold step
  split
  · intro t ht
    cases ht
    exact h
  · exact exec_pool _ h

/-- Settles O55: the pool is empty after a reset, and every row keeps it, by what the row does to each queue's cells. -/
theorem poolInvariant : Obligations.PoolInvariant := by
  unfold Obligations.PoolInvariant
  exact ⟨Queues.pool_empty, fun s t h hstep => Device.stock_pool.1 (step_pool (Device.stock_pool.2 h) t hstep)⟩

end Sys2Proof.Machine
end

section
/-! A request within a queue's RESERVE that finds no cell (R254, R255): withdrawn regions have left none (R367, log entry 173). -/

namespace Sys2Proof.Machine

open Sys2Proof

/-- With every group of cells withdrawn, none is left. -/
theorem Queues.usedCells_withdrawn {qs : Queues} (h : ∀ g, g < 2048 → g ∈ qs.lostCells) : 32768 ≤ qs.usedCells.length := by
  have hall : List.range 32768 ⊆ qs.usedCells := fun c hc =>
    Queues.mem_usedCells.2 (.inl ⟨c / 16, h _ (by have := List.mem_range.1 hc; omega), by omega, by omega⟩)
  simpa using (List.nodup_range.subperm hall).length_le

/-- Then every request for a cell is refused. -/
theorem Queues.refuses_withdrawn {qs : Queues} (h : ∀ g, g < 2048 → g ∈ qs.lostCells) (q : Queue) {add : Nat} (hadd : 0 < add) :
    (qs.refuses q add).isNone = false := by
  have hroom : 32768 - qs.usedCells.length < add := by
    have := Queues.usedCells_withdrawn h
    omega
  unfold Queues.refuses
  dsimp only
  split
  · rfl
  · rw [if_pos (by simp [hroom])]
    rfl

/-- A producer that may wait, and whose request a RELIABLE queue without units refuses, waits and changes nothing (R255, Table 9-6). -/
theorem Device.putUnit_waits {d : Device} {n src : Nat} {mk : Nat → Bytes} (hon : (d.queue n).fn.st = .on) (hsubs : d.qs.activeSubs n ≠ [])
    (hfits : ceilDiv (mk (d.queue n).useq).len 256 ≤ (d.queue n).maxUnit) (hnone : (d.queue n).units = []) (hcls : (d.queue n).cls = 1)
    (hno : (d.qs.refuses (d.queue n) ((d.queue n).newCells (mk (d.queue n).useq).len)).isNone = false) :
    d.putUnit n src true mk = (d, .waits) := by
  have hreleased : d.releases n = d := by simp [Device.releases, hnone]
  have hstarted : ∀ len, d.startsFirst n len = d := fun len => by simp [Device.startsFirst, hcls]
  have hsearch : d.findCells n (fun q => q.newCells (mk (d.queue n).useq).len) 0 = (d, false) := by rw [Device.findCells, hno]
  unfold Device.putUnit
  simp [hon, hsubs, Nat.not_lt.2 hfits, hreleased, hstarted, hnone, hsearch, hcls]

/-- HEXPORT writes its units as they are, and may wait (Table 9-6). -/
theorem Device.cellRequest_export {d : Device} {n flags recsize records info : Nat} {unit : Bytes}
    (hbound : (d.queue n).bound = some .hexport) (hout : (d.queue n).inbound = false) (hlen : unit.len ≠ 0) :
    d.cellRequest n flags recsize records info unit = (d.putUnit n d.ring.node true (fun _ => unit)).1 := by
  unfold Device.cellRequest
  rw [hbound]
  simp only [hout, hlen, decide_false, Bool.or_self, Bool.false_eq_true, if_false]
  rfl

/-- A RELIABLE queue, ON, with a cell of RESERVE, the host subscribed and HEXPORT bound to it, while every group of cells is withdrawn. -/
def allWithdrawn : State :=
  { dev := {
      power := { core := .run }
      qs := {
        qs := [(20, { fn := { st := .on }, bound := some .hexport, cfg := .ofNat 128 (fields [(0, 1), (32, 1), (48, 1), (80, 1)]) })]
        subs := [{ queue := 20, who := 32, st := .active, lease := none }]
        lostCells := List.range 2048 } } }

theorem mem_lostCells_allWithdrawn (g : Nat) (hg : g < 2048) : g ∈ (allWithdrawn.elapse 0).dev.qs.lostCells := by
  simpa only [allWithdrawn, State.elapse, List.mem_range] using hg

/-- Its CELL_REQUEST writes nothing. -/
theorem cellRequest_allWithdrawn : (allWithdrawn.elapse 0).dev.cellRequest 20 0 0 0 0 ⟨1, 0⟩ = (allWithdrawn.elapse 0).dev := by
  have hno : ((allWithdrawn.elapse 0).dev.qs.refuses ((allWithdrawn.elapse 0).dev.queue 20)
      (((allWithdrawn.elapse 0).dev.queue 20).newCells 1)).isNone = false :=
    Queues.refuses_withdrawn mem_lostCells_allWithdrawn _ (by decide)
  have hput := Device.putUnit_waits (src := (allWithdrawn.elapse 0).dev.ring.node) (mk := fun _ => ⟨1, 0⟩) (by decide) (by decide) (by decide)
    (by decide) (by decide) hno
  rw [Device.cellRequest_export rfl (by decide) (by decide), hput]

/-- Refutes O35: a queue that is ON and has room within its CAP and RESERVE takes no unit where withdrawn regions have left no cell (log
entry 173). -/
theorem not_unitsSubscribersAndCredits : ¬ Obligations.UnitsSubscribersAndCredits := by
  intro h
  obtain ⟨-, -, -, -, -, -, hplain⟩ := h.1 allWithdrawn 0 20 0 0 .e .hexport 0 0 0 0 ⟨1, 0⟩ (by decide)
  obtain ⟨-, hwrites, -⟩ := hplain ⟨rfl, rfl, rfl⟩ rfl
  obtain ⟨u, hu, ⟨y, hunits, -⟩, -⟩ :=
    hwrites rfl (by decide) (by decide) (by decide) (by decide) (by decide) (by decide) (by decide) (by decide)
  have hrow : exec (.cellRequest 0 20 0 0 0 0 ⟨1, 0⟩) allWithdrawn = .next (State.settle (allWithdrawn.elapse 0) allWithdrawn.dev) := by
    dsimp only [exec, execCellRequest]
    exact coreRow_runs (x := (allWithdrawn.elapse 0).dev) (by decide) cellRequest_allWithdrawn
  obtain rfl := Host.Outcome.next.inj (hu.symm.trans hrow)
  dsimp only at hunits
  rw [State.settle_unstreamed_queue _ _ ⟨rfl, rfl, rfl⟩] at hunits
  exact absurd hunits (by simp)

end Sys2Proof.Machine
end

section
/-! Camera ports (R273-R276): what a packet, a start and a stop write of a port. Where nothing streams and no command waits, what is
reported changes the protocol's own state alone. -/

namespace Sys2Proof.Machine

open Sys2Proof

/-! Reports where nothing streams. -/

theorem Device.Unstreamed.of_qs {d x : Device} (h : d.Unstreamed) (e : x.qs = d.qs) : x.Unstreamed :=
  ⟨e ▸ h.held, e ▸ h.events, e ▸ h.mirror⟩

theorem Device.setWcp_told (d : Device) (w : Wcp) : d.OnlyIn [.wcp] { d with wcp := w } := by
  intro p hp
  cases p
  case wcp => exact absurd (by decide) hp
  all_goals rfl

section
variable {d : Device} (hu : d.Unstreamed)
include hu

theorem Device.raise_told (id source payload : Nat) : d.OnlyIn [.wcp] (d.raise id source payload) := by
  intro p hp
  have hqs := d.raise_unstreamed id source payload hu
  cases p
  case qs => exact hqs
  case wcp => exact absurd (by decide) hp
  all_goals rfl

theorem Device.limited_told (ev source sub len payload add : Nat) (first : Bool) :
    d.OnlyIn [.wcp] (d.limited ev source sub len payload add first) := by
  unfold Device.limited
  split
  · exact d.setWcp_told _
  · dsimp only
    exact (Device.raise_told hu ev source _).trans (Device.setWcp_told _ _)

theorem Device.camErr_told (p low : Nat) : d.OnlyIn [.wcp] (d.camErr p low) := Device.limited_told hu _ _ _ _ _ _ _

theorem Device.camEvent_told (p : Nat) : d.OnlyIn [.wcp] (d.camEvent p) := Device.raise_told hu _ _ _

end

/-! A camera port written. -/

/-- A device differs from another in one camera port, which is as given, and in the protocol's own state. -/
def Device.CamPut (d : Device) (p : Nat) (c : CamPort) (x : Device) : Prop := (d.modCam p fun _ => c).OnlyIn [.wcp] x

theorem vmod_const {α : Type} {n : Nat} (v : Vector α n) (i : Nat) (f : α → α) (d : α) (h : i < n) :
    vmod v i f = vmod v i fun _ => f (vget v i d) := by
  simp [vmod, vget, h]

theorem vmod_vmod_const {α : Type} {n : Nat} (v : Vector α n) (i : Nat) (a b : α) :
    vmod (vmod v i fun _ => a) i (fun _ => b) = vmod v i fun _ => b := by
  unfold vmod
  split <;> simp

section
variable {d x y : Device} {p : Nat} {c c' : CamPort}

theorem Device.modCam_put (d : Device) (hp : p < 4) (f : CamPort → CamPort) : d.CamPut p (f (d.cam p)) (d.modCam p f) := by
  have hcams : d.modCam p f = d.modCam p fun _ => f (d.cam p) := by
    unfold Device.modCam
    rw [vmod_const _ _ f {} hp]
    rfl
  rw [hcams]
  exact .refl _ _

theorem Device.CamPut.told (h : d.OnlyIn [.wcp] x) (hp : p < 4) : d.CamPut p (d.cam p) x := by
  have hsame : d.modCam p (fun _ => d.cam p) = d := by
    have hports : vmod d.cams.ports p (fun _ => d.cam p) = d.cams.ports := by
      simp [vmod, Device.cam, vget, hp]
    unfold Device.modCam
    rw [hports]
  unfold Device.CamPut
  rwa [hsame]

theorem Device.CamPut.refl (d : Device) (hp : p < 4) : d.CamPut p (d.cam p) d := .told (.refl _ d) hp

theorem Device.CamPut.cams (h : d.CamPut p c x) : x.cams = { d.cams with ports := vmod d.cams.ports p fun _ => c } := h .cams (by decide)

theorem Device.CamPut.qs (h : d.CamPut p c x) : x.qs = d.qs := h .qs (by decide)

theorem Device.CamPut.queue (h : d.CamPut p c x) (n : Nat) : x.queue n = d.queue n := congrArg (·.get n) h.qs

theorem Device.CamPut.now (h : d.CamPut p c x) : x.now = d.now := congrArg TimeBase.clk (h .time (by decide))

theorem Device.CamPut.cam (h : d.CamPut p c x) (hp : p < 4) : x.cam p = c := by
  rw [Device.cam, h.cams]
  exact vget_vmod_same _ _ _ _ hp

theorem Device.CamPut.other (h : d.CamPut p c x) {n : Nat} (hn : n ≠ p) : x.cam n = d.cam n := by
  rw [Device.cam, h.cams]
  exact vget_vmod_other _ _ _ _ _ hn.symm

theorem Device.CamPut.sync (h : d.CamPut p c x) : x.cams.sync = d.cams.sync := by rw [h.cams]

theorem Device.CamPut.onlyIn (h : d.CamPut p c x) : d.OnlyIn [.cams, .ports, .qs, .wcp] x := by
  intro q hq
  have hx := h q fun hm => hq (by revert hm; cases q <;> decide)
  cases q
  case cams => exact absurd (by decide) hq
  case ports => exact absurd (by decide) hq
  all_goals exact hx

theorem Device.CamPut.trans (h : d.CamPut p c x) (k : x.CamPut p c' y) : d.CamPut p c' y := by
  intro q hq
  have hx := h q hq
  have hy := k q hq
  cases q
  case cams =>
    have hboth : { d.cams with ports := vmod (vmod d.cams.ports p fun _ => c) p fun _ => c' } = (d.modCam p fun _ => c').cams := by
      rw [vmod_vmod_const]
      rfl
    refine k.cams.trans ?_
    rw [h.cams]
    exact hboth
  case ring =>
    have hports := congrArg (fun r : Ring => { r with ports := d.ring.ports }) hy
    exact hports.trans hx
  all_goals exact hy.trans hx

/-- Another change of the port. -/
theorem Device.CamPut.modCam (h : d.CamPut p c x) (hp : p < 4) (f : CamPort → CamPort) : d.CamPut p (f c) (x.modCam p f) :=
  h.trans (by rw [← h.cam hp]; exact x.modCam_put hp f)

/-- What is reported. -/
theorem Device.CamPut.reported (h : d.CamPut p c x) (hp : p < 4) (k : x.OnlyIn [.wcp] y) : d.CamPut p c y :=
  h.trans (by rw [← h.cam hp]; exact .told k hp)

theorem Device.CamPut.camErr (h : d.CamPut p c x) (hp : p < 4) (hu : d.Unstreamed) (low : Nat) : d.CamPut p c (x.camErr p low) :=
  h.reported hp (Device.camErr_told (hu.of_qs h.qs) p low)

end

/-! Starts and stops (R276). -/

section
variable {d : Device} {p : Nat} (hp : p < 4) (hu : d.Unstreamed) (hw : d.wcp.waits = [])
include hp

/-- The function of a port written. -/
theorem Device.modFn_cam (f : Fn → Fn) : d.CamPut p { d.cam p with fn := f (d.cam p).fn } (d.modFn (camFn p) f) := by
  have hfn : d.modFn (camFn p) f = d.modCam p (fun x => { x with fn := f (d.cam p).fn }) := by
    have hport : (Fin.ofNat 4 p).val = p := Nat.mod_eq_of_lt hp
    simp only [Device.modFn, camFn, Device.putFn, Device.getFn, hport]
    rfl
  rw [hfn]
  exact d.modCam_put hp fun x => { x with fn := f (d.cam p).fn }

include hw

omit hp in
/-- Where nothing waits, a port reaches ON in its function alone. -/
theorem Device.camOn_eq (hst : (d.cam p).fn.st = .starting) (hstop : (d.cam p).fn.stopPending = false) :
    d.camOn p = (d.modFn (camFn p) fun f => { f with st := .on, faultStop := false, restart := f.restart && f.stopPending }).camEvent p := by
  have hreach : d.reachOn (camFn p) = d.modFn (camFn p) fun f => { f with st := .on, faultStop := false, restart := f.restart && f.stopPending } :=
    Device.complete_noWaits _ _ _ _ hw
  unfold Device.camOn
  simp [hst, hstop, hreach]

/-- Without a fault stop it reaches OFF so. -/
theorem Device.camOff_eq (hfault : (d.cam p).fn.faultStop = false) :
    d.camOff p = (d.modFn (camFn p) fun f => { f with st := .off, stopPending := false, offUntil := d.now + 100 * us }).camEvent p := by
  have hfault : (d.getFn (camFn p)).faultStop = false := by
    have hport : (Fin.ofNat 4 p).val = p := Nat.mod_eq_of_lt hp
    simp only [camFn, Device.getFn, hport]
    exact hfault
  have hreach : d.reachOff (camFn p) (100 * us) =
      d.modFn (camFn p) fun f => { f with st := .off, stopPending := false, offUntil := d.now + 100 * us } := by
    unfold Device.reachOff
    simp only [hfault, Bool.false_eq_true, if_false]
    exact Device.complete_noWaits _ _ _ _ hw
  rw [Device.camOff, hreach]

include hu

theorem Device.camOn_put (hst : (d.cam p).fn.st = .starting) (hstop : (d.cam p).fn.stopPending = false) :
    d.CamPut p { d.cam p with fn := { (d.cam p).fn with st := .on, faultStop := false, restart := false } } (d.camOn p) := by
  have hon := Device.modFn_cam (d := d) hp fun f => { f with st := .on, faultStop := false, restart := f.restart && f.stopPending }
  rw [Device.camOn_eq hw hst hstop]
  have htold := hon.reported hp (Device.camEvent_told (hu.of_qs hon.qs) p)
  simpa only [hstop, Bool.and_false] using htold

theorem Device.camOff_put (hfault : (d.cam p).fn.faultStop = false) :
    d.CamPut p { d.cam p with fn := { (d.cam p).fn with st := .off, stopPending := false, offUntil := d.now + 100 * us } } (d.camOff p) := by
  have hoff := Device.modFn_cam (d := d) hp fun f => { f with st := .off, stopPending := false, offUntil := d.now + 100 * us }
  rw [Device.camOff_eq hp hw hfault]
  exact hoff.reported hp (Device.camEvent_told (hu.of_qs hoff.qs) p)

end

/-! What a packet leaves at its queue. -/

/-- The USEQ of a unit consumed that its queue does not get, counted under a reason. -/
def Device.useqLost (d : Device) (n reason : Nat) : Device :=
  (d.modQ n fun q => { q with useq := q.useq + 1 }).modQ n fun q => { q with drops := vmod q.drops reason (· + 1) }

/-- The USEQ of a unit consumed that nobody is to get. -/
def Device.useqUnsent (d : Device) (n : Nat) : Device :=
  (d.modQ n fun q => { q with useq := q.useq + 1 }).modQ n fun q => { q with unsent := q.unsent + 1 }

theorem Device.useqLost_unstreamed (d : Device) (hu : d.Unstreamed) (n reason : Nat) : (d.useqLost n reason).Unstreamed :=
  ⟨hu.held, hu.events, hu.mirror⟩

theorem Device.useqUnsent_unstreamed (d : Device) (hu : d.Unstreamed) (n : Nat) : (d.useqUnsent n).Unstreamed :=
  ⟨hu.held, hu.events, hu.mirror⟩

theorem Device.modQ_onlyIn (d : Device) (n : Nat) (f : Queue → Queue) : d.OnlyIn [.qs] (d.modQ n f) := by
  intro q hq
  cases q
  case qs => exact absurd (by decide) hq
  all_goals rfl

@[simp] theorem Device.useqLost_queue (d : Device) (n reason : Nat) : (d.useqLost n reason).queue n =
    { d.queue n with useq := (d.queue n).useq + 1, drops := vmod (d.queue n).drops reason (· + 1) } := by
  simp [Device.useqLost]

@[simp] theorem Device.useqUnsent_queue (d : Device) (n : Nat) : (d.useqUnsent n).queue n =
    { d.queue n with useq := (d.queue n).useq + 1, unsent := (d.queue n).unsent + 1 } := by
  simp [Device.useqUnsent]

theorem Device.useqLost_onlyIn (d : Device) (n reason : Nat) : d.OnlyIn [.qs] (d.useqLost n reason) :=
  (d.modQ_onlyIn n _).trans (Device.modQ_onlyIn _ n _)

theorem Device.useqUnsent_onlyIn (d : Device) (n : Nat) : d.OnlyIn [.qs] (d.useqUnsent n) :=
  (d.modQ_onlyIn n _).trans (Device.modQ_onlyIn _ n _)

theorem Device.useqLost_modCam (d : Device) (n reason p : Nat) (f : CamPort → CamPort) :
    (d.modCam p f).useqLost n reason = (d.useqLost n reason).modCam p f := rfl

theorem Device.useqUnsent_modCam (d : Device) (n p : Nat) (f : CamPort → CamPort) :
    (d.modCam p f).useqUnsent n = (d.useqUnsent n).modCam p f := rfl

/-- A unit for a queue that is not ON (R255). -/
theorem Device.putUnit_unsent {d : Device} {n : Nat} (hst : (d.queue n).fn.st ≠ .on) (src : Nat) (mayWait : Bool) (mk : Nat → Bytes) :
    d.putUnit n src mayWait mk = (d.useqUnsent n, .unsent) := by
  unfold Device.putUnit
  rw [if_pos (by simp [hst])]
  rfl

/-! Packets (R273-R275). -/

/-- A packet counted at its port. -/
def CamPort.counted (c : CamPort) : CamPort := { c with packets := c.packets + 1, traffic := true }

/-- A packet lost leaves the port's function as it is. -/
theorem CamPort.lose_fn (c : CamPort) (vc : Nat) (long : Bool) : (c.lose vc long).fn = c.fn := by
  unfold CamPort.lose
  cases long <;> rfl

theorem Device.camOn_idle {d : Device} {p : Nat} (hst : (d.cam p).fn.st ≠ .starting) : d.camOn p = d := by
  unfold Device.camOn
  rw [if_pos (by simpa using hst)]

section
variable {d : Device} {p : Nat} {k : CsiPacket} (hp : p < 4) (hu : d.Unstreamed)
include hp hu

/-- A packet discarded counts at its queue and is lost to its port. -/
theorem Device.camDrop_put {q : Nat} {h : BitVec 32} (hroute : (d.cam p).queueOf (csiVc h) = some q) (reason : Nat) :
    (d.useqLost q reason).CamPut p ((d.cam p).lose (csiVc h) (0x10 ≤ csiType h)) (d.camDrop p reason h) := by
  have hlost := (d.useqLost q reason).modCam_put hp fun c => c.lose (csiVc h) (0x10 ≤ csiType h)
  unfold Device.camDrop
  simp only [hroute]
  exact hlost.reported hp (Device.limited_told (d := (d.useqLost q reason).modCam p _) ⟨hu.held, hu.events, hu.mirror⟩ _ _ _ _ _ _ _)

omit hp hu in
theorem Device.camDrop_waits (d : Device) (reason : Nat) (h : BitVec 32) : (d.camDrop p reason h).wcp.waits = d.wcp.waits := by
  unfold Device.camDrop
  split
  · rfl
  · exact (Device.countDrop_near _ _ _ _).waits

theorem Device.packet_unrouted (htype : csiType k.hdr ≠ 0) (hroute : (d.cam p).queueOf (csiVc k.hdr) = none) :
    d.CamPut p { d.cam p with unrouted := (d.cam p).unrouted + 1 } (d.packet p k) := by
  unfold Device.packet
  simp only [htype, if_false, hroute]
  exact (d.modCam_put hp fun c => { c with unrouted := c.unrouted + 1 }).camErr hp hu _

theorem Device.packet_x10Lost {q : Nat} (htype : csiType k.hdr ≠ 0) (hroute : (d.cam p).queueOf (csiVc k.hdr) = some q)
    (hlost : k.x10Lost = true) :
    (d.useqLost q 3).CamPut p ((d.cam p).lose (csiVc k.hdr) (0x10 ≤ csiType k.hdr)) (d.packet p k) := by
  unfold Device.packet
  simp only [htype, if_false, hroute, hlost, if_true]
  exact Device.camDrop_put hp hu hroute 3

omit hp hu in
/-- A short packet for a queue that is not ON. -/
theorem Device.packet_unsent {q : Nat} (htype : 2 ≤ csiType k.hdr) (hshort : csiType k.hdr < 0x10)
    (hroute : (d.cam p).queueOf (csiVc k.hdr) = some q) (hkept : k.x10Lost = false) (hst : (d.queue q).fn.st ≠ .on) :
    d.packet p k = d.useqUnsent q := by
  have hput : d.camUnit p q k false false false = (d.useqUnsent q, .unsent) := by
    unfold Device.camUnit Device.putStream Device.putStreamAt
    exact Device.putUnit_unsent hst _ _ _
  have hlong : decide (0x10 ≤ csiType k.hdr) = false := by simpa using hshort
  have hend : (csiType k.hdr == 1) = false := by simp only [beq_eq_false_iff_ne]; omega
  unfold Device.packet
  simp only [show csiType k.hdr ≠ 0 by omega, if_false, hroute, hkept, Bool.false_eq_true, hlong, Bool.false_and, hend, hput, reduceCtorEq]

section
variable {q : Nat} (hlong : 0x10 ≤ csiType k.hdr) (hroute : (d.cam p).queueOf (csiVc k.hdr) = some q) (hkept : k.x10Lost = false)
include hlong hroute hkept

omit hu in
/-- With DROP_REST the rest of a frame whose packet was lost is lost. -/
theorem Device.packet_dropRest (hrest : bit (d.cam p).dropRest (csiVc k.hdr) = true) :
    d.CamPut p { d.cam p with lost := (d.cam p).lost + 1 } (d.packet p k) := by
  unfold Device.packet
  simp only [show csiType k.hdr ≠ 0 by omega, if_false, hroute, hkept, Bool.false_eq_true, hlong, decide_true, hrest, Bool.and_self, if_true]
  exact d.modCam_put hp fun c => { c with lost := c.lost + 1 }

variable (hwhole : bit (d.cam p).dropRest (csiVc k.hdr) = false)
include hwhole

theorem Device.packet_oversize (hsize : fld (d.cam p).cfg 47 32 < csiWc k.hdr) :
    d.CamPut p (({ d.cam p with oversize := (d.cam p).oversize + 1 } : CamPort).lose (csiVc k.hdr) true) (d.packet p k) := by
  unfold Device.packet
  simp only [show csiType k.hdr ≠ 0 by omega, if_false, hroute, hkept, Bool.false_eq_true, hlong, decide_true, hwhole, Bool.and_false, hsize,
    Bool.and_self, if_true]
  exact ((d.modCam_put hp fun c => { c with oversize := c.oversize + 1 }).modCam hp fun c => c.lose (csiVc k.hdr) true).camErr hp hu _

theorem Device.packet_badCrc (hsize : csiWc k.hdr ≤ fld (d.cam p).cfg 47 32) (hcrc : k.crcOk = false) (hdrop : bit (d.cam p).cfg 6 = true) :
    d.CamPut p (({ d.cam p with crcErr := (d.cam p).crcErr + 1 } : CamPort).lose (csiVc k.hdr) true) (d.packet p k) := by
  unfold Device.packet
  simp only [show csiType k.hdr ≠ 0 by omega, if_false, hroute, hkept, Bool.false_eq_true, hlong, decide_true, hwhole, Bool.and_false,
    Nat.not_lt.2 hsize, decide_false, hcrc, Bool.not_false, Bool.and_self, hdrop, if_true]
  exact ((d.modCam_put hp fun c => { c with crcErr := c.crcErr + 1 }).camErr hp hu _).modCam hp fun c => c.lose (csiVc k.hdr) true

end

/-- A packet with a header beyond correction is counted as such. -/
theorem Device.csi_uncorrectable (hst : (d.cam p).fn.st = .on ∨ (d.cam p).fn.st = .starting) (hecc : k.ecc = .uncorrectable) :
    d.CamPut p { (d.cam p).counted with badHdr := (d.cam p).badHdr + 1 } (d.csi p k) := by
  have hbad := ((d.modCam_put hp CamPort.counted).modCam hp fun c => { c with badHdr := c.badHdr + 1 }).camErr hp hu 224
  have hoff : ((d.cam p).fn.st == .off) = false := by rcases hst with h | h <;> rw [h] <;> rfl
  have hstop : ((d.cam p).fn.st == .stopping) = false := by rcases hst with h | h <;> rw [h] <;> rfl
  unfold Device.csi
  simp only [hoff, Bool.false_eq_true, if_false, hecc]
  rw [if_neg]
  · exact hbad
  · have hcam := hbad.cam hp
    unfold CamPort.counted at hcam
    rw [hcam]
    simp [hstop]

end

/-- A packet with a good header is what its port makes of it, where that does not stop the port. -/
theorem Device.csi_ok {d d' : Device} {p : Nat} {c : CamPort} {k : CsiPacket} (hp : p < 4) (hst : (d.cam p).fn.st ≠ .off) (hecc : k.ecc = .ok)
    (h : d'.CamPut p c (((d.modCam p CamPort.counted).camOn p).packet p k)) (hrun : c.fn.st ≠ .stopping) : d'.CamPut p c (d.csi p k) := by
  have hstop : ((((d.modCam p CamPort.counted).camOn p).packet p k).cam p).fn.st ≠ .stopping := by rwa [h.cam hp]
  unfold Device.csi
  rw [if_neg (by simpa using hst)]
  simp only [hecc]
  rw [if_neg]
  · exact h
  · rw [beq_iff_eq]
    exact hstop

/-! Rows of a port. -/

/-- A row of the core side that writes one port, where nothing streams. -/
theorem coreRow_camPut {s : State} {dt p : Nat} {f : Device → Device} {x d : Device} {c : CamPort} (halive : (s.elapse dt).dev.alive = true)
    (hf : f (s.elapse dt).dev = x) (hu : d.Unstreamed) (h : d.CamPut p c x) : Answers (coreRow dt f s) (fun u => d.CamPut p c u.dev) :=
  ⟨_, coreRow_runs halive hf, State.settle_unstreamed_onlyIn _ _ (hu.of_qs h.qs) h⟩

/-- What is known of a device in which a port was written and, before, the queues. -/
theorem Device.CamPut.gets {d e x : Device} {p : Nat} {c : CamPort} (h : e.CamPut p c x) (hp : p < 4) (hqs : d.OnlyIn [.qs] e) :
    x.cam p = c ∧ (∀ n, n ≠ p → x.cam n = d.cam n) ∧ x.cams.sync = d.cams.sync ∧ d.OnlyIn [.cams, .ports, .qs, .wcp] x := by
  have hcams : e.cams = d.cams := hqs .cams (by decide)
  refine ⟨h.cam hp, fun n hn => ?_, h.sync.trans (congrArg Cams.sync hcams), (hqs.mono (by decide)).trans h.onlyIn⟩
  rw [h.other hn, Device.cam, Device.cam, hcams]

section
variable {s : State} {dt : Nat} {p : Fin 4}

theorem camStartTimeout_idles (h : (s.elapse dt).dev.now < ((s.elapse dt).dev.cam p.val).startedAt + ms ∨
    ((s.elapse dt).dev.cam p.val).fn.st ≠ .starting ∨ ((s.elapse dt).dev.cam p.val).traffic = true) :
    Idles (exec (.camStartTimeout dt p) s) (s.elapse dt).dev := by
  dsimp only [exec, execCamStartTimeout]
  refine coreRow_idles dt _ s (ite_eq_right_iff.2 fun hdue => ?_)
  simp only [Bool.and_eq_true, decide_eq_true_eq, Bool.not_eq_true'] at hdue
  obtain ⟨hdue, hquiet⟩ := hdue
  rcases h with h | h | h
  · exact absurd hdue (Nat.not_le.2 h)
  · exact Device.camOn_idle h
  · exact absurd (hquiet.symm.trans h) Bool.false_ne_true

theorem camStopTimeout_idles {run : Option (BitVec 32)} (h : (s.elapse dt).dev.now < ((s.elapse dt).dev.cam p.val).fn.stopBy ∨
    ((s.elapse dt).dev.cam p.val).fn.st ≠ .stopping) : Idles (exec (.camStopTimeout dt p run) s) (s.elapse dt).dev := by
  dsimp only [exec, execCamStopTimeout]
  refine coreRow_idles dt _ s (if_neg fun hdue => ?_)
  simp only [Bool.and_eq_true, decide_eq_true_eq, beq_iff_eq] at hdue
  exact h.elim (fun h => absurd hdue.2 (Nat.not_le.2 h)) fun h => h hdue.1

theorem csi2Packet_idles {k : CsiPacket} (h : ((s.elapse dt).dev.cam p.val).fn.st = .off) :
    Idles (exec (.csi2Packet dt p k) s) (s.elapse dt).dev := by
  dsimp only [exec, execCsi2Packet]
  refine coreRow_idles dt _ s ?_
  unfold Device.csi
  rw [if_pos (beq_iff_eq.2 h)]

variable (halive : (s.elapse dt).dev.alive = true)
include halive

/-- CAM_START_TIMEOUT once it is due, with no packet yet. -/
theorem camStartTimeout_puts {c : CamPort} (hdue : ((s.elapse dt).dev.cam p.val).startedAt + ms ≤ (s.elapse dt).dev.now)
    (hquiet : ((s.elapse dt).dev.cam p.val).traffic = false) (hu : (s.elapse dt).dev.Unstreamed)
    (h : (s.elapse dt).dev.CamPut p.val c ((s.elapse dt).dev.camOn p.val)) :
    Answers (exec (.camStartTimeout dt p) s) (fun u => (s.elapse dt).dev.CamPut p.val c u.dev) := by
  dsimp only [exec, execCamStartTimeout]
  exact coreRow_camPut halive (if_pos (by simp [hdue, hquiet])) hu h

/-- CAM_STOP_TIMEOUT once it is due. -/
theorem camStopTimeout_puts {d : Device} {c : CamPort} {run : Option (BitVec 32)} (hst : ((s.elapse dt).dev.cam p.val).fn.st = .stopping)
    (hdue : ((s.elapse dt).dev.cam p.val).fn.stopBy ≤ (s.elapse dt).dev.now) (hu : d.Unstreamed)
    (h : d.CamPut p.val c ((match run with
      | some h => (s.elapse dt).dev.camDrop p.val 6 h
      | none => (s.elapse dt).dev).camOff p.val)) :
    Answers (exec (.camStopTimeout dt p run) s) (fun u => d.CamPut p.val c u.dev) := by
  dsimp only [exec, execCamStopTimeout]
  exact coreRow_camPut halive (if_pos (by simp [hdue, hst])) hu h

theorem csi2Packet_puts {d : Device} {c : CamPort} {k : CsiPacket} (hu : d.Unstreamed) (h : d.CamPut p.val c ((s.elapse dt).dev.csi p.val k)) :
    Answers (exec (.csi2Packet dt p k) s) (fun u => d.CamPut p.val c u.dev) := by
  dsimp only [exec, execCsi2Packet]
  exact coreRow_camPut halive rfl hu h

end

/-- A packet with a good header at a port that is ON. -/
theorem csi2Packet_gets {s : State} {dt : Nat} {p : Fin 4} {k : CsiPacket} {d : Device} {c : CamPort} (halive : (s.elapse dt).dev.alive = true)
    (hon : ((s.elapse dt).dev.cam p.val).fn.st = .on) (hecc : k.ecc = .ok) (hu : d.Unstreamed)
    (h : (d.modCam p.val CamPort.counted).CamPut p.val c (((s.elapse dt).dev.modCam p.val CamPort.counted).packet p.val k))
    (hrun : c.fn.st = .on) : Answers (exec (.csi2Packet dt p k) s) (fun u => d.CamPut p.val c u.dev) := by
  have hcam := ((s.elapse dt).dev.modCam_put p.isLt CamPort.counted).cam p.isLt
  have hidle := Device.camOn_idle (d := (s.elapse dt).dev.modCam p.val CamPort.counted) (p := p.val) (by
    rw [hcam, CamPort.counted, hon]
    decide)
  refine csi2Packet_puts halive hu (Device.csi_ok p.isLt (by rw [hon]; decide) hecc ?_ (by rw [hrun]; decide))
  rw [hidle]
  exact (d.modCam_put p.isLt CamPort.counted).trans h

/-! Frame sync (R277, R278). -/

section
variable {d : Device} {z : Fsync}

theorem Device.syncPulse_off (hmode : syMode z.cfg = 0) : d.syncPulse z = { z with high := none } := by
  unfold Device.syncPulse
  rw [if_pos hmode]

section
variable (hframed : syMode z.cfg = 1 ∨ (syMode z.cfg = 3 ∧ d.fire.fn.st = .on)) {t : Nat} (ht : d.framePulse z = some t)
include hframed ht

theorem Device.syncPulse_frame (hdue : t ≤ d.now) :
    d.syncPulse z = { z with k := z.k + 1, lastAt := some t, high := some (t + syWidth z.cfg * us) } := by
  unfold Device.syncPulse
  rw [if_neg (by omega), if_pos (by simpa using hframed), ht]
  simp only [hdue, if_true]

theorem Device.syncPulse_frameEarly (hearly : d.now < t) : d.syncPulse z = z := by
  unfold Device.syncPulse
  rw [if_neg (by omega), if_pos (by simpa using hframed), ht]
  simp only [Nat.not_le.2 hearly, if_false]

end

section
variable (hmode : 2 ≤ syMode z.cfg) (hfree : ¬ (syMode z.cfg = 1 ∨ (syMode z.cfg = 3 ∧ d.fire.fn.st = .on)))
include hmode hfree

theorem Device.syncPulse_freeNone (hnone : d.freePulse z = none) : d.syncPulse z = z := by
  unfold Device.syncPulse
  rw [if_neg (by omega), if_neg (by simpa using hfree), hnone]

variable {t : Nat} {g : Option Nat} (ht : d.freePulse z = some (t, g))
include ht

omit hmode in
theorem Device.syncPulse_near (hnear : syMode z.cfg = 3 ∧ (d.firstPulse z).any (fun x => decide (x ≤ t + ms)) = true) : d.syncPulse z = z := by
  unfold Device.syncPulse
  rw [if_neg (by omega), if_neg (by simpa using hfree), ht]
  simp only [hnear, beq_self_eq_true, Bool.and_self, if_true]

theorem Device.syncPulse_free (hfar : ¬ (syMode z.cfg = 3 ∧ (d.firstPulse z).any (fun x => decide (x ≤ t + ms)) = true)) :
    d.syncPulse z = { z with lastAt := some t, lastFree := g, high := some (t + syWidth z.cfg * us) } := by
  unfold Device.syncPulse
  rw [if_neg (by omega), if_neg (by simpa using hfree), ht]
  dsimp only
  rw [if_neg (by simpa using hfar)]

end

end

section
variable {s : State} {dt : Nat} {p : Fin 4} {z : Fsync}
  (hz : (s.elapse dt).dev.syncPulse (vget (s.elapse dt).dev.cams.sync p.val {}) = z)
include hz

/-- CAM_FSYNC_PULSE writes what the pulse makes of its output's state. -/
theorem camFsyncPulse_puts (halive : (s.elapse dt).dev.alive = true) :
    Answers (exec (.camFsyncPulse dt p) s) (fun u => u.dev.cams.sync = vset (s.elapse dt).dev.cams.sync p.val z ∧
      u.dev.cams.ports = (s.elapse dt).dev.cams.ports ∧ (s.elapse dt).dev.OnlyIn (.cams :: reports) u.dev) := by
  have hsync : vmod (s.elapse dt).dev.cams.sync p.val (fun x => (s.elapse dt).dev.syncPulse x) = vset (s.elapse dt).dev.cams.sync p.val z := by
    rw [← hz]
    simp [vmod, vset, vget]
  have honly : (s.elapse dt).dev.OnlyIn (.cams :: reports) { (s.elapse dt).dev with
      cams := { (s.elapse dt).dev.cams with sync := vset (s.elapse dt).dev.cams.sync p.val z } } := by
    intro q hq
    cases q
    case cams => exact absurd (by decide) hq
    all_goals rfl
  dsimp only [exec, execCamFsyncPulse]
  refine (coreRow_ends halive rfl (by rwa [hsync]) (by decide)).imp fun u ⟨hkeeps, honly⟩ => ⟨?_, ?_, honly⟩
  · rw [hkeeps.cams]
    exact hsync
  · rw [hkeeps.cams]

omit hz in
/-- Where that is the state it had, it idles. -/
theorem camFsyncPulse_idles
    (hz : (s.elapse dt).dev.syncPulse (vget (s.elapse dt).dev.cams.sync p.val {}) = vget (s.elapse dt).dev.cams.sync p.val {}) :
    Idles (exec (.camFsyncPulse dt p) s) (s.elapse dt).dev := by
  have hsync : vmod (s.elapse dt).dev.cams.sync p.val (fun x => (s.elapse dt).dev.syncPulse x) = (s.elapse dt).dev.cams.sync := by
    simp only [vmod, vget, p.isLt, dif_pos] at hz ⊢
    rw [hz]
    exact Vector.set_getElem_self _
  dsimp only [exec, execCamFsyncPulse]
  refine coreRow_idles dt _ s ?_
  rw [hsync]

end

/-- Settles O36: the guards of each row, then what a start, a stop and a packet write of their port, then the pulse given. -/
theorem cameraPorts : Obligations.CameraPorts := by
  intro s dt p k q run halive d c z fs framed near long vc at_ gets
  have hp : p.val < 4 := p.isLt
  refine ⟨camStartTimeout_idles, camStopTimeout_idles, csi2Packet_idles, ?noPulse, ?frame, ?frameEarly, ?free, ?freeNone, fun hu hw =>
    ⟨?start, ?stop, ?stopRunning, ?firstPacket, ?badHeader, fun hon => ?packets⟩⟩
  case noPulse => exact fun hmode => camFsyncPulse_puts (Device.syncPulse_off hmode) halive
  case frame => exact fun t hframed ht hdue => camFsyncPulse_puts (Device.syncPulse_frame hframed ht hdue) halive
  case frameEarly => exact fun t hframed ht hearly => camFsyncPulse_idles (Device.syncPulse_frameEarly hframed ht hearly)
  case free => exact fun t g hmode hfree ht hfar => camFsyncPulse_puts (Device.syncPulse_free hmode hfree ht hfar) halive
  case freeNone =>
    rintro hmode hfree (hnone | ⟨t, g, ht, hnear⟩)
    · exact camFsyncPulse_idles (Device.syncPulse_freeNone hmode hfree hnone)
    · exact camFsyncPulse_idles (Device.syncPulse_near hfree ht hnear)
  case start =>
    intro hst hstop hquiet hdue
    refine (camStartTimeout_puts halive hdue hquiet hu (Device.camOn_put hp hu hw hst hstop)).imp fun u hput => ?_
    obtain ⟨hcam, hother, -, honly⟩ := hput.gets hp (.refl _ d)
    exact ⟨hcam, hother, honly⟩
  case stop =>
    intro hst hdue hfault
    refine (camStopTimeout_puts halive hst hdue hu (run := none) (Device.camOff_put hp hu hw hfault)).imp fun u hput => ?_
    obtain ⟨hcam, hother, -, honly⟩ := hput.gets hp (.refl _ d)
    exact ⟨hcam, hother, honly⟩
  case stopRunning =>
    intro h hst hdue hfault hroute
    have hlost := Device.camDrop_put hp hu hroute 6
    have hfn : ((d.camDrop p.val 6 h).cam p.val).fn = c.fn := by rw [hlost.cam hp, CamPort.lose_fn]
    have hoff := hlost.trans (Device.camOff_put hp ((d.useqLost_unstreamed hu q 6).of_qs hlost.qs) ((d.camDrop_waits 6 h).trans hw)
      (by rw [hfn, hfault]))
    refine (camStopTimeout_puts (run := some h) halive hst hdue (d.useqLost_unstreamed hu q 6) hoff).imp fun u hput => ?_
    obtain ⟨hcam, -, -, honly⟩ := hput.gets hp (d.useqLost_onlyIn q 6)
    have hq : u.dev.queue q = (d.useqLost q 6).queue q := hput.queue q
    rw [Device.useqLost_queue] at hq
    refine ⟨?_, by rw [hq], by rw [hq], by rw [hq], honly⟩
    have hnow : (d.camDrop p.val 6 h).now = d.now := hlost.now
    simp only [at_, hcam, hfn, hnow]
  case firstPacket =>
    intro hst hstop hecc htype hroute
    have hcounted := d.modCam_put hp CamPort.counted
    have hcam := hcounted.cam hp
    have huc : (d.modCam p.val CamPort.counted).Unstreamed := hu.of_qs hcounted.qs
    have hon := Device.camOn_put hp huc hw (by rw [hcam]; exact hst) (by rw [hcam]; exact hstop)
    have hpacket := Device.packet_unrouted (k := k) hp (huc.of_qs hon.qs) htype (by rw [hon.cam hp, hcam]; exact hroute)
    rw [hon.cam hp, hcam] at hpacket
    refine (csi2Packet_puts halive hu (Device.csi_ok hp (by rw [hst]; decide) hecc (hcounted.trans (hon.trans hpacket))
      (fun h => nomatch h))).imp fun u hput => hput.gets hp (.refl _ d)
  case badHeader =>
    intro hst hecc
    exact (csi2Packet_puts halive hu (Device.csi_uncorrectable hp hu hst hecc)).imp fun u hput => hput.gets hp (.refl _ d)
  case packets =>
    have hcounted := d.modCam_put hp CamPort.counted
    have hcam : (d.modCam p.val CamPort.counted).cam p.val = c.counted := hcounted.cam hp
    have huc : (d.modCam p.val CamPort.counted).Unstreamed := hu.of_qs hcounted.qs
    refine ⟨?unrouted, ?x10Lost, ?dropRest, ?oversize, ?badCrc, ?unsent⟩
    case unrouted =>
      intro hecc htype hroute
      have hpacket := Device.packet_unrouted (k := k) hp huc htype (by rw [hcam]; exact hroute)
      rw [hcam] at hpacket
      exact (csi2Packet_gets halive hon hecc hu hpacket hon).imp fun u hput => hput.gets hp (.refl _ d)
    case x10Lost =>
      intro hecc htype hroute hlost hshort
      have hpacket := Device.packet_x10Lost hp huc htype (by rw [hcam]; exact hroute) hlost
      rw [hcam, Device.useqLost_modCam, show decide (0x10 ≤ csiType k.hdr) = false from hshort] at hpacket
      exact (csi2Packet_gets halive hon hecc (d.useqLost_unstreamed hu q 3) hpacket hon).imp fun u hput =>
        hput.gets hp (d.useqLost_onlyIn q 3)
    case dropRest =>
      intro hecc hroute hkept hlong hrest
      have hpacket := Device.packet_dropRest hp (of_decide_eq_true hlong) (by rw [hcam]; exact hroute) hkept (by rw [hcam]; exact hrest)
      rw [hcam] at hpacket
      exact (csi2Packet_gets halive hon hecc hu hpacket hon).imp fun u hput => hput.gets hp (.refl _ d)
    case oversize =>
      intro hecc hroute hkept hlong hwhole hsize
      have hpacket := Device.packet_oversize hp huc (of_decide_eq_true hlong) (by rw [hcam]; exact hroute) hkept (by rw [hcam]; exact hwhole)
        (by rw [hcam]; exact hsize)
      rw [hcam] at hpacket
      exact (csi2Packet_gets halive hon hecc hu hpacket (by rwa [CamPort.lose_fn])).imp fun u hput => hput.gets hp (.refl _ d)
    case badCrc =>
      intro hecc hroute hkept hlong hwhole hsize hcrc hdrop
      have hpacket := Device.packet_badCrc hp huc (of_decide_eq_true hlong) (by rw [hcam]; exact hroute) hkept (by rw [hcam]; exact hwhole)
        (by rw [hcam]; exact hsize) hcrc (by rw [hcam]; exact hdrop)
      rw [hcam] at hpacket
      exact (csi2Packet_gets halive hon hecc hu hpacket (by rwa [CamPort.lose_fn])).imp fun u hput => hput.gets hp (.refl _ d)
    case unsent =>
      intro hecc hroute hkept htype hshort hst
      have hpacket := Device.packet_unsent (d := d.modCam p.val CamPort.counted) (k := k) htype (by simpa [long] using hshort)
        (by rw [hcam]; exact hroute) hkept hst
      have hkeeps : ((d.useqUnsent q).modCam p.val CamPort.counted).CamPut p.val c.counted
          ((d.modCam p.val CamPort.counted).packet p.val k) := by
        rw [hpacket, Device.useqUnsent_modCam, ← hcam]
        exact .refl _ hp
      have hputs := csi2Packet_gets halive hon hecc (d.useqUnsent_unstreamed hu q) hkeeps hon
      refine ⟨hputs.imp fun u hput => hput.gets hp (d.useqUnsent_onlyIn q), hputs.imp fun u hput => ?_⟩
      have hq : u.dev.queue q = (d.useqUnsent q).queue q := hput.queue q
      rw [hq, Device.useqUnsent_queue]

end Sys2Proof.Machine
end
